-- ==== Sys2Proof/Word.lean ====
section
/-! DEFINITION. The words of the ZX-4820: bytes, the widths its registers have, and the names that index its parts
(R12 little-endian fields, R19 port and lane names, R21 terms). -/

namespace Sys2Proof

/-- A byte. -/
abbrev Byte := BitVec 8
/-- A 16-bit field. -/
abbrev U16 := BitVec 16
/-- A 32-bit register (R453). -/
abbrev U32 := BitVec 32
/-- A 64-bit register or counter (R14, R453). -/
abbrev U64 := BitVec 64
/-- A group number of a shot tag: 48 bits, wrapping (Table 3.7). -/
abbrev U48 := BitVec 48

/-- Port P0 or P1 (R1). -/
abbrev Port := Fin 2
/-- Fence domain FD00 to FD19 (Table 0.1). -/
abbrev Domain := Fin 20
/-- Self-timed region RG0 to RG9 (Table 0.1); a region's stitch-network node carries the same number (R265). -/
abbrev Region := Fin 10
/-- Ethernet lane 0 or 1 (R347). -/
abbrev Lane := Fin 2
/-- Stream route 0 to 15 (Table 11.21). -/
abbrev RouteId := Fin 16
/-- Pleat index 0 to 3 (Table 3.7). -/
abbrev Pleat := Fin 4

end Sys2Proof
end

