-- ==== Sys2Proof/Syntax.lean ====
section
/-! DEFINITION. The commands of the block: one constructor of `Instr` per row of spec/opcode_table.json, in the table's
order. The table gives no operands, so the operands are what the spec's rule for the row takes from outside the device
(log entry 7). `dt` is the number of CK_LNC periods of 2.5 ns since the previous command (log entry 2). -/

namespace Sys2Proof

/-- The two digital synthesisers (R103, R105). -/
inductive Pll where | a | d
deriving DecidableEq, Repr

/-- The two controllers of the hatband (R409). -/
inductive Ctl where | a | b
deriving DecidableEq, Repr

/-- The inputs of the hardwired path (R426). -/
inductive PermitInput where | ilock | conn0 | conn1
deriving DecidableEq, Repr

/-- The access paths of the status space, each with its own counter latch (R353). -/
inductive AccessPath where | pcie | mgmt0 | mgmt1 | placket
deriving DecidableEq, Repr

/-- What resets the PCIe link (R465). -/
inductive LinkReset where | hotReset | linkDown | perst
deriving DecidableEq, Repr

/-- The two Raman bands of a port (R204). -/
inductive Band where | as | st
deriving DecidableEq, Repr

/-- One measurement of a TIU channel (R128): the vernier counts of one and of two CK_LNC periods and of the edge.
The second CK_LNC edge after the measured edge is the one at which the command takes place. `missed`: the edge fell in
the channel's dead time, so it is not measured (R131). -/
structure TiuMeas where
  v1 : Nat
  v2 : Nat
  v : Nat
  missed : Bool
deriving DecidableEq, Repr

/-- What the start checks of the data plane and of the management plane find (R402). -/
structure StartChecks where
  /-- Slices whose start-up self-test fails: port, lane, slice (Table 5.8). -/
  slices : List (Port × Fin 4 × Fin 5)
  /-- The SUP self-test passes (Table 7.11). -/
  supOk : Bool
  /-- The TIU calibration span is within 560 to 720 (R128, R130). -/
  tiuOk : Bool
  /-- Domains with another start check that fails (R402, code 0x0002_8001). -/
  other : List Domain
deriving DecidableEq, Repr

/-- What reading a record out of the acquisition queue meets (R146), and how long the engine (Table 6.9) and its decisions
(EVT_LATENCY_PEAK) took. -/
structure QueueRead where
  /-- Instants, counted from sample 0, whose word had a corrected single-bit error. -/
  corrected : Nat
  /-- Instants whose word had an uncorrectable error. -/
  bad : List Nat
  /-- Notice to completion, ns. -/
  latencyNs : Nat
  /-- Completion to decision, ns. -/
  decisionNs : Nat
deriving DecidableEq, Repr

/-- One Raman converter sample: code and overrange flag (R205), and whether it was lost at the write seam (R281). -/
structure RamanSample where
  code : Int
  overrange : Bool
  lost : Bool := false
deriving DecidableEq, Repr

/-- How the queue write of a port lags at its entry seam (R280): at the arrival of each of `count` instants of the record from `from_`
on, `taken` instants have left the seam since the arrival before. -/
structure SeamLag where
  from_ : Nat
  count : Nat
  taken : Nat
deriving DecidableEq, Repr

/-- The sources of U notices (Table 9.4). -/
inductive USource where | evt | hbA | hbB | operator
deriving DecidableEq, Repr

/-- Transfers of class B (Table 9.3). -/
inductive BTransfer where
  /-- A status read and its answer. -/
  | status
  /-- The calibration statistics of a port's next record. -/
  | statistics (p : Port)
  /-- The oldest waiting black-box record. -/
  | blackBox
  /-- Configuration distribution at start. -/
  | configuration
  /-- The next mailbox write. -/
  | mailbox
deriving DecidableEq, Repr

/-- The flit that a link error hits, by its class (R268, R285). -/
inductive FlitHit where
  /-- An S flit of coherent record data of a port: the instants hit, counted from sample 0 of the oldest waiting record. -/
  | coherent (p : Port) (instants : List Nat)
  /-- An S flit of phase data: the next record of a port that its engine completes. -/
  | phase (p : Port)
  /-- An S flit of stream traffic: the next record on its way to a route. -/
  | product (route : RouteId)
  /-- An S flit on its way to a history ring: the next frame, block or record. -/
  | history (ring : Fin 3)
  /-- A B flit; `repeatFails` tells whether the one repetition fails as well. -/
  | background (what : BTransfer) (repeatFails : Bool)
  /-- A U flit of a source. -/
  | urgent (source : USource)
deriving DecidableEq, Repr

/-- A fault report of a domain: code of Table 13.6 or 13.7 form and value (R413). -/
structure FaultRep where
  domain : Domain
  code : U32
  value : U32
deriving DecidableEq, Repr

/-- Outcome of a memory verification (Tables 10.3, 15.3). -/
structure VerifyOutcome where
  code : Nat
  rank : Nat
  lane : Nat
  delay : Nat
  plus : Bool
deriving DecidableEq, Repr

/-- What a DRAM temperature poll reads (R301): nothing, a DDR4 sensor in 0.25 °C, or the DDR5 refresh-rate code of each rank
as a multiple of the normal rate. -/
inductive TempPoll where
  | unreadable
  | ddr4 (quarterC : Int)
  | ddr5 (rates : List Nat)
deriving DecidableEq, Repr

/-- What a memory access meets: the errors of the 72-bit words it reads (R299). -/
structure AccessMeet where
  /-- Words with a corrected single-bit error. -/
  corrected : Nat
  /-- Words of the access with an uncorrectable error, in address order. -/
  bad : List (Fin 8)
deriving DecidableEq, Repr

/-- An ARP frame as received (R347): operation 1 request or 2 reply, sender and target. -/
structure ArpFrame where
  op : Nat
  senderMac : U48
  senderIp : U32
  targetIp : U32
deriving DecidableEq, Repr

/-- A management or placket request after its addressing (Table 11.15), with the data that follow it. -/
structure MgmtReq where
  sync : U16
  op : Nat
  tag : U32
  offset : Nat
  length : Nat
  data : List Byte
  srcIp : U32
  srcPort : Nat
  srcMac : U48
deriving DecidableEq, Repr

/-- A coded consumer (R335): the history ring of a port, or a route with a port and a product. -/
inductive Consumer where
  | ring (p : Port)
  | route (r : RouteId) (p : Port) (product : Nat)
deriving DecidableEq, Repr

/-- OPT_DIE_ERROR in 0.001 K, and how long in ms the die has been beyond the window at issue. -/
structure DieError where
  err : Int
  ms : Nat
deriving DecidableEq, Repr

/-- The periods since the command before, with the reading that an event of the laser controller carries. -/
structure Timed (α : Type) where
  dt : Nat
  reading : α
deriving DecidableEq, Repr

/-- How far, in 0.01 dB, the mean peak of a kind of shot lies below its setting (R67). -/
structure PeakBelow where
  temperature : Bool
  below : Nat
deriving DecidableEq, Repr

/-- The end of an UPDATE_INTERVAL at a port, with the shadowing spares that meet row 3 or 4 of Table 5.8, by lane (R161). -/
structure UpdateEnd where
  port : Port
  spareBad : List (Fin 4 × Nat)
deriving DecidableEq, Repr

/-- The commands, one per row of spec/opcode_table.json. Log entry 7, DESIGN CHOICE. -/
inductive Instr where
  | powerGood (dt : Nat) (hbaOk hbbOk : Bool)
  | resetNAsserted (dt : Nat) (lowNs : Nat)
  | powerFailWarning (dt : Nat) (lowNs : Nat) (outMask : BitVec 8)
  | supplyMonitorTrip (dt : Nat) (outMask : BitVec 8) (low belowThreshold : Bool)
  | pfailRestart (dt : Nat)
  | requestedRestart (dt : Nat)
  | cfgLoadStart (dt : Nat)
  | imageReadDone (dt : Nat)
  | lsrRelease (dt : Nat) (checks : StartChecks)
  | laserDieInWindow (x : Timed Int)
  | injectionLockDetected (dt : Nat)
  | wavelengthTuned (x : Timed Int)
  | laserReady (x : Timed (Int × Int))
  | injectionLockLost (dt : Nat)
  | relockAttemptTimeout (dt : Nat)
  | wavelengthOutOfWindow (dt : Nat) (err : Int)
  | wavelengthRecoveryTimeout (dt : Nat)
  | dieTempOutOfWindow (dt : Nat) (e : DieError)
  | dieTempFenceTimeout (x : Timed DieError)
  | dieOverTemperature (dt : Nat)
  | laserPowerLow (dt : Nat) (permille : Nat)
  | tecSaturated (x : Timed Nat)
  | launchPeakHigh (dt : Nat) (p : Port)
  | launchPeakLow (dt : Nat) (p : Port) (k : PeakBelow)
  | leakageBetweenPulses (dt : Nat) (p : Port)
  | gateHeldTooLong (dt : Nat) (p : Port)
  | loPowerOutOfRange (dt : Nat) (p : Port) (permille : Nat)
  | photodiodeFault (dt : Nat) (p : Port) (percent : Nat)
  | pllLockWindow (dt : Nat) (pll : Pll) (count : Nat)
  | pllAcquireTimeout (dt : Nat) (pll : Pll)
  | pllRelockTimeout (dt : Nat) (pll : Pll)
  | refclkLost (dt : Nat)
  | pllCoastRelock (dt : Nat) (pll : Pll)
  | pllCoastLimit (dt : Nat) (pll : Pll)
  | syncInEdge (dt : Nat) (m : TiuMeas) (lowPeriods : Nat) (offset : Int)
  | syncWaitTimeout (dt : Nat)
  | syncEdgeTimeout (dt : Nat)
  | syncFrameReceived (dt : Nat) (slots : List Bool)
  | ppsInEdge (dt : Nat) (m : TiuMeas)
  | ppsHoldoverTimeout (dt : Nat)
  | deviceTimeWrap
  | ppsOutEdge (dt : Nat)
  | syncOutSend (dt : Nat)
  | groupStart (dt : Nat) (p : Port)
  | pleatShotLaunch (dt : Nat) (p : Port) (k : Pleat)
  | temperatureShotLaunch (dt : Nat) (p : Port)
  | shotGateClose (dt : Nat) (p : Port)
  | launchMonitorEdge (dt : Nat) (p : Port) (m : TiuMeas) (peak : Int) (energy : Nat)
  | launchTimestampTimeout (dt : Nat) (p : Port)
  | triggerEdge (dt : Nat) (input : Fin 2) (level : Bool) (m : TiuMeas)
  | triggerEdgeAccepted (dt : Nat) (p : Port)
  | triggerTimeout (dt : Nat) (p : Port)
  | recordNotice (dt : Nat) (p : Port) (words : List U64) (lags : List SeamLag)
  | calUpdate (dt : Nat) (e : UpdateEnd)
  | sliceSubstitution (dt : Nat) (p : Port)
  | phaseRecordProcess (dt : Nat) (p : Port) (r : QueueRead)
  | ramanRecordClose (dt : Nat) (p : Port) (as st : List RamanSample)
  | ramanOffsetMeasure (dt : Nat) (p : Port) (as st : List Int)
  | dtsUpdateBoundary (dt : Nat) (p : Port)
  | battSwap (dt : Nat) (p : Port) (corrected uncorrectable : Nat)
  | dtsProfileDone (dt : Nat) (p : Port)
  | refHoldExpiry (dt : Nat) (p : Port)
  | supPassStart (dt : Nat) (selfTestOk : Bool)
  | supConversionDone (dt : Nat) (code : Int)
  | supCoarseValue (dt : Nat) (code : Int)
  | snapshotCopy (dt : Nat) (poisoned : List Nat)
  | alarmDemandNotice (dt : Nat)
  | alarmMinAssertExpiry (dt : Nat) (o : Fin 4)
  | operatorStateNotice (dt : Nat)
  | uNoticeRepeat (dt : Nat)
  | regionDeltaSample (dt : Nat) (mv : List Nat) (halfK : List Int)
  | warningClear (dt : Nat) (code : U32)
  | marginMeasure (dt : Nat) (capacities : List (List Nat))
  | linkWordError (dt : Nat) (node : Region) (uncorrectable : Bool) (hit : FlitHit)
  | stallDetected (dt : Nat) (region : Region) (stage : Nat)
  | memInitStart (dt : Nat) (vddqMv : Nat)
  | memVerifyDone (dt : Nat) (v : VerifyOutcome)
  | memZeroFillDone (dt : Nat)
  | memSweepDone (dt : Nat) (entries : List (Nat × Nat))
  | refreshDue (dt : Nat)
  | dramTempPoll (dt : Nat) (t : TempPoll)
  | selfRefreshEntry (dt : Nat) (abandoned : Bool)
  | selfRefreshExit (dt : Nat)
  | memAccessBoundary (dt : Nat) (a : AccessMeet)
  | scrubRequest (dt : Nat)
  | requestOverdue (dt : Nat) (port : Fin 4)
  | rtItemArrival (dt : Nat) (ring : Fin 3)
  | ringFlush (dt : Nat) (ring : Fin 3)
  | coderFlush (dt : Nat) (c : Consumer)
  | outRecordEnqueue (dt : Nat) (route : RouteId)
  | heartbeatTimer (dt : Nat) (route : RouteId)
  | housekeepingTimer (dt : Nat) (route : RouteId)
  | timingRecordClose (dt : Nat) (p : Port)
  | arpRefresh (dt : Nat) (lane : Lane)
  | arpRetryTimeout (dt : Nat) (lane : Lane)
  | arpFrameReceived (dt : Nat) (lane : Lane) (f : ArpFrame)
  | ethLinkUp (dt : Nat) (lane : Lane)
  | ethLinkDown (dt : Nat) (lane : Lane)
  | icmpEchoRequest (dt : Nat) (lane : Lane) (srcMac : U48) (srcIp dstIp : U32) (data : List Byte)
  | ethFrameDiscarded (dt : Nat) (lane : Lane)
  | mgmtStatusRead (dt : Nat) (lane : Lane) (r : MgmtReq) (failed : Bool)
  | mgmtBlackBoxRead (dt : Nat) (lane : Lane) (r : MgmtReq)
  | mgmtEcho (dt : Nat) (lane : Lane) (r : MgmtReq)
  | mgmtUnknownOp (dt : Nat) (lane : Lane) (r : MgmtReq)
  | pcieConfigRequest (dt : Nat) (isWrite : Bool) (reg : Nat) (value : U32)
  | pciePowerStateChange (dt : Nat) (d3hot : Bool)
  | pcieFunctionLevelReset (dt : Nat)
  | pcieLinkReset (dt : Nat) (kind : LinkReset)
  | bar2Read (dt : Nat) (offset length : Nat)
  | counterLowWordRead (dt : Nat) (path : AccessPath) (offset length : Nat) (failed : Bool)
  | msixTableWrite (dt : Nat) (offset : Nat) (value : U32)
  | msixHoldoffExpiry (dt : Nat) (v : Fin 8)
  | registerWrite (dt : Nat) (offset : Nat) (data : List Byte)
  | mbxUnlockWrite (dt : Nat) (word : U32)
  | mbxStageBegin (dt : Nat)
  | mbxStageBlock (dt : Nat)
  | mbxStageAbort (dt : Nat)
  | mbxRestart (dt : Nat)
  | mbxUnknownCommand (dt : Nat) (word : U32)
  | mbxLockLapse (dt : Nat)
  | flashEraseDone (dt : Nat) (ok : Bool)
  | flashProgramDone (dt : Nat) (ok : Bool)
  | flashOperationTimeout (dt : Nat)
  | stagingCheckDone (dt : Nat)
  | faultReport (dt : Nat) (extra : List FaultRep)
  | fenceCommand (dt : Nat)
  | recoveryAttempt (dt : Nat) (d : Domain)
  | recoverySequenceEnd (dt : Nat) (d : Domain) (failing : List (Fin 4 × Fin 5))
  | recoveryOverrun (dt : Nat) (d : Domain)
  | recoveryCleanTick (dt : Nat)
  | hbAliveMissed (dt : Nat) (c : Ctl)
  | hbDigestExchange (dt : Nat) (equal : Bool)
  | hbSelfCheckFail (dt : Nat) (c : Ctl)
  | bothFailedLatch (dt : Nat)
  | bbxRecordWritten (dt : Nat)
  | bbxMirrorStart (dt : Nat)
  | bbxMirrorDone (dt : Nat) (ok : Bool)
  | permitWithdrawn (dt : Nat) (input : PermitInput) (highNs : Nat)
  | permitRestored (dt : Nat) (input : PermitInput)
  | alsShutdown (dt : Nat) (p : Port)
  | alsProbeEntry (dt : Nat) (p : Port)
  | alsProbeWindowEnd (dt : Nat) (p : Port)
  | alsProbeJudged (dt : Nat) (p : Port)
  | alsProbeNoLaunch (dt : Nat) (p : Port)
  | keyAcknowledge (dt : Nat) (k : Fin 8)
  | keyManualRestart (dt : Nat) (k : Fin 8)
  | keyLampTest (dt : Nat) (k : Fin 8)
  | lampTestTimeout (dt : Nat)
  | keyBrightness (dt : Nat) (k : Fin 8)
  | keyRelease (dt : Nat) (k : Fin 8)
  | panelCompose (dt : Nat)
  | panelBufferSwap (dt : Nat)
  | colourMeasurement (dt : Nat)
  | colourPhaseEnd (dt : Nat) (counts : Option (Nat × Nat × Nat))
  | ledDiagPulse (dt : Nat) (led : Fin 384) (isOpen : Bool)
  | ledDiagExpiry (dt : Nat) (led : Fin 384)
  | placketAttach (dt : Nat)
  | placketDetach (dt : Nat)
  | dfuDnload (dt : Nat) (block : Nat) (data : List Byte)
  | dfuGetstatus (dt : Nat)
  | dfuClrstatus (dt : Nat)
  | dfuGetstate (dt : Nat)
  | dfuAbort (dt : Nat)
  | dfuDetach (dt : Nat)
  | dfuUpload (dt : Nat)
  | placketStatusRead (dt : Nat) (r : MgmtReq) (failed : Bool)
  | placketBlackBoxRead (dt : Nat) (r : MgmtReq)
  | placketEcho (dt : Nat) (r : MgmtReq)
  | placketBlackBoxDump (dt : Nat) (r : MgmtReq)
  | placketRestart (dt : Nat) (r : MgmtReq)
  | placketBadRequest (dt : Nat) (r : MgmtReq)
  | apdBiasOutOfRange (dt : Nat) (p : Port) (b : Band) (mv : Nat)
  | apdCurrentHigh (dt : Nat) (p : Port) (b : Band) (microA : Nat)
  | hbSelfTestDone (dt : Nat) (aOk bOk : Bool)
  | pcieLinkUp (dt : Nat) (speed width : Nat)
  | bar2Write (dt : Nat) (offset : Nat)
  | placketConfigured (dt : Nat) (highSpeed : Bool)
  | ethFrameSent (dt : Nat) (lane : Lane)
deriving DecidableEq, Repr

end Sys2Proof
end

