-- ==== Sys2Proof/Config.lean ====
section
/-! DEFINITION. What the spec leaves open or fixes per device: constants without a body, so that no proof can see their value. -/

namespace Sys2Proof.Config

/-- Address fused at manufacture for a lane (Table 11.20, MAC zero). Log entry 102, DESIGN CHOICE. -/
opaque fusedMac : Lane → U48
/-- Serial number fused in the module (GEN_SERIAL, Table 15.4). Log entry 102, DESIGN CHOICE. -/
opaque serial : U64
/-- Aelleura's USB vendor identifier (R443, PLK_USB_ID). Log entry 102, DESIGN CHOICE. -/
opaque usbVendor : BitVec 16
/-- What a configuration read of a register returns, of what the host has written, newest first: PCI Express lays it out (R354).
Log entry 81, DESIGN CHOICE. -/
opaque configSpace : List (Nat × U32) → Nat → U32
/-- A free value of 64 bits, by its index.
Log entry 3, DESIGN CHOICE; log entry 22, DEDUCED; log entry 36, DESIGN CHOICE; log entry 93, DEDUCED. -/
opaque freeWord : Nat → U64

/-- Where a rule states no rounding, a value between two whole numbers is rounded up: by the place in the model and the value.
Log entry 112, DESIGN CHOICE. -/
opaque roundsUp : Nat → Rat → Bool

/-- The bytes of a torn black-box record, left by a write that lost power (R419). Log entry 25, DEDUCED. -/
opaque tornRecord : Nat → List Byte

/-- A pulse between its two recognition bounds is recognised (R427, R474), by its index. Log entry 14, DESIGN CHOICE. -/
opaque shortPulse : Nat → Bool
/-- The dark count m_0 that the colour feedback keeps of the three counts of its dark phase (R441).
Log entry 97, DESIGN CHOICE. -/
opaque darkCount : Nat → Nat → Nat → Nat

/-- Land-to-vernier delay of a TIU channel with an input, in 2⁻²⁴ ns, retained at manufacture; for the launch monitors it
includes the way to the reference plane (R128). Log entry 29, DESIGN CHOICE. -/
opaque channelDelay : Fin 8 → Nat → Nat
/-- The calibration a TIU channel holds from its start check, before a measurement has made one: v1 and v2 (R128).
Log entry 29, DESIGN CHOICE. -/
opaque startCalibration : Fin 8 → Nat × Nat
/-- Nominal delay from a shot's scheduled time to its launch, 2⁻⁸ ns, retained at manufacture (R93). -/
opaque launchDelay : Port → Nat
/-- SOA drive for the next shot of a port, of its drive for the last of the kind and of how far that lay below its setting, 0.01 dB
(R49 states no gain). Log entry 103, DESIGN CHOICE. -/
opaque soaDrive : Port → Int → Int → Int
/-- SOA drive limit of a port (Table 2.10 row 7). Log entry 103, DESIGN CHOICE. -/
opaque soaLimit : Port → Int
/-- The increment after the proportional-integral correction of TRACK: of the old one, the error, TAU and an index (Table 4.8).
Log entry 26, DESIGN CHOICE. -/
opaque trackIncr : Nat → Int → Nat → Nat → Nat
/-- The slew that is added to the increment for an error beyond STEP_THRESHOLD, before its limit of 10 ppm (R119).
Log entry 26, DESIGN CHOICE. -/
opaque slewStep : Int → Nat → Int

/-- Receive-path delay of a port, 2⁻⁸ ns, retained at manufacture (R140). -/
opaque receiveDelay : Port → Nat
/-- Check bits of a queue word (R146: the code is not stated). Log entry 113, DEDUCED. -/
opaque checkBits : U64 → Byte
/-- Taps of the fractional-delay filters of R148 by delay in 0.25 ps: 9 for a slice, 17 for a lane. Log entry 38, DESIGN CHOICE. -/
opaque sliceTap : Int → Nat → Rat
opaque laneTap : Int → Nat → Rat
/-- The factory set of a port, by correction (R149). Log entry 38, DESIGN CHOICE. -/
opaque factorySet : Port → Nat → Int
/-- Factory block power and noise floor, as sums over a block of corrected squares (Table 5.5). -/
opaque factoryPower : Port → Nat
opaque noiseFloor : Port → Nat → Nat
/-- n of a correction whose estimate no rule states, by index: a shadowing spare's, and one that divides by zero (R153, R159).
Log entry 117, DESIGN CHOICE. -/
opaque openSteps : Port → Nat → Nat → Int

/-- Taps of the separation filter: of the pleat's width in 0.25 MHz, the resampling phase in 1/64 of CK_SMP, and the tap (Table 6.2).
Log entry 38, DESIGN CHOICE. -/
opaque separationTap : Nat → Nat → Nat → Rat
/-- Weights of TAPER 1 and 2 by number of points and point, and their loss in dB (Table 6.3). Log entry 38, DESIGN CHOICE. -/
opaque taperWeight : Nat → Nat → Nat → Rat
opaque taperLoss : Nat → Rat
/-- Noise floor σ² of a point, 1/64 of (1/8 ADC LSB)²: of the port, its gain code, its sweep and duration, the bands of its
pleats and TAPER (R171).
Log entry 38, DESIGN CHOICE. -/
opaque pointNoise : Port → Nat → Int → Nat → List (Int × Nat) → Nat → Nat
/-- By how many LSB a gauge phase differs from the nearest to arg z; for z zero, what it is (R172). Log entry 43, DESIGN CHOICE. -/
opaque phaseError : Int → Int → Int
/-- Whether the root of a number that is no square rounds up (Table 6.8). Log entry 43, DESIGN CHOICE. -/
opaque rootUp : Nat → Bool
/-- Taps of the half-band filters F1 and F2 at the odd distances 1, 3, 5 … from the middle (Table 6.5, R184: not stated).
Log entry 43, DESIGN CHOICE. -/
opaque f1Tap : Nat → Rat
opaque f2Tap : Nat → Rat
/-- Flits that carry the gauge values of an acoustic sample, by their number (R271: their form is not stated).
Log entry 46, DEDUCED. -/
opaque sampleFlits : Nat → Nat

/-- Feedback ratio of a lane's code 0 or 1 to 50 kΩ, retained at manufacture: nominally 25 and 5 (R209). Log entry 54, DESIGN CHOICE. -/
opaque feedbackRatio : Port → Nat → Nat → Rat
/-- Offset drift of a lane at a feedback, codes per K, retained at manufacture (R207). Log entry 54, DESIGN CHOICE. -/
opaque offsetDrift : Port → Nat → Nat → Rat
/-- Noise floor of a Raman lane, 2⁻¹⁶ normalised units (R256). -/
opaque ramanFloor : Port → Nat → Nat
/-- A_b(m) of an update in which no energy of the Raman shot was measured, by an index (R213). Log entry 54, DESIGN CHOICE. -/
opaque openResponse : Nat → Nat → Rat
/-- What an entry holds that was read with an uncorrectable error, by an index and the bin; none for an entry read right (R209).
Log entry 54, DESIGN CHOICE. -/
opaque badEntry : Nat → Nat → Option Int
/-- Noise floor of a response of a port and band, normalised units per nJ (R215). Log entry 54, DESIGN CHOICE. -/
opaque responseFloor : Port → Nat → Rat
/-- The polynomial retained at manufacture, as binary32: L0, LS and the fifteen coefficients (R216). Log entry 54, DESIGN CHOICE. -/
opaque factoryPoly : Port → Nat → U32
/-- Value of a point or gauge that carries none, by an index and the point. Log entry 54, DESIGN CHOICE. -/
opaque blankValue : Nat → Nat → Int
/-- Temperature of a thermistor in 0.001 °C whose resistance comes out as none: of its REF_INPUT record and x (R231).
Log entry 54, DESIGN CHOICE. -/
opaque openTemperature : List Byte → Int → Int
/-- Receiver temperature in 0.001 °C of a port, of its code (Table 7.6). -/
opaque receiverTemp : Port → Int → Int
/-- A byte the spec does not state, of an index and a position: segment bytes that hold no data, fields of an open header, words
read with an uncorrectable error, memory that has not been filled. Log entry 3, DESIGN CHOICE; log entry 66, DESIGN CHOICE. -/
opaque fillByte : Nat → Nat → Byte
/-- FEC codewords of a lane so far, corrected or not (Table 11.22): a quantity of the line that no command reports, at a time. -/
opaque fecCount : Lane → Bool → Nat → U64
/-- A measured quantity that no command has reported (drive current), by its number, at a time. -/
opaque reading : Nat → Nat → Int
/-- A key hash programmed into a fuse slot reads back equal; and the bytes a slot holds whose read-back differs (R379), by index. -/
opaque fuseReads : Nat → Bool
opaque fuseHash : Nat → List Byte
/-- DSCP of management answers (R352 states none). Log entry 79, DEDUCED. -/
opaque answerDscp : Nat
/-- The field offset reported for a failure of codes 9 and 14 to 17, by code, type and offset of the record (R381 names none).
Log entry 18, DESIGN CHOICE. -/
opaque failField : Nat → Nat → Nat → U32

end Sys2Proof.Config
end

