-- ==== Sys2Proof/Machine/Bytes.lean ====
section
/-! DEFINITION. Bytes and bits: little-endian fields (R12), two's complement fields, CRC-32C (R12), and reading a field of a
record's payload (R371). -/

namespace Sys2Proof.Machine

/-- The `n` bytes of an unsigned value, least significant first (R12). -/
def le : Nat → Nat → List Byte
  | 0, _ => []
  | n + 1, v => BitVec.ofNat 8 v :: le n (v / 256)

/-- The `n` bytes of a signed value, two's complement, least significant first. -/
def leInt (n : Nat) (v : Int) : List Byte := le n (v % (256 ^ n : Nat)).toNat

/-- The `n` bytes of an unsigned value, most significant first. -/
def be (n v : Nat) : List Byte := (le n v).reverse

/-- The unsigned value of bytes, least significant first. -/
def leNat : List Byte → Nat
  | [] => 0
  | b :: bs => b.toNat + 256 * leNat bs

/-- The unsigned value of bytes, most significant first. -/
def beNat (bs : List Byte) : Nat := leNat bs.reverse

/-- The signed reading of an unsigned `n`-bit value. -/
def toSigned (n v : Nat) : Int := if v < 2 ^ (n - 1) then v else (v : Int) - 2 ^ n

/-- `n` bytes at an offset, zero where the bytes end. -/
def slice (bs : List Byte) (off n : Nat) : List Byte :=
  let t := (bs.drop off).take n
  t ++ List.replicate (n - t.length) 0

/-- The unsigned field of `n` bytes at an offset. -/
def fieldAt (bs : List Byte) (off n : Nat) : Nat := leNat ((bs.drop off).take n)

/-- The signed field of `n` bytes at an offset. -/
def sfieldAt (bs : List Byte) (off n : Nat) : Int := toSigned (8 * n) (fieldAt bs off n)

/-- One bit of a value. -/
def bitOf (v k : Nat) : Bool := v / 2 ^ k % 2 == 1

/-- Bit `k` set when the flag is. -/
def bitIf (b : Bool) (k : Nat) : Nat := if b then 2 ^ k else 0

/-- The word whose bit `k` is the `k`-th flag. -/
def bitsOf : List Bool → Nat
  | [] => 0
  | b :: bs => (if b then 1 else 0) + 2 * bitsOf bs

/-- Zero bytes up to a multiple of 4. -/
def pad4 (bs : List Byte) : List Byte := bs ++ List.replicate ((4 - bs.length % 4) % 4) 0

/-- Pack bits into bytes, bit 0 first, the last byte filled with zero bits (R338). -/
def packBits : List Bool → List Byte
  | b0 :: b1 :: b2 :: b3 :: b4 :: b5 :: b6 :: b7 :: t =>
    BitVec.ofNat 8 (bitsOf [b0, b1, b2, b3, b4, b5, b6, b7]) :: packBits t
  | [] => []
  | l => [BitVec.ofNat 8 (bitsOf l)]

/-- The low `n` bits of a value, least significant first. -/
def bitList : Nat → Nat → List Bool
  | 0, _ => []
  | n + 1, v => (v % 2 == 1) :: bitList n (v / 2)

/-- One bit of the CRC-32C register. -/
def crcBit (c : U32) : U32 := if c.getLsbD 0 then (c >>> 1) ^^^ 0x82F63B78#32 else c >>> 1

/-- One byte of the CRC-32C register. -/
def crcByte (c : U32) (b : Byte) : U32 :=
  let c := c ^^^ b.setWidth 32
  crcBit (crcBit (crcBit (crcBit (crcBit (crcBit (crcBit (crcBit c)))))))

/-- CRC-32C of bytes (R12). -/
def crc32c (bs : List Byte) : U32 := ~~~ (bs.foldl crcByte 0xFFFFFFFF#32)

/-- Saturate into a range (R453). -/
def clampNat (hi v : Nat) : Nat := if v ≤ hi then v else hi

/-- Saturate a signed value into an `n`-bit two's complement range. -/
def clampInt (n : Nat) (v : Int) : Int :=
  if v < -(2 ^ (n - 1) : Int) then -(2 ^ (n - 1) : Int) else if v ≥ 2 ^ (n - 1) then 2 ^ (n - 1) - 1 else v

/-- `a / b` rounded to the nearest integer, halves to even: convergent rounding. -/
def roundDiv (a : Int) (b : Nat) : Int :=
  let q := a / (b : Int)
  let r := a % (b : Int)
  if 2 * r < b then q else if 2 * r > b then q + 1 else if q % 2 = 0 then q else q + 1

/-- Change one element of a vector. -/
def upd {α : Type} {n : Nat} (v : Vector α n) (i : Fin n) (f : α → α) : Vector α n := v.set i (f v[i])

end Sys2Proof.Machine
end

