-- ==== Sys2Proof/Machine/State.lean ====
section
/-! DEFINITION. The state of the ZX-4820 as plain data: every register, FIFO, buffer, counter, mode and pin the spec names,
grouped by the block that owns it. Each field's default value is its value in `State.reset`: R455 where the spec states it,
the assumption log where it does not. Registers the spec derives from other state (HLT_HEALTH_N, HLT_FENCED, PNL_PERMIT and
the like) are stored once and computed by Flags.lean and Status.lean. Times named "at" or "since" count CK_LNC periods of
2.5 ns on `State.now` (log entry 2). -/

namespace Sys2Proof.Machine

/-! ## Records and what leaves the lands -/

/-- A Penbex record before it is numbered: the header fields of Table 11.1 that do not depend on its route. -/
structure PRec where
  typ : Nat
  port : Nat
  coding : Nat := 0
  part : Nat := 0
  parts : Nat := 1
  time : U64 := 0
  wraps : U32 := 0
  payload : List Byte := []
  /-- When it was completed (R349). -/
  doneAt : Nat := 0
deriving DecidableEq, Repr

/-- How a PCI Express request ends (R354, R356, R357, R460). -/
inductive Cpl where
  /-- Successful completion with data. -/
  | data (bytes : List Byte)
  /-- Successful completion with the EP bit set. -/
  | poisoned (bytes : List Byte)
  /-- Unsupported Request. -/
  | ur
  /-- Configuration Request Retry Status. -/
  | crs
  /-- Completer Abort: the error response of a failed status read. -/
  | abort
deriving DecidableEq, Repr

/-- What the modulator writes for a shot (R44, R78, R80): its optical frequency lies `centre` from the laser's, and a chirp sweeps
by `sweep` over its duration, upwards when it is positive. -/
structure Pulse where
  /-- Offset of its middle from the laser, 0.25 MHz. -/
  centre : Int
  /-- s · B in 0.25 MHz; zero for a rectangular pulse. -/
  sweep : Int
  /-- D in 1.25 ns. -/
  duration : Nat
deriving DecidableEq, Repr

/-- What leaves the device, in the order it left, newest first. Log entry 4, DESIGN CHOICE. -/
inductive Output where
  /-- A UDP datagram of a lane. -/
  | udp (lane : Lane) (dstMac : U48) (dstIp : U32) (srcPort dstPort : Nat) (dscp : Nat) (payload : List Byte)
  /-- An ARP frame: operation 1 request or 2 reply; the gratuitous form asks for the lane's own address. -/
  | arp (lane : Lane) (op : Nat) (dstMac : U48) (targetIp : U32)
  /-- An ICMP echo reply. -/
  | echoReply (lane : Lane) (dstMac : U48) (dstIp : U32) (data : List Byte)
  /-- An MSI-X message. -/
  | msix (vector : Fin 8) (address : U64) (data : U32)
  /-- A PCI Express completion. -/
  | completion (c : Cpl)
  /-- The answer to a placket request, a DFU request or a descriptor request of the USB host. -/
  | usb (bytes : List Byte)
  /-- A stalled DFU request. -/
  | usbStall
  /-- The panel I²C master writes a register of the colour sensor (R441). -/
  | sensorWrite (addr reg value : Nat)
  /-- The panel I²C master reads six bytes of the colour sensor from a register (R441). -/
  | sensorRead (addr reg : Nat)
  /-- PPS_OUT rises for a number of milliseconds. -/
  | ppsOut (widthMs : Nat)
  /-- SYNC_OUT sends a pulse (empty list) or the slots of a frame. -/
  | syncOut (slots : List Bool)
  /-- The gate of a port's SOA opens on a shot of this pulse, regulated to a peak in 0.5 dBm (R44, R49, R78). -/
  | light (p : Port) (pulse : Pulse) (peak : Int)
deriving DecidableEq, Repr

/-! ## Power and restart (chapters 13 and 16) -/

/-- Where the device stands between supplies and run (R397, R403). -/
inductive Phase where
  /-- Before power good, or held in reset: every function in reset. -/
  | held
  /-- After power good. -/
  | up
  /-- State POWER_FAIL. -/
  | powerFail
deriving DecidableEq, Repr

/-- Supplies, reset lands and the causes of the next start (R397, R403 to R405, R473 to R475). -/
structure Power where
  phase : Phase := .held
  /-- A supply fell to its power-on threshold since the last start (cause 0x01, R475). -/
  belowThreshold : Bool := true
  /-- RESET_N was recognised since the last start (cause 0x02). -/
  resetSeen : Bool := false
  /-- A supply left its range since the last start (cause 0x06). -/
  tripSeen : Bool := false
  /-- PFAIL_N was withdrawn with the supplies in range (cause 0x05). -/
  pfailSeen : Bool := false
  /-- A requested restart stands: cause 0x03 or 0x04 and the time it falls due (R464, R447). -/
  request : Option (Nat × Nat) := none
  /-- A restart has been requested and taken (causes 0x03, 0x04). -/
  requested : Option Nat := none
  /-- Time of the power-fail warning or its last renewal (R405). -/
  failAt : Nat := 0
  /-- HLT_RESET_CAUSE (Table 13.1). -/
  cause : Nat := 0
deriving DecidableEq, Repr

/-! ## Hatband and black box (chapter 13) -/

/-- HLT_FDn_STATE (Table 13.13). -/
inductive DomSt where
  | running | waiting | attempt | permanent | idle
deriving DecidableEq, Repr

/-- One fence domain, as the hatband and its agent hold it (R406, R413). -/
structure Dom where
  st : DomSt := .idle
  /-- The agent's fence is closed: the boundary of Table 13.4 is driven and status is frozen (R406). -/
  shut : Bool := false
  /-- HLT_FDn_FAULTS. -/
  faults : U32 := 0
  /-- HLT_FDn_ATTEMPTS. -/
  attempts : Nat := 0
  /-- HLT_FDn_LAST_CODE. -/
  lastCode : U32 := 0
  /-- HLT_FDn_LAST_TIME. -/
  lastTime : U64 := 0
  /-- ready_at of R413. -/
  readyAt : Nat := 0
  /-- clean_since of R413. -/
  cleanSince : Nat := 0
  /-- When the attempt in progress began (Table 13.10 RECOVERED, sequence time). -/
  begun : Nat := 0
deriving DecidableEq, Repr

/-- A hatband controller (R409, R410). -/
inductive CtlSt where
  | active | standby | failed
deriving DecidableEq, Repr

/-- A raised warning (R416). -/
structure Warn where
  code : U32
  value : U32
  /-- When its condition last held. -/
  seenAt : Nat
  /-- The places (port, input and the like, zero where the condition has one place) where it still holds. -/
  holders : List Nat := []
deriving DecidableEq, Repr

/-- What a notice of the hatband carries (Table 9.4): the fence mask, the fence state of each alarm output while FD11 is named, and
the active controller. -/
structure HbNotice where
  mask : BitVec 20
  outputs : Vector (Option Nat) 4
  active : Option Ctl
deriving DecidableEq, Repr

/-- The hatband and the fence mesh (R405 to R417). -/
structure Hatband where
  doms : Vector Dom 20 := Vector.replicate 20 {}
  ctlA : CtlSt := .active
  ctlB : CtlSt := .standby
  /-- A digest mismatch has started self-tests that have not ended (R410). -/
  selfTest : Bool := false
  /-- The both-failed latch (R412). -/
  bothFailed : Bool := false
  /-- HLT_HB_DIGEST_MISMATCH. -/
  digestMismatch : U32 := 0
  /-- Raised warnings, oldest first (HLT_WARN_LIST, HLT_WARN_COUNT). -/
  warnings : List Warn := []
  /-- Fault reports on the dedicated lines, not yet handled (R406). -/
  reports : List FaultRep := []
  /-- The fence or recovery command on its way to the agents (R272, R406): a later one replaces it. -/
  notice : Option HbNotice := none
  /-- HLT_FAULT_PENDING. -/
  faultPending : BitVec 20 := 0
  /-- Health sequence of Table 11.4: the number of the last HEALTH record. -/
  healthSeq : U32 := 0
deriving DecidableEq, Repr

/-- A black-box record (Table 13.9); SEQ is given when it is written. -/
structure BbxRec where
  seq : U32 := 0
  kind : Nat
  domain : Nat := 0xFF
  flags : Nat := 0
  time : U64 := 0
  wraps : U32 := 0
  boot : Nat := 0
  block : Nat := 0
  code : U32 := 0
  value : U32 := 0
  detail : List Byte := []
deriving DecidableEq, Repr

/-- The black box: store, queue and mirror (R418 to R422). -/
structure BlackBox where
  /-- The slots behind index `next`, newest first, at most 8,192; `none` is a torn record. -/
  slots : List (Option BbxRec) := []
  /-- BBX_NEXT: index to be written next. -/
  next : Nat := 0
  /-- SEQ of the newest record written, across restarts (BBX_LAST_SEQ). -/
  lastSeq : U32 := 0
  /-- HLT_BOOT, kept in the store (R418). -/
  boot : U32 := 0
  /-- Records waiting, oldest first; the first is the one being written. At most 64. -/
  queue : List BbxRec := []
  /-- BBX_DROPPED. -/
  dropped : U32 := 0
  /-- BBX_TORN. -/
  torn : U32 := 0
  /-- BBX_HARDWIRED. -/
  hardwired : U32 := 0
  /-- BBX_MIRROR_STATE. -/
  mirrorState : Nat := 0
  /-- BBX_MIRROR_SEQ. -/
  mirrorSeq : U32 := 0
  /-- The instant image being mirrored: slots, next index, boot and time (R422). -/
  mirror : Option (List (Option BbxRec) × Nat × U64) := none
  /-- The mirror of this start has begun or is not wanted. -/
  mirrorBegun : Bool := false
deriving DecidableEq, Repr

/-! ## Routes, lanes, coders and PCI Express (chapter 11) -/

/-- A record in a lane's transmit buffer (R349). -/
structure TxItem where
  route : RouteId
  prec : PRec
deriving DecidableEq, Repr

/-- The frame on a lane's line: its record numbered, its destination resolved (R348). -/
structure Sending where
  route : RouteId
  mac : U48
  bytes : List Byte
deriving DecidableEq, Repr

/-- A next hop of a lane (R348). -/
structure ArpEntry where
  ip : U32
  mac : Option U48 := none
  /-- Requests sent and not answered. -/
  unanswered : Nat := 0
  /-- When the last request went out. -/
  askedAt : Nat := 0
  /-- When the entry was last resolved or its last resolving began. -/
  refreshedAt : Nat := 0
deriving DecidableEq, Repr

/-- An Ethernet lane (R347 to R352). -/
structure LaneSt where
  up : Bool := false
  arp : List ArpEntry := []
  /-- EVENT, HEALTH and HEARTBEAT records waiting (R349). -/
  urgent : List TxItem := []
  /-- Other records waiting. -/
  normal : List TxItem := []
  /-- The record whose frame is on the line. -/
  sending : Option Sending := none
  txFrames : U64 := 0
  rxFrames : U64 := 0
  rxDiscards : U64 := 0
  bufferPeak : U32 := 0
  arpFails : U32 := 0
  /-- Management requests held of those that arrived at an instant, and that instant (R352). -/
  asked : Nat := 0
  askedAt : Nat := 0
deriving DecidableEq, Repr

/-- Shot tags gathered for one TIMING record of kind 2 (R334). -/
structure TagGather where
  entries : List (List Byte) := []
  /-- When the first entry came. -/
  firstAt : Nat := 0
deriving DecidableEq, Repr

/-- One acoustic or decimated sample of a product: values and quality codes of the points from the consumer's first point. -/
structure Row where
  /-- Index j of the sample (R185, R191). -/
  j : Nat
  /-- FIRST_TIME of the sample (R192). -/
  time : U64
  /-- FIRST_SHOT of Table 6.7. -/
  shot : U64 := 0
  calSet : Nat := 0
  /-- FLAGS of Table 6.7 that the sample sets. -/
  flags : Nat := 0
  values : List Int
  codes : List Nat
deriving DecidableEq, Repr

/-- Samples gathered for the next DAS records of a route, port and product (R195, R363), or for open coded blocks (R336). -/
structure Gather where
  port : Nat
  product : Nat
  coarse : Bool
  rows : List Row := []
  /-- When the last sample entered (R336). -/
  lastAt : Nat := 0
  /-- A block of this consumer was lost before the next (Table 11.9 FLAGS[3]). -/
  lost : Bool := false
deriving DecidableEq, Repr

/-- A stream route (R329, R348 to R351). -/
structure RouteSt where
  /-- SEQUENCE of the last record numbered. -/
  seq : U32 := 0
  /-- Numbers were skipped before the next record sent. -/
  skipped : Bool := false
  records : U64 := 0
  lost : U64 := 0
  /-- OUT_ROUTEn_LOAD, kB/s (R350). -/
  load : U32 := 0
  /-- Records formed, on their way to the lane. -/
  inflight : List PRec := []
  /-- When a record was last sent (R351). -/
  sentAt : Nat := 0
  /-- When the last HOUSEKEEPING record was formed (R333). -/
  housekeptAt : Nat := 0
  tags : Vector TagGather 2 := Vector.replicate 2 {}
  das : List Gather := []
deriving DecidableEq, Repr

/-- Management requests on the lanes (R352). -/
structure Mgmt where
  requests : U32 := 0
  dropped : U32 := 0
deriving DecidableEq, Repr

/-- The coders of a port (R335 to R345). -/
structure CmpPort where
  blocks : U64 := 0
  flushed : U64 := 0
  overflowed : U64 := 0
  escapes : U64 := 0
  /-- Largest EMAX since restart for codings 2, 3 and 4. -/
  emaxPeak : Vector Nat 3 := Vector.replicate 3 0
  lost : U32 := 0
deriving DecidableEq, Repr

/-- State of the PCI Express link (OUT_PCIE_STATE). -/
inductive LinkSt where
  | off | training | up
deriving DecidableEq, Repr

/-- One MSI-X vector: its table entry as PCI Express lays it out, pending bit and hold-off (R358). Log entry 82, PRESUMED. -/
structure MsixVec where
  addr : U64 := 0
  data : U32 := 0
  /-- Vector control; bit 0 masks. PCI Express resets it masked. -/
  control : U32 := 1
  pending : Bool := false
  /-- No further message before this time. -/
  holdUntil : Nat := 0
  /-- An event came during the hold-off. -/
  merged : Bool := false
  /-- OUT_MSIXn_SENT. -/
  sent : U32 := 0
deriving DecidableEq, Repr

/-- The PCI Express endpoint (R354 to R358). -/
structure Pcie where
  link : LinkSt := .off
  speed : Nat := 0
  width : Nat := 0
  d3hot : Bool := false
  /-- Configuration registers as the host last wrote them, newest first. -/
  config : List (Nat × U32) := []
  msix : Vector MsixVec 8 := Vector.replicate 8 {}
  bar2Reads : U64 := 0
  poisoned : U32 := 0
  ur : U32 := 0
  writesDiscarded : U32 := 0
deriving DecidableEq, Repr


/-! ## Configuration, flash and staging (chapter 12) -/

/-- One record of the loaded image (Table 12.4): its type, its offset in the slot and its payload. -/
structure ImgRec where
  typ : Nat
  version : Nat := 1
  flags : Nat := 0
  offset : Nat := 0
  payload : List Byte
deriving DecidableEq, Repr

/-- The loaded configuration image, retained on-die (R387). -/
structure Image where
  slot : Nat := 0
  generation : U32 := 0
  digest : List Byte := []
  /-- The image was loaded while signatures were mandatory, and its KEY_SLOT (R379). -/
  keySlot : Option Nat := none
  records : List ImgRec
deriving DecidableEq, Repr

/-- Result of a slot's load checks (Tables 12.9 and 12.15). -/
structure SlotResult where
  code : Nat := 0xFF
  sub : Nat := 0
  typ : Nat := 0
  offset : U32 := 0
  field : U32 := 0
  /-- CFG_SLOTx_GENERATION. -/
  generation : U32 := 0
  /-- Header codes 1 to 3 passed (R380). -/
  candidate : Bool := false
deriving DecidableEq, Repr

/-- A key slot in the fuses (R378). Log entry 6, PRESUMED. -/
structure KeySlot where
  hash : List Byte := List.replicate 32 0
  valid : Bool := false
  revoked : Bool := false
  spoiled : Bool := false
deriving DecidableEq, Repr

/-- The attached SPI NOR flash: contents and what its SFDP tables state (R365 to R367, R392; log entry 5).
Log entry 5, PRESUMED. -/
structure Flash where
  /-- Bytes that differ from erased flash, in rising address order (Memory.wf). -/
  cells : List Host.Cell := []
  sfdp : Bool := true
  sizeMbit : Nat := 128
  /-- Fast-read modes declared with a supported quad-enable method. -/
  quad144 : Bool := true
  quad114 : Bool := true
  fourByteOnly : Bool := false
  /-- The quad-enable bit is set (R367). -/
  quadEnabled : Bool := false
  erase4k : Bool := true
  erase64k : Bool := true
  /-- Longest erase time of a unit and longest page program time, ms, where the tables state them. -/
  eraseMs : Option Nat := none
  pageMs : Option Nat := none
  /-- JEDEC identity as CFG_FLASH_ID lays it out. -/
  jedec : U32 := 0
deriving DecidableEq, Repr

/-- Which path feeds a staging (R389). -/
inductive Feeder where
  | mailbox | placket
deriving DecidableEq, Repr

/-- What a staging waits for (R390). -/
inductive StagePhase where
  /-- More of the image. -/
  | receiving
  /-- The erase of the target slot's units. -/
  | erasing
  /-- The next page program. -/
  | programming
  /-- The dry load. -/
  | checking
  /-- The program of the held header page. -/
  | header
deriving DecidableEq, Repr

/-- A staging in progress (R390). -/
structure Staging where
  feeder : Feeder
  phase : StagePhase := .receiving
  /-- Bytes received so far, in order. -/
  bytes : List Byte := []
  /-- Bytes from the second page on that have been programmed. -/
  programmed : Nat := 256
  /-- The header has been accepted and the units erased. -/
  erased : Bool := false
  /-- A zero-length block has ended the transfer. -/
  ended : Bool := false
  /-- IMAGE_LENGTH of the staged header. -/
  length : Nat := 0
  generation : U32 := 0
  target : Nat := 0
  /-- When the erase or program under way began (R392). -/
  since : Nat := 0
deriving DecidableEq, Repr

/-- The configuration block (Table 12.15) and the loader behind it. -/
structure Cfg where
  /-- CFG_STATE: 0 loading, 1 loaded, 2 unconfigured. -/
  state : Nat := 0
  /-- CFG has been released (Table 12.10, step 1) and when. -/
  released : Bool := false
  releasedAt : Nat := 0
  /-- The slot being read for its full check. -/
  current : Option Nat := none
  /-- A full check of the other candidate has failed at this start (R385). -/
  fellBack : Bool := false
  image : Option Image := none
  /-- CFG_LOAD_TIME, µs. -/
  loadTime : U32 := 0
  slots : Vector SlotResult 2 := Vector.replicate 2 {}
  /-- CFG_FALLBACK. -/
  fallback : Bool := false
  flashId : U32 := 0
  /-- CFG_FLASH_MODE. -/
  flashMode : U32 := 0
  /-- The four key slots (R378), kept in fuses. -/
  keys : Vector KeySlot 4 := Vector.replicate 4 {}
  /-- CFG_KEY_FULL. -/
  keyFull : Bool := false
  staging : Option Staging := none
  /-- CFG_STAGE_RESULT, CFG_STAGE_DETAIL, CFG_STAGE_SLOT, CFG_STAGE_GENERATION. -/
  stageResult : U32 := 0
  stageDetail : U32 := 0
  stageSlot : U32 := 0
  stageGeneration : U32 := 0
  stages : U32 := 0
  restartRefused : U32 := 0
  /-- REF_FREQ and QSPI_DIV in force (R382). -/
  refFreq : Nat := 0
  qspiDiv : Nat := 2
deriving DecidableEq, Repr

/-! ## Optical engine (chapter 2, Table 15.5) -/

/-- LASER_STATE in the order of Table 2.8. -/
inductive LaserSt where
  | off | warming | locking | tuning | settling | ready | relock | fault
deriving DecidableEq, Repr

/-- A shot whose gate is open (R62 to R65). Log entry 31, DEDUCED. -/
structure ShotFlight where
  /-- Pleat index, or none for a temperature shot. -/
  pleat : Option Nat
  openedAt : Nat
  pulse : Pulse
deriving DecidableEq, Repr

/-- The optical engine of one port. -/
structure OptPort where
  /-- The SOA gate is open; its shot. -/
  gate : Option ShotFlight := none
  /-- OPT_Pn_SHUTTER. -/
  shutter : Bool := false
  /-- When the shutter last opened (R64). -/
  openedAt : Nat := 0
  /-- How long the gate last stood open, 1.25 ns (R78). -/
  openFor : Nat := 0
  peak : Int := 0
  tsPeak : Int := 0
  /-- SOA drive for the next vibration and the next temperature shot (R49). Log entry 103, DESIGN CHOICE. -/
  drive : Int := 0
  tsDrive : Int := 0
  loPower : U32 := 0
  abortedShots : U64 := 0
  shots : U64 := 0
  gateCuts : U32 := 0
deriving DecidableEq, Repr

/-- The laser and both ports' optics. -/
structure Opt where
  laser : LaserSt := .off
  dieClose : Bool := false
  waveClose : Bool := false
  lockDetected : Bool := false
  tecSaturated : Bool := false
  dieError : Int := 0
  waveError : Int := 0
  tecCurrent : Int := 0
  laserPower : U32 := 0
  lockLosses : U32 := 0
  relocks : U32 := 0
  /-- OPT_FAULT_ROW1 to OPT_FAULT_ROW12. -/
  rows : Vector U32 12 := Vector.replicate 12 0
  /-- Relock attempts of the present RELOCK, when the present one began, and when each loss of the last minute came (R67, Table
  2.10). -/
  attempts : Nat := 0
  attemptAt : Nat := 0
  losses : List Nat := []
  /-- When a row of Table 2.10 last ended READY: rows that apply at once act beside it (R68). -/
  leftReadyAt : Option Nat := none
  /-- When SETTLING was last entered (Table 2.8). -/
  settlingAt : Nat := 0
  /-- A wavelength fault is being recovered, and since when. -/
  waveFault : Option Nat := none
  /-- The laser has been READY since start (R431, Table 14.2). -/
  everReady : Bool := false
  ports : Vector OptPort 2 := Vector.replicate 2 {}
deriving DecidableEq, Repr

/-! ## Operator side (chapter 14) -/

/-- ALS states in the order of Table 14.2. -/
inductive AlsSt where
  | idle | probe | sensing | shutdown | held | disabled | suspended
deriving DecidableEq, Repr

/-- One ALS group of a probe window: group number and whether its end was near, once decided (R433). -/
structure ProbeGroup where
  group : U48
  near : Option Bool := none
  /-- Its end, once decided. -/
  point : U32 := 0
deriving DecidableEq, Repr

/-- ALS of one port (R430 to R435). -/
structure Als where
  st : AlsSt := .idle
  /-- PNL_Pn_ALS_SHUTDOWNS. -/
  shutdowns : U32 := 0
  probes : U32 := 0
  probeFails : U32 := 0
  shutdownTime : U64 := 0
  shutdownPoint : U32 := 0
  /-- From when PROBE_PERIOD counts. -/
  periodFrom : Nat := 0
  /-- When the last group of the probe was launched, or PROBE was entered (no-launch timer). -/
  launchedAt : Nat := 0
  /-- When the probe window began, if it has. -/
  windowFrom : Option Nat := none
  windowEnded : Bool := false
  /-- Groups launched in the window, oldest first. -/
  groups : List ProbeGroup := []
  /-- A near group end on its way to the ALS controller as a U notice, with its point (Table 14.3, step 3). -/
  nearNotice : Option U32 := none
deriving DecidableEq, Repr

/-- What a notice of the operator side carries (Table 9.4): the inputs and the ALS state of each port. -/
structure OpNotice where
  inputs : Vector Bool 3
  als : Vector AlsSt 2
deriving DecidableEq, Repr

/-- The hardwired inputs (R426 to R429), in the order ILOCK_N, CONN0_N, CONN1_N. -/
structure Permits where
  /-- The input is asserted and has passed the restoration timer. -/
  asserted : Vector Bool 3 := Vector.replicate 3 true
  /-- PNL_ILOCK_OPENS and PNL_Pn_CONN_OPENS. -/
  opens : Vector U32 3 := Vector.replicate 3 0
  /-- When each input last rose (R428). -/
  risenAt : Vector Nat 3 := Vector.replicate 3 0
  /-- The states that the operator side last sent as a U notice, and those that its sinks hold: SHT, the hatband and EVT (R272). -/
  sent : Option OpNotice := none
  noticed : Option OpNotice := none
deriving DecidableEq, Repr

/-- One key (R436). -/
structure KeySt where
  pressed : Bool := false
  /-- The present press has had its effect. -/
  acted : Bool := false
  presses : U32 := 0
  /-- When it was last found pressed or released. -/
  changedAt : Nat := 0
deriving DecidableEq, Repr

/-- One LED (R442): 0 not diagnosed, 1 good, 2 failed. -/
structure LedSt where
  state : Nat := 0
  opens : Nat := 0
  /-- When it was last diagnosed, or the panel started. -/
  diagAt : Nat := 0
deriving DecidableEq, Repr

/-- The operator panel (R436 to R442). -/
structure Panel where
  /-- PNL_STATE 1: the panel runs. -/
  running : Bool := false
  keys : Vector KeySt 8 := Vector.replicate 8 {}
  keyIgnored : U32 := 0
  /-- The key whose lamp test stands, and since when. -/
  lampTest : Option (Fin 8 × Nat) := none
  /-- PNL_BRIGHTNESS. -/
  brightness : Nat := 0
  /-- Front and back frame buffers, 384 bytes, red, green, blue of pixel 0 first. -/
  front : List Byte := []
  back : List Byte := []
  /-- A composition has ended and its swap is due. -/
  composed : Bool := false
  /-- When the last composition ended. -/
  composedAt : Nat := 0
  /-- The first swap has taken place (R438). -/
  swapped : Bool := false
  swaps : U64 := 0
  /-- PNL_FRAMES up to `scanFrom`, and since when the scan has run on. -/
  frames : U64 := 0
  scanFrom : Nat := 0
  leds : Vector LedSt 384 := Vector.replicate 384 {}
  /-- PNL_TRIM_R, PNL_TRIM_G, PNL_TRIM_B. -/
  trims : Vector Nat 3 := Vector.replicate 3 1024
  /-- The colour phase under way (0 dark, 1 red, 2 green, 3 blue) and the counts kept. -/
  colourPhase : Option Nat := none
  colourCounts : List Nat := []
  colourFault : Bool := false
  /-- When the last measurement began. -/
  colourAt : Nat := 0
  /-- Targets captured at the first measurement for a TARGET of zero (R441). -/
  captured : Vector (Option Int) 3 := Vector.replicate 3 none
  /-- PNL_COLOUR_LAST: m_0, m_R, m_G, m_B. -/
  colourLast : Vector Nat 4 := Vector.replicate 4 0
  colourTime : U64 := 0
  sensorFault : Bool := false
  trimLimit : Bool := false
deriving DecidableEq, Repr

/-- DFU states used (R444; numbers of DFU 1.1). -/
inductive DfuSt where
  | idle | dnloadSync | dnloadIdle | manifestSync | error
deriving DecidableEq, Repr

/-- The placket (R443 to R447). -/
structure Placket where
  vbus : Bool := false
  attached : Bool := false
  configured : Bool := false
  highSpeed : Bool := false
  attaches : U32 := 0
  dfu : DfuSt := .idle
  /-- bStatus of DFU 1.1. -/
  status : Nat := 0
  /-- Next wBlockNum, and whether the next block is the first. -/
  nextBlock : Nat := 0
  blocks : U32 := 0
  requests : U32 := 0
  requestsDiscarded : U32 := 0
  restarts : U32 := 0
deriving DecidableEq, Repr

/-- The mailbox (R462 to R465, Table 15.7). -/
structure Mailbox where
  /-- The first unlock word was the last MBX write, and when it came. -/
  firstKey : Option Nat := none
  unlocked : Bool := false
  command : U32 := 0
  arg : U32 := 0
  block : U32 := 0
  data : List Byte := List.replicate 4096 0
  busy : Bool := false
  done : Bool := false
  result : Nat := 0
  /-- Command of RESULT. -/
  resultOf : Nat := 0
  /-- MBX_DETAIL. -/
  detail : U32 := 0
  nextBlock : U32 := 0
  bytes : U32 := 0
  ops : U32 := 0
  rejected : U32 := 0
  /-- When the 10 s of R463 last started. -/
  idleFrom : Nat := 0
deriving DecidableEq, Repr

/-- An item on its way to the real-time writer (R310, R315): a frame or coded block of ring 0 or 1 with its index, or a record
of ring 2. Its bytes shrink as its pieces arrive. -/
structure RtItem where
  bytes : List Byte := []
  index : Nat := 0
  time : U64 := 0
  prec : Option PRec := none
  /-- The samples of a frame or block, without values and codes. -/
  rows : List Row := []
  /-- A piece has arrived already. -/
  begun : Bool := false
deriving DecidableEq, Repr

/-! ## Shot sequencer (chapter 3) -/

/-- A shot tag (Table 3.7) as far as it is known at launch. -/
structure ShotTag where
  group : U48
  pleat : Nat := 0
  /-- A temperature shot. -/
  temperature : Bool := false
  launchTime : U64 := 0
  /-- TS_SOURCE of Table 3.6. -/
  source : Nat := 0
  triggered : Bool := false
  queued : Bool := false
  triggerTime : U64 := 0
  rebased : Bool := false
deriving DecidableEq, Repr

/-- A launched shot that waits for its launch-monitor edge (R93). -/
structure Awaiting where
  tag : ShotTag
  /-- Gate opening, in CK_LNC periods, and its device time. -/
  openedAt : Nat
  scheduled : U64
  /-- Causes of drops of the shot that wait for its LAUNCH_TIME (R282). -/
  drops : List Nat := []
deriving DecidableEq, Repr

/-- The shot group in progress (R74). -/
structure Group where
  number : U48
  start : Nat
  triggered : Bool := false
  queued : Bool := false
  triggerTime : U64 := 0
  rebased : Bool := false
  /-- Pleats launched so far. -/
  pleats : Nat := 0
  /-- The group carries a temperature shot that has not been launched. -/
  wantsTs : Bool := false
  /-- Emission stopped: later shots of the group are not launched (R88). -/
  stopped : Bool := false
deriving DecidableEq, Repr

/-- A seen trigger edge within its deglitch time (R89). -/
structure TrigEdge where
  since : Nat
  /-- Its TIU timestamp, where it was measured. -/
  stamp : Option U64
deriving DecidableEq, Repr

/-- A call whose group start is set (R90). -/
structure Call where
  start : Nat
  stamp : U64
  queued : Bool
  /-- A late call was ignored before it and it leaves a gap of more than 2 · T (R95). -/
  gap : Bool := false
deriving DecidableEq, Repr

/-- The sequencer of one port (R73 to R95, Table 3.8). -/
structure Sht where
  /-- SHT_Pn_ADMIT_RESULT. -/
  admitResult : Nat := 0
  groups : U64 := 0
  groupsSkipped : U64 := 0
  tsShots : U64 := 0
  trigAccepted : U64 := 0
  trigLate : U64 := 0
  trigQueued : U64 := 0
  trigDark : U64 := 0
  tsScheduled : U64 := 0
  trigTimeout : Bool := false
  /-- Number of the next group (Table 3.7). -/
  nextGroup : U48 := 0
  /-- The last group start, launched or skipped, in CK_LNC periods; its device time where the schedule is anchored. -/
  lastStart : Option Nat := none
  lastSlot : Int := 0
  /-- A group of the port has been launched. -/
  launched : Bool := false
  /-- The last scheduled group was not launched, or a call found the port dark. -/
  dark : Bool := false
  group : Option Group := none
  /-- The next group carries REBASED (R95). -/
  rebase : Bool := false
  /-- Device time has been stepped since the last group start (R87). -/
  stepped : Bool := false
  /-- FD04 has been fenced since the last group start (R88, R97). -/
  missed : Bool := false
  /-- Group starts of P0 that a linked P1 is to follow, in CK_LNC periods, and their slots (R97, R185). -/
  linked : List (Nat × Int) := []
  /-- Edge within its deglitch time, accepted edges counted towards PRESCALE, and the calls whose starts are set, in order. -/
  edge : Option TrigEdge := none
  prescaled : Nat := 0
  calls : List Call := []
  /-- A late call has been ignored with QUEUE_ONE 0 since the last start was set (R95). -/
  lateIgnored : Bool := false
  /-- When the last call came, or external mode began (R92). -/
  callAt : Nat := 0
  /-- Launched shots whose launch-monitor edge is outstanding, oldest first. -/
  awaiting : List Awaiting := []
  /-- Consecutive shots with TS_SOURCE 1 (Table 2.10, launch not seen). -/
  unseen : Nat := 0
deriving DecidableEq, Repr

/-! ## Time and synthesis (chapter 4) -/

/-- PLL states in the order of Table 4.4. -/
inductive PllSt where
  | off | acquire | locked | coast | relock | failed
deriving DecidableEq, Repr

/-- PLL-A or PLL-D (R103 to R110). -/
structure PllUnit where
  st : PllSt := .off
  /-- TIM_PLLx_LOSSES: entries to COAST. -/
  losses : U32 := 0
  /-- Consecutive good windows in ACQUIRE or RELOCK (R107). -/
  good : Nat := 0
  /-- ACQUIRE attempts begun (Table 4.4). -/
  attempts : Nat := 0
  /-- When the attempt, the RELOCK or the wait of 10 ms in COAST began. -/
  since : Nat := 0
  /-- When the present coast time began. -/
  coastAt : Nat := 0
  /-- The loop has reached a control value (R110). -/
  controlled : Bool := false
deriving DecidableEq, Repr

/-- Discipline states in the order of Table 4.8. -/
inductive PpsSt where
  | off | acquire | track | holdover
deriving DecidableEq, Repr

/-- What the divider restarts wait for (R112 to R114). -/
inductive SyncWait where
  /-- Nothing: every restart called for has been made. -/
  | none
  /-- The restart that SYNC_MODE calls for. -/
  | first
  /-- A realigning restart, with device time kept. -/
  | realign
deriving DecidableEq, Repr

/-- The synthesisers, device time, its discipline, PPS_OUT and SYNC_OUT (R101 to R126). -/
structure Tim where
  a : PllUnit := {}
  d : PllUnit := {}
  /-- TIM_COAST_TIME of the last coast that ended, ms. -/
  coastMs : U32 := 0
  /-- When CK_LNC first rose after the last divider restart (R111). -/
  origin : Nat := 0
  /-- Device time runs (R112). -/
  runs : Bool := false
  time : U64 := 0
  /-- 32-bit fraction below one LSB (R115). -/
  frac : U32 := 0
  /-- Increment per CK_LNC period with 32 fractional bits; 640 LSB nominal (R115). -/
  incr : Nat := 0
  /-- The part of the increment that is slew (R119). -/
  slew : Int := 0
  wraps : U32 := 0
  pps : PpsSt := .off
  /-- Extended time of the last accepted PPS_IN edge, 2⁻⁸ ns, carried along by every step. -/
  lastPps : Option Int := none
  /-- When it was accepted. -/
  acceptedAt : Nat := 0
  /-- Consecutive accepted edges with an error of at most 1 µs, and beyond it. -/
  inside : Nat := 0
  outside : Nat := 0
  ppsError : Int := 0
  ppsRejected : U32 := 0
  refPpb : Int := 0
  steps : U32 := 0
  slewing : Bool := false
  coarse : Bool := false
  refRange : Bool := false
  sync : SyncWait := .none
  /-- When the wait began. -/
  syncAt : Nat := 0
  applied : U32 := 0
  confirmed : U32 := 0
  mismatch : U32 := 0
  frameErrors : U32 := 0
  syncWaiting : Bool := false
  syncUnaligned : Bool := false
  secondsMismatch : Bool := false
  /-- Extended time of the last sync edge, by its TIU timestamp, and whether seconds have been loaded (R124). -/
  syncEdge : Option Int := none
  secondsLoaded : Bool := false
  /-- The whole second PPS_OUT and SYNC_OUT last marked, since device time last started or moved. -/
  ppsOutSec : Option Nat := none
  syncOutSec : Option Nat := none
deriving DecidableEq, Repr

/-- One vernier channel (R128, R130). -/
structure TiuCh where
  /-- Last accepted calibration: v1 and v2, none before the first. -/
  cal : Option (Nat × Nat) := none
  /-- Consecutive rejected calibrations. -/
  run : Nat := 0
  calReject : U32 := 0
  missed : U32 := 0
  /-- When it last measured an edge, for its dead time (R131). -/
  measuredAt : Option Nat := none
deriving DecidableEq, Repr

/-- The time-interval unit (R127 to R132). -/
structure Tiu where
  ch : Vector TiuCh 8 := Vector.replicate 8 {}
  /-- TIU_CHANNEL_MAP: input served by each channel, 0xE a free spare, 0xF retired. -/
  map : Vector Nat 8 := #v[0, 1, 2, 3, 4, 5, 0xE, 0xE]
  coarse : U32 := 0
deriving DecidableEq, Repr

/-! ## Coherent acquisition and calibration (chapter 5) and the drop ledger (chapter 9) -/

/-- The notice of a record (Table 5.3). The ECC counts are zero until the record has been read. -/
structure Notice where
  tag : ShotTag
  /-- Ring index of sample 0. -/
  start : Nat
  /-- N_s. -/
  length : Nat
  /-- SAMPLE0_OFFSET. -/
  offset : Nat
  calSet : Nat
  /-- Instants with the clip bit set on any lane. -/
  clipInstants : Nat
  eccCorrected : Nat := 0
  eccUncorrected : Nat := 0
deriving DecidableEq, Repr

/-- A word of the acquisition queue (R141): its sample instant, in CK_LNC periods, its ring index, its 64 data bits (Table 5.2) and
its 8 check bits. -/
structure QWord where
  instant : Nat
  idx : Nat
  data : U64
  check : Byte
deriving DecidableEq, Repr

/-- An admitted vibration record of the acquisition queue (R140 to R144). -/
structure AcqRec where
  tag : ShotTag
  /-- When its gate opened. -/
  openedAt : Nat
  /-- Its sample 0, in CK_LNC periods. -/
  first : Nat
  /-- N_s. -/
  len : Nat
  /-- The slot that takes sample 0 (R137). -/
  slot0 : Nat
  calSet : Nat
  /-- Slice that serves each slot of each lane, for the record's launch. -/
  serving : Vector (Vector Nat 4) 4
  /-- SAMPLE0_OFFSET. -/
  offset : Nat := 0
  /-- A record of the pleat was refused or discarded after the one before it was admitted (R152). -/
  afterGap : Bool := false
  /-- Its notice, once issued. -/
  notice : Option Notice := none
deriving DecidableEq, Repr

/-- Sums of one slot of a lane over the accepted blocks of an update (Table 5.6). -/
structure SlotAcc where
  n : Nat := 0
  sum : Int := 0
  sq : Nat := 0
  /-- Products with the next sample, and their number. -/
  pair : Int := 0
  pairs : Nat := 0
  /-- Raw codes seen and how often (Table 5.8). -/
  codes : List (Int × Nat) := []
deriving DecidableEq, Repr

/-- Accumulators of one update (R153, R154). -/
structure CalAcc where
  blocks : Nat := 0
  /-- Sum of block powers. -/
  power : Nat := 0
  /-- Positions accepted: pleat and block index. -/
  positions : List (Nat × Nat) := []
  slots : Vector (Vector SlotAcc 4) 4 := Vector.replicate 4 (Vector.replicate 4 {})
  /-- Lag-2 products and their number, per lane. -/
  lag2 : Vector (Int × Nat) 4 := Vector.replicate 4 (0, 0)
  /-- Sums of I times Q, for X and Y. -/
  iq : Vector Int 2 := Vector.replicate 2 0
  /-- Sums over instants k and k + 1 of X power by next Y power, of next X by Y, of X by Y, and the number of pairs. -/
  skew : Nat × Nat × Nat × Nat := (0, 0, 0, 0)
deriving DecidableEq, Repr

/-- Self-calibration of one port (R148 to R161). The 68 corrections of Table 5.4 stand in the order OFFSET, GAIN, SLICE_DELAY
(20 each, entry 5 lane + slice), IQ_DELAY X and Y, POL_DELAY, IQ_GAIN X and Y, IQ_PHASE X and Y, POL_GAIN. -/
structure Cal where
  vals : List Int := List.replicate 68 0
  /-- CAL_Pn_SET. -/
  num : Nat := 0
  /-- The predecessor of the current set. -/
  prev : Option (Nat × List Int) := none
  /-- The set that launches take (R149). -/
  adopted : Nat := 0
  /-- End of the present UPDATE_INTERVAL, once the port has launched. -/
  due : Option Nat := none
  /-- Updates formed since an acquire phase last began; it runs for the first ACQUIRE_UPDATES of them (R155). -/
  phaseUpdates : Nat := 0
  converged : Bool := false
  /-- Consecutive track updates with every n at most 2 (R156). -/
  calm : Nat := 0
  lastTime : U64 := 0
  updates : U32 := 0
  short : U32 := 0
  shortRun : Nat := 0
  accepted : U64 := 0
  rejClip : U64 := 0
  rejHigh : U64 := 0
  rejLow : U64 := 0
  rejVib : U64 := 0
  limit : Bool := false
  starved : Bool := false
  /-- Consecutive updates each correction has stood at its range limit. -/
  atLimit : List Nat := List.replicate 68 0
  /-- P_ref as total power and number of blocks; none: the factory value. -/
  pRef : Option (Nat × Nat) := none
  acc : CalAcc := {}
  /-- The statistics of the next record are lost on a link (R285). -/
  struck : Bool := false
  /-- Block powers of the previous record of each pleat (R152). -/
  lastPower : Vector (Option (List Nat)) 4 := Vector.replicate 4 none
deriving DecidableEq, Repr

/-- Acquisition of one port (R136 to R147, Table 5.10). -/
structure Acq where
  /-- Admitted records, in launch order. -/
  records : List AcqRec := []
  /-- The words written and not released, in the order of their instants (R141, R143). -/
  ring : List QWord := []
  /-- Ring index of the next word written, and the instants before which all are written. Log entry 113, DEDUCED. -/
  ringNext : Nat := 0
  writtenTo : Nat := 0
  /-- Instants in the entry seam (R280). -/
  seam : Nat := 0
  /-- Pleats whose last record was refused or discarded (R152). -/
  gap : Vector Bool 4 := Vector.replicate 4 false
  serving : Vector (Vector Nat 4) 4 := Vector.replicate 4 #v[0, 1, 2, 3]
  /-- Spare of each lane: 0 unused, 1 shadowing, 2 in use, 3 failed; and the slot it shadows. -/
  spare : Vector Nat 4 := Vector.replicate 4 0
  shadow : Vector Nat 4 := Vector.replicate 4 0
  /-- ACQn_SLICE_RETIRED. -/
  retired : BitVec 20 := 0
  /-- Slices (lane, slice) whose substitution waits for a group start, and since when (R160). -/
  pendingSubst : List (Fin 4 × Fin 5) := []
  pendingAt : Nat := 0
  admitted : U64 := 0
  refused : U64 := 0
  peak : Nat := 0
  clipCount : U64 := 0
  clipRecords : U64 := 0
  eccCorrected : U64 := 0
  eccUncorrected : U64 := 0
  substDrops : U32 := 0
  /-- Words with errors read in the last second: when, corrected, uncorrectable (Table 5.9). -/
  eccRecent : List (Nat × Nat × Nat) := []
  cal : Cal := {}
deriving DecidableEq, Repr

/-- An entry of the drop ledger (Table 9.7). -/
structure DropEntry where
  time : U64
  group : U48
  port : Port
  pleat : Nat
  temperature : Bool
  cause : Nat
deriving DecidableEq, Repr

/-- Core losses of one port (R280 to R284). -/
structure DropPort where
  /-- FAB_Pn_DROPS_QUEUE_FULL, _RAMAN_FULL, _SUBSTITUTION, _FENCED. -/
  counts : Vector U64 4 := Vector.replicate 4 0
  entryLost : U64 := 0
  ramanLost : U64 := 0
  /-- When the port last dropped a shot (R282). -/
  lastAt : Option Nat := none
deriving DecidableEq, Repr

/-! ## Stitch network (chapter 9) -/

/-- One region as the monitors see it (R275, R277, R279). -/
structure RegionSt where
  /-- FAB_RGn_MARGIN and its minimum. -/
  margin : Nat := 0xFFFF
  marginMin : Nat := 0xFFFF
  /-- Consecutive measurements below 1.10 and below 1.00. -/
  lowRun : Nat := 0
  badRun : Nat := 0
  low : Bool := false
  vcore : Nat := 0
  /-- FAB_RGn_TJ, 0.5 K. -/
  tj : Int := 0
deriving DecidableEq, Repr

/-- One seam (R275). -/
structure SeamSt where
  beyond : Bool := false
  ever : Bool := false
  /-- When its differences last exceeded the inner limits. -/
  outAt : Nat := 0
deriving DecidableEq, Repr

/-- Link errors of a node (R286) and its link fault run. -/
structure NodeSt where
  /-- When each uncorrectable word of the last second came. -/
  recent : List Nat := []
  /-- When the present run of link faults began and was last renewed. -/
  since : Option Nat := none
  renewed : Nat := 0
  reported : Bool := false
deriving DecidableEq, Repr

/-- The end of a port's last group as EVT tells it: group, whether it is near, and its point (R432). -/
structure EndNotice where
  group : U48
  near : Bool
  point : U32
deriving DecidableEq, Repr

/-- What a notice of EVT carries (Table 9.4): demand of the outputs, break state and point of each port, and the end of the last
group of each port with ALS. -/
structure EvtNotice where
  demand : BitVec 4
  breaks : Vector (Bool × Nat) 2
  ends : Vector (Option EndNotice) 2
deriving DecidableEq, Repr

/-- A notice of EVT on its way, with the nodes it has still to reach (R272). -/
structure EvtFlit where
  tells : EvtNotice
  sinks : List Region
deriving DecidableEq, Repr

/-- Urgent notices (R272, R273), by source: EVT, HB-A, HB-B, operator side. -/
structure Urgent where
  /-- EVT's states as RG7, RG8 and RG9 hold them: the controllers and the black box, the operator side and the output stage. -/
  evt : Vector (Option EvtNotice) 3 := Vector.replicate 3 none
  /-- The hatband's states as its sinks hold them: the fence agents, the other controller and the output stage. -/
  hb : Option HbNotice := none
  /-- The source's last notice was lost on a link and has not been repeated (R285). -/
  lost : Vector Bool 4 := Vector.replicate 4 false
  /-- When the source last injected a flit. -/
  sentAt : Vector (Option Nat) 4 := Vector.replicate 4 none
  /-- When the sources last repeated their states. -/
  repeatedAt : Nat := 0
deriving DecidableEq, Repr

/-- The stitch network (R264 to R288). -/
structure Fab where
  u : Urgent := {}
  regions : Vector RegionSt 10 := Vector.replicate 10 {}
  seams : Vector SeamSt 13 := Vector.replicate 13 {}
  /-- FAB_U_BOUND. -/
  uBound : Bool := true
  /-- Withdrawn time that has ended, and since when the bound is withdrawn, in CK_LNC periods. -/
  withdrawn : Nat := 0
  withdrawnAt : Nat := 0
  uFlits : U64 := 0
  uErrors : U32 := 0
  uLate : U32 := 0
  ports : Vector DropPort 2 := Vector.replicate 2 {}
  /-- The last 256 drops, newest first, and FAB_DROP_INDEX. -/
  log : List DropEntry := []
  dropIndex : Nat := 0
  linkCorrected : U64 := 0
  sDiscards : U64 := 0
  bFailed : U32 := 0
  linkFault : BitVec 10 := 0
  fencedDiscards : U64 := 0
  stall : BitVec 10 := 0
  nodes : Vector NodeSt 10 := Vector.replicate 10 {}
deriving DecidableEq, Repr

/-! ## Phase engine and decimation (chapter 6) -/

/-- What the phase engine keeps of the last record of one pleat (R174, R175, R178), per gauge value or point. -/
structure PleatSt where
  /-- Gauge phase φ, in LSB of π/16,384 rad; zero when cleared. -/
  ph : List Int := []
  /-- Alignment term O, 2⁻³² LSB, where it has been initialised. -/
  align : List (Option Int) := []
  /-- Codes of the last record of the pleat. -/
  codes : List Nat := []
  /-- Running mean of point power, 2⁻¹⁶ of (1/8 ADC LSB)²; empty before the first record. -/
  mean : List Nat := []
deriving DecidableEq, Repr

/-- An acoustic sample whose group start has come (R185, R192): index, time, shot and the set its launch adopted. -/
structure Expect where
  j : Int
  time : U64
  group : U48
  pleat : Nat
  calSet : Nat
deriving DecidableEq, Repr

/-- An acoustic sample as DEC and EVT take it (R181, R187). -/
structure DecSample where
  j : Int
  time : U64
  /-- FIRST_SHOT of Table 6.7. -/
  shot : U64
  calSet : Nat
  /-- FLAGS[1:0] of Table 6.7 that the sample sets. -/
  flags : Nat := 0
  /-- The sample has no record (R187). -/
  missing : Bool := false
  d : List Int
  acc : List Int
  codes : List Nat
  amp : List Nat
  ampCodes : List Nat
deriving DecidableEq, Repr

/-- Phase engine and DEC lanes of one port (Table 6.9). -/
structure Phs where
  pleats : Vector PleatSt 4 := Vector.replicate 4 {}
  /-- Accumulated phase, 48 bits signed (R182). -/
  acc : List Int := []
  /-- Pending points (R177). -/
  pend : List Bool := []
  /-- |z|² of the predecessor's values, for S_min (R178). -/
  last : List (Option Nat) := []
  /-- The phase data of the next record are lost on a link (R285). -/
  struck : Bool := false
  /-- Group and pleat of the last record processed since the state was cleared (R173). -/
  lastShot : Option (U48 × Nat) := none
  records : U64 := 0
  rebased : U64 := 0
  clipValues : U64 := 0
  fadedValues : U64 := 0
  rateValues : U64 := 0
  darkPoints : U32 := 0
  fadedPoints : U32 := 0
  cmrSkipped : U32 := 0
  cmrLast : Int := 0
  latencyPeak : U32 := 0
  /-- The notice of the record last taken, with its final ECC counts (R144). -/
  notice : Option Notice := none
  decOutputs : U64 := 0
  coarseOutputs : U64 := 0
  decSaturated : U64 := 0
  decMissing : U64 := 0
  /-- Acoustic samples that have been scheduled and not processed, oldest first. -/
  expect : List Expect := []
  /-- First index that DEC took since its filters were empty, and the last. -/
  firstJ : Option Int := none
  lastJ : Int := 0
  /-- Samples in the filters, newest first. -/
  hist : List DecSample := []
  /-- Accumulated values and amplitudes that stand for samples before the first (R187). -/
  base : List Int := []
  baseAmp : List Nat := []
  /-- Last accumulated value and amplitude of each point that DEC received (R187). -/
  lastAcc : List Int := []
  lastAmp : List Nat := []
  /-- Predecessors of the next full-path and coarse differences (R186, R191). -/
  prevFull : List Int := []
  prevCoarse : List Int := []
deriving DecidableEq, Repr

/-! ## Raman temperature and SUP (chapter 7) -/

/-- A Raman record that is open (R208). -/
structure RamanRec where
  tag : ShotTag
  openedAt : Nat
  /-- When its last bin has been sampled. -/
  closesAt : Nat
  /-- Feedback codes of AS and ST for the record. -/
  gains : Vector Nat 2
deriving DecidableEq, Repr

/-- A launch of a port, for the launch slots of R212: its instant, duration in 1.25 ns and measured energy in pJ. -/
structure Launch where
  openedAt : Nat
  duration : Nat
  energy : Nat := 0
deriving DecidableEq, Repr

/-- One batt entry (R209). -/
structure BattEntry where
  sum : Int := 0
  count : Nat := 0
  gains : Nat := 0
deriving DecidableEq, Repr

/-- One launch slot of a batt: offset from the Raman shot in CK_LNC periods, duration in 1.25 ns, sum of energies in pJ (R212). -/
structure Slot where
  offset : Int
  duration : Nat
  energy : Nat
deriving DecidableEq, Repr

/-- A reference or receiver temperature as DTS holds it (R219, R221). -/
structure Reading where
  /-- Last valid value, 0.001 °C. -/
  value : Option Int := none
  /-- Since when it is lost. -/
  lostAt : Option Nat := none
  /-- Its hold has expired. -/
  expired : Bool := false
deriving DecidableEq, Repr

/-- Readings of one source over an update: the valid reading it opened with, sum and number, held or expired at some moment of it. -/
structure ReadAcc where
  last : Option Int := none
  sum : Int := 0
  n : Nat := 0
  held : Bool := false
  expired : Bool := false
deriving DecidableEq, Repr

/-- A batt and what belongs to its update (R209 to R212, R219). -/
structure Batt where
  /-- Entries of AS and of ST. -/
  bands : Vector (List BattEntry) 2 := Vector.replicate 2 []
  slots : List Slot := []
  records : Nat := 0
  firstLaunch : U64 := 0
  lastLaunch : U64 := 0
  /-- Extended time of the boundary that opened the update (R210). -/
  opened : Int := 0
  /-- Largest code of each lane, and whether a record lowered it (R206). -/
  peak : Vector Nat 2 := Vector.replicate 2 0
  lowered : Vector Bool 2 := Vector.replicate 2 false
  /-- Records that overranged at 2 kΩ (Table 7.11). -/
  saturated : Nat := 0
  uncorrectable : Nat := 0
  /-- Near span, far span and receiver temperature over the update. -/
  near : ReadAcc := {}
  far : ReadAcc := {}
  theta : ReadAcc := {}
deriving DecidableEq, Repr

/-- What an update gathers for one DAS_STRAIN_LF gauge (R222, R225). -/
structure LfAcc where
  sum : Int := 0
  n : Nat := 0
  held : Nat := 0
  rebased : Bool := false
deriving DecidableEq, Repr

/-- Raman front end and temperature engine of one port. -/
structure Dts where
  /-- Bias off after a fault of Table 7.11. -/
  biasOff : Bool := true
  biasMv : Vector Nat 2 := Vector.replicate 2 0
  currentUa : Vector Nat 2 := Vector.replicate 2 0
  gains : Vector Nat 2 := Vector.replicate 2 0
  records : U64 := 0
  ovrSamples : U64 := 0
  ovrRecords : U64 := 0
  gainChanges : U32 := 0
  offsetTime : U64 := 0
  /-- Offset of each lane at each feedback, and the receiver temperature at its measurement, 0.001 °C (R207). -/
  offsets : Vector (List Int) 2 := Vector.replicate 2 []
  offsetTemp : Option Int := none
  /-- Lanes to be raised at the close of the record that is open (R206). -/
  raise : Vector Bool 2 := Vector.replicate 2 false
  /-- Records open or held in the Raman seam. -/
  recs : List RamanRec := []
  /-- Recent launches, newest first. -/
  launches : List Launch := []
  acc : Batt := {}
  /-- The closed update whose profile is being computed. -/
  proc : Option Batt := none
  /-- A boundary has fallen and the batts have not swapped. -/
  closing : Bool := false
  /-- Extended time of the last boundary, and of the next. -/
  boundary : Option Int := none
  next : Option Int := none
  /-- Profiles formed towards RAW_EVERY. -/
  rawCount : Nat := 0
  profiles : U64 := 0
  emptyUpdates : U32 := 0
  lastTime : U64 := 0
  refTemp : Int := 0
  /-- δ, and Δα in 0.0001 dB/km (R219, R220). -/
  delta : Rat := 0
  diffAtt : Rat := 0
  deltaSteps : U32 := 0
  /-- δ has not been taken since start or recovery (R219). -/
  deltaFresh : Bool := true
  refFit : Bool := false
  saturated : Bool := false
  /-- Consecutive updates with more than 16 uncorrectable entries (Table 7.11). -/
  battRun : Nat := 0
  near : Reading := {}
  far : Reading := {}
  theta : Reading := {}
  /-- Readings of the near span, the far span and the receiver temperature since the last boundary. -/
  curNear : ReadAcc := {}
  curFar : ReadAcc := {}
  curTheta : ReadAcc := {}
  /-- DAS_STRAIN_LF: gauges of the accumulating update and its acoustic samples; the same of the closed update; baselines of
  phase and temperature, as sums over a count. -/
  lf : List LfAcc := []
  lfSamples : Nat := 0
  lfOld : List LfAcc := []
  lfOldSamples : Nat := 0
  baseline : List (Option (Rat × Rat)) := []
deriving DecidableEq, Repr

/-- An entry of SUP_BUF (Table 7.9). -/
structure SupEntry where
  time : U64
  channel : Nat
  flags : Nat
  value : Int
deriving DecidableEq, Repr

/-- One thermistor input (R230 to R233). -/
structure Thermistor where
  /-- 0 good, 1 declared open, 2 declared shorted. -/
  broken : Nat := 0
  /-- A burn-out test of an open input no longer read full scale: the next pass runs a pair (R233). -/
  retry : Bool := false
  breaks : U32 := 0
  overrange : U32 := 0
deriving DecidableEq, Repr

/-- What SUP converts now (R231, R232). -/
inductive SupStep where
  /-- A half-conversion with positive excitation; with negative, after its first code. -/
  | plus
  | minus (vPlus : Int)
  /-- The burn-out test; whether it stands in place of a pair because the input is open (R233). -/
  | burnOut (ofOpen : Bool)
  /-- A channel that is no thermistor. -/
  | single
deriving DecidableEq, Repr

/-- The supervisory converter (R227 to R236). -/
structure Sup where
  converting : Bool := false
  /-- Index in the sequence, what is converted, and when it began. -/
  pos : Nat := 0
  step : SupStep := .single
  beganAt : Nat := 0
  passAt : Nat := 0
  /-- The timed start last served, counted in TIMER_PERIODs. -/
  timer : Int := -1
  /-- The coarse value of this restart has been delivered. -/
  coarseDone : Bool := false
  passTime : U32 := 0
  last : Vector Int 11 := Vector.replicate 11 0
  inputs : Vector Thermistor 4 := Vector.replicate 4 {}
  trigSkipped : U32 := 0
  /-- The last 1,024 entries, newest first, and SUP_BUF_INDEX. -/
  buf : List SupEntry := []
  bufIndex : Nat := 0
deriving DecidableEq, Repr

/-! ## Zones, detectors, alarms (chapter 8) -/

/-- A zone and detector pair (R248). -/
structure PairSt where
  zone : Nat
  detector : Nat
  on : Bool := false
  up : Nat := 0
  down : Nat := 0
deriving DecidableEq, Repr

/-- The open window of one detector (R243 to R246): index and time of its first sample, time of its last, and per gauge value the
sum (of x, or of y² in 2⁻⁶⁴ LSB²) and the number of inputs not replaced. -/
structure WindowSt where
  detector : Nat
  first : Int
  firstTime : U64
  lastTime : U64
  sums : List (Int × Nat)
deriving DecidableEq, Repr

/-- A band filter of a port: its edges and, per gauge value, its last four inputs and outputs, newest first, in 2⁻⁹⁶ (R245, R247). -/
structure BandSt where
  lo : Nat
  hi : Nat
  states : List (List Int)
deriving DecidableEq, Repr

/-- Fibre breaks of one port (R255, R256). -/
structure BreakSt where
  /-- Group under way: its number, index and time of its first shot, and the largest e so far. -/
  group : Option (U48 × Int × U64) := none
  eMax : Option Nat := none
  /-- Group ends gathered towards E. -/
  ends : List Nat := []
  /-- EVT_Pn_END, once established. -/
  established : Option Nat := none
  stands : Bool := false
  point : Nat := 0
  /-- Consecutive groups with their end at or beyond E − BREAK_MARGIN. -/
  clear : Nat := 0
  breaks : U32 := 0
deriving DecidableEq, Repr

/-- What an EVENT record says beside its sequence number and time of decision (Table 8.2). -/
structure EventRec where
  kind : Nat
  port : Port
  detector : Nat := 0xFF
  zone : Nat := 0
  peakGauge : Nat := 0
  peakValue : Nat := 0
  above : Nat := 0
  assessed : Nat := 0
  j : Int
  time : U64
deriving DecidableEq, Repr

/-- A decision whose EVENT record has not been formed (R250): DECISION_TIME, the outputs at their lands after its instant, and for
an onset the zone's first gauge value and count. -/
structure EventDue where
  tells : EventRec
  decided : U64
  alarms : Nat := 0
  span : Option (Nat × Nat) := none
deriving DecidableEq, Repr

/-- EVT of one port. -/
structure EvtPort where
  pairs : List PairSt := []
  windowsOpen : List WindowSt := []
  bands : List BandSt := []
  windows : U64 := 0
  unassessed : U64 := 0
  brk : BreakSt := {}
  /-- No decision has been made since FD11 recovered (Table 8.2, FLAGS[0]). -/
  afterRecovery : Bool := false
  /-- A window of the port has completed since FD11 recovered (R253). -/
  windowSince : Bool := true
  /-- Per detector, index and time of the last scheduled sample that begins a window (R243, R258). -/
  marks : Vector (Option (Int × U64)) 16 := Vector.replicate 16 none
  /-- Number of the last scheduled group, and index and time of its first shot (R258). -/
  groupStart : Option (U48 × Int × U64) := none
  /-- End of the last group (R432). -/
  lastEnd : Option EndNotice := none
deriving DecidableEq, Repr

/-- The event engine (Table 8.9). -/
structure Evt where
  running : Bool := false
  ports : Vector EvtPort 2 := Vector.replicate 2 {}
  events : U64 := 0
  sequence : U32 := 0
  notices : U64 := 0
  /-- The notice on its way (R272): a later one replaces it. -/
  notice : Option EvtFlit := none
  /-- Decisions whose EVENT records are still to be formed, in their order (R250). -/
  due : List EventDue := []
  snapTaken : U32 := 0
  snapSkipped : U32 := 0
  snapTruncated : U32 := 0
  latencyPeak : U32 := 0
deriving DecidableEq, Repr

/-- An alarm output at its land (R251, R253). -/
structure AlarmOut where
  /-- State of the land. -/
  asserted : Bool := false
  latched : Bool := false
  /-- Demand as last noticed. -/
  demanded : Bool := false
  /-- When it was last asserted. -/
  since : Nat := 0
  /-- The fence state of FD11 acts, or the state of the fence is kept until every port of its zone entries has a window. -/
  fenced : Bool := false
  waits : Bool := false
  /-- EVT_ALARM_ASSERTS_n. -/
  asserts : U32 := 0
deriving DecidableEq, Repr

/-! ## Memory controller and history (chapter 10) -/

/-- MEM_STATE in the order of Table 10.12. -/
inductive MemSt where
  | off | starting | running | selfRefresh | characterised | fenced
deriving DecidableEq, Repr

/-- A 64-byte access of the real-time writer or the snapshot copier: a write, or a read whose data have been taken. -/
structure Access where
  addr : Nat
  /-- Ring whose segment is written; 3 is the pool. -/
  ring : Nat
  write : Option (List Byte)
  arrived : Nat := 0
  /-- SEQ of the segment. -/
  seq : Nat := 0
  /-- Last access of its segment, or of its snapshot. -/
  last : Bool := false
deriving DecidableEq, Repr

/-- A host read through BAR2 that waits for its accesses (R305, R356). -/
structure HostRead where
  offset : Nat
  length : Nat
  arrived : Nat
  /-- Bytes of whole accesses served so far. -/
  served : List Byte := []
  poisoned : Bool := false
  /-- Counted as overdue (R307). -/
  overdue : Bool := false
deriving DecidableEq, Repr

/-- The segment a ring is forming (R314). -/
structure Segment where
  seq : Nat
  payload : List Byte := []
  firstOffset : Option Nat := none
  firstIndex : U64 := 0
  firstTime : U64 := 0
  /-- Time of the last item that ends in the segment. -/
  lastTime : Option U64 := none
  /-- FLAGS[0] of Table 10.6. -/
  lost : Bool := false
  /-- Items with bytes in the segment. -/
  items : Nat := 0
deriving DecidableEq, Repr

/-- Where an item of ring 0 or 1 lies: the segment and payload offset of its first byte, and its length. -/
structure RingItem where
  index : Nat
  time : U64
  seq : Nat
  off : Nat
  len : Nat
  /-- Its samples, without values and codes. -/
  rows : List Row := []
deriving DecidableEq, Repr

/-- A ring, or the pool, in DRAM (R313 to R317). -/
structure Ring where
  base : Nat := 0
  /-- Size in bytes; zero when absent. -/
  size : Nat := 0
  /-- SEQ of the last segment begun and of the last closed. -/
  seq : Nat := 0
  closed : Nat := 0
  openSeg : Option Segment := none
  /-- The next segment carries FLAGS[0]. -/
  lost : Bool := false
  /-- Bytes of arriving items that are still abandoned with their segment (R310). -/
  skip : Nat := 0
  /-- When an item last entered. -/
  lastAt : Nat := 0
  /-- Items of ring 0 or 1 that have entered, newest first. -/
  items : List RingItem := []
  /-- SEQUENCE of the last record of ring 2 or of the pool (R329), and whether numbers were skipped before the next. -/
  recSeq : U32 := 0
  recSkipped : Bool := false
deriving DecidableEq, Repr

/-- A snapshot request that has been taken (R259, R318). -/
structure SnapReq where
  id : U32
  sequence : U32
  port : Nat
  detector : Nat
  zone : Nat
  /-- First and last index and gauge values of the span. -/
  fromJ : Int
  toJ : Int
  first : Nat
  count : Nat
  /-- Pool segments it needs. -/
  segs : Nat
  /-- SEQ of the port's ring when it was taken. -/
  ringSeq : Nat
deriving DecidableEq, Repr

/-- A snapshot in the pool (R318). -/
structure SnapStored where
  id : U32
  seg : Nat
  segs : Nat
  /-- When it closed; none while it is being copied or waits. -/
  closedAt : Option Nat := none
deriving DecidableEq, Repr

/-- The snapshot being copied: its request, flags and samples, and records for delivery. -/
structure SnapCopy where
  req : SnapReq
  /-- Its first segment, counted as SEQ of the pool. -/
  seg : Nat
  flags : Nat
  rows : List Row
deriving DecidableEq, Repr

/-- One memory port's counters (Table 10.12). -/
structure MemPort where
  accesses : U64 := 0
  overdue : U32 := 0
deriving DecidableEq, Repr

/-- MEM. -/
structure Mem where
  st : MemSt := .off
  /-- In the present start of Table 10.2, verification has passed or was omitted. -/
  verified : Bool := false
  /-- MEM_VERIFY_RESULT. -/
  verify : VerifyOutcome := ⟨0, 0, 0, 0, false⟩
  /-- MEM_SWEEP: lowest and highest passing value, in the order of R298. -/
  sweep : List (Nat × Nat) := []
  temp : Int := 0
  hot : Bool := false
  tempFault : Bool := false
  /-- Open rows of the DRAM: a bank and its row, one row a bank (R312). -/
  openRows : List (Nat × Nat) := []
  /-- When a refresh last fell due, or the intervals began (R301), and when the temperature was last read. -/
  refreshAt : Nat := 0
  polledAt : Nat := 0
  /-- Postponed refreshes (R302). -/
  postponed : Nat := 0
  preempt : U64 := 0
  srEntries : U32 := 0
  srAbandoned : U32 := 0
  /-- When a port other than scrub last had a request, and before when no entry is attempted (R304). -/
  requestAt : Nat := 0
  srNotBefore : Nat := 0
  /-- The writer queue: accesses of the real-time port, and whether a segment is in progress (R302, R303). -/
  rt : List Access := []
  rtMid : Bool := false
  queuePeak : U32 := 0
  discards : U64 := 0
  /-- When an overflow was last recorded (R310). -/
  discardLogged : Option Nat := none
  ports : Vector MemPort 4 := Vector.replicate 4 {}
  snap : List Access := []
  snapOverdue : Bool := false
  host : List HostRead := []
  /-- The scrub read that waits: when it arrived, and counted as overdue. -/
  scrub : Option (Nat × Bool) := none
  scrubAddr : Nat := 0
  /-- When the last scrub read was issued. -/
  scrubAt : Nat := 0
  eccCorrected : U64 := 0
  eccUncorrected : U64 := 0
  eccLastAddr : U64 := 0
  /-- Errors of the last second: when, corrected, uncorrectable (Table 10.8). -/
  eccRecent : List (Nat × Nat × Nat) := []
  /-- DRAM: bytes that are not zero, in rising address order (Memory.wf). -/
  cells : List Host.Cell := []
  rings : Vector Ring 3 := Vector.replicate 3 {}
  pool : Ring := {}
  /-- Snapshots that wait for their last sample, oldest first. -/
  requests : List SnapReq := []
  copying : Option SnapCopy := none
  stored : List SnapStored := []
  copied : U32 := 0
  /-- Items on their way to the writer, per ring. -/
  items : Vector (List RtItem) 3 := Vector.replicate 3 []
  /-- Shot tags gathered for ring 2, per port (R334). -/
  tags : Vector TagGather 2 := Vector.replicate 2 {}
deriving DecidableEq, Repr

/-! ## The whole machine -/

/-- Everything the spec gives the block, the queue of waiting commands, and the model's own clock, free-value counter and
record of what left the lands. -/
structure State where
  /-- Commands waiting, first in, first out. -/
  pending : List Instr := []
  /-- CK_LNC periods of 2.5 ns since State.reset (the model's own; log entry 2). -/
  now : Nat := 0
  /-- The model's own counter of free values (log entry 3). -/
  free : Nat := 0
  /-- What has left the device, newest first (the model's own; log entry 4). -/
  outputs : List Output := []
  power : Power := {}
  hb : Hatband := {}
  bbx : BlackBox := {}
  flash : Flash := {}
  cfg : Cfg := {}
  tim : Tim := {}
  tiu : Tiu := {}
  mem : Mem := {}
  fab : Fab := {}
  opt : Opt := {}
  /-- Since when each port has been dark (R62). -/
  darkFrom : Vector (Option Nat) 2 := Vector.replicate 2 (some 0)
  sht : Vector Sht 2 := Vector.replicate 2 {}
  /-- Levels of TRIG_IN0 and TRIG_IN1 as last seen (R89). -/
  trigLevel : Vector Bool 2 := Vector.replicate 2 false
  acq : Vector Acq 2 := Vector.replicate 2 {}
  phs : Vector Phs 2 := Vector.replicate 2 {}
  evt : Evt := {}
  alarms : Vector AlarmOut 4 := Vector.replicate 4 {}
  dts : Vector Dts 2 := Vector.replicate 2 {}
  /-- DTS_BATT_ECC_CORRECTED, DTS_BATT_ECC_UNCORRECTED. -/
  battCorrected : U64 := 0
  battUncorrected : U64 := 0
  sup : Sup := {}
  permits : Permits := {}
  als : Vector Als 2 := Vector.replicate 2 {}
  pnl : Panel := {}
  plk : Placket := {}
  mbx : Mailbox := {}
  cmp : Vector CmpPort 2 := Vector.replicate 2 {}
  /-- Open coded blocks of the two history rings (R336). -/
  ringCoders : Vector Gather 2 := #v[{ port := 0, product := 0, coarse := false }, { port := 1, product := 0, coarse := false }]
  lanes : Vector LaneSt 2 := Vector.replicate 2 {}
  routes : Vector RouteSt 16 := Vector.replicate 16 {}
  mgmt : Mgmt := {}
  pcie : Pcie := {}
  /-- The latched high word of PCIe, management on lanes 0 and 1, and the placket (R14, R353). -/
  latches : Vector U32 4 := Vector.replicate 4 0
  /-- GEN_READ_FAILURES. -/
  readFailures : U32 := 0
deriving DecidableEq, Repr

/-- Why a step stops with a fault. -/
inductive Fault where
  /-- Raised by the PCI Express memory commands for an offset outside their window: no such request reaches the function
  (R355, R356). Safe: the device is not addressed and nothing is claimed of it. -/
  | outsideWindow
deriving DecidableEq, Repr

/-- Why a command has no meaning. -/
inductive Refusal where
  /-- Raised by `exec` alone, for a command whose meaning has not been written. Safe: nothing is claimed of it. -/
  | notModelled (mnemonic : String)
deriving DecidableEq, Repr

/-- The machine before power good: every field at its default, which is its reset value.
Log entry 5, PRESUMED; log entry 6, PRESUMED; log entry 9, DESIGN CHOICE; log entry 10, DESIGN CHOICE. -/
def State.reset : State := {}

end Sys2Proof.Machine
end

