-- ==== Sys2Proof/Machine/Operands.lean ====
section
/-! DEFINITION. The operands a command takes from the loaded configuration image: for each record type of Table 12.5 the
fields of its chapter's table, with the default the table gives when the record is absent. -/

namespace Sys2Proof.Machine

/-- A port as a record key. -/
def portByte (p : Port) : Byte := BitVec.ofNat 8 p.val

/-- The payload of the record of a type whose first bytes are the key (Table 12.5). -/
def Image.find (m : Image) (typ : Nat) (key : List Byte) : Option (List Byte) :=
  (m.records.find? fun r => r.typ == typ && r.version == 1 && r.payload.take key.length == key).map (·.payload)

/-- The payload of a record of the loaded image. -/
def State.rec? (s : State) (typ : Nat) (key : List Byte := []) : Option (List Byte) :=
  s.cfg.image.bind (·.find typ key)

/-- An unsigned field of a record, or its default. -/
def fieldOr (r : Option (List Byte)) (off n dflt : Nat) : Nat := (r.map (fieldAt · off n)).getD dflt

/-- A signed field of a record, or its default. -/
def sfieldOr (r : Option (List Byte)) (off n : Nat) (dflt : Int) : Int := (r.map (sfieldAt · off n)).getD dflt

/-! ## CLOCKS and TIMEBASE (Tables 4.12 and 4.13) -/

def State.clocks (s : State) : Option (List Byte) := s.rec? 0x0030
def State.coastLimit (s : State) : Nat := fieldOr s.clocks 4 2 10
def State.ddrClock (s : State) : Nat := fieldOr s.clocks 2 2 160
def State.timebase (s : State) : Option (List Byte) := s.rec? 0x0031
def State.ppsMode (s : State) : Nat := fieldOr s.timebase 0 1 0
def State.stepMode (s : State) : Nat := fieldOr s.timebase 2 1 1
def State.syncMode (s : State) : Nat := fieldOr s.timebase 3 1 0
def State.syncOutMode (s : State) : Nat := fieldOr s.timebase 4 1 0
def State.startGate (s : State) : Nat := fieldOr s.timebase 5 1 0
/-- The stop timeout of the launch channels, 1 to 65 µs (R129). -/
def State.tiuTimeout (s : State) : Nat := fieldOr s.timebase 6 1 1
def State.ppsOutWidth (s : State) : Nat := fieldOr s.timebase 8 2 100
def State.tau (s : State) : Nat := fieldOr s.timebase 10 2 100
def State.stepThreshold (s : State) : Nat := fieldOr s.timebase 12 4 1000
def State.ppsInDelay (s : State) : Int := sfieldOr s.timebase 16 4 0

/-! ## FIBRE, OPTICAL and the shot programme (Tables 12.7, 2.11, 3.9 to 3.12) -/

def State.fibre (s : State) (p : Port) : Option (List Byte) := s.rec? 0x0020 [portByte p]
/-- The port is in use (R376). -/
def State.inUse (s : State) (p : Port) : Bool := (s.fibre p).isSome
def State.reach (s : State) (p : Port) : Nat := fieldOr (s.fibre p) 4 4 0
def State.groupIndex (s : State) (p : Port) : Nat := fieldOr (s.fibre p) 8 2 14682
def State.optical (s : State) : Option (List Byte) := s.rec? 0x0021
/-- WAVELENGTH_CODE (Table 2.11). -/
def State.wavelengthCode (s : State) : Nat := fieldOr s.optical 0 1 50
/-- The laser wavelength in vacuum, pm (R46). -/
def State.wavelengthPm (s : State) : Nat := 1549500 + 10 * s.wavelengthCode
/-- TEC_SETPOINT in 0.01 °C (R57). -/
def State.tecSetpoint (s : State) : Nat := fieldOr s.optical 1 2 3500
/-- Pn_PEAK in 0.5 dBm. -/
def State.peakSet (s : State) (p : Port) : Int := sfieldOr s.optical (3 + p.val) 1 40
/-- Pn_TS_PEAK in 0.5 dBm. -/
def State.tsPeakSet (s : State) (p : Port) : Int := sfieldOr s.optical (5 + p.val) 1 42
/-- Pn_RX_GAIN of Table 2.11. -/
def State.rxGain (s : State) (p : Port) : Nat := fieldOr s.optical (7 + p.val) 1 0
def State.relockLimit (s : State) : Nat := fieldOr s.optical 9 1 3
def State.shotRec (s : State) (p : Port) : Option (List Byte) := s.rec? 0x0040 [portByte p]
def State.pleats (s : State) (p : Port) : Nat := fieldOr (s.shotRec p) 1 1 1
def State.tsEvery (s : State) (p : Port) : Nat := fieldOr (s.shotRec p) 2 1 1
def State.link (s : State) (p : Port) : Nat := fieldOr (s.shotRec p) 3 1 0
/-- PERIOD in units of 10 ns. -/
def State.period10 (s : State) (p : Port) : Nat := fieldOr (s.shotRec p) 4 4 50000
def State.minGuard (s : State) (p : Port) : Nat := fieldOr (s.shotRec p) 8 2 500
def State.epochMode (s : State) (p : Port) : Nat := fieldOr (s.shotRec p) 10 1 1
def State.tsOffset (s : State) (p : Port) : Nat := fieldOr (s.shotRec p) 12 4 0
def State.epochOffset (s : State) (p : Port) : Nat := fieldOr (s.shotRec p) 16 4 0
def State.linkOffset (s : State) (p : Port) : Nat := fieldOr (s.shotRec p) 20 4 0
def State.trigRec (s : State) (p : Port) : Option (List Byte) := s.rec? 0x0043 [portByte p]
def State.trigMode (s : State) (p : Port) : Nat := fieldOr (s.trigRec p) 1 1 0
def State.trigEdge (s : State) (p : Port) : Nat := fieldOr (s.trigRec p) 2 1 0
def State.queueOne (s : State) (p : Port) : Nat := fieldOr (s.trigRec p) 3 1 0
def State.deglitch (s : State) (p : Port) : Nat := fieldOr (s.trigRec p) 4 1 2
def State.prescale (s : State) (p : Port) : Nat := fieldOr (s.trigRec p) 6 2 1
def State.trigDelay (s : State) (p : Port) : Nat := fieldOr (s.trigRec p) 8 4 0
def State.trigTimeoutMs (s : State) (p : Port) : Nat := fieldOr (s.trigRec p) 12 2 0
def State.pulseRec (s : State) (p : Port) : Option (List Byte) := s.rec? 0x0042 [portByte p]
def State.chirpLength (s : State) (p : Port) : Nat := fieldOr (s.pulseRec p) 2 2 1600
def State.rectWidth (s : State) (p : Port) : Nat := fieldOr (s.pulseRec p) 6 2 0
/-- DIRECTION: 0 up, 1 down. -/
def State.direction (s : State) (p : Port) : Nat := fieldOr (s.pulseRec p) 1 1 0
def State.pleatRec (s : State) (p : Port) : Option (List Byte) := s.rec? 0x0041 [portByte p]

/-! ## Pleats and pulses (R77 to R80) -/

/-- Centre and width of a pleat's band, 0.25 MHz: Table 3.12, or Table 3.3 with PLEAT absent (R77). -/
def State.band (s : State) (p : Port) (k : Nat) : Int × Nat :=
  match s.pleatRec p with
  | some b => (sfieldAt b (4 + 2 * k) 2, fieldAt b (12 + 2 * k) 2)
  | none =>
    match s.pleats p with
    | 1 => (0, 760)
    | 2 => (if k = 0 then -194 else 194, 380)
    | _ => (-297 + 198 * k, 190)

/-- The bands of a port's pleats. -/
def State.pleatBands (s : State) (p : Port) : List (Int × Nat) := (List.range (s.pleats p)).map (s.band p)

/-- The narrowest of some bands. -/
def narrowest (bs : List (Int × Nat)) : Nat := (bs.map (·.2)).foldl min 760

/-- SWEEP in 0.25 MHz; its default is the width of the narrowest pleat (Table 3.11). -/
def State.sweep (s : State) (p : Port) : Nat := fieldOr (s.pulseRec p) 4 2 (narrowest (s.pleatBands p))

/-- The vibration pulse of a pleat (R78). -/
def State.vibPulse (s : State) (p : Port) (k : Nat) : Pulse :=
  { centre := (s.band p k).1
    sweep := if s.chirpLength p = 0 then 0 else if s.direction p = 0 then s.sweep p else -(s.sweep p : Int)
    duration := if s.chirpLength p = 0 then s.rectWidth p else s.chirpLength p }

/-- The temperature shot: 10 ns, rectangular, at +500 MHz (R80). -/
def tsPulse : Pulse := ⟨2000, 0, 8⟩

/-- Offset of a shot's light from the laser at `t` units of 1.25 ns after its start: f_c + s · B · (t/D − 1/2), 0.25 MHz (R44,
R78). -/
def Pulse.offsetAt (x : Pulse) (t : Nat) : Rat := x.centre + x.sweep * ((t : Rat) / x.duration - 1 / 2)

/-! ## CALIBRATION, PHASE, DECIMATION (Tables 5.11, 6.10, 6.11) -/

def State.calRec (s : State) : Option (List Byte) := s.rec? 0x00D0
def State.calMode (s : State) : Nat := fieldOr s.calRec 0 1 1
def State.acquireUpdates (s : State) : Nat := fieldOr s.calRec 1 1 8
def State.calSpare (s : State) : Nat := fieldOr s.calRec 2 1 1
def State.calInterval (s : State) : Nat := fieldOr s.calRec 4 2 10
def State.minPositions (s : State) : Nat := fieldOr s.calRec 6 2 32
def State.minInstants (s : State) : Nat := fieldOr s.calRec 8 4 1048576
def State.powerCeiling (s : State) : Nat := fieldOr s.calRec 12 1 8
def State.lowFactor (s : State) : Nat := fieldOr s.calRec 13 1 4
def State.vibLimit (s : State) : Nat := fieldOr s.calRec 14 1 30
def State.phaseRec (s : State) (p : Port) : Option (List Byte) := s.rec? 0x0050 [portByte p]
def State.taper (s : State) (p : Port) : Nat := fieldOr (s.phaseRec p) 1 1 1
def State.fadeLevel (s : State) (p : Port) : Nat := fieldOr (s.phaseRec p) 2 1 24
def State.gauge (s : State) (p : Port) : Nat := fieldOr (s.phaseRec p) 4 2 20
def State.wrapGuard (s : State) (p : Port) : Nat := fieldOr (s.phaseRec p) 6 2 14336
def State.alignTau (s : State) (p : Port) : Nat := fieldOr (s.phaseRec p) 8 2 256
def State.cmrFirst (s : State) (p : Port) : Nat := fieldOr (s.phaseRec p) 12 4 0
def State.cmrCount (s : State) (p : Port) : Nat := fieldOr (s.phaseRec p) 16 4 128
def State.rawFirst (s : State) (p : Port) : Nat := fieldOr (s.phaseRec p) 20 4 0
def State.rawCount (s : State) (p : Port) : Nat := fieldOr (s.phaseRec p) 24 2 0
def State.rawEvery (s : State) (p : Port) : Nat := fieldOr (s.phaseRec p) 26 2 1
def State.decRec (s : State) (p : Port) : Option (List Byte) := s.rec? 0x0051 [portByte p]
def State.decFactor (s : State) (p : Port) : Nat := fieldOr (s.decRec p) 1 1 0
def State.coarseFactor (s : State) (p : Port) : Nat := fieldOr (s.decRec p) 2 1 0
def State.decSamples (s : State) (p : Port) : Nat := fieldOr (s.decRec p) 3 1 16

/-! ## DTS, DTS_POLY, REF_INPUT, SUPERVISOR (Tables 7.13 to 7.16) -/

def State.dtsRec (s : State) (p : Port) : Option (List Byte) := s.rec? 0x0060 [portByte p]
/-- AS_GAIN or ST_GAIN. -/
def State.bandGain (s : State) (p : Port) (b : Band) : Nat := fieldOr (s.dtsRec p) (match b with | .as => 1 | .st => 2) 1 3
def State.lfEnable (s : State) (p : Port) : Nat := fieldOr (s.dtsRec p) 3 1 1
def State.apdRef (s : State) (p : Port) : Nat := fieldOr (s.dtsRec p) 4 2 1800
def State.bandRatio (s : State) (p : Port) (b : Band) : Nat :=
  fieldOr (s.dtsRec p) (match b with | .as => 6 | .st => 8) 2 32768
def State.dtsInterval (s : State) (p : Port) : Nat := fieldOr (s.dtsRec p) 10 2 60
def State.diffAtt (s : State) (p : Port) : Int := sfieldOr (s.dtsRec p) 12 2 0
def State.diffAttMode (s : State) (p : Port) : Nat := fieldOr (s.dtsRec p) 14 1 0
def State.deltaTau (s : State) (p : Port) : Nat := fieldOr (s.dtsRec p) 15 1 4
def State.refHold (s : State) (p : Port) : Nat := fieldOr (s.dtsRec p) 16 2 300
def State.dtsRawEvery (s : State) (p : Port) : Nat := fieldOr (s.dtsRec p) 18 2 0
def State.kT (s : State) (p : Port) : Nat := fieldOr (s.dtsRec p) 20 2 880
def State.phaseIndex (s : State) (p : Port) : Nat := fieldOr (s.dtsRec p) 22 2 14470
def State.xi (s : State) (p : Port) : Nat := fieldOr (s.dtsRec p) 24 2 7800
def State.polyRec (s : State) (p : Port) : Option (List Byte) := s.rec? 0x0061 [portByte p]
def State.refInput (s : State) (i : Nat) : Option (List Byte) := s.rec? 0x0062 [BitVec.ofNat 8 i]
def State.supRec (s : State) : Option (List Byte) := s.rec? 0x00C1
def State.supFilter (s : State) : Nat := fieldOr s.supRec 0 1 1
def State.supNotch (s : State) : Nat := fieldOr s.supRec 1 1 0
def State.supLowPower (s : State) : Nat := fieldOr s.supRec 2 1 0
def State.supCoarse (s : State) : Nat := fieldOr s.supRec 3 1 0
def State.excSettle (s : State) : Nat := fieldOr s.supRec 4 1 10
def State.supPeriod (s : State) : Nat := fieldOr s.supRec 8 4 0
def State.supDelay (s : State) : Nat := fieldOr s.supRec 12 4 0

/-! ## ZONE, DETECTOR, ALARM_MAP (Tables 8.5 to 8.8) -/

def State.zoneRec (s : State) (p : Port) : Option (List Byte) := s.rec? 0x0070 [portByte p]
def State.zoneCount (s : State) (p : Port) : Nat := fieldOr (s.zoneRec p) 2 2 0
def State.breakMargin (s : State) (p : Port) : Nat := fieldOr (s.zoneRec p) 4 2 16
/-- The 16-byte entry of a zone (Table 8.6). -/
def State.zoneEntry (s : State) (p : Port) (k : Nat) : List Byte := slice ((s.zoneRec p).getD []) (8 + 16 * k) 16
def State.detector (s : State) (p : Port) (d : Nat) : Option (List Byte) := s.rec? 0x0071 [portByte p, BitVec.ofNat 8 d]
def State.alarmMap (s : State) (o : Fin 4) : Option (List Byte) := s.rec? 0x0072 [BitVec.ofNat 8 o.val]
def State.alarmMode (s : State) (o : Fin 4) : Nat := fieldOr (s.alarmMap o) 1 1 0
def State.alarmFenceState (s : State) (o : Fin 4) : Nat := fieldOr (s.alarmMap o) 2 1 0
def State.minAssert (s : State) (o : Fin 4) : Nat := fieldOr (s.alarmMap o) 4 2 0

/-! ## MEMORY, HISTORY, COMPRESS (Tables 10.9, 10.11, 11.12) -/

def State.memRec (s : State) : Option (List Byte) := s.rec? 0x0080
def State.memGeneration (s : State) : Nat := fieldOr s.memRec 0 1 4
def State.memForm (s : State) : Nat := fieldOr s.memRec 1 1 0
def State.memRanks (s : State) : Nat := fieldOr s.memRec 2 1 1
def State.memWidth (s : State) : Nat := fieldOr s.memRec 3 1 8
def State.memDensity (s : State) : Nat := fieldOr s.memRec 4 1 8
def State.memVerify (s : State) : Nat := fieldOr s.memRec 5 1 1
def State.verifyMargin (s : State) : Nat := fieldOr s.memRec 6 1 8
def State.refreshTemp (s : State) : Nat := fieldOr s.memRec 7 1 85
/-- Page hint of a port: the row stays open after the port's last access to it, or is closed with it (R312, Table 10.9). MEMORY gives
SCRUB none: its rows stay open. Log entry 131, PRESUMED. -/
def State.pageCloses (s : State) (port : Fin 4) : Bool :=
  match port with
  | 0 => fieldOr s.memRec 9 1 0 == 1
  | 1 => fieldOr s.memRec 10 1 1 == 1
  | 2 => fieldOr s.memRec 11 1 1 == 1
  | 3 => false
def State.srIdle (s : State) : Nat := fieldOr s.memRec 13 2 100
def State.snapDeadline (s : State) : Nat := fieldOr s.memRec 15 2 200
def State.pcieDeadline (s : State) : Nat := fieldOr s.memRec 17 2 20
def State.scrubHours (s : State) : Nat := fieldOr s.memRec 19 1 24
def State.memFlushMs (s : State) : Nat := fieldOr s.memRec 21 2 100
def State.history (s : State) (r : Nat) : Option (List Byte) := s.rec? 0x0082 [BitVec.ofNat 8 r]
def State.histProduct (s : State) (r : Nat) : Nat := fieldOr (s.history r) 1 1 0
def State.histSource (s : State) (r : Nat) : Nat := fieldOr (s.history r) 2 1 0
def State.histCoding (s : State) (r : Nat) : Nat := fieldOr (s.history r) 3 1 0
def State.histQuality (s : State) (r : Nat) : Nat := fieldOr (s.history r) 4 1 1
def State.histFirst (s : State) (r : Nat) : Nat := fieldOr (s.history r) 8 4 0
def State.histCount (s : State) (r : Nat) : Nat := fieldOr (s.history r) 12 4 0
def State.histSizeMiB (s : State) (r : Nat) : Nat := fieldOr (s.history r) 16 4 0
/-- RECORD_MASK of ring 2; a ring that is absent keeps nothing. -/
def State.recordMask (s : State) : Nat := fieldOr (s.history 2) 20 4 0
def State.snapKeep (s : State) : Nat := fieldOr (s.history 3) 24 2 60

def State.compRec (s : State) (p : Port) : Option (List Byte) := s.rec? 0x0090 [portByte p]
def State.compCoding (s : State) (p : Port) : Nat := fieldOr (s.compRec p) 1 1 0
def State.compProducts (s : State) (p : Port) : Nat := fieldOr (s.compRec p) 2 1 1
def State.compQuality (s : State) (p : Port) : Nat := fieldOr (s.compRec p) 3 1 1

/-! ## ETHERNET, STREAM_ROUTE, PCIE (Tables 11.19 to 11.21) -/

def State.ethRec (s : State) (l : Lane) : Option (List Byte) := s.rec? 0x00A0 [BitVec.ofNat 8 l.val]
def State.ethMtu (s : State) (l : Lane) : Nat := fieldOr (s.ethRec l) 3 1 1
/-- The lane's MAC as configured; zero means the fused address. -/
def State.ethMacField (s : State) (l : Lane) : U48 := BitVec.ofNat 48 (beNat (slice ((s.ethRec l).getD []) 4 6))
def State.icmpEcho (s : State) (l : Lane) : Nat := fieldOr (s.ethRec l) 10 1 1
/-- An IPv4 field, most significant byte first. -/
def ipAt (r : Option (List Byte)) (off : Nat) : U32 := BitVec.ofNat 32 (beNat (slice (r.getD []) off 4))
def State.ethIp (s : State) (l : Lane) : U32 := ipAt (s.ethRec l) 12
def State.netmask (s : State) (l : Lane) : U32 := ipAt (s.ethRec l) 16
def State.gateway (s : State) (l : Lane) : U32 := ipAt (s.ethRec l) 20
def State.mgmtPort (s : State) (l : Lane) : Nat := fieldOr (s.ethRec l) 24 2 4820
def State.arpRefreshS (s : State) (l : Lane) : Nat := fieldOr (s.ethRec l) 26 2 60
def State.routeRec (s : State) (r : RouteId) : Option (List Byte) := s.rec? 0x00A1 [BitVec.ofNat 8 r.val]
def State.routeLane (s : State) (r : RouteId) : Lane := if fieldOr (s.routeRec r) 1 1 0 = 1 then 1 else 0
def State.routePorts (s : State) (r : RouteId) : Nat := fieldOr (s.routeRec r) 2 1 3
def State.routeDscp (s : State) (r : RouteId) : Nat := fieldOr (s.routeRec r) 3 1 0
def State.routeTypes (s : State) (r : RouteId) : Nat := fieldOr (s.routeRec r) 4 2 0
def State.routeProduct (s : State) (r : RouteId) : Nat := fieldOr (s.routeRec r) 6 1 0
def State.routeSource (s : State) (r : RouteId) : Nat := fieldOr (s.routeRec r) 7 1 0
def State.routeCoding (s : State) (r : RouteId) : Nat := fieldOr (s.routeRec r) 8 1 0
def State.routeQuality (s : State) (r : RouteId) : Nat := fieldOr (s.routeRec r) 9 1 1
def State.routeFlushMs (s : State) (r : RouteId) : Nat := fieldOr (s.routeRec r) 10 2 100
def State.routeFirst (s : State) (r : RouteId) : Nat := fieldOr (s.routeRec r) 12 4 0
def State.routeCount (s : State) (r : RouteId) : Nat := fieldOr (s.routeRec r) 16 4 0
def State.routeDestIp (s : State) (r : RouteId) : U32 := ipAt (s.routeRec r) 20
def State.routeDestPort (s : State) (r : RouteId) : Nat := fieldOr (s.routeRec r) 24 2 0
def State.routeSrcPort (s : State) (r : RouteId) : Nat := fieldOr (s.routeRec r) 26 2 4821
def State.heartbeatMs (s : State) (r : RouteId) : Nat := fieldOr (s.routeRec r) 28 2 1000
def State.housekeepingMs (s : State) (r : RouteId) : Nat := fieldOr (s.routeRec r) 30 2 0
def State.pcieRec (s : State) : Option (List Byte) := s.rec? 0x00A2
def State.pcieMaxSpeed (s : State) : Nat := fieldOr s.pcieRec 0 1 4
def State.pcieMaxWidth (s : State) : Nat := fieldOr s.pcieRec 1 1 4
def State.subsysVendor (s : State) : Nat := fieldOr s.pcieRec 6 2 0
def State.subsysId (s : State) : Nat := fieldOr s.pcieRec 8 2 0
def State.bar2Log2 (s : State) : Nat := fieldOr s.pcieRec 2 1 0
def State.msixHoldoff (s : State) : Nat := fieldOr s.pcieRec 4 2 100

/-! ## HEALTH and PANEL (Tables 13.12, 14.9, 14.11) -/

def State.healthRec (s : State) : Option (List Byte) := s.rec? 0x00C0
def State.healthMode (s : State) : Nat := fieldOr s.healthRec 0 1 0
def State.mirrorOn (s : State) : Nat := fieldOr s.healthRec 1 1 1
def State.recoveryLimit (s : State) : Nat := fieldOr s.healthRec 2 1 3
def State.recoveryDelay (s : State) : Nat := fieldOr s.healthRec 4 2 1000
def State.recoveryClean (s : State) : Nat := fieldOr s.healthRec 6 2 3600
def State.pfailRestartMs (s : State) : Nat := fieldOr s.healthRec 8 2 100
def State.noRecovery (s : State) : Nat := fieldOr s.healthRec 12 4 0
def State.panelRec (s : State) : Option (List Byte) := s.rec? 0x00B0
def State.alsDistance (s : State) (p : Port) : Nat := fieldOr s.panelRec (2 * p.val) 2 100
def State.probeTime (s : State) : Nat := fieldOr s.panelRec 4 2 2000
def State.probePeriod (s : State) : Nat := fieldOr s.panelRec 6 2 100
def State.keyFunc (s : State) (k : Fin 8) : Nat :=
  fieldOr s.panelRec (12 + k.val) 1 (([1, 2, 2, 0, 0, 0, 0, 0] : List Nat)[k.val]?.getD 0)
def State.keyArg (s : State) (k : Fin 8) : Nat :=
  fieldOr s.panelRec (20 + k.val) 1 (([0, 0, 1, 0, 0, 0, 0, 0] : List Nat)[k.val]?.getD 0)
/-- I_R, I_G, I_B. -/
def State.ledCurrent (s : State) (c : Nat) : Nat := fieldOr s.panelRec (28 + c) 1 100
def State.diagInterval (s : State) : Nat := fieldOr s.panelRec 31 1 4
/-- RESTART_HOLD and DEBOUNCE, ms. -/
def State.restartHold (s : State) : Nat := fieldOr s.panelRec 8 2 2000
def State.debounceMs (s : State) : Nat := fieldOr s.panelRec 10 1 20
/-- SETUP_COUNT, SENSOR_DATA_REG, and a set-up pair: register and value. -/
def State.setupCount (s : State) : Nat := fieldOr s.panelRec 35 1 0
def State.sensorDataReg (s : State) : Nat := fieldOr s.panelRec 36 1 0
def State.setupPair (s : State) (k : Nat) : Nat × Nat := (fieldOr s.panelRec (38 + 2 * k) 1 0, fieldOr s.panelRec (39 + 2 * k) 1 0)
def State.sensorAddr (s : State) : Nat := fieldOr s.panelRec 32 1 0
def State.sensePixel (s : State) : Nat := fieldOr s.panelRec 33 1 0xFF
def State.senseTime (s : State) : Nat := fieldOr s.panelRec 34 1 100
def State.colourPeriod (s : State) : Nat := fieldOr s.panelRec 46 2 60
def State.colourTarget (s : State) (c : Nat) : Nat := fieldOr s.panelRec (48 + 2 * c) 2 0
/-- The default palette of Table 14.9. -/
def defaultPalette : List Nat := [0, 0, 0, 255, 0, 0, 0, 255, 0, 0, 0, 255, 255, 96, 0, 255, 255, 255]
def State.palette (s : State) (entry c : Nat) : Nat :=
  fieldOr s.panelRec (54 + 3 * entry + c) 1 (defaultPalette[3 * entry + c]?.getD 0)
/-- The 8-byte entry of a pixel (Table 14.10). -/
def State.pixelEntry (s : State) (p : Nat) : List Byte := slice (s.panelRec.getD []) (102 + 8 * p) 8
def State.gammaRec (s : State) (c : Nat) : Option (List Byte) := s.rec? 0x00B1 [BitVec.ofNat 8 c]

/-! ## Geometry (R23 to R25, R74, R140) -/

/-- Speed of light, m/s (R23). -/
def lightSpeed : Nat := 299792458

/-- T_rt in ps, rounded up (R84). -/
def tRtPs (reach groupIndex : Nat) : Nat := (2 * groupIndex * reach * 100000000 + lightSpeed - 1) / lightSpeed

/-- Points from point 0 to the last within reach, at a spacing of `p` sample spacings (R24, R25). -/
def pointsWithin (reach groupIndex p : Nat) : Nat := reach * groupIndex * 40000 / (lightSpeed * p) + 1

/-- P1's programme follows P0's (R97). -/
def State.linkedTo0 (s : State) (p : Port) : Bool := p == 1 && s.link 1 == 1

/-- Groups start on external calls, so that acoustic samples are irregular in time (R193); a linked P1 follows P0's mode (R185). -/
def State.irregular (s : State) (p : Port) : Bool :=
  (if s.linkedTo0 p then s.trigMode 0 else s.trigMode p) != 0

/-- Group starts of the port are anchored to extended time (R85, R185): its own, or those of P0 that it follows. -/
def State.groupAnchored (s : State) (p : Port) : Bool :=
  let q : Port := if s.linkedTo0 p then 0 else p
  s.epochMode q == 1 && s.trigMode q == 0

/-- N_p: points per pleat of a port (R25). -/
def State.nPoints (s : State) (p : Port) : Nat := pointsWithin (s.reach p) (s.groupIndex p) (max 1 (s.pleats p))

/-- Duration of a port's vibration pulse in 1.25 ns (R78). -/
def State.pulse125 (s : State) (p : Port) : Nat := if s.chirpLength p = 0 then s.rectWidth p else s.chirpLength p

/-- T_rt of a port, ps. -/
def State.tRt (s : State) (p : Port) : Nat := tRtPs (s.reach p) (s.groupIndex p)

/-- N_s: sample instants of a vibration record (R140). -/
def State.nSamples (s : State) (p : Port) : Nat := (s.tRt p + s.pulse125 p * 1250 + 4999) / 5000

/-- The listen window in CK_LNC periods (R74). -/
def State.listenP (s : State) (p : Port) : Nat := (s.tRt p + s.pulse125 p * 1250 + 2499) / 2500

end Sys2Proof.Machine
end

