-- ==== Sys2Proof/Machine/Flags.lean ====
section
/-! DEFINITION. Conditions and flags the spec derives from other state: fences, permits of the hatband, HEALTH_N (R417), the
device state (Table 13.13), and the status-space block of a code (R416). -/

namespace Sys2Proof.Machine

/-- The device has passed power good and is not in POWER_FAIL (R397, R403). -/
def State.live (s : State) : Bool := s.power.phase == .up

/-- A fence domain as the hatband holds it. -/
def State.dom (s : State) (d : Domain) : Dom := s.hb.doms[d]

/-- The agent of a domain holds its fence closed (R406). -/
def State.isShut (s : State) (d : Domain) : Bool := (s.dom d).shut

/-- The domain's logic runs: it is not fenced, or runs its recovery sequence (R406, R414). -/
def State.runs (s : State) (d : Domain) : Bool := !s.isShut d || (s.dom d).st == .attempt

/-- The hatband holds a domain fenced (R413). -/
def Dom.fenced (d : Dom) : Bool :=
  match d.st with
  | .waiting | .attempt | .permanent => true
  | .running | .idle => false

/-- The mask of domains that meet a condition, bit per domain (R453). -/
def State.domMask (s : State) (f : Dom → Bool) : Nat := bitsOf (s.hb.doms.toList.map f)

/-- HLT_FENCED. -/
def State.fenceMask (s : State) : Nat := s.domMask Dom.fenced

/-- HLT_PERMANENT. -/
def State.permanentMask (s : State) : Nat := s.domMask fun d => d.st == .permanent

/-- Some controller acts (R409, R412). -/
def State.hatbandActs (s : State) : Bool :=
  !s.hb.bothFailed && (s.hb.ctlA != .failed || s.hb.ctlB != .failed)

/-- Exactly one controller has failed. -/
def State.oneCtlFailed (s : State) : Bool := (s.hb.ctlA == .failed) != (s.hb.ctlB == .failed)

/-- HEALTH_N is asserted (R417): before the image is loaded, in UNCONFIGURED and POWER_FAIL, with the both-failed latch, and
in the cases of Table 13.8. -/
def State.healthAsserted (s : State) : Bool :=
  !s.live || s.cfg.state != 1 || s.hb.bothFailed ||
    (match s.healthMode with
     | 0 => s.fenceMask != 0
     | 1 => s.fenceMask != 0 || !s.hb.warnings.isEmpty || s.oneCtlFailed
     | _ => s.permanentMask != 0)

/-- HLT_DEVICE_STATE (Table 13.13). -/
def State.deviceState (s : State) : Nat :=
  match s.power.phase with
  | .powerFail => 5
  | .held => 0
  | .up =>
    if s.hb.bothFailed then 4
    else if s.cfg.state = 2 then 3
    else if s.cfg.state = 0 then 0
    else if s.fenceMask != 0 then 2 else 1

/-- The status-space block of a condition or fault code: bits [23:16] (R416). -/
def codeBlock (code : U32) : Nat := code.toNat / 2 ^ 16 % 256

/-- A warning is raised now. -/
def State.warned (s : State) (code : U32) : Bool := s.hb.warnings.any fun w => w.code == code

/-- A warning that stays raised until restart (Table 13.6). -/
def stickyWarning (code : U32) : Bool :=
  ([0x00010001#32, 0x00010002#32, 0x00010003#32, 0x00020001#32, 0x00030001#32, 0x00040001#32, 0x00040003#32, 0x00040004#32,
    0x00040005#32, 0x00070001#32, 0x000D0001#32, 0x000D0002#32, 0x000F0003#32, 0x00100002#32, 0x00160001#32] : List U32).contains code

/-- Bit of STREAM_ROUTE.TYPES that selects a record type (Table 11.21). -/
def typesBit (typ : Nat) : Option Nat :=
  match typ with
  | 0x01 => some 0 | 0x02 => some 1 | 0x03 => some 2 | 0x04 => some 3 | 0x10 => some 4 | 0x11 => some 5
  | 0x20 => some 6 | 0x21 => some 7 | 0x30 => some 8 | 0x31 => some 9 | 0x40 => some 10 | _ => none

/-- Bit of HISTORY.RECORD_MASK that keeps a record type in ring 2 (Table 10.11). -/
def maskBit (typ : Nat) : Option Nat :=
  match typ with
  | 0x10 => some 0 | 0x11 => some 1 | 0x03 => some 2 | 0x20 => some 3 | 0x30 => some 4 | 0x31 => some 5 | 0x40 => some 6
  | _ => none

/-- A route carries a record of this type and port (R363): 0xFF is a record without a port. -/
def State.routeTakes (s : State) (r : RouteId) (typ port : Nat) : Bool :=
  (s.routeRec r).isSome &&
    (match typesBit typ with | some k => bitOf (s.routeTypes r) k | none => false) &&
    (port == 0xFF || bitOf (s.routePorts r) port)

/-- Ring 2 keeps a record of this type (R324). -/
def State.ring2Takes (s : State) (typ : Nat) : Bool :=
  s.histSizeMiB 2 != 0 && (match maskBit typ with | some k => bitOf s.recordMask k | none => false)

/-- The record limit of a route (R328). -/
def State.recordLimit (s : State) (r : RouteId) : Nat := if s.ethMtu (s.routeLane r) = 0 then 1472 else 8972

/-- The record limit of ring 2 and the snapshot pool (R328). -/
def ringRecordLimit : Nat := 65536

/-- The PCI Express endpoint exists: a PCIE record, or UNCONFIGURED with its defaults (R354, R386). -/
def State.pciePresent (s : State) : Bool := s.live && (s.pcieRec.isSome || s.cfg.state == 2)

/-- The function answers memory requests and sends MSI-X (R354, R357). -/
def State.pcieServes (s : State) : Bool :=
  s.pciePresent && s.pcie.link == .up && !s.pcie.d3hot && !s.isShut 14

/-! ## Permission to emit (R62) -/

/-- The hardwired permit of a port (R426): ILOCK_N and its connector input asserted and past the restoration timer. -/
def State.hardPermit (s : State) (p : Port) : Bool :=
  s.permits.asserted[(0 : Fin 3)] && s.permits.asserted[(if p = 0 then 1 else 2 : Fin 3)]

/-- The ALS state lets the port emit (R431). -/
def State.alsPermits (s : State) (p : Port) : Bool :=
  match s.als[p].st with
  | .probe | .sensing | .disabled => true
  | .idle | .shutdown | .held | .suspended => false

/-- The conditions of R62 that are not particular to a port: laser READY, FD02, FD03 and FD04 not fenced. -/
def State.commonMayEmit (s : State) : Bool :=
  s.live && s.opt.laser == .ready && !s.isShut 2 && !s.isShut 3 && !s.isShut 4

/-- Every condition of R62 but the sequencer's own shot. -/
def State.mayEmit (s : State) (p : Port) : Bool :=
  s.commonMayEmit && s.hardPermit p && s.alsPermits p && !s.isShut (if p = 0 then 0 else 1)

end Sys2Proof.Machine
end

