-- ==== Sys2Proof/Machine/Ops.lean ====
section
/-! DEFINITION. The operations commands share: time passing (R115, R116), what leaves the lands, counters, black-box records
(R418, R420), records for routes and ring 2 (R329, R332), MSI-X messages (R358), warnings (R416) and fault reports (R406). -/

namespace Sys2Proof.Machine

/-! ## Units of `State.now` -/

/-- A millisecond in CK_LNC periods of 2.5 ns. -/
def msP : Nat := 400000
/-- A microsecond in CK_LNC periods. -/
def usP : Nat := 400
/-- A second in CK_LNC periods. -/
def secP : Nat := 400000000

/-! ## Time -/

/-- Device time with its fraction as one number of 96 bits. -/
def Tim.full (t : Tim) : Nat := t.time.toNat * 2 ^ 32 + t.frac.toNat

/-- Device time advances by its increment in each CK_LNC period, and a wrap is counted (R115, R116).
Log entry 2, DESIGN CHOICE. -/
def Tim.advance (t : Tim) (dt : Nat) : Tim :=
  if t.runs then
    let f := t.full + dt * t.incr
    { t with
      time := BitVec.ofNat 64 (f / 2 ^ 32)
      frac := BitVec.ofNat 32 f
      wraps := t.wraps + BitVec.ofNat 32 (f / 2 ^ 96) }
  else t

/-- Time passes: `dt` periods of CK_LNC since the previous command, in which what holds now has held. Log entry 2, DESIGN CHOICE. -/
def State.elapse (s : State) (dt : Nat) : State :=
  { s with
    now := s.now + dt, tim := s.tim.advance dt
    darkFrom := Vector.ofFn fun p => if s.mayEmit p then none else some (s.darkFrom[p].getD s.now) }

/-- Device time now. -/
def State.devTime (s : State) : U64 := s.tim.time

/-- Extended device time: wraps and device time as one number, 2⁻⁸ ns (R116). -/
def State.extTime (s : State) : Nat := s.tim.wraps.toNat * 2 ^ 64 + s.tim.time.toNat

/-- Extended device time with its fraction, 2⁻⁴⁰ ns (R116). -/
def Tim.extended (t : Tim) : Nat := t.wraps.toNat * 2 ^ 96 + t.full

/-! ## What leaves the lands -/

/-- Something leaves the device. Log entry 4, DESIGN CHOICE. -/
def State.send (s : State) (o : Output) : State := { s with outputs := o :: s.outputs }

/-- Take a fresh free value's index and advance the counter. Log entry 3, DESIGN CHOICE. -/
def State.takeFree (s : State) : State := { s with free := s.free + 1 }

/-! ## Routes and ring 2 -/

/-- Put a record on its way to a route's lane. -/
def State.toRoute (s : State) (r : RouteId) (p : PRec) : State :=
  { s with routes := upd s.routes r fun x => { x with inflight := x.inflight ++ [p] } }

/-- The rings are open: MEM has run since its start (Table 10.2 step 8) and FD13 is not fenced (R321). -/
def State.ringsOpen (s : State) : Bool := (s.mem.st == .running || s.mem.st == .selfRefresh) && !s.isShut 13

/-- Flits of 32 bytes that carry a number of bytes (R267). Log entry 46, DEDUCED. -/
def flits (n : Nat) : Nat := (n + 31) / 32

/-- Flits addressed to a fenced endpoint are discarded and counted (R271). -/
def State.fencedFlits (s : State) (n : Nat) : State :=
  { s with fab := { s.fab with fencedDiscards := s.fab.fencedDiscards + BitVec.ofNat 64 n } }

/-- Put an item on its way to the writer of a ring (R310); a fenced writer's items are discarded (R271, R321), and before the
rings open nothing is kept. Log entry 46, DEDUCED. -/
def State.toRing (s : State) (ring : Fin 3) (i : RtItem) : State :=
  if s.ringsOpen then { s with mem := { s.mem with items := upd s.mem.items ring fun l => l ++ [i] } }
  else if s.isShut 13 then
    s.fencedFlits (flits (i.bytes.length + (i.prec.map fun p => 36 + p.payload.length).getD 0))
  else s

/-- All routes. -/
def allRoutes : List RouteId := List.finRange 16

/-- A completed record goes to every route that carries it and to ring 2 when it keeps it (R329, R363, Table 10.11). -/
def State.emitRec (s : State) (p : PRec) : State :=
  let s := allRoutes.foldl (fun s r => if s.routeTakes r p.typ p.port then s.toRoute r p else s) s
  if s.ring2Takes p.typ then s.toRing 2 { prec := some p } else s

/-- A record completed now. -/
def State.newRec (s : State) (typ port : Nat) (payload : List Byte) : PRec :=
  { typ := typ, port := port, time := s.devTime, wraps := s.tim.wraps, payload := payload, doneAt := s.now }

/-! ## MSI-X -/

/-- The message of a vector leaves, and its hold-off begins (R358). -/
def State.msixSend (s : State) (v : Fin 8) : State :=
  let e := s.pcie.msix[v]
  let s := s.send (.msix v e.addr e.data)
  let e := { e with sent := e.sent + 1, merged := false, pending := false, holdUntil := s.now + s.msixHoldoff * usP }
  { s with pcie := { s.pcie with msix := s.pcie.msix.set v e } }

/-- An event on a vector sends its message, merges into the last one during the hold-off, or sets the pending bit of a masked
vector (R358). Log entry 82, PRESUMED. -/
def State.msixEvent (s : State) (v : Fin 8) : State :=
  if s.pcieServes then
    let e := s.pcie.msix[v]
    if e.control.getLsbD 0 then
      { s with pcie := { s.pcie with msix := s.pcie.msix.set v { e with pending := true } } }
    else if s.now < e.holdUntil then
      { s with pcie := { s.pcie with msix := s.pcie.msix.set v { e with merged := true } } }
    else s.msixSend v
  else s

/-- A memory write that the function does not serve is an Unsupported Request (R357): a posted request, so that it is counted and
no completion leaves. Without a link it does not reach the function. Log entry 83, DEDUCED. -/
def State.postedUr (s : State) : State :=
  if s.pciePresent && s.pcie.link == .up then { s with pcie := { s.pcie with ur := s.pcie.ur + 1 } } else s

/-! ## Black box, HEALTH records, warnings -/

/-- A HEALTH record of Table 11.4 is formed (R332); its sequence runs from 1 and wraps to 1. None is formed once no controller
acts (R412). Log entry 60, DEDUCED. -/
def State.healthRecord (s : State) (kind domain : Nat) (code value : U32) : State :=
  if !s.hatbandActs then s
  else
    let q := if s.hb.healthSeq + 1 = 0 then 1 else s.hb.healthSeq + 1
    let s := { s with hb := { s.hb with healthSeq := q } }
    s.emitRec (s.newRec 0x30 0xFF
      (le 4 q.toNat ++ le 1 kind ++ le 1 domain ++ le 2 (codeBlock code) ++ le 4 code.toNat ++ le 4 value.toNat ++
        le 8 s.devTime.toNat))

/-- A record joins the black-box queue; with 64 records waiting it is dropped and counted (R420). Log entry 92, DEDUCED. -/
def State.bbxEnqueue (s : State) (r : BbxRec) : State :=
  if s.bbx.queue.length < 64 then { s with bbx := { s.bbx with queue := s.bbx.queue ++ [r] } }
  else { s with bbx := { s.bbx with dropped := s.bbx.dropped + 1 } }

/-- A black-box record made now (Table 13.9). Log entry 135, DESIGN CHOICE. -/
def State.bbxRec (s : State) (kind : Nat) (domain : Nat) (code value : U32) (detail : List Byte) : BbxRec :=
  { kind := kind, domain := domain, time := s.devTime, wraps := s.tim.wraps, boot := s.bbx.boot.toNat % 2 ^ 16,
    block := codeBlock code, code := code, value := value, detail := slice detail 0 28 }

/-- A warning's condition starts or still holds: HEALTH record of KIND 0, black-box record and list entry on the first
occurrence; a fresh occurrence while it is raised forms no further record (R416). Without a controller that acts no warning is
raised (R276, R412). `place` tells the places of one condition apart. Log entry 60, DEDUCED. -/
def State.raise (s : State) (code value : U32) (holds : Bool) (place : Nat := 0) : State :=
  let held := fun (l : List Nat) => if holds then place :: l.filter (· != place) else l.filter (· != place)
  if !s.hatbandActs then s
  else if s.warned code then
    { s with hb := { s.hb with warnings := s.hb.warnings.map fun w =>
        if w.code = code then { w with seenAt := s.now, holders := held w.holders } else w } }
  else
    let s := { s with hb := { s.hb with
      warnings := s.hb.warnings ++ [({ code := code, value := value, seenAt := s.now, holders := held [] } : Warn)] } }
    let s := s.healthRecord 0 0xFF code value
    let s := s.bbxEnqueue (s.bbxRec 0x0010 0xFF code value [])
    s.msixEvent 5

/-- A record for the black box: queued, or dropped with warning 0x0003_0002 (R420). -/
def State.record (s : State) (r : BbxRec) : State :=
  if s.bbx.queue.length < 64 then s.bbxEnqueue r
  else
    let s := s.bbxEnqueue r
    s.raise 0x00030002#32 s.bbx.dropped false

/-- A warning's condition has ended at a place (R416). -/
def State.warnEnded (s : State) (code : U32) (place : Nat := 0) : State :=
  { s with hb := { s.hb with warnings := s.hb.warnings.map fun w =>
      if w.code = code ∧ w.holders.contains place = true then
        { w with seenAt := s.now, holders := w.holders.filter (· != place) }
      else w } }

/-- A warning is raised with its black-box record dropped or not (R416, R420). Log entry 35, DEDUCED. -/
def State.warn (s : State) (code value : U32) (holds : Bool := false) (place : Nat := 0) : State :=
  let full := !s.warned code && s.bbx.queue.length ≥ 64
  let s := s.raise code value holds place
  if full then s.raise 0x00030002#32 s.bbx.dropped false else s

/-! ## Fault reports -/

/-- A domain asserts its dedicated fault line (R406). -/
def State.report (s : State) (d : Domain) (code value : U32) : State :=
  { s with hb := { s.hb with reports := s.hb.reports ++ [⟨d, code, value⟩] } }

/-! ## Urgent notices (R272, R273) -/

/-- Change the state of the urgent notices. -/
def State.setUrgent (s : State) (f : Urgent → Urgent) : State := { s with fab := { s.fab with u := f s.fab.u } }

/-- A source of Table 9.4 as an index. -/
def sourceIndex (k : USource) : Fin 4 := match k with | .evt => 0 | .hbA => 1 | .hbB => 2 | .operator => 3

/-- A source has injected no flit within the last 10 ns (R273). -/
def State.mayInject (s : State) (k : USource) : Bool := (s.fab.u.sentAt[sourceIndex k].map fun t => decide (t + 4 ≤ s.now)).getD true

/-- A flit of a source has crossed (R273, R274). -/
def State.injected (s : State) (k : USource) : State :=
  { s with fab := { s.fab with
    uFlits := s.fab.uFlits + 1, u := { s.fab.u with sentAt := s.fab.u.sentAt.set (sourceIndex k) (some s.now) } } }

/-- Change one domain's entry. -/
def State.setDom (s : State) (d : Domain) (f : Dom → Dom) : State :=
  { s with hb := { s.hb with doms := upd s.hb.doms d f } }

/-- All domains. -/
def allDomains : List Domain := List.finRange 20

/-- Both ports. -/
def bothPorts : List Port := [0, 1]

end Sys2Proof.Machine
end

