-- ==== Sys2Proof/Machine/Drops.lean ====
section
/-! DEFINITION. Whole-shot drops and the drop ledger (R282 to R284), and the shot that emission stops in (R65). -/

namespace Sys2Proof.Machine

/-- Change a port's acquisition. -/
def State.setAcq (s : State) (p : Port) (f : Acq → Acq) : State := { s with acq := upd s.acq p f }

/-- Change a port's calibration. -/
def State.setCal (s : State) (p : Port) (f : Cal → Cal) : State := s.setAcq p fun x => { x with cal := f x.cal }

/-- Change a port's Raman front end and temperature engine. -/
def State.setDts (s : State) (p : Port) (f : Dts → Dts) : State := { s with dts := upd s.dts p f }

/-- Change a port's loss counters. -/
def State.setDrop (s : State) (p : Port) (f : DropPort → DropPort) : State :=
  { s with fab := { s.fab with ports := upd s.fab.ports p f } }

/-- Fence domain of a port's acquisition: FD05 or FD06. -/
def acqDomain (p : Port) : Domain := if p = 0 then 5 else 6

/-- Cause "queue full" of Table 9.7. -/
def causeQueue : Nat := 1

/-- A ledger entry as its 16 bytes (Table 9.7). -/
def DropEntry.bytes (e : DropEntry) : List Byte :=
  le 8 e.time.toNat ++ le 6 e.group.toNat ++
    le 1 (bitIf (e.port == 1) 6 + e.pleat % 4 * 16 + bitIf e.temperature 3) ++ le 1 e.cause

/-- A drop enters the ledger, and the black box when the port has dropped nothing in the preceding second (R282, R284).
Log entry 37, DEDUCED. -/
def State.logDrop (s : State) (p : Port) (tag : ShotTag) (cause : Nat) : State :=
  let e : DropEntry := ⟨tag.launchTime, tag.group, p, tag.pleat, tag.temperature, cause⟩
  let quiet := (s.fab.ports[p].lastAt.map fun t => decide (t + secP ≤ s.now)).getD true
  let s := { s with fab := { s.fab with
    log := (e :: s.fab.log).take 256
    dropIndex := (s.fab.dropIndex + 1) % 256 } }
  let s := s.setDrop p fun x => { x with lastAt := some s.now }
  if quiet then s.record (s.bbxRec 0x0051 0xFF 0 0 e.bytes) else s

/-- The awaiting entry is that of the shot with this tag. -/
def Awaiting.isShot (a : Awaiting) (tag : ShotTag) : Bool :=
  a.tag.group == tag.group && a.tag.pleat == tag.pleat && a.tag.temperature == tag.temperature

/-- Scheduled time plus the nominal monitor delay retained at manufacture (R93). -/
def Awaiting.nominal (a : Awaiting) (p : Port) : U64 := a.scheduled + BitVec.ofNat 64 (Config.launchDelay p)

/-- A launched shot is lost in the core (R282): counted, and entered in the ledger as soon as its LAUNCH_TIME is known.
Log entry 37, DEDUCED. -/
def State.dropShot (s : State) (p : Port) (tag : ShotTag) (cause : Fin 4) : State :=
  let code := cause.val + 1
  let s := s.setDrop p fun x => { x with counts := upd x.counts cause (· + 1) }
  let s := if code = causeQueue then s.setAcq p fun x => { x with refused := x.refused + 1 } else s
  if s.sht[p].awaiting.any fun a => a.isShot tag then
    { s with sht := upd s.sht p fun x =>
        { x with awaiting := x.awaiting.map fun a => if a.isShot tag then { a with drops := a.drops ++ [code] } else a } }
  else s.logDrop p tag code

/-- Mark pleats. -/
def setPleat (v : Vector Bool 4) (pleat : Nat) (b : Bool) : Vector Bool 4 := Vector.ofFn fun k => if k.val = pleat then b else v[k]

/-- Words in no record are released (R143). -/
def Acq.release (x : Acq) : Acq :=
  { x with ring := x.ring.filter fun w =>
      x.records.any fun r => decide (r.first ≤ w.instant) && decide (w.instant < r.first + 2 * r.len) }

/-- Records are discarded, and the next record of each one's pleat has no predecessor for the Disturbed rule (R143, R152). -/
def Acq.discard (x : Acq) (gone : AcqRec → Bool) : Acq :=
  let r := x.records.foldl (fun (a : List AcqRec × Vector Bool 4) r =>
    let gap := (a.2.toList[r.tag.pleat]?).getD false
    if gone r then (a.1, setPleat a.2 r.tag.pleat true)
    else (a.1 ++ [{ r with afterGap := r.afterGap || gap }], setPleat a.2 r.tag.pleat false)) ([], Vector.replicate 4 false)
  ({ x with records := r.1, gap := Vector.ofFn fun k => x.gap[k] || r.2[k] } : Acq).release

/-- The shot that emission stopped in is discarded whole: its records and its launch energy (R65, R210). -/
def State.discardShot (s : State) (p : Port) (g : ShotFlight) : State :=
  let s := s.setAcq p fun x => x.discard fun r => r.openedAt == g.openedAt
  s.setDts p fun x =>
    { x with
      recs := x.recs.filter fun r => r.openedAt != g.openedAt
      launches := x.launches.filter fun l => l.openedAt != g.openedAt }

/-- A light path of the port is still read: a gate is open, a group is in progress or a record is open (R113). -/
def State.shotInFlight (s : State) (p : Port) : Bool :=
  s.opt.ports[p].gate.isSome ||
    s.acq[p].records.any (fun r => decide (s.now < r.first + 2 * r.len)) ||
    s.dts[p].recs.any (fun r => decide (s.now < r.closesAt))

end Sys2Proof.Machine
end

