-- ==== Sys2Proof/Machine/Optics.lean ====
section
/-! DEFINITION. Emission control of a port (R62 to R66): permits, gate, shutter, and the shot that emission stops in. -/

namespace Sys2Proof.Machine

/-- The port launches vibration or temperature shots: it is in use and its programme is not off (R84, R376). -/
def State.portLaunches (s : State) (p : Port) : Bool :=
  s.inUse p && (s.shotRec p).isSome && (s.pleats p != 0 || s.tsEvery p != 0)

/-- The port has DAS: it launches vibration shots (R34). -/
def State.hasDas (s : State) (p : Port) : Bool := s.portLaunches p && s.pleats p != 0

/-- The self-supplied programme of R38: one pleat of 10 ns rectangles, which feed the Raman receivers. -/
def State.selfSupplied (s : State) (p : Port) : Bool := s.pleats p == 1 && s.chirpLength p == 0 && s.rectWidth p == 8

/-- The port has Raman shots, and so DTS (R208). -/
def State.hasRaman (s : State) (p : Port) : Bool := s.portLaunches p && (s.tsEvery p != 0 || s.selfSupplied p)

/-- The port is emitting its programme (Table 14.5, source 4). -/
def State.emits (s : State) (p : Port) : Bool := s.mayEmit p && s.sht[p].launched && !s.sht[p].dark

/-- Change a port's sequencer. -/
def State.setSht (s : State) (p : Port) (f : Sht → Sht) : State := { s with sht := upd s.sht p f }

/-- Change a port's optics. -/
def State.setOptPort (s : State) (p : Port) (f : OptPort → OptPort) : State :=
  { s with opt := { s.opt with ports := upd s.opt.ports p f } }

/-- The first group launched next carries REBASED (R65, R95). -/
def State.requestRebase (s : State) (p : Port) : State := s.setSht p fun x => { x with rebase := true }

/-- The SOA gate turns off, and the port is dark (R91, R95). A shot in flight is discarded whole and counted: its record, its wait
for a timestamp and the rest of its group with it (R65, R88); core drops already counted for it enter the ledger with its scheduled
time (R93, R282). Log entry 32, DEDUCED. -/
def State.closeGate (s : State) (p : Port) : State :=
  match s.opt.ports[p].gate with
  | none => s.setSht p fun x => { x with rebase := true, group := x.group.map fun g => { g with stopped := true } }
  | some g =>
    let cut := s.sht[p].awaiting.filter fun a => a.openedAt == g.openedAt
    let s := s.setOptPort p fun x =>
      { x with gate := none, abortedShots := x.abortedShots + 1, openFor := 2 * (s.now - g.openedAt) }
    let s := s.setSht p fun x =>
      { x with
        rebase := true
        group := x.group.map fun y => { y with stopped := true }
        awaiting := x.awaiting.filter fun a => a.openedAt != g.openedAt }
    let s := cut.foldl (fun s a => a.drops.foldl (fun s c => s.logDrop p { a.tag with launchTime := a.nominal p, source := 1 } c) s) s
    s.discardShot p g

/-- Held calls of a port that falls dark are discarded and counted (R91). -/
def State.dropHeld (s : State) (p : Port) : State :=
  s.setSht p fun x =>
    { x with calls := x.calls.filter fun c => !c.queued,
             trigDark := x.trigDark + BitVec.ofNat 64 (x.calls.filter fun c => c.queued).length }

/-- P0's schedule is followed by a linked P1 (R86, R97). -/
def State.leads (s : State) (p : Port) : Bool := p == 0 && s.link 1 == 1 && s.portLaunches 1

/-- Gate off and shutter closed (R62, R66). The calls of a P0 that a linked P1 follows stand: the conditions are P0's own (R97). -/
def State.closePort (s : State) (p : Port) : State :=
  let s := s.closeGate p
  (if s.leads p then s else s.dropHeld p).setOptPort p fun x => { x with shutter := false }

/-- The shutter opens, unless the hardwired path or a fence of the port's launch side or the laser holds it closed (R64, R66,
Table 13.4). -/
def State.openShutter (s : State) (p : Port) : State :=
  if s.hardPermit p && !s.isShut (if p = 0 then 0 else 1) && s.live then
    s.setOptPort p fun x => { x with shutter := true, openedAt := s.now }
  else s

end Sys2Proof.Machine
end

