-- ==== Sys2Proof/Machine/Real.lean ====
section
/-! DEFINITION. The real functions that the rules name (square root, arc tangent, sine, logarithm, exponential), to a fraction of 2⁻⁹⁰
of a unit, and the roundings that the rules leave open. Log entry 111, DEDUCED; log entry 112, DESIGN CHOICE. -/

namespace Sys2Proof.Machine

/-! ## Roundings -/

/-- A value whose rounding the spec does not state: itself where it is whole, else one of the two whole numbers beside it. `site` tells
the places apart. Log entry 112, DESIGN CHOICE. -/
def pickRound (site : Nat) (v : Rat) : Int := if v.den = 1 then v.num else if Config.roundsUp site v then v.floor + 1 else v.floor

/-- A rational rounded to the nearest integer, halves to even: convergent rounding. -/
def ratRound (v : Rat) : Int := roundDiv v.num v.den

/-- A quotient rounded to the nearest integer, ties toward zero (R155). -/
def roundTz (a : Int) (b : Nat) : Int :=
  if b = 0 then 0 else if a ≥ 0 then (2 * a + b - 1) / (2 * b : Nat) else -((-2 * a + b - 1) / (2 * b : Nat))

/-- A rational rounded to nearest, ties toward zero. -/
def ratTz (q : Rat) : Int := roundTz q.num q.den

/-! ## Fixed point -/

/-- One, in the fixed point of this file. -/
def unitF : Int := 2 ^ 96

/-- A rational in fixed point, rounded down, and back. -/
def toF (q : Rat) : Int := q.num * unitF / q.den
def ofF (x : Int) : Rat := (x : Rat) / unitF

/-- Product and quotient in fixed point. -/
def mulF (a b : Int) : Int := a * b / unitF
def divF (a b : Int) : Int := a * unitF / b

/-- Integer square root, rounded down. -/
def isqrt (n : Nat) : Nat :=
  (List.range 200).foldl (fun x k => let y := x + 2 ^ (199 - k); if y * y ≤ n then y else x) 0

/-- Square root in fixed point. -/
def sqrtF (x : Int) : Int := isqrt (x * unitF).toNat

/-- Square root of a rational that is not negative. -/
def ratSqrt (q : Rat) : Rat := ofF (sqrtF (toF q))

/-- π to fifty decimals, in fixed point. -/
def piF : Int := 314159265358979323846264338327950288419716939937511 * unitF / 10 ^ 50

/-- The sum of `n` terms of a series in the odd powers of `x` over the odd numbers, with alternating or constant sign. -/
def oddSeries (alternate : Bool) (x : Int) (n : Nat) : Int :=
  let sq := mulF x x
  ((List.range n).foldl (fun (t : Int × Int) i =>
    let term := t.1 / (2 * i + 1 : Nat)
    (mulF t.1 sq, if alternate && decide (i % 2 = 1) then t.2 - term else t.2 + term)) (x, 0)).2

/-- Arc tangent of half the angle, of a tangent between −1 and 1. -/
def halfTangent (x : Int) : Int := divF x (unitF + sqrtF (unitF + mulF x x))

/-- Arc tangent of a number between −1 and 1. -/
def atanF (x : Int) : Int := 8 * oddSeries true (halfTangent (halfTangent (halfTangent x))) 20

/-- arg of a complex number, from −π to π; zero of zero. -/
def argF (re im : Int) : Int :=
  if re = 0 ∧ im = 0 then 0
  else if im.natAbs ≤ re.natAbs then
    let a := atanF (divF im re)
    if 0 < re then a else if 0 ≤ im then a + piF else a - piF
  else
    let a := atanF (divF re im)
    if 0 < im then piF / 2 - a else -(piF / 2) - a

/-- Arc sine of a number between −1 and 1. -/
def asinF (x : Int) : Int := argF (sqrtF (unitF - mulF x x)) x

/-- Cosine and sine of an angle between −2π and 2π. -/
def cosSinF (x : Int) : Int × Int :=
  ((List.range 72).foldl (fun (t : Int × Int × Int) i =>
    let c := if i % 2 = 0 then (if i % 4 = 0 then t.2.1 + t.1 else t.2.1 - t.1) else t.2.1
    let s := if i % 2 = 1 then (if i % 4 = 1 then t.2.2 + t.1 else t.2.2 - t.1) else t.2.2
    (mulF t.1 x / (i + 1 : Nat), c, s)) (unitF, 0, 0)).2

/-- Natural logarithm of a number between 1 and 2. -/
def lnMantissa (m : Int) : Int := 2 * oddSeries false (divF (m - unitF) (m + unitF)) 34

/-- Natural logarithm of 2. -/
def ln2F : Int := 2 * oddSeries false (unitF / 3) 34

/-- Natural logarithm of a positive rational. -/
def lnF (q : Rat) : Int :=
  let k : Int := (Nat.log2 q.num.toNat : Int) - Nat.log2 q.den
  let m := if 0 ≤ k then toF (q / (2 ^ k.toNat : Nat)) else toF (q * (2 ^ (-k).toNat : Nat))
  let r := if m < unitF then (lnMantissa (2 * m), k - 1) else (lnMantissa m, k)
  r.1 + r.2 * ln2F

/-- Exponential of a number in fixed point, as a rational. -/
def expRat (x : Int) : Rat :=
  let k := x / ln2F
  let r := x % ln2F
  let e := ((List.range 40).foldl (fun (t : Int × Int) i => (mulF t.1 r / (i + 1 : Nat), t.2 + t.1)) (unitF, 0)).2
  if 0 ≤ k then ofF e * (2 ^ k.toNat : Nat) else ofF e / (2 ^ (-k).toNat : Nat)

/-! ## Floating point (R12) -/

/-- A positive rational as significand and exponent of two: the significand has `bits` bits, or fewer below the least normal exponent
`low`, and is rounded by `round`. -/
def floatParts (bits : Nat) (low : Int) (round : Rat → Int) (q : Rat) : Int × Int :=
  let k : Int := (Nat.log2 q.num.toNat : Int) - Nat.log2 q.den
  let scale := fun (e : Int) => if 0 ≤ e then q / (2 ^ e.toNat : Nat) else q * (2 ^ (-e).toNat : Nat)
  let k := if scale k < 1 then k - 1 else k
  let e := max low (k - (bits - 1 : Nat))
  let m := round (scale e)
  if m = 2 ^ bits then (2 ^ (bits - 1), e + 1) else (m, e)

/-- IEEE 754 binary32 of a rational, the bits beyond its 24-bit significand rounded by `round`; infinity beyond its range. -/
def float32With (round : Rat → Int) (q : Rat) : U32 :=
  if q = 0 then 0
  else
    let p := floatParts 24 (-149) round (if 0 ≤ q then q else -q)
    let sign := if 0 ≤ q then 0 else 2 ^ 31
    let body := if 104 < p.2 then 255 * 2 ^ 23 else if p.1 < 2 ^ 23 then p.1.toNat else ((p.2 + 149) * 2 ^ 23).toNat + p.1.toNat
    BitVec.ofNat 32 (sign + body)

/-- binary32 of a rational where the spec states no rounding (log entry 112): exact where it can be. -/
def toFloat32 (site : Nat) (q : Rat) : U32 := float32With (pickRound site) q

/-- The rational that a finite binary32 stands for. -/
def ofFloat32 (w : U32) : Rat :=
  let e : Nat := w.toNat / 2 ^ 23 % 256
  let f : Nat := w.toNat % 2 ^ 23
  let m : Nat := if e = 0 then f else f + 2 ^ 23
  let x : Rat := if e ≤ 150 then (m : Rat) / ((2 ^ (150 - max 1 e) : Nat) : Rat) else (m : Rat) * ((2 ^ (e - 150) : Nat) : Rat)
  if w.toNat < 2 ^ 31 then x else -x

/-- A rational rounded to IEEE 754 binary64, nearest with ties to even. -/
def round64 (q : Rat) : Rat :=
  if q = 0 then 0
  else
    let p := floatParts 53 (-1074) ratRound (if 0 ≤ q then q else -q)
    let x : Rat := if 0 ≤ p.2 then (p.1 : Rat) * (2 ^ p.2.toNat : Nat) else (p.1 : Rat) / (2 ^ (-p.2).toNat : Nat)
    if 0 ≤ q then x else -x

/-- The rational that a finite binary64 stands for. -/
def ofFloat64 (w : U64) : Rat :=
  let e : Nat := w.toNat / 2 ^ 52 % 2048
  let f : Nat := w.toNat % 2 ^ 52
  let m : Nat := if e = 0 then f else f + 2 ^ 52
  let x : Rat := if e ≤ 1075 then (m : Rat) / ((2 ^ (1075 - max 1 e) : Nat) : Rat) else (m : Rat) * ((2 ^ (e - 1075) : Nat) : Rat)
  if w.toNat < 2 ^ 63 then x else -x

end Sys2Proof.Machine
end

