-- ==== Sys2Proof/Machine/Acquire.lean ====
section
/-! DEFINITION. Coherent acquisition (R136 to R147), the correction stage and self-calibration (R148 to R158) and the spare
slice (R159 to R161). -/

namespace Sys2Proof.Machine

/-! ## The queue -/

/-- Sample instants of a port's ring (R141). -/
def queueSize : Nat := 786432

/-- Number of instants in a union of runs that start in rising order; `upTo` ends the runs before. Runs are in CK_LNC periods,
two to an instant. -/
def unionInstants : Nat → List (Nat × Nat) → Nat
  | _, [] => 0
  | upTo, (a, b) :: t => (b - max a upTo) / 2 + unionInstants (max upTo b) t

/-- Instants occupied or reserved (R142, ACQn_QUEUE_LEVEL). -/
def Acq.level (x : Acq) : Nat := unionInstants 0 (x.records.map fun r => (r.first, r.first + 2 * r.len))

/-- The first CK_SMP edge at or after `t`, in CK_LNC periods: CK_SMP shares an edge with CK_LNC at the last divider restart
(R111). -/
def State.nextSample (s : State) (t : Nat) : Nat := t + (t + s.tim.origin) % 2

/-- Periods from a gate opening to the return from the launch reference plane (R140). -/
def returnDelay (p : Port) : Nat := (Config.launchDelay p + Config.receiveDelay p + 639) / 640

/-- The acquisition domain of a port runs. -/
def State.acqOn (s : State) (p : Port) : Bool := s.live && !s.isShut (acqDomain p)

/-- Slot that takes a CK_SMP edge: edges are counted from the last divider restart (R137). -/
def State.slotAt (s : State) (t : Nat) : Nat := (t - s.tim.origin) / 2 % 4

/-- A record of a pleat has been refused or discarded at its launch: the pleat's next has no predecessor (R152). -/
def State.missRecord (s : State) (p : Port) (pleat : Nat) : State :=
  s.setAcq p fun x => { x with gap := setPleat x.gap pleat true }

/-- A vibration launch reserves its record, admitted whole or refused whole (R140, R142, R282); until the LAUNCH_TIME is known, its
sample 0 is the one that the nominal delays give. While FD05 or FD06 is fenced, the record is discarded (R145). -/
def State.admitRecord (s : State) (p : Port) (tag : ShotTag) : State :=
  if !s.acqOn p then (s.dropShot p tag 3).missRecord p tag.pleat
  else
    let x := s.acq[p]
    let first := s.nextSample (s.now + returnDelay p)
    let r : AcqRec :=
      { tag := tag, openedAt := s.now, first := first, len := s.nSamples p, slot0 := s.slotAt first, calSet := x.cal.adopted
        serving := x.serving, afterGap := (x.gap.toList[tag.pleat]?).getD false }
    let y := { x with records := x.records ++ [r] }
    if y.level ≤ queueSize then
      s.setAcq p fun _ => { y with admitted := y.admitted + 1, peak := max y.peak y.level, gap := setPleat y.gap tag.pleat false }
    else (s.dropShot p tag 0).missRecord p tag.pleat

/-- The ideal instant of sample 0 (R140) from a LAUNCH_TIME, and device time now, both in 2⁻³² LSB on one scale. -/
def State.idealInstant (s : State) (p : Port) (launch : U64) : Int :=
  (s.tim.full : Int) + (toSigned 64 (launch - s.tim.time).toNat + (Config.receiveDelay p : Int)) * 2 ^ 32 - s.tim.frac.toNat

/-- Sample 0 by a LAUNCH_TIME (R140): the first CK_SMP edge at or after the ideal instant, and SAMPLE0_OFFSET. -/
def State.sampleZero (s : State) (p : Port) (launch : U64) : Nat × Nat :=
  let ideal := s.idealInstant p launch
  let incr : Int := s.tim.incr
  let ahead := -((s.tim.full - ideal) / incr)
  let first := s.nextSample ((s.now : Int) + ahead).toNat
  (first, min 1279 (((s.tim.full : Int) + ((first : Int) - s.now) * incr - ideal) / 2 ^ 32).toNat)

/-- The completed tag of a shot reaches its records, and with it their sample 0 (R94, R140, Table 5.3). Log entry 114, DEDUCED. -/
def State.tagRecords (s : State) (p : Port) (tag : ShotTag) : State :=
  let same := fun (t : ShotTag) => t.group == tag.group && t.pleat == tag.pleat && t.temperature == tag.temperature
  let z := s.sampleZero p tag.launchTime
  let s := s.setAcq p fun x =>
    { x with records := x.records.map fun r =>
        if same r.tag then { r with tag := tag, first := z.1, offset := z.2, slot0 := s.slotAt z.1 } else r }
  s.setDts p fun x => { x with recs := x.recs.map fun r => if same r.tag then { r with tag := tag } else r }

/-! ## Queue words -/

/-- The lane word of lane `l` (XI 0, XQ 1, YI 2, YQ 3) (Table 5.2). -/
def laneWord (w : U64) (l : Nat) : Nat := w.toNat / 2 ^ (16 * l) % 2 ^ 16
/-- The converter code of a lane. -/
def laneCode (w : U64) (l : Nat) : Int := toSigned 12 (laneWord w l % 2 ^ 12)
/-- The clip bit of a lane. -/
def laneClip (w : U64) (l : Nat) : Bool := bitOf (laneWord w l) 15
/-- Some lane of the instant is clipped. -/
def wordClip (w : U64) : Bool := laneClip w 0 || laneClip w 1 || laneClip w 2 || laneClip w 3
/-- CODE 0 and CLIP 1 on all four lanes (R146, R280). -/
def clippedWord : U64 := 0x8000800080008000

/-- A lane word as the converter gives it: with the clip bit the code stands at full scale by the sign of the input (R138). -/
def converterLane (w : Nat) : Nat :=
  if bitOf w 15 then (if bitOf w 11 then 0x8800 else 0x87FF) else w % 2 ^ 12

/-- The queue word of an instant's four lanes (Table 5.2). -/
def converterWord (w : U64) : U64 :=
  BitVec.ofNat 64 ((List.range 4).map fun l => converterLane (laneWord w l) * 2 ^ (16 * l)).sum

/-- Places of the entry seam (R280). -/
def seamPlaces : Nat := 256

/-- Instants that have left the seam between the arrival before and that of instant `i`: all of them unless the write lags. -/
def seamTaken (lags : List SeamLag) (i waiting : Nat) : Nat :=
  match lags.find? fun g => decide (g.from_ ≤ i) && decide (i < g.from_ + g.count) with
  | some g => min g.taken waiting
  | none => waiting

/-- Instants arrive at the seam one by one, each kept if a place is free, else lost (R280): the places taken at the end, and which
were lost. -/
def seamRun (lags : List SeamLag) : List Nat → Nat → Nat × List Bool
  | [], n => (n, [])
  | i :: t, n =>
    let n := n - seamTaken lags i n
    let lost := decide (n ≥ seamPlaces)
    let r := seamRun lags t (if lost then n else n + 1)
    (r.1, lost :: r.2)

/-- Words of a record in the queue, in order. -/
def Acq.wordsOf (x : Acq) (r : AcqRec) : List U64 :=
  (x.ring.filter fun w => decide (r.first ≤ w.instant) && decide (w.instant < r.first + 2 * r.len)).map (·.data)

/-- Ring index of a record's sample 0. -/
def Acq.startOf (x : Acq) (r : AcqRec) : Nat := ((x.ring.find? fun w => w.instant == r.first).map (·.idx)).getD x.ringNext

/-- Instants of a record become CODE 0 and CLIP 1 in the queue (R146, R280). -/
def Acq.clipWords (x : Acq) (r : AcqRec) (instants : List Nat) : Acq :=
  { x with ring := x.ring.map fun w =>
      if instants.any fun i => decide (i < r.len) && r.first + 2 * i == w.instant then
        { w with data := clippedWord, check := Config.checkBits clippedWord } else w }

/-- Clipped instants among some words. -/
def countClipped (ws : List U64) : Nat := (ws.filter wordClip).length

/-- The instants of a record that no record before it has written are written (R141), lost ones as clipped words (R280); clipped
instants are counted (R147). -/
def Acq.write (x : Acq) (r : AcqRec) (words : List U64) (lost : List Bool) : Acq :=
  let from_ := max r.first x.writtenTo
  let new := (List.range ((r.first + 2 * r.len - from_) / 2)).map fun i =>
    let data := if lost.getD i false then clippedWord else converterWord (words.getD i 0)
    ({ instant := from_ + 2 * i, idx := (x.ringNext + i) % queueSize, data := data, check := Config.checkBits data } : QWord)
  { x with
    ring := x.ring ++ new, ringNext := (x.ringNext + new.length) % queueSize
    writtenTo := max x.writtenTo (r.first + 2 * r.len)
    clipCount := x.clipCount + BitVec.ofNat 64 (countClipped (new.map (·.data))) }

/-- The notice of a written record (Table 5.3). -/
def Acq.noticeOf (x : Acq) (r : AcqRec) : Notice :=
  { tag := r.tag, start := x.startOf r, length := r.len, offset := r.offset, calSet := r.calSet
    clipInstants := countClipped (x.wordsOf r) }

/-- A notice has been issued for the record. -/
def AcqRec.noticed (r : AcqRec) : Bool := r.notice.isSome

/-- The notice of a record is issued, and a clipped record counted (R144, R147). -/
def Acq.issue (x : Acq) (r : AcqRec) : Acq :=
  let n := x.noticeOf r
  { x with
    records := x.records.map fun q => if q.openedAt = r.openedAt then { q with notice := some n } else q
    clipRecords := if n.clipInstants = 0 then x.clipRecords else x.clipRecords + 1 }

/-- The shot with a tag still waits for its LAUNCH_TIME. -/
def State.untimed (s : State) (p : Port) (tag : ShotTag) : Bool := s.sht[p].awaiting.any fun a => a.isShot tag

/-- RECORD_NOTICE (R141, R144, R147, R280): the last instant of the oldest record without a notice has been written, and its notice
goes to the phase engine. `words` are the converted instants that no record before it contains. -/
def execRecordNotice (dt : Nat) (p : Port) (words : List U64) (lags : List SeamLag) (s : State) :
    Host.Outcome State Fault Refusal :=
  let s := s.elapse dt
  match s.acq[p].records.find? fun r => !r.noticed with
  | none => .next s
  | some r =>
    if s.acqOn p && decide (r.first + 2 * r.len ≤ s.now) && !s.untimed p r.tag then
      let old := (s.acq[p].writtenTo - r.first) / 2
      let seam := seamRun lags ((List.range (r.len - old)).map (· + old)) s.acq[p].seam
      let s := s.setDrop p fun d => { d with entryLost := d.entryLost + BitVec.ofNat 64 (seam.2.filter id).length }
      .next (s.setAcq p fun x => ({ x.write r words seam.2 with seam := seam.1 } : Acq).issue r)
    else .next s

/-- A record has been read, with uncorrectable words at some instants (R146): they are delivered clipped and counted as such, as is a
record that had no clipped instant before (R147). -/
def Acq.readBad (x : Acq) (r : AcqRec) (bad : List Nat) : Acq :=
  let before := countClipped (x.wordsOf r)
  let y := x.clipWords r bad
  let after := countClipped (y.wordsOf r)
  let known := (r.notice.map (·.clipInstants)).getD 0
  { y with
    clipCount := y.clipCount + BitVec.ofNat 64 (after - before)
    clipRecords := if known = 0 ∧ after ≠ 0 then y.clipRecords + 1 else y.clipRecords }

/-! ## The correction stage -/

/-- The correction set a record was launched under: the current set or its predecessor (R149). -/
def Cal.setOf (c : Cal) (num : Nat) : List Int :=
  if num = c.num then c.vals else match c.prev with
    | some (k, v) => if k = num then v else c.vals
    | none => c.vals

/-- Slice that took sample `k` of lane `l` of a record. -/
def AcqRec.sliceOf (r : AcqRec) (l k : Nat) : Nat := ((r.serving.toList[l]?).bind fun v => v.toList[(r.slot0 + k) % 4]?).getD 0

/-- A sample of a lane; zero outside the record. Log entry 38, DESIGN CHOICE. -/
def sampleAt (v : List Rat) (i : Int) : Rat := if i < 0 then 0 else v.getD i.toNat 0

/-- Step 1 of R148: the offset taken off and the gain applied, in ADC LSB. -/
def sliceScaled (c : List Int) (r : AcqRec) (words : List U64) (l : Nat) : List Rat :=
  words.zipIdx.map fun w =>
    let i := 5 * l + r.sliceOf l w.2
    ((laneCode w.1 l : Rat) - (c.getD i 0 : Rat) / 16) * (1 + (c.getD (20 + i) 0 : Rat) / 16384)

/-- Step 2: each slot is shifted by its slice delay (9 taps). -/
def sliceShifted (c : List Int) (r : AcqRec) (l : Nat) (v : List Rat) : List Rat :=
  (List.range v.length).map fun (k : Nat) =>
    let d := c.getD (40 + 5 * l + r.sliceOf l k) 0
    ((List.range 9).map fun (t : Nat) => Config.sliceTap d t * sampleAt v ((k : Int) + 4 - t)).sum

/-- The lane delay of step 3, 0.25 ps. -/
def laneDelay (c : List Int) (l : Nat) : Int :=
  (if l % 2 = 1 then c.getD (60 + l / 2) 0 else 0) + (if l / 2 = 1 then c.getD 62 0 else 0)

/-- Step 3: the lane is shifted by whole samples of 5 ns and by 17 taps. -/
def laneShifted (d : Int) (v : List Rat) : List Rat :=
  let whole := roundDiv d 20000
  (List.range v.length).map fun (k : Nat) =>
    ((List.range 17).map fun (t : Nat) => Config.laneTap (d - 20000 * whole) t * sampleAt v ((k : Int) - whole + 8 - t)).sum

/-- Step 4 on a pair of I and Q, with IQ_GAIN and IQ_PHASE in steps of 2⁻¹⁴. -/
def quadrature (gain phase : Int) (i q : Rat) : Rat :=
  let t := cosSinF (phase * unitF / 16384)
  (q * (1 + (gain : Rat) / 16384) - i * ofF t.2) / ofF t.1

/-- A corrected lane sample leaves in 1/8 ADC LSB, saturated to 16 bits. Its rounding is not stated (log entry 112). -/
def laneOut (v : Rat) : Int := clampInt 16 (pickRound 1 (8 * v))

/-- The corrected record (R148): lanes XI, XQ, YI, YQ. Log entry 38, DESIGN CHOICE; log entry 115, DEDUCED. -/
def corrected (c : List Int) (r : AcqRec) (words : List U64) : List (List Int) :=
  let lane := fun (l : Nat) => laneShifted (laneDelay c l) (sliceShifted c r l (sliceScaled c r words l))
  let pol := fun (y : Nat) (scale : Rat) =>
    let i := lane (2 * y)
    let q := (i.zip (lane (2 * y + 1))).map fun e => quadrature (c.getD (63 + y) 0) (c.getD (65 + y) 0) e.1 e.2
    [i.map fun v => laneOut (v * scale), q.map fun v => laneOut (v * scale)]
  pol 0 1 ++ pol 1 (1 + (c.getD 67 0 : Rat) / 16384)

/-! ## Blocks -/

/-- Power of a block of 64 instants, as a sum (R151). -/
def blockPower (lanes : List (List Int)) (b : Nat) : Nat :=
  (lanes.map fun l => (((l.drop (64 * b)).take 64).map fun v => (v * v).toNat).sum).sum

/-- The Disturbed rule of Table 5.5 holds between two powers: their ratio is beyond VIB_LIMIT tenths of a dB either way. -/
def disturbed (limit a b : Nat) : Bool := decide (10 ^ limit * (min a b) ^ 100 < (max a b) ^ 100)

/-- How a block fares: accepted, or the rule of Table 5.5 that rejects it. -/
inductive BlockFate where
  | accepted | clip | high | low | vib
deriving DecidableEq, Repr

/-- The fate of block `b` of a record (R151, R152). `prev` holds the powers of the previous record of the pleat. -/
def State.blockFate (s : State) (p : Port) (ws : List U64) (power : Nat) (prev : Option (List Nat)) (b : Nat) : BlockFate :=
  let c := s.acq[p].cal
  let ref := c.pRef.getD (Config.factoryPower p, 1)
  if ((ws.drop (64 * (b - 2))).take (64 * (b + 1) - 64 * (b - 2))).any wordClip then .clip
  else if power * ref.2 > s.powerCeiling * ref.1 then .high
  else if power < s.lowFactor * Config.noiseFloor p (s.rxGain p) then .low
  else if s.vibLimit = 0 then .accepted
  else match prev.bind fun l => l[b]? with
    | none => .vib
    | some q => if disturbed s.vibLimit power q then .vib else .accepted

/-! ## Accumulating -/

/-- Products of neighbours at a distance, with the slot of the first of each pair. -/
def lagProducts (lag first : Nat) (l : List Int) : List (Nat × Int) :=
  ((l.zip (l.drop lag)).zipIdx).map fun e => ((first + e.2) % 4, e.1.1 * e.1.2)

/-- Count one code value. -/
def countCode : List (Int × Nat) → Int → List (Int × Nat)
  | [], c => [(c, 1)]
  | (a, n) :: t, c => if a = c then (a, n + 1) :: t else (a, n) :: countCode t c

/-- Add the samples of one slot of an accepted block. -/
def SlotAcc.add (a : SlotAcc) (vs codes : List Int) (pairs : List Int) : SlotAcc :=
  { n := a.n + vs.length, sum := a.sum + vs.sum, sq := a.sq + (vs.map fun v => (v * v).toNat).sum,
    pair := a.pair + pairs.sum, pairs := a.pairs + pairs.length, codes := codes.foldl countCode a.codes }

/-- Every fourth element, from the one that slot `k` takes when the first is taken by slot `first`. -/
def ofSlot {α : Type} (first k : Nat) (l : List α) : List α :=
  (l.zipIdx.filter fun e => (first + e.2) % 4 == k).map (·.1)

/-- Add an accepted block to the accumulators (R153). `first` is the slot of the block's first instant. -/
def CalAcc.addBlock (a : CalAcc) (pleat b first power : Nat) (lanes codes : List (List Int)) : CalAcc :=
  let lane := fun (l : Nat) => lanes.getD l []
  let pw := fun (i : List Int) (q : List Int) => (i.zip q).map fun e => (e.1 * e.1 + e.2 * e.2).toNat
  let x := pw (lane 0) (lane 1)
  let y := pw (lane 2) (lane 3)
  let dot := fun (u v : List Nat) => ((u.zip v).map fun e => e.1 * e.2).sum
  { a with
    blocks := a.blocks + 1
    power := a.power + power
    positions := if a.positions.contains (pleat, b) then a.positions else (pleat, b) :: a.positions
    slots := Vector.ofFn fun l => Vector.ofFn fun k =>
      (a.slots[l])[k].add (ofSlot first k.val (lane l.val)) (ofSlot first k.val (codes.getD l.val []))
        (((lagProducts 1 first (lane l.val)).filter fun e => e.1 == k.val).map (·.2))
    lag2 := Vector.ofFn fun l =>
      let q := (lagProducts 2 first (lane l.val)).map (·.2)
      (a.lag2[l].1 + q.sum, a.lag2[l].2 + q.length)
    iq := Vector.ofFn fun k =>
      a.iq[k] + (((lane (2 * k.val)).zip (lane (2 * k.val + 1))).map fun e => e.1 * e.2).sum
    skew := (a.skew.1 + dot x (y.drop 1), a.skew.2.1 + dot (x.drop 1) y,
      a.skew.2.2.1 + dot x y, a.skew.2.2.2 + (x.length - 1)) }

/-- Calibration of the port works (R155, R158). -/
def State.calOn (s : State) (p : Port) : Bool := s.calMode != 0 && s.hasDas p && s.acqOn p

/-- The blocks of a record that has been read out are judged and, for a record of the current set, accumulated (R151 to R154). -/
def State.accumulate (s : State) (p : Port) (r : AcqRec) (words : List U64) (lanes : List (List Int)) : State :=
  if !s.calOn p then s
  else if s.acq[p].cal.struck then s.setCal p fun c => { c with struck := false }
  else
    let c := s.acq[p].cal
    let prev := if r.tag.rebased || r.afterGap then none else (c.lastPower.toList[r.tag.pleat]?).getD none
    let n := r.len / 64
    let powers := (List.range n).map (blockPower lanes)
    let codes := (List.range 4).map fun l => words.map fun w => laneCode w l
    let one := fun (c : Cal) (b : Nat) =>
      let power := powers.getD b 0
      match s.blockFate p words power prev b with
      | .clip => { c with rejClip := c.rejClip + 1 }
      | .high => { c with rejHigh := c.rejHigh + 1 }
      | .low => { c with rejLow := c.rejLow + 1 }
      | .vib => { c with rejVib := c.rejVib + 1 }
      | .accepted =>
        let cut := fun (l : List Int) => (l.drop (64 * b)).take 64
        { c with
          accepted := c.accepted + 1
          acc := if r.calSet = c.num then
              c.acc.addBlock r.tag.pleat b r.slot0 power (lanes.map cut) (codes.map cut)
            else c.acc }
    let c := (List.range n).foldl one c
    s.setCal p fun _ =>
      { c with lastPower := Vector.ofFn fun k => if k.val = r.tag.pleat then some powers else c.lastPower[k] }

/-! ## Estimators (Table 5.6) -/

/-- (√(a/b) − 1) in steps of 2⁻¹⁴, rounded to nearest, ties toward zero. -/
def rootSteps (a b : Nat) : Int :=
  if b = 0 then 0
  else
    let w := isqrt (2 ^ 30 * a / b)
    let exact := w * w * b == 2 ^ 30 * a
    let up := (w + 1) / 2
    let v : Nat := if w % 2 = 0 then w / 2 else if exact && decide (w > 2 ^ 15) then w / 2 else up
    (v : Int) - 2 ^ 14

/-- Mean square of a slot, of a lane's four slots, as rationals. -/
def SlotAcc.m2 (a : SlotAcc) : Rat := (a.sq : Rat) / a.n
def CalAcc.laneM2 (a : CalAcc) (l : Fin 4) : Rat := ((a.slots[l].toList.map SlotAcc.m2).sum) / 4

/-- r of R153: mean product of pairs in which slot `k` comes first, over the lane's mean square. -/
def CalAcc.r1 (a : CalAcc) (l : Fin 4) (k : Fin 4) : Rat :=
  let x := (a.slots[l])[k]
  ((x.pair : Rat) / x.pairs) / a.laneM2 l

/-- ρ₂ of a lane. -/
def CalAcc.rho2 (a : CalAcc) (l : Fin 4) : Rat := ((a.lag2[l].1 : Rat) / a.lag2[l].2) / a.laneM2 l

/-- The slice-delay quantity of slot `k`, before its lane's mean is taken off, in ps. -/
def CalAcc.delayRaw (a : CalAcc) (l k : Fin 4) : Rat := 5000 * (a.r1 l (k - 1) - a.r1 l k) / (a.rho2 l - 1)

/-- Sum of squares of a lane. -/
def CalAcc.laneSq (a : CalAcc) (l : Fin 4) : Nat := (a.slots[l].toList.map (·.sq)).sum

/-- n of the slot corrections (R155): OFFSET, GAIN and SLICE_DELAY of slot `k` of lane `l`, in steps; none where an estimate divides
by zero. -/
def CalAcc.offsetSteps (a : CalAcc) (l k : Fin 4) : Option Int :=
  if (a.slots[l])[k].n = 0 then none else some (roundTz (2 * (a.slots[l])[k].sum) (a.slots[l])[k].n)
def CalAcc.gainSteps (a : CalAcc) (l k : Fin 4) : Option Int :=
  let q := (a.slots[l])[k].m2 / a.laneM2 l
  if a.laneM2 l = 0 then none else some (rootSteps q.num.toNat q.den)
def CalAcc.delaySteps (a : CalAcc) (l k : Fin 4) : Option Int :=
  if a.laneM2 l = 0 ∨ a.rho2 l = 1 then none
  else some (ratTz (4 * (a.delayRaw l k - ((List.finRange 4).map (a.delayRaw l)).sum / 4)))

/-- ρ₂ over the port's four lanes: the mean of the lanes' own. Log entry 116, DEDUCED. -/
def CalAcc.portRho (a : CalAcc) : Rat := ((List.finRange 4).map a.rho2).sum / 4

/-- X-to-Y skew in ps: the neighbour products are means over pairs, the equal-time product over instants. -/
def CalAcc.skewPs (a : CalAcc) : Rat :=
  let pairs : Rat := a.skew.2.2.2
  let equal : Rat := (a.skew.2.2.1 : Rat) / (64 * a.blocks : Nat)
  5000 * ((a.skew.1 : Rat) / pairs - (a.skew.2.1 : Rat) / pairs) / (2 * (a.portRho - 1) * equal)

/-- Quadrature of X or Y in steps of 2⁻¹⁴ rad: asin of the correlation of I and Q. -/
def CalAcc.quadSteps (a : CalAcc) (k : Fin 2) : Option Int :=
  let m := a.laneSq (if k = 0 then 0 else 2) * a.laneSq (if k = 0 then 1 else 3)
  let x := divF (a.iq[k] * unitF) (sqrtF (m * unitF))
  if m = 0 then none else some (ratTz (16384 * ofF (asinF (max (-unitF) (min unitF x)))))

/-- √(a/b) − 1 in steps, where b is not zero. -/
def ratioSteps (a b : Nat) : Option Int := if b = 0 then none else some (rootSteps a b)

/-- n of the lane and polarisation corrections, in the order POL_DELAY, IQ_GAIN X and Y, IQ_PHASE X and Y, POL_GAIN. -/
def CalAcc.portSteps (a : CalAcc) : List (Option Int) :=
  let known := a.skew.2.2.1 ≠ 0 ∧ a.portRho ≠ 1
  [if known then some (ratTz (4 * a.skewPs)) else none, ratioSteps (a.laneSq 1) (a.laneSq 0), ratioSteps (a.laneSq 3) (a.laneSq 2),
    a.quadSteps 0, a.quadSteps 1, ratioSteps (a.laneSq 0 + a.laneSq 1) (a.laneSq 2 + a.laneSq 3)]

/-- Range of each correction in steps (Table 5.4). -/
def calRange (i : Nat) : Nat :=
  if i < 40 then 1024 else if i < 60 then 64 else if i < 63 then 800 else if i < 65 then 4096
  else if i < 67 then 2859 else 6553

/-- The slot a slice serves, if it does. -/
def Acq.slotOf (x : Acq) (l : Fin 4) (slice : Nat) : Option (Fin 4) :=
  (List.finRange 4).find? fun k => (x.serving[l])[k] == slice

/-- n of every correction of an update: of the slices that serve; of a shadowing spare by comparison with the slice it shadows (R159),
whose codes no record carries; zero for what is not estimated. An estimate that divides by zero is not stated. Log entry 117, DESIGN CHOICE. -/
def State.calSteps (s : State) (p : Port) : List Int :=
  let x := s.acq[p]
  let a := x.cal.acc
  let open_ := fun (i : Nat) => Config.openSteps p i s.free
  (List.range 68).map fun i =>
    if i < 60 then
      let kind := i / 20
      match (List.finRange 4).find? fun l => l.val == i % 20 / 5 with
      | none => 0
      | some l =>
        match x.slotOf l (i % 5) with
        | some k => (if kind = 0 then a.offsetSteps l k else if kind = 1 then a.gainSteps l k else a.delaySteps l k).getD (open_ i)
        | none => if i % 5 = 4 ∧ x.spare[l] = 1 then open_ i else 0
    else if i < 62 then 0
    else ((a.portSteps[i - 62]?).getD none).getD (open_ i)

/-- A correction after its move: the move held to ±M, the result to its range (R155). -/
def moveCorrection (m : Nat) (i : Nat) (v n : Int) : Int :=
  let mv := max (-(m : Int)) (min (m : Int) n)
  max (-(calRange i : Int)) (min (calRange i : Int) (v - mv))

/-! ## Retirement and substitution -/

/-- Fault code of a port's acquisition, by row of Table 5.9. -/
def acqFault (p : Port) (row : Nat) : U32 := BitVec.ofNat 32 (0x00088000 + 0x10000 * p.val + row)

/-- The spare of a lane can take over (R160): SPARE is 1, it is unused and not already called for, and its shadow corrections lie
within range. -/
def State.spareReady (s : State) (p : Port) (l : Fin 4) : Bool :=
  let x := s.acq[p]
  s.calSpare == 1 && decide (x.spare[l] ≤ 1) && !x.pendingSubst.any (fun e => e.1 == l) &&
    [0, 20, 40].all fun k => let i := k + 5 * l.val + 4; decide ((x.cal.vals.getD i 0).natAbs ≤ calRange i)

/-- A slice is retired (R160, R161): marked and recorded; the spare's own failure marks it failed. `criterion` is the row of
Table 5.8. -/
def State.markRetired (s : State) (p : Port) (l : Fin 4) (slice : Fin 5) (criterion : Nat) : State :=
  let s := s.setAcq p fun x =>
    { x with
      retired := x.retired ||| (1#20 <<< (5 * l.val + slice.val))
      spare := if slice = 4 then x.spare.set l 3 else x.spare }
  s.record (s.bbxRec 0x0061 (acqDomain p).val (acqFault p 1) (BitVec.ofNat 32 p.val)
    (le 4 p.val ++ le 4 l.val ++ le 4 slice.val ++ le 4 criterion))

/-- The spare takes the slot of a retired slice (R160). -/
def State.substitute (s : State) (p : Port) (l : Fin 4) (slice : Fin 5) : State :=
  s.setAcq p fun x => match x.slotOf l slice.val with
    | some k => { x with serving := x.serving.set l (x.serving[l].set k 4), spare := x.spare.set l 2 }
    | none => x

/-- An acquire phase starts, unless ACQUIRE_UPDATES is zero (R155, R156, R164). -/
def State.startAcquire (s : State) (p : Port) : State :=
  s.setCal p fun c =>
    { c with phaseUpdates := 0, acc := {}, converged := c.converged && s.acquireUpdates == 0
             calm := if s.acquireUpdates = 0 then c.calm else 0 }

/-- A slice meets a criterion while the port runs: substitution is set for the next group start, or the domain is reported (R160,
R161). The failure of a spare that serves no slot fences nothing. -/
def State.retireSlice (s : State) (p : Port) (l : Fin 4) (slice : Fin 5) (criterion : Nat) : State :=
  let s := if s.acq[p].retired.getLsbD (5 * l.val + slice.val) then s else s.markRetired p l slice criterion
  if slice = 4 ∧ (s.acq[p].slotOf l 4).isNone then s
  else if slice ≠ 4 ∧ s.spareReady p l = true then
    s.setAcq p fun x => { x with pendingSubst := x.pendingSubst ++ [(l, slice)], pendingAt := s.now }
  else s.report (acqDomain p) (acqFault p 2) (BitVec.ofNat 32 (5 * l.val + slice.val))

/-- The slice self-test of a start or of a recovery (R160, R402): failing slices are substituted at once; false when one
cannot be. Log entry 42, DEDUCED. -/
def State.selfTestSlices (s : State) (p : Port) (failing : List (Fin 4 × Fin 5)) : State × Bool :=
  ((failing.filter fun f => f.2 == 4) ++ failing.filter fun f => f.2 != 4).foldl (fun r f =>
    let s := r.1
    match s.acq[p].slotOf f.1 f.2.val with
    | some _ =>
      let t := s.markRetired p f.1 f.2 1
      if f.2 ≠ 4 ∧ s.spareReady p f.1 = true then (t.substitute p f.1 f.2, r.2) else (t, false)
    | none => if f.2 = 4 ∧ s.acq[p].spare[f.1] ≠ 3 then (s.markRetired p f.1 f.2 1, r.2) else (s, r.2)) (s, true)

/-- SLICE_SUBSTITUTION (R160): at the first group start after the retirement the spare takes over; records whose listen window
is open there are discarded whole and counted; an acquire phase starts. Log entry 40, DEDUCED. -/
def execSliceSubstitution (dt : Nat) (p : Port) (s : State) : Host.Outcome State Fault Refusal :=
  let s := s.elapse dt
  let x := s.acq[p]
  match s.sht[p].lastStart with
  | none => .next s
  | some g =>
    if s.acqOn p && !x.pendingSubst.isEmpty && decide (x.pendingAt ≤ g) then
      let hit := x.records.filter fun r => decide (r.openedAt < g) && decide (g < r.openedAt + s.listenP p)
      let s := s.setAcq p fun x =>
        { x.discard (fun r => decide (r.openedAt < g) && decide (g < r.openedAt + s.listenP p)) with
          substDrops := x.substDrops + BitVec.ofNat 32 hit.length
          pendingSubst := [] }
      let s := hit.foldl (fun s r => s.dropShot p r.tag 2) s
      let s := x.pendingSubst.foldl (fun s f => s.substitute p f.1 f.2) s
      let s := s.setAcq p fun y =>
        { y with records := y.records.map fun r => if g ≤ r.openedAt then { r with serving := y.serving } else r }
      .next (s.startAcquire p)
    else .next s

/-! ## The update -/

/-- UPDATE_INTERVAL in CK_LNC periods. -/
def State.updateP (s : State) : Nat := s.calInterval * (secP / 10)

/-- A port's group start takes the newest set (R149), and its calibration's first interval begins with its first group. -/
def State.adoptSet (s : State) (p : Port) : State :=
  s.setCal p fun c => { c with adopted := c.num, due := some (c.due.getD (s.now + s.updateP)) }

/-- The slices that serve and have too few instants, or too few positions (R155). -/
def State.calShort (s : State) (p : Port) : Bool :=
  let a := s.acq[p].cal.acc
  (a.slots.toList.any fun l => l.toList.any fun k => decide (k.n < s.minInstants)) ||
    decide (a.positions.length < s.minPositions)

/-- A slot that meets the code or the power criterion of Table 5.8, with the criterion's row. -/
def CalAcc.badSlot (a : CalAcc) (l k : Fin 4) : Option Nat :=
  let x := (a.slots[l])[k]
  let others := (((List.finRange 4).filter (· != k)).map fun j => ((a.slots[l])[j]).m2).sum / 3
  if x.codes.any fun e => decide (2 * e.2 > x.n) then some 3
  else if x.m2 < others / 4 || x.m2 > 4 * others then some 4 else none

/-- The criterion of Table 5.8 that a slice meets at an update: at a range limit for 16 updates, at every update; one code or a power
out of proportion, at updates that are not short. `spareBad` names the shadowing spares that meet row 3 or 4 of the table: their
codes enter no record (R161). -/
def State.criterion (s : State) (p : Port) (atLimit : List Nat) (short : Bool) (spareBad : List (Fin 4 × Nat)) (l : Fin 4)
    (sl : Fin 5) : Option Nat :=
  let x := s.acq[p]
  let i := 5 * l.val + sl.val
  if sl = 4 ∧ x.spare[l] ≠ 1 ∧ (x.slotOf l 4).isNone then none
  else if sl ≠ 4 ∧ (x.slotOf l sl.val).isNone then none
  else if [0, 20, 40].any fun k => decide (atLimit.getD (k + i) 0 ≥ 16) then some 2
  else if short then none
  else match x.slotOf l sl.val with
    | some k => x.cal.acc.badSlot l k
    | none => (spareBad.find? fun e => e.1 == l).map (·.2)

/-- Slices that meet a criterion at an update, a lane's spare first. -/
def State.badSlices (s : State) (p : Port) (atLimit : List Nat) (short : Bool) (spareBad : List (Fin 4 × Nat)) :
    List (Fin 4 × Fin 5 × Nat) :=
  (List.finRange 4).flatMap fun l =>
    ([4, 0, 1, 2, 3] : List (Fin 5)).filterMap fun sl => (s.criterion p atLimit short spareBad l sl).map fun c => (l, sl, c)

/-- Consecutive updates at a range limit, after an update that leaves some values. -/
def limitRuns (vals : List Int) (runs : List Nat) : List Nat :=
  (vals.zip runs).zipIdx.map fun e => if e.1.1.natAbs = calRange e.2 then e.1.2 + 1 else 0

/-- A warning holds at a place. -/
def State.warnedAt (s : State) (code : U32) (place : Nat) : Bool :=
  s.hb.warnings.any fun w => w.code == code && w.holders.contains place

/-- A row of Table 5.9 that warns: recorded when it begins, and held by the port. -/
def State.calWarn (s : State) (p : Port) (code : U32) (row : Nat) : State :=
  let s := if s.warnedAt code p.val then s
    else s.record (s.bbxRec 0x0040 (acqDomain p).val (acqFault p row) (BitVec.ofNat 32 p.val) [])
  s.warn code (BitVec.ofNat 32 p.val) true p.val

/-- Table 5.9, row 5: a lane or polarisation correction at its limit for 16 consecutive updates. -/
def State.limitRow (s : State) (p : Port) : State :=
  if [62, 63, 64, 65, 66, 67].any fun i => decide (s.acq[p].cal.atLimit.getD i 0 ≥ 16) then
    (s.setCal p fun c => { c with limit := true }).calWarn p 0x00160001#32 5
  else s.warnEnded 0x00160001#32 p.val

/-- Shadowing spares move to the next slot (R159). -/
def Acq.moveShadows (x : Acq) : Acq :=
  { x with shadow := Vector.ofFn fun l => if x.spare[l] = 1 then (x.shadow[l] + 1) % 4 else x.shadow[l] }

/-- The slices found bad are retired. -/
def State.retireAll (s : State) (p : Port) (bad : List (Fin 4 × Fin 5 × Nat)) : State :=
  bad.foldl (fun s b => s.retireSlice p b.1 b.2.1 b.2.2) s

/-- An update forms the next set (R155, R156). -/
def State.formSet (s : State) (p : Port) (vals ns : List Int) (runs : List Nat) : State :=
  let track := decide (s.acquireUpdates ≤ s.acq[p].cal.phaseUpdates)
  let s := s.setCal p fun c =>
    let calm := if track && ns.all (fun n => n.natAbs ≤ 2) then c.calm + 1 else 0
    { c with
      vals := vals, num := (c.num + 1) % 65536, prev := some (c.num, c.vals), atLimit := runs
      pRef := some (c.acc.power, c.acc.blocks), lastTime := s.devTime, updates := c.updates + 1, acc := {}
      shortRun := 0, starved := false, due := some (s.now + s.updateP)
      phaseUpdates := c.phaseUpdates + 1
      calm := calm
      converged := if ns.any fun n => n.natAbs > 8 then false else c.converged || decide (calm ≥ 3) }
  ((s.setAcq p Acq.moveShadows).warnEnded 0x00160002#32 p.val).limitRow p

/-- An update that is not short: the next set is formed, unless a slice that serves meets a criterion of Table 5.8 and the update is
discarded (R155, R160). -/
def State.fullUpdate (s : State) (p : Port) (spareBad : List (Fin 4 × Nat)) : State :=
  let c := s.acq[p].cal
  let ns := s.calSteps p
  let m := if c.phaseUpdates < s.acquireUpdates then 64 else 1
  let vals := (c.vals.zip ns).zipIdx.map fun e => moveCorrection m e.2 e.1.1 e.1.2
  let runs := limitRuns vals c.atLimit
  let bad := s.badSlices p runs false spareBad
  let s := s.takeFree
  if bad.any fun b => (s.acq[p].slotOf b.1 b.2.1.val).isSome then
    (s.setCal p fun c => { c with atLimit := runs, acc := {}, due := c.due.map (· + s.updateP) }).retireAll p bad
  else (s.formSet p vals ns runs).retireAll p bad

/-- A short update (R155): counted, and nothing moves; row 2 of Table 5.8 and the limits of Table 5.9 are judged at it too, and the
sixteenth in a row starves the calibration (R162). -/
def State.shortUpdate (s : State) (p : Port) : State :=
  let runs := limitRuns s.acq[p].cal.vals s.acq[p].cal.atLimit
  let bad := s.badSlices p runs true []
  let s := s.setCal p fun c =>
    { c with short := c.short + 1, shortRun := c.shortRun + 1, due := c.due.map (· + s.updateP), atLimit := runs
             starved := c.starved || decide (c.shortRun + 1 ≥ 16) }
  let s := ((s.setAcq p Acq.moveShadows).limitRow p).retireAll p bad
  if s.acq[p].cal.shortRun ≥ 16 then s.calWarn p 0x00160002#32 6 else s

/-- CAL_UPDATE (R155, R156): the end of an UPDATE_INTERVAL forms a set, is short, or finds a substitution pending; while calibration
does not work, the interval ends without effect. Log entry 39, DEDUCED. -/
def execCalUpdate (dt : Nat) (e : UpdateEnd) (s : State) : Host.Outcome State Fault Refusal :=
  let s := s.elapse dt
  match s.acq[e.port].cal.due with
  | none => .next s
  | some t =>
    if s.now < t then .next s
    else if !s.calOn e.port then
      .next (s.setCal e.port fun c => { c with due := some (t + ((s.now - t) / s.updateP + 1) * s.updateP) })
    else if !s.acq[e.port].pendingSubst.isEmpty then .next (s.setCal e.port fun c => { c with acc := {}, due := some (t + s.updateP) })
    else if s.calShort e.port then .next (s.shortUpdate e.port)
    else .next (s.fullUpdate e.port e.spareBad)

/-! ## Read-out -/

/-- Errors of queue words read in the last second, and what they raise (R146, Table 5.9 rows 3 and 4). -/
def State.queueErrors (s : State) (p : Port) (corrected bad : Nat) : State :=
  if corrected = 0 ∧ bad = 0 then s
  else
    let recent := (s.now, corrected, bad) :: s.acq[p].eccRecent.filter fun e => s.now < e.1 + secP
    let nc := (recent.map fun e => e.2.1).sum
    let nb := (recent.map fun e => e.2.2).sum
    let s := s.setAcq p fun x =>
      { x with eccRecent := recent, eccCorrected := x.eccCorrected + BitVec.ofNat 64 corrected,
               eccUncorrected := x.eccUncorrected + BitVec.ofNat 64 bad }
    let code : U32 := BitVec.ofNat 32 (0x00080001 + 0x10000 * p.val)
    let s := if nc > 4096 then
        (if s.warned code then s else s.record (s.bbxRec 0x0040 (acqDomain p).val (acqFault p 4) (BitVec.ofNat 32 nc) [])).warn
          code (BitVec.ofNat 32 nc)
      else s
    if nb > 16 then s.report (acqDomain p) (acqFault p 3) (BitVec.ofNat 32 nb) else s

/-- Every record of the queue is discarded: its domain is fenced (R145, R282). -/
def State.discardQueue (s : State) (p : Port) : State :=
  let rs := s.acq[p].records
  let s := s.setAcq p fun x => x.discard fun _ => true
  rs.foldl (fun s r => s.dropShot p r.tag 3) s

end Sys2Proof.Machine
end

