-- ==== Sys2Proof/Machine/Als.lean ====
section
/-! DEFINITION. The hardwired permit path (R426 to R428) and automatic laser shutdown (R430 to R435). -/

namespace Sys2Proof.Machine

/-- Change one port's ALS. -/
def State.setAls (s : State) (p : Port) (f : Als → Als) : State := { s with als := upd s.als p f }

/-- FD11 or FD17 is fenced (Table 14.2, SUSPENDED). -/
def State.alsBlind (s : State) : Bool := s.isShut 11 || s.isShut 17

/-- A port enters PROBE: the shutter opens and the probe's timers start (R433, R434). -/
def State.enterProbe (s : State) (p : Port) : State :=
  let s := s.setAls p fun a =>
    { a with st := .probe, probes := a.probes + 1, periodFrom := s.now, launchedAt := s.now,
             windowFrom := none, windowEnded := false, groups := [], nearNotice := none }
  (s.openShutter p).requestRebase p

/-- A port enters SHUTDOWN: gate off and shutter closed (R432, Table 14.3). -/
def State.enterShutdown (s : State) (p : Port) (point : U32) : State :=
  let s := s.setAls p fun a =>
    { a with st := .shutdown, shutdowns := a.shutdowns + 1, shutdownTime := s.devTime, shutdownPoint := point,
             nearNotice := none }
  s.closePort p

/-- A port that may emit again: DISABLED without ALS, SUSPENDED while FD11 or FD17 is fenced, else PROBE (Table 14.2).
Log entry 95, DEDUCED. -/
def State.alsResume (s : State) (p : Port) : State :=
  if s.alsDistance p = 0 then (s.setAls p fun a => { a with st := .disabled }).openShutter p
  else if s.alsBlind then s.setAls p fun a => { a with st := .suspended }
  else s.enterProbe p

/-- The port's state when the laser is first READY (Table 14.2, IDLE). -/
def State.alsLeaveIdle (s : State) (p : Port) : State :=
  if s.als[p].st = .idle ∧ s.portLaunches p = true then
    if s.hardPermit p then s.alsResume p else s.setAls p fun a => { a with st := .held }
  else s

/-- FD11 or FD17 is fenced while ALS is enabled: SUSPENDED takes precedence over all but HELD and IDLE (Table 14.2).
Log entry 91, DEDUCED. -/
def State.alsSuspend (s : State) (p : Port) : State :=
  if s.alsDistance p ≠ 0 then
    match s.als[p].st with
    | .probe | .sensing | .shutdown => (s.setAls p fun a => { a with st := .suspended, nearNotice := none }).closePort p
    | _ => s
  else s

/-- Both FD11 and FD17 have recovered: a suspended port probes (Table 14.2). -/
def State.alsUnsuspend (s : State) (p : Port) : State :=
  if s.als[p].st = .suspended ∧ s.alsBlind = false then s.enterProbe p else s

/-- The probe window is over: a time has passed since its start, and 16 groups have been launched in it (R433). -/
def Als.windowOver (a : Als) (now time : Nat) : Bool :=
  (a.windowFrom.map fun w => decide (w + time ≤ now)).getD false && decide (16 ≤ a.groups.length)

/-- A group of the port has been launched: the probe window begins, counts it, and its no-launch timer restarts; a group launched after
the window counts in neither (R433). -/
def State.alsGroupLaunched (s : State) (p : Port) (group : U48) : State :=
  s.setAls p fun a =>
    if a.st = .probe then
      let over_ := a.windowEnded || a.windowOver s.now (s.probeTime * msP)
      { a with launchedAt := s.now, windowFrom := some (a.windowFrom.getD s.now), windowEnded := over_
               groups := if over_ then a.groups else a.groups ++ [{ group := group }] }
    else a

/-- The end of a group has been decided (R430, R432, R433): SENSING takes a near end as a U notice; a probe keeps it for its
judgement. Log entry 48, DEDUCED. -/
def State.alsGroupEnd (s : State) (p : Port) (group : U48) (near : Bool) (point : U32) : State :=
  s.setAls p fun a =>
    match a.st with
    | .sensing => if near then { a with nearNotice := some point } else a
    | .probe => { a with groups := a.groups.map fun g =>
        if g.group = group ∧ g.near = none then { g with near := some near, point := point } else g }
    | _ => a

/-- Ports an input of the hardwired path governs (R426). -/
def inputPorts (i : PermitInput) : List Port :=
  match i with
  | .ilock => [0, 1]
  | .conn0 => [0]
  | .conn1 => [1]

/-- The index of an input in `Permits`. -/
def inputIndex (i : PermitInput) : Fin 3 :=
  match i with
  | .ilock => 0
  | .conn0 => 1
  | .conn1 => 2

/-- A port's permit is withdrawn: gate and shutter close, the shot is discarded (R65), and any state but IDLE becomes HELD. -/
def State.holdPort (s : State) (p : Port) : State :=
  let s := s.closePort p
  s.setAls p fun a => if a.st = .idle then a else { a with st := .held, nearNotice := none }

/-- PERMIT_WITHDRAWN (R427, R431, R435): a high level of 5 ns or more always withdraws; a shorter pulse may (free value). A rise during
the restoration time starts it again (R428).
Log entry 14, DESIGN CHOICE. -/
def execPermitWithdrawn (dt : Nat) (i : PermitInput) (highNs : Nat) (s : State) : Host.Outcome State Fault Refusal :=
  let s := s.elapse dt
  let acts := highNs ≥ 5 || Config.shortPulse s.free
  let s := if highNs ≥ 5 then s else s.takeFree
  let s := if acts then { s with permits := { s.permits with risenAt := s.permits.risenAt.set (inputIndex i) s.now } } else s
  if acts && s.permits.asserted[inputIndex i] then
    let s := { s with permits := { s.permits with
      asserted := s.permits.asserted.set (inputIndex i) false
      opens := if s.live then upd s.permits.opens (inputIndex i) (· + 1) else s.permits.opens } }
    .next ((inputPorts i).foldl State.holdPort s)
  else .next s

/-- PERMIT_RESTORED (R428, R431, R435): the input has stayed asserted for the restoration time, at least 100 ms, and each held port whose
permit is present resumes. Log entry 94, DEDUCED. -/
def execPermitRestored (dt : Nat) (i : PermitInput) (s : State) : Host.Outcome State Fault Refusal :=
  let s := s.elapse dt
  if s.permits.asserted[inputIndex i] || !decide (s.permits.risenAt[inputIndex i] + 100 * msP ≤ s.now) then .next s
  else
    let s := { s with permits := { s.permits with asserted := s.permits.asserted.set (inputIndex i) true } }
    .next ((inputPorts i).foldl (fun s p =>
      if s.als[p].st = .held ∧ s.hardPermit p = true then s.alsResume p else s) s)

/-- ALS_SHUTDOWN (R432): the near end's U notice reaches the ALS controller, and a sensing port shuts down. -/
def execAlsShutdown (dt : Nat) (p : Port) (s : State) : Host.Outcome State Fault Refusal :=
  let s := s.elapse dt
  match s.als[p].nearNotice with
  | none => .next s
  | some point =>
    if s.als[p].st = .sensing then .next ((s.enterShutdown p point).setAls p fun a => { a with periodFrom := s.now })
    else .next (s.setAls p fun a => { a with nearNotice := none })

/-- ALS_PROBE_ENTRY (R434): PROBE_PERIOD after shutdown or the last probe's entry, a port in SHUTDOWN probes. -/
def execAlsProbeEntry (dt : Nat) (p : Port) (s : State) : Host.Outcome State Fault Refusal :=
  let s := s.elapse dt
  if s.live && s.als[p].st == .shutdown && s.probePeriod != 0 &&
      decide (s.als[p].periodFrom + s.probePeriod * secP ≤ s.now) then .next (s.enterProbe p)
  else .next s

/-- ALS_PROBE_WINDOW_END (R433): PROBE_TIME after the window's start, with 16 groups launched in it. -/
def execAlsProbeWindowEnd (dt : Nat) (p : Port) (s : State) : Host.Outcome State Fault Refusal :=
  let s := s.elapse dt
  let a := s.als[p]
  if a.st == .probe && a.windowOver s.now (s.probeTime * msP) then .next (s.setAls p fun a => { a with windowEnded := true })
  else .next s

/-- The last 16 groups of the window all ended far (R433). -/
def Als.passes (a : Als) : Bool :=
  a.groups.length ≥ 16 && (a.groups.drop (a.groups.length - 16)).all fun g => g.near == some false

/-- The point of the last near end of a probe, for PNL_Pn_SHUTDOWN_POINT. -/
def Als.lastNear (a : Als) : U32 := ((a.groups.reverse.find? fun g => g.near == some true).map (·.point)).getD a.shutdownPoint

/-- ALS_PROBE_JUDGED (R433): with every end of the window decided the probe passes to SENSING or fails to SHUTDOWN.
Log entry 95, DEDUCED. -/
def execAlsProbeJudged (dt : Nat) (p : Port) (s : State) : Host.Outcome State Fault Refusal :=
  let s := s.elapse dt
  let a := s.als[p]
  if a.st == .probe && a.windowEnded && a.groups.all (fun g => g.near.isSome) then
    if a.passes then .next (s.setAls p fun a => { a with st := .sensing })
    else .next ((s.setAls p fun a => { a with probeFails := a.probeFails + 1 }).enterShutdown p a.lastNear)
  else .next s

/-- ALS_PROBE_NO_LAUNCH (R433): no group has been launched for PROBE_TIME, and the probe fails at once. -/
def execAlsProbeNoLaunch (dt : Nat) (p : Port) (s : State) : Host.Outcome State Fault Refusal :=
  let s := s.elapse dt
  let a := s.als[p]
  if a.st == .probe && decide (a.launchedAt + s.probeTime * msP ≤ s.now) then
    .next ((s.setAls p fun a => { a with probeFails := a.probeFails + 1 }).enterShutdown p a.lastNear)
  else .next s

/-- The states the operator side sends (Table 9.4). -/
def State.operatorTells (s : State) : OpNotice := { inputs := s.permits.asserted, als := s.als.map fun (a : Als) => a.st }

/-- The operator side's states reach SHT, the hatband and EVT (R272); a fenced sink discards its flit (R271). -/
def State.operatorReaches (s : State) : State :=
  { s with permits := { s.permits with sent := some s.operatorTells, noticed := some s.operatorTells } }.fencedFlits
    (bitIf (s.isShut 4) 0 + bitIf (s.isShut 11) 0)

/-- OPERATOR_STATE_NOTICE (R272 to R274): input and ALS states that have changed since the last notice reach their sinks as one flit,
10 ns or more after the flit before. Log entry 94, DEDUCED. -/
def execOperatorStateNotice (dt : Nat) (s : State) : Host.Outcome State Fault Refusal :=
  let s := s.elapse dt
  if s.live && s.mayInject .operator && s.permits.sent != some s.operatorTells then .next (s.operatorReaches.injected .operator)
  else .next s

end Sys2Proof.Machine
end

