-- ==== Sys2Proof/Machine/Memory.lean ====
section
/-! DEFINITION. The two addressed memories, DRAM (R289, unlisted bytes read the zero of the zero fill, R295) and flash
(unlisted bytes read erased, R369), as lists of cells in one canonical form: addresses rise strictly and no cell holds the
byte an unlisted address reads as. `d` is that byte. -/

namespace Sys2Proof.Machine

/-- What an address reads as. -/
def memRead (d : Byte) : List Host.Cell → Nat → Byte
  | [], _ => d
  | c :: t, x => if c.1 = x then c.2 else memRead d t x

/-- Write a byte, keeping the canonical form. -/
def memWrite (d : Byte) : List Host.Cell → Nat → Byte → List Host.Cell
  | [], x, v => if v = d then [] else [(x, v)]
  | c :: t, x, v =>
    if x < c.1 then (if v = d then c :: t else (x, v) :: c :: t)
    else if x = c.1 then (if v = d then t else (x, v) :: t)
    else c :: memWrite d t x v

/-- Write bytes at rising addresses. -/
def memWriteAll (d : Byte) : List Host.Cell → Nat → List Byte → List Host.Cell
  | m, _, [] => m
  | m, x, v :: t => memWriteAll d (memWrite d m x v) (x + 1) t

/-- Read `n` bytes at rising addresses. -/
def memReadAll (d : Byte) (m : List Host.Cell) (x n : Nat) : List Byte := (List.range n).map fun i => memRead d m (x + i)

/-- Set every byte of `[lo, hi)` to what unlisted addresses read as: an erase, or a fill with zero. -/
def memClear (m : List Host.Cell) (lo hi : Nat) : List Host.Cell := m.filter fun c => c.1 < lo || hi ≤ c.1

/-- The canonical form. -/
def Memory.wf (d : Byte) : List Host.Cell → Bool
  | [] => true
  | [c] => c.2 != d
  | c :: e :: t => c.2 != d && decide (c.1 < e.1) && Memory.wf d (e :: t)

/-- What erased flash reads as (R369). -/
def erased : Byte := 0xFF

end Sys2Proof.Machine
end

