-- ==== Sys2Proof/Machine/BlackBox.lean ====
section
/-! DEFINITION. The black box (R418 to R423): writing records, the scan at start, the hardwired writer and the mirror. -/

namespace Sys2Proof.Machine

/-- Slots of the store (R418). -/
def bbxSlots : Nat := 8192

/-- A record as its 64 bytes (Table 13.9). -/
def BbxRec.bytes (r : BbxRec) : List Byte :=
  let body := le 4 r.seq.toNat ++ le 2 r.kind ++ le 1 r.domain ++ le 1 r.flags ++ le 8 r.time.toNat ++ le 4 r.wraps.toNat ++
    le 2 r.boot ++ le 1 r.block ++ le 1 0 ++ le 4 r.code.toNat ++ le 4 r.value.toNat ++ slice r.detail 0 28
  body ++ le 4 (crc32c body).toNat

/-- The bytes of a slot: a torn record holds bytes nobody states, a slot never written holds zeros (Table 13.9). -/
def slotBytes (x : Option (Option BbxRec)) (index : Nat) : List Byte :=
  match x with
  | some (some r) => r.bytes
  | some none => slice (Config.tornRecord index) 0 64
  | none => List.replicate 64 0

/-- The slot at an index: records lie behind `next`, newest first (R419). -/
def slotAt (slots : List (Option BbxRec)) (next index : Nat) : Option (Option BbxRec) :=
  slots[(next + bbxSlots - 1 - index) % bbxSlots]?

/-- The 64 bytes at an index of the store, wrapping. -/
def BlackBox.recordAt (b : BlackBox) (index : Nat) : List Byte :=
  slotBytes (slotAt b.slots b.next (index % bbxSlots)) (index % bbxSlots)

/-- Valid records of a store. -/
def validRecs (slots : List (Option BbxRec)) : List BbxRec := slots.filterMap id

/-- The next SEQ: it never returns to zero (R418). -/
def BlackBox.nextSeq (b : BlackBox) : U32 := if b.lastSeq + 1 = 0 then 1 else b.lastSeq + 1

/-- Write one record whole: it takes the next SEQ and the next index (R418, R420). -/
def BlackBox.write (b : BlackBox) (r : BbxRec) : BlackBox :=
  { b with
    slots := (some { r with seq := b.nextSeq } :: b.slots).take bbxSlots
    lastSeq := b.nextSeq
    next := (b.next + 1) % bbxSlots }

/-- A record of the hardwired writer: it goes ahead of the queue, and only a write in progress comes before it (R421). -/
def State.hardwiredRecord (s : State) (r : BbxRec) : State :=
  let b := match s.bbx.queue with
    | [] => s.bbx
    | q :: t => { s.bbx.write q with queue := t }
  { s with bbx := { b.write { r with flags := 4 } with hardwired := b.hardwired + 1 } }

/-- The header of a mirror or a dump (Table 13.11) and the store's bytes after it. -/
def mirrorHeader (slots : List (Option BbxRec)) (next : Nat) (boot : U32) (time : U64) (payload : List Byte) : List Byte :=
  let v := validRecs slots
  let body := le 4 0x42425846 ++ le 4 0x48200201 ++ le 4 boot.toNat ++ le 4 next ++
    le 4 ((v.getLast?.map fun r => r.seq.toNat).getD 0) ++ le 4 ((v.head?.map fun r => r.seq.toNat).getD 0) ++
    le 8 time.toNat ++ le 4 v.length ++ le 4 (crc32c payload).toNat ++ List.replicate 20 0
  body ++ le 4 (crc32c body).toNat

/-- The 524,288 bytes of a store. -/
def storeBytes (slots : List (Option BbxRec)) (next : Nat) : List Byte :=
  (List.range bbxSlots).flatMap fun i => slotBytes (slotAt slots next i) i

/-- End of the region a mirror erases: nine 64 KiB units where only those exist (R422). -/
def State.mirrorEnd (s : State) : Nat := if s.flash.erase4k then 0x481000 else 0x490000

/-- Write the sixteen oldest waiting records on hold-up, drop the rest, then write the power-fail record (R403 step 5). -/
def State.powerFailRecords (s : State) (outMask : Nat) (undervoltage : Bool) : State :=
  let first := s.bbx.queue.take 16
  let rest := s.bbx.queue.drop 16
  let b := first.foldl (fun (b : BlackBox) r => b.write { r with flags := r.flags ||| 2 }) s.bbx
  let r := { s.bbxRec 0x0003 0xFF 0 0 (le 4 outMask ++ le 4 rest.length) with
             flags := 2 + bitIf undervoltage 3 + bitIf (!s.hatbandActs) 2 }
  { s with bbx :=
      { b.write r with
        queue := []
        dropped := b.dropped + BitVec.ofNat 32 rest.length
        hardwired := if s.hatbandActs then b.hardwired else b.hardwired + 1 } }

/-- The scan of step 2 of Table 13.2 (R419): torn records are counted, the start is numbered, and the start record is
written as the first of this start. Log entry 25, DEDUCED. -/
def State.bbxStart (s : State) (cause : Nat) : State :=
  let b := s.bbx
  let b' : BlackBox :=
    { slots := b.slots, next := b.next, lastSeq := b.lastSeq, boot := b.boot + 1,
      torn := BitVec.ofNat 32 (b.slots.filter fun x => x.isNone).length }
  let s := { s with bbx := b' }
  let r := s.bbxRec 0x0001 0xFF 0 0 (le 4 cause ++ le 4 0x48200201 ++ le 4 b.lastSeq.toNat)
  { s with bbx := b'.write { r with flags := 1 } }

/-- BBX_RECORD_WRITTEN (R420): the oldest waiting record has been written whole. -/
def execBbxRecordWritten (dt : Nat) (s : State) : Host.Outcome State Fault Refusal :=
  let s := s.elapse dt
  if s.live then
    match s.bbx.queue with
    | [] => .next s
    | r :: t => .next { s with bbx := { s.bbx.write r with queue := t } }
  else .next s

/-- BBX_MIRROR_START (R422): with MIRROR 1 and the image loaded, once per start, the store is imaged and its flash region
erased. -/
def execBbxMirrorStart (dt : Nat) (s : State) : Host.Outcome State Fault Refusal :=
  let s := s.elapse dt
  if s.live && s.cfg.state == 1 && s.mirrorOn == 1 && !s.bbx.mirrorBegun then
    .next { s with
      bbx := { s.bbx with mirrorBegun := true, mirrorState := 1, mirror := some (s.bbx.slots, s.bbx.next, s.devTime) }
      flash := { s.flash with cells := memClear s.flash.cells 0x400000 s.mirrorEnd } }
  else .next s

/-- BBX_MIRROR_DONE (R422): the image and, last, its header are programmed; or the mirror fails with a warning whose flash
result the spec does not number (a free value). Log entry 93, DEDUCED. -/
def execBbxMirrorDone (dt : Nat) (ok : Bool) (s : State) : Host.Outcome State Fault Refusal :=
  let s := s.elapse dt
  match s.bbx.mirror with
  | none => .next s
  | some (slots, next, time) =>
    if !s.live then .next s
    else if ok then
      let body := storeBytes slots next
      let head := mirrorHeader slots next s.bbx.boot time body
      let cells := memWriteAll erased (memWriteAll erased s.flash.cells 0x401000 body) 0x400000 head
      .next { s with
        flash := { s.flash with cells := cells }
        bbx := { s.bbx with
          mirror := none, mirrorState := 2, mirrorSeq := ((validRecs slots).head?.map (·.seq)).getD 0 } }
    else
      let v := BitVec.ofNat 32 (Config.freeWord s.free).toNat
      let s := { s.takeFree with bbx := { s.bbx with mirror := none, mirrorState := 3 } }
      .next (s.warn 0x00030001#32 v true)

end Sys2Proof.Machine
end

