-- ==== Sys2Proof/Machine/Coding.lean ====
section
/-! DEFINITION. The block coder of CMP (R335 to R342): fixed-ratio and lossless blocks of 256 points by 16 samples, and the
arrangement of quality codes (R195). -/

namespace Sys2Proof.Machine

/-- Bytes per value of a product (Table 6.8). -/
def prodBytes (product : Nat) : Nat := match product with | 1 => 4 | 3 => 8 | _ => 2

/-- Quality codes two per byte, first in bits [3:0] (R195). -/
def packCodes : List Nat → List Byte
  | a :: b :: t => BitVec.ofNat 8 (a % 16 + 16 * (b % 16)) :: packCodes t
  | [a] => [BitVec.ofNat 8 (a % 16)]
  | [] => []

/-- A shifted value fits its field of `k` bits: two's complement, or unsigned for amplitude (R339). -/
def fits (signed : Bool) (k : Nat) (q : Int) : Bool :=
  if signed then -(2 ^ (k - 1) : Int) ≤ q && q < 2 ^ (k - 1) else 0 ≤ q && q < 2 ^ k

/-- The field of `k` bits of a value. -/
def bitsOfInt (k : Nat) (q : Int) : List Bool := bitList k (q % (2 ^ k : Nat)).toNat

/-- The smallest `e`, counted from `e` up, that meets a condition within `fuel` tries. -/
def leastShift (ok : Nat → Bool) : Nat → Nat → Nat
  | 0, e => e
  | fuel + 1, e => if ok e then e else leastShift ok fuel (e + 1)

/-- Read a value as signed 32 bits. -/
def wrap32 (v : Int) : Int := toSigned 32 (v % (2 ^ 32 : Nat)).toNat

/-- The chain of R339 for accumulated phase: the q of each sample after the first, tracking the decoder. -/
def chainQ (e : Nat) : Int → List Int → List Int
  | _, [] => []
  | vh, v :: t =>
    let q := roundDiv (wrap32 (v - vh)) (2 ^ e)
    q :: chainQ e (wrap32 (vh + q * 2 ^ e)) t

/-- Bits per sub-block and bits per field of a fixed-ratio coding (Table 11.11). -/
def fixedShape (product coding : Nat) : Nat × Nat :=
  if product = 1 then (match coding with | 2 => (256, 14) | 3 => (170, 8) | _ => (128, 6))
  else (match coding with | 2 => (128, 7) | 3 => (85, 5) | _ => (64, 3))

/-- One fixed-ratio sub-block of 16 samples: its shift and its bits (R339). -/
def fixedSub (product coding : Nat) (vs : List Int) : Nat × List Bool :=
  let shape := fixedShape product coding
  let k := shape.2
  if product = 1 then
    let v0 := vs.headD 0
    let e := leastShift (fun e => (chainQ e v0 vs.tail).all (fits true k)) 32 0
    let bits := bitList 5 e ++ bitsOfInt 32 v0 ++ (chainQ e v0 vs.tail).flatMap (bitsOfInt k)
    (e, bits ++ List.replicate (shape.1 - bits.length) false)
  else
    let signed := product == 0
    let e := leastShift (fun e => vs.all fun v => fits signed k (roundDiv v (2 ^ e))) 32 0
    let bits := bitList 5 e ++ vs.flatMap fun v => bitsOfInt k (roundDiv v (2 ^ e))
    (e, bits ++ List.replicate (shape.1 - bits.length) false)

/-- The residuals of a lossless sub-block, modulo the value width and read as signed (R341 step 1). -/
def residuals (w : Nat) : Int → List Int → List Int
  | _, [] => []
  | prev, v :: t => toSigned (8 * w) ((v - prev) % (2 ^ (8 * w) : Nat)).toNat :: residuals w v t

/-- The mapping of a residual to an unsigned value (R341 step 2). -/
def zigzag (r : Int) : Nat := if r ≥ 0 then (2 * r).toNat else (-2 * r - 1).toNat

/-- Bits of the Rice code of a value with parameter `p`. -/
def riceBits (p u : Nat) : List Bool := List.replicate (u / 2 ^ p) true ++ [false] ++ bitList p u

/-- Length of a Rice-coded sub-block. -/
def riceLength (p : Nat) (us : List Nat) : Nat := us.foldl (fun n u => n + u / 2 ^ p + 1 + p) 0

/-- The parameter of the shortest code, the smallest on ties, among 0 to `n`. -/
def bestRice (us : List Nat) : Nat → Nat
  | 0 => 0
  | n + 1 => let p := bestRice us n; if riceLength (n + 1) us < riceLength p us then n + 1 else p

/-- One lossless sub-block of 32 values: escaped, and its bits (R341). -/
def losslessSub (product : Nat) (vs : List Int) : Bool × List Bool :=
  let w := prodBytes product
  let pBits := if w = 4 then 5 else 4
  let esc := 2 ^ pBits - 1
  let us := (residuals w 0 vs).map zigzag
  let p := bestRice us (esc - 1)
  if riceLength p us ≥ 32 * 8 * w then
    (true, bitList pBits esc ++ vs.flatMap (bitsOfInt (8 * w)))
  else (false, bitList pBits p ++ us.flatMap (riceBits p))

/-- Take pairs of points: sub-block i of a lossless block holds points 2i and 2i + 1. -/
def pairUp : List (List Int) → List (List Int)
  | a :: b :: t => (a ++ b) :: pairUp t
  | [a] => [a]
  | [] => []

/-- A coded block: its bytes and what CMP counts of it. -/
structure CodedBlock where
  bytes : List Byte
  emax : Nat
  escapes : Nat
  overflowed : Bool
  /-- Points of the block. -/
  points : Nat
deriving DecidableEq, Repr

/-- Raw size of a block's values (Table 11.10). -/
def rawBlockBytes (product : Nat) : Nat := 256 * 16 * prodBytes product

/-- Code one block of at most 256 points: `cols` holds the samples of each point, `codes` its codes sample-major over 256
positions; positions beyond the block are value zero (R337). -/
def codeBlockBytes (product coding : Nat) (firstPoint : Nat) (row : Row) (samples : Nat)
    (cols : List (List Int)) (codes : Option (List Nat)) (flushed lost : Bool) : CodedBlock :=
  let pad := fun (l : List Int) => l ++ List.replicate (16 - l.length) 0
  let full := cols.map pad ++ List.replicate (256 - cols.length) (List.replicate 16 0)
  let fixed := full.map (fixedSub product coding)
  let subs := (pairUp full).map (losslessSub product)
  let bits := if coding = 1 then subs.flatMap (·.2) else fixed.flatMap (·.2)
  let raw := packBits bits
  let body := raw ++ List.replicate ((8 - raw.length % 8) % 8) 0
  let emax := if coding = 1 then 0 else (fixed.map (·.1)).foldl max 0
  let escapes := if coding = 1 then (subs.filter (·.1)).length else 0
  let wide := coding == 1 && body.length > rawBlockBytes product
  let flags := bitIf flushed 0 + bitIf wide 1 + bitIf codes.isSome 2 + bitIf lost 3
  let head := le 1 coding ++ le 1 product ++ le 1 emax ++ le 1 flags ++ le 2 samples ++ le 2 cols.length ++
    le 4 firstPoint ++ le 4 body.length ++ le 8 row.j ++ le 2 escapes ++ le 2 0 ++ le 4 0
  { bytes := head ++ body ++ (match codes with | some c => packCodes c | none => [])
    emax := emax, escapes := escapes, overflowed := wide, points := cols.length }

/-- The columns of gathered rows from a point on, at most 256 points: the samples of each point. -/
def columns (rows : List Row) (from_ n : Nat) : List (List Int) :=
  (List.range n).map fun i => rows.map fun r => r.values.getD (from_ + i) 0

/-- The code nibbles of a block over 256 positions and 16 samples, zero (code NONE) where the block holds none (R337). -/
def blockCodes (none_ : Nat) (rows : List Row) (from_ n : Nat) : List Nat :=
  (List.range 16).flatMap fun s => (List.range 256).map fun i =>
    match rows[s]? with
    | some r => if i < n then r.codes.getD (from_ + i) none_ else none_
    | none => none_

/-- Cut `n` points into runs of 256: first position and length of each (R336). -/
def runs256 : Nat → Nat → Nat → List (Nat × Nat)
  | 0, _, _ => []
  | fuel + 1, from_, n => if n = 0 then [] else
    let k := min n 256
    (from_, k) :: runs256 fuel (from_ + k) (n - k)

end Sys2Proof.Machine
end

