-- ==== Sys2Proof/Machine/Out.lean ====
section
/-! DEFINITION. Ethernet delivery (R328 to R330, R347 to R351): numbering records, the transmit buffer of a lane, ARP, and the
timers of a route. -/

namespace Sys2Proof.Machine

/-! ## Records on a route -/

/-- A Penbex record as bytes (Table 11.1, R326). -/
def PRec.bytes (p : PRec) (seq : U32) (route : Nat) (skipped : Bool) : List Byte :=
  let body := le 2 0x5842 ++ le 1 1 ++ le 1 p.typ ++ le 4 p.payload.length ++ le 4 seq.toNat ++ le 1 p.port ++
    le 1 p.coding ++ le 1 p.part ++ le 1 p.parts ++ le 8 p.time.toNat ++ le 4 p.wraps.toNat ++ le 1 route ++
    le 1 (bitIf skipped 0) ++ le 2 0 ++ p.payload
  body ++ le 4 (crc32c body).toNat

/-- Bytes a record occupies (R326). -/
def PRec.size (p : PRec) : Nat := 36 + p.payload.length

/-- The number after a SEQUENCE: it wraps from 2³² − 1 to 1 (R329). -/
def nextSeq (q : U32) : U32 := if q + 1 = 0 then 1 else q + 1

/-- A multicast IPv4 address (R348). -/
def isMulticast (ip : U32) : Bool := ip.toNat / 2 ^ 28 == 14

/-- The next hop of a unicast route: the destination on the lane's subnet, else the gateway (R348); none without one. -/
def State.nextHop (s : State) (r : RouteId) : Option U32 :=
  let l := s.routeLane r
  let ip := s.routeDestIp r
  if (ip &&& s.netmask l) = (s.ethIp l &&& s.netmask l) then some ip
  else if s.gateway l = 0 then none else some (s.gateway l)

/-- The MAC a lane has resolved for an address. -/
def State.arpMac (s : State) (l : Lane) (ip : U32) : Option U48 :=
  (s.lanes[l].arp.find? fun e => e.ip == ip).bind (·.mac)

/-- Destination MAC of a route's records, if resolved (R348, RFC 1112). Log entry 77, PRESUMED. -/
def State.routeMac (s : State) (r : RouteId) : Option U48 :=
  let ip := s.routeDestIp r
  if isMulticast ip then some (BitVec.ofNat 48 (0x01005E000000 + ip.toNat % 2 ^ 23))
  else (s.nextHop r).bind (s.arpMac (s.routeLane r))

/-- The lane works: configured, not fenced (R347, R348). -/
def State.laneOn (s : State) (l : Lane) : Bool := s.live && (s.ethRec l).isSome && !s.isShut 15

/-- The lane can carry records now. -/
def State.laneUp (s : State) (l : Lane) : Bool := s.laneOn l && s.lanes[l].up

/-- A route's records can leave (R348). -/
def State.routeSends (s : State) (r : RouteId) : Bool := s.laneUp (s.routeLane r) && (s.routeMac r).isSome

/-- Own MAC of a lane (Table 11.20). -/
def State.ownMac (s : State) (l : Lane) : U48 := if s.ethMacField l = 0 then Config.fusedMac l else s.ethMacField l

/-- Change a lane. -/
def State.setLane (s : State) (l : Lane) (f : LaneSt → LaneSt) : State := { s with lanes := upd s.lanes l f }

/-- Change a route. -/
def State.setRoute (s : State) (r : RouteId) (f : RouteSt → RouteSt) : State := { s with routes := upd s.routes r f }

/-- A record of a route is discarded under R348 or R285: it takes a number and is counted (R329). -/
def State.discardNumbered (s : State) (r : RouteId) : State :=
  s.setRoute r fun x => { x with seq := nextSeq x.seq, skipped := true, lost := x.lost + 1 }

/-- Record type of a product (Table 11.2). -/
def prodType (product : Nat) : Nat := match product with | 2 => 0x02 | 3 => 0x04 | _ => 0x01

/-- A coded record is lost: the next block of its consumer tells it (Table 11.9). -/
def RouteSt.blockLost (x : RouteSt) (typ port coding : Nat) : RouteSt :=
  if coding = 0 then x
  else { x with das := x.das.map fun g => if g.port = port ∧ prodType g.product = typ then { g with lost := true } else g }

/-- A record that waits for a lane is discarded (R348, R349). -/
def State.discardRec (s : State) (r : RouteId) (p : PRec) : State :=
  (s.discardNumbered r).setRoute r fun x => x.blockLost p.typ p.port p.coding

/-- Bytes a lane's transmit buffer holds (R349). -/
def LaneSt.used (l : LaneSt) : Nat :=
  ((l.urgent ++ l.normal).map fun t => t.prec.size).sum + (l.sending.map fun t => t.bytes.length).getD 0

/-- Size of a lane's transmit buffer: 4 MiB (R349). -/
def txBufferBytes : Nat := 4194304

/-- EVENT, HEALTH and HEARTBEAT records leave first (R349). -/
def urgentType (typ : Nat) : Bool := typ == 0x20 || typ == 0x30 || typ == 0x7F

/-- Put the next waiting record on the lane's line: urgent records first, each numbered as it is sent, and a record whose
route cannot send discarded (R329, R348, R349). `fuel` bounds the records looked at. -/
def State.startNext (l : Lane) : Nat → State → State
  | 0, s => s
  | fuel + 1, s =>
    if s.lanes[l].sending.isSome then s
    else
      let take : Option (TxItem × State) :=
        match s.lanes[l].urgent, s.lanes[l].normal with
        | t :: u, _ => some (t, s.setLane l (fun x => { x with urgent := u }))
        | [], t :: n => some (t, s.setLane l (fun x => { x with normal := n }))
        | [], [] => none
      match take with
      | none => s
      | some (t, s) =>
        match (if s.laneUp l then s.routeMac t.route else none) with
        | none => State.startNext l fuel (s.discardRec t.route t.prec)
        | some mac =>
          let x := s.routes[t.route]
          let q := nextSeq x.seq
          let b := t.prec.bytes q t.route.val x.skipped
          let s := s.setRoute t.route fun x => { x with seq := q, skipped := false }
          s.setLane l fun x => { x with sending := some ⟨t.route, mac, b⟩ }

/-- Records that wait on a lane. -/
def LaneSt.waiting (l : LaneSt) : Nat := l.urgent.length + l.normal.length

/-- Put a record among those that wait, in the order in which they were completed (R349). -/
def insertDone (t : TxItem) : List TxItem → List TxItem
  | [] => [t]
  | u :: l => if t.prec.doneAt < u.prec.doneAt then t :: u :: l else u :: insertDone t l

/-- A record enters its lane's transmit buffer, or is discarded with its number and counted (R271, R329, R348, R349); at a fenced lane its
flits are counted too (R271). Log entry 76, DEDUCED. -/
def State.enqueueRec (s : State) (r : RouteId) (p : PRec) : State :=
  let l := s.routeLane r
  let s := if s.isShut 15 then s.fencedFlits (flits p.size) else s
  if !s.routeSends r then s.discardRec r p
  else if s.lanes[l].used + p.size > txBufferBytes then s.discardRec r p
  else
    let s := s.setLane l fun x =>
      if urgentType p.typ then { x with urgent := x.urgent ++ [⟨r, p⟩] } else { x with normal := insertDone ⟨r, p⟩ x.normal }
    let s := s.setLane l fun x => { x with bufferPeak := BitVec.ofNat 32 (max x.bufferPeak.toNat x.used) }
    s.startNext l 1

/-! ## ARP -/

/-- Next hops of the lane's unicast routes (R348). -/
def State.laneHops (s : State) (l : Lane) : List U32 :=
  (allRoutes.filterMap fun r =>
    if (s.routeRec r).isSome && s.routeLane r == l && !isMulticast (s.routeDestIp r) then s.nextHop r else none).eraseDups

/-- Broadcast MAC. -/
def broadcastMac : U48 := 0xFFFFFFFFFFFF

/-- Send an ARP request for a next hop (RFC 826, R348). -/
def State.askHop (s : State) (l : Lane) (ip : U32) : State :=
  let old : ArpEntry := (s.lanes[l].arp.find? fun e => e.ip == ip).getD { ip := ip }
  let e : ArpEntry :=
    { old with
      unanswered := old.unanswered + 1
      askedAt := s.now
      refreshedAt := if old.unanswered = 0 then s.now else old.refreshedAt }
  let s := s.setLane l fun x =>
    { x with arp := x.arp.filter (fun e => e.ip != ip) ++ [e], txFrames := x.txFrames + 1 }
  s.send (.arp l 1 broadcastMac ip)

/-! ## TIMING records (R334) -/

/-- A TIMING payload: kind and entries (Table 11.6). -/
def timingPayload (kind : Nat) (entries : List (List Byte)) : List Byte :=
  le 1 kind ++ le 1 entries.length ++ le 2 0 ++ le 4 0 ++ entries.flatten

/-- Entries of 24 bytes that fit a record limit, up to 255 (R328). -/
def tagsPerRecord (limit : Nat) : Nat := min 255 ((limit - 44) / 24)

/-- Close a route's TIMING record of shot tags of a port. -/
def State.closeTags (s : State) (r : RouteId) (p : Port) : State :=
  let g := s.routes[r].tags[p]
  if g.entries.isEmpty then s
  else
    let s := s.setRoute r fun x => { x with tags := x.tags.set p {} }
    s.toRoute r (s.newRec 0x40 p.val (timingPayload 2 g.entries))

/-- Close ring 2's TIMING record of shot tags of a port. -/
def State.closeRingTags (s : State) (p : Port) : State :=
  let g := s.mem.tags[p]
  if g.entries.isEmpty then s
  else
    let s := { s with mem := { s.mem with tags := s.mem.tags.set p {} } }
    s.toRing 2 { prec := some (s.newRec 0x40 p.val (timingPayload 2 g.entries)) }

/-- Add an entry to a gather. -/
def TagGather.add (g : TagGather) (now : Nat) (e : List Byte) : TagGather :=
  { entries := g.entries ++ [e], firstAt := if g.entries.isEmpty then now else g.firstAt }

/-- A shot's tag joins the open TIMING record of every consumer; a record that is full closes (R334). -/
def State.addTag (s : State) (p : Port) (e : List Byte) : State :=
  let s := allRoutes.foldl (fun s r =>
    if s.routeTakes r 0x40 p.val then
      let s := s.setRoute r fun x => { x with tags := upd x.tags p fun g => g.add s.now e }
      if s.routes[r].tags[p].entries.length ≥ tagsPerRecord (s.recordLimit r) then s.closeTags r p else s
    else s) s
  if s.ring2Takes 0x40 then
    let s := { s with mem := { s.mem with tags := upd s.mem.tags p fun g => g.add s.now e } }
    if s.mem.tags[p].entries.length ≥ 255 then s.closeRingTags p else s
  else s

/-! ## Cutting records that carry points (R328) -/

/-- Cut a point range into runs of at most `k` points. -/
def cutRuns (k : Nat) : Nat → Nat → Nat → List (Nat × Nat)
  | 0, _, _ => []
  | fuel + 1, from_, n => if n = 0 || k = 0 then [] else (from_, min n k) :: cutRuns k fuel (from_ + min n k) (n - min n k)

/-- The largest point count, at most `n`, whose payload fits; `size` gives the payload bytes of a count. -/
def mostPoints (size : Nat → Nat) (room : Nat) : Nat → Nat
  | 0 => 0
  | n + 1 => if size (n + 1) ≤ room then n + 1 else mostPoints size room n

/-- Bytes rounded up to a multiple of 4. -/
def up4 (n : Nat) : Nat := (n + 3) / 4 * 4

/-! ## The commands -/

/-- OUT_RECORD_ENQUEUE (R348, R349): the oldest record on its way to the route reaches the lane. -/
def execOutRecordEnqueue (dt : Nat) (r : RouteId) (s : State) : Host.Outcome State Fault Refusal :=
  let s := s.elapse dt
  match s.routes[r].inflight with
  | [] => .next s
  | p :: t => .next ((s.setRoute r fun x => { x with inflight := t }).enqueueRec r p)

/-- ETH_FRAME_SENT (R349, R351): the frame on the line has gone; the next waiting record takes its place. -/
def execEthFrameSent (dt : Nat) (l : Lane) (s : State) : Host.Outcome State Fault Refusal :=
  let s := s.elapse dt
  match s.lanes[l].sending with
  | none => .next s
  | some f =>
    let s := s.send (.udp l f.mac (s.routeDestIp f.route) (s.routeSrcPort f.route) (s.routeDestPort f.route)
      (s.routeDscp f.route) f.bytes)
    let s := s.setRoute f.route fun x => { x with records := x.records + 1, sentAt := s.now }
    let s := s.setLane l fun x => { x with sending := none, txFrames := x.txFrames + 1 }
    .next (s.startNext l s.lanes[l].waiting)

/-- HEARTBEAT_TIMER (R351): HEARTBEAT_MS has passed without a record sent on a route that can send. -/
def execHeartbeatTimer (dt : Nat) (r : RouteId) (s : State) : Host.Outcome State Fault Refusal :=
  let s := s.elapse dt
  if (s.routeRec r).isSome && s.heartbeatMs r != 0 && s.routeSends r &&
      decide (s.routes[r].sentAt + s.heartbeatMs r * msP ≤ s.now) then
    .next ((s.setRoute r fun x => { x with sentAt := s.now }).toRoute r (s.newRec 0x7F 0xFF []))
  else .next s

/-- TIMING_RECORD_CLOSE (R334): shot-tag records of the port close 10 ms after their first entry. -/
def execTimingRecordClose (dt : Nat) (p : Port) (s : State) : Host.Outcome State Fault Refusal :=
  let s := s.elapse dt
  let due := fun (g : TagGather) => decide (g.firstAt + 10 * msP ≤ s.now)
  let s := allRoutes.foldl (fun s r => if due s.routes[r].tags[p] then s.closeTags r p else s) s
  .next (if due s.mem.tags[p] then s.closeRingTags p else s)

/-- ARP_REFRESH (R348): each next hop not under request and not refreshed for ARP_REFRESH seconds is asked for. -/
def execArpRefresh (dt : Nat) (l : Lane) (s : State) : Host.Outcome State Fault Refusal :=
  let s := s.elapse dt
  if s.laneUp l then
    let due := fun (ip : U32) => match s.lanes[l].arp.find? fun e => e.ip == ip with
      | none => true
      | some e => e.unanswered == 0 && decide (e.refreshedAt + s.arpRefreshS l * secP ≤ s.now)
    .next (((s.laneHops l).filter due).foldl (fun s ip => s.askHop l ip) s)
  else .next s

/-- ARP_RETRY_TIMEOUT (R348): a request unanswered for 1 s is repeated; after three the entry becomes unresolved. -/
def execArpRetryTimeout (dt : Nat) (l : Lane) (s : State) : Host.Outcome State Fault Refusal :=
  let s := s.elapse dt
  if s.laneUp l then
    let due := s.lanes[l].arp.filter fun e => e.unanswered != 0 && decide (e.askedAt + secP ≤ s.now)
    .next (due.foldl (fun s e =>
      if e.unanswered < 3 then s.askHop l e.ip
      else s.setLane l fun x =>
        { x with
          arp := x.arp.map fun a => if a.ip = e.ip then { a with mac := none, unanswered := 0 } else a
          arpFails := if e.mac.isSome then x.arpFails + 1 else x.arpFails }) s)
  else .next s

/-- ARP_FRAME_RECEIVED (R347, RFC 826): an entry for the sender is resolved; a request for the lane's address is answered.
Log entry 77, PRESUMED. -/
def execArpFrameReceived (dt : Nat) (l : Lane) (f : ArpFrame) (s : State) : Host.Outcome State Fault Refusal :=
  let s := s.elapse dt
  if s.laneUp l then
    let s := s.setLane l fun x =>
      { x with
        rxFrames := x.rxFrames + 1
        arp := x.arp.map fun a =>
          if a.ip = f.senderIp then { a with mac := some f.senderMac, unanswered := 0, refreshedAt := s.now } else a }
    if f.op = 1 ∧ f.targetIp = s.ethIp l then
      .next ((s.setLane l fun x => { x with txFrames := x.txFrames + 1 }).send (.arp l 2 f.senderMac f.senderIp))
    else .next s
  else .next s

/-- ETH_LINK_UP (R347, R348): gratuitous ARP is sent, and the lane resolves its next hops. -/
def execEthLinkUp (dt : Nat) (l : Lane) (s : State) : Host.Outcome State Fault Refusal :=
  let s := s.elapse dt
  if s.laneOn l && !s.lanes[l].up then
    let s := s.setLane l fun x => { x with up := true, txFrames := x.txFrames + 1 }
    let s := s.send (.arp l 1 broadcastMac (s.ethIp l))
    .next (((s.laneHops l).filter fun ip => (s.arpMac l ip).isNone).foldl (fun s ip => s.askHop l ip) s)
  else .next s

/-- Discard every record that waits on a lane or is on its line, each with its number (R348). -/
def State.dropLane (s : State) (l : Lane) : State :=
  let lost := s.lanes[l].urgent ++ s.lanes[l].normal
  let s := match s.lanes[l].sending with
    | some f => s.setRoute f.route fun x =>
      { x with skipped := true, lost := x.lost + 1 }.blockLost (fieldAt f.bytes 3 1) (fieldAt f.bytes 12 1) (fieldAt f.bytes 13 1)
    | none => s
  let s := s.setLane l fun x => { x with urgent := [], normal := [], sending := none }
  lost.foldl (fun s t => s.discardRec t.route t.prec) s

/-- ETH_LINK_DOWN (R348): the lane's routes discard and count; the frame being sent is lost with its record. -/
def execEthLinkDown (dt : Nat) (l : Lane) (s : State) : Host.Outcome State Fault Refusal :=
  let s := s.elapse dt
  if s.lanes[l].up then .next ((s.dropLane l).setLane l fun x => { x with up := false }) else .next s

/-- ICMP_ECHO_REQUEST (Table 11.13): answered when it asks for the lane's address and ICMP_ECHO is 1; else discarded. -/
def execIcmpEchoRequest (dt : Nat) (l : Lane) (srcMac : U48) (srcIp dstIp : U32) (data : List Byte) (s : State) :
    Host.Outcome State Fault Refusal :=
  let s := s.elapse dt
  if s.laneUp l then
    let s := s.setLane l fun x => { x with rxFrames := x.rxFrames + 1 }
    if s.icmpEcho l = 1 ∧ dstIp = s.ethIp l then
      .next ((s.setLane l fun x => { x with txFrames := x.txFrames + 1 }).send (.echoReply l srcMac srcIp data))
    else .next (s.setLane l fun x => { x with rxDiscards := x.rxDiscards + 1 })
  else .next s

/-- ETH_FRAME_DISCARDED (Table 11.13): a frame of an unsupported kind is discarded and counted. -/
def execEthFrameDiscarded (dt : Nat) (l : Lane) (s : State) : Host.Outcome State Fault Refusal :=
  let s := s.elapse dt
  if s.laneUp l then
    .next (s.setLane l fun x => { x with rxFrames := x.rxFrames + 1, rxDiscards := x.rxDiscards + 1 })
  else .next s

end Sys2Proof.Machine
end

