-- ==== Sys2Proof/Machine/Das.lean ====
section
/-! DEFINITION. DAS products at their consumers (R194 to R196, R328, R335, R336, R343, R345, R363): payloads, gathering of output
samples, cutting into records, coded blocks, frames for the history rings, and flushes. -/

namespace Sys2Proof.Machine

/-! ## Payloads -/

/-- Values per point, and bytes per value, of a product (Table 6.8). -/
def perPoint (product : Nat) : Nat := if product = 3 then 4 else 1
def valueBytes (product : Nat) : Nat := if product = 1 then 4 else 2

/-- The points of a row from a position on. -/
def Row.cut (r : Row) (product from_ n : Nat) : Row :=
  let m := perPoint product
  { r with values := (r.values.drop (m * from_)).take (m * n), codes := (r.codes.drop from_).take n }

/-- Time between output samples, 2⁻⁸ ns; zero when irregular (Table 6.7). -/
def State.dasInterval (s : State) (p : Port) (k : Nat) : Nat :=
  if s.irregular p then 0 else s.period10 p * 2560 * 2 ^ k / max 1 (s.pleats p)

/-- The 56-byte DAS header (Table 6.7) of output samples over a run of points. -/
def State.dasHeader (s : State) (p : Port) (product : Nat) (coarse : Bool) (rows : List Row) (first count : Nat) : List Byte :=
  let k := if product = 3 then 0 else if coarse then s.coarseFactor p else s.decFactor p
  let flags := (rows.map (·.flags)).foldl (· ||| ·) (bitIf (s.irregular p) 2)
  let head := fun (f : Row → Nat) => (rows.head?.map f).getD 0
  le 1 product ++ le 1 (k + bitIf (coarse && product != 3) 7) ++ le 1 (s.pleats p) ++
    le 1 (if product < 2 then s.gauge p else 0) ++ le 2 rows.length ++ le 2 flags ++ le 4 first ++ le 4 count ++
    le 8 (head fun r => r.time.toNat) ++ le 8 (s.dasInterval p k) ++ le 8 (head fun r => r.j) ++
    le 8 (head fun r => r.shot.toNat) ++ le 2 (head fun r => r.calSet) ++ le 2 0 ++ le 4 0

/-- The values of rows, sample-major, padded, and their codes in the same order (R195). -/
def dasValues (product : Nat) (rows : List Row) : List Byte :=
  pad4 (rows.flatMap fun r => r.values.flatMap (leInt (valueBytes product)))
def dasCodes (rows : List Row) : List Byte := pad4 (packCodes (rows.flatMap (·.codes)))

/-- An uncoded DAS payload (R195); without codes it ends after the values (R363). -/
def State.dasPayload (s : State) (p : Port) (product : Nat) (coarse quality : Bool) (rows : List Row) (first count : Nat) :
    List Byte :=
  s.dasHeader p product coarse rows first count ++ dasValues product rows ++ (if quality then dasCodes rows else [])

/-- Payload bytes of `n` points by `k` samples (R195). -/
def dasSize (product : Nat) (quality : Bool) (k n : Nat) : Nat :=
  56 + up4 (k * n * perPoint product * valueBytes product) + (if quality then up4 ((k * n + 1) / 2) else 0)

/-- Bytes of a DTS or slow-strain payload of `n` points of `w` bytes (R331). -/
def dtsSize (w n : Nat) : Nat := 64 + up4 (w * n) + up4 ((n + 1) / 2)

/-- The uncoded records of one set of output samples (R328); the rows' first point is `first`. -/
def State.dasRecords (s : State) (limit : Nat) (p : Port) (product : Nat) (coarse quality : Bool) (first : Nat)
    (rows : List Row) : List PRec :=
  let n := (rows.head?.map fun r => r.codes.length).getD 0
  let k := mostPoints (dasSize product quality rows.length) (limit - 36) n
  (cutRuns k n 0 n).map fun c =>
    s.newRec (prodType product) p.val
      (s.dasPayload p product coarse quality (rows.map fun r => r.cut product c.1 c.2) (first + c.1) c.2)

/-! ## Coded blocks -/

/-- The blocks of one sample range of a consumer, with the point each starts at (R336). -/
def codedBlocks (product coding : Nat) (quality : Bool) (first : Nat) (rows : List Row) (flushed lost : Bool) :
    List (Nat × CodedBlock) :=
  match rows with
  | [] => []
  | r :: _ =>
    let n := r.codes.length
    (runs256 n 0 n).map fun c =>
      (first + c.1,
        codeBlockBytes product coding (first + c.1) r rows.length (columns rows c.1 c.2)
          (if quality then some (blockCodes 0 rows c.1 c.2) else none) flushed (lost && c.1 == 0))

/-- What CMP counts of blocks it emits (Table 11.22). -/
def State.countBlocks (s : State) (p : Port) (coding : Nat) (flushed : Bool) (bs : List (Nat × CodedBlock)) : State :=
  let n := BitVec.ofNat 64 bs.length
  let emax := (bs.map fun b => b.2.emax).foldl max 0
  { s with cmp := upd s.cmp p fun c =>
    { c with
      blocks := c.blocks + n
      flushed := if flushed then c.flushed + n else c.flushed
      overflowed := c.overflowed + BitVec.ofNat 64 (bs.filter fun b => b.2.overflowed).length
      escapes := c.escapes + BitVec.ofNat 64 (bs.map fun b => b.2.escapes).sum
      emaxPeak := Vector.ofFn fun i => if i.val + 2 = coding then max c.emaxPeak[i] emax else c.emaxPeak[i] } }

/-- Cut a list into pieces of at most `n` bytes. -/
def pieces (n : Nat) : Nat → List Byte → List (List Byte)
  | 0, _ => []
  | fuel + 1, l => if l.isEmpty || n = 0 then [] else l.take n :: pieces n fuel (l.drop n)

/-- Gather whole blocks into records of at most `room` bytes of blocks: runs of blocks, in order (R343). -/
def packBlocks (room : Nat) : List (Nat × CodedBlock) → List (Nat × CodedBlock) → List (List (Nat × CodedBlock))
  | cur, [] => if cur.isEmpty then [] else [cur]
  | cur, b :: t =>
    if !cur.isEmpty && (cur.map fun c => c.2.bytes.length).sum + b.2.bytes.length > room then
      cur :: packBlocks room [b] t
    else packBlocks room (cur ++ [b]) t

/-- The coded records of one sample range (R343): whole blocks as fit; a block that does not fit alone in a chain of pieces. -/
def State.codedRecords (s : State) (limit : Nat) (p : Port) (product coding : Nat) (coarse : Bool) (rows : List Row)
    (bs : List (Nat × CodedBlock)) : List PRec :=
  let room := limit - 92
  (packBlocks room [] bs).flatMap fun run =>
    let head := s.dasHeader p product coarse rows ((run.head?.map (·.1)).getD 0) ((run.map fun b => b.2.points).sum)
    let body := run.flatMap fun b => b.2.bytes
    let ps := pieces room body.length body
    ps.zipIdx.map fun e =>
      { s.newRec (prodType product) p.val (head ++ e.1) with coding := coding, part := e.2, parts := ps.length }

/-! ## Consumers -/

/-- A route carries a DAS product of a port on a path (Table 11.21). -/
def State.routeDas (s : State) (r : RouteId) (p : Port) (product : Nat) (coarse : Bool) : Bool :=
  s.routeTakes r (prodType product) p.val &&
    (product == 3 || s.routeSource r == (if coarse then 1 else 0)) &&
    (match product with
     | 0 => s.routeProduct r != 1
     | 1 => s.routeProduct r != 0
     | _ => true)

/-- Points a consumer takes from its first point on; a count of zero takes every point. -/
def takeCount (total first count : Nat) : Nat := if count = 0 then total - first else count

/-- The gather of a consumer, if open. -/
def RouteSt.gatherOf (x : RouteSt) (port product : Nat) (coarse : Bool) : Option Gather :=
  x.das.find? fun g => g.port == port && g.product == product && g.coarse == coarse

/-- Store a consumer's gather. -/
def RouteSt.setGather (x : RouteSt) (g : Gather) : RouteSt :=
  { x with das := (x.das.filter fun h => !(h.port == g.port && h.product == g.product && h.coarse == g.coarse)) ++ [g] }

/-- A route's gathered samples leave as records (R195, R343). -/
def State.closeGather (s : State) (r : RouteId) (p : Port) (g : Gather) (flushed : Bool) : State :=
  if g.rows.isEmpty then s
  else
    let quality := s.routeQuality r == 1
    let s' := s.setRoute r fun x => x.setGather { g with rows := [], lost := false }
    if s.routeCoding r = 0 then
      (s.dasRecords (s.recordLimit r) p g.product g.coarse quality (s.routeFirst r) g.rows).foldl (fun s q => s.toRoute r q) s'
    else
      let bs := codedBlocks g.product (s.routeCoding r) quality (s.routeFirst r) g.rows flushed g.lost
      (s.codedRecords (s.recordLimit r) p g.product (s.routeCoding r) g.coarse g.rows bs).foldl (fun s q => s.toRoute r q)
        (s'.countBlocks p (s.routeCoding r) flushed bs)

/-- The sample ends its block: its output sample number is the last of sixteen (R336). -/
def endsBlock (o : Int) : Bool := o % 16 == 15

/-- An output sample reaches a route (R193 to R195, R336, R345): `o` is its output sample number. A coded route whose coder is
fenced takes nothing and counts one record lost per block row. -/
def State.routeRow (s : State) (r : RouteId) (p : Port) (product : Nat) (coarse : Bool) (o : Int) (row : Row) : State :=
  let row := row.cut product (s.routeFirst r) (takeCount row.codes.length (s.routeFirst r) (s.routeCount r))
  let g := (s.routes[r].gatherOf p.val product coarse).getD { port := p.val, product := product, coarse := coarse }
  let coded := s.routeCoding r != 0
  if coded && s.isShut 12 then
    let s := (s.fencedFlits (flits (row.values.length * valueBytes product))).setRoute r fun x => x.setGather { g with rows := [], lost := true }
    if endsBlock o then s.discardNumbered r else s
  else
    let g := { g with rows := g.rows ++ [row], lastAt := s.now }
    let full := if s.irregular p then true else if coded then endsBlock o else decide (g.rows.length ≥ s.decSamples p)
    let s := s.setRoute r fun x => x.setGather g
    if full then s.closeGather r p g false else s

/-- A history ring holds this product of the port (Table 10.11). -/
def State.ringDas (s : State) (p : Port) (product : Nat) (coarse : Bool) : Bool :=
  s.histSizeMiB p.val != 0 && s.histProduct p.val == product && s.histSource p.val == (if coarse then 1 else 0)

/-- The ring a port's DAS product goes to. -/
def dasRing (p : Port) : Fin 3 := if p = 0 then 0 else 1

/-- A sample without its values and codes. -/
def Row.bare (r : Row) : Row := { r with values := [], codes := [] }

/-- The blocks gathered for a ring enter it, each one item (R315). -/
def State.closeRing (s : State) (p : Port) (flushed : Bool) : State :=
  let g := s.ringCoders[p]
  match g.rows with
  | [] => s
  | r :: _ =>
    let bs := codedBlocks g.product (s.histCoding p.val) (s.histQuality p.val == 1) (s.histFirst p.val) g.rows flushed g.lost
    let s := { s with ringCoders := s.ringCoders.set p { g with rows := [], lost := false } }
    let s := s.countBlocks p (s.histCoding p.val) flushed bs
    bs.foldl (fun s b => s.toRing (dasRing p) { bytes := b.2.bytes, index := r.j, time := r.time, rows := g.rows.map Row.bare }) s

/-- The next segment of a ring carries FLAGS[0]: the ring pauses (R315, R345). -/
def State.pauseRing (s : State) (ring : Fin 3) : State :=
  { s with mem := { s.mem with rings := upd s.mem.rings ring fun x => { x with lost := true } } }

/-- An output sample reaches a port's history ring (R315): as a frame, or in its coder's open blocks. -/
def State.ringRow (s : State) (p : Port) (product : Nat) (coarse : Bool) (o : Int) (row : Row) : State :=
  let row := row.cut product (s.histFirst p.val) (takeCount row.codes.length (s.histFirst p.val) (s.histCount p.val))
  if s.histCoding p.val = 0 then
    let b := dasValues product [row] ++ (if s.histQuality p.val = 1 then dasCodes [row] else [])
    s.toRing (dasRing p) { bytes := b, index := row.j, time := row.time, rows := [row.bare] }
  else if s.isShut 12 then
    let s := s.fencedFlits (flits (row.values.length * valueBytes product))
    { s.pauseRing (dasRing p) with ringCoders := upd s.ringCoders p fun g => { g with rows := [], lost := true } }
  else
    let g := s.ringCoders[p]
    let g := { g with port := p.val, product := product, coarse := coarse, rows := g.rows ++ [row], lastAt := s.now }
    let s := { s with ringCoders := s.ringCoders.set p g }
    if endsBlock o then s.closeRing p false else s

/-- An output sample leaves DEC for every consumer that takes it (R197). -/
def State.emitRow (s : State) (p : Port) (product : Nat) (coarse : Bool) (o : Int) (row : Row) : State :=
  let s := allRoutes.foldl (fun s r => if s.routeDas r p product coarse then s.routeRow r p product coarse o row else s) s
  if s.ringDas p product coarse then s.ringRow p product coarse o row else s

/-- Samples of a port that wait at their consumers leave at a fence (R198, R336). -/
def State.flushPort (s : State) (p : Port) : State :=
  let s := allRoutes.foldl (fun s r =>
    (s.routes[r].das.filter fun g => g.port == p.val).foldl (fun s g => s.closeGather r p g true) s) s
  s.closeRing p true

/-- Open blocks of every coded consumer are forgotten: CMP's domain is fenced (R345). -/
def State.dropCoders (s : State) : State :=
  let s := allRoutes.foldl (fun s r =>
    if s.routeCoding r = 0 then s
    else s.setRoute r fun x => { x with das := x.das.map fun g => { g with rows := [] } }) s
  { s with ringCoders := s.ringCoders.map fun g => { g with rows := [] } }

/-- CODER_FLUSH (R336): no sample has entered a coded consumer's open blocks for FLUSH_MS. -/
def execCoderFlush (dt : Nat) (c : Consumer) (s : State) : Host.Outcome State Fault Refusal :=
  let s := s.elapse dt
  match c with
  | .ring p =>
    if s.live && !s.isShut 12 && s.histCoding p.val != 0 && s.memFlushMs != 0 &&
        decide (s.ringCoders[p].lastAt + s.memFlushMs * msP ≤ s.now) then .next (s.closeRing p true)
    else .next s
  | .route r p product =>
    if s.live && !s.isShut 12 && s.routeCoding r != 0 && s.routeFlushMs r != 0 then
      .next ((s.routes[r].das.filter fun g => g.port == p.val && g.product == product &&
          decide (g.lastAt + s.routeFlushMs r * msP ≤ s.now)).foldl (fun s g => s.closeGather r p g true) s)
    else .next s

end Sys2Proof.Machine
end

