-- ==== Sys2Proof/Machine/Budget.lean ====
section
/-! DEFINITION. What the loader computes of a programme before it loads it: the admission check (R76 to R84, R97, R99), the
real-time load (R309) and the route loads (R350). Every function reads a state whose image is the candidate. -/

namespace Sys2Proof.Machine

/-! ## Admission (R84) -/

/-- One band meets R76 for a pleat count; edges in 0.125 MHz. -/
def bandOk (pleats : Nat) (b : Int × Nat) : Bool :=
  let lo := 2 * b.1 - b.2
  let hi := 2 * b.1 + b.2
  decide (-380 ≤ b.1) && decide (b.1 ≤ 380) && decide (80 ≤ b.2) && decide (b.2 * pleats ≤ 760) &&
    decide (-784 ≤ lo) && decide (hi ≤ 784) && (pleats == 1 || decide (hi < 0) || decide (0 < lo))

/-- Any two bands are 2.00 MHz apart (R76). -/
def bandsApart : List (Int × Nat) → Bool
  | [] => true
  | b :: t =>
    (t.all fun c => decide (2 * b.1 + b.2 + 16 ≤ 2 * c.1 - c.2) || decide (2 * c.1 + c.2 + 16 ≤ 2 * b.1 - b.2)) && bandsApart t

/-- A launch of a group: start and duration in 1.25 ns, peak in 0.5 dBm. -/
structure Slot125 where
  start : Nat
  dur : Nat
  peak : Nat
deriving DecidableEq, Repr

/-- Put a launch into a list sorted by start. -/
def insertSlot (x : Slot125) : List Slot125 → List Slot125
  | [] => [x]
  | y :: t => if x.start ≤ y.start then x :: y :: t else y :: insertSlot x t

/-- Offset of the temperature shot from its group start, 1.25 ns (R82). -/
def State.tsStart125 (s : State) (p : Port) : Nat :=
  if s.tsOffset p ≠ 0 then 2 * s.tsOffset p
  else if s.pleats p = 0 then 0 else (s.pulse125 p + 161) / 2 * 2

/-- The launches of a group that carries a temperature shot, by start (R74, R82). -/
def State.groupSlots (s : State) (p : Port) : List Slot125 :=
  let vib := (List.range (s.pleats p)).map fun k =>
    (⟨k * (s.period10 p * 8) / s.pleats p, s.pulse125 p, (s.peakSet p).toNat⟩ : Slot125)
  if s.tsEvery p = 0 then vib else insertSlot ⟨s.tsStart125 p, 8, (s.tsPeakSet p).toNat⟩ vib

/-- Every launch ends 200 ns before the next begins, counted cyclically over a period (R83). -/
def spaced (period : Nat) (l : List Slot125) : Bool :=
  (l.zip (l.tail ++ (l.head?.map fun x => { x with start := x.start + period }).toList)).all fun e =>
    decide (e.1.start + e.1.dur + 160 ≤ e.2.start)

/-- The largest number below 2^`bits` whose 20th power is at most `v`, not below `r`. -/
def root20 (v : Nat) : Nat → Nat → Nat
  | 0, r => r
  | k + 1, r => if (r + 2 ^ k) ^ 20 ≤ v then root20 v k (r + 2 ^ k) else root20 v k r

/-- A power of 0.5 dBm steps in 10⁻³⁰ mW, rounded down. -/
def milliwatts (peak : Nat) : Nat := root20 (10 ^ (600 + peak)) 110 0

/-- Mean launch power over the group is at most 10.0 mW (R50). -/
def meanOk (period : Nat) (l : List Slot125) : Bool :=
  decide ((l.map fun x => milliwatts x.peak * x.dur).sum ≤ 10 * 10 ^ 30 * period)

/-- TRIGGER holds its zero or default values where MODE is 0 (R99). -/
def State.triggerOk (s : State) (p : Port) : Bool :=
  s.trigMode p != 0 || (s.trigEdge p == 0 && s.queueOne p == 0 && (s.deglitch p == 0 || s.deglitch p == 2) &&
    s.prescale p == 1 && s.trigDelay p == 0 && s.trigTimeoutMs p == 0)

/-- The link rules of R97. -/
def State.linkOk (s : State) : Bool :=
  (s.shotRec 0).isSome && s.period10 0 == s.period10 1 && decide (s.linkOffset 1 < 4 * s.period10 1) && s.trigMode 1 == 0

/-- The steps of R84 that follow once the pulse is known to be fit. -/
def State.admitShots (s : State) (p : Port) : Nat :=
  let period := s.period10 p * 8
  let l := s.groupSlots p
  if s.tsEvery p ≠ 0 ∧ period ≤ s.tsStart125 p then 7
  else if !spaced period l then 7
  else if !meanOk period l then 8
  else if !s.triggerOk p then 9
  else if s.linkedTo0 p && !s.linkOk then 10
  else 0

/-- The admission check of R84: a code of Table 3.4. Log entry 19, DEDUCED; log entry 20, DEDUCED. -/
def State.admission (s : State) (p : Port) : Nat :=
  let bands := s.pleatBands p
  let w := narrowest bands
  if (s.shotRec p).isNone then
    if (s.pleatRec p).isSome || (s.pulseRec p).isSome || (s.trigRec p).isSome then 1 else 0
  else if s.pleats p ∉ [0, 1, 2, 4] then 2
  else if s.pleats p = 0 ∧ s.tsEvery p = 0 then (if (s.pleatRec p).isSome || (s.pulseRec p).isSome then 1 else 0)
  else if s.period10 p * 10000 < s.tRt p + s.minGuard p * 10000 then 3
  else if s.pleats p = 0 then s.admitShots p
  else if (s.pulseRec p).isNone then 1
  else if !(bands.all (bandOk (s.pleats p)) && bandsApart bands) then 4
  else if (if s.chirpLength p ≠ 0 then decide (w < s.sweep p) else decide (s.rectWidth p * w < 6080)) then 5
  else if s.selfSupplied p && s.tsEvery p != 0 then 6
  else s.admitShots p

/-! ## Rates and loads, bytes per second -/

/-- Acoustic samples per second of a port at its admitted rate. -/
def State.acousticRate (s : State) (p : Port) : Rat := if s.hasDas p then (s.pleats p * 100000000 : Nat) / (s.period10 p : Rat) else 0

/-- Output samples per second on a path (R190, R191). -/
def State.outputRate (s : State) (p : Port) (coarse : Bool) : Rat :=
  s.acousticRate p / (2 ^ (if coarse then s.coarseFactor p else s.decFactor p) : Nat)

/-- Bytes of a block, header and codes included, lossless at its largest (Tables 11.9 and 11.10). -/
def blockBytes (product coding : Nat) (quality : Bool) : Nat :=
  let wide := product == 1
  32 + (match coding with
    | 1 => if wide then 16464 else 8256
    | 2 => if wide then 8192 else 4096
    | 3 => if wide then 5440 else 2720
    | _ => if wide then 4096 else 2048) + (if quality then 2048 else 0)

/-- Bytes of the records that carry `n` points whose payload of a run has a size (R328). -/
def cutBytes (size : Nat → Nat) (limit n : Nat) : Nat :=
  ((cutRuns (mostPoints size (limit - 36) n) n 0 n).map fun c => 36 + size c.2).sum

/-- Bytes of the records that carry `n` blocks of one size (R343). -/
def blockRecords (size limit n : Nat) : Nat :=
  let room := limit - 92
  if size ≤ room then n * size + (n + room / size - 1) / (room / size) * 92
  else n * (size + (size + room - 1) / room * 92)

/-- Record bytes per second of one DAS product of a port on a route. -/
def State.routeDasLoad (s : State) (r : RouteId) (p : Port) (product : Nat) : Rat :=
  let coarse := s.routeSource r == 1
  let quality := s.routeQuality r == 1
  let limit := s.recordLimit r
  let n := takeCount (s.nPoints p) (s.routeFirst r) (s.routeCount r)
  let rate := s.outputRate p coarse
  if s.routeCoding r ≠ 0 then
    let set := blockRecords (blockBytes product (s.routeCoding r) quality) limit ((n + 255) / 256)
    if s.irregular p then rate * set else rate * set / 16
  else
    let k := if s.irregular p then 1 else s.decSamples p
    rate * (cutBytes (dasSize product quality k) limit n : Nat) / (k : Nat)

/-- Products that a route carries by its TYPES and PHASE_PRODUCT. -/
def State.routeProducts (s : State) (r : RouteId) : List Nat :=
  (if bitOf (s.routeTypes r) 0 then (match s.routeProduct r with | 0 => [0] | 1 => [1] | _ => [0, 1]) else []) ++
    (if bitOf (s.routeTypes r) 1 then [2] else [])

/-- Record bytes per second of DAS_RAW on a route (R196). -/
def State.routeRawLoad (s : State) (r : RouteId) (p : Port) : Rat :=
  let n := min (s.rawCount p) (s.nPoints p - s.rawFirst p)
  s.acousticRate p * (cutBytes (dasSize 3 (s.routeQuality r == 1) 1) (s.recordLimit r) n : Nat) / (s.rawEvery p : Nat)

/-- Bytes per second of the shot tags of a port: records close when full or 10 ms after their first entry (R334). -/
def State.tagLoad (s : State) (p : Port) (limit : Nat) : Rat :=
  if s.portLaunches p then
    let groups : Rat := 100000000 / (s.period10 p : Rat)
    let shots := groups * s.pleats p + (if s.tsEvery p = 0 then 0 else groups / s.tsEvery p)
    shots * 24 + max (shots / tagsPerRecord limit) (min shots 100) * 44
  else 0

/-- Bytes per second of the temperature records of a port and its shot tags: which of DTS_PROFILE, DTS_RAW, DAS_STRAIN_LF and
TIMING, and the points of DAS_STRAIN_LF carried. -/
def State.slowLoad (s : State) (p : Port) (prof raw lf tags : Bool) (lfPoints limit : Nat) : Rat :=
  let nt := pointsWithin (s.reach p) (s.groupIndex p) 2
  let every : Rat := (s.dtsInterval p : Rat)
  (if s.hasRaman p then
    (if prof then (cutBytes (dtsSize 2) limit nt : Rat) / every else 0) +
    (if raw && s.dtsRawEvery p != 0 then (cutBytes (dtsSize 8) limit nt : Rat) / (every * s.dtsRawEvery p) else 0) +
    (if lf && s.hasDas p && s.lfEnable p == 1 then (cutBytes (dtsSize 4) limit lfPoints : Rat) / every else 0)
  else 0) + (if tags then s.tagLoad p limit else 0)

/-- The route load (R350). Log entry 21, DEDUCED. -/
def State.routeLoad (s : State) (r : RouteId) : Rat :=
  let t := s.routeTypes r
  let limit := s.recordLimit r
  let ports := bothPorts.filter fun p => bitOf (s.routePorts r) p.val
  (ports.map fun p =>
    (if s.hasDas p then
      ((s.routeProducts r).map (s.routeDasLoad r p)).sum + (if bitOf t 3 then s.routeRawLoad r p else 0)
    else 0) +
    s.slowLoad p (bitOf t 4) (bitOf t 5) (bitOf t 2) (bitOf t 10)
      (takeCount (s.nPoints p) (s.routeFirst r) (s.routeCount r)) limit).sum +
  (if s.heartbeatMs r = 0 then 0 else (36000 : Rat) / s.heartbeatMs r) +
  (if s.housekeepingMs r = 0 then 0 else (100000 : Rat) / s.housekeepingMs r)

/-- Lane capacity, UDP payload bytes per second (Table 11.14). -/
def State.laneCapacity (s : State) (l : Lane) : Nat :=
  match fieldOr (s.ethRec l) 1 1 1, s.ethMtu l with
  | 0, 0 => 1196000000
  | 0, _ => 1241000000
  | _, 0 => 2991000000
  | _, _ => 3102000000

/-- Product bytes per second of a ring (R309). -/
def State.ringLoad (s : State) (ring : Nat) : Rat :=
  if s.histSizeMiB ring = 0 ∨ ring = 3 then 0
  else if ring = 2 then
    let m := s.recordMask
    (bothPorts.map fun p =>
      s.slowLoad p (bitOf m 0) (bitOf m 1) (bitOf m 2) (bitOf m 6) (s.nPoints p) ringRecordLimit).sum +
      (if m / 8 % 16 = 0 then 0 else 4000000)
  else
    let p : Port := if ring = 0 then 0 else 1
    let quality := s.histQuality ring == 1
    let product := s.histProduct ring
    let n := takeCount (s.nPoints p) (s.histFirst ring) (s.histCount ring)
    let rate := s.outputRate p (s.histSource ring == 1)
    if s.histCoding ring ≠ 0 then rate * ((n + 255) / 256 * blockBytes product (s.histCoding ring) quality : Nat) / 16
    else rate * (dasSize product quality 1 n - 56 : Nat)

/-- The real-time load of the rings up to and with one, in bytes per second (R309). Log entry 21, DEDUCED. -/
def State.realTimeLoad (s : State) (ring : Nat) : Rat := ((List.range (ring + 1)).map s.ringLoad).sum * 4160 / 4032

/-- Peak rate of the memory, bytes per second: 64 bits at two transfers per CK_DDR period (Table 4.3). -/
def State.memPeak (s : State) : Nat := s.ddrClock * 160000000

/-- DRAM capacity in GiB (Table 10.1). -/
def State.capacityGiB (s : State) : Nat := s.memRanks * s.memDensity * 8 / max 1 s.memWidth

end Sys2Proof.Machine
end

