-- ==== Sys2Proof/Machine/Crypto.lean ====
section
/-! DEFINITION. SHA-256 (FIPS 180-4) and ECDSA verification on P-256 (FIPS 186-4), which R369, R377 and R378 name without giving
their constants: they are those of the standards (log entry 8); those of SHA-256 are computed from the primes. -/

namespace Sys2Proof.Machine

/-! ## SHA-256 -/

/-- The largest r below `r₀ + 2 ^ bits` with rᵏ ≤ n, found bit by bit from r₀. -/
def rootFrom (k n : Nat) : Nat → Nat → Nat
  | 0, r => r
  | bits + 1, r => rootFrom k n bits (if (r + 2 ^ bits) ^ k ≤ n then r + 2 ^ bits else r)

/-- The first 32 bits of the fraction of the k-th root of `q`. -/
def rootFraction (k q : Nat) : U32 := BitVec.ofNat 32 (rootFrom k (q * 2 ^ (32 * k)) 37 0)

/-- The 64 primes up to 311. -/
def shaPrimes : List Nat := (List.range 312).filter fun q => 2 ≤ q && (List.range q).all fun d => d < 2 || q % d ≠ 0

/-- The word of each round: the fraction of the cube root of its prime. -/
def shaTable : List U32 := shaPrimes.map (rootFraction 3)

/-- The value before the first block: the fractions of the square roots of the first eight primes. -/
def shaStart : List U32 := (shaPrimes.take 8).map (rootFraction 2)

/-- The exclusive or of a word turned right by each distance. -/
def turns (w : U32) (by_ : List Nat) : U32 := by_.foldl (fun x n => x ^^^ w.rotateRight n) 0

/-- The eight working words after a round that adds `kw`, the round's constant and schedule word. -/
def shaRound (v : List U32) (kw : U32) : List U32 :=
  match v with
  | [a, b, c, d, e, f, g, h] =>
    let mix := h + kw + turns e [6, 11, 25] + (g ^^^ (e &&& (f ^^^ g)))
    [mix + turns a [2, 13, 22] + ((a &&& b) ||| (c &&& (a ||| b))), a, b, c, d + mix, e, f, g]
  | _ => v

/-- The schedule of a block after `n` more words, newest word first. -/
def shaSchedule (ws : List U32) : Nat → List U32
  | 0 => ws
  | n + 1 =>
    let past := shaSchedule ws n
    let back := fun k => past.getD (k - 1) 0
    (back 16 + back 7 + (turns (back 15) [7, 18] ^^^ back 15 >>> 3) + (turns (back 2) [17, 19] ^^^ back 2 >>> 10)) :: past

/-- The chaining value after a block of 64 bytes. -/
def shaBlock (v : List U32) (block : List Byte) : List U32 :=
  let ws := (List.range 16).map fun i => BitVec.ofNat 32 (beNat (slice block (60 - 4 * i) 4))
  let sums := List.zipWith (· + ·) shaTable (shaSchedule ws 48).reverse
  List.zipWith (· + ·) v (sums.foldl shaRound v)

/-- SHA-256 of bytes: a one bit, zeros and the length in bits fill the last block. Log entry 8, PRESUMED. -/
def sha256 (bs : List Byte) : List Byte :=
  let blocks := (bs.length + 72) / 64
  let message := bs ++ 0x80#8 :: List.replicate (64 * blocks - 9 - bs.length) 0 ++ be 8 (8 * bs.length)
  let last := (List.range blocks).foldl (fun st _ => (shaBlock st.1 (st.2.take 64), st.2.drop 64)) (shaStart, message)
  last.1.flatMap fun w => be 4 w.toNat

/-! ## P-256 -/

/-- The prime of the field, the coefficient b, the base point and its order. -/
def p256p : Nat := 0xffffffff00000001000000000000000000000000ffffffffffffffffffffffff
def p256b : Nat := 0x5ac635d8aa3a93e7b3ebbd55769886bc651d06b0cc53b0f63bce3c3e27d2604b
def p256x : Nat := 0x6b17d1f2e12c4247f8bce6e563a440f277037d812deb33a0f4a13945d898c296
def p256y : Nat := 0x4fe342e2fe1a7f9b8ee7eb4a7c0f9e162bce33576b315ececbb6406837bf51f5
def p256n : Nat := 0xffffffff00000000ffffffffffffffffbce6faada7179e84f3b9cac2fc632551

/-- `b` to the power of a number below 2^`fuel`, modulo `m`. -/
def powMod (m b : Nat) : Nat → Nat → Nat
  | 0, _ => 1 % m
  | fuel + 1, e =>
    let h := powMod m b fuel (e / 2)
    if e % 2 = 1 then h * h % m * b % m else h * h % m

/-- The inverse modulo a prime. -/
def invMod (m a : Nat) : Nat := powMod m (a % m) 256 (m - 2)

/-- The sum of two points of the curve; `none` is the point at infinity. -/
def ecAdd : Option (Nat × Nat) → Option (Nat × Nat) → Option (Nat × Nat)
  | none, q => q
  | p, none => p
  | some (x1, y1), some (x2, y2) =>
    if x1 = x2 ∧ (y1 + y2) % p256p = 0 then none
    else
      let l := if x1 = x2 then (3 * x1 * x1 + (p256p - 3)) * invMod p256p (2 * y1) % p256p
        else (y2 + (p256p - y1)) * invMod p256p (x2 + (p256p - x1)) % p256p
      let x := (l * l + (p256p - x1) + (p256p - x2)) % p256p
      some (x, (l * (x1 + (p256p - x)) + (p256p - y1)) % p256p)

/-- A multiple below 2^`fuel` of a point. -/
def ecMul (q : Option (Nat × Nat)) : Nat → Nat → Option (Nat × Nat)
  | 0, _ => none
  | fuel + 1, k =>
    let h := ecMul q fuel (k / 2)
    let d := ecAdd h h
    if k % 2 = 1 then ecAdd d q else d

/-- The point lies on the curve. -/
def onP256 (x y : Nat) : Bool :=
  decide (x < p256p) && decide (y < p256p) && decide (y * y % p256p = (x * x * x + (p256p - 3) * x + p256b) % p256p)

/-- The signature is valid (R377): of the digest that was signed, the public key and the signature. The message is the digest and
the hash is SHA-256, so e is the SHA-256 of the digest. Log entry 8, PRESUMED. -/
def ecdsaValid (digest key sigR sigS : List Byte) : Bool :=
  let x := beNat (key.take 32)
  let y := beNat ((key.drop 32).take 32)
  let r := beNat sigR
  let s := beNat sigS
  onP256 x y && decide (1 ≤ r) && decide (r < p256n) && decide (1 ≤ s) && decide (s < p256n) &&
    (let e := beNat (sha256 digest)
     let w := powMod p256n s 256 (p256n - 2)
     match ecAdd (ecMul (some (p256x, p256y)) 256 (e * w % p256n)) (ecMul (some (x, y)) 256 (r * w % p256n)) with
     | some (px, _) => decide (px % p256n = r)
     | none => false)

end Sys2Proof.Machine
end

