-- ==== Sys2Proof/Machine/Image.lean ====
section
/-! DEFINITION. What one record of a configuration image must hold: the header of the image (Table 12.3), its framing (R370 to
R373), and the length and the fields of each record type (R371, Tables 2.11 to 14.11). A field check is an offset in the payload
and whether the field there meets its table. -/

namespace Sys2Proof.Machine

/-- Bytes from an offset are all zero. -/
def zeroAt (b : List Byte) (off n : Nat) : Bool := fieldAt b off n == 0

/-- An unsigned field of `n` bytes lies in a range. -/
def inRange (b : List Byte) (off n lo hi : Nat) : Nat × Bool :=
  (off, decide (lo ≤ fieldAt b off n) && decide (fieldAt b off n ≤ hi))

/-- A signed field of `n` bytes lies in a range. -/
def inSigned (b : List Byte) (off n : Nat) (lo hi : Int) : Nat × Bool :=
  (off, decide (lo ≤ sfieldAt b off n) && decide (sfieldAt b off n ≤ hi))

/-- An unsigned field is zero or lies in a range. -/
def zeroOr (b : List Byte) (off n lo hi : Nat) : Nat × Bool :=
  (off, zeroAt b off n || (inRange b off n lo hi).2)

/-- A reserved field is zero. -/
def reserved (b : List Byte) (off n : Nat) : Nat × Bool := (off, zeroAt b off n)

/-- A binary32 field is finite. -/
def finite32 (b : List Byte) (off : Nat) : Nat × Bool := (off, fieldAt b off 4 / 2 ^ 23 % 256 != 255)

/-! ## Image header (Table 12.3) -/

/-- Codes 1 to 3 of Table 12.9 on a 64-byte header; 0 when it passes them. -/
def checkHeader (h : List Byte) : Nat :=
  let len := fieldAt h 8 4
  let body := fieldAt h 24 4
  if fieldAt h 0 4 ≠ 0x4643585A ∨ fieldAt h 4 2 ≠ 1 ∨ fieldAt h 6 2 ≠ 64 then 1
  else if fieldAt h 60 4 ≠ (crc32c (h.take 60)).toNat then 2
  else if len < 228 ∨ 1048576 < len ∨ len % 4 ≠ 0 ∨ fieldAt h 12 4 = 0 ∨ fieldAt h 12 4 = 0xFFFFFFFF ∨
      fieldAt h 16 2 ≠ 0x4820 ∨ 1 < fieldAt h 18 2 ∨ fieldAt h 20 4 = 0 ∨
      body % 4 ≠ 0 ∨ body < 184 ∨ len < body + 44 ∨ !zeroAt h 28 32 then 3
  else 0

/-! ## Framing (R370 to R373) -/

/-- A framed record and the CRC it carries. -/
structure Framed where
  body : ImgRec
  crc : Nat
deriving DecidableEq, Repr

/-- The CRC of a framed record matches (R370). -/
def Framed.crcOk (f : Framed) : Bool :=
  f.crc == (crc32c (le 2 f.body.typ ++ le 1 f.body.version ++ le 1 f.body.flags ++ le 4 f.body.payload.length ++ f.body.payload)).toNat

/-- The records from an offset to END, or the offset and type of the first that fails framing (code 4). -/
def frames (b : List Byte) (len : Nat) : Nat → Nat → Except (Nat × Nat) (List Framed)
  | 0, off => .error (off, 0)
  | fuel + 1, off =>
    let typ := fieldAt b off 2
    let version := fieldAt b (off + 2) 1
    let flags := fieldAt b (off + 3) 1
    let n := fieldAt b (off + 4) 4
    if len < off + 8 then .error (off, 0)
    else if typ = 0 ∨ 1 < flags ∨ n % 4 ≠ 0 ∨ len < off + 12 + n then .error (off, typ)
    else
      let f : Framed := ⟨{ typ := typ, version := version, flags := flags, offset := off, payload := slice b (off + 8) n },
        fieldAt b (off + 8 + n) 4⟩
      if typ = 0xFFFF then
        if version = 1 ∧ flags = 0 ∧ n = 32 ∧ off + 44 = len then .ok [f] else .error (off, typ)
      else
        match frames b len fuel (off + 12 + n) with
        | .ok rest => .ok (f :: rest)
        | .error e => .error e

/-! ## Types, lengths and keys (R371, R372, Table 12.5) -/

/-- The types of Table 12.5 with one payload length. -/
def fixedLengths : List (Nat × Nat) :=
  [(0x0010, 88), (0x0020, 16), (0x0021, 12), (0x0030, 8), (0x0031, 20), (0x0040, 24), (0x0041, 20), (0x0042, 8),
   (0x0043, 16), (0x0050, 28), (0x0051, 4), (0x0060, 28), (0x0061, 72), (0x0062, 32), (0x0071, 28)] ++
  [(0x0080, 28), (0x0081, 84), (0x0082, 28), (0x0090, 4), (0x00A0, 28), (0x00A1, 32), (0x00A2, 12), (0x00B0, 1128),
   (0x00B1, 516), (0x00C0, 16), (0x00C1, 32), (0x00D0, 16), (0x00F0, 132), (0xFFFF, 32)]

/-- The payload length a record must have; none for a type that is not in Table 12.5. -/
def lengthOf (typ : Nat) (b : List Byte) : Option Nat :=
  if typ = 0x0070 then some (8 + 16 * fieldAt b 2 2)
  else if typ = 0x0072 then some (8 + 8 * fieldAt b 6 2)
  else (fixedLengths.find? fun e => e.1 == typ).map (·.2)

/-- The loader understands a record (R372). -/
def ImgRec.known (r : ImgRec) : Bool := r.version == 1 && (lengthOf r.typ r.payload).isSome

/-- Bytes of the payload that tell records of one type apart (Table 12.5). -/
def keyLength (typ : Nat) : Nat :=
  if typ = 0x0071 then 2
  else if typ ∈ [0x0010, 0x0021, 0x0030, 0x0031, 0x0080, 0x00A2, 0x00B0, 0x00C0, 0x00C1, 0x00D0, 0x00F0, 0xFFFF] then 0
  else 1

/-- What a record may appear once for. -/
def ImgRec.key (r : ImgRec) : Nat × List Byte := (r.typ, r.payload.take (keyLength r.typ))

/-! ## Fields -/

/-- IMAGE_INFO (Table 12.6): MIN_REV has every value in range. -/
def fieldsImageInfo (b : List Byte) : List (Nat × Bool) :=
  let label := (slice b 56 32).map (·.toNat)
  let text := label.takeWhile fun c => decide (0x20 ≤ c) && decide (c ≤ 0x7E)
  [inRange b 22 1 0 1, inRange b 23 1 0 15, (24, (fieldAt b 22 1 == 1) != zeroAt b 24 32),
   (56, (label.drop text.length).all (· == 0))]

/-- FIBRE (Table 12.7). -/
def fieldsFibre (b : List Byte) : List (Nat × Bool) :=
  [inRange b 0 1 0 1, reserved b 1 3, inRange b 4 4 100 87700, inRange b 8 2 14000 15000, reserved b 10 2,
   inSigned b 12 4 (-10000000) 10000000]

/-- OPTICAL (Table 2.11). -/
def fieldsOptical (b : List Byte) : List (Nat × Bool) :=
  [inRange b 0 1 0 100, inRange b 1 2 2500 4500, inSigned b 3 1 12 42, inSigned b 4 1 12 42, inSigned b 5 1 12 42,
   inSigned b 6 1 12 42, inRange b 7 1 0 2, inRange b 8 1 0 2, inRange b 9 1 0 15, reserved b 10 2]

/-- REF_FREQ and QSPI_DIV lie in the range of Table 4.12 (R382). -/
def clockRangesOk (b : List Byte) : Bool := (inRange b 0 1 0 1).2 && (inRange b 1 1 1 8).2

/-- CLOCKS (Table 4.12). -/
def fieldsClocks (b : List Byte) : List (Nat × Bool) :=
  [inRange b 0 1 0 1, inRange b 1 1 1 8, (2, (inRange b 2 2 120 160).2 || (inRange b 2 2 200 280).2), inRange b 4 2 0 3600,
   reserved b 6 2]

/-- TIMEBASE (Table 4.13). -/
def fieldsTimebase (b : List Byte) : List (Nat × Bool) :=
  [inRange b 0 1 0 1, inRange b 1 1 0 1, inRange b 2 1 0 2, inRange b 3 1 0 2, inRange b 4 1 0 2, inRange b 5 1 0 1,
   inRange b 6 1 1 65, reserved b 7 1, inRange b 8 2 0 500, inRange b 10 2 10 1000, inRange b 12 4 100 1000000000,
   inSigned b 16 4 (-1000000) 1000000]

/-- SHOT_PROGRAM (Table 3.9); LINK 1 in the record of P0 is outside the range (R97). -/
def fieldsShot (b : List Byte) : List (Nat × Bool) :=
  let last := 4 * fieldAt b 4 4 - 1
  [inRange b 0 1 0 1, (1, (fieldAt b 1 1) ∈ [0, 1, 2, 4]), inRange b 2 1 0 64, inRange b 3 1 0 (min 1 (fieldAt b 0 1)),
   inRange b 4 4 600 100000000, inRange b 8 2 500 65535, inRange b 10 1 0 1, reserved b 11 1, inRange b 12 4 0 last,
   inRange b 16 4 0 last, inRange b 20 4 0 last]

/-- PLEAT (Table 3.12); what depends on the pleat count is left to rows 6 and to admission. -/
def fieldsPleat (b : List Byte) : List (Nat × Bool) :=
  [inRange b 0 1 0 1, reserved b 1 3] ++ ((List.range 4).map fun k => inSigned b (4 + 2 * k) 2 (-380) 380) ++
    (List.range 4).map fun k => zeroOr b (12 + 2 * k) 2 80 760

/-- PULSE_SHAPE (Table 3.11). -/
def fieldsPulse (b : List Byte) : List (Nat × Bool) :=
  let chirp := fieldAt b 2 2 != 0
  [inRange b 0 1 0 1, inRange b 1 1 0 1, zeroOr b 2 2 160 3200, if chirp then inRange b 4 2 80 760 else reserved b 4 2,
   if chirp then reserved b 6 2 else inRange b 6 2 8 800]

/-- TRIGGER (Table 3.10). -/
def fieldsTrigger (b : List Byte) : List (Nat × Bool) :=
  [inRange b 0 1 0 1, inRange b 1 1 0 2, inRange b 2 1 0 1, inRange b 3 1 0 1, reserved b 5 1, inRange b 6 2 1 65535,
   inRange b 8 4 0 4000000, inRange b 12 2 0 60000, reserved b 14 2]

/-- PHASE (Table 6.10); what depends on N_p is row 6. -/
def fieldsPhase (b : List Byte) : List (Nat × Bool) :=
  [inRange b 0 1 0 1, inRange b 1 1 0 2, inRange b 2 1 0 80, reserved b 3 1, inRange b 4 2 2 200, inRange b 6 2 8192 16384,
   inRange b 8 2 16 4096, reserved b 10 2, zeroOr b 16 4 64 16384, inRange b 24 2 0 2048, inRange b 26 2 1 65535]

/-- DECIMATION (Table 6.11). -/
def fieldsDecimation (b : List Byte) : List (Nat × Bool) :=
  [inRange b 0 1 0 1, inRange b 1 1 0 10, inRange b 2 1 0 10, inRange b 3 1 1 16]

/-- DTS (Table 7.13); every bias lies from 10.0 V to 24.0 V (R202). -/
def fieldsDts (b : List Byte) : List (Nat × Bool) :=
  let bias := fun (off : Nat) => decide (1000 * 32768 ≤ fieldAt b 4 2 * fieldAt b off 2) &&
    decide (fieldAt b 4 2 * fieldAt b off 2 ≤ 2400 * 32768)
  [inRange b 0 1 0 1, inRange b 1 1 0 3, inRange b 2 1 0 3, inRange b 3 1 0 1, inRange b 4 2 1000 2400,
   (6, (inRange b 6 2 16384 32768).2 && bias 6), (8, (inRange b 8 2 16384 32768).2 && bias 8), inRange b 10 2 10 3600,
   inSigned b 12 2 (-30000) 30000, inRange b 14 1 0 1, inRange b 15 1 1 64, inRange b 16 2 0 3600, inRange b 18 2 0 1000,
   inRange b 20 2 0 2000, inRange b 22 2 14000 15000, inRange b 24 2 5000 9000, reserved b 26 2]

/-- DTS_POLY (Table 7.14); a negative zero is zero. -/
def fieldsPoly (b : List Byte) : List (Nat × Bool) :=
  [inRange b 0 1 0 1, reserved b 1 3, finite32 b 4, (8, (finite32 b 8).2 && fieldAt b 8 4 % 2 ^ 31 != 0)] ++
    (List.range 15).map fun k => finite32 b (12 + 4 * k)

/-- REF_INPUT (Table 7.15): 2,000 and 100,000 as binary32; what depends on N_t is row 7. -/
def fieldsRefInput (b : List Byte) : List (Nat × Bool) :=
  [inRange b 0 1 0 3, inRange b 1 1 0 1, inRange b 2 1 0 2, reserved b 3 1,
   (8, decide (64 ≤ fieldAt b 8 4) || (zeroAt b 8 4 && fieldAt b 2 1 == 2)), inRange b 12 4 0x44FA0000 0x47C35000,
   finite32 b 16, finite32 b 20, finite32 b 24, inSigned b 28 2 (-1000) 1000, reserved b 30 2]

/-- ZONE (Tables 8.5 and 8.6); zone IDs are unique within the port (R242). -/
def fieldsZone (b : List Byte) : List (Nat × Bool) :=
  let ids := fun (n : Nat) => (List.range n).map fun k => fieldAt b (8 + 16 * k) 2
  [inRange b 0 1 0 1, reserved b 1 1, inRange b 2 2 0 4096, inRange b 4 2 0 4096, reserved b 6 2] ++
    (List.range (fieldAt b 2 2)).flatMap fun k =>
      let e := 8 + 16 * k
      [(e, decide (fieldAt b e 2 ≤ 4095) && !(ids k).contains (fieldAt b e 2)), (e + 8, !zeroAt b (e + 8) 4),
       reserved b (e + 12) 4]

/-- DETECTOR (Table 8.7). -/
def fieldsDetector (b : List Byte) : List (Nat × Bool) :=
  let rate := fieldAt b 2 1 == 1
  [inRange b 0 1 0 1, inRange b 1 1 0 15, inRange b 2 1 0 1, inRange b 3 1 4 14, inRange b 4 2 0 (if rate then 0 else 511),
   inRange b 6 2 (if rate then 512 else fieldAt b 4 2 + 1) 512, inRange b 8 4 0 (if rate then 10000000 else 1500),
   inRange b 12 4 0 (fieldAt b 8 4), inRange b 16 2 1 65535, inRange b 18 1 0 100, inRange b 19 1 1 255, inRange b 20 1 1 255,
   inRange b 21 1 0 64, inRange b 22 1 0 64, reserved b 23 1, inRange b 24 2 0 1024, reserved b 26 2]

/-- ALARM_MAP (Table 8.8). -/
def fieldsAlarm (b : List Byte) : List (Nat × Bool) :=
  [inRange b 0 1 0 3, inRange b 1 1 0 1, inRange b 2 1 0 2, reserved b 3 1, inRange b 4 2 0 60000, inRange b 6 2 0 256] ++
    (List.range (fieldAt b 6 2)).flatMap fun k =>
      let e := 8 + 8 * k
      let break_ := fieldAt b (e + 1) 1 == 1
      [inRange b e 1 0 1, inRange b (e + 1) 1 0 1, (e + 2, zeroAt b (e + 2) 2 == break_),
       inRange b (e + 4) 2 0 (if break_ then 0 else 4095),
       inRange b (e + 6) 2 (if break_ then 0 else fieldAt b (e + 4) 2) (if break_ then 0 else 4095)]

/-- MEMORY (Table 10.9). -/
def fieldsMemory (b : List Byte) : List (Nat × Bool) :=
  let ddr4 := fieldAt b 0 1 == 4
  [inRange b 0 1 4 5, inRange b 1 1 0 1, inRange b 2 1 1 2,
   (3, fieldAt b 3 1 == 8 || (ddr4 && fieldAt b 3 1 == 16)),
   (4, (if ddr4 then [8, 16] else [16, 24, 32]).contains (fieldAt b 4 1)), inRange b 5 1 0 2, inRange b 6 1 0 32,
   (7, !ddr4 || (inRange b 7 1 75 95).2), inRange b 8 1 0x18 0x1F, inRange b 9 1 0 1, inRange b 10 1 0 1, inRange b 11 1 0 1,
   reserved b 12 1, inRange b 13 2 0 60000, inRange b 15 2 1 10000, inRange b 17 2 1 10000, inRange b 19 1 0 168,
   reserved b 20 1, inRange b 21 2 0 60000, reserved b 23 5]

/-- DRAM_DELAY (Table 10.10); what depends on MEMORY is row 4. -/
def fieldsDelay (b : List Byte) : List (Nat × Bool) :=
  [inRange b 0 1 0 1, inRange b 1 1 0 160, inRange b 2 1 0 160, inRange b 3 1 0 160, inRange b 4 2 0 1023,
   inRange b 6 2 0 1023, reserved b 8 4] ++
    (List.range 36).map fun k => inRange b (12 + 2 * k) 2 0 1023

/-- HISTORY (Table 10.11); what depends on N_p is row 10. -/
def fieldsHistory (b : List Byte) : List (Nat × Bool) :=
  let das := fieldAt b 0 1 < 2
  let top := fun (n : Nat) => if das then n else 0
  let pool := fieldAt b 0 1 == 3
  [inRange b 0 1 0 3, inRange b 1 1 0 (top 2), inRange b 2 1 0 (top 1), inRange b 3 1 0 (top 4), inRange b 4 1 0 (top 1),
   reserved b 5 3, zeroOr b 16 4 16 65536, inRange b 20 4 0 0x7F,
   inRange b 24 2 (if pool then 1 else 0) (if pool then 3600 else 0), reserved b 26 2]

/-- COMPRESS (Table 11.12). -/
def fieldsCompress (b : List Byte) : List (Nat × Bool) :=
  [inRange b 0 1 0 1, inRange b 1 1 0 4, inRange b 2 1 0 7, inRange b 3 1 0 1]

/-- A unicast IPv4 address. -/
def unicast (ip : Nat) : Bool := ip != 0 && decide (ip / 2 ^ 28 < 14)

/-- A contiguous mask of 8 to 30 bits. -/
def maskOk (m : Nat) : Bool := (List.range 23).any fun k => m == 2 ^ 32 - 2 ^ (2 + k)

/-- ETHERNET (Table 11.20); addresses are in transmission order. -/
def fieldsEthernet (b : List Byte) : List (Nat × Bool) :=
  let ip := beNat (slice b 12 4)
  let mask := beNat (slice b 16 4)
  let gw := beNat (slice b 20 4)
  [inRange b 0 1 0 1, inRange b 1 1 0 1, inRange b 2 1 0 (1 + fieldAt b 1 1), inRange b 3 1 0 1,
   (4, fieldAt b 4 1 % 2 == 0), inRange b 10 1 0 1, reserved b 11 1, (12, unicast ip), (16, maskOk mask),
   (20, gw == 0 || gw &&& mask == ip &&& mask), inRange b 26 2 10 3600]

/-- STREAM_ROUTE (Table 11.21); what depends on other records is row 11. -/
def fieldsRoute (b : List Byte) : List (Nat × Bool) :=
  let ip := beNat (slice b 20 4)
  [inRange b 0 1 0 15, inRange b 1 1 0 1, inRange b 2 1 0 3, inRange b 3 1 0 63, inRange b 4 2 0 0x7FF, inRange b 6 1 0 2,
   inRange b 7 1 0 1, inRange b 8 1 0 4, inRange b 9 1 0 1, inRange b 10 2 0 60000,
   (20, ip != 0 && decide (ip / 2 ^ 28 ≤ 14)), inRange b 24 2 1 65535, inRange b 26 2 1 65535, inRange b 28 2 0 60000,
   zeroOr b 30 2 100 60000]

/-- PCIE (Table 11.19); the bound of BAR2_LOG2 by the DRAM capacity is judged with the record by `checkImage`. -/
def fieldsPcie (b : List Byte) : List (Nat × Bool) :=
  [inRange b 0 1 3 4, (1, [1, 2, 4].contains (fieldAt b 1 1)), zeroOr b 2 1 33 36, inRange b 3 1 0 1, inRange b 4 2 0 10000,
   reserved b 10 2]

/-- The largest ARG of a key function (Table 14.4) and of a pixel source (Table 14.5). -/
def keyArgTop (f : Nat) : Nat := match f with | 1 => 15 | 2 => 1 | _ => 0
def pixelArgTop (f : Nat) : Nat := if f ∈ [2, 4, 5, 6, 9] then 1 else if f = 3 then 3 else 0

/-- PANEL (Tables 14.9 and 14.10, R448). -/
def fieldsPanel (b : List Byte) : List (Nat × Bool) :=
  let sense := fieldAt b 33 1
  [inRange b 0 2 0 10000, inRange b 2 2 0 10000, inRange b 4 2 500 10000, zeroOr b 6 2 60 3600, inRange b 8 2 1000 10000,
   inRange b 10 1 5 255, inRange b 11 1 0 1] ++
  ((List.range 8).map fun k => inRange b (12 + k) 1 0 4) ++
  ((List.range 8).map fun k => inRange b (20 + k) 1 0 (keyArgTop (fieldAt b (12 + k) 1))) ++
  [inRange b 28 1 0 200, inRange b 29 1 0 200, inRange b 30 1 0 200, inRange b 31 1 0 32, zeroOr b 32 1 8 0x77,
   (33, sense == 255 || (decide (sense < 128) && !zeroAt b (102 + 8 * sense) 1)), inRange b 34 1 10 255, inRange b 35 1 0 4,
   reserved b 37 1] ++
  ((List.range 4).map fun k => (38 + 2 * k, decide (k < fieldAt b 35 1) || zeroAt b (38 + 2 * k) 2)) ++
  [zeroOr b 46 2 10 3600] ++
  ((List.range 128).flatMap fun k =>
    let e := 102 + 8 * k
    let zones := fieldAt b e 1 == 2
    [inRange b e 1 0 10, inRange b (e + 1) 1 0 (pixelArgTop (fieldAt b e 1)), inRange b (e + 3) 1 0 2,
     inRange b (e + 4) 2 0 (if zones then 4095 else 0),
     inRange b (e + 6) 2 (fieldAt b (e + 4) 2) (if zones then 4095 else 0)]) ++
  [reserved b 1126 2]

/-- PANEL_GAMMA (Table 14.11): entries do not fall. -/
def fieldsGamma (b : List Byte) : List (Nat × Bool) :=
  [inRange b 0 1 0 2, reserved b 1 3] ++
    (List.range 256).map fun k => inRange b (4 + 2 * k) 2 (if k = 0 then 0 else fieldAt b (2 + 2 * k) 2) 4095

/-- HEALTH (Table 13.12). -/
def fieldsHealth (b : List Byte) : List (Nat × Bool) :=
  [inRange b 0 1 0 2, inRange b 1 1 0 1, inRange b 2 1 0 15, reserved b 3 1, inRange b 4 2 10 60000, inRange b 8 2 10 10000,
   reserved b 10 2, inRange b 12 4 0 0xFFFFF]

/-- SUPERVISOR (Table 7.16). -/
def fieldsSupervisor (b : List Byte) : List (Nat × Bool) :=
  let n := fieldAt b 5 1
  [inRange b 0 1 0 1, inRange b 1 1 0 2, inRange b 2 1 0 1, inRange b 3 1 0 1, inRange b 4 1 1 100, inRange b 5 1 1 16,
   reserved b 6 2, zeroOr b 8 4 100 3600000, inRange b 12 4 0 (fieldAt b 8 4 - 1)] ++
    (List.range 16).map fun k => inRange b (16 + k) 1 0 (if k < n then 10 else 0)

/-- CALIBRATION (Table 5.11). -/
def fieldsCalibration (b : List Byte) : List (Nat × Bool) :=
  [inRange b 0 1 0 1, inRange b 1 1 0 32, inRange b 2 1 0 1, reserved b 3 1, inRange b 4 2 1 600, inRange b 6 2 8 4096,
   inRange b 8 4 65536 268435456, inRange b 12 1 2 64, inRange b 13 1 1 64, zeroOr b 14 1 5 100, reserved b 15 1]

/-- SIGNATURE (Table 12.8); the key and the signature are codes 8 and 9. -/
def fieldsSignature (b : List Byte) : List (Nat × Bool) := [inRange b 0 1 0 3, reserved b 1 3]

/-- The field checks of a record, in the order of its table (code 13). -/
def ImgRec.fields (r : ImgRec) : List (Nat × Bool) :=
  match r.typ with
  | 0x0010 => fieldsImageInfo r.payload
  | 0x0020 => fieldsFibre r.payload
  | 0x0021 => fieldsOptical r.payload
  | 0x0030 => fieldsClocks r.payload
  | 0x0031 => fieldsTimebase r.payload
  | 0x0040 => fieldsShot r.payload
  | 0x0041 => fieldsPleat r.payload
  | 0x0042 => fieldsPulse r.payload
  | 0x0043 => fieldsTrigger r.payload
  | 0x0050 => fieldsPhase r.payload
  | 0x0051 => fieldsDecimation r.payload
  | 0x0060 => fieldsDts r.payload
  | 0x0061 => fieldsPoly r.payload
  | 0x0062 => fieldsRefInput r.payload
  | 0x0070 => fieldsZone r.payload
  | 0x0071 => fieldsDetector r.payload
  | 0x0072 => fieldsAlarm r.payload
  | 0x0080 => fieldsMemory r.payload
  | 0x0081 => fieldsDelay r.payload
  | 0x0082 => fieldsHistory r.payload
  | 0x0090 => fieldsCompress r.payload
  | 0x00A0 => fieldsEthernet r.payload
  | 0x00A1 => fieldsRoute r.payload
  | 0x00A2 => fieldsPcie r.payload
  | 0x00B0 => fieldsPanel r.payload
  | 0x00B1 => fieldsGamma r.payload
  | 0x00C0 => fieldsHealth r.payload
  | 0x00C1 => fieldsSupervisor r.payload
  | 0x00D0 => fieldsCalibration r.payload
  | 0x00F0 => fieldsSignature r.payload
  | _ => []

end Sys2Proof.Machine
end

