-- ==== Sys2Proof/Machine/Loader.lean ====
section
/-! DEFINITION. The load checks of Table 12.9: a whole image against codes 4 to 17, in code order, stopping at the first failure
(R381). The checks across records (Table 12.11), admission and budgets read a state whose image is the candidate. -/

namespace Sys2Proof.Machine

/-- How a full check ends: 0 and the image, or the code with the place of the failure (R381). -/
structure LoadResult where
  code : Nat
  sub : Nat := 0
  typ : Nat := 0
  offset : Nat := 0
  field : U32 := 0xFFFFFFFF
  image : Option Image := none
deriving DecidableEq, Repr

/-- A failure that lies in no payload field. -/
def failWhole (code typ offset : Nat) : LoadResult := { code := code, typ := typ, offset := offset }

/-- A failure in a field the spec does not single out. -/
def failSome (code sub typ offset : Nat) : LoadResult :=
  { code := code, sub := sub, typ := typ, offset := offset, field := Config.failField code typ offset }

/-- The first record that breaks a rule. -/
def failFirst (code sub : Nat) (bad : ImgRec → Bool) (rs : List ImgRec) : Option LoadResult :=
  (rs.find? bad).map fun r => failSome code sub r.typ r.offset

/-! ## Keys (R378) -/

/-- Signatures are mandatory. -/
def mandatory (keys : Vector KeySlot 4) : Bool := keys.toList.any fun k => k.valid && !k.revoked

/-- KEY_SLOT, PUBLIC_KEY, SIG_R and SIG_S of a SIGNATURE record (Table 12.8). -/
def ImgRec.keySlot (r : ImgRec) : Nat := fieldAt r.payload 0 1
def ImgRec.publicKey (r : ImgRec) : List Byte := slice r.payload 4 64

/-- The key of a signature may be used while signatures are mandatory. -/
def keyOk (keys : Vector KeySlot 4) (r : ImgRec) : Bool :=
  match keys.toList[r.keySlot]? with
  | some k => k.valid && !k.revoked && k.hash == sha256 r.publicKey
  | none => false

/-! ## Table 12.11 -/

/-- The port whose number a record holds at an offset. -/
def ImgRec.portAt (r : ImgRec) (off : Nat) : Port := if fieldAt r.payload off 1 = 0 then 0 else 1

/-- The records of a type in the image. -/
def State.recsOf (s : State) (typ : Nat) : List ImgRec :=
  (s.cfg.image.map fun m => m.records.filter fun r => r.typ == typ).getD []

/-- Points of a port's DAS products, none on a port without DAS. -/
def State.dasPoints (s : State) (p : Port) : Nat := if s.hasDas p then s.nPoints p else 0

/-- N_t (R208). -/
def State.dtsPoints (s : State) (p : Port) : Nat := pointsWithin (s.reach p) (s.groupIndex p) 2

/-- Row 1: a record for a port not in use. -/
def State.row1 (s : State) (r : ImgRec) : Bool :=
  if r.typ ∈ [0x0040, 0x0041, 0x0042, 0x0043, 0x0050, 0x0051, 0x0060, 0x0061, 0x0070, 0x0071, 0x0090] then !s.inUse (r.portAt 0)
  else if r.typ = 0x0062 then fieldAt r.payload 8 4 != 0 && !s.inUse (r.portAt 1)
  else if r.typ = 0x0082 then decide (fieldAt r.payload 0 1 < 2) && !s.inUse (r.portAt 0)
  else false

/-- Row 2: an entry naming a port not in use. -/
def State.row2 (s : State) (r : ImgRec) : Bool :=
  let b := r.payload
  if r.typ = 0x00A1 then bothPorts.any fun p => bitOf (fieldAt b 2 1) p.val && !s.inUse p
  else if r.typ = 0x0072 then (List.range (fieldAt b 6 2)).any fun k => !s.inUse (r.portAt (8 + 8 * k))
  else if r.typ = 0x00B0 then
    ((List.range 8).any fun k => fieldAt b (12 + k) 1 == 2 && !s.inUse (r.portAt (20 + k))) ||
      ((List.range 128).any fun k =>
        decide (fieldAt b (102 + 8 * k) 1 ∈ [2, 4, 5, 6, 9]) && !s.inUse (r.portAt (103 + 8 * k)))
  else false

/-- Row 3: reach beyond the point capacity (R25, R376). -/
def State.row3 (s : State) (r : ImgRec) : Bool :=
  r.typ == 0x0020 &&
    (let p := r.portAt 0
     if s.pleats p = 0 then decide (81920 < s.dtsPoints p) else decide (163840 / s.pleats p < s.nPoints p))

/-- Row 4: MEMORY against CLOCKS.DDR_CLOCK and Table 10.1; DRAM_DELAY against MEMORY (R322, R323). -/
def State.row4 (s : State) (r : ImgRec) : Bool :=
  let ddr4 := s.memGeneration == 4
  if r.typ = 0x0080 then
    ddr4 != decide (s.ddrClock ≤ 160) || decide (s.capacityGiB < 8)
  else r.typ == 0x0081 &&
    (((List.range s.memRanks).any fun k => (s.rec? 0x0081 [BitVec.ofNat 8 k]).isNone) || decide (s.memRanks ≤ fieldAt r.payload 0 1) || (ddr4 && (fieldAt r.payload 2 1 != 0 || fieldAt r.payload 6 2 != 0)))

/-- Row 5: TIMEBASE combinations (Table 4.14). -/
def State.row5 (s : State) (r : ImgRec) : Bool :=
  r.typ == 0x0031 &&
    ((s.syncMode == 2 && (s.ppsMode == 0 || s.stepMode == 0)) || (s.startGate == 1 && s.ppsMode == 0) ||
      (s.syncOutMode == 2 && s.syncMode == 1))

/-- Row 6: PLEAT, PHASE, DECIMATION (R100, R200, R201). -/
def State.row6 (s : State) (r : ImgRec) : Bool :=
  let p := r.portAt 0
  let n := s.nPoints p
  if r.typ = 0x0041 then
    !s.hasDas p || (List.range 4).any fun k =>
      decide (s.pleats p ≤ k) && (fieldAt r.payload (4 + 2 * k) 2 != 0 || fieldAt r.payload (12 + 2 * k) 2 != 0)
  else if r.typ = 0x0050 then
    !s.hasDas p || decide (n ≤ s.gauge p) || decide (n < s.cmrFirst p + 64) || decide (n < s.cmrFirst p + s.cmrCount p) ||
      decide (n ≤ s.rawFirst p) || decide (n < s.rawFirst p + s.rawCount p)
  else r.typ == 0x0051 && !s.hasDas p

/-- Fields of a REF_INPUT record: port, role, first point and count of its span. -/
def ImgRec.span (r : ImgRec) : Port × Nat × Nat × Nat :=
  (r.portAt 1, fieldAt r.payload 2 1, fieldAt r.payload 4 4, fieldAt r.payload 8 4)

/-- Row 7: DTS and DTS_POLY on a port without Raman shots, and REF_INPUT spans (R218, R240, Table 7.15). -/
def State.row7 (s : State) (r : ImgRec) : Bool :=
  if r.typ = 0x0060 ∨ r.typ = 0x0061 then !s.hasRaman (r.portAt 0)
  else if r.typ = 0x0062 then
    let (p, role, first, count) := r.span
    let others := (s.recsOf 0x0062).filter fun q => q.offset != r.offset && (q.portAt 1) == p
    let near := others.find? fun q => q.span.2.1 == 0
    let outside := s.inUse p && (decide (s.dtsPoints p ≤ first) || decide (s.dtsPoints p < first + count))
    let second := decide (role < 2) && others.any fun q => q.span.2.1 == role && decide (q.offset < r.offset)
    let far := role == 1 && (s.diffAttMode p == 0 ||
      (near.map fun q => decide (first < q.span.2.2.1 + q.span.2.2.2 + 980)).getD false)
    outside || second || far
  else false

/-- Row 8: the SUPERVISOR sequence holds every input with a REF_INPUT record and the receiver-temperature channel of every port
with DTS (R234). -/
def State.row8 (s : State) (r : ImgRec) : Bool :=
  r.typ == 0x00C1 &&
    (let seq := (List.range (fieldAt r.payload 5 1)).map fun k => fieldAt r.payload (16 + k) 1
     ((s.recsOf 0x0062).any fun q => !seq.contains (fieldAt q.payload 0 1)) ||
       bothPorts.any fun p => s.hasRaman p && !seq.contains (4 + p.val))

/-- A detector of a port is configured. -/
def State.hasDetector (s : State) (p : Port) (d : Nat) : Bool := (s.detector p d).isSome

/-- A mask names only detectors that are configured. -/
def State.maskNames (s : State) (p : Port) (mask : Nat) : Bool := (List.range 16).all fun d => !bitOf mask d || s.hasDetector p d

/-- Row 9: ZONE entries against N_p, detector and zone references, distinct band filters (Table 8.6, R247, R262). -/
def State.row9 (s : State) (r : ImgRec) : Bool :=
  let p := r.portAt 0
  let b := r.payload
  if r.typ = 0x0070 then
    (List.range (fieldAt b 2 2)).any fun k =>
      let e := 8 + 16 * k
      decide (s.dasPoints p < fieldAt b (e + 4) 4 + fieldAt b (e + 8) 4) || !s.maskNames p (fieldAt b (e + 2) 2)
  else if r.typ = 0x0071 then
    let pair := fun (q : ImgRec) => (fieldAt q.payload 4 2, fieldAt q.payload 6 2)
    let before := ((s.recsOf 0x0071).filter fun q =>
      decide (q.offset < r.offset) && (q.portAt 0) == p && fieldAt q.payload 2 1 == 0).map pair
    fieldAt b 2 1 == 0 && !before.contains (pair r) && decide (8 ≤ before.eraseDups.length)
  else if r.typ = 0x0072 then
    (List.range (fieldAt b 6 2)).any fun k =>
      let e := 8 + 8 * k
      let q := r.portAt e
      let lo := fieldAt b (e + 4) 2
      let hi := fieldAt b (e + 6) 2
      fieldAt b (e + 1) 1 == 0 && (!s.maskNames q (fieldAt b (e + 2) 2) ||
        !(List.range (s.zoneCount q)).any fun z =>
          let id := fieldAt (s.zoneEntry q z) 0 2
          decide (lo ≤ id) && decide (id ≤ hi))
  else false

/-- A coded consumer's product is allowed by its port's COMPRESS record (R346). -/
def State.codingOk (s : State) (p : Port) (coding quality : Nat) (products : List Nat) : Bool :=
  coding == 0 ||
    (coding == s.compCoding p && (products.all fun x => bitOf (s.compProducts p) x) && (quality == 0 || s.compQuality p == 1))

/-- Row 10: a DAS ring against its port's DAS, COMPRESS and points (R324, R346). -/
def State.row10 (s : State) (r : ImgRec) : Bool :=
  let ring := fieldAt r.payload 0 1
  let p := r.portAt 0
  r.typ == 0x0082 && decide (ring < 2) &&
    (decide (s.dasPoints p ≤ s.histFirst ring) || decide (s.dasPoints p < s.histFirst ring + s.histCount ring) ||
      (s.histSource ring == 1 && s.coarseFactor p == 0) ||
      !s.codingOk p (s.histCoding ring) (s.histQuality ring) [s.histProduct ring])

/-- Row 11: a route against ETHERNET, and against the products of each named port that has DAS (R346, R363). -/
def State.row11 (s : State) (r : ImgRec) : Bool :=
  r.typ == 0x00A1 &&
    (let k : RouteId := Fin.ofNat 16 (fieldAt r.payload 0 1)
     (s.ethRec (s.routeLane k)).isNone ||
       bothPorts.any fun p => bitOf (s.routePorts k) p.val && s.hasDas p &&
         (decide (s.nPoints p ≤ s.routeFirst k) || decide (s.nPoints p < s.routeFirst k + s.routeCount k) ||
           (s.routeSource k == 1 && s.coarseFactor p == 0) ||
           !s.codingOk p (s.routeCoding k) (s.routeQuality k) (s.routeProducts k)))

/-- Row 12: FUSE_KEY 1 in an unsigned image, or in one signed by another key while signatures are not mandatory. -/
def row12 (keys : Vector KeySlot 4) (sig : Option ImgRec) (r : ImgRec) : Bool :=
  r.typ == 0x0010 && fieldAt r.payload 22 1 == 1 &&
    (match sig with
     | none => true
     | some q => !mandatory keys && sha256 q.publicKey != slice r.payload 24 32)

/-- Rows 1 to 12 in order (code 15). -/
def State.crossCheck (s : State) (keys : Vector KeySlot 4) (sig : Option ImgRec) (rs : List ImgRec) : Option LoadResult :=
  let rows : List (ImgRec → Bool) :=
    [s.row1, s.row2, s.row3, s.row4, s.row5, s.row6, s.row7, s.row8, s.row9, s.row10, s.row11, row12 keys sig]
  rows.zipIdx.findSome? fun e => failFirst 15 (e.2 + 1) e.1 rs

/-! ## Admission and budgets -/

/-- The record that admission finds at fault: the port's SHOT_PROGRAM, or where it is absent one that depends on it. -/
def programmeRecord (p : Port) (rs : List ImgRec) : Option ImgRec :=
  ([0x0040, 0x0041, 0x0042, 0x0043] : List Nat).findSome? fun t => rs.find? fun r => r.typ == t && r.portAt 0 == p

/-- Admission of the ports in use (code 16): sub-code [7] port, [6:0] code of Table 3.4.
Log entry 19, DEDUCED; log entry 20, DEDUCED. -/
def State.admissionCheck (s : State) (rs : List ImgRec) : Option LoadResult :=
  bothPorts.findSome? fun p =>
    let c := s.admission p
    if s.inUse p && c != 0 then
      (programmeRecord p rs).map fun r => failSome 16 (128 * p.val + c) r.typ r.offset
    else none

/-- The record of a ring or of a route. -/
def State.keyed (s : State) (typ k : Nat) : Option ImgRec := (s.recsOf typ).find? fun r => fieldAt r.payload 0 1 == k

/-- Sub-code 1: the ring that brings the real-time load over 0.70 of the peak (R309). -/
def State.budget1 (s : State) : Option LoadResult :=
  (List.range 4).findSome? fun k =>
    (s.keyed 0x0082 k).bind fun r =>
      if s.realTimeLoad k > (s.memPeak : Rat) * 7 / 10 then some (failSome 17 1 r.typ r.offset) else none

/-- Load of the routes of a lane, up to and with one. -/
def State.laneLoad (s : State) (l : Lane) (last : Nat) : Rat :=
  ((allRoutes.filter fun r => (s.routeRec r).isSome && s.routeLane r == l && decide (r.val ≤ last)).map s.routeLoad).sum

/-- Sub-code 2: the route that brings its lane over 90 % of its capacity (R350). -/
def State.budget2 (s : State) : Option LoadResult :=
  allRoutes.findSome? fun k =>
    (s.keyed 0x00A1 k.val).bind fun r =>
      if s.laneLoad (s.routeLane k) k.val > (s.laneCapacity (s.routeLane k) : Rat) * 9 / 10 then
        some (failSome 17 2 r.typ r.offset) else none

/-- The coded consumers, rings before routes: record type, number, and the ports whose product each codes (R335). -/
def State.codedConsumers (s : State) : List (Nat × Nat × List Port) :=
  ((bothPorts.filter fun p => s.histSizeMiB p.val != 0 && s.histCoding p.val != 0).map fun p => (0x0082, p.val, [p])) ++
    (allRoutes.filter fun r => (s.routeRec r).isSome && s.routeCoding r != 0 && !(s.routeProducts r).isEmpty).map fun r =>
      (0x00A1, r.val, bothPorts.filter fun p => bitOf (s.routePorts r) p.val && s.hasDas p)

/-- The first consumer beyond the fourth of a port, with the consumers counted so far. -/
def fifthConsumer : List Port → List (Nat × Nat × List Port) → Option (Nat × Nat)
  | _, [] => none
  | seen, (typ, k, ps) :: t =>
    if ps.any fun p => decide (4 ≤ seen.count p) then some (typ, k) else fifthConsumer (seen ++ ps) t

/-- Sub-code 3: coded consumers (R335). -/
def State.budget3 (s : State) : Option LoadResult :=
  (fifthConsumer [] s.codedConsumers).bind fun e => (s.keyed e.1 e.2).map fun r => failSome 17 3 r.typ r.offset

/-- Sub-code 4: the sum of COUNT over a port's zones (R242). -/
def budget4 (rs : List ImgRec) : Option LoadResult :=
  failFirst 17 4 (fun r => r.typ == 0x0070 &&
    decide (262144 < ((List.range (fieldAt r.payload 2 2)).map fun k => fieldAt r.payload (16 + 16 * k) 4).sum)) rs

/-- Sub-code 5: the ring that brings the history over the DRAM capacity (R313). -/
def State.budget5 (s : State) : Option LoadResult :=
  (List.range 4).findSome? fun k =>
    (s.keyed 0x0082 k).bind fun r =>
      if s.capacityGiB * 1024 < ((List.range (k + 1)).map s.histSizeMiB).sum then some (failSome 17 5 r.typ r.offset) else none

/-! ## The full check -/

/-- The candidate with its records, as the checks across records read it. -/
def withCandidate (slot : Nat) (gen : Nat) (digest : List Byte) (key : Option Nat) (rs : List ImgRec) : State :=
  let m : Image :=
    { slot := slot, generation := BitVec.ofNat 32 gen, digest := digest, keySlot := key, records := rs }
  { State.reset with cfg := { State.reset.cfg with image := some m } }

/-- The first field that fails (code 13); BAR2_LOG2 is not below the DRAM capacity (Table 11.19). -/
def State.fieldCheck (s : State) (rs : List ImgRec) : Option LoadResult :=
  rs.findSome? fun r =>
    let bar2 := (2, r.typ != 0x00A2 || fieldAt r.payload 2 1 == 0 || s.memRec.isNone ||
      decide (s.capacityGiB * 2 ^ 30 ≤ 2 ^ fieldAt r.payload 2 1))
    ((r.fields ++ [bar2]).find? fun f => !f.2).map fun f =>
      { code := 13, typ := r.typ, offset := r.offset, field := BitVec.ofNat 32 f.1 }

/-- Multiplicity and order (code 14): of every record of the image, and of those the loader understands. -/
def orderCheck (all known : List ImgRec) : Option LoadResult :=
  let typeAt := fun (k : Nat) => (all[k]?.map (·.typ)).getD 0
  let twice := known.find? fun r => known.any fun q => q.key == r.key && decide (q.offset < r.offset)
  let missing := [0x0010, 0x0030, 0x0080, 0x0081].find? fun t => !known.any fun r => r.typ == t
  let place := fun (k : Nat) => failSome 14 0 (typeAt k) ((all[k]?.map (·.offset)).getD 0)
  let signature := known.find? fun r => r.typ == 0x00F0 && (all.drop (all.length - 2)).head?.map (·.offset) != some r.offset
  (twice.map fun r => failSome 14 0 r.typ r.offset) <|>
    (missing.map fun t => failSome 14 0 t 0) <|>
    (if typeAt 0 ≠ 0x0010 then some (place 0) else if typeAt 1 ≠ 0x0030 then some (place 1) else none) <|>
    (signature.map fun r => failSome 14 0 r.typ r.offset)

/-- Whether RECORD_COUNT, BODY_LENGTH and FLAGS[0] of the header agree with the records (code 4). -/
def headerAgrees (b : List Byte) (all : List ImgRec) : Bool :=
  let sig := all.find? fun r => r.typ == 0x00F0
  let ends := (all.find? fun r => r.typ == 0x00F0 || r.typ == 0xFFFF).map (·.offset)
  fieldAt b 20 4 == all.length && some (fieldAt b 24 4) == ends && (fieldAt b 18 2 == 1) == sig.isSome

/-- The checks of codes 7 to 17, on the records of an intact image. -/
def checkRecords (keys : Vector KeySlot 4) (s : State) (digest : List Byte) (all known : List ImgRec) : Option LoadResult :=
  let sig := all.find? fun r => r.typ == 0x00F0
  let must := mandatory keys
  let info := all.find? fun r => r.typ == 0x0010
  (if must && sig.isNone then some (failWhole 7 0x00F0 0) else none) <|>
    (sig.bind fun r =>
      if must && !keyOk keys r then some { code := 8, typ := r.typ, offset := r.offset, field := 0 } else none) <|>
    (sig.bind fun r =>
      if ecdsaValid digest r.publicKey (slice r.payload 68 32) (slice r.payload 100 32) then none
      else some (failSome 9 0 r.typ r.offset)) <|>
    (info.bind fun r =>
      if 0x0201 < fieldAt r.payload 20 2 then some { code := 10, typ := r.typ, offset := r.offset, field := 20 } else none) <|>
    ((all.find? fun r => !r.known && r.flags == 0).map fun r => failWhole 11 r.typ r.offset) <|>
    ((known.find? fun r => lengthOf r.typ r.payload != some r.payload.length).map fun r => failWhole 12 r.typ r.offset) <|>
    s.fieldCheck known <|>
    orderCheck all known <|>
    s.crossCheck keys sig known <|>
    s.admissionCheck known <|>
    s.budget1 <|> s.budget2 <|> s.budget3 <|> budget4 known <|> s.budget5

/-- The full check of an image of IMAGE_LENGTH bytes that lies in a slot, against the device's key slots (codes 4 to 17).
Log entry 17, DEDUCED; log entry 18, DESIGN CHOICE; log entry 19, DEDUCED. -/
def checkImage (keys : Vector KeySlot 4) (slot : Nat) (b : List Byte) : LoadResult :=
  let len := fieldAt b 8 4
  match frames b len (len / 12) 64 with
  | .error e => failWhole 4 e.2 e.1
  | .ok fs =>
    let all := fs.map (·.body)
    let known := all.filter (·.known)
    let digest := sha256 (b.take (fieldAt b 24 4))
    let stored := (all.getLast?.map (·.payload)).getD []
    let sig := all.find? fun r => r.typ == 0x00F0
    let s := withCandidate slot (fieldAt b 12 4) stored (if mandatory keys then sig.map (·.keySlot) else none) known
    let bad :=
      (if headerAgrees b all then none else some (failWhole 4 0 0)) <|>
      ((fs.find? fun f => !f.crcOk).map fun f => failWhole 5 f.body.typ f.body.offset) <|>
      (if digest == stored then none else some (failWhole 6 0xFFFF ((all.getLast?.map (·.offset)).getD 0))) <|>
      checkRecords keys s stored all known
    match bad with
    | some r => r
    | none => { code := 0, field := 0, image := s.cfg.image }

end Sys2Proof.Machine
end

