-- ==== Sys2Proof/Machine/Staging.lean ====
section
/-! DEFINITION. The staging service (R389 to R394), the mailbox that the PCI Express host drives (R462 to R465) and the DFU
path of the placket (R444, R445). -/

namespace Sys2Proof.Machine

/-! ## The service -/

/-- Base address of a slot (Table 12.2). -/
def slotBase (slot : Nat) : Nat := if slot = 0 then 0x100000 else 0x200000

/-- Erase unit in use: 64 KiB where declared, else 4 KiB (Table 12.1). Log entry 85, DEDUCED. -/
def State.eraseUnit (s : State) : Nat := if s.flash.erase64k then 0x10000 else 0x1000

/-- Bytes of the erase units that cover a length. -/
def State.eraseSpan (s : State) (length : Nat) : Nat := (length + s.eraseUnit - 1) / s.eraseUnit * s.eraseUnit

/-- Longest erase time of a unit and page program time, ms (R392). -/
def State.unitEraseMs (s : State) : Nat := s.flash.eraseMs.getD 4000
def State.pageProgramMs (s : State) : Nat := s.flash.pageMs.getD 10

/-- The density that the SFDP tables state is below 64 Mbit (R367). -/
def State.flashSmall (s : State) : Bool := s.flash.sfdp && decide (s.flash.sizeMbit < 64)

/-- The target slot (R389): the one not loaded, or in UNCONFIGURED the one with the lower header generation. -/
def State.stageTarget (s : State) : Nat :=
  match s.cfg.image with
  | some m => 1 - m.slot
  | none => if s.cfg.slots[(0 : Fin 2)].generation.toNat ≤ s.cfg.slots[(1 : Fin 2)].generation.toNat then 0 else 1

/-- Why a staging may not begin (R390): still loading or another in progress, or the flash too small. -/
def State.stageRefusal (s : State) : Option Nat :=
  if s.cfg.state = 0 || s.cfg.staging.isSome then some 1 else if s.flashSmall then some 8 else none

/-- Report a staging code (R391): CFG_STAGE_RESULT, CFG_STAGE_DETAIL and the count of stagings that succeeded. -/
def State.stageReport (s : State) (code detail : Nat) : State :=
  { s with cfg := { s.cfg with
    stageResult := BitVec.ofNat 32 code, stageDetail := BitVec.ofNat 32 detail
    stages := if code = 0 then s.cfg.stages + 1 else s.cfg.stages } }

/-- A mailbox command completes (R464): BUSY clears, DONE and RESULT are set, MSI-X vector 6 is signalled, and the 10 s of
R463 start again. -/
def State.mbxComplete (s : State) (result : Nat) : State :=
  let s := { s with mbx := { s.mbx with
    busy := false, done := true, result := result, resultOf := s.mbx.command.toNat % 256, ops := s.mbx.ops + 1,
    idleFrom := s.now } }
  s.msixEvent 6

/-- The mailbox locks (R463). -/
def State.mbxLock (s : State) : State := { s with mbx := { s.mbx with unlocked := false, firstKey := none } }

/-- bStatus of a staging code (Table 14.7; numbers of DFU 1.1). Log entry 86, PRESUMED. -/
def dfuStatus (code loadCode : Nat) : Nat :=
  match code with
  | 0 => 0
  | 2 => 2
  | 4 => 4
  | 5 => 6
  | 6 => if loadCode = 10 then 1 else 2
  | 7 => 14
  | _ => 11

/-- The target slot of an unfinished staging has no valid header once its erase has begun (R390); an erase that waits for a mirror
has not begun (R422). Log entry 15, DEDUCED; log entry 85, DEDUCED. -/
def State.stageClear (s : State) (g : Staging) : State :=
  let b := slotBase g.target
  if g.erased = true ∨ (g.phase = .erasing ∧ s.bbx.mirror.isNone = true) then
    { s with flash := { s.flash with cells := memClear s.flash.cells b (b + s.eraseUnit) } }
  else s

/-- A staging ends with a code (R390, R391): after erasing, any code but 0 leaves the slot without its first erase unit; the
path that fed it is answered. -/
def State.stageEnd (s : State) (code detail : Nat) : State :=
  match s.cfg.staging with
  | none => s
  | some g =>
    let s := { s with cfg := { s.cfg with staging := none } }
    let s := s.stageReport code detail
    let s := if code ≠ 0 then s.stageClear g else s
    match g.feeder with
    | .mailbox =>
      let s := if s.mbx.busy then s.mbxComplete code else s
      ({ s with mbx := { s.mbx with detail := BitVec.ofNat 32 (if code = 6 then detail else 0) } }).mbxLock
    | .placket =>
      if code = 7 then s
      else
        let st := dfuStatus code (detail % 256)
        { s with plk := { s.plk with
          status := st
          dfu := if g.ended then .manifestSync else if code = 0 then s.plk.dfu else .error } }

/-- A staging open on a path ends with code 7 (R391). -/
def State.stageAbort (s : State) (f : Feeder) : State :=
  match s.cfg.staging with
  | some g => if g.feeder = f then s.stageEnd 7 0 else s
  | none => s

/-- Store a staging. -/
def State.setStaging (s : State) (g : Staging) : State := { s with cfg := { s.cfg with staging := some g } }

/-- What a staging does next (R390): judge the header once its 64 bytes are there, erase, program each page as it fills, take
more, or after the end check. A mailbox block completes when the service can take more. Log entry 85, DEDUCED. -/
def State.stageNext (s : State) : State :=
  match s.cfg.staging with
  | none => s
  | some g =>
    let have_ := min g.bytes.length g.length
    if g.length = 0 then
      if g.bytes.length < 64 then
        if g.ended then s.stageEnd 2 0
        else if s.mbx.busy ∧ g.feeder = .mailbox then s.mbxComplete 0 else s
      else
        let h := checkHeader (g.bytes.take 64)
        let gen := fieldAt g.bytes 12 4
        if h ≠ 0 then s.stageEnd 2 0
        else if (s.cfg.image.map fun m => decide (gen ≤ m.generation.toNat)).getD false then s.stageEnd 3 0
        else
          { s with cfg := { s.cfg with
            stageGeneration := BitVec.ofNat 32 gen
            staging := some { g with phase := .erasing, length := fieldAt g.bytes 8 4, generation := BitVec.ofNat 32 gen,
                                     since := s.now } } }
    else if !g.erased then s
    else if g.programmed + 256 ≤ have_ || (g.ended && decide (g.programmed < have_)) then
      s.setStaging { g with phase := .programming, since := s.now }
    else if g.ended then
      if g.bytes.length < g.length then s.stageEnd 2 0 else s.setStaging { g with phase := .checking, since := s.now }
    else
      let s := s.setStaging { g with phase := .receiving }
      if s.mbx.busy ∧ g.feeder = .mailbox then s.mbxComplete 0 else s

/-- A staging opens on a path (R389, R390). -/
def State.stageOpen (s : State) (f : Feeder) : State :=
  { s with cfg := { s.cfg with
    staging := some { feeder := f, target := s.stageTarget }, stageSlot := BitVec.ofNat 32 s.stageTarget } }

/-- The next bytes of the image arrive. -/
def State.stageData (s : State) (bytes : List Byte) : State :=
  match s.cfg.staging with
  | none => s
  | some g => (s.setStaging { g with bytes := g.bytes ++ bytes }).stageNext

/-- The transfer ends. -/
def State.stageFinish (s : State) : State :=
  match s.cfg.staging with
  | none => s
  | some g => (s.setStaging { g with ended := true }).stageNext

/-- FLASH_ERASE_DONE (R390): the units that cover the image are erased, or the staging fails with code 4. A staging waits for a
mirror to end before it erases (R422). -/
def execFlashEraseDone (dt : Nat) (ok : Bool) (s : State) : Host.Outcome State Fault Refusal :=
  let s := s.elapse dt
  match s.cfg.staging with
  | some g =>
    if s.live && g.phase == .erasing && s.bbx.mirror.isNone then
      if ok then
        let b := slotBase g.target
        let s := { s with flash := { s.flash with cells := memClear s.flash.cells b (b + s.eraseSpan g.length) } }
        .next (s.setStaging { g with erased := true, phase := .receiving }).stageNext
      else .next (s.stageEnd 4 0)
    else .next s
  | none => .next s

/-- FLASH_PROGRAM_DONE (R390): a page has been programmed and read back, the held header page last; or code 5. -/
def execFlashProgramDone (dt : Nat) (ok : Bool) (s : State) : Host.Outcome State Fault Refusal :=
  let s := s.elapse dt
  match s.cfg.staging with
  | some g =>
    let b := slotBase g.target
    let img := g.bytes.take g.length
    if s.live && g.phase == .programming then
      if ok then
        let cells := memWriteAll erased s.flash.cells (b + g.programmed) ((img.drop g.programmed).take 256)
        let s := { s with flash := { s.flash with cells := cells } }
        .next (s.setStaging { g with programmed := g.programmed + 256, phase := .receiving }).stageNext
      else .next (s.stageEnd 5 0)
    else if s.live && g.phase == .header then
      if ok then
        let cells := memWriteAll erased s.flash.cells b (img.take 256)
        .next ({ s with flash := { s.flash with cells := cells } }.stageEnd 0 0)
      else .next (s.stageEnd 5 0)
    else .next s
  | none => .next s

/-- FLASH_OPERATION_TIMEOUT (R392): an erase or program has exceeded its stated time. -/
def execFlashOperationTimeout (dt : Nat) (s : State) : Host.Outcome State Fault Refusal :=
  let s := s.elapse dt
  match s.cfg.staging with
  | some g =>
    let units := s.eraseSpan g.length / s.eraseUnit
    match g.phase with
    | .erasing =>
      if s.live && decide (g.since + units * s.unitEraseMs * msP ≤ s.now) then .next (s.stageEnd 4 0) else .next s
    | .programming | .header =>
      if s.live && decide (g.since + s.pageProgramMs * msP ≤ s.now) then .next (s.stageEnd 5 0) else .next s
    | .receiving | .checking => .next s
  | none => .next s

/-- STAGING_CHECK_DONE (R390): the dry load of the slot, its held page taken from on-die, passes and the header page is
programmed; or code 6 with the load result. -/
def execStagingCheckDone (dt : Nat) (s : State) : Host.Outcome State Fault Refusal :=
  let s := s.elapse dt
  match s.cfg.staging with
  | some g =>
    if s.live && g.phase == .checking then
      let b := slotBase g.target
      let img := (g.bytes.take (min 256 g.length)) ++ memReadAll erased s.flash.cells (b + 256) (g.length - 256)
      let r := checkImage s.cfg.keys g.target img
      if r.code = 0 then .next (s.setStaging { g with phase := .header, since := s.now })
      else .next (s.stageEnd 6 (r.code + 256 * r.sub + 65536 * r.typ))
    else .next s
  | none => .next s

/-! ## The mailbox -/

/-- A write to the MBX page was discarded (R462, R464). -/
def State.mbxReject (s : State) : State := { s with mbx := { s.mbx with rejected := s.mbx.rejected + 1, firstKey := none } }

/-- A write to MBX_UNLOCK (R463). -/
def State.mbxUnlock (s : State) (word : U32) : State :=
  let s := { s with mbx := { s.mbx with idleFrom := s.now } }
  if word = 0x4D425831#32 then { s with mbx := { s.mbx with firstKey := some s.now } }
  else if word = 0x4D425832#32 then
    match s.mbx.firstKey with
    | some t =>
      { s with mbx := { s.mbx with firstKey := none, unlocked := s.mbx.unlocked || decide (s.now ≤ t + 10 * msP) } }
    | none => s
  else { s with mbx := { s.mbx with firstKey := none } }

/-- A command word arrives (R463, R464): discarded while BUSY, refused with result 0x10 while locked, else begun.
Log entry 136, DEDUCED. -/
def State.mbxCommand (s : State) (word : U32) (act : State → State) : State :=
  let s := { s with mbx := { s.mbx with idleFrom := s.now, firstKey := none } }
  if s.mbx.busy then s.mbxReject
  else if !s.mbx.unlocked then
    let s := s.mbxReject
    { s with mbx := { s.mbx with result := 0x10, resultOf := word.toNat % 256 } }
  else act { s with mbx := { s.mbx with command := word, busy := true, done := false } }

/-- The mailbox's staging, if one is open on it. -/
def State.mbxStaging (s : State) : Option Staging := s.cfg.staging.bind fun g => if g.feeder = .mailbox then some g else none

/-- STAGE_BEGIN's action (R464). Log entry 136, DEDUCED. -/
def State.actStageBegin (s : State) : State :=
  match s.stageRefusal with
  | some c => (s.stageReport c 0).mbxComplete c
  | none =>
    let s := s.stageOpen .mailbox
    ({ s with mbx := { s.mbx with nextBlock := 0, bytes := 0, detail := 0 } }).mbxComplete 0

/-- STAGE_BLOCK's action (R464). -/
def State.actStageBlock (s : State) : State :=
  match s.mbxStaging with
  | none => s.mbxComplete 0x12
  | some _ =>
    let n := s.mbx.arg.toNat
    if s.mbx.block ≠ s.mbx.nextBlock ∨ n % 4 ≠ 0 ∨ n > 4096 then s.stageEnd 7 0
    else
      let s := { s with mbx := { s.mbx with nextBlock := s.mbx.nextBlock + 1, bytes := s.mbx.bytes + s.mbx.arg } }
      if n = 0 then s.stageFinish else s.stageData (s.mbx.data.take n)

/-- STAGE_ABORT's action (R464). -/
def State.actStageAbort (s : State) : State :=
  match s.mbxStaging with
  | none => s.mbxComplete 0x12
  | some _ => s.stageEnd 7 0

/-- A restart request is recorded in the black box: path 3 mailbox or 4 placket, and whether refused (Table 13.10).
Log entry 135, DESIGN CHOICE. -/
def State.restartRecord (s : State) (path : Nat) (refused : Bool) : State :=
  s.record (s.bbxRec 0x0004 0xFF 0 0 (le 4 path ++ le 4 (bitIf refused 0)))

/-- RESTART's action (R464): the device restarts no earlier than 10 ms after DONE. Log entry 136, DEDUCED. -/
def State.actRestart (s : State) : State :=
  if s.mbx.arg ≠ 0x52535452#32 then s.mbxComplete 0x13
  else if s.cfg.staging.isSome then
    let s := { s with cfg := { s.cfg with restartRefused := s.cfg.restartRefused + 1 } }
    (s.restartRecord 3 true).mbxComplete 0x14
  else
    let s := (s.restartRecord 3 false).mbxComplete 0
    { s.mbxLock with power := { s.power with request := some (3, s.now + 10 * msP) } }

/-- MBX_UNLOCK_WRITE (R463). -/
def execMbxUnlockWrite (dt : Nat) (word : U32) (s : State) : Host.Outcome State Fault Refusal :=
  let s := s.elapse dt
  if s.pcieServes then .next (s.mbxUnlock word) else .next s.postedUr

/-- MBX_STAGE_BEGIN (R464). -/
def execMbxStageBegin (dt : Nat) (s : State) : Host.Outcome State Fault Refusal :=
  let s := s.elapse dt
  if s.pcieServes then .next (s.mbxCommand 1 State.actStageBegin) else .next s.postedUr

/-- MBX_STAGE_BLOCK (R464). -/
def execMbxStageBlock (dt : Nat) (s : State) : Host.Outcome State Fault Refusal :=
  let s := s.elapse dt
  if s.pcieServes then .next (s.mbxCommand 2 State.actStageBlock) else .next s.postedUr

/-- MBX_STAGE_ABORT (R464). -/
def execMbxStageAbort (dt : Nat) (s : State) : Host.Outcome State Fault Refusal :=
  let s := s.elapse dt
  if s.pcieServes then .next (s.mbxCommand 3 State.actStageAbort) else .next s.postedUr

/-- MBX_RESTART (R464). -/
def execMbxRestart (dt : Nat) (s : State) : Host.Outcome State Fault Refusal :=
  let s := s.elapse dt
  if s.pcieServes then .next (s.mbxCommand 4 State.actRestart) else .next s.postedUr

/-- MBX_UNKNOWN_COMMAND (Table 15.8): RESULT 0x11. -/
def execMbxUnknownCommand (dt : Nat) (word : U32) (s : State) : Host.Outcome State Fault Refusal :=
  let s := s.elapse dt
  if s.pcieServes then .next (s.mbxCommand word fun s => s.mbxComplete 0x11) else .next s.postedUr

/-- MBX_LOCK_LAPSE (R463): 10 s without an MBX write while not BUSY. -/
def execMbxLockLapse (dt : Nat) (s : State) : Host.Outcome State Fault Refusal :=
  let s := s.elapse dt
  if s.live && s.mbx.unlocked && !s.mbx.busy && decide (s.mbx.idleFrom + 10 * secP ≤ s.now) then
    .next (s.stageAbort .mailbox).mbxLock
  else .next s

/-! ## DFU -/

/-- The placket is on the bus: attached and not fenced (R443, Table 13.4). -/
def State.plkOn (s : State) : Bool := s.live && s.plk.attached && !s.isShut 16

/-- Set the DFU state and status. -/
def State.setDfu (s : State) (d : DfuSt) (status : Nat) : State := { s with plk := { s.plk with dfu := d, status := status } }

/-- A DFU request stalls. -/
def State.dfuStall (s : State) : State := s.send .usbStall

/-- The placket's staging, if open on it. -/
def State.plkStaging (s : State) : Option Staging := s.cfg.staging.bind fun g => if g.feeder = .placket then some g else none

/-- A download block is accepted. -/
def State.dfuAccept (s : State) (block : Nat) (data : List Byte) : State :=
  let s := { s with plk := { s.plk with
    dfu := .dnloadSync, status := 0, nextBlock := block + 1, blocks := s.plk.blocks + 1 } }
  s.stageData data

/-- DFU_DNLOAD (R445): the first block opens a staging; a zero-length block ends the transfer; a block out of order aborts the
staging with code 7 and enters dfuERROR. -/
def execDfuDnload (dt : Nat) (block : Nat) (data : List Byte) (s : State) : Host.Outcome State Fault Refusal :=
  let s := s.elapse dt
  if !s.plkOn then .next s
  else
    match s.plk.dfu with
    | .idle =>
      if data.isEmpty then .next (s.dfuStall.setDfu .error 15)
      else if block ≠ 0 then .next (s.setDfu .error 14)
      else
        match s.stageRefusal with
        | some c => .next ((s.stageReport c 0).setDfu .error (dfuStatus c 0))
        | none => .next ((s.stageOpen .placket).dfuAccept block data)
    | .dnloadIdle =>
      if block ≠ s.plk.nextBlock then .next ((s.stageAbort .placket).setDfu .error 14)
      else if data.isEmpty then .next (s.setDfu .manifestSync 0).stageFinish
      else .next (s.dfuAccept block data)
    | .dnloadSync | .manifestSync | .error => .next (s.dfuStall.setDfu .error 15)

/-- State number of DFU 1.1. Log entry 86, PRESUMED. -/
def DfuSt.number (d : DfuSt) : Nat :=
  match d with
  | .idle => 2
  | .dnloadSync => 3
  | .dnloadIdle => 5
  | .manifestSync => 6
  | .error => 10

/-- The six bytes of a GETSTATUS answer (DFU 1.1): bStatus, bwPollTimeout, bState, iString. Log entry 86, PRESUMED. -/
def statusAnswer (status poll state : Nat) : List Byte := le 1 status ++ le 3 poll ++ le 1 state ++ le 1 0

/-- Read rate of the slots, bytes per millisecond (R368). -/
def State.readRate (s : State) : Nat :=
  let f := 100000 / s.cfg.qspiDiv
  if s.flash.sfdp && (s.flash.quad144 || s.flash.quad114) then 9 * f / 20 else 9 * f / 80

/-- bwPollTimeout (R445): the erase time for the first block, 20 ms for others, the dry load's bound at manifestation. -/
def State.pollTimeout (s : State) : Nat :=
  match s.plkStaging with
  | some g =>
    if g.ended then g.length / s.readRate + 60
    else if g.phase = .erasing then s.eraseSpan g.length / s.eraseUnit * s.unitEraseMs
    else 20
  | none => 20

/-- DFU_GETSTATUS (R445): the status, poll timeout and state; a finished block returns to dfuDNLOAD-IDLE, a finished staging to
dfuIDLE with its result. -/
def execDfuGetstatus (dt : Nat) (s : State) : Host.Outcome State Fault Refusal :=
  let s := s.elapse dt
  if !s.plkOn then .next s
  else
    let busy := (s.plkStaging.map fun g => g.phase != .receiving).getD false
    match s.plk.dfu with
    | .dnloadSync =>
      if busy then .next (s.send (.usb (statusAnswer 0 s.pollTimeout 4)))
      else .next ((s.setDfu .dnloadIdle 0).send (.usb (statusAnswer 0 20 5)))
    | .manifestSync =>
      if s.plkStaging.isSome then .next (s.send (.usb (statusAnswer 0 s.pollTimeout 7)))
      else .next ((s.setDfu .idle s.plk.status).send (.usb (statusAnswer s.plk.status 0 2)))
    | d => .next (s.send (.usb (statusAnswer s.plk.status 0 d.number)))

/-- DFU_CLRSTATUS (R444): an error state is cleared. -/
def execDfuClrstatus (dt : Nat) (s : State) : Host.Outcome State Fault Refusal :=
  let s := s.elapse dt
  if !s.plkOn then .next s
  else match s.plk.dfu with
    | .error => .next (s.setDfu .idle 0)
    | _ => .next (s.dfuStall.setDfu .error 15)

/-- DFU_GETSTATE (R444): the state is returned and nothing changes. -/
def execDfuGetstate (dt : Nat) (s : State) : Host.Outcome State Fault Refusal :=
  let s := s.elapse dt
  if s.plkOn then .next (s.send (.usb (le 1 s.plk.dfu.number))) else .next s

/-- DFU_ABORT (R444, Table 14.7): a staging ends with code 7 and the state returns to dfuIDLE. -/
def execDfuAbort (dt : Nat) (s : State) : Host.Outcome State Fault Refusal :=
  let s := s.elapse dt
  if !s.plkOn then .next s
  else match s.plk.dfu with
    | .error => .next s.dfuStall
    | _ => .next ((s.stageAbort .placket).setDfu .idle 0)

/-- DFU_DETACH (Table 14.6): not supported; it stalls. -/
def execDfuDetach (dt : Nat) (s : State) : Host.Outcome State Fault Refusal :=
  let s := s.elapse dt
  if s.plkOn then .next s.dfuStall else .next s

/-- DFU_UPLOAD (Table 14.6): not supported; it stalls. -/
def execDfuUpload (dt : Nat) (s : State) : Host.Outcome State Fault Refusal :=
  let s := s.elapse dt
  if s.plkOn then .next s.dfuStall else .next s

/-! ## Attach, detach, configuration -/

/-- PLACKET_ATTACH (R443): VBUS has been valid for 100 ms. -/
def execPlacketAttach (dt : Nat) (s : State) : Host.Outcome State Fault Refusal :=
  let s := s.elapse dt
  if s.live && !s.plk.attached then
    let s := { s with plk := { s.plk with vbus := true } }
    if s.isShut 16 then .next s
    else .next { s with plk := { s.plk with
      attached := true, configured := false, attaches := s.plk.attaches + 1, dfu := .idle, status := 0 } }
  else .next s

/-- The placket leaves the bus; a staging it feeds ends with code 7 (R443, R391). -/
def State.plkDetach (s : State) : State :=
  let s := s.stageAbort .placket
  { s with plk := { s.plk with attached := false, configured := false, dfu := .idle, status := 0 } }

/-- PLACKET_DETACH (R443): VBUS has fallen below its threshold. -/
def execPlacketDetach (dt : Nat) (s : State) : Host.Outcome State Fault Refusal :=
  let s := s.elapse dt
  let s := { s with plk := { s.plk with vbus := false } }
  if s.plk.attached then .next s.plkDetach else .next s

/-- The placket's USB device descriptor (R443, R10): bcdUSB 0x0200, the vendor identifier, idProduct 0x4820, bcdDevice 0x0201, one
configuration; class per interface, control packets of 64 bytes, no strings. Log entry 132, PRESUMED. -/
def deviceDescriptor : List Byte :=
  [18, 1] ++ le 2 0x0200 ++ [0, 0, 0, 64] ++ le 2 Config.usbVendor.toNat ++ le 2 0x4820 ++ le 2 0x0201 ++ [0, 0, 0, 1]

/-- The placket's one configuration (R443, R444, R446): self-powered with bMaxPower 0; interface 0 DFU 1.1 in DFU mode with the
functional descriptor of Table 14.6; interface 1 vendor bulk with OUT 0x01 and IN 0x81. Log entry 132, PRESUMED. -/
def configDescriptor (highSpeed : Bool) : List Byte :=
  let packet := if highSpeed then 512 else 64
  let dfu : List Byte := [9, 4, 0, 0, 0, 0xFE, 1, 2, 0] ++ [9, 0x21, 0x05] ++ le 2 0 ++ le 2 4096 ++ le 2 0x0110
  let bulk : List Byte := [9, 4, 1, 0, 2, 0xFF, 0, 0, 0] ++ [7, 5, 0x01, 2] ++ le 2 packet ++ [0] ++ [7, 5, 0x81, 2] ++ le 2 packet ++ [0]
  [9, 2] ++ le 2 (9 + dfu.length + bulk.length) ++ [2, 1, 0, 0xC0, 0] ++ dfu ++ bulk

/-- PLACKET_CONFIGURED (R443): the host reads the placket's descriptors and configures it at high or full speed.
Log entry 132, PRESUMED. -/
def execPlacketConfigured (dt : Nat) (highSpeed : Bool) (s : State) : Host.Outcome State Fault Refusal :=
  let s := s.elapse dt
  if s.plkOn then
    let s := (s.send (.usb deviceDescriptor)).send (.usb (configDescriptor highSpeed))
    .next { s with plk := { s.plk with configured := true, highSpeed := highSpeed } }
  else .next s

end Sys2Proof.Machine
end

