-- ==== Sys2Proof/Machine/Pcie.lean ====
section
/-! DEFINITION. The PCI Express endpoint (R354 to R358, R462, R465): configuration requests, power state, resets, MSI-X, and
writes to BAR0. -/

namespace Sys2Proof.Machine

/-- A request to a BAR of `size` bytes reaches the function only inside it (R355, R356). -/
def inWindow (size offset length : Nat) : Bool := decide (offset + length ≤ size)

/-- Size of BAR0: 16 MiB (R355). -/
def bar0Bytes : Nat := 0x1000000

/-- A completion with Unsupported Request, counted (R357, Table 11.22). -/
def State.completeUr (s : State) : State :=
  { s.send (.completion .ur) with pcie := { s.pcie with ur := s.pcie.ur + 1 } }

/-- A write that completes without effect is counted (R355, R356). -/
def State.discardWrite (s : State) : State :=
  { s with pcie := { s.pcie with writesDiscarded := s.pcie.writesDiscarded + 1 } }

/-- A word of configuration space (Tables 11.17 and 11.19): class code 0x118000, a Type 0 header, one function, BAR0 of 16 MiB, 32-bit
and non-prefetchable, BAR2 64-bit and prefetchable, the subsystem identities of PCIE, no expansion ROM; the rest, which PCI Express lays
out, is a free value of what the host has written. Log entry 134, PRESUMED. -/
def State.configWord (s : State) (reg : Nat) : Nat :=
  let w := (Config.configSpace s.pcie.config reg).toNat
  match reg with
  | 0x08 => 0x118000 * 256 + w % 256
  | 0x0C => w / 2 ^ 24 * 2 ^ 24 + w % 2 ^ 16
  | 0x10 => w / 2 ^ 24 * 2 ^ 24
  | 0x18 => 0xC
  | 0x2C => s.subsysVendor + 2 ^ 16 * s.subsysId
  | 0x30 => 0
  | _ => w

/-- PCIE_CONFIG_REQUEST (R354, R357): retry status until the image is loaded; then reads and writes of configuration space,
whose contents PCI Express lays out (free value of what the host has written). Log entry 81, DESIGN CHOICE. -/
def execPcieConfigRequest (dt : Nat) (isWrite : Bool) (reg : Nat) (value : U32) (s : State) :
    Host.Outcome State Fault Refusal :=
  let s := s.elapse dt
  if !s.live then .next s
  else if s.cfg.state = 0 then .next (s.send (.completion .crs))
  else if !s.pciePresent then .next s
  else if isWrite then
    .next ({ s with pcie := { s.pcie with config := (reg, value) :: s.pcie.config } }.send (.completion (.data [])))
  else .next (s.send (.completion (.data (le 4 (s.configWord reg)))))

/-- The widest of ×1, ×2 and ×4 within a width. -/
def linkWidth (n : Nat) : Nat := if 4 ≤ n then 4 else if 2 ≤ n then 2 else 1

/-- PCIE_POWER_STATE_CHANGE (Table 11.17): D0 or D3hot. -/
def execPciePowerStateChange (dt : Nat) (d3hot : Bool) (s : State) : Host.Outcome State Fault Refusal :=
  let s := s.elapse dt
  if s.pciePresent && s.pcie.link == .up then .next { s with pcie := { s.pcie with d3hot := d3hot } } else .next s

/-- Configuration space and MSI-X state at their PCI Express reset values; the counts of messages sent stay (R354). -/
def Pcie.resetFunction (x : Pcie) : Pcie :=
  { x with config := [], d3hot := false, msix := x.msix.map fun v => { sent := v.sent } }

/-- PCIE_FUNCTION_LEVEL_RESET (Table 11.17, R465): configuration space and MSI-X state are reset; a mailbox staging ends with
code 7 and the mailbox locks. -/
def execPcieFunctionLevelReset (dt : Nat) (s : State) : Host.Outcome State Fault Refusal :=
  let s := s.elapse dt
  if s.pciePresent && s.pcie.link == .up then
    let s := if s.mbxStaging.isSome then (s.stageAbort .mailbox).mbxLock else s
    .next { s with pcie := s.pcie.resetFunction }
  else .next s

/-- PCIE_LINK_RESET (R465): hot reset, link-down or PERST_N resets the endpoint and ends a mailbox staging with code 7.
Log entry 83, DEDUCED. -/
def execPcieLinkReset (dt : Nat) (kind : LinkReset) (s : State) : Host.Outcome State Fault Refusal :=
  let s := s.elapse dt
  if s.pciePresent then
    let s := if s.mbxStaging.isSome then (s.stageAbort .mailbox).mbxLock else s
    let link := match kind with
      | .hotReset | .linkDown => LinkSt.training
      | .perst => LinkSt.off
    .next { s with pcie := { s.pcie.resetFunction with link := link, speed := 0, width := 0 } }
  else .next s

/-- PCIE_LINK_UP (Table 11.17): training with a host of a speed and width has completed, at most at MAX_SPEED and in ×1, ×2 or ×4 up to
MAX_WIDTH. Log entry 133, DEDUCED. -/
def execPcieLinkUp (dt : Nat) (speed width : Nat) (s : State) : Host.Outcome State Fault Refusal :=
  let s := s.elapse dt
  if s.pciePresent then .next { s with pcie := { s.pcie with link := .up, speed := min speed s.pcieMaxSpeed, width := linkWidth (min width s.pcieMaxWidth) } } else .next s

/-! ## MSI-X -/

/-- Offset of the MSI-X table in BAR0 (R355). -/
def msixTable : Nat := 0x1FF000

/-- A vector's table entry word is written: address low, address high, data, control (PCI Express). -/
def MsixVec.writeWord (x : MsixVec) (word : Nat) (v : U32) : MsixVec :=
  match word with
  | 0 => { x with addr := BitVec.ofNat 64 (x.addr.toNat / 2 ^ 32 * 2 ^ 32 + v.toNat) }
  | 1 => { x with addr := BitVec.ofNat 64 (x.addr.toNat % 2 ^ 32 + v.toNat * 2 ^ 32) }
  | 2 => { x with data := v }
  | _ => { x with control := v &&& 1 }

/-- A word of the MSI-X table is written; a vector unmasked with its pending bit set sends its message (R358).
Log entry 82, PRESUMED. -/
def State.msixWrite (s : State) (offset : Nat) (value : U32) : State :=
  let k := (offset - msixTable) / 16
  if h : offset ≥ msixTable ∧ k < 8 then
    let v : Fin 8 := ⟨k, h.2⟩
    let s := { s with pcie := { s.pcie with msix := upd s.pcie.msix v fun x => x.writeWord ((offset - msixTable) / 4 % 4) value } }
    let e := s.pcie.msix[v]
    if e.pending && !e.control.getLsbD 0 then s.msixSend v else s
  else s

/-- MSIX_TABLE_WRITE (R358, R461): a write to the table; the pending-bit array is read-only as PCI Express provides. -/
def execMsixTableWrite (dt : Nat) (offset : Nat) (value : U32) (s : State) : Host.Outcome State Fault Refusal :=
  let s := s.elapse dt
  if s.pcieServes then .next (s.msixWrite offset value) else .next s.postedUr

/-- MSIX_HOLDOFF_EXPIRY (R358): the hold-off has ended, and events merged meanwhile send one message. -/
def execMsixHoldoffExpiry (dt : Nat) (v : Fin 8) (s : State) : Host.Outcome State Fault Refusal :=
  let s := s.elapse dt
  let e := s.pcie.msix[v]
  if e.merged && decide (e.holdUntil ≤ s.now) then
    let s := { s with pcie := { s.pcie with msix := s.pcie.msix.set v { e with merged := false } } }
    .next (s.msixEvent v)
  else .next s

/-! ## Register writes -/

/-- A write to a register of the MBX page that has no row of its own (R462 to R464): MBX_ARG, MBX_BLOCK and whole words of
MBX_DATA are stored while unlocked and, for data, not BUSY; anything else is discarded and counted. -/
def State.mbxWrite (s : State) (off : Nat) (data : List Byte) : State :=
  let s := { s with mbx := { s.mbx with idleFrom := s.now } }
  let word := BitVec.ofNat 32 (leNat data)
  if off % 4 ≠ 0 ∨ data.length % 4 ≠ 0 ∨ data.isEmpty then s.mbxReject
  else if 0x1000 ≤ off ∧ off + data.length ≤ 0x2000 then
    if s.mbx.unlocked && !s.mbx.busy then
      let i := off - 0x1000
      { s with mbx := { s.mbx with
        firstKey := none
        data := s.mbx.data.take i ++ data ++ s.mbx.data.drop (i + data.length) } }
    else s.mbxReject
  else if data.length ≠ 4 then s.mbxReject
  else if off = 0x0008 ∧ s.mbx.unlocked = true then { s with mbx := { s.mbx with arg := word, firstKey := none } }
  else if off = 0x000C ∧ s.mbx.unlocked = true then { s with mbx := { s.mbx with block := word, firstKey := none } }
  else s.mbxReject

/-- The action of a command word (R464, Table 15.8). -/
def mbxAction (word : U32) : State → State :=
  if word = 1 then State.actStageBegin
  else if word = 2 then State.actStageBlock
  else if word = 3 then State.actStageAbort
  else if word = 4 then State.actRestart
  else fun s => s.mbxComplete 0x11

/-- REGISTER_WRITE (R355, R462): a host write to BAR0. Outside the MBX page it completes without effect and is counted; inside,
MBX_UNLOCK, MBX_COMMAND and the MSI-X table act as their own rows say and the rest is stored or discarded. -/
def execRegisterWrite (dt : Nat) (offset : Nat) (data : List Byte) (s : State) : Host.Outcome State Fault Refusal :=
  let s := s.elapse dt
  let word := BitVec.ofNat 32 (leNat data)
  if !inWindow bar0Bytes offset data.length then .fault .outsideWindow
  else if !s.pcieServes then .next s.postedUr
  else if offset < 0x1F0000 ∨ 0x200000 ≤ offset then .next s.discardWrite
  else if offset = 0x1F0000 ∧ data.length = 4 then .next (s.mbxUnlock word)
  else if offset = 0x1F0004 ∧ data.length = 4 then .next (s.mbxCommand word (mbxAction word))
  else if msixTable ≤ offset then
    (if offset % 4 = 0 ∧ data.length = 4 then .next (s.msixWrite offset word) else .next s)
  else .next (s.mbxWrite (offset - 0x1F0000) data)

end Sys2Proof.Machine
end

