-- ==== Sys2Proof/Machine/Dram.lean ====
section
/-! DEFINITION. The memory controller itself (R295 to R304): start, verification, zero fill, sweep, refresh, temperature,
self-refresh, and what read errors raise (Table 10.8). -/

namespace Sys2Proof.Machine

/-- Change MEM. -/
def State.setMem (s : State) (f : Mem → Mem) : State := { s with mem := f s.mem }

/-- Fault code of a row of Table 10.8. -/
def memFault (row : Nat) : U32 := BitVec.ofNat 32 (0x00108000 + row)

/-- DRAM data capacity in bytes, as MEMORY gives it (R290); none without MEMORY. -/
def State.capacity (s : State) : Nat := if s.memRec.isSome then s.capacityGiB * 2 ^ 30 else 0

/-- MEM may start: the image is loaded, and FD13 is not fenced or in a recovery attempt (R295, R321). -/
def State.memStarts (s : State) : Bool :=
  s.live && s.cfg.state == 1 && s.memRec.isSome && s.runs 13

/-- MEM serves accesses: it runs, outside self-refresh, or is characterised, and FD13 is not fenced (R305, R321). -/
def State.memServes (s : State) : Bool :=
  s.live && !s.isShut 13 && (s.mem.st == .running || s.mem.st == .characterised)

/-! ## Rows and banks (R312) -/

/-- Banks among which successive 4 KiB rotate: bank groups, banks of a group, sub-channels and ranks (R312); DDR4 has 4 groups of 4
banks, of x16 devices 2, and DDR5 8 groups of 4. Log entry 131, PRESUMED. -/
def State.bankCount (s : State) : Nat :=
  let groups := if s.memGeneration = 4 then (if s.memWidth = 16 then 2 else 4) else 8
  let subs := if s.memGeneration = 4 then 1 else 2
  groups * 4 * subs * s.memRanks

/-- 4 KiB pieces in a row: two of the 64 data bits of DDR4, one of the 32 of a DDR5 sub-channel. Log entry 131, PRESUMED. -/
def State.rowPieces (s : State) : Nat := if s.memGeneration = 4 then 2 else 1

/-- Bank and row of a DRAM address: the bank group is the lowest digit of the bank's number, then the bank of the group, the
sub-channel and the rank (R312). -/
def State.bankRow (s : State) (addr : Nat) : Nat × Nat :=
  (addr / 4096 % s.bankCount, addr / 4096 / s.bankCount / s.rowPieces)

/-- The row of an address is open. -/
def State.rowOpen (s : State) (addr : Nat) : Bool := s.mem.openRows.contains (s.bankRow addr)

/-- A port has accessed a row: a conflict closes the bank's other row, and with the port's last access to the row the page hint
may close it (R312). `next` is the port's next access, where one waits. -/
def State.touchRow (s : State) (port : Fin 4) (addr : Nat) (next : Option Nat) : State :=
  let b := s.bankRow addr
  let others := s.mem.openRows.filter fun e => e.1 != b.1
  let more := next.any fun a => s.bankRow a == b
  s.setMem fun m => { m with openRows := if !more && s.pageCloses port then others else b :: others }

/-- Every postponed and due refresh is issued; an all-bank refresh leaves no row open (R301, R302, R312). -/
def Mem.refreshed (m : Mem) : Mem := { m with postponed := 0, openRows := [] }

/-! ## Start (Table 10.2) -/

/-- A ring or pool laid out and empty (R313, R321). -/
def Ring.laid (base size : Nat) (recSeq : U32) : Ring := { base := base, size := size, recSeq := recSeq }

/-- Size in bytes of ring `k`, or of the pool. -/
def State.ringBytes (s : State) (k : Nat) : Nat := s.histSizeMiB k * 2 ^ 20

/-- History laid out from address 0 in the order ring 0, ring 1, ring 2, pool, every ring empty and SEQ at its start (R313,
R321). Record numbers go on, since they restart only at a start of the device (R329). Log entry 75, DEDUCED. -/
def State.layRings (s : State) : State :=
  let b1 := s.ringBytes 0
  let b2 := b1 + s.ringBytes 1
  let b3 := b2 + s.ringBytes 2
  s.setMem fun m =>
    { m with
      rings := #v[.laid 0 (s.ringBytes 0) m.rings[0].recSeq, .laid b1 (s.ringBytes 1) m.rings[1].recSeq,
        .laid b2 (s.ringBytes 2) m.rings[2].recSeq]
      pool := .laid b3 (s.ringBytes 3) m.pool.recSeq
      requests := [], copying := none, stored := [], snap := [], rt := [], rtMid := false }

/-- VDDQ lies in the range of the configured generation (Table 16.5, R471). -/
def State.vddqOk (s : State) (mv : Nat) : Bool :=
  if s.memGeneration = 4 then decide (1140 ≤ mv) && decide (mv ≤ 1260) else decide (1067 ≤ mv) && decide (mv ≤ 1166)

/-- MEM_INIT_START (R295, R471): with PLL-D locked the DRAM's start begins; VDDQ outside the range of the generation is a failed
start check of FD13. Log entry 71, DEDUCED. -/
def execMemInitStart (dt : Nat) (vddqMv : Nat) (s : State) : Host.Outcome State Fault Refusal :=
  let s := s.elapse dt
  if s.memStarts && s.mem.st == .off && s.tim.d.st == .locked then
    if s.vddqOk vddqMv then
      .next (s.setMem fun m => { m with st := .starting, verified := s.memVerify == 0, openRows := [] })
    else .next (s.report 13 0x00028001#32 (BitVec.ofNat 32 vddqMv))
  else .next s

/-- MEM_VERIFY_RESULT (Table 15.3): the code, and from code 2 on the rank, lane, delay and margin side. -/
def verifyWord (v : VerifyOutcome) : Nat :=
  if v.code ≤ 1 then v.code
  else v.code + 256 * (v.rank % 2) + 512 * (v.lane % 16) + 8192 * (v.delay % 8) + bitIf v.plus 16

/-- MEM_VERIFY_DONE (R296, R297): with VERIFY 1 the checks have passed, or one has failed and FD13 is reported. Code 6 is found
after the zero fill; code 1 concerns a SODIMM, code 5 a margin (Table 10.3, Table 10.9). Log entry 71, DEDUCED. -/
def execMemVerifyDone (dt : Nat) (v : VerifyOutcome) (s : State) : Host.Outcome State Fault Refusal :=
  let s := s.elapse dt
  if s.memStarts && s.mem.st == .starting && s.memVerify == 1 && decide (v.code ≤ 6) &&
      (!s.mem.verified || v.code == 6) && (v.code != 1 || s.memForm == 1) && (v.code != 5 || s.verifyMargin != 0) then
    if v.code = 0 then .next (s.setMem fun m => { m with verify := v, verified := true })
    else
      .next ((s.setMem fun m => { m with verify := v, verified := false }).report 13 (memFault 1) (BitVec.ofNat 32 (verifyWord v)))
  else .next s

/-- MEM_ZERO_FILL_DONE (R295 steps 7 and 8): every word holds zero, MEM runs and the rings open. -/
def execMemZeroFillDone (dt : Nat) (s : State) : Host.Outcome State Fault Refusal :=
  let s := s.elapse dt
  if s.memStarts && s.mem.st == .starting && s.mem.verified && s.memVerify != 2 then
    .next (s.layRings.setMem fun m =>
      { m with st := .running, cells := [], requestAt := s.now, scrubAt := s.now, refreshAt := s.now, scrubAddr := 0, postponed := 0 })
  else .next s

/-- MEM_SWEEP_DONE (R298): with VERIFY 2, the lowest and highest passing values are reported and MEM is characterised. -/
def execMemSweepDone (dt : Nat) (entries : List (Nat × Nat)) (s : State) : Host.Outcome State Fault Refusal :=
  let s := s.elapse dt
  if s.memStarts && s.mem.st == .starting && s.memVerify == 2 then
    .next (s.setMem fun m => { m with st := .characterised, sweep := entries, refreshAt := s.now })
  else .next s

/-! ## Refresh and temperature -/

/-- The refresh interval (R301): 7.8 µs on DDR4, 3.9 µs on DDR5, half of it while the DRAM is hot. -/
def State.refreshInterval (s : State) : Nat :=
  (if s.memGeneration = 4 then 78 * usP / 10 else 39 * usP / 10) / (if s.mem.hot then 2 else 1)

/-- A refresh falls due (R301). -/
def State.refreshDue (s : State) : Bool := decide (s.mem.refreshAt + s.refreshInterval ≤ s.now)

/-- REFRESH_DUE (R302): with no segment of the real-time port in progress every due refresh is issued; otherwise it is postponed,
or, with four postponed already, the segment is interrupted and all five are issued. Log entry 69, DEDUCED. -/
def execRefreshDue (dt : Nat) (s : State) : Host.Outcome State Fault Refusal :=
  let s := s.elapse dt
  if s.memServes && s.refreshDue then
    let s := s.setMem fun m => { m with refreshAt := m.refreshAt + s.refreshInterval }
    if !s.mem.rtMid then .next (s.setMem Mem.refreshed)
    else if s.mem.postponed < 4 then .next (s.setMem fun m => { m with postponed := m.postponed + 1 })
    else .next (s.setMem fun m => { m.refreshed with preempt := m.preempt + 1 })
  else .next s

/-- A row of Table 10.8 that raises a warning: recorded once while it is raised. Log entry 35, DEDUCED. -/
def State.memWarn (s : State) (row : Nat) (code value : U32) (holds : Bool) : State :=
  (if s.warned code then s else s.record (s.bbxRec 0x0040 13 (memFault row) value [])).warn code value holds

/-- The sensor cannot be read, or a rank asks for more than twice the normal rate: hot, MEM_TEMP_FAULT and a warning (R301). -/
def State.dramTempFault (s : State) : State :=
  (s.setMem fun m => { m with hot := true, tempFault := true }).memWarn 4 0x00100002#32 0 true

/-- The temperature is read every 32 ms (R301). -/
def State.pollDue (s : State) : Bool := decide (s.mem.polledAt + 32 * msP ≤ s.now)

/-- DRAM_TEMP_POLL (R301): DDR4 is hot from REFRESH_TEMP until below REFRESH_TEMP − 3 K; DDR5 while a rank asks for twice the
normal rate or more. In self-refresh only the DDR4 sensor is read (R304). Log entry 70, DEDUCED. -/
def execDramTempPoll (dt : Nat) (t : TempPoll) (s : State) : Host.Outcome State Fault Refusal :=
  let s := s.elapse dt
  if s.live && !s.isShut 13 && s.pollDue && (s.mem.st == .running || s.mem.st == .characterised ||
      (s.mem.st == .selfRefresh && s.memGeneration == 4)) then
    let s := s.setMem fun m => { m with polledAt := s.now }
    match t with
    | .unreadable => .next s.dramTempFault
    | .ddr4 q =>
      let limit : Int := 4 * s.refreshTemp
      if s.memGeneration = 4 then
        .next (s.setMem fun m =>
          { m with temp := q, hot := if limit ≤ q then true else if q < limit - 12 then false else m.hot })
      else .next s
    | .ddr5 rates =>
      let worst := rates.foldl max 0
      if s.memGeneration = 5 then
        let s := s.setMem fun m => { m with temp := worst, hot := decide (2 ≤ worst) }
        .next (if worst > 2 then s.dramTempFault else s)
      else .next s
  else .next s

/-! ## Self-refresh (Table 10.4) -/

/-- Some port other than scrub has a request (R304). -/
def Mem.waits (m : Mem) : Bool := !m.rt.isEmpty || !m.snap.isEmpty || !m.host.isEmpty

/-- SELF_REFRESH_ENTRY (R304): no port other than scrub has had a request for SR_IDLE; postponed refreshes are issued and MEM
enters self-refresh, or a request before the entry command abandons the entry. Log entry 70, DEDUCED. -/
def execSelfRefreshEntry (dt : Nat) (abandoned : Bool) (s : State) : Host.Outcome State Fault Refusal :=
  let s := s.elapse dt
  if s.live && !s.isShut 13 && s.mem.st == .running && s.srIdle != 0 && !s.mem.waits &&
      decide (s.mem.requestAt + s.srIdle * msP ≤ s.now) && decide (s.mem.srNotBefore ≤ s.now) then
    if abandoned then
      .next (s.setMem fun m => { m with srAbandoned := m.srAbandoned + 1, requestAt := s.now })
    else .next (s.setMem fun m => { m.refreshed with st := .selfRefresh, srEntries := m.srEntries + 1 })
  else .next s

/-- SELF_REFRESH_EXIT (R304): a request that has arrived ends self-refresh; no entry is attempted for 1 ms after. -/
def execSelfRefreshExit (dt : Nat) (s : State) : Host.Outcome State Fault Refusal :=
  let s := s.elapse dt
  if s.live && !s.isShut 13 && s.mem.st == .selfRefresh && s.mem.waits then
    .next (s.setMem fun m => { m with st := .running, srNotBefore := s.now + msP, refreshAt := s.now })
  else .next s

/-! ## Read errors -/

/-- Errors of the words an access has read (R299), and what those of the last second raise (Table 10.8): `corrected` words, and
the addresses of the uncorrectable ones. -/
def State.memErrors (s : State) (corrected : Nat) (bad : List Nat) : State :=
  if corrected = 0 ∧ bad = [] then s
  else
    let recent := (s.now, corrected, bad.length) :: s.mem.eccRecent.filter fun e => s.now < e.1 + secP
    let nc := (recent.map fun e => e.2.1).sum
    let nb := (recent.map fun e => e.2.2).sum
    let s := s.setMem fun m =>
      { m with
        eccRecent := recent
        eccCorrected := m.eccCorrected + BitVec.ofNat 64 corrected
        eccUncorrected := m.eccUncorrected + BitVec.ofNat 64 bad.length
        eccLastAddr := (bad.getLast?.map (BitVec.ofNat 64)).getD m.eccLastAddr }
    let s := if nc > 4096 then s.memWarn 3 0x00100001#32 (BitVec.ofNat 32 nc) false else s
    if nb > 16 then s.report 13 (memFault 2) (BitVec.ofNat 32 nb) else s

end Sys2Proof.Machine
end

