-- ==== Sys2Proof/Machine/Events.lean ====
section
/-! DEFINITION. The event engine (R241 to R263): windows and features of every detector, decisions of zone and detector pairs,
EVENT records, snapshot requests, fibre breaks, and the alarm outputs. -/

namespace Sys2Proof.Machine

/-! ## Zones and detectors -/

/-- ID, detector mask, first gauge value and count of a zone (Table 8.6). -/
def State.zone (s : State) (p : Port) (k : Nat) : Nat × Nat × Nat × Nat :=
  let e := s.zoneEntry p k
  (fieldAt e 0 2 % 4096, fieldAt e 2 2, fieldAt e 4 4, fieldAt e 8 4)

/-- The zones of a port in order of their IDs. -/
def State.zones (s : State) (p : Port) : List (Nat × Nat × Nat × Nat) :=
  ((List.range (s.zoneCount p)).map (s.zone p)).mergeSort fun a b => a.1 ≤ b.1

def State.detFeature (s : State) (p : Port) (d : Nat) : Nat := fieldOr (s.detector p d) 2 1 0
/-- W (R243). -/
def State.detWindow (s : State) (p : Port) (d : Nat) : Nat := 2 ^ fieldOr (s.detector p d) 3 1 8
def State.detLo (s : State) (p : Port) (d : Nat) : Nat := fieldOr (s.detector p d) 4 2 0
def State.detHi (s : State) (p : Port) (d : Nat) : Nat := fieldOr (s.detector p d) 6 2 512
def State.detOn (s : State) (p : Port) (d : Nat) : Nat := fieldOr (s.detector p d) 8 4 0
def State.detOff (s : State) (p : Port) (d : Nat) : Nat := fieldOr (s.detector p d) 12 4 0
def State.detAgg (s : State) (p : Port) (d : Nat) : Nat := fieldOr (s.detector p d) 16 2 1
def State.detMinAssessed (s : State) (p : Port) (d : Nat) : Nat := fieldOr (s.detector p d) 18 1 50
def State.persistOn (s : State) (p : Port) (d : Nat) : Nat := fieldOr (s.detector p d) 19 1 2
def State.persistOff (s : State) (p : Port) (d : Nat) : Nat := fieldOr (s.detector p d) 20 1 4
def State.snapPre (s : State) (p : Port) (d : Nat) : Nat := fieldOr (s.detector p d) 21 1 0
def State.snapPost (s : State) (p : Port) (d : Nat) : Nat := fieldOr (s.detector p d) 22 1 0
def State.snapMargin (s : State) (p : Port) (d : Nat) : Nat := fieldOr (s.detector p d) 24 2 0

/-- Detectors of a port, ascending. -/
def State.detectors (s : State) (p : Port) : List Nat := (List.range 16).filter fun d => (s.detector p d).isSome

/-- Every pair of a port, OFF, in the order of R250. -/
def State.newPairs (s : State) (p : Port) : List PairSt :=
  (s.zones p).flatMap fun z =>
    ((s.detectors p).filter fun d => bitOf z.2.1 d).map fun d => ({ zone := z.1, detector := d } : PairSt)

/-- Change EVT, and one port of it. -/
def State.setEvt (s : State) (f : Evt → Evt) : State := { s with evt := f s.evt }
def State.setEvtPort (s : State) (p : Port) (f : EvtPort → EvtPort) : State :=
  s.setEvt fun e => { e with ports := upd e.ports p f }

/-- EVT runs and is not fenced. -/
def State.evtOn (s : State) : Bool := s.live && s.evt.running && !s.isShut 11

/-! ## Alarm outputs -/

/-- An entry of ALARM_MAP (Table 8.8). -/
structure AlarmEntry where
  port : Port
  isBreak : Bool
  mask : Nat
  first : Nat
  last : Nat
deriving DecidableEq, Repr

/-- The entries of an output. -/
def State.alarmEntries (s : State) (o : Fin 4) : List AlarmEntry :=
  (List.range (fieldOr (s.alarmMap o) 6 2 0)).map fun k =>
    let e := slice ((s.alarmMap o).getD []) (8 + 8 * k) 8
    { port := if fieldAt e 0 1 = 1 then 1 else 0, isBreak := fieldAt e 1 1 == 1, mask := fieldAt e 2 2,
      first := fieldAt e 4 2, last := fieldAt e 6 2 }

/-- Some pair of a port in a block of zone IDs, among the detectors of a mask, is ON. -/
def State.pairsOn (s : State) (p : Port) (mask first last : Nat) : Bool :=
  s.evt.ports[p].pairs.any fun q => q.on && bitOf mask q.detector && decide (first ≤ q.zone) && decide (q.zone ≤ last)

/-- Some zone of a block is ON (Table 14.5, source 2). -/
def State.zonesOn (s : State) (p : Port) (first last : Nat) : Bool := s.pairsOn p 0xFFFF first last

/-- A fibre break of the port is declared. -/
def State.breakStands (s : State) (p : Port) : Bool := s.evt.ports[p].brk.stands

/-- An output is demanded (R251). -/
def State.demandOf (s : State) (o : Fin 4) : Bool :=
  (s.alarmEntries o).any fun e => if e.isBreak then s.breakStands e.port else s.pairsOn e.port e.mask e.first e.last

/-- The demand of all outputs as EVT knows it. -/
def State.demand (s : State) : BitVec 4 := BitVec.ofNat 4 (bitsOf ((List.finRange 4).map s.demandOf))

/-- The land of an output changes or stays; an assertion is counted. -/
def AlarmOut.setLand (a : AlarmOut) (on : Bool) (now : Nat) : AlarmOut :=
  if on && !a.asserted then { a with asserted := true, since := now, asserts := a.asserts + 1 } else { a with asserted := on }

/-- An output follows its demand, by its mode (R251): latched when first demanded, or released once not demanded and asserted for
MIN_ASSERT. -/
def AlarmOut.follow (a : AlarmOut) (mode minP now : Nat) (d : Bool) : AlarmOut :=
  if mode = 1 then
    let a := if d then { a with latched := true } else a
    a.setLand a.latched now
  else if d then a.setLand true now
  else if decide (a.since + minP ≤ now) then a.setLand false now else a

/-- Every port that an output's zone entries name has completed a window since FD11 recovered (R253). -/
def State.windowsSeen (s : State) (o : Fin 4) : Bool :=
  (s.alarmEntries o).all fun e => e.isBreak || s.evt.ports[e.port].windowSince

/-- The output stage takes a demand (R251 to R253): an output that holds a fence state keeps it. -/
def State.outputAfter (s : State) (d : BitVec 4) (o : Fin 4) : AlarmOut :=
  let a := { s.alarms[o] with demanded := d.getLsbD o.val }
  let a := if a.waits && s.windowsSeen o then { a with waits := false } else a
  if a.fenced || a.waits then a
  else if (s.alarmEntries o).isEmpty then a
  else a.follow (s.alarmMode o) (s.minAssert o * msP) s.now (d.getLsbD o.val)

/-- All outputs after a demand. -/
def State.outputsAfter (s : State) (d : BitVec 4) : Vector AlarmOut 4 := Vector.ofFn (s.outputAfter d)

/-! ## Notices -/

/-- The states EVT sends (Table 9.4). -/
def State.evtSays (s : State) : EvtNotice :=
  { demand := s.demand
    breaks := Vector.ofFn fun p => (s.evt.ports[p].brk.stands, s.evt.ports[p].brk.point)
    ends := Vector.ofFn fun p => s.evt.ports[p].lastEnd }

/-- Nodes with sinks of EVT's notices (Table 9.4): RG7 and RG8 with the controllers and the black box, RG9 with the operator side and
the alarm output stage. -/
def evtSinks : List Region := [7, 8, 9]

/-- EVT forms a U notice of its states (R257, R272, R273, R432); a later one replaces an earlier one. Log entry 49, DEDUCED. -/
def State.notice (s : State) : State :=
  s.setEvt fun e => { e with notice := some ⟨s.evtSays, evtSinks⟩, notices := e.notices + 1 }

/-- A notice of EVT reaches the sinks at some nodes (R253, R272): they hold its states, and the output stage follows the demand. A
fenced operator side discards it (R271). -/
def State.evtReaches (s : State) (d : EvtNotice) (sinks : List Region) : State :=
  let at9 := sinks.contains 9
  let s := if at9 then { s with alarms := s.outputsAfter d.demand } else s
  let s := s.setUrgent fun u => { u with evt := Vector.ofFn fun i => if sinks.contains (evtSinks.getD i.val 9) then some d else u.evt[i] }
  if at9 && s.isShut 17 then s.fencedFlits 1 else s

/-- ALARM_MIN_ASSERT_EXPIRY (R251): an output in MODE 0 that is no longer demanded has been asserted for MIN_ASSERT. -/
def execAlarmMinAssertExpiry (dt : Nat) (o : Fin 4) (s : State) : Host.Outcome State Fault Refusal :=
  let s := s.elapse dt
  let a := s.alarms[o]
  if s.live && a.asserted && !a.demanded && !a.fenced && !a.waits && s.alarmMode o == 0 &&
      decide (a.since + s.minAssert o * msP ≤ s.now) then
    .next { s with alarms := s.alarms.set o (a.setLand false s.now) }
  else .next s

/-- An acknowledgement of the outputs of a mask (R251, R253): each latched output that is not demanded is released; none while EVT
is fenced. -/
def State.acknowledge (s : State) (mask : Nat) : State :=
  if s.isShut 11 then s
  else
    { s with alarms := Vector.ofFn fun o =>
      let a := s.alarms[o]
      if bitOf mask o.val && a.latched && !a.demanded && !s.demandOf o then { a with latched := false, asserted := false } else a }

/-- FD11 is fenced: each output takes its FENCE_STATE at the land (R253). Log entry 50, DEDUCED. -/
def State.alarmsFence (s : State) : State :=
  { s with alarms := Vector.ofFn fun o =>
    let a := { s.alarms[o] with fenced := true }
    match s.alarmFenceState o with
    | 1 => if (s.alarmEntries o).isEmpty then a else a.setLand true s.now
    | 2 => a.setLand false s.now
    | _ => a }

/-- No fence state is applied (R412, R253): an output under one follows EVT's demand, as it last reached it.
Log entry 50, DEDUCED. -/
def State.alarmsFree (s : State) : State :=
  { s with alarms := Vector.ofFn fun o =>
    let a := s.alarms[o]
    if a.fenced then { a with fenced := false }.follow (s.alarmMode o) (s.minAssert o * msP) s.now a.demanded else a }

/-- FD11 has recovered (R253): outputs whose entries are all breaks are recomputed, the others wait for their ports' windows; a
latched output is asserted again. Log entry 50, DEDUCED. -/
def State.alarmsRecover (s : State) : State :=
  let d := s.demand
  { s with alarms := Vector.ofFn fun o =>
    let a := { s.alarms[o] with fenced := false, demanded := d.getLsbD o.val }
    let a := if a.latched then a.setLand true s.now else a
    if (s.alarmEntries o).isEmpty then a
    else if (s.alarmEntries o).all (·.isBreak) then
      { a with waits := false }.follow (s.alarmMode o) (s.minAssert o * msP) s.now (d.getLsbD o.val)
    else { a with waits := true } }

/-! ## Snapshot requests -/

/-- Sizes in bytes of the SNAPSHOT records of a span: groups of up to 16 samples, cut into runs of points (R261, R328). -/
def snapRecordSizes (product limit : Nat) (points : Nat) : Nat → Nat → List Nat
  | 0, _ => []
  | fuel + 1, samples =>
    if samples = 0 ∨ points = 0 then []
    else
      let g := min 16 samples
      let k := mostPoints (fun n => 24 + dasSize product true g n) (limit - 36) points
      ((cutRuns k points 0 points).map fun c => 36 + 24 + dasSize product true g c.2) ++
        snapRecordSizes product limit points fuel (samples - g)

/-- Acoustic samples per sample of a port's ring. -/
def State.ringStep (s : State) (p : Port) : Nat :=
  2 ^ (if s.histSource p.val = 1 then s.coarseFactor p else s.decFactor p)

/-- Multiples of `m` from `a` to `b`. -/
def multiplesIn (m : Nat) (a b : Int) : Nat := (b / (m : Int) - (a - 1) / (m : Int)).toNat

/-- Segments of 4 KiB in a size. -/
def segsOf (bytes : Nat) : Nat := (bytes + 4031) / 4032

/-- Pool segments that waiting requests will take. -/
def Mem.promised (m : Mem) : Nat := (m.requests.map (·.segs)).sum

/-- The pool has no room for a further snapshot of `segs` segments, after those that wait: it would overwrite a snapshot that is
younger than SNAP_KEEP, is being copied or waits (R318). -/
def State.poolBusy (s : State) (segs : Nat) : Bool :=
  let total := s.mem.pool.size / 4096
  let last := s.mem.pool.seq + s.mem.promised + segs
  let hit := fun (a : Nat) => decide (a + total ≤ last)
  decide (total < s.mem.promised + segs) ||
    s.mem.stored.any (fun x => hit x.seg && (match x.closedAt with
      | some t => decide (s.now < t + s.snapKeep * secP)
      | none => true)) ||
    (s.mem.copying.map fun c => hit c.seg).getD false

/-- An onset requests its snapshot (R259, R260): its identity, or zero and whether it was skipped. Log entry 49, DEDUCED. -/
def State.requestSnap (s : State) (p : Port) (d zone first count : Nat) (j0 : Int) : State × Nat × Bool :=
  let pre := s.snapPre p d
  let post := s.snapPost p d
  if pre + post = 0 then (s, 0, false)
  else
    let w := s.detWindow p d
    let a := j0 - (pre * w : Nat)
    let b := j0 + (w * (post + 1) : Nat) - 1
    let hi := min (s.nPoints p) (first + count + s.snapMargin p d)
    let lo := first - s.snapMargin p d
    let rFirst := s.histFirst p.val
    let rEnd := rFirst + takeCount (s.nPoints p) rFirst (s.histCount p.val)
    let lo := max lo rFirst
    let n := min hi rEnd - lo
    let m := multiplesIn (s.ringStep p) a b
    let segs := segsOf (snapRecordSizes (s.histProduct p.val) ringRecordLimit n m m).sum
    if s.histSizeMiB p.val ≠ 0 ∧ segs ≠ 0 ∧ s.ringsOpen = true ∧ s.poolBusy segs = false then
      let id := s.evt.snapTaken + 1
      let r : SnapReq :=
        { id := id, sequence := nextSeq s.evt.sequence, port := p.val, detector := d, zone := zone, fromJ := a, toJ := b,
          first := lo, count := n, segs := segs, ringSeq := s.mem.rings[dasRing p].seq }
      let s := s.setEvt fun e => { e with snapTaken := id }
      ({ s with mem := { s.mem with requests := s.mem.requests ++ [r] } }, id.toNat, false)
    else (s.setEvt fun e => { e with snapSkipped := e.snapSkipped + 1 }, 0, true)

/-! ## EVENT records -/

/-- An EVENT record is formed (R250, R258): it takes the next sequence number and signals MSI-X vector 4. -/
def State.event (s : State) (e : EventRec) (decided : U64) (alarms snap : Nat) (skipped : Bool) : State :=
  let q := nextSeq s.evt.sequence
  let flags := bitIf s.evt.ports[e.port].afterRecovery 0 + bitIf skipped 1 + bitIf (s.irregular e.port) 2
  let payload := le 4 q.toNat ++ le 1 e.kind ++ le 1 e.port.val ++ le 1 e.detector ++ le 1 flags ++ le 2 e.zone ++ le 1 alarms ++
    le 1 0 ++ le 4 e.peakGauge ++ le 4 e.peakValue ++ le 4 e.above ++ le 4 e.assessed ++ le 4 snap ++ leInt 8 e.j ++
    le 8 e.time.toNat ++ le 8 decided.toNat
  let s := s.setEvt fun x => { x with sequence := q, events := x.events + 1 }
  let s := s.setEvtPort e.port fun x => { x with afterRecovery := false }
  (s.emitRec (s.newRec 0x20 e.port.val payload)).msixEvent 4

/-- Outputs asserted at their lands once the decisions made so far have acted (Table 8.2, ALARMS). -/
def State.alarmBits (s : State) : Nat := bitsOf ((s.outputsAfter s.demand).toList.map (·.asserted))

/-- The EVENT record of a decision is formed (R250, R257, R259): an onset requests its snapshot, and a break declared or cleared signals
MSI-X vector 5. -/
def State.formEvent (s : State) (e : EventDue) : State :=
  let x := e.tells
  let snap := match e.span with
    | some z => s.requestSnap x.port x.detector x.zone z.1 z.2 x.j
    | none => (s, 0, false)
  let s := snap.1.event x e.decided e.alarms snap.2.1 snap.2.2
  if x.kind = 2 ∨ x.kind = 3 then s.msixEvent 5 else s

/-- The EVENT records of the decisions made so far are formed, in their order (R250). -/
def State.formEvents (s : State) : State := s.evt.due.foldl State.formEvent (s.setEvt fun x => { x with due := [] })

/-- Decisions are made: their EVENT records are still to be formed. Decisions of an earlier time come before them, and of decisions at
one time those of P0 (R250); the outputs are taken as all decisions of the time leave them (Table 8.2, ALARMS).
Log entry 101, DEDUCED. -/
def State.decided (s : State) (es : List EventDue) : State :=
  let s := if s.evt.due.any fun e => e.decided != s.devTime then s.formEvents else s
  let l := s.evt.due ++ es
  let bits := s.alarmBits
  s.setEvt fun x => { x with due := ((l.filter fun e => e.tells.port == 0) ++ l.filter fun e => e.tells.port == 1).map fun e =>
    { e with alarms := bits } }

/-! ## What the output stage does -/

/-- ALARM_DEMAND_NOTICE (R253, R257, R274): EVT's notice reaches its sinks, among them the output stage; the EVENT records of its
decisions follow. -/
def execAlarmDemandNotice (dt : Nat) (s : State) : Host.Outcome State Fault Refusal :=
  let s := s.elapse dt
  match s.evt.notice with
  | none => .next s
  | some f =>
    if s.live && s.mayInject .evt then
      .next (((s.setEvt fun e => { e with notice := none }).evtReaches f.tells f.sinks).injected .evt).formEvents
    else .next s

/-! ## Features -/

/-- Inputs that are replaced by zero (R244). -/
def replaced (code : Nat) : Bool := code == 0 || code == 1 || code == 2 || code == 3 || code == 5

/-- The inputs of a sample: d(n), or none where replaced. -/
def DecSample.inputs (x : DecSample) : List (Option Int) :=
  (x.d.zip x.codes).map fun e => if x.missing || replaced e.2 then none else some e.1

/-- An edge of a band filter as the bilinear transform takes it: tan(π · F / 1,024). -/
def edgeTan (f : Nat) : Int :=
  let c := cosSinF (piF * (f : Int) / 1024)
  divF c.2 c.1

/-- Numerator and denominator, by rising powers of s, of the fourth-order Butterworth filter with edges F_LO and F_HI: band-pass,
low-pass with F_LO zero, high-pass with F_HI 512 (R245). Log entry 43, DESIGN CHOICE. -/
def butterworth (lo hi : Nat) : List Int × List Int :=
  let root2 := sqrtF (2 * unitF)
  if lo ≠ 0 ∧ hi ≠ 512 then
    let b := edgeTan hi - edgeTan lo
    let o := mulF (edgeTan lo) (edgeTan hi)
    let bb := mulF b b
    ([0, 0, bb, 0, 0], [mulF o o, mulF root2 (mulF b o), 2 * o + bb, mulF root2 b, unitF])
  else
    let w := edgeTan (if lo = 0 then hi else lo)
    let c := cosSinF (piF / 8)
    let q := 2 * (c.1 + c.2)
    let ww := mulF w w
    (if lo = 0 then [mulF ww ww, 0, 0, 0, 0] else [0, 0, 0, 0, unitF],
      [mulF ww ww, mulF q (mulF ww w), mulF (2 * unitF + root2) ww, mulF q w, unitF])

/-- Coefficients of (1 − w)^k · (1 + w)^(4 − k) by rising powers of w, for k from 0 to 4. -/
def bilinearRows : List (List Int) := [[1, 4, 6, 4, 1], [1, 2, 0, -2, -1], [1, 0, -2, 0, 1], [1, -2, 0, 2, -1], [1, -4, 6, -4, 1]]

/-- A polynomial of degree 4 in s under the bilinear transform s = (1 − w)/(1 + w), as coefficients of the delay w. -/
def bilinear (c : List Int) : List Int :=
  (List.range 5).map fun i => ((bilinearRows.zip c).map fun e => e.1.getD i 0 * e.2).sum

/-- One gauge value's filter takes an input: its next state and its output, in 2⁻⁹⁶; `num` and `den` are the filter's coefficients. -/
def filterStep (num den : List Int) (st : List Int) (x : Int) : List Int × Int :=
  let xs := x * unitF :: st.take 4
  let ys := (List.range 4).map fun i => st.getD (i + 4) 0
  let sumOf := fun (c v : List Int) => ((c.zip v).map fun e => mulF e.1 e.2).sum
  let y := divF (sumOf num xs - sumOf (den.drop 1) ys) (den.headD unitF)
  ((List.range 4).map (fun i => xs.getD i 0) ++ y :: ys.take 3, y)

/-- One band filter takes a sample: its next states and y² per gauge value, in 2⁻⁶⁴ LSB² (R245). Log entry 43, DESIGN CHOICE. -/
def BandSt.step (b : BandSt) (xs : List (Option Int)) : BandSt × List Nat :=
  if b.lo = 0 ∧ b.hi = 512 then (b, xs.map fun x => ((x.getD 0) * (x.getD 0)).toNat * 2 ^ 64)
  else
    let h := butterworth b.lo b.hi
    let r := xs.zipIdx.map fun e => filterStep (bilinear h.1) (bilinear h.2) (b.states.getD e.2 []) (e.1.getD 0)
    ({ b with states := r.map (·.1) }, r.map fun e => (e.2 * e.2).toNat / 2 ^ 128)

/-- Band energy in 0.1 dB: 10 · log10 of a sum in 2⁻⁶⁴ LSB² over V, rounded, within 0 to 1,500 (R245). Log entry 47, DEDUCED. -/
def energySteps (sum v : Nat) : Nat :=
  let ok := fun (e : Nat) => decide (10 ^ (2 * e - 1) * (v * 2 ^ 64) ^ 200 ≤ sum ^ 200)
  (List.range 11).foldl (fun x k => let y := x + 2 ^ (10 - k); if y ≤ 1500 ∧ ok y = true then y else x) 0

/-- Phase rate in 0.001 rad/s: |Σx| · π/16,384 over a time in 2⁻⁸ ns, rounded convergently (R246). -/
def rateSteps (sum : Int) (tau : Rat) : Nat := (ratRound (sum.natAbs * ofF piF * 256000000000000 / (16384 * tau))).toNat

/-- The window length τ_w of a completed window, 2⁻⁸ ns (R246). -/
def State.windowTau (s : State) (p : Port) (w : WindowSt) : Rat :=
  let n := s.detWindow p w.detector
  if s.irregular p then ((w.lastTime - w.firstTime).toNat * n : Nat) / ((n - 1 : Nat) : Rat)
  else (n * s.period10 p * 2560 : Nat) / ((max 1 (s.pleats p) : Nat) : Rat)

/-- The feature of each gauge value of a completed window, none where it is not assessed (R244 to R246). A window that spans no
time has a rate the spec does not state (free value). Log entry 47, DEDUCED. -/
def State.features (s : State) (p : Port) (w : WindowSt) : List (Option Nat) :=
  let n := s.detWindow p w.detector
  let tau := s.windowTau p w
  w.sums.map fun e =>
    if 2 * e.2 < n ∨ e.2 = 0 then none
    else if s.detFeature p w.detector = 0 then some (energySteps e.1.toNat e.2)
    else if tau = 0 then some ((Config.freeWord s.free).toNat % 2 ^ 32)
    else some (rateSteps e.1 tau)

/-- Add a sample to a window. -/
def WindowSt.add (w : WindowSt) (x : DecSample) (vals : List (Option Int)) : WindowSt :=
  let sums := if w.sums.isEmpty then vals.map fun _ => (0, 0) else w.sums
  { w with
    lastTime := x.time
    sums := (sums.zip vals).map fun e => match e.2 with
      | some v => (e.1.1 + v, e.1.2 + 1)
      | none => e.1 }

/-- Time between acoustic samples, T/P, 2⁻⁸ ns. -/
def State.acousticStep (s : State) (p : Port) : Nat := s.period10 p * 2560 / max 1 (s.pleats p)

/-- A scheduled sample's time is kept for the windows that begin with it (R243, R258). -/
def State.markSample (s : State) (p : Port) (j : Int) (time : U64) : State :=
  s.setEvtPort p fun e => { e with marks := Vector.ofFn fun d =>
    if j % (s.detWindow p d.val : Int) = 0 then some (j, time) else e.marks[d] }

/-- A scheduled group's first shot is kept (R258). -/
def State.markGroup (s : State) (p : Port) (group : U48) (k : Nat) (j : Int) (time : U64) : State :=
  if k = 0 then s.setEvtPort p fun e => { e with groupStart := some (group, j, time) } else s

/-- Time of the first sample of a window: as it was scheduled or launched; of one that was never scheduled, the time the programme
would have given it before sample `x` (R258). Log entry 47, DEDUCED. -/
def State.windowStart (s : State) (p : Port) (d : Nat) (first : Int) (x : DecSample) : U64 :=
  match (s.evt.ports[p].marks.toList[d]?).join with
  | some m => if m.1 = first then m.2 else x.time - BitVec.ofNat 64 ((x.j - first).toNat * s.acousticStep p)
  | none => x.time - BitVec.ofNat 64 ((x.j - first).toNat * s.acousticStep p)

/-- The window of a detector that a sample falls in: the open one, or a new one. -/
def State.windowFor (s : State) (p : Port) (d : Nat) (x : DecSample) : WindowSt :=
  let w := s.detWindow p d
  let first := x.j - x.j % (w : Int)
  match s.evt.ports[p].windowsOpen.find? fun o => o.detector == d && o.first == first with
  | some o => o
  | none => { detector := d, first := first, sums := [], lastTime := x.time, firstTime := s.windowStart p d first x }

/-! ## Decisions -/

/-- What a zone's window shows: assessed gauge values, those at or above ON_LEVEL and OFF_LEVEL, and the highest feature with
its gauge value. -/
structure ZoneView where
  a : Nat := 0
  on : Nat := 0
  off : Nat := 0
  peak : Option (Nat × Nat) := none
deriving DecidableEq, Repr

/-- View a zone (R248). -/
def zoneView (fs : List (Option Nat)) (first count onLevel offLevel : Nat) : ZoneView :=
  (((fs.drop first).take count).zipIdx).foldl (fun v e => match e.1 with
    | none => v
    | some f =>
      { a := v.a + 1
        on := if f ≥ onLevel then v.on + 1 else v.on
        off := if f ≥ offLevel then v.off + 1 else v.off
        peak := match v.peak with
          | some (g, m) => if f > m then some (first + e.2, f) else some (g, m)
          | none => some (first + e.2, f) }) {}

/-- The window of a pair is unassessed (R248). -/
def unassessed (a count minPercent : Nat) : Bool := a == 0 || decide (a * 100 < minPercent * count)

/-- A pair takes an assessed window (R248): its next state, and whether it emits an onset or a clear. -/
def PairSt.evaluate (q : PairSt) (v : ZoneView) (agg persistOn persistOff : Nat) : PairSt × Option Bool :=
  if !q.on then
    let up := if v.on ≥ agg then q.up + 1 else 0
    if up ≥ persistOn then ({ q with on := true, up := 0, down := 0 }, some true) else ({ q with up := up }, none)
  else
    let down := if v.off < agg then q.down + 1 else 0
    if down ≥ persistOff then ({ q with on := false, up := 0, down := 0 }, some false) else ({ q with down := down }, none)

/-- What one pair's evaluation leaves. -/
structure PairStep where
  pair : PairSt
  done : Bool := false
  skipped : Bool := false
  emit : Option Bool := none
  view : ZoneView := {}
deriving DecidableEq, Repr

/-- A pair at a sample that completes windows (R248). -/
def State.stepPair (s : State) (p : Port) (feats : List (Nat × List (Option Nat))) (q : PairSt) : PairStep :=
  match feats.find? fun f => f.1 == q.detector, (s.zones p).find? fun z => z.1 == q.zone with
  | some f, some z =>
    let d := q.detector
    let v := zoneView f.2 z.2.2.1 z.2.2.2 (s.detOn p d) (s.detOff p d)
    if unassessed v.a z.2.2.2 (s.detMinAssessed p d) then { pair := q, done := true, skipped := true, view := v }
    else
      let r := q.evaluate v (s.detAgg p d) (s.persistOn p d) (s.persistOff p d)
      { pair := r.1, done := true, emit := r.2, view := v }
  | _, _ => { pair := q }

/-- What the EVENT record of a pair's decision will say (R250, R258); an onset spans its zone (R259). -/
def State.decisionOf (s : State) (p : Port) (windows : List WindowSt) (r : PairStep) : Option EventDue :=
  match r.emit, windows.find? fun w => w.detector == r.pair.detector with
  | some onset, some w =>
    let z := ((s.zones p).find? fun z => z.1 == r.pair.zone).getD (0, 0, 0, 0)
    some
      { tells :=
          { kind := if onset then 0 else 1, port := p, detector := r.pair.detector, zone := r.pair.zone
            peakGauge := (r.view.peak.map (·.1)).getD 0, peakValue := (r.view.peak.map (·.2)).getD 0
            above := if onset then r.view.on else r.view.off, assessed := r.view.a, j := w.first, time := w.firstTime }
        decided := s.devTime, span := if onset then some (z.2.2.1, z.2.2.2) else none }
  | _, _ => none

/-- The decision instant of windows a sample has completed (R248, R250, R252): every pair is evaluated, then one notice carries the
demand that results. -/
def State.decide_ (s : State) (p : Port) (done : List WindowSt) : State :=
  let feats := done.map fun w => (w.detector, s.features p w)
  let s := s.takeFree
  let rs := s.evt.ports[p].pairs.map (s.stepPair p feats)
  let s := s.setEvtPort p fun e =>
    { e with
      pairs := rs.map (·.pair)
      windows := e.windows + BitVec.ofNat 64 (rs.filter (·.done)).length
      unassessed := e.unassessed + BitVec.ofNat 64 (rs.filter (·.skipped)).length
      windowSince := true }
  s.notice.decided (rs.filterMap (s.decisionOf p done))

/-- EVT takes an acoustic sample (R241, R243): band filters, windows, and the decisions of windows it completes. -/
def State.evtSample (s : State) (p : Port) (x : DecSample) : State :=
  let s := s.markSample p x.j x.time
  if s.live && s.isShut 11 then s.fencedFlits (Config.sampleFlits (s.nPoints p))
  else if !s.evtOn then s
  else
    let xs := x.inputs
    let stepped := s.evt.ports[p].bands.map fun b => b.step xs
    let ds := s.detectors p
    let ws := ds.map fun d =>
      let vals : List (Option Int) :=
        if s.detFeature p d = 0 then
          let ys := ((stepped.find? fun b => b.1.lo == s.detLo p d && b.1.hi == s.detHi p d).map (·.2)).getD []
          (xs.zip ys).map fun e => e.1.map fun _ => (e.2 : Int)
        else xs
      (s.windowFor p d x).add x vals
    let ends := fun (w : WindowSt) => (x.j + 1) % (s.detWindow p w.detector : Int) == 0
    let s := s.setEvtPort p fun e =>
      { e with bands := stepped.map (·.1), windowsOpen := ws.filter fun w => !ends w }
    let done := ws.filter ends
    if done.isEmpty then s else s.decide_ p done

/-- The band filters a port's detectors need, cleared (R245, R247). -/
def State.newBands (s : State) (p : Port) : List BandSt :=
  (((s.detectors p).filter fun d => s.detFeature p d == 0).map fun d => (s.detLo p d, s.detHi p d)).eraseDups.map
    fun e => { lo := e.1, hi := e.2, states := [] }

/-- The port's band filters are cleared (R245, R249). -/
def State.clearBands (s : State) (p : Port) : State :=
  s.setEvtPort p fun e => { e with bands := s.newBands p }

/-! ## Fibre breaks -/

/-- The smallest index from which the mean of `win` powers, or of those that remain, lies below `num / 32` each; else the number
of powers (R255 step 1, R256). -/
def recordEnd (win num : Nat) : Nat → List Nat → Nat
  | i, [] => i
  | i, x :: t =>
    let w := (x :: t).take win
    if 32 * w.sum < num * w.length then i else recordEnd win num (i + 1) t

/-- EVT forms group ends for the port (R255, R430). -/
def State.formsEnds (s : State) (p : Port) : Bool := s.breakMargin p != 0 || s.alsDistance p != 0

/-- A group end is near (R430): `step` is P, or 2 for DTS points. -/
def State.isNear (s : State) (p : Port) (step e : Nat) : Bool :=
  decide (e * step * lightSpeed * 25 ≤ s.alsDistance p * s.groupIndex p * 1000000)

/-- Change a port's break state. -/
def State.setBrk (s : State) (p : Port) (f : BreakSt → BreakSt) : State :=
  s.setEvtPort p fun e => { e with brk := f e.brk }

/-- A break event of a group: the notice with the break and its point, and the EVENT record that follows it (R257). -/
def State.breakEvent (s : State) (p : Port) (kind point : Nat) (j : Int) (time : U64) : State :=
  s.notice.decided
    [{ tells := { kind := kind, port := p, peakGauge := point, j := j, time := time }, decided := s.devTime }]

/-- Break detection takes a group end (R255 step 3 and the declaration). -/
def State.breakGroup (s : State) (p : Port) (e : Nat) (j : Int) (time : U64) : State :=
  let b := s.evt.ports[p].brk
  let m := s.breakMargin p
  if m = 0 then s
  else match b.established with
    | none =>
      let ends := b.ends ++ [e]
      if ends.length ≥ 1024 then
        s.setBrk p fun b => { b with ends := [], established := (ends.mergeSort (· ≤ ·))[511]? }
      else s.setBrk p fun b => { b with ends := ends }
    | some E =>
      if !b.stands then
        if e + m < E then
          (s.setBrk p fun b => { b with stands := true, point := e, clear := 0, breaks := b.breaks + 1 }).breakEvent p 2 e j time
        else s
      else if e + m ≥ E then
        if b.clear + 1 ≥ 64 then
          (s.setBrk p fun b => { b with stands := false, clear := 0, established := none, ends := [] }).breakEvent p 3 b.point j time
        else s.setBrk p fun b => { b with clear := b.clear + 1 }
      else if e < b.point then (s.setBrk p fun b => { b with clear := 0, point := e }).breakEvent p 4 e j time
      else s.setBrk p fun b => { b with clear := 0 }

/-- A probe group that has no end has not ended far (R433). -/
def State.alsGroupMissing (s : State) (p : Port) (group : U48) : State :=
  s.setAls p fun a =>
    { a with groups := a.groups.map fun g =>
        if g.group = group ∧ g.near = none then { g with near := some true, point := a.shutdownPoint } else g }

/-- A group's end goes to the ALS controller, on a notice of its own, and to EVT's other sinks (R432, Table 9.4). -/
def State.tellEnd (s : State) (p : Port) (group : U48) (near : Bool) (point : U32) : State :=
  ((s.setEvtPort p fun e => { e with lastEnd := some ⟨group, near, point⟩ }).notice).alsGroupEnd p group near point

/-- The group under way ends: ALS and break detection take its end, if it has one (R255, R432). -/
def State.endGroup (s : State) (p : Port) (step : Nat) : State :=
  match s.evt.ports[p].brk.group with
  | none => s
  | some (g, j, time) =>
    let e := s.evt.ports[p].brk.eMax
    let s := s.setBrk p fun b => { b with group := none, eMax := none }
    match e with
    | none => s.alsGroupMissing p g
    | some e =>
      let s := s.breakGroup p e j time
      if s.alsDistance p = 0 then s else s.tellEnd p g (s.isNear p step e) (BitVec.ofNat 32 e)

/-- Index and time of a group's first shot: as scheduled or launched; where that was never scheduled, reckoned back from pleat `k`
(R258). Log entry 47, DEDUCED. -/
def State.groupFirst (s : State) (p : Port) (group : U48) (k : Nat) (j : Int) (time : U64) : Int × U64 :=
  let back := (j - (k : Int), time - BitVec.ofNat 64 (k * s.acousticStep p))
  match s.evt.ports[p].groupStart with
  | some g => if g.1 = group then g.2 else back
  | none => back

/-- EVT takes the end of a record, or a shot without one, of a group's pleat `k` of `n` (R255): the group ends with its last
pleat, or when the next group begins. -/
def State.evtEnd (s : State) (p : Port) (step : Nat) (group : U48) (k n : Nat) (j : Int) (time : U64) (e : Option Nat) : State :=
  let s := s.markGroup p group k j time
  if !s.evtOn || !s.formsEnds p then s
  else
    let other := (s.evt.ports[p].brk.group.map fun g => g.1 != group).getD false
    let s := if other then s.endGroup p step else s
    let s := s.setBrk p fun b =>
      { b with
        group := b.group.orElse fun _ => some (group, s.groupFirst p group k j time)
        eMax := match b.eMax, e with
          | some a, some c => some (max a c)
          | none, c => c
          | a, none => a }
    if k + 1 ≥ n then s.endGroup p step else s

/-- EVT starts, or resumes after recovery of FD11 (R253, R255): every pair OFF, filters cleared; an established E and a standing
break stay, and an E that was being established starts afresh. -/
def State.evtStart (s : State) (recovered : Bool) : State :=
  let s := s.setEvt fun e => { e with running := true, notice := none, due := [] }
  bothPorts.foldl (fun s p =>
    (s.setEvtPort p fun e =>
      { e with
        pairs := s.newPairs p
        afterRecovery := recovered
        windowSince := !recovered
        windowsOpen := []
        brk := { e.brk with group := none, eMax := none, ends := [], clear := 0 } }).clearBands p) s

end Sys2Proof.Machine
end

