-- ==== Sys2Proof/Machine/Edges.lean ====
section
/-! DEFINITION. The time-interval unit (R127 to R132): one measurement of a channel, retirement, and coarse times. -/

namespace Sys2Proof.Machine

/-- The channel that serves an input (TIU_CHANNEL_MAP), if one does. -/
def Tiu.channelOf (t : Tiu) (input : Nat) : Option (Fin 8) := (List.finRange 8).find? fun c => t.map[c] == input

/-- A calibration span is accepted: 560 to 720 counts (R128, R129). -/
def spanOk (v1 v2 : Nat) : Bool := decide (v1 + 560 ≤ v2) && decide (v2 ≤ v1 + 720)

/-- The timestamp of an edge: Dk less f less the channel delay, rounded to the nearest LSB of 3.90625 ps with ties to even (R128,
R129). The delay is in 2⁻¹⁶ LSB. -/
def tiuTime (dk : Nat) (v1 v2 v delay : Nat) : U64 :=
  let span := v2 - v1
  let num : Int := ((dk : Int) - 640) * (65536 * span : Nat) - ((v : Int) - v1) * (640 * 65536 : Nat) - (delay * span : Nat)
  BitVec.ofInt 64 (roundDiv num (65536 * span))

/-- A channel with 16 rejected calibrations in a row retires, and the lowest free spare takes its input; with no spare free FD19 is
reported, and the channel is calibrated afresh at its recovery (R130, Table 13.5). Log entry 29, DESIGN CHOICE. -/
def State.retireChannel (s : State) (c : Fin 8) : State :=
  let input := s.tiu.map[c]
  match (List.finRange 8).find? fun k => s.tiu.map[k] == 0xE with
  | some k =>
    let s := { s with tiu := { s.tiu with map := (s.tiu.map.set c 0xF).set k input } }
    s.record (s.bbxRec 0x0062 19 0 0 (le 4 c.val ++ le 4 k.val))
  | none => s.report 19 0x00058001#32 (BitVec.ofNat 32 c.val)

/-- The dead time after a measured edge, at most 60 ns, in CK_LNC periods (R129). -/
def deadTime : Nat := 24

/-- The edge falls in the channel's dead time (R131): the command says so, and the last measured edge is recent enough. -/
def State.edgeMissed (s : State) (c : Fin 8) (m : TiuMeas) : Bool :=
  m.missed && (s.tiu.ch[c].measuredAt.map fun t => decide (s.now ≤ t + deadTime)).getD false

/-- One measurement (R128, R130, R131) of the input of Table 4.10: its timestamp, or none when the edge fell in the dead time,
no channel serves the input, or FD19 is fenced. A rejected calibration is counted and the last accepted one used; an edge in the
dead time is no measurement and only counted. Log entry 29, DESIGN CHOICE. -/
def State.measure (s : State) (input : Nat) (m : TiuMeas) : State × Option U64 :=
  if s.isShut 19 then (s, none)
  else match s.tiu.channelOf input with
    | none => (s, none)
    | some c =>
      if s.edgeMissed c m then ({ s with tiu := { s.tiu with ch := upd s.tiu.ch c fun x => { x with missed := x.missed + 1 } } }, none)
      else
      let ok := spanOk m.v1 m.v2
      let s := { s with tiu := { s.tiu with ch := upd s.tiu.ch c fun x =>
        { x with
          cal := if ok then some (m.v1, m.v2) else x.cal
          run := if ok then 0 else x.run + 1
          calReject := if ok then x.calReject else x.calReject + 1
          measuredAt := some s.now } } }
      let v := s.tiu.ch[c].cal.getD (Config.startCalibration c)
      let t := tiuTime s.devTime.toNat v.1 v.2 m.v (Config.channelDelay c input)
      let s := if s.tiu.ch[c].run = 16 then s.retireChannel c else s
      (s, some t)

/-- A coarse time is issued (R131, R132): the device time of this CK_LNC edge less a hold and the channel delay. -/
def State.coarseTime (s : State) (input hold : Nat) : State × U64 :=
  ({ s with tiu := { s.tiu with coarse := s.tiu.coarse + 1 } },
   BitVec.ofInt 64 ((s.devTime.toNat : Int) - (640 * hold : Nat) -
     roundDiv (Config.channelDelay ((s.tiu.channelOf input).getD 0) input : Nat) 65536))

end Sys2Proof.Machine
end

