-- ==== Sys2Proof/Machine/Time.lean ====
section
/-! DEFINITION. Synthesis and time (R101 to R126): lock machines, divider restarts, device time, its discipline from PPS_IN,
and the sync signals. -/

namespace Sys2Proof.Machine

/-! ## PLLs -/

/-- A PLL's state. -/
def State.pll (s : State) (k : Pll) : PllUnit := match k with | .a => s.tim.a | .d => s.tim.d

/-- Change a PLL. -/
def State.setPll (s : State) (k : Pll) (f : PllUnit → PllUnit) : State :=
  match k with
  | .a => { s with tim := { s.tim with a := f s.tim.a } }
  | .d => { s with tim := { s.tim with d := f s.tim.d } }

/-- Change time. -/
def State.setTim (s : State) (f : Tim → Tim) : State := { s with tim := f s.tim }

/-- A PLL is released into ACQUIRE (Table 4.5 step 1). -/
def State.pllRelease (s : State) (k : Pll) : State :=
  s.setPll k fun x => { x with st := .acquire, good := 0, attempts := 1, since := s.now }

/-- Counts expected in a window (R107). -/
def State.expectedCount (s : State) (k : Pll) : Nat :=
  match k with
  | .a => 400000
  | .d => s.ddrClock * 1250

/-- A window is within ±2 counts (R107). -/
def windowGood (count expected : Nat) : Bool := decide (expected ≤ count + 2) && decide (count ≤ expected + 2)

/-- Milliseconds of a coast that began at `t`. -/
def State.coastFrom (s : State) (t : Nat) : U32 := BitVec.ofNat 32 ((s.now - t) / msP)

/-- A PLL enters FAILED and its domain is reported: FD03 for PLL-A, FD13 for PLL-D (R110). -/
def State.pllFailed (s : State) (k : Pll) : State :=
  let x := s.pll k
  let s := if x.st = .coast ∨ x.st = .relock then s.setTim fun t => { t with coastMs := s.coastFrom x.coastAt } else s
  (s.setPll k fun x => { x with st := .failed }).report (match k with | .a => 3 | .d => 13) 0x00048001#32
    (match k with | .a => 0 | .d => 1)

/-- A PLL that is LOCKED or in RELOCK enters COAST; from RELOCK the coast time continues; COAST_LIMIT zero fails it (R108,
R110). A PLL in COAST starts its 10 ms again when the reference is lost. -/
def State.pllCoast (s : State) (k : Pll) : State :=
  match (s.pll k).st with
  | .locked =>
    let s := s.setPll k fun x => { x with st := .coast, losses := x.losses + 1, since := s.now, coastAt := s.now }
    if s.coastLimit = 0 then s.pllFailed k else s
  | .relock => s.setPll k fun x => { x with st := .coast, losses := x.losses + 1, since := s.now }
  | .coast => s.setPll k fun x => { x with since := s.now }
  | .off | .acquire | .failed => s

/-- Both PLLs freeze and coast (R108). -/
def State.bothCoast (s : State) : State := (s.pllCoast .a).pllCoast .d

/-! ## Divider restarts and the start of device time -/

/-- A divider restart is made: counted, and CK_SMP's phase starts again (R111). Log entry 28, DEDUCED. -/
def State.restartDividers (s : State) : State := s.setTim fun t => { t with applied := t.applied + 1, origin := s.now }

/-- The nominal increment of 640 LSB (R115). -/
def nominalIncr : Nat := 640 * 2 ^ 32

/-- Device time starts at zero at the first-lock restart (R112). -/
def State.startTime (s : State) : State :=
  s.setTim fun t =>
    { t with runs := true, time := 0, frac := 0, incr := nominalIncr, slew := 0, wraps := 0, syncAt := s.now,
             sync := if s.syncMode = 0 then .none else .first, ppsOutSec := none, syncOutSec := none }

/-- What follows PLL-A's lock: the first lock's restart and time zero (R112), or after a loss a restart with time kept: the device's
own in SYNC_MODE 0 and at the recovery of FD03, else the next SYNC_IN edge's, which the first edge still awaited stands for (R114,
Table 13.5). Log entry 104, DEDUCED. -/
def State.afterLockA (s : State) (was : PllSt) : State :=
  if !s.tim.runs then s.restartDividers.startTime
  else if s.syncMode = 0 ∨ was = .acquire then s.restartDividers
  else if s.tim.sync = .first then s
  else s.setTim fun t => { t with sync := .realign, syncAt := s.now }

/-- PLL-A locks for the first time: CK_PNL and CK_SUP start, and the panel's scan with them (R104). -/
def State.firstLock (s : State) : State :=
  if s.tim.a.controlled then s else { s with pnl := { s.pnl with scanFrom := s.now, colourAt := s.now } }

/-- PLL_LOCK_WINDOW (R107): a window of 1 ms ends. Three good windows in ACQUIRE or RELOCK declare lock; a bad one in LOCKED
loses it, and both PLLs coast (R108). -/
def execPllLockWindow (dt : Nat) (k : Pll) (count : Nat) (s : State) : Host.Outcome State Fault Refusal :=
  let s := s.elapse dt
  let good := windowGood count (s.expectedCount k)
  let x := s.pll k
  match x.st with
  | .acquire | .relock =>
    if good then
      if x.good + 1 ≥ 3 then
        let s := if x.st = .relock then s.setTim fun t => { t with coastMs := s.coastFrom x.coastAt } else s
        let s := match k with | .a => s.firstLock | .d => s
        let s := s.setPll k fun x => { x with st := .locked, good := 0, attempts := 0, controlled := true }
        match k with
        | .a => .next (s.afterLockA x.st)
        | .d => .next s
      else .next (s.setPll k fun x => { x with good := x.good + 1 })
    else .next (s.setPll k fun x => { x with good := 0 })
  | .locked => if good then .next s else .next s.bothCoast
  | .off | .coast | .failed => .next s

/-- PLL_ACQUIRE_TIMEOUT (Table 4.4): no lock within 50 ms; the next attempt, or FAILED after the third. -/
def execPllAcquireTimeout (dt : Nat) (k : Pll) (s : State) : Host.Outcome State Fault Refusal :=
  let s := s.elapse dt
  let x := s.pll k
  if x.st = .acquire ∧ x.since + 50 * msP ≤ s.now then
    if x.attempts ≥ 3 then .next (s.pllFailed k)
    else .next (s.setPll k fun x => { x with attempts := x.attempts + 1, since := s.now, good := 0 })
  else .next s

/-- PLL_RELOCK_TIMEOUT (Table 4.4): no lock within 10 ms of RELOCK; back to COAST, coast time continuing. -/
def execPllRelockTimeout (dt : Nat) (k : Pll) (s : State) : Host.Outcome State Fault Refusal :=
  let s := s.elapse dt
  let x := s.pll k
  if x.st = .relock ∧ x.since + 10 * msP ≤ s.now then .next (s.pllCoast k) else .next s

/-- REFCLK_LOST (R108): no reference edge for 300 ns to 500 ns; both PLLs coast. -/
def execRefclkLost (dt : Nat) (s : State) : Host.Outcome State Fault Refusal :=
  let s := s.elapse dt
  .next s.bothCoast

/-- PLL_COAST_RELOCK (Table 4.4): the reference has been present for 10 ms of COAST. -/
def execPllCoastRelock (dt : Nat) (k : Pll) (s : State) : Host.Outcome State Fault Refusal :=
  let s := s.elapse dt
  let x := s.pll k
  if x.st = .coast ∧ x.since + 10 * msP ≤ s.now then
    .next (s.setPll k fun x => { x with st := .relock, since := s.now, good := 0 })
  else .next s

/-- PLL_COAST_LIMIT (R110): coast time reaches COAST_LIMIT, in COAST or in RELOCK. -/
def execPllCoastLimit (dt : Nat) (k : Pll) (s : State) : Host.Outcome State Fault Refusal :=
  let s := s.elapse dt
  let x := s.pll k
  if (x.st = .coast ∨ x.st = .relock) ∧ x.coastAt + s.coastLimit * secP ≤ s.now then .next (s.pllFailed k) else .next s

/-! ## Steps of device time -/

/-- A whole second in units of device time. -/
def secLsb : Nat := 256000000000

/-- STEP_MODE permits a step now (R117, Table 4.13). -/
def State.stepPermits (s : State) : Bool :=
  match s.stepMode with
  | 0 => false
  | 1 => bothPorts.all fun p => s.sht[p].lastStart.isNone
  | _ => true

/-- Device time moves by `d` LSB as one number of 128 bits with wraps and fraction, and what is held in extended time moves
with it. -/
def Tim.shift (t : Tim) (d : Int) : Tim :=
  let v : Int := (t.wraps.toNat * 2 ^ 96 + t.full : Nat) + d * 2 ^ 32
  let n := (v % (2 ^ 128 : Nat)).toNat
  { t with
    wraps := BitVec.ofNat 32 (n / 2 ^ 96)
    time := BitVec.ofNat 64 (n / 2 ^ 32)
    frac := BitVec.ofNat 32 n
    lastPps := t.lastPps.map (· + d)
    syncEdge := t.syncEdge.map (· + d)
    ppsOutSec := none
    syncOutSec := none }

/-- T of a port in 2⁻⁴⁰ ns. -/
def State.periodFull (s : State) (p : Port) : Nat := s.period10 p * 2560 * 2 ^ 32

/-- The anchored schedule at an extended time (R85, R116): the slot whose scheduled time came last, and how long ago it came, in
2⁻⁴⁰ ns. -/
def State.slotOf (s : State) (p : Port) (t : Tim) : Int × Int :=
  let x : Int := (t.extended : Int) - (s.epochOffset p * 640 * 2 ^ 32 : Nat)
  (x / (s.periodFull p : Int), x % (s.periodFull p : Int))

/-- The slot that came last before this instant. -/
def State.slotBefore (s : State) (p : Port) (t : Tim) : Int :=
  let k := s.slotOf p t
  if k.2 = 0 then k.1 - 1 else k.1

/-- A port's anchored schedule takes up again where device time now stands (R87): scheduled times that the step passes over are
counted, and so are those that fell due while FD04 was fenced, which keep their group numbers (R88). Log entry 105, DEDUCED. -/
def State.rebaseSlots (old : Tim) (s : State) (p : Port) : State :=
  if s.sht[p].lastStart.isNone || s.linkedTo0 p || !s.groupAnchored p then s
  else
    let x := s.sht[p]
    let due := if x.missed then max 0 (s.slotBefore p old - x.lastSlot) else 0
    let k := s.slotBefore p s.tim
    let passed := max 0 (k - x.lastSlot - due)
    let move := fun (y : Sht) =>
      { y with
        lastSlot := k
        stepped := true
        nextGroup := y.nextGroup + BitVec.ofInt 48 due
        groupsSkipped := y.groupsSkipped + BitVec.ofInt 64 (due + passed) }
    let s := s.setSht p move
    if s.leads p then s.setSht 1 move else s

/-- Device time moves by `d` LSB, and the schedules with it (R87). -/
def State.moveTime (s : State) (d : Int) : State :=
  let old := s.tim
  bothPorts.foldl (State.rebaseSlots old) (s.setTim fun t => t.shift d)

/-- A step: counted and recorded with its size (R117). -/
def State.stepTime (s : State) (d : Int) : State :=
  let s := (s.moveTime d).setTim fun t => { t with steps := t.steps + 1 }
  s.record (s.bbxRec 0x0050 0xFF 0 0 (leInt 8 d))

/-- A timestamp just taken, as extended time (R116). -/
def State.extOf (s : State) (t : U64) : Int := (s.extTime : Int) - ((s.devTime - t).toNat : Int)

/-- The whole second nearest to an extended time. -/
def nearestSecond (x : Int) : Int := (2 * x + secLsb) / (2 * secLsb : Nat)

/-! ## SYNC_IN -/

/-- A port's first group waits no more for time (R112, R125): device time runs, the restart that SYNC_MODE calls for is made, and with
START_GATE the discipline is in TRACK with its seconds loaded, unless the port has launched. Log entry 106, DEDUCED. -/
def State.timeReady (s : State) (p : Port) : Bool :=
  s.tim.runs && s.tim.sync != .first &&
    (s.startGate == 0 || (s.tim.pps == .track && (s.syncMode != 2 || s.tim.secondsLoaded)) || s.sht[p].launched)

/-- Launches are withheld: PLL-A is in RELOCK, or a realigning restart is awaited (R109, R113, R114). -/
def State.withheld (s : State) : Bool := s.tim.a.st == .relock || s.tim.sync == .realign

/-- An edge entry of a TIMING record (Table 11.7). -/
def edgeEntry (time : U64) (err : Int) (state flags : Nat) : List Byte :=
  le 8 time.toNat ++ leInt 8 err ++ le 1 state ++ le 1 flags ++ le 2 0 ++ le 4 0

/-- A TIMING record of one edge (R334). -/
def State.emitEdge (s : State) (kind : Nat) (entry : List Byte) : State :=
  s.emitRec (s.newRec 0x40 0xFF (timingPayload kind [entry]))

/-- The timestamp of an edge of PPS_IN or SYNC_IN, with the coarse time of FD19 fenced, and whether it is coarse (R132). -/
def State.stampEdge (s : State) (input : Nat) (m : TiuMeas) : State × Option (U64 × Bool) :=
  if s.isShut 19 then
    let r := s.coarseTime input 0
    (r.1.setTim fun t => { t with coarse := true }, some (r.2, true))
  else
    let r := s.measure input m
    (if r.2.isSome then r.1.setTim fun t => { t with coarse := false } else r.1, r.2.map fun t => (t, false))

/-- A SYNC_IN edge acts (R112, R113): STATE of Table 11.7 and the state after it. -/
def State.syncEdge (s : State) (offset : Int) : State × Nat :=
  match s.tim.sync with
  | .first =>
    let s := s.restartDividers
    ((s.moveTime (-(s.extTime : Int))).setTim fun t => { t with frac := 0, sync := .none }, 0)
  | .realign =>
    if s.shotInFlight 0 || s.shotInFlight 1 then (s, 2)
    else (s.restartDividers.setTim fun t => { t with sync := .none }, 0)
  | .none =>
    if offset = 0 then (s.setTim fun t => { t with confirmed := t.confirmed + 1 }, if s.syncMode = 2 then 3 else 1)
    else
      let s := s.setTim fun t => { t with mismatch := t.mismatch + 1, sync := .realign, syncAt := s.now }
      (s.warn 0x00040002#32 (BitVec.ofInt 32 offset), 2)

/-- SYNC_IN_EDGE (R112, R113, R123): a rising edge, `lowPeriods` CK_REF periods after SYNC_IN was last high, and `offset` in 2⁻⁸ ns
from where the applied restart places it. It is ignored in SYNC_MODE 0, and in mode 2 unless it follows 64 low periods.
Log entry 27, DEDUCED. -/
def execSyncInEdge (dt : Nat) (m : TiuMeas) (lowPeriods : Nat) (offset : Int) (s : State) :
    Host.Outcome State Fault Refusal :=
  let s := s.elapse dt
  if !s.live || !s.tim.runs || s.syncMode == 0 || (s.syncMode == 2 && decide (lowPeriods < 64)) then .next s
  else
    let r := s.stampEdge 3 m
    let s := r.1.setTim fun t => { t with syncEdge := r.2.map fun e => r.1.extOf e.1 }
    let applied := s.tim.sync != .none
    let e := s.syncEdge offset
    match r.2 with
    | some (t, coarse) =>
      .next (e.1.emitEdge 1 (edgeEntry t (if applied && e.2 == 0 then 0 else offset) e.2 (bitIf coarse 0)))
    | none => .next e.1

/-- SYNC_WAIT_TIMEOUT (R112): no edge has been applied for 60 s. -/
def execSyncWaitTimeout (dt : Nat) (s : State) : Host.Outcome State Fault Refusal :=
  let s := s.elapse dt
  if s.live && s.tim.sync == .first && decide (s.tim.syncAt + 60 * secP ≤ s.now) && !s.tim.syncWaiting then
    .next ((s.setTim fun t => { t with syncWaiting := true }).warn 0x00040001#32 0 true)
  else .next s

/-- SYNC_EDGE_TIMEOUT (R113, R114): no further edge within 2 s; launches resume without a restart. -/
def execSyncEdgeTimeout (dt : Nat) (s : State) : Host.Outcome State Fault Refusal :=
  let s := s.elapse dt
  if s.live && s.tim.sync == .realign && decide (s.tim.syncAt + 2 * secP ≤ s.now) then
    .next ((s.setTim fun t => { t with sync := .none, syncUnaligned := true }).warn 0x00040003#32 0 true)
  else .next s

/-- CRC-8 of bits in order, polynomial 0x07, initial value zero (R123). Log entry 27, DEDUCED. -/
def crc8 (bits : List Bool) : Nat :=
  bits.foldl (fun c b => if (decide (c ≥ 128)) != b then (c * 2 % 256) ^^^ 7 else c * 2 % 256) 0

/-- Bits most significant first. -/
def bitsMsb (n v : Nat) : List Bool := (bitList n v).reverse

/-- SYNC_FRAME_RECEIVED (R124): slots 0 to 42 of a frame, judged by its own sync edge. A wrong CRC is counted. The first valid frame
in TRACK is loaded where STEP_MODE permits; every later valid frame is compared, and loaded where it differs and STEP_MODE then
permits. Loading is a step of whole seconds. Log entry 27, DEDUCED. -/
def execSyncFrameReceived (dt : Nat) (slots : List Bool) (s : State) : Host.Outcome State Fault Refusal :=
  let s := s.elapse dt
  if !s.live || s.syncMode != 2 then .next s
  else
    let edge := s.tim.syncEdge
    let s := s.setTim fun t => { t with syncEdge := none }
    if slots.length ≠ 43 ∨ bitsMsb 8 (crc8 ((slots.drop 2).take 33)) ≠ (slots.drop 35).take 8 then
      .next (s.setTim fun t => { t with frameErrors := t.frameErrors + 1 })
    else
      match edge with
      | none => .next s
      | some edge =>
        let d := (bitsOf ((slots.drop 2).take 32) : Int) - nearestSecond edge % (2 ^ 32 : Nat)
        if !slots.getD 34 false then .next s
        else if !s.tim.secondsLoaded then
          if s.tim.pps == .track && s.stepPermits then
            .next ((if d = 0 then s else s.stepTime (d * secLsb)).setTim fun t => { t with secondsLoaded := true })
          else .next s
        else if d = 0 then .next s
        else
          let s := (s.setTim fun t => { t with secondsMismatch := true }).warn 0x00040005#32 0 true
          if s.stepPermits then .next (s.stepTime (d * secLsb)) else .next s

/-! ## Discipline -/

/-- The increment within ±50 ppm of 640 LSB (R119). -/
def limitIncr (n : Int) : Nat :=
  max (nominalIncr - nominalIncr / 20000) (min (nominalIncr + nominalIncr / 20000) n.toNat)

/-- A slew correction within ±10 ppm (R119). -/
def limitSlew (n : Int) : Int := max (-((nominalIncr / 100000 : Nat) : Int)) (min ((nominalIncr / 100000 : Nat) : Int) n)

/-- Reference error implied by the increment without slew, parts per billion: a fast reference makes it small (TIM_REF_PPB). -/
def refPpbOf (incr : Nat) : Int := roundDiv (((nominalIncr : Int) - incr) * 1000000000) incr

/-- The error e of an edge (R118): its extended time less PPS_IN_DELAY less the nearest whole second, to the nearest LSB. -/
def State.ppsErrorOf (s : State) (t : Int) : Int :=
  let x := 125 * t - 32 * s.ppsInDelay
  let sec := (2 * x + 125 * secLsb) / (250 * secLsb : Nat)
  roundDiv (x - sec * (125 * secLsb : Nat)) 125

/-- One microsecond in LSB. -/
def usLsb : Nat := 256000

/-- The increment that ACQUIRE sets (Table 4.8): the one with which the interval since the previous accepted edge, `i` LSB long with the
increment `n`, lasts one second. Log entry 26, DEDUCED. -/
def acquireIncr (n i : Nat) : Int := roundDiv (n * secLsb : Nat) i

/-- The discipline's state after an accepted edge of error `e` (Table 4.8). -/
def Tim.ppsNext (t : Tim) (e : Int) : Tim :=
  let ok := decide (e.natAbs ≤ usLsb)
  let t := { t with inside := if ok then t.inside + 1 else 0, outside := if ok then 0 else t.outside + 1 }
  match t.pps with
  | .acquire => if t.inside ≥ 4 then { t with pps := .track } else t
  | .holdover =>
    if t.inside ≥ 2 then { t with pps := .track, inside := 0, outside := 0 }
    else if t.outside ≥ 2 then { t with pps := .acquire, inside := 0, outside := 0 } else t
  | .off | .track => t

/-- The increment takes a base and a slew (R119). -/
def Tim.setIncr (t : Tim) (base : Nat) (slew : Int) : Tim :=
  { t with incr := limitIncr (base + slew), slew := slew, refPpb := refPpbOf base }

/-- An accepted edge at extended time `t` with error `e` steers device time (R118, R119). -/
def State.ppsSteer (s : State) (t e : Int) : State :=
  let base := ((s.tim.incr : Int) - s.tim.slew).toNat
  let interval := s.tim.lastPps.map fun l => (t - l).toNat
  let wanted := match s.tim.pps, interval with
    | .acquire, some i => limitIncr (acquireIncr s.tim.incr i)
    | .track, _ => limitIncr (Config.trackIncr base e s.tau s.free)
    | _, _ => base
  let acts := s.tim.pps == .acquire || s.tim.pps == .track
  let far := acts && decide (e.natAbs > s.stepThreshold * 256)
  let step := far && s.stepPermits
  let slew := if far && !step then limitSlew (Config.slewStep e s.free) else 0
  let beyond := match interval with
    | some i => decide (((i * 2 ^ 32 : Nat) - (400000000 * s.tim.incr : Nat) : Int).natAbs * 50000 > 400000000 * s.tim.incr)
    | none => false
  let s := s.takeFree
  let s := s.setTim fun x =>
    { x with lastPps := some t, acceptedAt := s.now, ppsError := e, slewing := far && !step }
  let s := if acts then s.setTim fun x => x.setIncr wanted slew else s
  let s := if step then s.stepTime (-e) else s
  let s := if beyond then
      (s.setTim fun x => { x with refRange := true }).warn 0x00040004#32 (BitVec.ofInt 32 s.tim.refPpb) true
    else s
  s.setTim fun x => x.ppsNext e

/-- PPS_IN_EDGE (R118, R119, R132, R334): an edge of the selected polarity, measured or coarse. The first is accepted, a later one
when it lies within ±100 µs of one second after the last; every measured edge forms a TIMING record. Log entry 107, DEDUCED. -/
def execPpsInEdge (dt : Nat) (m : TiuMeas) (s : State) : Host.Outcome State Fault Refusal :=
  let s := s.elapse dt
  if !s.live || !s.tim.runs then .next s
  else
    let r := s.stampEdge 2 m
    match r.2 with
    | none => .next r.1
    | some (stamp, coarse) =>
      let s := r.1
      let t := s.extOf stamp
      let e := s.ppsErrorOf t
      let ok := match s.tim.lastPps with
        | none => true
        | some l => decide ((t - l - secLsb).natAbs ≤ 100 * usLsb)
      let s :=
        if s.tim.pps = .off then s
        else if ok then s.ppsSteer t e
        else s.setTim fun x => { x with ppsRejected := x.ppsRejected + 1 }
      let st := match s.tim.pps with | .off => 0 | .acquire => 1 | .track => 2 | .holdover => 3
      .next (s.emitEdge 0 (edgeEntry stamp e st (bitIf coarse 0 + bitIf (s.tim.pps != .off && !ok) 1)))

/-- PPS_HOLDOVER_TIMEOUT (Table 4.8): no accepted edge for 3 s in TRACK. -/
def execPpsHoldoverTimeout (dt : Nat) (s : State) : Host.Outcome State Fault Refusal :=
  let s := s.elapse dt
  if s.live && s.tim.pps == .track && decide (s.tim.acceptedAt + 3 * secP ≤ s.now) then
    .next (s.setTim fun t => { t with pps := .holdover, inside := 0, outside := 0 })
  else .next s

/-- CK_LNC periods to the next wrap of device time (R116). -/
def Tim.toWrap (t : Tim) : Nat := (2 ^ 96 - t.full + t.incr - 1) / t.incr

/-- DEVICE_TIME_WRAP (R116): time passes up to the CK_LNC edge on which device time wraps and TIM_WRAP_COUNT increments. -/
def execDeviceTimeWrap (s : State) : Host.Outcome State Fault Refusal :=
  if s.tim.runs then .next (s.elapse s.tim.toWrap) else .next s

/-! ## PPS_OUT and SYNC_OUT -/

/-- The whole second that extended time has just reached, less than `within` 2⁻⁴⁰ ns before. Log entry 30, DESIGN CHOICE. -/
def State.atSecond (s : State) (within : Nat) : Option Nat :=
  if s.tim.runs ∧ s.tim.extended % (secLsb * 2 ^ 32) < within then some (s.extTime / secLsb) else none

/-- PPS_OUT_EDGE (R121): a whole second of extended time; PPS_OUT rises for PPS_OUT_WIDTH ms. Log entry 30, DESIGN CHOICE. -/
def execPpsOutEdge (dt : Nat) (s : State) : Host.Outcome State Fault Refusal :=
  let s := s.elapse dt
  match s.atSecond s.tim.incr with
  | some n =>
    if s.live && s.cfg.state == 1 && s.ppsOutWidth != 0 && s.tim.ppsOutSec != some n then
      .next ((s.setTim fun t => { t with ppsOutSec := some n }).send (.ppsOut s.ppsOutWidth))
    else .next s
  | none => .next s

/-- A sync frame (Table 4.9). -/
def State.syncFrame (s : State) (n : Nat) : List Bool :=
  let valid := s.tim.pps == .track || s.ppsMode == 0
  let body := bitList 32 n ++ [valid]
  [true, false] ++ body ++ bitsMsb 8 (crc8 body)

/-- SYNC_OUT_SEND (R122, R123): on the first CK_REF edge at or after a whole second, SYNC_OUT sends a pulse or a frame.
Log entry 30, DESIGN CHOICE. -/
def execSyncOutSend (dt : Nat) (s : State) : Host.Outcome State Fault Refusal :=
  let s := s.elapse dt
  match s.atSecond ((if s.cfg.refFreq = 0 then 41 else 9) * s.tim.incr) with
  | some n =>
    if s.live && s.cfg.state == 1 && s.syncOutMode != 0 && s.tim.syncOutSec != some n then
      .next ((s.setTim fun t => { t with syncOutSec := some n }).send
        (.syncOut (if s.syncOutMode = 2 then s.syncFrame n else [])))
    else .next s
  | none => .next s

end Sys2Proof.Machine
end

