-- ==== Sys2Proof/Machine/Decimation.lean ====
section
/-! DEFINITION. Decimation (R183 to R193): what DEC makes of acoustic samples on the full and the coarse path, the samples it
fills (R187), and the sums that the slow-strain product takes from it (R225). -/

namespace Sys2Proof.Machine

/-- Change a port's phase engine and DEC lanes. -/
def State.setPhs (s : State) (p : Port) (f : Phs → Phs) : State := { s with phs := upd s.phs p f }

/-- FD08 or FD09. -/
def phaseDomain (p : Port) : Domain := if p = 0 then 8 else 9

/-- A 48-bit accumulated value (R182). -/
def wrap48 (v : Int) : Int := toSigned 48 (v % (2 ^ 48 : Nat)).toNat

/-! ## Supports -/

/-- The samples of the support after the represented one, 19 · 2^K − 7 for K ≥ 1 (R188, R190). -/
def groupDelay (k : Nat) : Nat := if k = 0 then 0 else 19 * 2 ^ k - 7

/-- The lowest code per point of a list of samples: the row that stands highest in Table 6.4, and among grades the lowest (R188). -/
def lowestCodes : List (List Nat) → List Nat
  | [] => []
  | [c] => c
  | c :: t => (c.zip (lowestCodes t)).map fun e => min e.1 e.2

/-- Codes when part of a support lies before the first input: filled samples carry REBASED (R187). -/
def filledCodes (pad : Nat) (cs : List Nat) : List Nat := if pad = 0 then cs else cs.map (min 5)

/-- FLAGS of a support (Table 6.7). -/
def supportFlags (xs : List DecSample) : Nat := (xs.map (·.flags)).foldl (· ||| ·) 0

/-- A difference saturated to 16 bits, and whether it was (R186). -/
def satDiff (v : Int) : Int × Bool := (clampInt 16 v, decide (clampInt 16 v ≠ v))

/-- The row of an output that represents a sample. -/
def DecSample.row (x : DecSample) (flags : Nat) (values : List Int) (codes : List Nat) : Row :=
  { j := (x.j % (2 ^ 64 : Nat)).toNat, time := x.time, shot := x.shot, calSet := x.calSet, flags := flags,
    values := values, codes := codes }

/-- Differential and accumulated outputs of one path leave DEC (R186, R191). -/
def State.emitPhase (s : State) (p : Port) (coarse : Bool) (o : Int) (x : DecSample) (flags : Nat) (vals prev : List Int)
    (codes : List Nat) : State :=
  let ds := (vals.zip prev).map fun e => satDiff (e.1 - e.2)
  let sat := (ds.filter (·.2)).length
  let dcodes := (codes.zip ds).map fun e => if e.2.2 then min e.1 4 else e.1
  let s := s.setPhs p fun y => { y with decSaturated := y.decSaturated + BitVec.ofNat 64 sat }
  let s := s.emitRow p 0 coarse o (x.row flags (ds.map (·.1)) dcodes)
  s.emitRow p 1 coarse o (x.row flags (vals.map wrap32) codes)

/-- Mean over a window of `m` samples of which `pad` stand before the first input, per point, rounded convergently. -/
def windowMean (m pad : Nat) (base : List Int) (cols : List (List Int)) : List Int :=
  let sums := cols.foldl (fun a c => (a.zip c).map fun e => e.1 + e.2) (base.map (· * (pad : Int)))
  sums.map fun v => roundDiv v m

/-! ## Half-band stages (R183, R184) -/

/-- A symmetric half-band filter of odd length 2c + 1: one half in the middle, free taps at odd distances from it, zero at the other even
distances. -/
def halfBandTap (free : Nat → Rat) (c t : Nat) : Rat :=
  let d := if t ≤ c then c - t else t - c
  if d = 0 then 1 / 2 else if d % 2 = 0 then 0 else free (d / 2)

/-- A stage: every second value of its input, oldest first, filtered by 2c + 1 taps, each rounded. -/
def halfStage (free : Nat → Rat) (c : Nat) (round : Rat → Int) (xs : List Int) : List Int :=
  (List.range ((xs.length + 1 - 2 * c) / 2)).map fun i =>
    round (((xs.drop (2 * i)).take (2 * c + 1)).zipIdx.map fun e => halfBandTap free c e.2 * (e.1 : Rat)).sum

/-- `n` stages of F1 (15 taps), each rounded convergently to 2⁻⁸ of the product LSB. -/
def f1Stages : Nat → List Int → List Int
  | 0, xs => xs
  | n + 1, xs => f1Stages n (halfStage Config.f1Tap 7 ratRound xs)

/-- The cascade of K stages over its support, oldest first (R183): F1 in all but the last, F2 (63 taps) in the last, which rounds to the
LSB of the product (R184). Log entry 43, DESIGN CHOICE. -/
def halfBand (k : Nat) (xs : List Int) : Int :=
  (halfStage Config.f2Tap 31 (fun v => ratRound (v / 256)) (f1Stages (k - 1) (xs.map (· * 256)))).getD 0 0

/-! ## Outputs after a sample -/

/-- The full path after its newest sample (R183 to R186, R188): with K zero the sample itself; else the output whose last input
it is, which before the first input serves only as predecessor. -/
def State.fullPath (s : State) (p : Port) : State :=
  let k := s.decFactor p
  let x := s.phs[p]
  match x.hist with
  | [] => s
  | n :: _ =>
    if k = 0 then
      let s := s.setPhs p fun y => { y with decOutputs := y.decOutputs + 1 }
      let s := s.emitRow p 0 false n.j (n.row n.flags n.d n.codes)
      let s := s.emitRow p 1 false n.j (n.row n.flags (n.acc.map wrap32) n.codes)
      s.emitRow p 2 false n.j (n.row n.flags (n.amp.map Int.ofNat) n.ampCodes)
    else
      let h := groupDelay k
      let j := n.j - (h : Int)
      if j % (2 ^ k : Nat) ≠ 0 then s
      else
        let sup := x.hist.take (2 * h + 1)
        let pad := 2 * h + 1 - sup.length
        let vals := x.base.zipIdx.map fun e =>
          halfBand k (List.replicate pad e.1 ++ (sup.reverse.map fun y => y.acc.getD e.2 0))
        let codes := filledCodes pad (lowestCodes (sup.map (·.codes)))
        match sup[h]? with
        | some c =>
          if x.firstJ.any fun f => decide (f ≤ j) then
            let s := s.setPhs p fun y => { y with decOutputs := y.decOutputs + 1, prevFull := vals }
            s.emitPhase p false (j / (2 ^ k : Nat)) c (supportFlags sup) vals x.prevFull codes
          else s.setPhs p fun y => { y with prevFull := vals }
        | none => s.setPhs p fun y => { y with prevFull := vals }

/-- The mean amplitude of the `m` samples that end with the one `h` before the newest (R189, R191), with some FLAGS. -/
def State.emitAmplitude (s : State) (p : Port) (coarse : Bool) (m h flags : Nat) : State :=
  let x := s.phs[p]
  match x.hist[h]? with
  | none => s
  | some n =>
    let w := (x.hist.drop h).take m
    let pad := m - w.length
    let vals := windowMean m pad (x.baseAmp.map Int.ofNat) (w.map fun y => y.amp.map Int.ofNat)
    s.emitRow p 2 coarse (n.j / (m : Int)) (n.row flags vals (filledCodes pad (lowestCodes (w.map (·.ampCodes)))))

/-- The amplitude of the full path with K ≥ 1 (R189). Its FLAGS cover the support of R188 (Table 6.7), so it leaves with the phase of its
sample. Log entry 121, DEDUCED. -/
def State.fullAmplitude (s : State) (p : Port) : State :=
  let k := s.decFactor p
  let h := groupDelay k
  match s.phs[p].hist[h]? with
  | none => s
  | some n =>
    if k ≠ 0 ∧ n.j % (2 ^ k : Nat) = 0 then s.emitAmplitude p false (2 ^ k) h (supportFlags (s.phs[p].hist.take (2 * h + 1))) else s

/-- The coarse path after its newest sample (R191). -/
def State.coarsePath (s : State) (p : Port) : State :=
  let m : Nat := 2 ^ s.coarseFactor p
  let x := s.phs[p]
  match x.hist with
  | [] => s
  | n :: _ =>
    if s.coarseFactor p = 0 ∨ n.j % (m : Int) ≠ 0 then s
    else
      let w := x.hist.take m
      let pad := m - w.length
      let vals := windowMean m pad x.base (w.map (·.acc))
      let s := s.setPhs p fun y => { y with coarseOutputs := y.coarseOutputs + 1, prevCoarse := vals }
      let s := s.emitPhase p true (n.j / (m : Int)) n (supportFlags w) vals x.prevCoarse
        (filledCodes pad (lowestCodes (w.map (·.codes))))
      s.emitAmplitude p true m 0 (supportFlags w)

/-- Samples the filters keep: the support, and the coarse window. -/
def State.histLength (s : State) (p : Port) : Nat :=
  max (2 * groupDelay (s.decFactor p) + 1) (2 ^ s.coarseFactor p)

/-! ## Slow strain sums (R225) -/

/-- The port forms DAS_STRAIN_LF (R225, R238). -/
def State.formsLf (s : State) (p : Port) : Bool :=
  s.lfEnable p == 1 && s.hasDas p && s.hasRaman p && !s.isShut 7 && !s.isShut 10

/-- A gauge's sums take a value: held by codes 0x1 to 0x4, rebased by 0x5 (Table 7.4). -/
def LfAcc.add (a : LfAcc) (v : Int) (code : Nat) : LfAcc :=
  { sum := a.sum + v, n := a.n + 1, held := if 1 ≤ code ∧ code ≤ 4 then a.held + 1 else a.held,
    rebased := a.rebased || code == 5 }

/-- A sample joins the update in which its LAUNCH_TIME lies: the one accumulating, or the one that closed before it. -/
def State.lfSample (s : State) (p : Port) (x : DecSample) : State :=
  if !s.formsLf p then s
  else match s.dts[p].boundary with
    | none => s
    | some b =>
      let add := fun (l : List LfAcc) =>
        ((if l.isEmpty then x.acc.map fun _ => {} else l).zip (x.acc.zip x.codes)).map fun e => e.1.add e.2.1 e.2.2
      if b ≤ s.extOf x.time then s.setDts p fun d => { d with lf := add d.lf, lfSamples := d.lfSamples + 1 }
      else s.setDts p fun d => { d with lfOld := add d.lfOld, lfOldSamples := d.lfOldSamples + 1 }

/-! ## Feeding -/

/-- DEC starts with empty filters (R187, R198): samples before the first take the last values it received. -/
def State.decReset (s : State) (p : Port) : State :=
  s.setPhs p fun x => { x with firstJ := none, hist := [], prevFull := [], prevCoarse := [] }

/-- DEC takes one acoustic sample, and EVT with it (R187, R241). -/
def State.decFeed (s : State) (p : Port) (x : DecSample) : State :=
  let len := s.histLength p
  let s := s.setPhs p fun y =>
    let y := if y.firstJ.isNone then
        let base := if y.lastAcc.isEmpty then x.acc.map fun _ => 0 else y.lastAcc
        { y with firstJ := some x.j, base := base, prevFull := base, prevCoarse := base,
                 baseAmp := if y.lastAmp.isEmpty then x.amp.map fun _ => 0 else y.lastAmp }
      else y
    { y with
      lastJ := x.j, hist := (x :: y.hist).take len, lastAcc := x.acc, lastAmp := x.amp
      decMissing := if x.missing then y.decMissing + 1 else y.decMissing }
  let s := ((s.fullPath p).fullAmplitude p).coarsePath p
  (s.lfSample p x).evtSample p x

/-- The gauge reaches outside the points (R172). -/
def State.gaugeNone (s : State) (p : Port) (n : Nat) : Bool :=
  decide (n < s.gauge p / 2) || decide (n - s.gauge p / 2 + s.gauge p ≥ s.nPoints p)

/-- FIRST_SHOT of a shot (Table 6.7). -/
def shotWord (group : U48) (pleat : Nat) : U64 := BitVec.ofNat 64 (group.toNat + pleat * 2 ^ 48)

/-- The sample that stands for one without a record (R187). -/
def State.fillSample (s : State) (p : Port) (e : Expect) : DecSample :=
  let x := s.phs[p]
  let n := s.nPoints p
  { j := e.j, time := e.time, shot := shotWord e.group e.pleat, calSet := e.calSet, missing := true
    d := List.replicate n 0, acc := if x.lastAcc.isEmpty then List.replicate n 0 else x.lastAcc
    codes := (List.range n).map fun i => if s.gaugeNone p i then 0 else 5
    amp := if x.lastAmp.isEmpty then List.replicate n 0 else x.lastAmp, ampCodes := List.replicate n 5 }

/-- A sample without a record is filled, and a shot of its group has ended without one. -/
def State.fillOne (s : State) (p : Port) (e : Expect) : State :=
  (s.decFeed p (s.fillSample p e)).evtEnd p (s.pleats p) e.group e.pleat (s.pleats p) e.j e.time none

/-- A scheduled time passed over before a sample: its index, and the shot that the programme would have given it. -/
def State.passedOver (s : State) (p : Port) (e : Expect) (back : Nat) : Expect :=
  let n := max 1 (s.pleats p)
  let at_ : Int := (e.pleat : Int) - (back : Int)
  { j := e.j - (back : Int), time := e.time - BitVec.ofNat 64 (back * s.acousticStep p), calSet := e.calSet,
    group := BitVec.ofInt 48 ((e.group.toNat : Int) + at_ / (n : Int)), pleat := (at_ % (n : Int)).toNat }

/-- Indices between the last sample and this one are filled; an index that does not lie after the last starts the filters
afresh. -/
def State.fillGap (s : State) (p : Port) (e : Expect) : State :=
  let x := s.phs[p]
  if x.firstJ.isNone then s
  else if e.j ≤ x.lastJ then s.decReset p
  else
    let n := (e.j - x.lastJ - 1).toNat
    (List.range n).foldl (fun s i => s.fillOne p (s.passedOver p e (n - i))) s

/-- The record of a scheduled sample may still reach the engine: its shot is to come, in flight or in the queue. -/
def State.awaitsRecord (s : State) (p : Port) (e : Expect) : Bool :=
  s.acq[p].records.any (fun r => r.tag.group == e.group && r.tag.pleat == e.pleat) ||
    (s.sht[p].group.map fun g => g.number == e.group && !g.stopped && decide (g.pleats ≤ e.pleat)).getD false ||
    s.sht[p].awaiting.any (fun a => !a.tag.temperature && a.tag.group == e.group && a.tag.pleat == e.pleat)

/-- Samples that will have no record are taken in order, up to the first whose record may come (R187). -/
def State.drainList (p : Port) : List Expect → State → State
  | [], s => s.setPhs p fun x => { x with expect := [] }
  | e :: t, s =>
    if s.awaitsRecord p e then s.setPhs p fun x => { x with expect := e :: t }
    else State.drainList p t ((s.fillGap p e).fillOne p e)

/-- DEC works for the port. -/
def State.decOn (s : State) (p : Port) : Bool := s.live && !s.isShut (phaseDomain p) && !s.isShut (acqDomain p)

/-- Samples of the stretch in which the acquisition domain was fenced are not filled (R187): those whose record cannot come any more. -/
def State.dropStretch (s : State) (p : Port) : State :=
  let t := (s.phs[p].expect.filter fun e => !s.awaitsRecord p e).foldl
    (fun t e => (t.markSample p e.j e.time).markGroup p e.group e.pleat e.j e.time) s
  t.setPhs p fun x => { x with expect := x.expect.filter (s.awaitsRecord p) }

/-- Missing samples that can be known as such are filled. -/
def State.drainMissing (s : State) (p : Port) : State :=
  if s.decOn p then State.drainList p s.phs[p].expect s else s

/-- The samples of a group whose start has come are expected (R185, R192): `base` is the index of pleat 0. -/
def State.expectGroup (s : State) (p : Port) (group : U48) (base : Int) (start : U64) : State :=
  s.setPhs p fun x =>
    { x with expect := x.expect ++ (List.range (s.pleats p)).map fun k =>
        { j := base + (k : Int), time := start + BitVec.ofNat 64 (k * s.acousticStep p), group := group, pleat := k,
          calSet := s.acq[p].cal.num } }

/-- A shot's LAUNCH_TIME is known (R192). -/
def State.timeExpect (s : State) (p : Port) (tag : ShotTag) : State :=
  if tag.temperature then s
  else s.setPhs p fun x =>
    { x with expect := x.expect.map fun e =>
        if e.group = tag.group ∧ e.pleat = tag.pleat then { e with time := tag.launchTime } else e }

end Sys2Proof.Machine
end

