-- ==== Sys2Proof/Machine/Raman.lean ====
section
/-! DEFINITION. The Raman front end and the batts (R202 to R212, R237): records, offsets, feedback, updates. -/

namespace Sys2Proof.Machine

/-- N_t: DTS points of a port (R208). -/
def State.nTherm (s : State) (p : Port) : Nat := pointsWithin (s.reach p) (s.groupIndex p) 2

/-- FD07 and FD10 work for the port. -/
def State.ramanOn (s : State) (p : Port) : Bool := s.live && s.hasRaman p && !s.isShut 7 && !s.isShut 10

/-- Index of a band: 0 AS, 1 ST. -/
def bandIndex (b : Band) : Fin 2 := match b with | .as => 0 | .st => 1

/-- Fault codes of RMN, DTS and SUP by row of Table 7.11 (R416). -/
def rmnFault (row : Nat) : U32 := BitVec.ofNat 32 (0x000A8000 + row)
def dtsFault (row : Nat) : U32 := BitVec.ofNat 32 (0x000D8000 + row)
def supFault (row : Nat) : U32 := BitVec.ofNat 32 (0x00158000 + row)

/-- Bytes of the Raman seam, and of a record in it: two bytes for each bin of both lanes (R281). -/
def seamBytes : Nat := 1048576
def ramanBytes (n : Nat) : Nat := 4 * n

/-- A Raman shot opens its record (R208, R281, R282): admitted whole, or dropped whole. -/
def State.openRaman (s : State) (p : Port) (tag : ShotTag) : State :=
  if s.isShut 7 || s.isShut 10 then s.dropShot p tag 3
  else if ((s.dts[p].recs.length + 1) * ramanBytes (s.nTherm p)) > seamBytes then s.dropShot p tag 1
  else
    let first := s.now + returnDelay p
    s.setDts p fun d =>
      { d with recs := d.recs ++ [{ tag := tag, openedAt := s.now, closesAt := first + 4 * s.nTherm p, gains := d.gains }] }

/-- UPDATE_INTERVAL in units of device time. -/
def State.updateLsb (s : State) (p : Port) : Int := (s.dtsInterval p * secLsb : Nat)

/-- Update boundaries are anchored to extended time (R210); a linked P1 takes the modes of P0 (R97). -/
def State.dtsAnchored (s : State) (p : Port) : Bool :=
  let q := if s.linkedTo0 p then 0 else p
  s.epochMode q == 1 && s.trigMode q == 0

/-- The first Raman shot of the port since start opens its first update (R210): at its LAUNCH_TIME, or at the multiple before it. -/
def State.dtsBegin (s : State) (p : Port) (tag : ShotTag) : State :=
  if s.dts[p].boundary.isSome ∨ s.ramanOn p = false then s
  else
    let t := s.extOf tag.launchTime
    let b := if s.dtsAnchored p then t - t % s.updateLsb p else t
    s.setDts p fun d => { d with boundary := some b, next := some (b + s.updateLsb p) }

/-- A launch is remembered for the launch slots (R212); without a measurement its energy stays zero. Log entry 122, DESIGN CHOICE. -/
def State.noteLaunch (s : State) (p : Port) (dur125 : Nat) : State :=
  s.setDts p fun d => { d with launches := ({ openedAt := s.now, duration := dur125 } :: d.launches).take 16 }

/-- The launch monitor has measured a launch's energy (R49, R212). -/
def State.noteEnergy (s : State) (p : Port) (openedAt energy : Nat) : State :=
  s.setDts p fun d =>
    { d with launches := d.launches.map fun l => if l.openedAt = openedAt then { l with energy := energy } else l }

/-! ## Closing a record -/

/-- Samples that are excluded: each flagged one and the 15 after it (R205). -/
def excluded : Nat → List Bool → List Bool
  | _, [] => []
  | left, f :: t => if f then true :: excluded 15 t else decide (left > 0) :: excluded (left - 1) t

/-- A record's samples of one lane, exactly N_t. -/
def fitSamples (n : Nat) (l : List RamanSample) : List RamanSample :=
  l.take n ++ List.replicate (n - l.length) { code := 0, overrange := false }

/-- The sample counts as overrange (R205, R281): flagged, beyond the code range, or lost at the write seam. -/
def sampleOver (x : RamanSample) : Bool := x.overrange || x.lost || decide (clampInt 14 x.code ≠ x.code)

/-- The code of a sample, at full scale when it is overrange (R205). -/
def sampleValue (x : RamanSample) : Int := if sampleOver x then (if x.code < 0 then -8192 else 8191) else x.code

/-- The near span's REF_INPUT record of a port, and the far span's, with the input (R218). -/
def State.spanOf (s : State) (p : Port) (role : Nat) : Option (Nat × List Byte) :=
  (List.range 4).findSome? fun i => match s.refInput i with
    | some r => if fieldAt r 1 1 = p.val ∧ fieldAt r 2 1 = role then some (i, r) else none
    | none => none

/-- First point after the near span; zero without one (R206). -/
def State.beyondNear (s : State) (p : Port) : Nat :=
  match s.spanOf p 0 with
  | some r => fieldAt r.2 4 4 + fieldAt r.2 8 4
  | none => 0

/-- Ratio of the 50 kΩ feedback to a lane's feedback code (R209). -/
def feedbackRatio (p : Port) (b : Fin 2) (gain : Nat) : Rat := if gain = 2 then 1 else Config.feedbackRatio p b.val gain

/-- Offset of a lane at a feedback: as measured, corrected for the receiver's warming since (R207). Log entry 51, DEDUCED. -/
def Dts.offsetNow (d : Dts) (p : Port) (b : Fin 2) (gain : Nat) : Rat :=
  let warmed : Rat := match d.theta.value, d.offsetTemp with
    | some v, some w => ((v - w : Int) : Rat) / 1000
    | _, _ => 0
  (d.offsets[b].getD gain 0 : Rat) + Config.offsetDrift p b.val gain * warmed

/-- Normalised samples of a lane of a record (R209): offset taken off, scaled to the 50 kΩ feedback, in 2⁻¹⁶ code. Their rounding is not
stated (log entry 112). -/
def State.normalise (s : State) (p : Port) (b : Fin 2) (gain : Nat) (l : List RamanSample) : List Int :=
  l.map fun x => pickRound 8 (65536 * ((sampleValue x : Rat) - s.dts[p].offsetNow p b gain) * feedbackRatio p b gain)

/-- Add a lane's record to its entries (R209). -/
def addEntries (es : List BattEntry) (vs : List Int) (out : List Bool) (gain : Nat) : List BattEntry :=
  ((if es.isEmpty then vs.map fun _ => {} else es).zip (vs.zip out)).map fun e =>
    if e.2.2 then e.1 else { sum := e.1.sum + e.2.1, count := e.1.count + 1, gains := e.1.gains ||| 2 ^ gain }

/-- Add a launch to its slot (R212). -/
def addSlot (ss : List Slot) (offset : Int) (l : Launch) : List Slot :=
  if ss.any fun x => x.offset == offset && x.duration == l.duration then
    ss.map fun x =>
      if x.offset = offset ∧ x.duration = l.duration then { x with energy := x.energy + l.energy } else x
  else ss ++ [⟨offset, l.duration, l.energy⟩]

/-- Launches whose Raman light reaches the converters while a record is open (R212): those whose return overlaps it. -/
def State.overlaps (s : State) (p : Port) (r : RamanRec) (l : Launch) : Bool :=
  let span := 4 * s.nTherm p
  decide (l.openedAt < r.openedAt + span) && decide (r.openedAt < l.openedAt + span + (l.duration + 1) / 2)

/-- Every launch that overlaps the record has its timestamp, and so its energy. Log entry 53, DEDUCED. -/
def State.slotsKnown (s : State) (p : Port) (r : RamanRec) : Bool :=
  !(s.sht[p].awaiting.any fun a => decide (a.openedAt < r.closesAt))

/-- The smallest index from which the mean of 32 bins, or of those that remain, lies below a level; else their number (R256). -/
def ramanEnd (level : Nat) : Nat → List Int → Nat
  | i, [] => i
  | i, x :: t =>
    let w := (x :: t).take 32
    if w.sum < (level * w.length : Nat) then i else ramanEnd level (i + 1) t

/-- What a lane's samples show: overranged ones, those beyond the near span among them, and the largest code. -/
def State.laneFlags (s : State) (p : Port) (l : List RamanSample) : Nat × Bool × Nat :=
  ((l.filter sampleOver).length, (l.drop (s.beyondNear p)).any (fun x => sampleOver x && !x.lost), (l.map fun x => (sampleValue x).toNat).foldl max 0)

/-- The feedback of an automatic lane after a record (R206). -/
def loweredGain (auto full : Bool) (gain : Nat) : Nat := if auto && full && decide (gain > 0) then gain - 1 else gain

/-- The feedback in use after a record's close (R206): lowered; or raised, where the update that closed meanwhile has called for it. -/
def closedGain (auto full raise : Bool) (used now : Nat) : Nat :=
  if loweredGain auto full used < used then loweredGain auto full used
  else if raise && used == now then min 2 (now + 1) else now

/-- RAMAN_RECORD_CLOSE (R205, R206, R209 to R212, R281): the oldest open record enters its batt once its launch time and those of
the launches beside it are known, and an automatic lane may lower its feedback. Log entry 52, DEDUCED. -/
def execRamanRecordClose (dt : Nat) (p : Port) (as st : List RamanSample) (s : State) : Host.Outcome State Fault Refusal :=
  let s := s.elapse dt
  let d := s.dts[p]
  match d.recs with
  | [] => .next s
  | r :: t =>
    let early := match d.boundary with
      | some b => d.closing && decide (b ≤ s.extOf r.tag.launchTime)
      | none => true
    if !s.ramanOn p || early || decide (s.now < r.closesAt) || !s.slotsKnown p r then .next s
    else
      let n := s.nTherm p
      let ls : Vector (List RamanSample) 2 := #v[fitSamples n as, fitSamples n st]
      let vs := Vector.ofFn fun (b : Fin 2) => s.normalise p b r.gains[b] ls[b]
      let fl := ls.map (s.laneFlags p)
      let auto := fun (b : Fin 2) => s.bandGain p (if b = 0 then .as else .st) == 3
      let gains := Vector.ofFn fun (b : Fin 2) => closedGain (auto b) fl[b].2.1 d.raise[b] r.gains[b] d.gains[b]
      let changes := ((List.finRange 2).filter fun b => gains[b] != d.gains[b]).length
      let high := fl[(0 : Fin 2)].1 + fl[(1 : Fin 2)].1
      let sat := (List.finRange 2).any fun b => r.gains[b] == 0 && fl[b].1 != 0
      let slots := (d.launches.filter (s.overlaps p r)).foldl
        (fun ss l => addSlot ss ((l.openedAt : Int) - r.openedAt) l) d.acc.slots
      let acc : Batt :=
        { d.acc with
          bands := Vector.ofFn fun b =>
            addEntries d.acc.bands[b] vs[b] (excluded 0 (ls[b].map sampleOver)) r.gains[b]
          slots := slots
          records := d.acc.records + 1
          firstLaunch := if d.acc.records = 0 then r.tag.launchTime else d.acc.firstLaunch
          lastLaunch := r.tag.launchTime
          peak := Vector.ofFn fun b => max d.acc.peak[b] fl[b].2.2
          lowered := Vector.ofFn fun b => d.acc.lowered[b] || (auto b && fl[b].2.1)
          saturated := if sat then d.acc.saturated + 1 else d.acc.saturated }
      let s := s.setDts p fun d =>
        { d with
          recs := t
          acc := acc
          gains := gains
          raise := Vector.replicate 2 false
          records := d.records + 1
          ovrSamples := d.ovrSamples + BitVec.ofNat 64 high
          ovrRecords := if high = 0 then d.ovrRecords else d.ovrRecords + 1
          gainChanges := d.gainChanges + BitVec.ofNat 32 changes }
      let lost := ((as.take n).filter (·.lost)).length + ((st.take n).filter (·.lost)).length
      let s := s.setDrop p fun x => { x with ramanLost := x.ramanLost + BitVec.ofNat 64 lost }
      .next (if s.hasDas p then s
        else s.evtEnd p 2 r.tag.group 0 1 0 r.tag.launchTime (some (ramanEnd (4 * Config.ramanFloor p 1) 0 vs[(1 : Fin 2)])))

/-- The port's offsets may be measured (R207): before its first launch, once it has been dark for 10 ms, or in a recovery of FD07
(Table 13.5). -/
def State.offsetsDue (s : State) (p : Port) : Bool :=
  s.hb.doms[(7 : Fin 20)].st == .attempt || (s.runs 7 && (!s.sht[p].launched ||
    (!s.mayEmit p && (s.darkFrom[p].map fun t => decide (t + 10 * msP ≤ s.now)).getD false)))

/-- RAMAN_OFFSET_MEASURE (R207): the offset of each lane at each feedback is taken; one beyond ±512 LSB is a warning (Table 7.11).
Log entry 51, DEDUCED. -/
def execRamanOffsetMeasure (dt : Nat) (p : Port) (as st : List Int) (s : State) : Host.Outcome State Fault Refusal :=
  let s := s.elapse dt
  if s.live && s.hasRaman p && s.offsetsDue p then
    let s := s.setDts p fun d =>
      { d with offsets := #v[as.take 3, st.take 3], offsetTime := s.devTime, offsetTemp := d.theta.value }
    let lanes : List (Port × Fin 2) := [(0, 0), (0, 1), (1, 0), (1, 1)]
    match lanes.find? fun l => s.dts[l.1].offsets[l.2].any fun v => decide (v.natAbs > 512) with
    | some l =>
      let v := BitVec.ofNat 32 (2 * l.1.val + l.2.val)
      .next ((if s.warned 0x000A0002#32 then s else s.record (s.bbxRec 0x0040 7 (rmnFault 4) v [])).warn 0x000A0002#32 v true)
    | none => .next (s.warnEnded 0x000A0002#32)
  else .next s

/-! ## Bias -/

/-- Bias setting of an APD, mV (R202). -/
def State.biasSet (s : State) (p : Port) (b : Band) : Nat := s.apdRef p * 10 * s.bandRatio p b / 32768

/-- The bias of a port goes off (Table 7.11). -/
def State.biasOff (s : State) (p : Port) : State := s.setDts p fun d => { d with biasOff := true }

/-- APD_BIAS_OUT_OF_RANGE (Table 7.11): beyond ±3 % of its setting for 1 ms: bias off, FD07 reported. -/
def execApdBiasOutOfRange (dt : Nat) (p : Port) (b : Band) (mv : Nat) (s : State) : Host.Outcome State Fault Refusal :=
  let s := s.elapse dt
  let set := s.biasSet p b
  if s.live && s.hasRaman p && s.runs 7 && !s.dts[p].biasOff &&
      decide (100 * ((mv : Int) - set).natAbs > 3 * set) then
    let s := s.setDts p fun d => { d with biasMv := d.biasMv.set (bandIndex b) mv }
    .next ((s.biasOff p).report 7 (rmnFault 1) (BitVec.ofNat 32 mv))
  else .next s

/-- APD_CURRENT_HIGH (Table 7.11): above 0.5 mA for 1 ms: bias off, FD07 reported. -/
def execApdCurrentHigh (dt : Nat) (p : Port) (b : Band) (microA : Nat) (s : State) : Host.Outcome State Fault Refusal :=
  let s := s.elapse dt
  if s.live && s.hasRaman p && s.runs 7 && !s.dts[p].biasOff && decide (microA > 500) then
    let s := s.setDts p fun d => { d with currentUa := d.currentUa.set (bandIndex b) microA }
    .next ((s.biasOff p).report 7 (rmnFault 2) (BitVec.ofNat 32 microA))
  else .next s

/-! ## Updates -/

/-- A reading is held, or its hold has expired. -/
def Reading.held (r : Reading) : Bool := r.lostAt.isSome && !r.expired
/-- What an update that opens now knows of a reading. -/
def Reading.open_ (r : Reading) : ReadAcc := { last := r.value, held := r.held, expired := r.expired }

/-- DTS_UPDATE_BOUNDARY (R210): the update that was open closes, and the next opens. An anchored port with no Raman shot yet closes an
update at each multiple as well. -/
def execDtsUpdateBoundary (dt : Nat) (p : Port) (s : State) : Host.Outcome State Fault Refusal :=
  let s := s.elapse dt
  let d := s.dts[p]
  let u := s.updateLsb p
  let ext : Int := s.extTime
  let due : Option Int := match d.next with
    | some n => if n ≤ ext then some (if s.dtsAnchored p then ext - ext % u else n) else none
    | none => if s.dtsAnchored p ∧ s.tim.runs ∧ ext % u ≤ 641 then some (ext - ext % u) else none
  match due with
  | some b =>
    if s.ramanOn p && !d.closing && d.proc.isNone then
      .next (s.setDts p fun d =>
        { d with
          closing := true, boundary := some b, next := some (b + u)
          acc := { d.acc with near := d.curNear, far := d.curFar, theta := d.curTheta, opened := d.boundary.getD (b - u) }
          curNear := d.near.open_, curFar := d.far.open_, curTheta := d.theta.open_
          lfOld := d.lf, lfOldSamples := d.lfSamples, lf := [], lfSamples := 0 })
    else .next s
  | none => .next s

/-- A lane moves to the next higher feedback at the end of an update (R206). -/
def raisedGain (auto : Bool) (b : Batt) (i : Fin 2) (gain : Nat) : Nat :=
  if auto && decide (b.records > 0) && decide (gain < 2) && !b.lowered[i] && decide (100 * b.peak[i] < 15 * 8192) then gain + 1
  else gain

/-- BATT_SWAP (R206, R209 to R211, Table 7.11): the closed update's last record has entered: its batt goes to processing, unless it is
empty or has more than 16 uncorrectable entries. Log entry 53, DEDUCED. -/
def execBattSwap (dt : Nat) (p : Port) (corrected uncorrectable : Nat) (s : State) : Host.Outcome State Fault Refusal :=
  let s := s.elapse dt
  let d := s.dts[p]
  match d.boundary with
  | none => .next s
  | some b =>
    let waits := d.recs.any fun r => s.untimed p r.tag || decide (s.extOf r.tag.launchTime < b)
    if s.ramanOn p && d.closing && !waits then
      let old := { d.acc with uncorrectable := uncorrectable }
      let auto := fun (i : Fin 2) => s.bandGain p (if i = 0 then .as else .st) == 3
      let up := Vector.ofFn fun (i : Fin 2) => raisedGain (auto i) old i d.gains[i]
      let busy := d.recs.any fun r => decide (s.now < r.closesAt)
      let gains := if busy then d.gains else up
      let changes := ((List.finRange 2).filter fun i => gains[i] != d.gains[i]).length
      let s := { s with
        battCorrected := s.battCorrected + BitVec.ofNat 64 corrected
        battUncorrected := s.battUncorrected + BitVec.ofNat 64 uncorrectable }
      let s := s.setDts p fun d =>
        { d with acc := {}, closing := false, gains := gains, raise := Vector.ofFn fun i => busy && up[i] != d.gains[i], gainChanges := d.gainChanges + BitVec.ofNat 32 changes }
      let s :=
        if old.records > 0 ∧ 2 * old.saturated > old.records then
          let v := BitVec.ofNat 32 p.val
          ((if s.warned 0x000D0001#32 then s else s.record (s.bbxRec 0x0040 10 (dtsFault 5) v [])).setDts p
            fun d => { d with saturated := true }).warn 0x000D0001#32 v true
        else s
      if uncorrectable > 16 then
        let s := s.setDts p fun d => { d with battRun := d.battRun + 1 }
        if d.battRun ≥ 2 then .next (s.report 10 (dtsFault 8) (BitVec.ofNat 32 uncorrectable))
        else .next (s.record (s.bbxRec 0x0040 10 (dtsFault 8) (BitVec.ofNat 32 uncorrectable) []))
      else
        let s := s.setDts p fun d => { d with battRun := 0 }
        if old.records = 0 then .next (s.setDts p fun d => { d with emptyUpdates := d.emptyUpdates + 1 })
        else .next (s.setDts p fun d => { d with proc := some old })
    else .next s

/-! ## Readings (R219, R221) -/

/-- The three sources of a port's update. -/
inductive Source where | near | far | theta
deriving DecidableEq, Repr

/-- Change a source's reading and its accumulation. -/
def Dts.onSource (d : Dts) (k : Source) (f : Reading → Reading) (g : ReadAcc → ReadAcc) : Dts :=
  match k with
  | .near => { d with near := f d.near, curNear := g d.curNear }
  | .far => { d with far := f d.far, curFar := g d.curFar }
  | .theta => { d with theta := f d.theta, curTheta := g d.curTheta }

/-- The receiver-temperature channel of the port has a valid reading (R221). -/
def Dts.thetaValid (d : Dts) : Bool := d.theta.value.isSome && d.theta.lostAt.isNone

/-- A reading of a source arrives: the hold ends, and it counts towards the update (R221). A reference reading is lost while the
receiver temperature is. -/
def State.goodReading (s : State) (p : Port) (k : Source) (v : Int) : State :=
  s.setDts p fun d =>
    if k ≠ .theta ∧ d.thetaValid = false then d
    else d.onSource k (fun _ => { value := some v }) fun a => { a with sum := a.sum + v, n := a.n + 1 }

/-- One reading's hold begins, or with REF_HOLD zero has expired. -/
def State.loseOne (s : State) (p : Port) (k : Source) : State :=
  let none_ := s.refHold p == 0
  s.setDts p fun d => d.onSource k
    (fun r => if r.lostAt.isSome then r else { r with lostAt := some s.now, expired := none_ })
    fun a => { a with held := a.held || !none_, expired := a.expired || none_ }

/-- A source's reading is lost; that of the receiver temperature takes the reference readings of the port with it (R221). -/
def State.loseReading (s : State) (p : Port) (k : Source) : State :=
  match k with
  | .theta => ((s.loseOne p .theta).loseOne p .near).loseOne p .far
  | .near | .far => s.loseOne p k

/-- The source a thermistor input serves (R218). -/
def State.inputSource (s : State) (i : Nat) : Option (Port × Source) :=
  match s.refInput i with
  | some r =>
    let p : Port := if fieldAt r 1 1 = 1 then 1 else 0
    (match fieldAt r 2 1 with | 0 => some (p, .near) | 1 => some (p, .far) | _ => none)
  | none => none

/-- FD18 is fenced: every reading is lost (R221, R238). -/
def State.loseAll (s : State) : State := bothPorts.foldl (fun s p => s.loseReading p .theta) s

/-- A lost reading's hold has run out. -/
def State.holdOver (s : State) (p : Port) (r : Reading) : Bool :=
  !r.expired && (r.lostAt.map fun t => decide (t + s.refHold p * secP ≤ s.now)).getD false

/-- REF_HOLD_EXPIRY (R221): the hold of a lost reading of the port expires; δ and Δα freeze. -/
def execRefHoldExpiry (dt : Nat) (p : Port) (s : State) : Host.Outcome State Fault Refusal :=
  let s := s.elapse dt
  let d := s.dts[p]
  let one := fun (d : Dts) (k : Source) (r : Reading) =>
    if s.holdOver p r then d.onSource k (fun r => { r with expired := true }) fun a => { a with expired := true } else d
  if s.live then .next (s.setDts p fun x => one (one (one x .near d.near) .far d.far) .theta d.theta) else .next s

/-- RMN starts for a port, or resumes (R202, R206, R238): biased, automatic lanes at 2 kΩ, both batts empty, δ taken afresh; updates that
are not anchored begin anew with the next Raman shot. Log entry 123, DEDUCED. -/
def State.dtsStart (s : State) (p : Port) (recovered : Bool) : State :=
  let g := fun (b : Band) => if s.bandGain p b = 3 then 0 else s.bandGain p b
  s.setDts p fun d =>
    { d with
      biasOff := !s.hasRaman p
      gains := #v[g .as, g .st]
      recs := [], acc := {}, proc := none, closing := false, battRun := 0, deltaFresh := true, raise := Vector.replicate 2 false
      boundary := none, next := none, lf := [], lfSamples := 0, lfOld := [], lfOldSamples := 0, baseline := []
      curNear := d.near.open_, curFar := d.far.open_, curTheta := d.theta.open_
      diffAtt := if recovered && s.diffAttMode p == 1 then d.diffAtt else s.diffAtt p }

/-- FD07 or FD10 is fenced: open records are dropped whole, and the updates are lost (R238, R282). Log entry 56, DEDUCED. -/
def State.ramanFence (s : State) (p : Port) : State :=
  let rs := s.dts[p].recs
  let s := s.setDts p fun d => { d with recs := [], acc := {}, proc := none, closing := false, boundary := none, next := none }
  rs.foldl (fun s r => s.dropShot p r.tag 3) s

end Sys2Proof.Machine
end

