-- ==== Sys2Proof/Machine/Thermal.lean ====
section
/-! DEFINITION. The arithmetic of temperature and slow strain (R213 to R216, R219, R220, R225, R231): the Raman response as a least-squares
solution, the log ratio, the polynomial, the reference fit, strain and thermistors. -/

namespace Sys2Proof.Machine

/-! ## Least squares -/

/-- Solve a square system by elimination in the order of its rows, each row ending in its right-hand side; the leading minors are not
zero. The first argument is the number of unknowns. -/
def solveRows : Nat → List (List Rat) → List Rat
  | n + 1, (p :: row) :: rest =>
    let x := solveRows n (rest.map fun q => ((q.tail).zip row).map fun e => e.1 - q.headD 0 / p * e.2)
    ((row.getLastD 0 - ((row.dropLast.zip x).map fun e => e.1 * e.2).sum) / p) :: x
  | _, _ => []

/-- The minimiser of Σ (y − M a)² + λ Σ a² over the rows (M, y) of a model, by its normal equations. -/
def leastSquares (n : Nat) (lambda : Rat) (rows : List (List Rat × Rat)) : List Rat :=
  solveRows n ((List.range n).map fun i =>
    ((List.range n).map fun j => (rows.map fun r => r.1.getD i 0 * r.1.getD j 0).sum + if i = j then lambda else 0) ++
      [(rows.map fun r => r.1.getD i 0 * r.2).sum])

/-! ## The Raman response (R213) -/

/-- Weight of bin `i` at a place between bins 0 and n − 1 by linear interpolation; none outside. -/
def hat (n : Nat) (x : Rat) (i : Nat) : Rat :=
  if x < 0 ∨ (n - 1 : Nat) < x then 0 else max 0 (1 - max (x - i) (i - x))

/-- Integral of a bin's weight up to a distance from it. -/
def hatIntegral (v : Rat) : Rat :=
  if v ≤ -1 then 0 else if v ≤ 0 then (v + 1) * (v + 1) / 2 else if v ≤ 1 then 1 - (1 - v) * (1 - v) / 2 else 1

/-- A launch slot as the engine models it: its instant after the Raman shot and what its duration exceeds 10 ns by, both in bins of
10 ns, and its mean energy in nJ (R212). -/
structure SlotModel where
  after : Rat
  width : Rat
  energy : Rat
deriving DecidableEq, Repr

/-- What bin `i` contributes to bin `m` of a slot's trace, per unit energy: the 10 ns shape spread evenly over the launch. -/
def SlotModel.weight (x : SlotModel) (n m i : Nat) : Rat :=
  let at_ := (m : Rat) - x.after
  if x.width ≤ 0 then hat n at_ i
  else
    let clip := fun (v : Rat) => max 0 (min ((n - 1 : Nat) : Rat) v)
    (hatIntegral (clip at_ - i) - hatIntegral (clip (at_ - x.width) - i)) / x.width

/-- A_b, the response per nJ of every bin: the unique minimiser of R213. A bin whose mean is none has count zero and is left out. `ts` is
the Raman shot's mean energy; with none measured no response is stated, and it is a free value. -/
def ramanResponse (free n : Nat) (ts : Rat) (slots : List SlotModel) (means : List (Option Rat)) : List Rat :=
  if ts = 0 then (List.range n).map (Config.openResponse free)
  else
    let rows := means.zipIdx.filterMap fun y => y.1.map fun v =>
      ((List.range n).map fun i => (slots.map fun x => x.energy * x.weight n y.2 i).sum, v)
    leastSquares n ((ts / 64) * (ts / 64)) rows

/-! ## Ratio and polynomial (R215, R216) -/

/-- ln(10) / 10. -/
def dbFactor : Rat := ofF (lnF 10) / 10

/-- Distance of DTS point m, or of a mean of points, in km: 2 · Δz apart (R37). -/
def thermKm (groupIndex : Nat) (m : Rat) : Rat := m * lightSpeed / (groupIndex * 20000 : Nat) / 1000

/-- L(m) + Δα · z_m / 1,000 m · ln(10) / 10: the log ratio before δ. Δα is in 0.0001 dB/km. -/
def logRatio (groupIndex : Nat) (diffAtt : Rat) (m : Nat) (as st : Rat) : Rat :=
  ofF (lnF (as / st)) + diffAtt / 10000 * thermKm groupIndex m * dbFactor

/-- The polynomial of a port (Table 7.14): L0, LS and C_00 to C_42. -/
def polyOf (p : Port) (rec : Option (List Byte)) (i : Nat) : Rat :=
  ofFloat32 (match rec with
    | some r => BitVec.ofNat 32 (fieldAt r (4 + 4 * i) 4)
    | none => Config.factoryPoly p i)

/-- Coefficient of ρ^i at a θ. -/
def polyRow (c : Nat → Rat) (theta : Rat) (i : Nat) : Rat := c (2 + 3 * i) + theta * (c (3 + 3 * i) + theta * c (4 + 3 * i))

/-- T in °C of a corrected log ratio (R216). -/
def polyTemp (c : Nat → Rat) (theta lc : Rat) : Rat :=
  let rho := (lc - c 0) / c 1
  (List.range 5).foldr (fun i a => polyRow c theta i + rho * a) 0

/-- Its slope by L_c. -/
def polySlope (c : Nat → Rat) (theta lc : Rat) : Rat :=
  let rho := (lc - c 0) / c 1
  ((List.range 4).foldr (fun (i : Nat) a => ((i + 1 : Nat) : Rat) * polyRow c theta (i + 1) + rho * a) 0) / c 1

/-- A profile's temperature, 0.01 °C: the sum in binary64, rounded convergently. Log entry 124, DEDUCED. -/
def pointTemp (c : Nat → Rat) (theta lc : Rat) : Int := ratRound (100 * round64 (polyTemp c theta lc))

/-! ## The reference fit (R219, R220) -/

/-- One Newton step towards a reference temperature, kept to 2⁻⁶⁴; none where it leaves −1 to +1 or the slope is zero. -/
def newtonStep (c : Nat → Rat) (theta mean ref x : Rat) : Option Rat :=
  let k := polySlope c theta (mean + x)
  let y : Rat := x - (polyTemp c theta (mean + x) - ref) / k
  let z : Rat := ((y * 2 ^ 64).floor : Rat) / 2 ^ 64
  if k = 0 ∨ z < -1 ∨ 1 < z then none else some z

/-- Newton iteration from a start until a step is below 2⁻³²; none where no solution is found. Log entry 125, DESIGN CHOICE. -/
def newton (c : Nat → Rat) (theta mean ref : Rat) : Nat → Rat → Option Rat
  | 0, _ => none
  | n + 1, x =>
    match newtonStep c theta mean ref x with
    | none => none
    | some y => if 2 ^ 32 * (max (y - x) (x - y)) < 1 then some y else newton c theta mean ref n y

/-- Mean of some values. -/
def ratMean (l : List Rat) : Rat := l.sum / l.length

/-- δ_obs of a span: of its log ratios before δ and its reference in °C. -/
def deltaObs (c : Nat → Rat) (theta : Rat) (logs : List Rat) (ref start : Rat) : Option Rat :=
  newton c theta (ratMean logs) ref 64 start

/-! ## Slow strain (R225, R226) -/

/-- DAS_STRAIN_LF in 10 pε: of the wavelength code, group index, G · P, PHASE_INDEX, XI and K_T, the change of phase in LSB of π/16,384 rad
and of temperature in 0.01 °C. Its rounding is not stated (log entry 112). -/
def strainOf (wavelength groupIndex gaugeSamples phaseIndex xi kT : Nat) (phase temp : Rat) : Int :=
  let lambda : Rat := ((154950 + wavelength : Nat) : Rat) / 10 ^ 11
  let gauge : Rat := ((gaugeSamples * lightSpeed : Nat) : Rat) / (groupIndex * 40000 : Nat)
  let optical := lambda * phase / (65536 * ((phaseIndex : Rat) / 10000) * ((xi : Rat) / 10000) * gauge)
  let thermal := (kT : Rat) / 10 ^ 8 * (temp / 100)
  pickRound 9 ((optical - thermal) * 10 ^ 11)

/-! ## Thermistors (R231) -/

/-- Temperature of a thermistor in 0.001 °C: of its REF_INPUT record (Table 7.15) and x in 2⁻²³ of excitation. Where R_T is not positive
or the Steinhart–Hart sum is zero, none is stated, and it is a free value. -/
def thermistorTemp (r : List Byte) (x : Int) : Int :=
  let f := fun (off : Nat) => ofFloat32 (BitVec.ofNat 32 (fieldAt r off 4))
  let v : Rat := (x : Rat) / 2 ^ 23
  let res := f 12 * v / (1 - v)
  let l := ofF (lnF res)
  let sum := f 16 + f 20 * l + f 24 * l * l * l
  if res ≤ 0 ∨ sum = 0 then Config.openTemperature r x
  else pickRound 10 (1000 / sum - 273150) + sfieldAt r 28 2

end Sys2Proof.Machine
end

