-- ==== Sys2Proof/Machine/Dts.lean ====
section
/-! DEFINITION. Profiles (R213 to R226, R331): responses, reference fit, temperatures, DAS_STRAIN_LF and their records. -/

namespace Sys2Proof.Machine

/-! ## Responses and the reference fit -/

/-- Mean energy of a slot in nJ: its sum over the number of Raman records (R212). -/
def Batt.meanEnergy (b : Batt) (x : Slot) : Rat := (x.energy : Rat) / 1000 / b.records

/-- The launch slots as the engine models them. -/
def Batt.slotModels (b : Batt) : List SlotModel :=
  b.slots.map fun x => { after := (x.offset : Rat) / 4, width := ((x.duration : Rat) - 8) / 8, energy := b.meanEnergy x }

/-- Mean energy of the Raman shot itself. -/
def Batt.shotEnergy (b : Batt) : Rat := ((b.slots.filter fun x => x.offset == 0).map b.meanEnergy).sum

/-- The mean trace of a band, in normalised units; none where the count is zero (R213). -/
def Batt.meanTrace (b : Batt) (free : Nat) (i : Fin 2) (n : Nat) : List (Option Rat) :=
  (b.bands[i] ++ List.replicate (n - b.bands[i].length) ({} : BattEntry)).zipIdx.map fun e =>
    let sum := if b.uncorrectable = 0 then e.1.sum else (Config.badEntry (2 * free + i.val) e.2).getD e.1.sum
    if e.1.count = 0 then none else some ((sum : Rat) / 65536 / e.1.count)

/-- A_b of every point (R213): both bands with the same slots (R214). -/
def State.responses (s : State) (p : Port) (b : Batt) (i : Fin 2) : List Rat :=
  ramanResponse (2 * s.free + i.val) (s.nTherm p) b.shotEnergy b.slotModels (b.meanTrace s.free i (s.nTherm p))

/-- A source's value over an update, 0.001 °C: the mean of its readings, or the value held. Log entry 55, DEDUCED. -/
def ReadAcc.mean (a : ReadAcc) : Option Rat := if a.n = 0 then a.last.map fun v => (v : Rat) else some ((a.sum : Rat) / a.n)

/-- Log ratios before δ over a reference span. -/
def State.spanLogs (s : State) (p : Port) (r : List Byte) (as st : List Rat) : List Rat :=
  (((as.zip st).zipIdx.drop (fieldAt r 4 4)).take (fieldAt r 8 4)).map fun e =>
    logRatio (s.groupIndex p) s.dts[p].diffAtt e.2 e.1.1 e.1.2

/-- Mean point of a span. -/
def spanCentre (r : List Byte) : Rat := ((2 * fieldAt r 4 4 + fieldAt r 8 4 - 1 : Nat) : Rat) / 2

/-- Δα and δ after an update (R219, R220), its T_ref, and whether no δ was found. -/
structure Fit where
  delta : Rat
  diffAtt : Rat
  fresh : Bool
  step : Bool := false
  failed : Bool := false
deriving DecidableEq, Repr

/-- The far span takes part: DIFF_ATT_MODE 1 (R220). -/
def State.tracks (s : State) (p : Port) : Bool := s.diffAttMode p == 1 && (s.spanOf p 1).isSome

/-- δ after δ_obs has been found (R219): taken on the first update and on a step of more than 0.02, else approached by DELTA_TAU. -/
def moveDelta (fresh : Bool) (delta obs : Rat) (tau : Nat) : Rat × Bool :=
  let step := decide (2 < 100 * (obs - delta)) || decide (100 * (obs - delta) < -2)
  if fresh then (obs, false) else if step then (obs, true) else (delta + (obs - delta) / tau, false)

/-- Δα moved towards Δα_obs (R220), 0.0001 dB/km, within ±3.0000 dB/km. -/
def moveDiff (diffAtt far near distance : Rat) (tau : Nat) : Rat :=
  let obs := diffAtt + 10000 * ((far - near) / (distance * dbFactor))
  max (-30000) (min 30000 (diffAtt + (obs - diffAtt) / tau))

/-- The reference fit of an update (R219 to R221): frozen where a hold has expired or nothing has ever been read. -/
def State.fit (s : State) (p : Port) (b : Batt) (as st : List Rat) (theta : Rat) : Fit :=
  let d := s.dts[p]
  let keep : Fit := { delta := d.delta, diffAtt := d.diffAtt, fresh := d.deltaFresh }
  let c := polyOf p (s.polyRec p)
  match s.spanOf p 0, b.near.mean with
  | some near, some t =>
    if b.near.expired || b.theta.expired || (s.tracks p && b.far.expired) then keep
    else
      match deltaObs c theta (s.spanLogs p near.2 as st) (t / 1000) d.delta with
      | none => { keep with failed := true }
      | some obs =>
        let m := moveDelta d.deltaFresh d.delta obs (s.deltaTau p)
        let out : Fit := { delta := m.1, diffAtt := d.diffAtt, fresh := false, step := m.2 }
        match (if s.tracks p then s.spanOf p 1 else none), b.far.mean with
        | some f, some tf =>
          (match deltaObs c theta (s.spanLogs p f.2 as st) (tf / 1000) d.delta with
           | none => { out with failed := true }
           | some fobs =>
             let km := thermKm (s.groupIndex p) (spanCentre f.2 - spanCentre near.2)
             { out with diffAtt := moveDiff d.diffAtt fobs obs km (s.deltaTau p) })
        | _, _ => out
  | _, _ => keep

/-! ## Points -/

/-- More than one feedback has contributed. -/
def mixedGains (g : Nat) : Bool := (bitsOf [bitOf g 0, bitOf g 1, bitOf g 2] != 0) && g != 1 && g != 2 && g != 4

/-- A response is at or below four times its noise floor (R215). -/
def darkResponse (p : Port) (b : Nat) (a : Rat) : Bool := decide (a ≤ 4 * max 0 (Config.responseFloor p b))

/-- Code and temperature in 0.01 °C, before saturation, of a point (R215 to R217, Table 7.4). -/
def State.dtsPoint (s : State) (p : Port) (b : Batt) (f : Fit) (theta : Rat) (free m : Nat) (e0 e1 : BattEntry) (as st : Rat) :
    Nat × Int :=
  let dark := darkResponse p 0 as || darkResponse p 1 st
  let t := if dark then Config.blankValue free m
    else pointTemp (polyOf p (s.polyRec p)) theta (logRatio (s.groupIndex p) f.diffAtt m as st + f.delta)
  if e0.count = 0 ∨ e1.count = 0 then (0, Config.blankValue free m)
  else if 2 * e0.count < b.records ∨ 2 * e1.count < b.records then (1, t)
  else if dark then (2, t)
  else if t < -6000 ∨ 30000 < t then (3, t)
  else if mixedGains e0.gains || mixedGains e1.gains then (7, t)
  else (8, t)

/-- The profile: code and temperature of every point. -/
def State.profile (s : State) (p : Port) (b : Batt) (f : Fit) (theta : Rat) (as st : List Rat) : List (Nat × Int) :=
  let n := s.nTherm p
  let pad := fun (l : List BattEntry) => l ++ List.replicate (n - l.length) ({} : BattEntry)
  ((((pad b.bands[(0 : Fin 2)]).zip (pad b.bands[(1 : Fin 2)])).zip (as.zip st)).zipIdx).map fun e =>
    s.dtsPoint p b f theta s.free e.2 e.1.1.1 e.1.1.2 e.1.2.1 e.1.2.2

/-! ## DAS_STRAIN_LF (R225) -/

/-- DTS points of a gauge, from ⌈a · P / 2⌉ to ⌊b · P / 2⌋. -/
def State.gaugePoints (s : State) (p : Port) (n : Nat) (pts : List (Nat × Int)) : List (Nat × Int) :=
  let a := n - s.gauge p / 2
  let b := a + s.gauge p
  let lo := (a * s.pleats p + 1) / 2
  (pts.drop lo).take (b * s.pleats p / 2 + 1 - lo)

/-- The code of a gauge, but for NO_BASELINE (Table 7.4). Log entry 126, DESIGN CHOICE. -/
def State.lfCode (s : State) (p : Port) (n : Nat) (a : LfAcc) (q : List (Nat × Int)) : Nat :=
  let has := fun (c : Nat) => q.any fun x => x.1 == c
  if s.gaugeNone p n || a.n == 0 || q.all (fun x => x.1 == 0) then 0
  else if has 1 then 1
  else if has 2 then 2
  else if has 3 then 3
  else if 2 * a.held > a.n then 5
  else if a.rebased then 6
  else if has 7 then 7
  else 8

/-- Mean temperature of a gauge's points that carry one, 0.01 °C. Log entry 55, DEDUCED. -/
def meanTemp (q : List (Nat × Int)) : Rat :=
  let v := (q.filter fun x => x.1 != 0 && x.1 != 2).map (·.2)
  (v.sum : Rat) / v.length

/-- A gauge of an update: its baseline after it, its code and its strain in 10 pε. -/
def State.lfGauge (s : State) (p : Port) (pts : List (Nat × Int)) (n : Nat) (a : LfAcc) (base : Option (Rat × Rat)) :
    Option (Rat × Rat) × Nat × Int :=
  let q := s.gaugePoints p n pts
  let c := s.lfCode p n a q
  let now : Rat × Rat := ((a.sum : Rat) / a.n, meanTemp q)
  let base := match base with
    | some b => some b
    | none => if c = 7 ∨ c = 8 then some now else none
  match base with
  | some b =>
    (some b, c, if c = 0 then Config.blankValue s.free n
      else strainOf s.wavelengthCode (s.groupIndex p) (s.gauge p * s.pleats p) (s.phaseIndex p) (s.xi p) (s.kT p) (now.1 - b.1)
        (now.2 - b.2))
  | none => (none, if c = 5 ∨ c = 6 then 4 else c, 0)

/-! ## Records (R331) -/

/-- What the headers of an update's records share. -/
structure DtsHead where
  flags : Nat
  batt : Batt
  tRef : U32
  theta : U32
  delta : U32
  diffAtt : U32
deriving DecidableEq, Repr

/-- The payload of a run of points: header of Table 11.3, values, codes. -/
def State.dtsPayload (s : State) (p : Port) (product : Nat) (h : DtsHead) (first : Nat) (values : List (List Byte))
    (codes : List Nat) : List Byte :=
  let lf := product == 2
  le 1 product ++ le 1 (if lf then s.pleats p else 0) ++ le 2 h.flags ++ le 2 (s.dtsInterval p) ++
    le 2 (if lf then s.gauge p else 0) ++ le 4 first ++ le 4 codes.length ++ le 8 h.batt.firstLaunch.toNat ++
    le 8 h.batt.lastLaunch.toNat ++ leInt 8 h.batt.opened ++ le 4 h.batt.records ++ le 4 h.tRef.toNat ++ le 4 h.theta.toNat ++
    le 4 h.delta.toNat ++ le 4 h.diffAtt.toNat ++ le 4 0 ++ pad4 values.flatten ++ pad4 (packCodes codes)

/-- The records of a range of points under a record limit (R328). -/
def State.dtsRecords (s : State) (limit : Nat) (p : Port) (typ product w : Nat) (h : DtsHead) (first : Nat)
    (values : List (List Byte)) (codes : List Nat) : List PRec :=
  let n := codes.length
  (cutRuns (mostPoints (dtsSize w) (limit - 36) n) n 0 n).map fun c =>
    s.newRec typ p.val
      (s.dtsPayload p product h (first + c.1) ((values.drop c.1).take c.2) ((codes.drop c.1).take c.2))

/-- A DTS or slow-strain product leaves for every route that carries it and for ring 2; only DAS_STRAIN_LF is cut to a route's
points (R363). -/
def State.emitDts (s : State) (p : Port) (typ product w : Nat) (h : DtsHead) (values : List (List Byte)) (codes : List Nat) :
    State :=
  let s := allRoutes.foldl (fun s r =>
    if s.routeTakes r typ p.val then
      let first := if product = 2 then s.routeFirst r else 0
      let n := if product = 2 then takeCount codes.length first (s.routeCount r) else codes.length
      (s.dtsRecords (s.recordLimit r) p typ product w h first ((values.drop first).take n) ((codes.drop first).take n)).foldl
        (fun s q => s.toRoute r q) s
    else s) s
  if s.ring2Takes typ then
    (s.dtsRecords ringRecordLimit p typ product w h 0 values codes).foldl (fun s q => s.toRing 2 { prec := some q }) s
  else s

/-- FLAGS of R222. -/
def State.profileFlags (s : State) (p : Port) (b : Batt) : Nat :=
  let far := s.tracks p
  let near := (s.spanOf p 0).isSome
  let unread := b.near.mean.isNone || b.theta.mean.isNone || (far && b.far.mean.isNone)
  let uncal := !near || unread || b.near.expired || b.theta.expired || (far && b.far.expired)
  bitIf uncal 0 + bitIf ((near && b.near.held) || b.theta.held || (far && b.far.held)) 1 + bitIf (decide (b.records < 16)) 2 +
    bitIf far 3 + bitIf b.theta.held 4

/-- DAS_STRAIN_LF of an update (R225, R226). -/
def State.emitLf (s : State) (p : Port) (h : DtsHead) (pts : List (Nat × Int)) : State :=
  if !s.formsLf p then s
  else
    let d := s.dts[p]
    let np := s.nPoints p
    let acc := d.lfOld ++ List.replicate (np - d.lfOld.length) ({} : LfAcc)
    let base := d.baseline ++ List.replicate (np - d.baseline.length) none
    let gs := ((acc.zip base).zipIdx).map fun e => s.lfGauge p pts e.2 e.1.1 e.1.2
    let s := s.setDts p fun d => { d with baseline := gs.map (·.1), lfOld := [], lfOldSamples := 0 }
    s.emitDts p 0x03 2 4 h (gs.map fun g => leInt 4 (clampInt 32 g.2.2)) (gs.map fun g => g.2.1)

/-- DTS_PROFILE_DONE (R213 to R226): the closed update is solved, calibrated and emitted, once its last acoustic sample is with DEC.
Log entry 55, DEDUCED. -/
def execDtsProfileDone (dt : Nat) (p : Port) (s : State) : Host.Outcome State Fault Refusal :=
  let s := s.elapse dt
  let d := s.dts[p]
  match d.proc with
  | none => .next s
  | some b =>
    let late := s.formsLf p && s.phs[p].expect.any fun e => (d.boundary.map fun x => decide (s.extOf e.time < x)).getD false
    if !s.ramanOn p || late then .next s
    else
      let as := s.responses p b 0
      let st := s.responses p b 1
      let s := s.takeFree
      let theta := (b.theta.mean.getD (Config.blankValue s.free 0 : Rat) - 50000) / 50000
      let f := s.fit p b as st theta
      let tRef := b.near.mean.getD (Config.blankValue s.free 1 : Rat)
      let pts := s.profile p b f theta as st
      let h : DtsHead :=
        { flags := s.profileFlags p b, batt := b, tRef := toFloat32 11 (tRef / 1000), theta := toFloat32 12 theta, delta := toFloat32 13 f.delta
          diffAtt := toFloat32 14 (f.diffAtt / 10000) }
      let raw := s.dtsRawEvery p != 0 && decide (d.rawCount + 1 ≥ s.dtsRawEvery p)
      let s := s.setDts p fun d =>
        { d with
          proc := none, profiles := d.profiles + 1, lastTime := s.devTime, delta := f.delta, diffAtt := f.diffAtt
          deltaFresh := f.fresh
          deltaSteps := if f.step then d.deltaSteps + 1 else d.deltaSteps
          refTemp := pickRound 15 tRef
          refFit := d.refFit || f.failed
          rawCount := if raw then 0 else d.rawCount + 1 }
      let s :=
        if f.failed then
          let v := BitVec.ofNat 32 p.val
          (if s.warned 0x000D0002#32 then s else s.record (s.bbxRec 0x0040 10 (dtsFault 7) v [])).warn 0x000D0002#32 v true
        else s
      let codes := pts.map (·.1)
      let s := s.emitDts p 0x10 0 2 h (pts.map fun x => leInt 2 (clampInt 16 x.2)) codes
      let s := if raw then
          s.emitDts p 0x11 1 8 h ((as.zip st).map fun x => le 4 (toFloat32 16 x.1).toNat ++ le 4 (toFloat32 16 x.2).toNat) codes
        else s
      .next ((s.emitLf p h pts).takeFree)

end Sys2Proof.Machine
end

