-- ==== Sys2Proof/Machine/Fabric.lean ====
section
/-! DEFINITION. The regions of the self-timed core (chapter 9): region deltas, throughput margins and stalls. Notices and links stand in
Links.lean. -/

namespace Sys2Proof.Machine

/-! ## Region deltas -/

/-- The regions that each seam joins (Table 9.2). -/
def seamRegions : Vector (Region × Region) 13 :=
  #v[(0, 2), (2, 4), (4, 5), (5, 6), (1, 3), (3, 7), (7, 8), (8, 9), (0, 1), (2, 3), (4, 7), (5, 8), (6, 9)]

/-- Differences of the two regions of a seam: mV of VCORE and half kelvins of junction temperature. -/
def Fab.seamDiff (f : Fab) (k : Fin 13) : Nat × Nat :=
  let a := f.regions[(seamRegions[k]).1]
  let b := f.regions[(seamRegions[k]).2]
  (((a.vcore : Int) - b.vcore).natAbs, (a.tj - b.tj).natAbs)

/-- A seam after a sample (R275): beyond delta over 60 mV or 25 K, within again after 1 ms at or below 50 mV and 22 K. -/
def SeamSt.sample (x : SeamSt) (now : Nat) (d : Nat × Nat) : SeamSt :=
  let outer := decide (60 < d.1) || decide (50 < d.2)
  let inner := decide (d.1 ≤ 50) && decide (d.2 ≤ 44)
  let at_ := if inner then x.outAt else now
  if outer then { beyond := true, ever := true, outAt := at_ }
  else { x with outAt := at_, beyond := x.beyond && !(inner && decide (at_ + msP ≤ now)) }

/-- A seam beyond delta anew: warning and black-box record, made through a controller (R276). -/
def State.seamExcursion (s : State) (k : Fin 13) : State :=
  let a := s.fab.regions[(seamRegions[k]).1]
  let b := s.fab.regions[(seamRegions[k]).2]
  if s.hatbandActs then
    (s.warn 0x000F0001#32 (BitVec.ofNat 32 k.val) true).record
      (s.bbxRec 0x0052 0xFF 0x000F0001#32 (BitVec.ofNat 32 k.val)
        (le 4 k.val ++ le 4 a.vcore ++ leInt 4 a.tj ++ le 4 b.vcore ++ leInt 4 b.tj))
  else s

/-- Some seam is beyond delta. -/
def Fab.anyBeyond (f : Fab) : Bool := f.seams.toList.any (·.beyond)

/-- REGION_DELTA_SAMPLE (R275, R276): readings to 2 mV and 0.5 K; seams judged, the U bound withdrawn or restored. -/
def execRegionDeltaSample (dt : Nat) (mv : List Nat) (halfK : List Int) (s : State) : Host.Outcome State Fault Refusal :=
  let s := s.elapse dt
  if !s.live then .next s
  else
    let old := s.fab
    let f : Fab := { old with
      regions := Vector.ofFn fun r => { old.regions[r] with vcore := mv.getD r.val 0 / 2 * 2, tj := halfK.getD r.val 0 } }
    let f : Fab := { f with seams := Vector.ofFn fun k => (old.seams[k]).sample s.now (f.seamDiff k) }
    let f : Fab :=
      if f.anyBeyond then { f with uBound := false, withdrawnAt := if f.uBound then s.now else f.withdrawnAt }
      else { f with uBound := true, withdrawn := if f.uBound then f.withdrawn else f.withdrawn + (s.now - f.withdrawnAt) }
    let s := { s with fab := f }
    let new := (List.finRange 13).filter fun k => (f.seams[k]).beyond && !(old.seams[k]).beyond
    let s := new.foldl State.seamExcursion s
    .next (if f.anyBeyond then s else s.warnEnded 0x000F0001#32)

/-! ## Throughput margin (Table 9.6) -/

/-- DAS products formed of a port: on each path, those that a route or its ring takes. -/
def State.formedProducts (s : State) (p : Port) : Nat :=
  (([false, true] : List Bool).map fun c => (([0, 1, 2] : List Nat).filter fun x =>
    (allRoutes.any fun r => s.routeDas r p x c) || s.ringDas p x c).length).sum

/-- Values per second that CMP codes of a port (R335). -/
def State.codedValues (s : State) (p : Port) : Rat :=
  (if s.histSizeMiB p.val ≠ 0 ∧ s.histCoding p.val ≠ 0 then
    s.outputRate p (s.histSource p.val == 1) * (takeCount (s.nPoints p) (s.histFirst p.val) (s.histCount p.val) : Nat) else 0) +
  ((allRoutes.filter fun r => (s.routeRec r).isSome && s.routeCoding r != 0 && bitOf (s.routePorts r) p.val).map fun r =>
    s.outputRate p (s.routeSource r == 1) * (takeCount (s.nPoints p) (s.routeFirst r) (s.routeCount r) *
      (s.routeProducts r).length : Nat)).sum

/-- Gauge values per second of a port. -/
def State.gaugeRate (s : State) (p : Port) : Rat := s.acousticRate p * (s.nPoints p : Nat)

/-- Sample instants per second in one pleat lane: N_s / T. -/
def State.laneRate (s : State) (p : Port) : Rat := if s.hasDas p then (s.nSamples p * 100000000 : Nat) / (s.period10 p : Rat) else 0

/-- A record of the port is open. -/
def State.acqOpen (s : State) (p : Port) : Bool := s.acq[p].records.any fun r => decide (s.now < r.first + 2 * r.len)
def State.ramanOpen (s : State) (p : Port) : Bool := s.dts[p].recs.any fun r => decide (s.now < r.closesAt)

/-- The required rates of a region's functions in the order of Table 9.6, per second; a pleat lane counts as one function. The
management regions have none: their replicas give the margin itself. -/
def State.required (s : State) (r : Region) : List Rat :=
  let das := fun (p : Port) => (if s.acqOpen p then (200000000 : Rat) else 0) :: List.replicate (s.pleats p) (s.laneRate p)
  let phs := fun (p : Port) => List.replicate (s.pleats p) (s.laneRate p) ++ [s.gaugeRate p]
  match r.val with
  | 0 => das 0
  | 1 => das 1
  | 2 => phs 0
  | 3 => phs 1
  | 4 => bothPorts.map (fun p => s.gaugeRate p * (s.formedProducts p : Nat)) ++ bothPorts.map s.gaugeRate ++
      bothPorts.map fun p => if s.ramanOpen p then (200000000 : Rat) else 0
  | 5 => bothPorts.map s.codedValues ++ [s.realTimeLoad 3]
  | 6 => [((allRoutes.filter fun r => (s.routeRec r).isSome).map s.routeLoad).sum]
  | _ => []

/-- The margin of a region: the least ratio of capacity to required rate; none without a required rate (R277). Of the management
regions the monitor's ratio comes in 1/256. -/
def State.marginOf (s : State) (r : Region) (caps : List Nat) : Option Rat :=
  if 7 ≤ r.val then caps.head?.map fun c => (c : Rat) / 256
  else
    ((caps.zip (s.required r)).filter fun e => e.2 > 0).foldl
      (fun m e => let q := (e.1 : Rat) / e.2; some ((m.map fun (x : Rat) => min x q).getD q)) none

/-- A margin as it is reported: in 1/256, truncated; 0xFFFF without a required rate (R277). -/
def marginReport (m : Option Rat) : Nat := (m.map fun q => clampNat 0xFFFF (q * 256).floor.toNat).getD 0xFFFF

/-- A margin lies below a bound. -/
def marginBelow (m : Option Rat) (bound : Rat) : Bool := (m.map fun q => decide (q < bound)).getD false

/-- A region after a measurement (R279): runs below 1.10 and below 1.00, the flag and the least margin. -/
def RegionSt.measured (x : RegionSt) (m : Option Rat) : RegionSt :=
  let low := if marginBelow m (11 / 10) then min 10 (x.lowRun + 1) else 0
  { x with
    margin := marginReport m
    marginMin := min x.marginMin (marginReport m)
    lowRun := low
    badRun := if marginBelow m 1 then min 11 (x.badRun + 1) else 0
    low := decide (low = 10) }

/-- MARGIN_MEASURE (R277, R279): margins of all regions; ten low measurements in a row raise the warning, ten below 1.00 write a
black-box record. Log entry 62, DEDUCED. -/
def execMarginMeasure (dt : Nat) (capacities : List (List Nat)) (s : State) : Host.Outcome State Fault Refusal :=
  let s := s.elapse dt
  if !s.live then .next s
  else
    let old := s.fab.regions
    let new : Vector RegionSt 10 := Vector.ofFn fun r => (old[r]).measured (s.marginOf r (capacities.getD r.val []))
    let s := { s with fab := { s.fab with regions := new } }
    let s := (List.finRange 10).foldl (fun (s : State) (r : Region) =>
      if (new[r]).badRun == 10 then s.record (s.bbxRec 0x0053 0xFF 0 0 (le 4 r.val ++ le 4 (new[r]).margin)) else s) s
    match (List.finRange 10).find? fun r => (new[r]).low with
    | some r => .next (s.warn 0x000F0002#32 (BitVec.ofNat 32 r.val) true)
    | none => .next (s.warnEnded 0x000F0002#32)

/-! ## Domains of regions and nodes, and stalls -/

/-- Fence domains within a region (Tables 0.1 and 9.1). Log entry 64, DEDUCED. -/
def regionDomains (r : Region) : List Domain :=
  match r.val with
  | 0 => [5] | 1 => [6] | 2 => [8] | 3 => [9] | 4 => [8, 9, 10, 11] | 5 => [12, 13] | 6 => [14, 15] | 9 => [16, 17, 18] | _ => []

/-- Fence domains with endpoints at a node: those of its region and of its clocked domains (Table 9.1).
Log entry 64, DEDUCED. -/
def nodeDomains (r : Region) : List Domain :=
  match r.val with
  | 4 => [7, 8, 9, 10, 11] | 7 => [4, 19] | 8 => [2, 3] | _ => regionDomains r

/-- Fault reports of domains that are in use. Log entry 64, DEDUCED. -/
def State.reportAll (s : State) (ds : List Domain) (code value : U32) : State :=
  ds.foldl (fun s d => if (s.dom d).st = .idle then s else s.report d code value) s

/-- STALL_DETECTED (R287): only where the region has a required rate. -/
def execStallDetected (dt : Nat) (region : Region) (stage : Nat) (s : State) : Host.Outcome State Fault Refusal :=
  let s := s.elapse dt
  if s.live && (s.fab.regions[region]).margin != 0xFFFF then
    let s := { s with fab := { s.fab with stall := s.fab.stall ||| (1#10 <<< region.val) } }
    let s := s.record (s.bbxRec 0x0054 0xFF 0x000F8001#32 (BitVec.ofNat 32 region.val) (le 4 region.val ++ le 4 stage))
    .next (s.reportAll (regionDomains region) 0x000F8001#32 (BitVec.ofNat 32 region.val))
  else .next s

end Sys2Proof.Machine
end

