-- ==== Sys2Proof/Machine/Hatband.lean ====
section
/-! DEFINITION. The hatband's controllers and their self-checks (R409 to R413). Fault reports, and what a fence and a recovery do
inside each domain, stand in Fence.lean. -/

namespace Sys2Proof.Machine

/-- Domains named by fault reports, as a mask. -/
def reportMask (l : List FaultRep) : BitVec 20 := l.foldl (fun m f => m ||| (1#20 <<< f.domain.val)) 0

/-- HB_DIGEST_EXCHANGE (R410): a mismatch between two working controllers starts both self-tests. -/
def execHbDigestExchange (dt : Nat) (equal : Bool) (s : State) : Host.Outcome State Fault Refusal :=
  let s := s.elapse dt
  if s.live && !s.hb.bothFailed && !equal && s.hb.ctlA != .failed && s.hb.ctlB != .failed then
    .next { s with hb := { s.hb with selfTest := true } }
  else .next s

/-- BOTH_FAILED_LATCH (R412): with neither controller alive the latch is set, HEALTH_N is asserted and the hardwired writer
writes the fence mask and the active fault lines; alarm outputs follow EVT's demand, and domains keep their states, one in an attempt staying fenced. -/
def execBothFailedLatch (dt : Nat) (s : State) : Host.Outcome State Fault Refusal :=
  let s := s.elapse dt
  if s.live && !s.hb.bothFailed && s.hb.ctlA == .failed && s.hb.ctlB == .failed then
    let s := { s with hb := { s.hb with bothFailed := true } }.alarmsFree
    .next (s.hardwiredRecord (s.bbxRec 0x0031 0xFF 0 0 (le 4 s.fenceMask ++ le 4 (reportMask s.hb.reports).toNat)))
  else .next s

/-- Max of a domain's recovery sequence, ms (Table 13.5). -/
def recoveryMax (d : Domain) : Nat :=
  match d.val with
  | 0 | 1 | 5 | 6 | 16 | 17 => 10
  | 2 => 25000
  | 3 => 160
  | 7 => 50
  | 13 => 3160
  | 15 => 100
  | _ => 1

/-- RECOVERY_CLEAN_TICK (R413): a running domain clean for RECOVERY_CLEAN forgets its attempts. -/
def execRecoveryCleanTick (dt : Nat) (s : State) : Host.Outcome State Fault Refusal :=
  let s := s.elapse dt
  if s.live && s.hatbandActs && s.recoveryClean != 0 then
    .next { s with hb := { s.hb with doms := s.hb.doms.map fun x =>
      if x.st = .running ∧ x.cleanSince + s.recoveryClean * secP ≤ s.now then { x with attempts := 0 } else x } }
  else .next s

end Sys2Proof.Machine
end

