-- ==== Sys2Proof/Machine/Writer.lean ====
section
/-! DEFINITION. The real-time writer (R303, R310, R314 to R317): items cut into segments of 4 KiB, the accesses that write them,
overflow of the writer queue, and flushes. -/

namespace Sys2Proof.Machine

/-! ## Segments -/

/-- Payload bytes of a segment (R314). -/
def segPayload : Nat := 4032

/-- DRAM address of a segment, counted by SEQ from 1 (R359). -/
def Ring.slot (r : Ring) (seq : Nat) : Nat := r.base + (seq - 1) % max 1 (r.size / 4096) * 4096

/-- Bytes the spec does not state, `n` of them, from a free value's index on. -/
def freeBytes (k n : Nat) : List Byte := (List.range n).map (Config.fillByte k)

/-- A header's bytes 0 to 59 and HEADER_CRC (Table 10.6). -/
def sealHeader (b : List Byte) : List Byte := b ++ le 4 (crc32c b).toNat

/-- The header of an open segment: SEQ, STATE 1 and RING; its other fields hold bytes the spec does not state (R314 step 1).
Log entry 66, DESIGN CHOICE. -/
def openHeader (k seq ring : Nat) : List Byte := le 8 seq ++ le 1 1 ++ le 1 ring ++ freeBytes k 54

/-- The header of a closed segment with its payload's CRC (R314 step 3). FIRST_INDEX and the times of a segment in which no item
starts or ends are bytes the spec does not state. Log entry 66, DESIGN CHOICE. -/
def closedHeader (k : Nat) (x : Segment) (ring used : Nat) (flushed : Bool) (payload : List Byte) : List Byte :=
  sealHeader (le 8 x.seq ++ le 1 2 ++ le 1 ring ++ le 2 (x.firstOffset.getD 0xFFFF) ++ le 2 used ++
    le 2 (bitIf x.lost 0 + bitIf flushed 1) ++
    (if ring = 2 then le 8 0 else if x.firstOffset.isSome || ring == 3 then le 8 x.firstIndex.toNat else freeBytes k 8) ++
    (if x.firstOffset.isSome then le 8 x.firstTime.toNat else freeBytes (k + 1) 8) ++
    (match x.lastTime with | some t => le 8 t.toNat | none => freeBytes (k + 2) 8) ++
    le 4 (crc32c payload).toNat ++ le 4 0 ++ le 8 0 ++ le 4 0)

/-- The ring with a number, 3 being the pool. -/
def Mem.ring (m : Mem) (k : Nat) : Ring := if h : k < 3 then m.rings[k] else m.pool

/-- Change a ring or the pool. -/
def Mem.setRing (m : Mem) (k : Nat) (f : Ring → Ring) : Mem :=
  if h : k < 3 then { m with rings := m.rings.set k (f m.rings[k]) } else { m with pool := f m.pool }

/-- The accesses that write payload bytes from an offset, 64 bytes each (R305). -/
def payloadAccesses (slot ring seq now off : Nat) (b : List Byte) : List Access :=
  (List.range (b.length / 64)).map fun i =>
    { addr := slot + 64 + off + 64 * i, ring := ring, write := some (slice b (64 * i) 64), arrived := now, seq := seq }

/-! ## Items -/

/-- The segment a ring is forming, and the accesses of a new one's header: a new segment takes the next SEQ and the mark of
losses before it. -/
def Ring.ensureOpen (r : Ring) (k ring now : Nat) : Ring × Segment × List Access :=
  match r.openSeg with
  | some x => (r, x, [])
  | none =>
    let x : Segment := { seq := r.seq + 1, lost := r.lost }
    ({ r with seq := r.seq + 1, lost := false, openSeg := some x }, x,
      [{ addr := r.slot (r.seq + 1), ring := ring, write := some (openHeader k (r.seq + 1) ring), arrived := now, seq := r.seq + 1 }])

/-- Close the open segment: the bytes beyond its data, its last payload accesses and the closed header.
Log entry 65, DEDUCED. -/
def Ring.closeSeg (r : Ring) (x : Segment) (k ring now : Nat) (flushed : Bool) : Ring × List Access :=
  let used := x.payload.length
  let payload := x.payload ++ freeBytes (k + 3) (segPayload - used)
  let from_ := used / 64 * 64
  ({ r with openSeg := none },
    payloadAccesses (r.slot x.seq) ring x.seq now from_ (payload.drop from_) ++
      [{ addr := r.slot x.seq, ring := ring, write := some (closedHeader k x ring used flushed payload), arrived := now,
         seq := x.seq, last := true }])

/-- Add bytes of one item to the ring's segments (R314, R315): `starts` when they are its first, `ends` when its last. Answers
the accesses to queue. `fuel` bounds the segments. Log entry 65, DEDUCED. -/
def Ring.put (ring now : Nat) (index : Nat) (time : U64) (ends : Bool) :
    Nat → Nat → Bool → Ring → List Byte → Ring × List Access
  | 0, _, _, r, _ => (r, [])
  | fuel + 1, k, starts, r, b =>
    if b.isEmpty then (r, [])
    else
      let o := r.ensureOpen k ring now
      let x := o.2.1
      let part := b.take (segPayload - x.payload.length)
      let rest := b.drop (segPayload - x.payload.length)
      let first := starts && x.firstOffset.isNone
      let y : Segment :=
        { x with
          payload := x.payload ++ part
          items := if starts || x.payload.isEmpty then x.items + 1 else x.items
          firstOffset := if first then some x.payload.length else x.firstOffset
          firstIndex := if first then BitVec.ofNat 64 index else x.firstIndex
          firstTime := if first then time else x.firstTime
          lastTime := if ends && rest.isEmpty then some time else x.lastTime }
      if y.payload.length < segPayload then
        let old := x.payload.length / 64 * 64
        let new := y.payload.length / 64 * 64
        ({ o.1 with openSeg := some y },
          o.2.2 ++ payloadAccesses (o.1.slot y.seq) ring y.seq now old ((y.payload.drop old).take (new - old)))
      else
        -- the chunks before the first of the closing run went out when they were complete
        let old := x.payload.length / 64 * 64
        let c := o.1.closeSeg y (k + 1) ring now false
        let t := Ring.put ring now index time ends fuel (k + 8) false c.1 rest
        (t.1, o.2.2 ++ payloadAccesses (o.1.slot y.seq) ring y.seq now old (y.payload.drop old) ++ c.2 ++ t.2)

/-- Level of the writer queue, bytes: accesses that wait, and payload not yet a whole access (R306). -/
def Mem.queueLevel (m : Mem) : Nat :=
  64 * m.rt.length + (m.rings.toList.map fun r => (r.openSeg.map fun x => x.payload.length % 64).getD 0).sum

/-- Size of the writer queue: 512 KiB (Table 10.5). -/
def queueBytes : Nat := 524288

/-- Bytes of an item that reach the writer at a time: a piece of at most 64 KiB. -/
def pieceBytes : Nat := 65536

/-- Panic level of the real-time port (R306). -/
def Mem.panic (m : Mem) : Nat :=
  let l := m.queueLevel
  if l < 131072 then 0 else if l < 262144 then 1 else if l < 393216 then 2 else 3

/-- An item of ring 2 is a whole record, numbered now (R316, R329); other items are as they are. -/
def Ring.number (r : Ring) (i : RtItem) : Ring × RtItem :=
  match i.prec with
  | none => (r, i)
  | some p =>
    let q := nextSeq r.recSeq
    ({ r with recSeq := q, recSkipped := false }, { i with bytes := p.bytes q 0x82 r.recSkipped, time := p.time, prec := none })

/-- An item's number is spent without a record (R329). -/
def Ring.skipNumber (r : Ring) (i : RtItem) : Ring :=
  { r with recSkipped := true, recSeq := if i.prec.isSome then nextSeq r.recSeq else r.recSeq }

/-- Bytes an item will occupy. -/
def RtItem.size (i : RtItem) : Nat := match i.prec with | some p => p.size | none => i.bytes.length

/-- Items of a ring that lie whole outside one segment, and in segments not yet overwritten. -/
def Ring.keepItems (r : Ring) (lost : Option Nat) : List RingItem :=
  let total := r.size / 4096
  r.items.filter fun i =>
    let last := i.seq + (i.off + i.len - 1) / segPayload
    decide (r.seq < i.seq + total) && (match lost with | some q => !(decide (i.seq ≤ q) && decide (q ≤ last)) | none => true)

/-- The queue overflows (R310): the ring's forming segment is abandoned with its waiting accesses, the arriving item and every
item that would fall in what is left of it; the items are counted and recorded, at most once a second. Log entry 68, DEDUCED. -/
def State.rtOverflow (s : State) (ring : Fin 3) (i : RtItem) : State :=
  let r := s.mem.rings[ring]
  let x := r.openSeg
  -- an item already begun has been counted among the segment's items, if the segment holds bytes of it
  let n := (x.map (·.items)).getD 0 + (if i.begun && x.any (fun y => !y.payload.isEmpty) then 0 else 1)
  let room := segPayload - (x.map fun y => y.payload.length).getD 0
  let kept := r.keepItems (x.map (·.seq))
  let r := if ring = 2 then r.skipNumber i else r
  let r : Ring := { r with
    openSeg := none, lost := true, skip := room - i.size, lastAt := s.now, items := kept }
  let s := s.setMem fun m =>
    { m with
      rings := m.rings.set ring r
      rt := m.rt.filter fun a => !(a.ring == ring.val && some a.seq == x.map (·.seq))
      discards := m.discards + BitVec.ofNat 64 n }
  let quiet := match s.mem.discardLogged with | some t => decide (s.now < t + secP) | none => false
  if quiet then s
  else (s.setMem fun m => { m with discardLogged := some s.now }).record
    (s.bbxRec 0x0064 13 (memFault 5) (BitVec.ofNat 32 n) (le 4 ring.val ++ le 4 n))

/-- An item that falls in what is left of an abandoned segment is lost with it (R310). Log entry 68, DEDUCED. -/
def State.rtSkipped (s : State) (ring : Fin 3) (i : RtItem) : State :=
  s.setMem fun m =>
    { m with
      discards := m.discards + 1
      rings := upd m.rings ring fun r =>
        let r' := if ring = 2 then r.skipNumber i else r
        { r' with skip := r.skip - i.size, lastAt := s.now } }

/-- One piece of an item enters its ring (R314). -/
def State.rtPiece (s : State) (ring : Fin 3) (i : RtItem) (rest : List RtItem) : State :=
  let n := (if i.begun then (s.mem.rings[ring], i) else s.mem.rings[ring].number i)
  let r := n.1
  let i := n.2
  let piece := i.bytes.take pieceBytes
  let left := i.bytes.drop pieceBytes
  let r := { r with lastAt := s.now }
  let t := Ring.put ring.val s.now i.index i.time left.isEmpty (piece.length / segPayload + 2) s.free (!i.begun) r piece
  let pos := match r.openSeg with | some x => (x.seq, x.payload.length) | none => (r.seq + 1, 0)
  let r' := t.1
  let r' := if i.begun || ring == 2 then r'
    else
      let e : RingItem := { index := i.index, time := i.time, seq := pos.1, off := pos.2, len := i.bytes.length, rows := i.rows }
      { r' with items := e :: r'.keepItems none }
  let s := { s with free := s.free + 8 * (piece.length / segPayload + 2) }
  let s := s.setMem fun m =>
    { m with
      rings := m.rings.set ring r'
      rt := m.rt ++ t.2
      requestAt := s.now
      items := m.items.set ring (if left.isEmpty then rest else { i with bytes := left, begun := true } :: rest) }
  s.setMem fun m => { m with queuePeak := BitVec.ofNat 32 (max m.queuePeak.toNat m.queueLevel) }

/-- RT_ITEM_ARRIVAL (R310, R321): the next piece of the oldest item on its way to a ring reaches the writer: it is queued, falls
in an abandoned segment, or overflows the queue; a fenced or closed writer discards it. -/
def execRtItemArrival (dt : Nat) (ring : Fin 3) (s : State) : Host.Outcome State Fault Refusal :=
  let s := s.elapse dt
  match s.mem.items[ring] with
  | [] => .next s
  | i :: rest =>
    let s' := s.setMem fun m => { m with items := m.items.set ring rest }
    if s.isShut 13 then .next (s'.fencedFlits (flits i.size))
    else if !s.ringsOpen then .next s'
    else if !i.begun && s.mem.rings[ring].skip != 0 then .next (s'.rtSkipped ring i)
    else if s.mem.queueLevel + min i.size pieceBytes > queueBytes then .next (s'.rtOverflow ring i)
    else .next (s.rtPiece ring i rest)

/-- RING_FLUSH (R317): no item has entered the open segment for FLUSH_MS; it is closed early with FLAGS[1]. A flush never splits
an item. -/
def execRingFlush (dt : Nat) (ring : Fin 3) (s : State) : Host.Outcome State Fault Refusal :=
  let s := s.elapse dt
  let r := s.mem.rings[ring]
  let whole := match s.mem.items[ring] with | i :: _ => !i.begun | [] => true
  match r.openSeg with
  | none => .next s
  | some x =>
    if s.ringsOpen && s.memFlushMs != 0 && whole && !x.payload.isEmpty && decide (r.lastAt + s.memFlushMs * msP ≤ s.now) then
      let c := r.closeSeg x s.free ring.val s.now true
      let s := { s with free := s.free + 4 }
      let s := s.setMem fun m => { m with rings := m.rings.set ring c.1, rt := m.rt ++ c.2, requestAt := s.now }
      .next (s.setMem fun m => { m with queuePeak := BitVec.ofNat 32 (max m.queuePeak.toNat m.queueLevel) })
    else .next s

end Sys2Proof.Machine
end

