-- ==== Sys2Proof/Machine/History.lean ====
section
/-! DEFINITION. Snapshots (R259 to R261, R318, R319): decoding what a ring holds, taking a span of it, its SNAPSHOT records, and
the segments of the pool. -/

namespace Sys2Proof.Machine

/-! ## The decoder of CMP (R339, R341) -/

/-- The bits of bytes, bit 0 of the first byte first (R338). -/
def bitsOfBytes (b : List Byte) : List Bool := b.flatMap fun x => bitList 8 x.toNat

/-- An unsigned field of `n` bits at the head of a bit list. -/
def headBits (n : Nat) (l : List Bool) : Nat := bitsOf (l.take n)

/-- Fields of `k` bits, read as signed or unsigned. -/
def fieldsOf (signed : Bool) (k : Nat) : Nat → List Bool → List Int
  | 0, _ => []
  | n + 1, l => (if signed then toSigned k (headBits k l) else (headBits k l : Int)) :: fieldsOf signed k n (l.drop k)

/-- The reconstruction of accumulated phase after its first sample (R339). -/
def unchain (e : Nat) : Int → List Int → List Int
  | _, [] => []
  | v, q :: t => wrap32 (v + q * 2 ^ e) :: unchain e (wrap32 (v + q * 2 ^ e)) t

/-- The 16 samples of a fixed-ratio sub-block (R339). -/
def decodeFixedSub (product coding : Nat) (l : List Bool) : List Int :=
  let k := (fixedShape product coding).2
  let e := headBits 5 l
  if product = 1 then
    let v0 := toSigned 32 (headBits 32 (l.drop 5))
    v0 :: unchain e v0 (fieldsOf true k 15 (l.drop 37))
  else
    (fieldsOf (product == 0) k 16 (l.drop 5)).map fun q =>
      let v := q * 2 ^ e
      if product = 0 then clampInt 16 v else max 0 (min 65535 v)

/-- The 256 sub-blocks of a fixed-ratio block: the samples of each point position. -/
def decodeFixed (product coding : Nat) (bits : List Bool) : List (List Int) :=
  let n := (fixedShape product coding).1
  (List.range 256).map fun i => decodeFixedSub product coding ((bits.drop (n * i)).take n)

/-- Leading one bits, and what follows the zero after them. -/
def unary : List Bool → Nat × List Bool
  | true :: t => ((unary t).1 + 1, (unary t).2)
  | false :: t => (0, t)
  | [] => (0, [])

/-- The residual of a mapped value (R341 step 2). -/
def unzigzag (u : Nat) : Int := if u % 2 = 0 then u / 2 else -((u : Int) + 1) / 2

/-- `n` Rice-coded values with parameter `p`, and the bits after them. -/
def decodeRice (p : Nat) : Nat → List Bool → List Nat × List Bool
  | 0, l => ([], l)
  | n + 1, l =>
    let q := unary l
    let t := decodeRice p n (q.2.drop p)
    ((q.1 * 2 ^ p + headBits p q.2) :: t.1, t.2)

/-- Values from residuals, modulo the value width and read as signed or, for amplitude, unsigned. -/
def unresidual (w : Nat) (signed : Bool) : Int → List Int → List Int
  | _, [] => []
  | prev, r :: t =>
    let m := ((prev + r) % (2 ^ (8 * w) : Nat)).toNat
    let v : Int := if signed then toSigned (8 * w) m else m
    v :: unresidual w signed v t

/-- `n` lossless sub-blocks, two points each (R341). -/
def decodeLossless (product : Nat) : Nat → List Bool → List (List Int)
  | 0, _ => []
  | n + 1, l =>
    let w := prodBytes product
    let pBits := if w = 4 then 5 else 4
    let p := headBits pBits l
    let l := l.drop pBits
    if p = 2 ^ pBits - 1 then
      let vs := fieldsOf (product != 2) (8 * w) 32 l
      vs.take 16 :: vs.drop 16 :: decodeLossless product n (l.drop (32 * 8 * w))
    else
      let t := decodeRice p 32 l
      let vs := unresidual w (product != 2) 0 (t.1.map unzigzag)
      vs.take 16 :: vs.drop 16 :: decodeLossless product n t.2

/-- A decoded block: first point, points, and per sample the values and codes of the points (R337). A block without codes carries
code 0x8 (R319). -/
def decodeBlock (b : List Byte) (quality : Bool) : Nat × Nat × List (List Int × List Nat) :=
  let coding := fieldAt b 0 1
  let product := fieldAt b 1 1
  let samples := fieldAt b 4 2
  let points := fieldAt b 6 2
  let len := fieldAt b 12 4
  let bits := bitsOfBytes ((b.drop 32).take len)
  let cols := if coding = 1 then decodeLossless product 128 bits else decodeFixed product coding bits
  let codes := bitsOfBytes (b.drop (32 + len))
  (fieldAt b 8 4, points,
    (List.range samples).map fun s =>
      ((List.range points).map fun i => (cols.getD i []).getD s 0,
        (List.range points).map fun i => if quality then headBits 4 (codes.drop (4 * (256 * s + i))) else 8))

/-! ## Reading a ring -/

/-- What MEM reads as (R295): zero where nothing has been written since the zero fill. Log entry 67, DESIGN CHOICE. -/
def Mem.bytesAt (m : Mem) (addr n : Nat) : List Byte := memReadAll 0 m.cells addr n

/-- The pieces of an item in DRAM: segment, address and length of each. -/
def itemPieces (r : Ring) : Nat → Nat → Nat → Nat → List (Nat × Nat × Nat)
  | 0, _, _, _ => []
  | fuel + 1, seq, off, len =>
    if len = 0 then []
    else
      let n := min len (segPayload - off)
      (seq, r.slot seq + 64 + off, n) :: itemPieces r fuel (seq + 1) 0 (len - n)

/-- The pieces of an item of a ring. -/
def RingItem.pieces (i : RingItem) (r : Ring) : List (Nat × Nat × Nat) := itemPieces r (i.len / segPayload + 2) i.seq i.off i.len

/-- The last segment an item lies in. -/
def RingItem.lastSeq (i : RingItem) : Nat := i.seq + (i.off + i.len - 1) / segPayload

/-- The samples of an item can be copied: no segment of it carries FLAGS[0], and no poisoned word lies in it (R319). -/
def State.itemGood (s : State) (r : Ring) (poisoned : List Nat) (i : RingItem) : Bool :=
  (i.pieces r).all fun c =>
    !bitOf (fieldAt (s.mem.bytesAt (r.slot c.1 + 14) 2) 0 2) 0 &&
      poisoned.all fun a => decide (a + 8 ≤ c.2.1) || decide (c.2.1 + c.2.2 ≤ a)

/-- The bytes of an item. -/
def State.itemBytes (s : State) (r : Ring) (i : RingItem) : List Byte :=
  (i.pieces r).flatMap fun c => s.mem.bytesAt c.2.1 c.2.2

/-- Points of a port's ring. -/
def State.ringPoints (s : State) (p : Port) : Nat := takeCount (s.nPoints p) (s.histFirst p.val) (s.histCount p.val)

/-- Values of 16-bit or 32-bit fields. -/
def valuesOf (product n : Nat) (b : List Byte) : List Int :=
  let w := valueBytes product
  (List.range n).map fun i => if product = 2 then (fieldAt b (w * i) w : Int) else sfieldAt b (w * i) w

/-- The samples an item of a ring holds, over the points it covers: first point and rows (R315, R319). -/
def State.itemRows (s : State) (p : Port) (r : Ring) (i : RingItem) : Nat × List Row :=
  let b := s.itemBytes r i
  let product := s.histProduct p.val
  let quality := s.histQuality p.val == 1
  if s.histCoding p.val = 0 then
    let n := s.ringPoints p
    let codes := bitsOfBytes (b.drop (up4 (n * valueBytes product)))
    (s.histFirst p.val, i.rows.map fun x =>
      { x with
        values := valuesOf product n b
        codes := (List.range n).map fun k => if quality then headBits 4 (codes.drop (4 * k)) else 8 })
  else
    let d := decodeBlock b quality
    (d.1, (i.rows.zip d.2.2).map fun e => { e.1 with values := e.2.1, codes := e.2.2 })

/-- The part of a row that lies in a run of points; `first` is the row's first point. -/
def Row.window (x : Row) (first from_ n : Nat) : Row :=
  { x with values := (x.values.drop (from_ - first)).take n, codes := (x.codes.drop (from_ - first)).take n }

/-- Merge the rows of one sample, whose parts come in point order. -/
def mergeRows : List Row → List Row
  | [] => []
  | x :: t =>
    match mergeRows t with
    | [] => [x]
    | y :: u => if x.j = y.j then { x with values := x.values ++ y.values, codes := x.codes ++ y.codes } :: u else x :: y :: u

/-- Insert a row in order of index, after rows of the same index. -/
def insertRow (x : Row) : List Row → List Row
  | [] => [x]
  | y :: t => if x.j < y.j then x :: y :: t else y :: insertRow x t

/-- Items of a port's ring that touch the span of a request, oldest first. -/
def spanItems (q : SnapReq) (r : Ring) : List RingItem :=
  r.items.reverse.filter fun i => i.rows.any fun x => decide (q.fromJ ≤ x.j) && decide ((x.j : Int) ≤ q.toJ)

/-- The samples of a request's span that can be copied, complete over its points (R319). -/
def State.spanRows (s : State) (p : Port) (q : SnapReq) (r : Ring) (poisoned : List Nat) : List Row :=
  let parts := ((spanItems q r).filter (s.itemGood r poisoned)).flatMap fun i =>
    let e := s.itemRows p r i
    let lo := max e.1 q.first
    (e.2.filter fun x => decide (q.fromJ ≤ x.j) && decide ((x.j : Int) ≤ q.toJ)).map fun x =>
      x.window e.1 lo (q.first + q.count - lo)
  (mergeRows (parts.foldl (fun l x => insertRow x l) [])).filter fun x => x.codes.length == q.count

/-- Index of the first and of the last sample that the span should hold. -/
def State.spanEnds (s : State) (p : Port) (q : SnapReq) : Int × Int :=
  let m : Int := s.ringStep p
  ((q.fromJ + m - 1) / m * m, q.toJ / m * m)

/-- FLAGS of Table 8.3: [0] earliest samples have left the ring, [1] the last never reached it, [2] samples missing within.
Log entry 74, DEDUCED. -/
def State.snapFlags (s : State) (p : Port) (q : SnapReq) (r : Ring) (rows : List Row) : Nat :=
  let e := s.spanEnds p q
  let js : List Int := r.items.flatMap fun i => i.rows.map fun x => (x.j : Int)
  let oldest := js.foldl min (js.headD (e.2 + 1))
  let newest := js.foldl max (js.headD (e.1 - 1))
  let start := decide (e.1 < oldest)
  let stop := decide (newest < e.2)
  let a := if start then max e.1 oldest else e.1
  let b := if stop then min e.2 newest else e.2
  bitIf start 0 + bitIf stop 1 + bitIf (decide (rows.length < multiplesIn (s.ringStep p) a b)) 2

/-- Items that hold a sample of a port's ring: its frame, or the coded blocks of 256 points each (R315, R336). -/
def State.itemsPerSample (s : State) (p : Port) : Nat := if s.histCoding p.val = 0 then 1 else (s.ringPoints p + 255) / 256

/-- A request is ready (R318): its last sample lies whole in closed segments of the ring, or a later one does, or the ring has
wrapped since. Log entry 74, DEDUCED. -/
def State.snapReady (s : State) (q : SnapReq) : Bool :=
  if h : q.port < 2 then
    let p : Port := ⟨q.port, h⟩
    let r := s.mem.rings[dasRing p]
    let last := (s.spanEnds p q).2
    let from_ := r.items.filter fun i => i.rows.any fun x => decide (last ≤ x.j)
    let first := (from_.map (·.index)).foldl min ((from_.head?.map (·.index)).getD 0)
    let there := from_.filter fun i => decide (i.lastSeq ≤ r.closed)
    there.any (fun i => i.index != first) || (!there.isEmpty && decide (s.itemsPerSample p ≤ there.length)) ||
      decide (q.ringSeq + r.size / 4096 ≤ r.seq)
  else false

/-! ## SNAPSHOT records (R261) -/

/-- Groups of up to 16 samples; a gap in the samples ends a group. -/
def groupRows (step : Nat) : List Row → List Row → List (List Row)
  | cur, [] => if cur.isEmpty then [] else [cur]
  | cur, x :: t =>
    let joins := match cur.getLast? with
      | some y => decide (cur.length < 16) && decide (x.j = y.j + step)
      | none => true
    if joins then groupRows step (cur ++ [x]) t else cur :: groupRows step [x] t

/-- The DAS payloads of a snapshot's samples, cut to a record limit. -/
def State.snapPayloads (s : State) (limit : Nat) (p : Port) (q : SnapReq) (rows : List Row) : List (List Byte) :=
  let product := s.histProduct p.val
  let coarse := s.histSource p.val == 1
  (groupRows (s.ringStep p) [] rows).flatMap fun g =>
    let k := mostPoints (fun n => 24 + dasSize product true g.length n) (limit - 36) q.count
    (cutRuns k q.count 0 q.count).map fun c =>
      s.dasPayload p product coarse true (g.map fun r => r.cut product c.1 c.2) (q.first + c.1) c.2

/-- The SNAPSHOT records of a snapshot (Table 8.3). -/
def State.snapRecords (s : State) (limit : Nat) (p : Port) (q : SnapReq) (flags : Nat) (rows : List Row) : List PRec :=
  let ps := s.snapPayloads limit p q rows
  ps.zipIdx.map fun e =>
    s.newRec 0x21 q.port
      (le 4 q.id.toNat ++ le 4 q.sequence.toNat ++ le 1 q.port ++ le 1 q.detector ++ le 2 q.zone ++ le 2 e.2 ++ le 2 ps.length ++
        le 2 flags ++ le 2 0 ++ le 4 0 ++ e.1)

/-- The largest number of samples, from the first, whose records fit the segments of the request. Log entry 74, DEDUCED. -/
def State.fitRows (s : State) (p : Port) (q : SnapReq) (flags : Nat) (rows : List Row) : Nat → List Row
  | 0 => []
  | n + 1 =>
    if (((s.snapRecords ringRecordLimit p q flags (rows.take (n + 1))).map PRec.size).sum) ≤ q.segs * segPayload then
      rows.take (n + 1)
    else s.fitRows p q flags rows n

/-- Number records of the pool (R329) and give their bytes. -/
def poolBytes (seq : U32) : List PRec → U32 × List Byte
  | [] => (seq, [])
  | p :: t => let u := poolBytes (nextSeq seq) t; (u.1, p.bytes (nextSeq seq) 0x83 false ++ u.2)

/-- Positions of the first bytes of records of these sizes, from a position on. -/
def recStarts : Nat → List Nat → List Nat
  | _, [] => []
  | at0, n :: t => at0 :: recStarts (at0 + n) t

/-- The accesses that write a snapshot's bytes into pool segments from SEQ `seq` on, `done` bytes having been written; `starts` are
the positions at which its records start. The last segment, partly filled, is closed as a flush closes one. -/
def poolAccesses (m : Mem) (k : Nat) (id : U32) (time : U64) (now : Nat) (starts : List Nat) :
    Nat → Nat → Nat → List Byte → List Access
  | 0, _, _, _ => []
  | fuel + 1, seq, done, b =>
    if b.isEmpty then []
    else
      let part := b.take segPayload
      let rest := b.drop segPayload
      let first := starts.find? fun a => decide (done ≤ a) && decide (a < done + part.length)
      let ends := rest.isEmpty || starts.any fun a => decide (done < a) && decide (a ≤ done + part.length)
      let x : Segment :=
        { seq := seq, payload := part, firstOffset := first.map (· - done), firstIndex := BitVec.ofNat 64 id.toNat,
          firstTime := time, lastTime := if ends then some time else none }
      let head : Access := { addr := m.pool.slot seq, ring := 3, write := some (openHeader k seq 3), arrived := now, seq := seq }
      let full := part ++ freeBytes (k + 3) (segPayload - part.length)
      let tail : Access :=
        { addr := m.pool.slot seq, ring := 3, arrived := now, seq := seq
          write := some (closedHeader k x 3 part.length (decide (part.length < segPayload)) full) }
      head :: payloadAccesses (m.pool.slot seq) 3 seq now 0 full ++ tail ::
        poolAccesses m (k + 4) id time now starts fuel (seq + 1) (done + segPayload) rest

/-- Mark the last access. -/
def markLast : List Access → List Access
  | [] => []
  | [a] => [{ a with last := true }]
  | a :: t => a :: markLast t

/-- SNAPSHOT_COPY (R318, R319): the oldest request that is ready takes the next segments of the pool. Its span is read, decoded and
cut into records; `poisoned` are the addresses of words read with uncorrectable errors. The accesses wait at the SNAP port.
Log entry 73, DEDUCED. -/
def execSnapshotCopy (dt : Nat) (poisoned : List Nat) (s : State) : Host.Outcome State Fault Refusal :=
  let s := s.elapse dt
  match s.mem.requests.find? s.snapReady with
  | none => .next s
  | some q =>
    if h : q.port < 2 then
      if s.memServes && s.ringsOpen && s.mem.copying.isNone then
        let p : Port := ⟨q.port, h⟩
        let r := s.mem.rings[dasRing p]
        let rows := s.spanRows p q r poisoned
        let flags := s.snapFlags p q r rows
        let kept := s.fitRows p q flags rows rows.length
        let flags := if kept.length < rows.length then flags ||| 2 else flags
        let recs := s.snapRecords ringRecordLimit p q flags kept
        let out := poolBytes s.mem.pool.recSeq recs
        let segs := segsOf out.2.length
        let seg := s.mem.pool.seq + 1
        let reads : List Access := ((spanItems q r).flatMap fun i => i.pieces r).flatMap fun c =>
          (List.range ((c.2.1 + c.2.2 + 63) / 64 - c.2.1 / 64)).map fun k =>
            { addr := (c.2.1 / 64 + k) * 64, ring := (dasRing p).val, write := none, arrived := s.now, seq := c.1 }
        let writes := poolAccesses s.mem s.free q.id s.devTime s.now (recStarts 0 (recs.map PRec.size)) segs seg 0 out.2
        let total := s.mem.pool.size / 4096
        let s := if flags % 4 = 0 then s else s.setEvt fun e => { e with snapTruncated := e.snapTruncated + 1 }
        let s := { s with free := s.free + 4 * segs + 4 }
        let s := s.setMem fun m => { m with requests := m.requests.filter fun x => x.id != q.id }
        -- a span of which nothing is left takes no segment and forms no record
        if segs = 0 then .next s else
        let s := s.setMem fun m =>
          { m with
            copying := some { req := q, seg := seg, flags := flags, rows := kept }
            stored := (m.stored.filter fun x => decide (seg + segs ≤ x.seg + total)) ++ [{ id := q.id, seg := seg, segs := segs }]
            pool := { m.pool with seq := m.pool.seq + segs, recSeq := out.1 }
            snap := markLast (reads ++ writes)
            requestAt := s.now }
        .next (s.memErrors 0 poisoned)
      else .next s
    else .next s

end Sys2Proof.Machine
end

