-- ==== Sys2Proof/Machine/MemPorts.lean ====
section
/-! DEFINITION. The memory ports (R305 to R308, R311): choosing and serving accesses, patrol scrub, overdue requests, and host reads
through BAR2 (R356). -/

namespace Sys2Proof.Machine

/-! ## Urgency and choice -/

/-- Urgency of a request of an age against its deadline, both in CK_LNC periods (R307). -/
def urgency (age d : Nat) : Nat := if 2 * age < d then 0 else if 4 * age < 3 * d then 1 else if age < d then 2 else 3

/-- Deadline of a port (Table 10.5). -/
def State.portDeadline (s : State) (port : Fin 4) : Nat :=
  match port with
  | 1 => s.snapDeadline * usP
  | 2 => s.pcieDeadline * usP
  | _ => 1000 * usP

/-- When the oldest request of a port arrived, if it has one. -/
def State.oldestRequest (s : State) (port : Fin 4) : Option Nat :=
  match port with
  | 0 => s.mem.rt.head?.map (·.arrived)
  | 1 => s.mem.snap.head?.map (·.arrived)
  | 2 => s.mem.host.head?.map (·.arrived)
  | 3 => s.mem.scrub.map (·.1)

/-- The urgency of each port: panic for RT, the oldest request's for the others; none without a request (R308). -/
def State.portUrgency (s : State) (port : Fin 4) : Option Nat :=
  (s.oldestRequest port).map fun t => if port = 0 then s.mem.panic else urgency (s.now - t) (s.portDeadline port)

/-- DRAM address of the next 64 bytes of a host read. -/
def HostRead.next (h : HostRead) : Nat := (h.offset / 64 + h.served.length / 64) * 64

/-- DRAM address of a port's next access, where one waits; a host read beyond the capacity reaches no DRAM (R356). -/
def State.nextAddr (s : State) (port : Fin 4) : Option Nat :=
  match port with
  | 0 => s.mem.rt.head?.map (·.addr)
  | 1 => s.mem.snap.head?.map (·.addr)
  | 2 => (s.mem.host.head?.map (·.next)).filter fun a => decide (a < s.capacity)
  | 3 => s.mem.scrub.map fun _ => s.mem.scrubAddr

/-- The port's next access hits an open row (R308, R312). -/
def State.hits (s : State) (port : Fin 4) : Bool := (s.nextAddr port).any s.rowOpen

/-- The port to serve (R308): at panic 3 RT alone, at panic 2 RT and urgency 3; the highest urgency, an open row first, then RT,
PCIE, SNAP, SCRUB. -/
def State.choosePort (s : State) : Option (Fin 4) :=
  let panic := s.mem.panic
  let order : List (Fin 4) := [0, 2, 1, 3]
  let able := order.filterMap fun p => (s.portUrgency p).map fun u => (p, u)
  let able := if panic = 3 then able.filter fun e => e.1 == 0
    else if panic = 2 then able.filter fun e => e.1 == 0 || e.2 == 3 else able
  let best := (able.map (·.2)).foldl max 0
  let top := (able.filter fun e => e.2 == best).map (·.1)
  (top.find? s.hits) <|> top.head?

/-! ## Serving -/

/-- An access has been served at a port (MEM_PORTn_ACCESSES). -/
def State.served (s : State) (port : Fin 4) : State :=
  s.setMem fun m => { m with ports := upd m.ports port fun x => { x with accesses := x.accesses + 1 } }

/-- A port's access has touched its row; the port's queue already stands at the access after it (R312). -/
def State.accessed (s : State) (port : Fin 4) (addr : Nat) : State := s.touchRow port addr (s.nextAddr port)

/-- Write an access's data. -/
def Mem.store (m : Mem) (a : Access) : Mem :=
  match a.write with | some b => { m with cells := memWriteAll 0 m.cells a.addr b } | none => m

/-- The next access of the real-time port: with the last of a segment the segment is closed and its MSI-X vector signalled (R314,
Table 11.18). Log entry 65, DEDUCED. -/
def State.serveRt (s : State) : State :=
  match s.mem.rt with
  | [] => s
  | a :: t =>
    let s := (s.setMem fun m => { m.store a with rt := t, rtMid := !a.last && !t.isEmpty }).served 0
    let s := s.accessed 0 a.addr
    if a.last then
      let s := s.setMem fun m => m.setRing a.ring fun r => { r with closed := a.seq }
      s.msixEvent (if a.ring = 0 then 0 else if a.ring = 1 then 1 else 2)
    else s

/-- A snapshot is complete: counted, signalled, and handed to OUT for every route that carries its records (R318, R319). -/
def State.snapDone (s : State) : State :=
  match s.mem.copying with
  | none => s
  | some c =>
    let s := s.setMem fun m =>
      { m with
        copying := none
        copied := m.copied + 1
        pool := { m.pool with closed := m.pool.seq }
        stored := m.stored.map fun x => if x.id = c.req.id then { x with closedAt := some s.now } else x }
    let s := s.msixEvent 3
    if h : c.req.port < 2 then
      allRoutes.foldl (fun s r =>
        if s.routeTakes r 0x21 c.req.port then
          (s.snapRecords (s.recordLimit r) ⟨c.req.port, h⟩ c.req c.flags c.rows).foldl (fun s p => s.toRoute r p) s
        else s) s
    else s

/-- Accesses the SNAP port's queue holds (Table 10.5). -/
def snapQueue : Nat := 32

/-- The next access of the copier; the access that enters its queue in its place arrives now (Table 10.5).
Log entry 73, DEDUCED. -/
def State.serveSnap (s : State) (corrected : Nat) : State :=
  match s.mem.snap with
  | [] => s
  | a :: t =>
    let t := t.zipIdx.map fun e => if e.2 + 1 = snapQueue then { e.1 with arrived := s.now } else e.1
    let s := (s.setMem fun m => { m.store a with snap := t, snapOverdue := false, requestAt := s.now }).served 1
    let s := s.accessed 1 a.addr
    let s := if a.write.isNone then s.memErrors corrected [] else s
    if a.last then s.snapDone else s

/-- Number of 64-byte accesses of a host read. -/
def HostRead.accesses (h : HostRead) : Nat := max 1 ((h.offset + h.length + 63) / 64 - h.offset / 64)

/-- The data of a host read from the bytes of its accesses. -/
def HostRead.data (h : HostRead) : List Byte := slice h.served (h.offset % 64) h.length

/-- A host read completes: with EP set, counted and signalled where a word was uncorrectable (R356, Table 11.18). -/
def State.completeHost (s : State) (h : HostRead) : State :=
  if h.poisoned then
    ({ s.send (.completion (.poisoned h.data)) with pcie := { s.pcie with poisoned := s.pcie.poisoned + 1 } }).msixEvent 7
  else s.send (.completion (.data h.data))

/-- What 64 bytes read as: zero beyond the capacity (R356); memory that has not been filled, and words with uncorrectable errors,
read as bytes the spec does not state. Log entry 67, DESIGN CHOICE. -/
def State.hostBytes (s : State) (addr : Nat) (bad : List (Fin 8)) : List Byte :=
  if s.capacity ≤ addr then List.replicate 64 0
  else
    let b := if s.mem.st == .characterised then freeBytes s.free 64 else s.mem.bytesAt addr 64
    (List.range 8).flatMap fun w =>
      if bad.any fun k => k.val == w then freeBytes (s.free + 1 + w) 8 else slice b (8 * w) 8

/-- The next access of the oldest host read (R305, R356). Log entry 72, DEDUCED. -/
def State.serveHost (s : State) (a : AccessMeet) : State :=
  match s.mem.host with
  | [] => s
  | h :: t =>
    let addr := h.next
    let beyond := decide (s.capacity ≤ addr)
    let bad := if beyond then [] else a.bad
    let g := { h with served := h.served ++ s.hostBytes addr bad, poisoned := h.poisoned || !bad.isEmpty }
    let done := decide (g.accesses ≤ g.served.length / 64)
    let s := { s with free := s.free + 9, pcie := { s.pcie with bar2Reads := s.pcie.bar2Reads + 1 } }
    let s := (s.setMem fun m => { m with host := if done then t else g :: t, requestAt := s.now }).served 2
    let s := if beyond then s else (s.accessed 2 addr).memErrors a.corrected (bad.map fun k => addr + 8 * k.val)
    if done then s.completeHost g else s

/-- The patrol scrub's read; the address moves on (R299, R300). -/
def State.serveScrub (s : State) (a : AccessMeet) : State :=
  match s.mem.scrub with
  | none => s
  | some _ =>
    let addr := s.mem.scrubAddr
    let next := if addr + 64 < s.capacity then addr + 64 else 0
    let s := (s.setMem fun m => { m with scrub := none, scrubAddr := next }).served 3
    let s := s.accessed 3 addr
    s.memErrors a.corrected (a.bad.map fun k => addr + 8 * k.val)

/-- MEM_ACCESS_BOUNDARY (R308): postponed refreshes are issued where no segment is in progress; otherwise one access of the chosen
port is served. Log entry 69, DEDUCED. -/
def execMemAccessBoundary (dt : Nat) (a : AccessMeet) (s : State) : Host.Outcome State Fault Refusal :=
  let s := s.elapse dt
  if s.memServes then
    if s.mem.postponed != 0 && !s.mem.rtMid then .next (s.setMem Mem.refreshed)
    else
      match s.choosePort with
      | none => .next s
      | some 0 => .next s.serveRt
      | some 1 => .next (s.serveSnap a.corrected)
      | some 2 => .next (s.serveHost a)
      | some 3 => .next (s.serveScrub a)
  else .next s

/-! ## Requests -/

/-- SCRUB_REQUEST (R300): at a constant rate that reads every word once in SCRUB_HOURS; paused in self-refresh. -/
def execScrubRequest (dt : Nat) (s : State) : Host.Outcome State Fault Refusal :=
  let s := s.elapse dt
  if s.memServes && s.mem.st == .running && s.scrubHours != 0 && s.mem.scrub.isNone &&
      decide (s.scrubHours * 3600 * secP * 64 ≤ (s.now - s.mem.scrubAt) * s.capacity) then
    .next (s.setMem fun m => { m with scrub := some (s.now, false), scrubAt := s.now })
  else .next s

/-- A request of the port has reached its deadline and is not yet counted (R307). -/
def State.overdueNow (s : State) (arrived : Nat) (port : Fin 4) : Bool := decide (arrived + s.portDeadline port ≤ s.now)

/-- Mark the first host read that is overdue and not counted. -/
def State.markHost (s : State) : List HostRead → Option (List HostRead)
  | [] => none
  | h :: t =>
    if !h.overdue && s.overdueNow h.arrived 2 then some ({ h with overdue := true } :: t)
    else (s.markHost t).map (h :: ·)

/-- REQUEST_OVERDUE (R307): a request of ports 1 to 3 that reaches its deadline is counted once. -/
def execRequestOverdue (dt : Nat) (port : Fin 4) (s : State) : Host.Outcome State Fault Refusal :=
  let s := s.elapse dt
  let marked : Option State :=
    match port with
    | 0 => none
    | 1 =>
      match s.mem.snap with
      | a :: _ =>
        if !s.mem.snapOverdue && s.overdueNow a.arrived 1 then some (s.setMem fun m => { m with snapOverdue := true }) else none
      | [] => none
    | 2 => (s.markHost s.mem.host).map fun l => s.setMem fun m => { m with host := l }
    | 3 =>
      match s.mem.scrub with
      | some (t, false) => if s.overdueNow t 3 then some (s.setMem fun m => { m with scrub := some (t, true) }) else none
      | _ => none
  match marked with
  | none => .next s
  | some s => .next (s.setMem fun m => { m with ports := upd m.ports port fun x => { x with overdue := x.overdue + 1 } })

/-- Size of the BAR2 window (Table 11.19): 2^BAR2_LOG2, or the smallest power of two from 2³³ that covers the capacity.
Log entry 72, DEDUCED. -/
def State.bar2Bytes (s : State) : Nat :=
  if s.bar2Log2 != 0 then 2 ^ s.bar2Log2
  else if s.capacity ≤ 2 ^ 33 then 2 ^ 33
  else if s.capacity ≤ 2 ^ 34 then 2 ^ 34
  else if s.capacity ≤ 2 ^ 35 then 2 ^ 35
  else 2 ^ 36

/-- BAR2_READ (R321, R356, R357): refused while FD13 or FD14 is fenced or in D3hot; zero beyond the capacity; otherwise it waits at
the PCIE port. An absent function answers nothing. Log entry 72, DEDUCED. -/
def execBar2Read (dt : Nat) (offset length : Nat) (s : State) : Host.Outcome State Fault Refusal :=
  let s := s.elapse dt
  if !(s.pciePresent && s.pcie.link == .up) then .next s
  else if !inWindow s.bar2Bytes offset length then .fault .outsideWindow
  else if !s.pcieServes || s.isShut 13 then .next s.completeUr
  else if s.mem.host.isEmpty && decide (s.capacity ≤ offset) then .next (s.send (.completion (.data (List.replicate length 0))))
  else .next (s.setMem fun m => { m with host := m.host ++ [{ offset := offset, length := length, arrived := s.now }], requestAt := s.now })

/-- BAR2_WRITE (R356, R357): completes without effect and is counted; nothing reaches DRAM. -/
def execBar2Write (dt : Nat) (offset : Nat) (s : State) : Host.Outcome State Fault Refusal :=
  let s := s.elapse dt
  if !(s.pciePresent && s.pcie.link == .up) then .next s
  else if !inWindow s.bar2Bytes offset 1 then .fault .outsideWindow
  else if s.pcieServes then .next s.discardWrite
  else .next s.postedUr

end Sys2Proof.Machine
end

