-- ==== Sys2Proof/Machine/Panel.lean ====
section
/-! DEFINITION. The operator panel (R436 to R442): keys, frame buffers, currents, colour feedback, open-LED diagnosis. -/

namespace Sys2Proof.Machine

/-- The panel works: released and not fenced (R436, Table 13.4). -/
def State.panelOn (s : State) : Bool := s.live && s.pnl.running && s.tim.a.controlled && !s.isShut 17

/-! ## Keys -/

/-- Change a key. -/
def State.setKey (s : State) (k : Fin 8) (f : KeySt → KeySt) : State :=
  { s with pnl := { s.pnl with keys := upd s.pnl.keys k f } }

/-- A key may be found changed: DEBOUNCE samples of 1 ms, and a further time, have passed since it last was (R436). -/
def State.keySettled (s : State) (k : Fin 8) (moreMs : Nat) : Bool :=
  decide (s.pnl.keys[k].changedAt + (s.debounceMs + moreMs) * msP ≤ s.now)

/-- A key of a function is pressed now: the panel works, the key has that function and was up. -/
def State.keyPress (s : State) (k : Fin 8) (func : Nat) : Bool :=
  s.panelOn && s.keyFunc k == func && !s.pnl.keys[k].pressed && s.keySettled k 0

/-- The press is counted and acts. -/
def State.pressed (s : State) (k : Fin 8) : State :=
  s.setKey k fun x => { x with pressed := true, acted := true, presses := x.presses + 1, changedAt := s.now }

/-- A key action without effect (PNL_KEY_IGNORED). -/
def State.keyIgnored (s : State) : State := { s with pnl := { s.pnl with keyIgnored := s.pnl.keyIgnored + 1 } }

/-- KEY_ACKNOWLEDGE (Table 14.4 code 1, R251): latched outputs named by ARG that are not demanded are released.
Log entry 96, DEDUCED. -/
def execKeyAcknowledge (dt : Nat) (k : Fin 8) (s : State) : Host.Outcome State Fault Refusal :=
  let s := s.elapse dt
  if s.keyPress k 1 then
    let mask := if s.keyArg k = 0 then 15 else s.keyArg k
    let t := (s.pressed k).acknowledge mask
    .next (if t.alarms = s.alarms then t.keyIgnored else t)
  else .next s

/-- KEY_MANUAL_RESTART (Table 14.4 code 2, R434): held for RESTART_HOLD, it makes a port in SHUTDOWN probe; in any other
state, or for a port not in use (R448), it is ignored and counted. Log entry 96, DEDUCED. -/
def execKeyManualRestart (dt : Nat) (k : Fin 8) (s : State) : Host.Outcome State Fault Refusal :=
  let s := s.elapse dt
  if s.panelOn && s.keyFunc k == 2 && !s.pnl.keys[k].acted && s.keySettled k s.restartHold then
    let s := s.pressed k
    let p : Port := if s.keyArg k = 1 then 1 else 0
    if s.inUse p && s.als[p].st == .shutdown then .next (s.enterProbe p) else .next s.keyIgnored
  else .next s

/-- KEY_LAMP_TEST (Table 14.4 code 3): the lamp test starts. -/
def execKeyLampTest (dt : Nat) (k : Fin 8) (s : State) : Host.Outcome State Fault Refusal :=
  let s := s.elapse dt
  if s.keyPress k 3 then
    let s := s.pressed k
    .next { s with pnl := { s.pnl with lampTest := some (k, s.now) } }
  else .next s

/-- The lamp test ends; a measurement that it paused goes on (Table 14.4). Log entry 96, DEDUCED. -/
def State.lampEnd (s : State) : State :=
  let paused := match s.pnl.lampTest with | some (_, t) => s.now - t | none => 0
  { s with pnl := { s.pnl with
    lampTest := none, colourAt := if s.pnl.colourPhase.isSome then s.pnl.colourAt + paused else s.pnl.colourAt } }

/-- LAMP_TEST_TIMEOUT (Table 14.4): a lamp test ends after 10 s. -/
def execLampTestTimeout (dt : Nat) (s : State) : Host.Outcome State Fault Refusal :=
  let s := s.elapse dt
  match s.pnl.lampTest with
  | some (_, t) => if t + 10 * secP ≤ s.now then .next s.lampEnd else .next s
  | none => .next s

/-- KEY_BRIGHTNESS (Table 14.4 code 4): the scale steps 100 %, 50 %, 25 %, 12.5 %, then 100 % again. -/
def execKeyBrightness (dt : Nat) (k : Fin 8) (s : State) : Host.Outcome State Fault Refusal :=
  let s := s.elapse dt
  if s.keyPress k 4 then
    let s := s.pressed k
    .next { s with pnl := { s.pnl with brightness := (s.pnl.brightness + 1) % 4 } }
  else .next s

/-- KEY_RELEASE (R436): the key is up again; its lamp test or hold ends. The level at the land is followed whether or not the panel
works, so that a key held at its first sample acts once it has been released. -/
def execKeyRelease (dt : Nat) (k : Fin 8) (s : State) : Host.Outcome State Fault Refusal :=
  let s := s.elapse dt
  if s.keySettled k 0 then
    let s := s.setKey k fun x => { x with pressed := false, acted := false, changedAt := s.now }
    match s.pnl.lampTest with
    | some (k', _) => if k' = k then .next s.lampEnd else .next s
    | none => .next s
  else .next s

/-! ## Frame memory -/

/-- A pixel's source is ON (Table 14.5). -/
def State.pixelOn (s : State) (e : List Byte) : Bool :=
  let arg := fieldAt e 1 1
  let p : Port := if arg = 1 then 1 else 0
  match fieldAt e 0 1 with
  | 1 => true
  | 2 => s.zonesOn p (fieldAt e 4 2) (fieldAt e 6 2)
  | 3 => if h : arg < 4 then s.alarms[(⟨arg, h⟩ : Fin 4)].asserted else false
  | 4 => (s.als[p].st == .sensing || s.als[p].st == .disabled) && s.emits p
  | 5 => s.als[p].st == .shutdown || s.als[p].st == .held || s.als[p].st == .suspended
  | 6 => s.breakStands p
  | 7 => s.healthAsserted
  | 8 => s.opt.laser == .ready
  | 9 => s.permits.asserted[(if arg = 1 then 2 else 1 : Fin 3)]
  | 10 => s.permits.asserted[(0 : Fin 3)]
  | _ => false

/-- The blink shows the ON state at extended device time `t` (R438). -/
def blinkOn (blink t : Nat) : Bool :=
  match blink with
  | 1 => t / (500 * 256000000) % 2 == 0
  | 2 => t / (125 * 256000000) % 2 == 0
  | _ => true

/-- One pixel of a composition: red, green, blue (Tables 14.5 and 14.10). Log entry 96, DEDUCED. -/
def State.pixelValue (s : State) (k : Nat) : List Byte :=
  let e := s.pixelEntry k
  let colours := fieldAt e 2 1
  let on := s.pixelOn e && blinkOn (fieldAt e 3 1) (s.extTime % 2 ^ 96)
  if s.pnl.lampTest.isSome then [255, 255, 255]
  else if fieldAt e 0 1 = 0 then [0, 0, 0]
  else (List.range 3).map fun c => BitVec.ofNat 8 (s.palette (if on then colours / 16 else colours % 16) c)

/-- PANEL_COMPOSE (R438): every 10 ms the back buffer is formed from the pixel sources. -/
def execPanelCompose (dt : Nat) (s : State) : Host.Outcome State Fault Refusal :=
  let s := s.elapse dt
  if s.panelOn && decide (s.pnl.composedAt + 10 * msP ≤ s.now) then
    .next { s with pnl := { s.pnl with back := (List.range 128).flatMap s.pixelValue, composed := true, composedAt := s.now } }
  else .next s

/-- A frame of the scan: eight row slots of 4,200 ticks of 20 ns, 672 µs (R437). -/
def frameP : Nat := 672 * usP

/-- Frames that have begun since the scan started, the first not counted (R437). -/
def State.frameIndex (s : State) (t : Nat) : Nat := (t - s.pnl.scanFrom) / frameP

/-- PANEL_BUFFER_SWAP (R438): at the first frame start after a composition the buffers swap. -/
def execPanelBufferSwap (dt : Nat) (s : State) : Host.Outcome State Fault Refusal :=
  let s := s.elapse dt
  if s.panelOn && s.pnl.composed && decide (s.frameIndex s.pnl.composedAt < s.frameIndex s.now) then
    .next { s with pnl := { s.pnl with
      front := s.pnl.back, back := s.pnl.front, composed := false, swapped := true, swaps := s.pnl.swaps + 1 } }
  else .next s

/-- Entry `v` of the default gamma curve: 4,095 · (v / 255)^2.2, rounded (R439). -/
def defaultGamma (v : Nat) : Nat :=
  let ok := fun x => decide ((2 * x - 1) ^ 5 * 255 ^ 11 ≤ 32 * 4095 ^ 5 * v ^ 11)
  (List.range 12).foldl (fun x k => let y := x + 2 ^ (11 - k); if ok y then y else x) 0

/-- The LED belongs to the reference pixel, which shows the phase of a measurement (R441). -/
def State.inPhase (s : State) (led : Fin 384) : Bool :=
  s.pnl.colourPhase.isSome && s.pnl.lampTest.isNone && led.val / 3 == s.sensePixel

/-- The on-time of an LED in ticks of 20 ns (R439, R441, R442): a failed LED is not driven, the reference pixel shows the
colour phase. -/
def State.ledTicks (s : State) (led : Fin 384) : Nat :=
  let c := led.val % 3
  if !s.panelOn || !s.pnl.swapped || s.pnl.leds[led].state == 2 then 0
  else if s.inPhase led then
    (if s.pnl.colourPhase == some (c + 1) then 4095 else 0)
  else
    let v := (s.pnl.front.getD led.val 0).toNat
    match s.gammaRec c with
    | some g => fieldAt g (4 + 2 * v) 2
    | none => defaultGamma v

/-- The current of an LED's sink in 0.1 mA (R440); the reference pixel shows a phase at scale 100 % (R441). -/
def State.sinkCurrent (s : State) (led : Fin 384) : Nat :=
  let c : Fin 3 := Fin.ofNat 3 led.val
  let scale := if s.inPhase led then 0 else s.pnl.brightness
  min 200 (roundDiv (s.ledCurrent c.val * s.pnl.trims[c] : Nat) (1024 * 2 ^ scale)).toNat

/-! ## Open-LED diagnosis -/

/-- LED_DIAG_PULSE (R442): an LED is diagnosed, in its own on-time of 16 ticks or more, or by a pulse once DIAG_INTERVAL has
passed since its last diagnosis; open three times running it has failed. Log entry 98, DEDUCED. -/
def execLedDiagPulse (dt : Nat) (led : Fin 384) (isOpen : Bool) (s : State) : Host.Outcome State Fault Refusal :=
  let s := s.elapse dt
  let x := s.pnl.leds[led]
  let due := decide (s.ledTicks led ≥ 16) ||
    (s.diagInterval != 0 && decide (x.diagAt + s.diagInterval * (secP / 4) ≤ s.now))
  if s.panelOn && x.state != 2 && due && decide (s.sinkCurrent led ≥ 5) then
    let n := if isOpen then x.opens + 1 else 0
    let st := if n ≥ 3 then 2 else if isOpen then x.state else 1
    .next { s with pnl := { s.pnl with leds := s.pnl.leds.set led { state := st, opens := n, diagAt := s.now } } }
  else .next s

/-- LED_DIAG_EXPIRY (R442): an LED diagnosed good and not diagnosed for 16 s reverts to not diagnosed. -/
def execLedDiagExpiry (dt : Nat) (led : Fin 384) (s : State) : Host.Outcome State Fault Refusal :=
  let s := s.elapse dt
  let x := s.pnl.leds[led]
  if s.panelOn && x.state == 1 && decide (x.diagAt + 16 * secP ≤ s.now) then
    .next { s with pnl := { s.pnl with leds := s.pnl.leds.set led { x with state := 0 } } }
  else .next s

/-! ## Colour feedback -/

/-- The colour sensor views the reference pixel (R441). -/
def State.sensorViews (s : State) : Bool := s.sensorAddr != 0 && decide (s.sensePixel < 128)

/-- Measurements are made (R441). -/
def State.colourOn (s : State) : Bool := s.panelOn && s.sensorViews && s.colourPeriod != 0

/-- The panel I²C master writes the set-up pairs to the sensor in order (R441). -/
def State.sensorSetup (s : State) : State :=
  if s.sensorViews then
    (List.range s.setupCount).foldl (fun s k => s.send (.sensorWrite s.sensorAddr (s.setupPair k).1 (s.setupPair k).2)) s
  else s

/-- COLOUR_MEASUREMENT (R441): every COLOUR_PERIOD a measurement starts with its dark phase; a lamp test pauses it. -/
def execColourMeasurement (dt : Nat) (s : State) : Host.Outcome State Fault Refusal :=
  let s := s.elapse dt
  if s.colourOn && s.pnl.colourPhase.isNone && s.pnl.lampTest.isNone &&
      decide (s.pnl.colourAt + s.colourPeriod * secP ≤ s.now) then
    .next { s with pnl := { s.pnl with colourPhase := some 0, colourCounts := [], colourFault := false, colourAt := s.now } }
  else .next s

/-- A trim after a measurement (R441): its ratio held between 63/64 and 65/64, the result between 768 and 1,280. -/
def newTrim (t target diff : Nat) : Nat :=
  let r := if target * 64 < 63 * diff then roundDiv (t * 63 : Nat) 64
    else if target * 64 > 65 * diff then roundDiv (t * 65 : Nat) 64
    else roundDiv (t * target : Nat) diff
  max 768 (min 1280 r.toNat)

/-- The last phase has ended: the trims are updated, or held when the sensor failed (R441). -/
def State.colourEnd (s : State) (m : List Nat) (failed : Bool) : State :=
  let m0 := m.getD 0 0
  let last := Vector.ofFn fun (i : Fin 4) => m.getD i.val 0
  let s := { s with pnl := { s.pnl with colourPhase := none, colourCounts := [] } }
  if failed || (List.range 3).any (fun c => m.getD (c + 1) 0 ≤ m0) then
    { s with pnl := { s.pnl with sensorFault := true, colourLast := last, colourTime := s.devTime } }
  else
    let diff := fun (c : Fin 3) => m.getD (c.val + 1) 0 - m0
    let cap := Vector.ofFn fun (c : Fin 3) => some (s.pnl.captured[c].getD (diff c : Int))
    let target := fun (c : Fin 3) => if s.colourTarget c.val = 0 then (cap[c].getD 0).toNat else s.colourTarget c.val
    let trims := Vector.ofFn fun (c : Fin 3) => newTrim s.pnl.trims[c] (target c) (diff c)
    { s with pnl := { s.pnl with
      captured := cap, trims := trims, colourLast := last, colourTime := s.devTime
      trimLimit := s.pnl.trimLimit || trims.toList.any fun t => t == 768 || t == 1280 } }

/-- COLOUR_PHASE_END (R441): the sensor's three counts are read, or it does not acknowledge; the count of the phase's own
colour is kept. Which of the three counts the dark phase keeps is left open (free value). Log entry 97, DESIGN CHOICE. -/
def execColourPhaseEnd (dt : Nat) (counts : Option (Nat × Nat × Nat)) (s : State) : Host.Outcome State Fault Refusal :=
  let s := s.elapse dt
  match s.pnl.colourPhase with
  | none => .next s
  | some k =>
    if s.panelOn && s.pnl.lampTest.isNone && decide (s.pnl.colourAt + (k + 1) * s.senseTime * msP ≤ s.now) then
      let kept := match counts with
        | none => 0
        | some (r, g, b) =>
          match k with
          | 0 => Config.darkCount r g b
          | 1 => r
          | 2 => g
          | _ => b
      let m := s.pnl.colourCounts ++ [kept]
      let s := s.send (.sensorRead s.sensorAddr s.sensorDataReg)
      let failed := s.pnl.colourFault || counts.isNone
      if k ≥ 3 then .next (s.colourEnd m failed)
      else .next { s with pnl := { s.pnl with colourPhase := some (k + 1), colourCounts := m, colourFault := failed } }
    else .next s

end Sys2Proof.Machine
end

