-- ==== Sys2Proof/Machine/Phase.lean ====
section
/-! DEFINITION. The phase engine (R165 to R182): compression, gauge phase, quality, common mode, accumulation. -/

namespace Sys2Proof.Machine

/-! ## Points -/

/-- A compressed point: X real and imaginary, Y real and imaginary. -/
structure Point where
  xr : Int
  xi : Int
  yr : Int
  yi : Int
deriving DecidableEq, Repr

/-- |X|² + |Y|². -/
def Point.power (a : Point) : Nat := (a.xr * a.xr + a.xi * a.xi + a.yr * a.yr + a.yi * a.yi).toNat

/-- The gauge vector X(b) · conj X(a) + Y(b) · conj Y(a) (R172). -/
def gaugeVector (a b : Point) : Int × Int :=
  (b.xr * a.xr + b.xi * a.xi + b.yr * a.yr + b.yi * a.yi, b.xi * a.xr - b.xr * a.xi + b.yi * a.yr - b.yr * a.yi)

/-- A complex number. -/
abbrev Cx := Rat × Rat
def Cx.add (a b : Cx) : Cx := (a.1 + b.1, a.2 + b.2)
def Cx.scale (k : Rat) (a : Cx) : Cx := (k * a.1, k * a.2)
/-- a · exp(−2πj · turns). -/
def Cx.turnBack (a : Cx) (turns : Rat) : Cx :=
  let f := turns - (turns.floor : Rat)
  let e := cosSinF (2 * piF * f.num / f.den)
  (a.1 * ofF e.1 + a.2 * ofF e.2, a.2 * ofF e.1 - a.1 * ofF e.2)

/-- A value rounded to nearest; which way a half goes is not stated (log entry 112). -/
def pickNearest (site : Nat) (v : Rat) : Int := if (2 * v).den = 1 then pickRound site v else ratRound v

/-! ### Separation (R166 to R168) -/

/-- SAMPLE0_OFFSET to the nearest 1/64 of a CK_SMP period (R166). -/
def offset64 (off : Nat) : Int := pickNearest 2 ((off : Rat) / 20)

/-- A record of one polarisation, I + jQ, shifted by minus the pleat's centre (in 0.25 MHz): instant i lies at delay i · 5 ns +
SAMPLE0_OFFSET. -/
def shiftedRecord (centre : Int) (off : Nat) (i q : List Int) : List Cx :=
  (i.zip q).zipIdx.map fun e =>
    Cx.turnBack ((e.1.1 : Rat), (e.1.2 : Rat)) ((centre * (e.2 * 1280 + off : Nat) : Int) / 1024000)

/-- The separated record at a delay in 1/64 of a CK_SMP period: 289 taps for the delay's phase, about the instant at or before it;
instants outside the record are zero. -/
def separated (width : Nat) (x : List Cx) (off : Nat) (delay : Int) : Cx :=
  let at_ := delay - offset64 off
  (List.range 289).foldl (fun (a : Cx) (t : Nat) =>
    let i := at_ / 64 + 144 - (t : Int)
    if i < 0 then a else Cx.add a (Cx.scale (Config.separationTap width (at_ % 64).toNat t) (x.getD i.toNat (0, 0)))) (0, 0)

/-! ### Compression (R169 to R171) -/

/-- Weight of a taper at point `m` of `n` (Table 6.3). -/
def taperWeight (taper n m : Nat) : Rat := if taper = 0 then 1 else Config.taperWeight taper n m

/-- Peak of a unit return under a taper: reduced by the loss of Table 6.3, 0.1 dB at most for TAPER 1 and 0.9 dB for TAPER 2 (R171). -/
def taperPeak (taper : Nat) : Rat :=
  let most : Rat := if taper = 0 then 0 else if taper = 1 then 1 / 10 else 9 / 10
  let loss := max 0 (min most (Config.taperLoss taper))
  expRat (-(toF (loss / 20) * lnF 10 / unitF))

/-- Turns of the configured chirp, at baseband, `m` grid steps of P · 5 ns after its start (R78). -/
def chirpTurns (pulse : Pulse) (pleats m : Nat) : Rat :=
  let t : Int := 4 * pleats * m
  ((pulse.sweep * (t * t - t * pulse.duration) : Int) : Rat) / (6400 * pulse.duration : Nat)

/-- A compressed value: the correlation with the chirp over the receive window, or the separated sample at the middle of the window of
a rectangular pulse. Log entry 118, DEDUCED. -/
def compressed (pulse : Pulse) (width pleats taper : Nat) (x : List Cx) (off n : Nat) : Cx :=
  if pulse.sweep = 0 then separated width x off (64 * (n * pleats) + 8 * pulse.duration : Nat)
  else
    let count := (pulse.duration + 4 * pleats - 1) / (4 * pleats)
    let w := (List.range count).map (taperWeight taper count)
    let sum := w.zipIdx.foldl (fun (a : Cx) e =>
      Cx.add a (Cx.scale e.1 (Cx.turnBack (separated width x off (64 * ((n + e.2) * pleats) : Nat)) (chirpTurns pulse pleats e.2)))) (0, 0)
    Cx.scale (taperPeak taper / w.sum) sum

/-- The points of a record of pleat `k`, in 1/8 ADC LSB. -/
def State.compressRecord (s : State) (p : Port) (k off : Nat) (lanes : List (List Int)) : List Point :=
  let pulse := s.vibPulse p k
  let lane := fun (l : Nat) => lanes.getD l []
  let x := shiftedRecord pulse.centre off (lane 0) (lane 1)
  let y := shiftedRecord pulse.centre off (lane 2) (lane 3)
  let one := fun (v : List Cx) (n : Nat) => compressed pulse (s.band p k).2 (s.pleats p) (s.taper p) v off n
  (List.range (s.nPoints p)).map fun n =>
    ⟨pickRound 3 (one x n).1, pickRound 3 (one x n).2, pickRound 3 (one y n).1, pickRound 3 (one y n).2⟩

/-- PHSn_NOISE_FLOOR: σ² in 1/64 of (1/8 ADC LSB)² (R171). -/
def State.noiseFloor (s : State) (p : Port) : Nat :=
  let pulse := s.vibPulse p 0
  Config.pointNoise p (s.rxGain p) pulse.sweep pulse.duration (s.pleatBands p) (s.taper p)

/-- The root of a power, in 1/8 ADC LSB; which way a root that is no whole number rounds is not stated (free value). -/
def rootOf (v : Nat) : Nat :=
  let w := isqrt v
  if w * w = v then w else if Config.rootUp v then w + 1 else w

/-! ## Quality -/

/-- S is at least `q` quarters of a dB, from the square of the ratio's numerator: |z|² and σ² of R178. -/
def snrAtLeast (nf q z2 : Nat) : Bool := decide (nf ^ 40 * 10 ^ q ≤ (4096 * z2) ^ 20)

/-- A graded code (R178): 0x8 and the number of 3 dB steps above FADE_LEVEL, at most 7. -/
def gradeCode (nf fade z2 : Nat) : Nat :=
  8 + ((List.range 7).filter fun g => snrAtLeast nf (fade + 12 * (g + 1)) z2).length

/-- A point lies in a partial zone (R178). -/
def State.partialPoint (s : State) (p : Port) (n : Nat) : Bool :=
  let d := s.pulse125 p
  let at_ := n * s.pleats p * 4
  decide (at_ ≤ d) || decide (at_ < 576) || decide (at_ + d + 576 > 4 * s.nSamples p)

/-- A point is tainted by clipped instants (R179). -/
def State.tainted (s : State) (p : Port) (off : Nat) (clips : List Nat) (n : Nat) : Bool :=
  let at_ := n * s.pleats p * 1280
  clips.any fun i => decide (at_ ≤ i * 1280 + off + 25600) && decide (i * 1280 + off ≤ at_ + s.pulse125 p * 320)

/-- What a record's points give the gauges. -/
structure PointView where
  pts : List Point
  tainted : List Bool
  dark : List Bool
  partial_ : List Bool
deriving DecidableEq, Repr

/-- A gauge value before common mode: its code, phase, |z|² and raw increment. -/
structure GaugeView where
  code : Nat := 0
  ph : Int := 0
  z2 : Nat := 0
  r : Int := 0
deriving DecidableEq, Repr

/-- Wrap to (−π, +π] (R174). -/
def wrapPhase (v : Int) : Int := let w := v % 32768; if w > 16384 then w - 32768 else w

/-- An alignment term in LSB; its rounding is not stated (log entry 112). -/
def alignLsb (o : Option Int) : Int := pickRound 4 ((o.getD 0 : Rat) / 2 ^ 32)

/-- Wrap of a phase in 2⁻³² LSB. -/
def wrapFine (v : Int) : Int := let w := v % 2 ^ 47; if w > 2 ^ 46 then w - 2 ^ 47 else w

/-- The step of R175, in 2⁻³² LSB. -/
def alignStep (o rho1 rho2 : Int) (P tau : Nat) : Int :=
  wrapFine (o + pickRound 5 ((wrapFine (rho1 * 2 ^ 32 - rho2 * 2 ^ 32 / P - o) : Rat) / tau))

/-- arg of a complex number in LSB of π/16,384 rad, exact to ±1 LSB (R172); of zero it is not stated. Log entry 43, DESIGN CHOICE. -/
def argLsb (re im : Int) : Int :=
  let exact : Rat := ((argF re im * 16384 : Int) : Rat) / piF
  let near := ratRound exact
  let pick := near + Config.phaseError re im
  if (re = 0 ∧ im = 0) ∨ (exact - 1 ≤ pick ∧ (pick : Rat) ≤ exact + 1) then pick else near

/-- arg Σ exp(j · r) in LSB (R176); its rounding is not stated (log entry 112). -/
def sumPhase (rs : List Int) : Int :=
  let v := rs.foldl (fun (a : Int × Int) r => let e := cosSinF (piF * r / 16384); (a.1 + e.1, a.2 + e.2)) (0, 0)
  if v = (0, 0) then Config.phaseError 0 0 else pickRound 6 (((argF v.1 v.2 * 16384 : Int) : Rat) / piF)

/-- The running mean of a point's power after one more shot: time constant 64 shots (R178), in 2⁻¹⁶. Log entry 119, DEDUCED. -/
def darkMean (m p : Nat) : Nat := (pickRound 7 ((m : Rat) + ((p : Rat) - m) / 64)).toNat

/-- The gauge value at `n` (R172 to R174, R178, R179). A value whose predecessor has no S takes its own for S_min. Log entry 120, DESIGN CHOICE. -/
def State.gaugeView (s : State) (p : Port) (k : Nat) (v : PointView) (n : Nat) : GaugeView :=
  if s.gaugeNone p n then {}
  else
    let x := s.phs[p]
    let a := n - s.gauge p / 2
    let b := a + s.gauge p
    let zero : Point := ⟨0, 0, 0, 0⟩
    let z := gaugeVector (v.pts.getD a zero) (v.pts.getD b zero)
    let z2 := (z.1 * z.1 + z.2 * z.2).toNat
    let zmin := match (x.last.getD n none) with
      | some l => min l z2
      | none => z2
    let nf := s.noiseFloor p
    let fade := s.fadeLevel p
    let ph := wrapPhase (argLsb z.1 z.2)
    let pred := (k + max 1 (s.pleats p) - 1) % max 1 (s.pleats p)
    let phPred := ((x.pleats.toList[pred]?).map fun q => q.ph.getD n 0).getD 0
    let o := ((x.pleats.toList[k]?).map fun q => q.align.getD n none).getD none
    let code :=
      if ((v.tainted.drop a).take (s.gauge p + 1)).any id then 1
      else if v.dark.getD a false || v.dark.getD b false then 2
      else if fade != 0 && !snrAtLeast nf fade zmin then 3
      else if v.partial_.getD a false || v.partial_.getD b false then 6
      else gradeCode nf fade zmin
    { code := code, ph := ph, z2 := z2, r := wrapPhase (ph - phPred - (if s.pleats p ≤ 1 then 0 else alignLsb o)) }

/-- PARTIAL or graded. -/
def usable (code : Nat) : Bool := code == 6 || decide (8 ≤ code)

/-- The common-mode term of a record, and whether it was skipped (R176). -/
def State.commonMode (s : State) (p : Port) (gs : List GaugeView) : Int × Bool :=
  if s.cmrCount p = 0 then (0, false)
  else
    let q := ((gs.drop (s.cmrFirst p)).take (s.cmrCount p)).filter fun g => usable g.code
    if 2 * q.length < s.cmrCount p ∨ q.length < 32 then (0, true)
    else (wrapPhase (sumPhase (q.map (·.r))), false)

/-! ## Accumulation -/

/-- One gauge value as the record leaves it. -/
structure GaugeOut where
  code : Nat
  d : Int
  acc : Int
  pend : Bool
  ph : Int
  align : Option Int
deriving DecidableEq, Repr

/-- The alignment of a gauge value (R175). -/
def State.alignGauge (s : State) (p : Port) (k n : Nat) (ph : Int) (code : Nat) (old : Option Int) : Option Int :=
  let x := s.phs[p]
  let P := s.pleats p
  if P < 2 then none
  else
    let pred := (k + P - 1) % P
    let codeOf := fun (i : Nat) => ((x.pleats.toList[i]?).map fun q => q.codes.getD n 0).getD 0
    let phOf := fun (i : Nat) => ((x.pleats.toList[i]?).map fun q => q.ph.getD n 0).getD 0
    if usable code && usable (codeOf pred) && usable (codeOf k) then
      let rho1 := wrapPhase (ph - phOf pred)
      match old with
      | none => some (rho1 * 2 ^ 32)
      | some o => some (alignStep o rho1 (wrapPhase (ph - phOf k)) P (s.alignTau p))
    else old

/-- The pseudocode of R181 for one gauge value. -/
def State.gaugeOut (s : State) (p : Port) (k : Nat) (whole : Bool) (cm : Int) (g : GaugeView) (n : Nat) : GaugeOut :=
  let x := s.phs[p]
  let st := (x.pleats.toList[k]?).getD {}
  let acc := x.acc.getD n 0
  let pend := x.pend.getD n false
  let old := st.align.getD n none
  if g.code = 0 then ⟨0, 0, acc, pend, st.ph.getD n 0, old⟩
  else
    let o : Nat × Int × Int × Bool :=
      if g.code = 1 ∨ g.code = 2 then (g.code, 0, acc, true)
      else if whole || pend then
        (if g.code = 3 then (3, 0, acc, true) else (5, 0, acc, false))
      else
        let d := wrapPhase (g.r - cm)
        let code := if g.code ≠ 3 ∧ d.natAbs > s.wrapGuard p then 4 else g.code
        if code = 3 ∨ code = 4 then (code, d, acc, true) else (code, d, wrap48 (acc + d), false)
    { code := o.1, d := o.2.1, acc := o.2.2.1, pend := o.2.2.2
      ph := if g.code = 1 ∨ g.code = 2 then st.ph.getD n 0 else g.ph
      align := s.alignGauge p k n g.ph o.1 old }

/-- The code of an amplitude value (R189). -/
def State.ampCode (s : State) (p : Port) (v : PointView) (n : Nat) (power : Nat) : Nat :=
  if v.tainted.getD n false then 1
  else if v.dark.getD n false then 2
  else if v.partial_.getD n false then 6
  else gradeCode (s.noiseFloor p) (s.fadeLevel p) (power * power)

/-- A record is rebased whole (R173). -/
def State.rebasedWhole (s : State) (p : Port) (tag : ShotTag) : Bool :=
  let pred : U48 × Nat := if tag.pleat = 0 then (tag.group - 1, s.pleats p - 1) else (tag.group, tag.pleat - 1)
  tag.rebased || s.phs[p].lastShot != some pred

/-- DAS_RAW of a record (R196): it is carried uncut by the route's own points. -/
def State.emitRaw (s : State) (p : Port) (e : Expect) (v : PointView) (codes : List Nat) (flags : Nat) : State :=
  if s.rawCount p = 0 ∨ e.j % (s.rawEvery p : Int) ≠ 0 then s
  else
    let pts := (v.pts.drop (s.rawFirst p)).take (s.rawCount p)
    let row : Row :=
      { j := (e.j % (2 ^ 64 : Nat)).toNat, time := e.time, shot := shotWord e.group e.pleat, calSet := e.calSet, flags := flags
        values := pts.flatMap fun a => [clampInt 16 a.xr, clampInt 16 a.xi, clampInt 16 a.yr, clampInt 16 a.yi]
        codes := (codes.drop (s.rawFirst p)).take (s.rawCount p) }
    allRoutes.foldl (fun s r =>
      if s.routeDas r p 3 false then
        (s.dasRecords (s.recordLimit r) p 3 false (s.routeQuality r == 1) (s.rawFirst p) [row]).foldl (fun s q => s.toRoute r q) s
      else s) s

/-- The running means of point power after a record of the pleat (R178). -/
def PleatSt.meansAfter (q : PleatSt) (powers : List Nat) : List Nat :=
  if q.mean.isEmpty then powers.map (· * 65536)
  else (q.mean.zip powers).map fun e => darkMean e.1 (e.2 * 65536)

/-- The engine processes a record whole (R181): points, quality, common mode, increments; then DEC, EVT and DAS_RAW take it. -/
def State.processRecord (s : State) (p : Port) (r : AcqRec) (words : List U64) (lanes : List (List Int)) (e : Expect) : State :=
  let k := r.tag.pleat
  let np := s.nPoints p
  let pts := s.compressRecord p k r.offset lanes
  let powers := pts.map Point.power
  let st := (s.phs[p].pleats.toList[k]?).getD {}
  let means := st.meansAfter powers
  let nf := s.noiseFloor p
  let clips := (words.zipIdx.filter fun w => wordClip w.1).map (·.2)
  let v : PointView :=
    { pts := pts, tainted := (List.range np).map (s.tainted p r.offset clips), dark := means.map fun m => decide (m < 2048 * nf)
      partial_ := (List.range np).map (s.partialPoint p) }
  let gs := (List.range np).map (s.gaugeView p k v)
  let cm := s.commonMode p gs
  let whole := s.rebasedWhole p r.tag
  let os := gs.zipIdx.map fun g => s.gaugeOut p k whole cm.1 g.1 g.2
  let flags := bitIf whole 0 + bitIf cm.2 1
  let ampCodes := powers.zipIdx.map fun a => s.ampCode p v a.2 a.1
  let count := fun (c : Nat) => (os.filter fun o => o.code == c).length
  let x : DecSample :=
    { j := e.j, time := e.time, shot := shotWord e.group e.pleat, calSet := r.calSet, flags := flags
      d := os.map (·.d), acc := os.map (·.acc), codes := os.map (·.code)
      amp := powers.map fun a => min 65535 (rootOf a), ampCodes := ampCodes }
  let s := s.setPhs p fun y =>
    { y with
      pleats := Vector.ofFn fun i => if i.val = k then
          { ph := os.map (·.ph), align := os.map (·.align), codes := os.map (·.code), mean := means } else y.pleats[i]
      acc := os.map (·.acc), pend := os.map (·.pend)
      last := gs.map fun g => if g.code = 0 then none else some g.z2
      lastShot := some (r.tag.group, k)
      records := y.records + 1
      rebased := if whole then y.rebased + 1 else y.rebased
      clipValues := y.clipValues + BitVec.ofNat 64 (count 1)
      fadedValues := y.fadedValues + BitVec.ofNat 64 (count 3)
      rateValues := y.rateValues + BitVec.ofNat 64 (count 4)
      darkPoints := BitVec.ofNat 32 (count 2), fadedPoints := BitVec.ofNat 32 (count 3)
      cmrSkipped := if cm.2 then y.cmrSkipped + 1 else y.cmrSkipped
      cmrLast := cm.1 }
  -- the sample's flits were lost on a link: RG4 has no record of it (R285)
  if s.phs[p].struck then s.fillOne p e else
  let s := s.decFeed p x
  let s := s.emitRaw p e v ampCodes flags
  s.evtEnd p (s.pleats p) r.tag.group k (s.pleats p) e.j e.time (some (recordEnd 64 nf 0 powers))

/-- The scheduled sample of a record; one that is not scheduled any more takes the index of its group number (R185). -/
def State.expectOf (s : State) (p : Port) (r : AcqRec) : Expect :=
  match s.phs[p].expect.find? fun e => e.group == r.tag.group && e.pleat == r.tag.pleat with
  | some e => { e with time := r.tag.launchTime, calSet := r.calSet }
  | none =>
    { j := (s.pleats p * r.tag.group.toNat + r.tag.pleat : Nat), time := r.tag.launchTime, group := r.tag.group,
      pleat := r.tag.pleat, calSet := r.calSet }

/-- PHASE_RECORD_PROCESS (R143, R146, R147, R148, R165, R181): the oldest notice is taken; its record is read from the queue,
corrected, given to self-calibration, and processed whole; its instants are released. Log entry 44, DEDUCED. -/
def execPhaseRecordProcess (dt : Nat) (p : Port) (q : QueueRead) (s : State) : Host.Outcome State Fault Refusal :=
  let s := s.elapse dt
  match s.acq[p].records with
  | [] => .next s
  | r :: t =>
    if s.decOn p && r.noticed then
      let bad := q.bad.eraseDups.filter fun i => i < r.len
      let s := s.queueErrors p q.corrected bad.length
      let s := s.setAcq p fun x => x.readBad r bad
      let words := s.acq[p].wordsOf r
      let lanes := corrected (s.acq[p].cal.setOf r.calSet) r words
      let s := s.accumulate p r words lanes
      let e := s.expectOf p r
      let before := s.phs[p].expect.takeWhile fun x => !(x.group == e.group && x.pleat == e.pleat)
      let known := s.phs[p].expect.any fun x => x.group == e.group && x.pleat == e.pleat
      let s := s.setPhs p fun x =>
        { x with
          expect := if known then x.expect.drop (before.length + 1) else x.expect
          latencyPeak := BitVec.ofNat 32 (max x.latencyPeak.toNat q.latencyNs)
          notice := r.notice.map fun n => { n with eccCorrected := q.corrected, eccUncorrected := bad.length } }
      let s := if s.isShut 11 then s else s.setEvt fun x => { x with latencyPeak := BitVec.ofNat 32 (max x.latencyPeak.toNat q.decisionNs) }
      let s := if known then before.foldl (fun s x => (s.fillGap p x).fillOne p x) s else s
      let s := s.fillGap p e
      let s := s.processRecord p r words lanes e
      let s := s.setPhs p fun x => { x with struck := false }
      let s := s.setAcq p fun x => ({ x with records := t } : Acq).release
      .next (s.drainMissing p)
    else .next s

/-- The engine's and DEC's state is cleared (R181, R198, R245). -/
def State.clearPhase (s : State) (p : Port) : State :=
  let s := s.setPhs p fun x =>
    { x with
      pleats := Vector.replicate 4 {}, acc := [], pend := [], last := [], lastShot := none, lastAcc := [], lastAmp := []
      base := [], baseAmp := [] }
  (s.decReset p).clearBands p

end Sys2Proof.Machine
end

