-- ==== Sys2Proof/Machine/Laser.lean ====
section
/-! DEFINITION. The laser (R59, R60, Tables 2.8 and 2.9) and the optical faults of Table 2.10 (R61, R63, R67, R68). -/

namespace Sys2Proof.Machine

/-- Change the optical engine. -/
def State.setOpt (s : State) (f : Opt → Opt) : State := { s with opt := f s.opt }

/-- LSR may act: the device is live and FD02 is not fenced, or runs its recovery (Table 13.4, R414). -/
def State.lsrOn (s : State) : Bool := s.live && s.runs 2

/-- A row of Table 2.10 was detected: it is counted (OPT_FAULT_ROWk). -/
def State.countRow (s : State) (k : Fin 12) : State := s.setOpt fun o => { o with rows := upd o.rows k (· + 1) }

/-- The fault code of row `k`, counted from 1, of Table 2.10 (R416). Log entry 35, DEDUCED. -/
def optFault (k : Nat) : U32 := BitVec.ofNat 32 (0x00068000 + k)

/-- A detected row that does not fence is recorded in the black box (R67). -/
def State.recordRow (s : State) (k : Nat) (domain : Nat) (value : U32) : State :=
  s.record (s.bbxRec 0x0040 domain (optFault k) value [])

/-- Both ports' gates close; a shot in flight is discarded (R65), and held calls with it (R91). -/
def State.gatesOff (s : State) : State := bothPorts.foldl (fun s p => (s.closeGate p).dropHeld p) s

/-- A row of Table 2.10 that names READY applies: the laser is READY, or another row has ended READY at this instant (R68). -/
def State.inReady (s : State) : Bool := s.opt.laser == .ready || s.opt.leftReadyAt == some s.now

/-- A row ends READY: both gates off, and the laser takes a state unless another row has already taken it further back (R68). -/
def State.leaveReady (s : State) (next_ : LaserSt) : State :=
  s.gatesOff.setOpt fun o =>
    { o with
      leftReadyAt := if o.laser = .ready then some s.now else o.leftReadyAt
      settlingAt := if o.laser = .ready ∧ next_ = .settling then s.now else o.settlingAt
      laser := match o.laser with
        | .ready => next_
        | .settling => if next_ = .settling then .settling else next_
        | .tuning => if next_ = .relock then .relock else .tuning
        | l => l }

/-- FD00 or FD01. -/
def portDomain (p : Port) : Domain := if p = 0 then 0 else 1

/-- The laser is READY now; at the first time each port leaves ALS state IDLE (Table 14.2). -/
def State.laserReadyNow (s : State) : State :=
  let first := !s.opt.everReady
  let s := s.setOpt fun o => { o with laser := .ready, everReady := true, waveFault := none, dieClose := true, waveClose := true }
  if first then bothPorts.foldl State.alsLeaveIdle s else s

/-- LASER_DIE_IN_WINDOW (Table 2.8, Table 2.9 steps 3 and 4): within ±1 K, WARMING to LOCKING. The reading is OPT_DIE_ERROR. -/
def execLaserDieInWindow (x : Timed Int) (s : State) : Host.Outcome State Fault Refusal :=
  let s := s.elapse x.dt
  if s.lsrOn && s.opt.laser == .warming && decide (x.reading.natAbs ≤ 1000) then
    .next (s.setOpt fun o => { o with laser := .locking, dieError := x.reading })
  else .next s

/-- INJECTION_LOCK_DETECTED (Table 2.9 step 5, Table 2.10 row 1): LOCKING or RELOCK to TUNING; a detected lock ends the run of
failures, and a relock is counted. -/
def execInjectionLockDetected (dt : Nat) (s : State) : Host.Outcome State Fault Refusal :=
  let s := s.elapse dt
  if !s.lsrOn then .next s
  else match s.opt.laser with
    | .locking => .next (s.setOpt fun o => { o with laser := .tuning, lockDetected := true, attempts := 0 })
    | .relock =>
      .next (s.setOpt fun o => { o with laser := .tuning, lockDetected := true, attempts := 0, relocks := o.relocks + 1 })
    | _ => .next s

/-- WAVELENGTH_TUNED (Table 2.8, Table 2.9 step 6): within ±0.020 nm, TUNING to SETTLING. The reading is OPT_WAVELENGTH_ERROR,
0.1 pm. -/
def execWavelengthTuned (x : Timed Int) (s : State) : Host.Outcome State Fault Refusal :=
  let s := s.elapse x.dt
  if s.lsrOn && s.opt.laser == .tuning && decide (x.reading.natAbs ≤ 200) then
    .next (s.setOpt fun o => { o with laser := .settling, waveError := x.reading, settlingAt := s.now })
  else .next s

/-- LASER_READY (Table 2.8, Table 2.9 step 7): within ±0.01 K and ±0.005 nm, both held for 1 s: SETTLING to READY. The reading is
OPT_DIE_ERROR and OPT_WAVELENGTH_ERROR. -/
def execLaserReady (x : Timed (Int × Int)) (s : State) : Host.Outcome State Fault Refusal :=
  let s := s.elapse x.dt
  if s.lsrOn && s.opt.laser == .settling && decide (x.reading.1.natAbs ≤ 10) && decide (x.reading.2.natAbs ≤ 50) &&
      decide (s.opt.settlingAt + secP ≤ s.now) then
    .next (s.setOpt fun o => { o with dieError := x.reading.1, waveError := x.reading.2 }).laserReadyNow
  else .next s

/-- INJECTION_LOCK_LOST (Table 2.10 row 1): both gates off, RELOCK with its first attempt; FD02 with a RELOCK_LIMIT of zero, or
after more than 10 losses in any 60 s. The lock can be lost from TUNING on. -/
def execInjectionLockLost (dt : Nat) (s : State) : Host.Outcome State Fault Refusal :=
  let s := s.elapse dt
  if s.lsrOn && (s.opt.laser == .ready || s.opt.laser == .settling || s.opt.laser == .tuning) then
    let recent := s.now :: s.opt.losses.filter fun t => s.now < t + 60 * secP
    let s := (s.leaveReady .relock).countRow 0
    let s := s.setOpt fun o =>
      { o with lockDetected := false, lockLosses := o.lockLosses + 1, losses := recent, attempts := 1, attemptAt := s.now }
    if s.relockLimit = 0 ∨ recent.length > 10 then .next (s.report 2 (optFault 1) (BitVec.ofNat 32 recent.length))
    else .next (s.recordRow 1 2 (BitVec.ofNat 32 recent.length))
  else .next s

/-- RELOCK_ATTEMPT_TIMEOUT (Table 2.10 row 1): 300 ms after its start the attempt has failed; the next starts at once, or FD02 is
reported after RELOCK_LIMIT consecutive failures. -/
def execRelockAttemptTimeout (dt : Nat) (s : State) : Host.Outcome State Fault Refusal :=
  let s := s.elapse dt
  if s.lsrOn && s.opt.laser == .relock && decide (s.opt.attemptAt + 300 * msP ≤ s.now) then
    if s.opt.attempts ≥ s.relockLimit then .next (s.report 2 (optFault 1) (BitVec.ofNat 32 s.opt.attempts))
    else .next (s.setOpt fun o => { o with attempts := o.attempts + 1, attemptAt := s.now })
  else .next s

/-- WAVELENGTH_OUT_OF_WINDOW (Table 2.10 row 2): beyond ±0.050 nm in READY: emission withheld, TUNING, and 5 s to be READY again.
`err` is OPT_WAVELENGTH_ERROR, 0.1 pm. -/
def execWavelengthOutOfWindow (dt : Nat) (err : Int) (s : State) : Host.Outcome State Fault Refusal :=
  let s := s.elapse dt
  if !s.lsrOn then .next s
  else
    let s := s.setOpt fun o => { o with waveError := err }
    if s.inReady && decide (err.natAbs > 500) then
      let s := (s.leaveReady .tuning).countRow 1
      let s := s.setOpt fun o => { o with waveClose := false, waveFault := some s.now }
      .next (s.recordRow 2 2 (BitVec.ofInt 32 err))
    else .next s

/-- WAVELENGTH_RECOVERY_TIMEOUT (Table 2.10 row 2): not READY within 5 s of a wavelength fault. -/
def execWavelengthRecoveryTimeout (dt : Nat) (s : State) : Host.Outcome State Fault Refusal :=
  let s := s.elapse dt
  match s.opt.waveFault with
  | some t =>
    if s.lsrOn && s.opt.laser != .ready && decide (t + 5 * secP ≤ s.now) then
      .next ((s.setOpt fun o => { o with waveFault := none }).report 2 (optFault 2) (BitVec.ofInt 32 s.opt.waveError))
    else .next s
  | none => .next s

/-- DIE_TEMP_OUT_OF_WINDOW (R58, R61, Table 2.10 row 3): beyond ±0.1 K for 1 s in READY: emission withheld, SETTLING. -/
def execDieTempOutOfWindow (dt : Nat) (e : DieError) (s : State) : Host.Outcome State Fault Refusal :=
  let s := s.elapse dt
  if !s.lsrOn then .next s
  else
    let s := s.setOpt fun o => { o with dieError := e.err }
    if s.inReady && decide (e.err.natAbs > 100) && decide (e.ms ≥ 1000) then
      let s := (s.leaveReady .settling).countRow 2
      let s := s.setOpt fun o => { o with dieClose := false }
      .next (s.recordRow 3 2 (BitVec.ofInt 32 e.err))
    else .next s

/-- DIE_TEMP_FENCE_TIMEOUT (Table 2.10 row 3): the die has been beyond ±1 K for 10 s once the laser had settled. -/
def execDieTempFenceTimeout (x : Timed DieError) (s : State) : Host.Outcome State Fault Refusal :=
  let s := s.elapse x.dt
  if !s.lsrOn then .next s
  else
    let s := s.setOpt fun o => { o with dieError := x.reading.err }
    if (s.opt.laser == .settling || s.opt.laser == .ready || s.opt.laser == .tuning || s.opt.laser == .relock) &&
        decide (x.reading.err.natAbs > 1000) && decide (x.reading.ms ≥ 10000) then
      .next (s.report 2 (optFault 3) (BitVec.ofInt 32 x.reading.err))
    else .next s

/-- DIE_OVER_TEMPERATURE (Table 2.10 row 4, R71): hardware cuts the laser, SOA and TEC currents whatever the rest of the device
does; FAULT, and FD02 is reported. -/
def execDieOverTemperature (dt : Nat) (s : State) : Host.Outcome State Fault Refusal :=
  let s := s.elapse dt
  let s := s.gatesOff
  if s.live then
    let s := s.setOpt fun o =>
      { o with
        leftReadyAt := if o.laser = .ready then some s.now else o.leftReadyAt
        laser := .fault, lockDetected := false, tecCurrent := 0, dieClose := false, waveClose := false, waveFault := none }
    .next ((s.countRow 3).report 2 (optFault 4) 0)
  else .next s

/-- LASER_POWER_LOW (Table 2.10 row 5): below 70 % of the value at first READY a warning, below 50 % FD02; back at 70 % the warning's
condition has ended. `permille` is OPT_LASER_POWER. -/
def execLaserPowerLow (dt : Nat) (permille : Nat) (s : State) : Host.Outcome State Fault Refusal :=
  let s := s.elapse dt
  if s.lsrOn && s.opt.everReady then
    let s := s.setOpt fun o => { o with laserPower := BitVec.ofNat 32 permille }
    if permille < 700 then
      let s := ((s.countRow 4).recordRow 5 2 (BitVec.ofNat 32 permille)).warn 0x00060002#32 (BitVec.ofNat 32 (permille / 10)) true
      if permille < 500 then .next (s.report 2 (optFault 5) (BitVec.ofNat 32 permille)) else .next s
    else .next (s.warnEnded 0x00060002#32)
  else .next s

/-- TEC_SATURATED (R61): the drive has been at its limit for as many ms as the reading: beyond 10 s the flag is set and the warning raised, and
with the drive off its limit the warning's condition has ended. -/
def execTecSaturated (x : Timed Nat) (s : State) : Host.Outcome State Fault Refusal :=
  let s := s.elapse x.dt
  if s.lsrOn && s.opt.laser != .off && s.opt.laser != .fault && decide (x.reading > 10000) then
    .next ((s.setOpt fun o => { o with tecSaturated := true }).warn 0x00060001#32 0 true)
  else if x.reading = 0 then .next (s.warnEnded 0x00060001#32)
  else .next s

/-- A port's launch side works (Table 13.4, FD00 and FD01). -/
def State.launchOn (s : State) (p : Port) : Bool := s.live && !s.isShut (portDomain p)

/-- LAUNCH_PEAK_HIGH (Table 2.10 row 6): gate off, shutter closed, the shot discarded and the port reported. -/
def execLaunchPeakHigh (dt : Nat) (p : Port) (s : State) : Host.Outcome State Fault Refusal :=
  let s := s.elapse dt
  if s.launchOn p && s.opt.ports[p].gate.isSome then
    .next (((s.closePort p).countRow 5).report (portDomain p) (optFault 6) (BitVec.ofNat 32 p.val))
  else .next s

/-- SOA drive of a kind of shot of a port (R49). -/
def OptPort.driveOf (x : OptPort) (temperature : Bool) : Int := if temperature then x.tsDrive else x.drive

/-- LAUNCH_PEAK_LOW (Table 2.10 row 7): the mean of 1,024 shots of a kind lies below setting with the SOA
drive at its limit: a warning beyond 1.0 dB, the port's fence beyond 3.0 dB; otherwise the warning's condition has ended. -/
def execLaunchPeakLow (dt : Nat) (p : Port) (k : PeakBelow) (s : State) : Host.Outcome State Fault Refusal :=
  let s := s.elapse dt
  let place := 2 * p.val + (if k.temperature then 1 else 0)
  if !s.launchOn p then .next s
  else if k.below > 100 ∧ Config.soaLimit p ≤ s.opt.ports[p].driveOf k.temperature then
    let s := (s.countRow 6).recordRow 7 (portDomain p).val (BitVec.ofNat 32 p.val)
    let s := s.warn 0x00060003#32 (BitVec.ofNat 32 p.val) true place
    if k.below > 300 then .next (s.report (portDomain p) (optFault 7) (BitVec.ofNat 32 k.below)) else .next s
  else .next (s.warnEnded 0x00060003#32 place)

/-- LEAKAGE_BETWEEN_PULSES (Table 2.10 row 8): the shutter closes and the port is reported. -/
def execLeakageBetweenPulses (dt : Nat) (p : Port) (s : State) : Host.Outcome State Fault Refusal :=
  let s := s.elapse dt
  if s.launchOn p && s.opt.ports[p].shutter then
    .next (((s.closePort p).countRow 7).report (portDomain p) (optFault 8) (BitVec.ofNat 32 p.val))
  else .next s

/-- A gate enable of 4.1 µs in CK_LNC periods (R63). -/
def gateLimit : Nat := 1640

/-- GATE_HELD_TOO_LONG (R63, R71, Table 2.10 row 9): hardware cuts the gate at 4.1 µs whatever the rest of the device does. -/
def execGateHeldTooLong (dt : Nat) (p : Port) (s : State) : Host.Outcome State Fault Refusal :=
  let s := s.elapse dt
  match s.opt.ports[p].gate with
  | some g =>
    if g.openedAt + gateLimit ≤ s.now then
      let s := s.closeGate p
      let s := s.setOpt fun o => { o with ports := upd o.ports p fun x => { x with gateCuts := x.gateCuts + 1 } }
      .next ((s.countRow 8).report (portDomain p) (optFault 9) (BitVec.ofNat 32 p.val))
    else .next s
  | none => .next s

/-- LO_POWER_OUT_OF_RANGE (Table 2.10 row 11): outside 50 % to 200 % of the value at first READY. -/
def execLoPowerOutOfRange (dt : Nat) (p : Port) (permille : Nat) (s : State) : Host.Outcome State Fault Refusal :=
  let s := s.elapse dt
  if s.launchOn p && s.opt.everReady && (permille < 500 || permille > 2000) then
    let s := s.setOpt fun o => { o with ports := upd o.ports p fun x => { x with loPower := BitVec.ofNat 32 permille } }
    .next ((s.countRow 10).report (portDomain p) (optFault 11) (BitVec.ofNat 32 permille))
  else .next s

/-- PHOTODIODE_FAULT (Table 2.10 row 12): outside 25 % to 400 % of the value at first READY. -/
def execPhotodiodeFault (dt : Nat) (p : Port) (percent : Nat) (s : State) : Host.Outcome State Fault Refusal :=
  let s := s.elapse dt
  if s.launchOn p && s.opt.everReady && (percent < 25 || percent > 400) then
    .next ((s.countRow 11).report (portDomain p) (optFault 12) (BitVec.ofNat 32 percent))
  else .next s

end Sys2Proof.Machine
end

