-- ==== Sys2Proof/Machine/Shots.lean ====
section
/-! DEFINITION. The shot sequencer (R73 to R97): scheduled and called groups, pleat and temperature shots, trigger edges, and
launch timestamps. -/

namespace Sys2Proof.Machine

/-- The shutter has been open for its 20 µs (Table 2.3). -/
def State.shutterReady (s : State) (p : Port) : Bool :=
  s.opt.ports[p].shutter && decide (s.opt.ports[p].openedAt + 20 * usP ≤ s.now)

/-- Memory lets launches begin: initialised, absent by a fence, or without a ring to fill (R295). -/
def State.memReady (s : State) : Bool :=
  (match s.mem.st with
   | .running | .selfRefresh | .characterised => true
   | .off | .starting | .fenced => false) || s.isShut 13 || (List.range 4).all fun r => (s.history r).isNone

/-- The start gates of R112, R125 and R295 have passed for a port's first group, and nothing withholds launches. -/
def State.startGates (s : State) (p : Port) : Bool := s.timeReady p && s.memReady && !s.withheld

/-- The port may launch a group now (R62, R88, R109, R112, R113, R125, R295). -/
def State.mayLaunch (s : State) (p : Port) : Bool := s.mayEmit p && s.startGates p && s.shutterReady p

/-- The port starts groups on external calls (R89). -/
def State.external (s : State) (p : Port) : Bool := !s.linkedTo0 p && s.trigMode p != 0

/-- T in CK_LNC periods (R74). -/
def State.periodP (s : State) (p : Port) : Nat := 4 * s.period10 p

/-- A group start counts as scheduled only once the port's first group can start: for P0 with a linked P1 its own permit, ALS
state and FD00 do not enter (R86, R97). -/
def State.anchors (s : State) (p : Port) : Bool :=
  if s.leads p then s.commonMayEmit && s.startGates p else s.mayLaunch p

/-- A call is heard (R91): every condition of R62 holds, but for P0's own where a linked P1 follows (R97), and before the port's first
group its start gates have passed as well. -/
def State.hears (s : State) (p : Port) : Bool :=
  (if s.leads p then s.commonMayEmit else s.mayEmit p) && (s.sht[p].launched || s.startGates p)

/-- What a GROUP_START at this instant is. -/
inductive Due where
  /-- Nothing falls due. -/
  | no
  /-- A scheduled start; the number of scheduled times passed over before it, and its slot. -/
  | scheduled (passed : Nat) (slot : Int)
  /-- A called start. -/
  | called (c : Call)
deriving DecidableEq, Repr

/-- No group starts less than T after the previous group start of the port (R87). -/
def State.spaced (s : State) (p : Port) : Bool :=
  match s.sht[p].lastStart with
  | some t => decide (t + s.periodP p ≤ s.now)
  | none => true

/-- The anchored slot that starts on this CK_LNC edge (R85, R87): the edge is the first at or after the slot's scheduled time; or, where
no step has moved device time since the last start, the first that lies T after that start, to which a slewed schedule moves the
group (Table 3.1). Log entry 105, DEDUCED. -/
def State.dueSlot (s : State) (p : Port) : Option Int :=
  let k := s.slotOf p s.tim
  let x := s.sht[p]
  let fresh := decide (k.2 < s.tim.incr)
  let moved := !x.stepped && x.lastStart == some (s.now - s.periodP p) && decide (x.lastSlot < k.1)
  if s.tim.runs ∧ s.spaced p = true ∧ (fresh || moved) = true then some k.1 else none

/-- Whether a group start of the port falls due now (R85 to R87, R90, R97). -/
def State.due (s : State) (p : Port) : Due :=
  let x := s.sht[p]
  if s.linkedTo0 p then
    match x.linked.find? fun t => t.1 + s.linkOffset p == s.now with
    | some t => .scheduled 0 t.2
    | none => .no
  else if s.external p then
    match x.calls.find? fun c => c.start == s.now with
    | some c => .called c
    | none => .no
  else if x.lastStart.isNone then
    if !s.anchors p then .no
    else if s.epochMode p = 1 then (match s.dueSlot p with | some k => .scheduled 0 k | none => .no)
    else .scheduled 0 0
  else if s.epochMode p = 1 then
    match s.dueSlot p with
    | some k => if x.lastSlot < k then .scheduled (k - x.lastSlot - 1).toNat k else .no
    | none => .no
  else if !s.spaced p then .no
  else
    let d := s.now - x.lastStart.getD 0
    if d % s.periodP p = 0 then .scheduled (d / s.periodP p - 1) 0 else .no

/-- The group carries a temperature shot (R81). -/
def State.carriesTs (s : State) (p : Port) (group : U48) : Bool :=
  s.tsEvery p != 0 && group.toNat % s.tsEvery p == 0

/-- A scheduled group is not launched: it keeps its number and is counted (R88, R95). -/
def State.skipGroup (s : State) (p : Port) : State :=
  s.setSht p fun x =>
    { x with nextGroup := x.nextGroup + 1, groupsSkipped := x.groupsSkipped + 1, rebase := true, dark := true, group := none }

/-- A group is launched: its number, its REBASED mark and its temperature shot are set (R81, R88, R94). -/
def State.launchGroup (s : State) (p : Port) (triggered queued : Bool) (stamp : U64) : State :=
  let x := s.sht[p]
  let g : Group :=
    { number := x.nextGroup, start := s.now, triggered := triggered, queued := queued,
      triggerTime := if triggered then stamp else 0, rebased := x.rebase, wantsTs := s.carriesTs p x.nextGroup }
  let s := s.setSht p fun x =>
    { x with group := some g, nextGroup := x.nextGroup + 1, groups := x.groups + 1, launched := true, dark := false,
             rebase := false }
  (s.adoptSet p).alsGroupLaunched p g.number

/-- Index of a group's first acoustic sample (R185). -/
def State.groupBase (s : State) (p : Port) (number : U48) (slot : Int) : Int :=
  if s.groupAnchored p then (s.pleats p : Int) * slot else (s.pleats p * number.toNat : Nat)

/-- Scheduled device time of a group start (R85, R97, R192). -/
def State.groupTime (s : State) (p : Port) (slot : Int) : U64 :=
  let q : Port := if s.linkedTo0 p then 0 else p
  if s.groupAnchored p then
    BitVec.ofInt 64 ((s.epochOffset q * 640 + (if s.linkedTo0 p then s.linkOffset p * 640 else 0) : Nat) +
      slot * (s.period10 q * 2560 : Nat))
  else s.devTime

/-- A port's group start has come: launched when the port may launch, else skipped (R88); DEC expects its samples either way
(R187). -/
def State.runGroup (s : State) (p : Port) (slot : Int) (triggered queued : Bool) (stamp : U64) : State :=
  let number := s.sht[p].nextGroup
  let s := if s.mayLaunch p then s.launchGroup p triggered queued stamp else s.skipGroup p
  if s.hasDas p then (s.expectGroup p number (s.groupBase p number slot) (s.groupTime p slot)).drainMissing p else s

/-- Scheduled starts passed over before the present one: groups that fell due while FD04 was fenced are skipped with their numbers
and samples (R88, R97); scheduled times that device time left behind are counted (R87). Log entry 105, DEDUCED. -/
def State.passOver (s : State) (p : Port) (passed : Nat) (slot : Int) : State :=
  if s.sht[p].missed then
    (List.range passed).foldl (fun s i =>
      let number := s.sht[p].nextGroup
      let k := slot - (passed - i : Nat)
      let s := s.skipGroup p
      if s.hasDas p then (s.expectGroup p number (s.groupBase p number k) (s.groupTime p k)).drainMissing p else s) s
  else s.setSht p fun x => { x with groupsSkipped := x.groupsSkipped + BitVec.ofNat 64 passed }

/-- P1 is to follow this group start of P0 (R97). -/
def State.follow (s : State) (p : Port) (passed : Nat) (slot : Int) : State :=
  if s.leads p then (s.passOver 1 passed slot).setSht 1 fun x => { x with missed := false, linked := x.linked ++ [(s.now, slot)] }
  else s

/-- GROUP_START (R74, R85 to R88, R90, R91, R97): the scheduled or called group start that falls due at this instant. A called
group whose port is dark is discarded and counted, unless only P0's own conditions fail and a linked P1 follows. A P0 that is off
keeps the schedule that P1 follows. Log entry 32, DEDUCED; log entry 108, DEDUCED. -/
def execGroupStart (dt : Nat) (p : Port) (s : State) : Host.Outcome State Fault Refusal :=
  let s := s.elapse dt
  if !s.live || !(s.portLaunches p || s.leads p) || s.isShut 4 then .next s
  else
    let run := fun (slot : Int) (c : Option Call) (s : State) =>
      if s.portLaunches p then s.runGroup p slot c.isSome ((c.map (·.queued)).getD false) ((c.map (·.stamp)).getD 0) else s
    match s.due p with
    | .no => .next s
    | .scheduled passed slot =>
      let s := if s.portLaunches p then s.passOver p passed slot else s
      let s := s.follow p passed slot
      let s := s.setSht p fun x =>
        { x with lastStart := some s.now, lastSlot := slot, stepped := false, missed := false,
                 linked := x.linked.filter fun t => s.now < t.1 + s.linkOffset p }
      .next (run slot none s)
    | .called c =>
      let s := s.setSht p fun x => { x with calls := x.calls.filter fun c => s.now < c.start }
      if s.hears p then
        let s := s.setSht p fun x =>
          { x with lastStart := some s.now, trigAccepted := x.trigAccepted + 1, rebase := x.rebase || c.gap,
                   trigQueued := if c.queued then x.trigQueued + 1 else x.trigQueued }
        .next (run 0 (some c) (s.follow p 0 0))
      else .next (s.setSht p fun x => { x with trigDark := x.trigDark + 1, rebase := true, dark := true })

/-- SOA drive of a port after a monitor pulse that peaked at `peak`, 0.01 dBm (R49). Log entry 103, DESIGN CHOICE. -/
def State.correctDrive (s : State) (p : Port) (temperature : Bool) (peak : Int) : State :=
  let set := if temperature then s.tsPeakSet p else s.peakSet p
  let next := min (Config.soaLimit p) (Config.soaDrive p (s.opt.ports[p].driveOf temperature) (50 * set - peak))
  s.setOptPort p fun x =>
    if temperature then { x with tsPeak := peak, tsDrive := next } else { x with peak := peak, drive := next }

/-- A shot of the group in progress is launched: its gate opens on its pulse, it is counted and waits for its timestamp (R75, R78, R80,
R93). -/
def State.launchShot (s : State) (p : Port) (g : Group) (pleat : Option Nat) : State :=
  let tag : ShotTag :=
    { group := g.number, pleat := pleat.getD 0, temperature := pleat.isNone, triggered := g.triggered, queued := g.queued,
      triggerTime := g.triggerTime, rebased := g.rebased }
  let pulse := match pleat with | some k => s.vibPulse p k | none => tsPulse
  let s := s.send (.light p pulse (if pleat.isSome then s.peakSet p else s.tsPeakSet p))
  let s := s.setOptPort p fun x => { x with gate := some ⟨pleat, s.now, pulse⟩, shots := x.shots + 1 }
  let s := s.noteLaunch p pulse.duration
  s.setSht p fun x => { x with awaiting := x.awaiting ++ [{ tag := tag, openedAt := s.now, scheduled := s.devTime }] }

/-- A shot of the group in progress may be issued (R62, R109). -/
def State.mayIssue (s : State) (p : Port) : Bool := s.mayEmit p && s.tim.a.st != .relock && s.opt.ports[p].gate.isNone

/-- PLEAT_SHOT_LAUNCH (R74, R75, R142): pleat k's instant in the group in progress: the gate opens, and the queue reserves and
admits its record or refuses it whole. Log entry 31, DEDUCED; log entry 41, DEDUCED. -/
def execPleatShotLaunch (dt : Nat) (p : Port) (k : Pleat) (s : State) : Host.Outcome State Fault Refusal :=
  let s := s.elapse dt
  match s.sht[p].group with
  | some g =>
    if k.val < s.pleats p ∧ g.pleats = k.val ∧ g.stopped = false ∧ s.now = g.start + k.val * (s.periodP p / s.pleats p) then
      if s.mayIssue p then
        let s := s.setSht p fun x => { x with group := some { g with pleats := g.pleats + 1 } }
        let s := s.launchShot p g (some k.val)
        let tag : ShotTag := { group := g.number, pleat := k.val, rebased := g.rebased, triggered := g.triggered }
        let s := s.admitRecord p tag
        .next ((if s.selfSupplied p then s.openRaman p tag else s).drainMissing p)
      else
        let s := s.setSht p fun x => { x with group := some { g with stopped := true }, rebase := true }
        .next (s.drainMissing p)
    else .next s
  | none => .next s

/-- Offset of the temperature shot in a group, CK_LNC periods: configured, or at the group start with no pleats, or at the first
edge 200 ns or more after the pulse (R82). -/
def State.tsAt (s : State) (p : Port) : Nat :=
  if s.tsOffset p ≠ 0 then s.tsOffset p
  else if s.pleats p = 0 then 0
  else (s.pulse125 p + 160 + 1) / 2

/-- TEMPERATURE_SHOT_LAUNCH (R81, R82): a 10 ns shot at its offset in a group that carries one; its Raman record opens. -/
def execTemperatureShotLaunch (dt : Nat) (p : Port) (s : State) : Host.Outcome State Fault Refusal :=
  let s := s.elapse dt
  match s.sht[p].group with
  | some g =>
    if g.wantsTs = true ∧ g.stopped = false ∧ s.now = g.start + s.tsAt p then
      if s.mayIssue p then
        let s := s.setSht p fun x => { x with group := some { g with wantsTs := false }, tsShots := x.tsShots + 1 }
        let s := s.launchShot p g none
        .next (s.openRaman p { group := g.number, temperature := true, rebased := g.rebased, triggered := g.triggered })
      else .next (s.setSht p fun x => { x with group := some { g with stopped := true }, rebase := true })
    else .next s
  | none => .next s

/-- The CK_LNC edge at or after the end of a shot. -/
def ShotFlight.endsAt (g : ShotFlight) : Nat := g.openedAt + (g.pulse.duration + 1) / 2

/-- SHOT_GATE_CLOSE (R78): the gate has closed after exactly the shot's duration; the command comes at the first CK_LNC edge at or
after it. Log entry 31, DEDUCED. -/
def execShotGateClose (dt : Nat) (p : Port) (s : State) : Host.Outcome State Fault Refusal :=
  let s := s.elapse dt
  match s.opt.ports[p].gate with
  | some g => if g.endsAt ≤ s.now then .next (s.setOptPort p fun x => { x with gate := none, openFor := g.pulse.duration }) else .next s
  | none => .next s

/-- A shot's tag as a TIMING entry (Table 11.8). -/
def ShotTag.entry (t : ShotTag) : List Byte :=
  le 8 t.launchTime.toNat ++ le 8 t.triggerTime.toNat ++ le 6 t.group.toNat ++
    le 1 (bitIf t.queued 0 + bitIf t.triggered 1 + t.source * 4 + bitIf t.temperature 4 + t.pleat * 32) ++
    le 1 (bitIf t.rebased 0)

/-- The oldest shot's launch timestamp is formed: its tag is complete, is handed to acquisition and joins the TIMING records;
a scheduled source is counted (R93, R94, R334). -/
def State.stampShot (s : State) (p : Port) (a : Awaiting) (time : U64) (source : Nat) : State :=
  let tag := { a.tag with launchTime := time, source := source }
  let s := s.setSht p fun x =>
    { x with
      awaiting := x.awaiting.drop 1
      tsScheduled := if source = 0 then x.tsScheduled else x.tsScheduled + 1
      unseen := if source = 1 then x.unseen + 1 else 0 }
  let s := (s.tagRecords p tag).addTag p tag.entry
  let s := if tag.temperature || s.selfSupplied p then s.dtsBegin p tag else s
  let s := a.drops.foldl (fun s c => s.logDrop p tag c) s
  (s.timeExpect p tag).drainMissing p

/-- The sixteenth consecutive scheduled timestamp of source 1 is "launch not seen" (Table 2.10 row 10). -/
def State.checkUnseen (s : State) (p : Port) : State :=
  if s.sht[p].unseen ≥ 16 then
    ((s.setSht p fun x => { x with unseen := 0 }).countRow 9).report (portDomain p) (optFault 10) 16
  else s

/-- LAUNCH_MONITOR_EDGE (R49, R93, R128): the TIU measures the oldest shot's edge; peak (0.01 dBm) and energy of the monitor pulse are
kept, and the SOA drive is corrected. With FD19 fenced, or the edge unmeasured, the scheduled time stands in (Table 3.6). Log entry 34, DEDUCED. -/
def execLaunchMonitorEdge (dt : Nat) (p : Port) (m : TiuMeas) (peak : Int) (energy : Nat) (s : State) :
    Host.Outcome State Fault Refusal :=
  let s := s.elapse dt
  match s.sht[p].awaiting with
  | [] => .next s
  | a :: _ =>
    if !s.live then .next s
    else
      let s := s.correctDrive p a.tag.temperature peak
      let s := s.noteEnergy p a.openedAt energy
      let r := s.measure (if p = 0 then 0 else 1) m
      match r.2 with
      | some t => .next (r.1.stampShot p a t 0)
      | none => .next ((r.1.stampShot p a (a.nominal p) (if s.isShut 19 then 2 else 1)).checkUnseen p)

/-- LAUNCH_TIMESTAMP_TIMEOUT (R93, R132): no launch-monitor edge within the TIU stop timeout; the scheduled time is used, and
16 in a row report the port. With FD19 fenced the source is 2. Log entry 34, DEDUCED. -/
def execLaunchTimestampTimeout (dt : Nat) (p : Port) (s : State) : Host.Outcome State Fault Refusal :=
  let s := s.elapse dt
  match s.sht[p].awaiting with
  | [] => .next s
  | a :: _ =>
    if s.live && (s.isShut 19 || decide (a.openedAt + s.tiuTimeout * usP ≤ s.now)) then
      .next ((s.stampShot p a (a.nominal p) (if s.isShut 19 then 2 else 1)).checkUnseen p)
    else .next s

/-- The input a port takes its calls from (Table 3.10). -/
def State.trigInput (s : State) (p : Port) : Option (Fin 2) :=
  if s.external p then (if s.trigMode p = 1 then some 0 else some 1) else none

/-- TRIGGER_EDGE (R89, R127): a level change on a trigger input is seen; where a port uses the input and the polarity it is timed; at
each such port the selected polarity starts its deglitch hold and the other ends it. -/
def execTriggerEdge (dt : Nat) (input : Fin 2) (level : Bool) (m : TiuMeas) (s : State) : Host.Outcome State Fault Refusal :=
  let s := s.elapse dt
  if s.trigLevel[input] = level then .next s
  else
    let s := { s with trigLevel := s.trigLevel.set input level }
    if !s.live || s.isShut 4 then .next s
    else
      let selected := fun (s : State) (p : Port) => s.trigInput p == some input && level == (s.trigEdge p == 0)
      let r := if bothPorts.any (selected s) then s.measure (if input = 0 then 4 else 5) m else (s, none)
      .next (bothPorts.foldl (fun s p =>
        if s.trigInput p = some input then
          s.setSht p fun x => { x with edge := if selected s p then some ⟨s.now, r.2⟩ else none }
        else s) r.1)

/-- A call of a port (R90, R91): dark, set to start its group, late and held, or late and ignored. It is judged against the last
start that is set, whether it has come or not. Log entry 33, DEDUCED; log entry 109, DEDUCED. -/
def State.callGroup (s : State) (p : Port) (stamp : U64) (edgeAt : Nat) : State :=
  let s := s.setSht p fun x => { x with callAt := s.now }
  let x := s.sht[p]
  let start := edgeAt + 64 + s.deglitch p + s.trigDelay p
  let last := (x.calls.getLast?.map (·.start)).orElse fun _ => x.lastStart
  let earliest := (last.map (· + s.periodP p)).getD 0
  if !s.hears p then s.setSht p fun x => { x with trigDark := x.trigDark + 1, rebase := true, dark := true }
  else if earliest ≤ start then
    let gap := x.lateIgnored && (last.map fun t => decide (t + 2 * s.periodP p < start)).getD false
    s.setSht p fun x => { x with calls := x.calls ++ [⟨start, stamp, false, gap⟩], lateIgnored := false }
  else if s.queueOne p = 1 ∧ x.calls.all (fun c => !c.queued) = true then
    s.setSht p fun x => { x with calls := x.calls ++ [⟨earliest, stamp, true, false⟩] }
  else
    s.setSht p fun x => { x with trigLate := x.trigLate + 1, lateIgnored := x.lateIgnored || s.queueOne p == 0 }

/-- TRIGGER_EDGE_ACCEPTED (R89, R90): the input has held its level for DEGLITCH; every PRESCALE-th accepted edge calls.
Log entry 33, DEDUCED. -/
def execTriggerEdgeAccepted (dt : Nat) (p : Port) (s : State) : Host.Outcome State Fault Refusal :=
  let s := s.elapse dt
  match s.sht[p].edge with
  | some e =>
    if s.live && !s.isShut 4 && decide (e.since + s.deglitch p ≤ s.now) then
      let n := s.sht[p].prescaled + 1
      if n ≥ s.prescale p then
        let s := s.setSht p fun x => { x with edge := none, prescaled := 0 }
        (match e.stamp with
         | some t => .next (s.callGroup p t e.since)
         | none =>
           let c := s.coarseTime (if s.trigMode p = 1 then 4 else 5) (s.deglitch p)
           .next (c.1.callGroup p c.2 e.since))
      else .next (s.setSht p fun x => { x with edge := none, prescaled := n })
    else .next s
  | none => .next s

/-- TRIGGER_TIMEOUT (R92): no call for TIMEOUT ms in external mode; the next group carries REBASED. -/
def execTriggerTimeout (dt : Nat) (p : Port) (s : State) : Host.Outcome State Fault Refusal :=
  let s := s.elapse dt
  if s.live && s.portLaunches p && s.external p && s.trigTimeoutMs p != 0 && !s.isShut 4 &&
      decide (s.sht[p].callAt + s.trigTimeoutMs p * msP ≤ s.now) then
    .next ((s.setSht p fun x => { x with trigTimeout := true, rebase := true, callAt := s.now }).warn
      0x00070001#32 (BitVec.ofNat 32 p.val) true)
  else .next s

end Sys2Proof.Machine
end

