-- ==== Sys2Proof/Machine/Supervisor.lean ====
section
/-! DEFINITION. The supervisory converter SUP (R227 to R236): the sequence, conversions, thermistor pairs and wire break. -/

namespace Sys2Proof.Machine

/-! ## Sequence and times -/

/-- Channels of a pass, in order (R234). -/
def State.supSequence (s : State) : List Nat :=
  match s.supRec with
  | some r => (List.range (fieldAt r 5 1)).map fun i => fieldAt r (16 + i) 1
  | none => ((List.range 4).filter fun i => (s.refInput i).isSome) ++ [4, 5, 6, 7, 8, 9, 10]

/-- SUP works: released and FD18 not fenced. -/
def State.supOn (s : State) : Bool := s.live && s.cfg.state == 1 && s.tim.a.controlled && !s.isShut 18

/-- Full settling in CK_LNC periods, rounded up (Table 7.7): filter order times decimation at 1.536 MHz. -/
def State.supSettle (s : State) : Nat :=
  let dec := match s.supNotch with | 0 => 30720 | 1 => 25600 | _ => 153600
  ((if s.supFilter = 0 then 3 else 4) * dec * 3125 + 11) / 12

/-- A tenth of a millisecond in CK_LNC periods. -/
def tenthMsP : Nat := 40000

/-- From a conversion's beginning to the restart of its filter: EXC_SETTLE, or the multiplexer's settle (R231, R234). -/
def State.supRestart (s : State) (k : SupStep) : Nat :=
  match k with
  | .single => tenthMsP
  | .plus | .minus _ | .burnOut _ => s.excSettle * tenthMsP

/-- The channel being converted. -/
def State.supChannel (s : State) : Nat := s.supSequence.getD s.sup.pos 0

/-- Change SUP. -/
def State.setSup (s : State) (f : Sup → Sup) : State := { s with sup := f s.sup }

/-- Change a thermistor input. -/
def State.setInput (s : State) (i : Fin 4) (f : Thermistor → Thermistor) : State :=
  s.setSup fun x => { x with inputs := upd x.inputs i f }

/-- The first step of a channel: a pair, or its burn-out test while the input is declared open (R231, R233). -/
def State.firstStep (s : State) (channel : Nat) : SupStep :=
  match s.sup.inputs[channel]? with
  | none => .single
  | some t => if t.broken = 1 ∧ t.retry = false then .burnOut true else .plus

/-- The conversion at a position of the sequence begins. -/
def State.supBegin (s : State) (pos : Nat) (k : SupStep) : State :=
  s.setSup fun x => { x with pos := pos, step := k, beganAt := s.now, coarseDone := false }

/-- SUP_PASS_START (R234, R235, Table 7.11): a pass starts as soon as the last has ended, or at its timed start, which is skipped
while a pass still converts; a failed self-test loses every reading and reports FD18. -/
def execSupPassStart (dt : Nat) (selfTestOk : Bool) (s : State) : Host.Outcome State Fault Refusal :=
  let s := s.elapse dt
  let slot : Int := (s.extTime - (s.supDelay * 256000000 : Nat) : Int) / (s.supPeriod * 256000000 : Nat)
  let timed := s.supPeriod != 0
  if !s.supOn || s.supSequence.isEmpty || (timed && decide (slot = s.sup.timer)) || (!timed && s.sup.converting) then .next s
  else
    let s := s.setSup fun x => { x with timer := if timed then slot else x.timer }
    if s.sup.converting then .next (s.setSup fun x => { x with trigSkipped := x.trigSkipped + 1 })
    else if selfTestOk then
      let s := s.setSup fun x => { x with converting := true, passAt := s.now }
      .next (s.supBegin 0 (s.firstStep (s.supSequence.getD 0 0)))
    else .next (s.loseAll.report 18 (supFault 9) 0)

/-! ## Results -/

/-- Beyond 0.98 of the reference (R232). -/
def supOver (v : Int) : Bool := decide (50 * v.natAbs > 49 * 2 ^ 23)

/-- The code delivered for a conversion: full scale when beyond (R232). -/
def supCode (v : Int) : Int := if supOver v then (if v < 0 then -(2 ^ 23 : Int) else 2 ^ 23 - 1) else v

/-- A converter code: 24 bits (R227). -/
def code24 (v : Int) : Int := clampInt 24 v

/-- A result enters SUP_BUF (R236, Table 7.9). -/
def State.supDeliver (s : State) (flags : Nat) (v : Int) : State :=
  s.setSup fun x =>
    { x with
      buf := ((⟨s.devTime, s.supChannel, flags, supCode v⟩ : SupEntry) :: x.buf).take 1024
      bufIndex := (x.bufIndex + 1) % 1024 }

/-- SUP_CHn_LAST. -/
def State.supLast (s : State) (v : Int) : State :=
  s.setSup fun x => { x with last := Vector.ofFn fun k => if k.val = s.supChannel then supCode v else x.last[k] }

/-- The next conversion of the pass begins, or the pass ends (R234). -/
def State.supNext (s : State) : State :=
  let n := s.sup.pos + 1
  if n < s.supSequence.length then s.supBegin n (s.firstStep (s.supSequence.getD n 0))
  else s.setSup fun x => { x with converting := false, passTime := BitVec.ofNat 32 ((s.now - x.passAt) / usP) }

/-- The thermistor input being converted. -/
def State.supInput (s : State) : Fin 4 := ⟨s.supChannel % 4, Nat.mod_lt _ (by decide)⟩

/-- An input is declared open (`how` 1) or shorted (2): recorded, warned, and its reading lost (R232). -/
def State.declareBreak (s : State) (how : Nat) : State :=
  let i := s.supInput
  if s.sup.inputs[i].broken = how then s.setInput i fun t => { t with retry := false }
  else
    let s := s.setInput i fun t => { t with broken := how, retry := false, breaks := t.breaks + 1 }
    let v := BitVec.ofNat 32 i.val
    let s := s.record (s.bbxRec 0x0063 18 (supFault 6) v (le 4 i.val ++ le 4 (how - 1)))
    let s := s.warn 0x00150001#32 v true
    match s.inputSource i.val with
    | some (p, k) => s.loseReading p k
    | none => s

/-- A valid pair of an input (R231 to R233). -/
def State.goodPair (s : State) (x : Int) : State :=
  let i := s.supInput
  let s := s.setInput i fun t => { t with broken := 0, retry := false }
  let s := if s.sup.inputs.toList.all fun t => t.broken == 0 then s.warnEnded 0x00150001#32 else s
  match s.inputSource i.val with
  | some (p, k) => s.goodReading p k (thermistorTemp ((s.refInput i.val).getD []) x)
  | none => s

/-- A pair has two half-conversions in range: its result is x (R231); below 0.02 the input is shorted (R232). -/
def State.supPair (s : State) (vPlus vMinus : Int) : State :=
  let d := vPlus - vMinus
  let x := pickRound 17 ((d : Rat) / 2)
  if 50 * x.natAbs < 2 ^ 23 then ((s.supDeliver 16 x).supLast x).declareBreak 2
  else ((s.supDeliver 0 x).supLast x).goodPair x

/-- VAPD or a bias in mV: code of 1.200 V behind a ÷16 divider (R227); what lies beyond 19.2 V reads as 19.2 V. Log entry 127, DEDUCED. -/
def supMv (v : Int) : Int := roundDiv (v * 19200) (2 ^ 23)

/-- The highest bias setting of either port (R203). -/
def State.highestBias (s : State) : Nat :=
  (bothPorts.flatMap fun p => if s.hasRaman p then [s.biasSet p .as, s.biasSet p .st] else []).foldl max 0

/-- A channel that is no thermistor has its result (Table 7.6): θ, VAPD with its warning (Table 7.11), or a measured bias. -/
def State.supSingle (s : State) (v : Int) : State :=
  let full := supOver v
  let s := (s.supDeliver (bitIf full 1) v).supLast v
  let c := s.supChannel
  let bias := fun (p : Port) (b : Fin 2) (s : State) =>
    s.setDts p fun d => { d with biasMv := d.biasMv.set b (supMv (supCode v)).toNat }
  match c with
  | 4 => if full then s.loseReading 0 .theta else s.goodReading 0 .theta (Config.receiverTemp 0 v)
  | 5 => if full then s.loseReading 1 .theta else s.goodReading 1 .theta (Config.receiverTemp 1 v)
  | 6 =>
    let mv := supMv (supCode v)
    if s.highestBias ≠ 0 ∧ mv < s.highestBias + 2000 then
      let w := BitVec.ofInt 32 mv
      (if s.warned 0x000A0001#32 then s else s.record (s.bbxRec 0x0040 7 (rmnFault 3) w [])).warn 0x000A0001#32 w true
    else s.warnEnded 0x000A0001#32
  | 7 => bias 0 0 s
  | 8 => bias 0 1 s
  | 9 => bias 1 0 s
  | 10 => bias 1 1 s
  | _ => s

/-- SUP_CONVERSION_DONE (R228, R231 to R233): the conversion has settled; what it means depends on the step of the channel. -/
def execSupConversionDone (dt : Nat) (code : Int) (s : State) : Host.Outcome State Fault Refusal :=
  let s := s.elapse dt
  if !s.supOn || !s.sup.converting || decide (s.now < s.sup.beganAt + s.supRestart s.sup.step + s.supSettle) then .next s
  else
    let v := code24 code
    match s.sup.step with
    | .single => .next (s.supSingle v).supNext
    | .plus =>
      if supOver v then .next ((s.supDeliver 2 v).supBegin s.sup.pos (.burnOut false))
      else .next (s.supBegin s.sup.pos (.minus v))
    | .minus vPlus =>
      if supOver v then .next ((s.supDeliver 2 v).supBegin s.sup.pos (.burnOut false))
      else .next (s.supPair vPlus v).supNext
    | .burnOut ofOpen =>
      if supOver v then .next ((s.supDeliver (2 + 4 + 8) v).declareBreak 1).supNext
      else
        let s := s.supDeliver 8 v
        .next (s.setInput s.supInput fun t =>
          if ofOpen then { t with retry := true } else { t with overrange := t.overrange + 1 }).supNext

/-- SUP_COARSE_VALUE (R228): with COARSE 1, one early value 3.0 ms after each restart of the filter. -/
def execSupCoarseValue (dt : Nat) (code : Int) (s : State) : Host.Outcome State Fault Refusal :=
  let s := s.elapse dt
  if s.supOn && s.sup.converting && s.supCoarse == 1 && !s.sup.coarseDone &&
      decide (s.sup.beganAt + s.supRestart s.sup.step + 3 * msP ≤ s.now) then
    let v := code24 code
    let test := match s.sup.step with | .burnOut _ => true | _ => false
    .next ((s.supDeliver (1 + bitIf (supOver v) 1 + bitIf test 3) v).setSup fun x => { x with coarseDone := true })
  else .next s

/-- SUP starts or resumes: no pass under way, and the next timed start awaited (R235). -/
def State.supStart (s : State) : State :=
  let slot : Int :=
    if s.supPeriod = 0 then -1
    else (s.extTime - (s.supDelay * 256000000 : Nat) : Int) / (s.supPeriod * 256000000 : Nat)
  s.setSup fun x => { x with converting := false, pos := 0, timer := slot }

end Sys2Proof.Machine
end

