-- ==== Sys2Proof/Machine/Status.lean ====
section
/-! DEFINITION. The status space (R451 to R461): every register of every block at the value its owning table gives it, the placement
of R452 and R453, and reads with the counter latch of an access path (R14, R353). -/

namespace Sys2Proof.Machine

/-! ## Registers -/

/-- A register as a read finds it: its bytes, its alignment, and whether it is a 64-bit register (R453). -/
structure StReg where
  bytes : List Byte
  align : Nat := 4
  wide : Bool := false
deriving DecidableEq, Repr

/-- A 32-bit register with an unsigned value, saturated (R453). -/
def r32 (n : Nat) : StReg := { bytes := le 4 (clampNat 0xFFFFFFFF n) }
/-- A 32-bit register. -/
def rU (x : U32) : StReg := { bytes := le 4 x.toNat }
/-- A 32-bit register with a signed value, saturated and sign-extended. -/
def rI (v : Int) : StReg := { bytes := leInt 4 (clampInt 32 v) }
/-- A flag register. -/
def rB (b : Bool) : StReg := { bytes := le 4 (if b then 1 else 0) }
/-- A 64-bit register. -/
def r64 (x : U64) : StReg := { bytes := le 8 x.toNat, align := 8, wide := true }
/-- A 64-bit register with an unsigned value, saturated. -/
def r64n (n : Nat) : StReg := { bytes := le 8 (clampNat 0xFFFFFFFFFFFFFFFF n), align := 8, wide := true }
/-- A register of Table 15.2. -/
def rBytes (align : Nat) (b : List Byte) : StReg := { bytes := b, align := align }
/-- Offsets that hold no register. -/
def rGap (n : Nat) : StReg := { bytes := List.replicate n 0 }

/-- A register of each port, P0 first. -/
def perPort (f : Port → StReg) : List StReg := bothPorts.map f

/-! ## The blocks -/

/-- The image is loaded. -/
def State.loaded (s : State) : Bool := s.live && s.cfg.state == 1

/-- GEN (Table 15.4). -/
def State.regsGen (s : State) : List StReg :=
  [r32 0x48200201, r32 1, r64 Config.serial, r32 0x807FFFFF, rU s.readFailures]

/-- CFG_SLOTx_RESULT (Table 12.15). -/
def SlotResult.word (r : SlotResult) : Nat := r.code + 256 * r.sub + 65536 * r.typ

/-- A slot result reports no failure. -/
def SlotResult.clean (r : SlotResult) : Bool := r.code == 0 || r.code == 0xFF

/-- CFG_STAGE_STATE (Table 12.15). -/
def State.stageState (s : State) : Nat :=
  match s.cfg.staging.map (fun (g : Staging) => g.phase) with
  | none => 0
  | some .checking => 2
  | some .header => 3
  | some _ => 1

/-- CFG (Table 12.15). -/
def State.regsCfg (s : State) : List StReg :=
  let m := s.cfg.image
  let info := s.rec? 0x0010
  let slots := [s.cfg.slots[(0 : Fin 2)], s.cfg.slots[(1 : Fin 2)]]
  let keys := s.cfg.keys.toList
  [r32 s.cfg.state, r32 ((m.map (·.slot)).getD 0xFF), rU ((m.map (·.generation)).getD 0),
    r32 (fieldOr info 12 4 0), r32 (fieldOr info 16 4 0), r64n (fieldOr info 4 8 0),
    rBytes 8 (slice (info.getD []) 56 32), rBytes 8 (slice ((m.map (·.digest)).getD []) 0 32), rU s.cfg.loadTime] ++
  slots.map (fun r => r32 r.word) ++
  slots.map (fun r => if r.clean then r32 0 else rU r.offset) ++
  slots.map (fun r => if r.clean then r32 0 else rU r.field) ++
  slots.map (fun r => rU r.generation) ++
  [rB s.cfg.fallback, rU s.cfg.flashId, rU s.cfg.flashMode,
    r32 (bitsOf (keys.map (·.valid)) + 16 * bitsOf (keys.map (·.revoked)) + 256 * bitsOf (keys.map (·.spoiled)) +
      bitIf s.cfg.keyFull 12 + bitIf (mandatory s.cfg.keys) 13)] ++
  keys.map (fun k => rBytes 8 (slice k.hash 0 32)) ++
  [r32 s.stageState, rU s.cfg.stageResult, rU s.cfg.stageDetail, rU s.cfg.stageSlot, rU s.cfg.stageGeneration,
    rU s.cfg.stages, rU s.cfg.restartRefused]

/-- HLT_FDn_STATE (Table 13.13). -/
def DomSt.code : DomSt → Nat
  | .running => 0 | .waiting => 1 | .attempt => 2 | .permanent => 3 | .idle => 4

/-- HLT_HB_STATE's code of a controller. -/
def CtlSt.code : CtlSt → Nat
  | .active => 0 | .standby => 1 | .failed => 2

/-- HLT (Table 13.13). -/
def State.regsHlt (s : State) : List StReg :=
  let ds := s.hb.doms.toList
  [r32 s.deviceState, r32 s.power.cause, rU s.bbx.boot, r32 s.fenceMask, r32 s.permanentMask] ++
  ds.map (fun d => r32 d.st.code) ++ ds.map (fun d => rU d.faults) ++ ds.map (fun d => r32 d.attempts) ++
  ds.map (fun d => rU d.lastCode) ++ ds.map (fun d => r64 d.lastTime) ++
  [r32 (s.hb.ctlA.code + 4 * s.hb.ctlB.code + bitIf s.hb.bothFailed 4), rU s.hb.digestMismatch,
    r32 s.hb.warnings.length,
    rBytes 8 (slice ((s.hb.warnings.take 32).flatMap fun w => le 4 w.code.toNat) 0 128),
    rB s.healthAsserted, r32 s.hb.faultPending.toNat]

/-- BBX (Table 13.13). -/
def State.regsBbx (s : State) : List StReg :=
  let b := s.bbx
  [r32 b.next, rU b.lastSeq, r32 (validRecs b.slots).length, rU b.dropped, rU b.torn, rU b.hardwired, r32 b.mirrorState,
    rU b.mirrorSeq,
    rBytes 64 ((List.range 512).flatMap fun k => b.recordAt ((b.next + bbxSlots - 1 - k) % bbxSlots))]

/-- Codes of PLL states (Table 4.4). -/
def PllSt.code : PllSt → Nat
  | .off => 0 | .acquire => 1 | .locked => 2 | .coast => 3 | .relock => 4 | .failed => 5

/-- Codes of Table 4.8. -/
def PpsSt.code : PpsSt → Nat
  | .off => 0 | .acquire => 1 | .track => 2 | .holdover => 3

/-- TIM_COAST_TIME: the coast in progress, else the last one (Table 4.15). -/
def State.coastTime (s : State) : U32 :=
  let on := fun (x : PllUnit) => x.st == .coast || x.st == .relock
  if on s.tim.a then s.coastFrom s.tim.a.coastAt else if on s.tim.d then s.coastFrom s.tim.d.coastAt else s.tim.coastMs

/-- TIM (Table 4.15). -/
def State.regsTim (s : State) : List StReg :=
  let t := s.tim
  [r32 t.a.st.code, r32 t.d.st.code, rU t.a.losses, rU t.d.losses, rU s.coastTime, r64 t.time, rU t.wraps, r32 t.pps.code,
    rI t.ppsError, rU t.ppsRejected, rI t.refPpb, rU t.steps, rU t.applied, rU t.confirmed, rU t.mismatch, rU t.frameErrors,
    rB t.slewing, rB t.coarse, rB t.refRange, rB t.syncWaiting, rB t.syncUnaligned, rB t.secondsMismatch]

/-- TIU (Tables 4.15 and 15.3). -/
def State.regsTiu (s : State) : List StReg :=
  let ch := s.tiu.ch.toList
  [r32 (s.tiu.map.toList.foldr (fun m n => m % 16 + 16 * n) 0)] ++ ch.map (fun c => rU c.calReject) ++
  ch.map (fun c => rU c.missed) ++ [rU s.tiu.coarse]

/-- LASER_STATE codes (Table 2.8). -/
def LaserSt.code : LaserSt → Nat
  | .off => 0 | .warming => 1 | .locking => 2 | .tuning => 3 | .settling => 4 | .ready => 5 | .relock => 6 | .fault => 7

/-- OPT (Table 15.5). The TEC's current while it drives is a quantity no command reports. -/
def State.regsOpt (s : State) : List StReg :=
  let o := s.opt
  let cooled := s.loaded && o.laser != .off && o.laser != .fault
  [r32 (o.laser.code + bitIf o.lockDetected 8 + bitIf o.waveClose 9 + bitIf o.dieClose 10), rB o.tecSaturated,
    rI (if s.loaded then 10 * s.tecSetpoint + o.dieError else 0), rI o.dieError, rI o.waveError,
    rI (if cooled then Config.reading 0 s.now else o.tecCurrent), rU o.laserPower, rU o.lockLosses, rU o.relocks, rGap 4] ++
  o.rows.toList.map rU ++ [rGap 0xA8] ++
  bothPorts.flatMap fun p =>
    let x := o.ports[p]
    [rI x.peak, rI x.tsPeak, rU x.loPower, rB x.shutter, r64 x.abortedShots, r64 x.shots, rU x.gateCuts, rGap 0x1C]

/-- SHT_Pn_STATE (Table 3.8). -/
def State.shtState (s : State) (p : Port) : Nat :=
  if !(s.loaded && s.portLaunches p) then 0
  else if s.isShut 4 then 4
  else if !s.sht[p].launched then 1
  else if s.mayEmit p && !s.sht[p].dark then 2 else 3

/-- SHT (Table 3.8). -/
def State.regsSht (s : State) : List StReg :=
  perPort (fun p => r32 (s.shtState p)) ++ perPort (fun p => r32 s.sht[p].admitResult) ++
  perPort (fun p => r64 s.sht[p].groups) ++ perPort (fun p => r64 s.sht[p].groupsSkipped) ++
  perPort (fun p => r64 s.sht[p].tsShots) ++ perPort (fun p => r64 s.sht[p].trigAccepted) ++
  perPort (fun p => r64 s.sht[p].trigLate) ++ perPort (fun p => r64 s.sht[p].trigQueued) ++
  perPort (fun p => r64 s.sht[p].trigDark) ++ perPort (fun p => r64 s.sht[p].tsScheduled) ++
  perPort (fun p => rB s.sht[p].trigTimeout)

/-- ACQn_SLICE_MAP (Table 15.3). -/
def Acq.sliceMap (x : Acq) : Nat :=
  (List.finRange 4).foldr (fun l n =>
    ((List.finRange 4).foldr (fun (k : Fin 4) (m : Nat) => x.serving[l][k] % 8 + 8 * m) 0 + x.spare[l] % 4 * 4096 +
      x.shadow[l] % 4 * 16384) + 65536 * n) 0

/-- ACQn_STATE: acquiring while a record is admitted or held. -/
def State.acqState (s : State) (p : Port) : Nat :=
  if s.isShut (acqDomain p) then 2 else if s.acq[p].records.isEmpty then 0 else 1

/-- ACQn (Table 5.10). -/
def State.regsAcq (s : State) (p : Port) : List StReg :=
  let x := s.acq[p]
  [r32 (s.acqState p), rBytes 8 (le 8 x.sliceMap), r32 x.retired.toNat, r64 x.admitted, r64 x.refused, r32 x.level,
    r32 x.peak, r64 x.clipCount, r64 x.clipRecords, r64 x.eccCorrected, r64 x.eccUncorrected, rU x.substDrops]

/-- CAL_Pn_STATE (Table 5.10). -/
def State.calState (s : State) (p : Port) : Nat :=
  if s.isShut (acqDomain p) then 4
  else if !(s.loaded && s.hasDas p) then 0
  else if s.calMode = 0 then 3
  else if s.acq[p].cal.phaseUpdates < s.acquireUpdates then 1 else 2

/-- Current values of corrections from an index on, as signed fields. -/
def Cal.values (c : Cal) (from_ n size : Nat) : List Byte :=
  (List.range n).flatMap fun i => leInt size (clampInt (8 * size) (c.vals.getD (from_ + i) 0))

/-- X and Y of a correction in one register (Table 15.3). -/
def Cal.pair (c : Cal) (from_ : Nat) : StReg := rBytes 4 (c.values from_ 2 2)

/-- CAL (Table 5.10). -/
def State.regsCal (s : State) : List StReg :=
  let c := fun (p : Port) => s.acq[p].cal
  perPort (fun p => r32 (s.calState p)) ++ perPort (fun p => rB (c p).converged) ++ perPort (fun p => r32 (c p).num) ++
  perPort (fun p => r64 (c p).lastTime) ++ perPort (fun p => rU (c p).updates) ++ perPort (fun p => rU (c p).short) ++
  perPort (fun p => r64 (c p).accepted) ++ perPort (fun p => r64 (c p).rejClip) ++ perPort (fun p => r64 (c p).rejHigh) ++
  perPort (fun p => r64 (c p).rejLow) ++ perPort (fun p => r64 (c p).rejVib) ++ perPort (fun p => rB (c p).limit) ++
  perPort (fun p => rB (c p).starved) ++ perPort (fun p => rBytes 8 ((c p).values 0 20 2)) ++
  perPort (fun p => rBytes 8 ((c p).values 20 20 2)) ++ perPort (fun p => rBytes 4 ((c p).values 40 20 1)) ++
  perPort (fun p => (c p).pair 60) ++ perPort (fun p => rI ((c p).vals.getD 62 0)) ++ perPort (fun p => (c p).pair 63) ++
  perPort (fun p => (c p).pair 65) ++ perPort (fun p => rI ((c p).vals.getD 67 0))

/-- RMN_Pn_STATE (Table 7.12). -/
def State.rmnState (s : State) (p : Port) : Nat :=
  if s.isShut 7 then 3
  else if !(s.loaded && s.hasRaman p) || s.dts[p].biasOff then 0
  else if s.ramanOpen p then 2 else 1

/-- RMN (Table 7.12). -/
def State.regsRmn (s : State) : List StReg :=
  let d := fun (p : Port) => s.dts[p]
  perPort (fun p => r32 (s.rmnState p)) ++
  perPort (fun p => r32 (d p).biasMv[(0 : Fin 2)]) ++ perPort (fun p => r32 (d p).biasMv[(1 : Fin 2)]) ++
  perPort (fun p => r32 (d p).currentUa[(0 : Fin 2)]) ++ perPort (fun p => r32 (d p).currentUa[(1 : Fin 2)]) ++
  perPort (fun p => r32 (d p).gains[(0 : Fin 2)]) ++ perPort (fun p => r32 (d p).gains[(1 : Fin 2)]) ++
  perPort (fun p => r64 (d p).records) ++ perPort (fun p => r64 (d p).ovrSamples) ++ perPort (fun p => r64 (d p).ovrRecords) ++
  perPort (fun p => rU (d p).gainChanges) ++ perPort (fun p => r64 (d p).offsetTime)

/-- PHSn_STATE (Table 6.9): processing while a noticed record waits, stalled on an empty queue otherwise. -/
def State.phsState (s : State) (p : Port) : Nat :=
  if s.isShut (phaseDomain p) then 3
  else if !(s.loaded && s.hasDas p) then 0
  else if s.acq[p].records.any (·.noticed) then 1 else 2

/-- PHSn (Table 6.9). -/
def State.regsPhs (s : State) (p : Port) : List StReg :=
  let x := s.phs[p]
  let on := s.loaded && s.hasDas p
  [r32 (s.phsState p), r32 (if on then s.nPoints p else 0), r32 (if on then s.noiseFloor p else 0), r64 x.records,
    r64 x.rebased, r64 x.clipValues, r64 x.fadedValues, r64 x.rateValues, rU x.darkPoints, rU x.fadedPoints, rU x.cmrSkipped,
    rI x.cmrLast, rU x.latencyPeak, r64 x.decOutputs, r64 x.coarseOutputs, r64 x.decSaturated, r64 x.decMissing]

/-- DTS_Pn_CAL_STATE (Table 7.12, R221). -/
def State.dtsCalState (s : State) (p : Port) : Nat :=
  let d := s.dts[p]
  if !(s.loaded && s.hasRaman p) then 0
  else if (s.spanOf p 0).isNone then 3
  else
    let far := s.tracks p
    if d.near.expired || d.theta.expired || d.near.value.isNone || d.theta.value.isNone || (far && (d.far.expired || d.far.value.isNone)) then 2
    else if d.near.held || d.theta.held || (far && d.far.held) then 1 else 0

/-- DTS_Pn_HOLD_REMAINING: seconds left until the first of the port's holds expires. Log entry 128, DEDUCED. -/
def State.holdRemaining (s : State) (p : Port) : Nat :=
  let d := s.dts[p]
  let ends := ([d.near, d.theta] ++ if s.tracks p then [d.far] else []).filterMap fun r =>
    if r.expired then some 0 else r.lostAt.map fun t => (t + s.refHold p * secP - s.now) / secP
  match ends with
  | [] => 0
  | e :: t => t.foldl min e

/-- DTS (Table 7.12). -/
def State.regsDts (s : State) : List StReg :=
  let d := fun (p : Port) => s.dts[p]
  let on := fun (p : Port) => s.loaded && s.hasRaman p
  perPort (fun p => r32 (if s.isShut 10 then 2 else if on p then 1 else 0)) ++
  perPort (fun p => r32 (if on p then s.nTherm p else 0)) ++ perPort (fun p => r64 (d p).profiles) ++
  perPort (fun p => rU (d p).emptyUpdates) ++ perPort (fun p => r64 (d p).lastTime) ++ perPort (fun p => rI (d p).refTemp) ++
  perPort (fun p => rU (toFloat32 13 (d p).delta)) ++ perPort (fun p => rI (pickRound 18 (d p).diffAtt)) ++ perPort (fun p => rU (d p).deltaSteps) ++
  perPort (fun p => r32 (s.dtsCalState p)) ++ perPort (fun p => r32 (s.holdRemaining p)) ++
  perPort (fun p => rB (d p).refFit) ++ perPort (fun p => rB (d p).saturated) ++
  [r64 s.battCorrected, r64 s.battUncorrected]

/-- EVT_Pn_BREAK: a break is declared, its EVENT record having been formed (R257). -/
def State.breakShown (s : State) (p : Port) : Bool :=
  s.evt.ports[p].brk.stands && !s.evt.due.any fun e => e.tells.port == p && e.tells.kind == 2

/-- EVT (Table 8.9). -/
def State.regsEvt (s : State) : List StReg :=
  let e := fun (p : Port) => s.evt.ports[p]
  [r32 (if s.isShut 11 then 2 else if s.evt.running then 1 else 0)] ++
  perPort (fun p => r32 (if s.loaded then s.zoneCount p else 0)) ++
  perPort (fun p => r32 ((e p).pairs.filter (·.on)).length) ++ perPort (fun p => r64 (e p).windows) ++
  perPort (fun p => r64 (e p).unassessed) ++ [r64 s.evt.events, rU s.evt.sequence] ++
  perPort (fun p => r32 ((e p).brk.established.getD 0xFFFFFFFF)) ++ perPort (fun p => rB (s.breakShown p)) ++
  perPort (fun p => r32 (e p).brk.point) ++ perPort (fun p => rU (e p).brk.breaks) ++
  [r32 (bitsOf (s.alarms.toList.map (·.asserted)) + 16 * bitsOf (s.alarms.toList.map (·.latched)) +
    256 * bitsOf (s.alarms.toList.map fun a => a.fenced || a.waits))] ++
  s.alarms.toList.map (fun a => rU a.asserts) ++
  [r64 s.evt.notices, rU s.evt.snapTaken, rU s.evt.snapSkipped, rU s.evt.snapTruncated, rU s.evt.latencyPeak]

/-- FAB_U_WITHDRAWN_MS. -/
def State.withdrawnMs (s : State) : Nat :=
  (s.fab.withdrawn + (if s.fab.uBound then 0 else s.now - s.fab.withdrawnAt)) / msP % 2 ^ 32

/-- FAB_DROP_LOG, entry 0 first; FAB_DROP_INDEX is the entry to be written next (R284). -/
def Fab.logBytes (f : Fab) : List Byte :=
  (List.range 256).flatMap fun i => ((f.log[(f.dropIndex + 255 - i) % 256]?).map DropEntry.bytes).getD (List.replicate 16 0)

/-- FAB (Table 9.8). -/
def State.regsFab (s : State) : List StReg :=
  let f := s.fab
  let rg := f.regions.toList
  [rg.map fun x => r32 x.margin, rg.map fun x => r32 x.marginMin, [r32 (bitsOf (rg.map (·.low)))],
    rg.map fun x => r32 x.vcore, rg.map fun x => rI x.tj,
    [r32 (bitsOf (f.seams.toList.map (·.beyond))), r32 (bitsOf (f.seams.toList.map (·.ever))), rB f.uBound,
      r32 s.withdrawnMs, r64 f.uFlits, rU f.uErrors, rU f.uLate],
    (List.finRange 4).flatMap fun c => perPort fun p => r64 f.ports[p].counts[c],
    perPort fun p => r64 f.ports[p].entryLost, perPort fun p => r64 f.ports[p].ramanLost,
    [r32 f.dropIndex, rBytes 16 f.logBytes, r64 f.linkCorrected, r64 f.sDiscards, rU f.bFailed, r32 f.linkFault.toNat,
      r64 f.fencedDiscards, r32 f.stall.toNat]].flatten

/-- MEM_STATE (Table 10.12). -/
def State.memState (s : State) : Nat :=
  if s.isShut 13 then 5
  else match s.mem.st with
    | .off => 0 | .starting => 1 | .running => 2 | .selfRefresh => 3 | .characterised => 4 | .fenced => 5

/-- MEM_RINGn_NEXT: offset within the ring of the segment being written, or to be written next. -/
def Ring.next (r : Ring) : Nat :=
  let n := max 1 (r.size / 4096)
  (match r.openSeg with | some x => (x.seq - 1) % n | none => r.seq % n) * 4096

/-- MEM_RINGn_FRAME: F of an uncompressed ring (R315). -/
def State.ringFrame (s : State) (k : Nat) : Nat :=
  if h : k < 2 then
    let p : Port := ⟨k, h⟩
    if s.loaded && s.histSizeMiB k != 0 && s.histCoding k == 0 then
      let n := s.ringPoints p
      up4 (n * valueBytes (s.histProduct k)) + (if s.histQuality k = 1 then up4 ((n + 1) / 2) else 0)
    else 0
  else 0

/-- MEM_RT_LOAD, kB/s (R309). -/
def State.rtLoad (s : State) : Nat := if s.loaded then (s.realTimeLoad 3 / 1000).floor.toNat else 0

/-- MEM_SWEEP (Table 15.3): both 0xFFFF where no value passed or none was measured in a sweep. -/
def State.sweepBytes (s : State) : List Byte :=
  if s.mem.sweep.isEmpty then List.replicate 288 0
  else (List.range 72).flatMap fun i =>
    match s.mem.sweep[i]? with
    | some e => le 2 e.1 ++ le 2 e.2
    | none => le 4 0xFFFFFFFF

/-- MEM (Table 10.12). -/
def State.regsMem (s : State) : List StReg :=
  let m := s.mem
  let rings := (List.range 4).map m.ring
  [r32 s.memState, r32 (verifyWord m.verify), rBytes 8 s.sweepBytes,
    r32 (if s.loaded then s.capacity / 2 ^ 20 else 0), rI m.temp, rB m.hot, rB m.tempFault, r64 m.preempt, rU m.srEntries,
    rU m.srAbandoned, r32 m.queueLevel, rU m.queuePeak, r32 m.panic, r64 m.discards, r32 s.rtLoad] ++
  m.ports.toList.map (fun x => r64 x.accesses) ++ m.ports.toList.map (fun x => rU x.overdue) ++
  [r64 m.eccCorrected, r64 m.eccUncorrected, r64 m.eccLastAddr, r64n m.scrubAddr] ++
  rings.map (fun r => r64n r.base) ++ rings.map (fun r => r64n r.size) ++ rings.map (fun r => r64n r.closed) ++
  rings.map (fun r => r64n r.next) ++ (List.range 4).map (fun k => r32 (s.ringFrame k)) ++
  [rU m.copied, rU (((m.stored.find? fun x => x.closedAt.isSome).map (·.id)).getD 0)]

/-- CMP_Pn_STATE (Table 11.22): coding while the port has a coded consumer. -/
def State.cmpState (s : State) (p : Port) : Nat :=
  if s.isShut 12 then 2 else if s.loaded && s.codedConsumers.any (fun c => c.2.2.contains p) then 1 else 0

/-- CMP (Table 11.22). -/
def State.regsCmp (s : State) : List StReg :=
  let c := fun (p : Port) => s.cmp[p]
  perPort (fun p => r32 (s.cmpState p)) ++ perPort (fun p => r64 (c p).blocks) ++ perPort (fun p => r64 (c p).flushed) ++
  perPort (fun p => r64 (c p).overflowed) ++ perPort (fun p => r64 (c p).escapes) ++
  perPort (fun p => rBytes 4 (le 1 0 ++ (c p).emaxPeak.toList.flatMap fun e => le 1 (clampNat 255 e))) ++
  perPort (fun p => rU (c p).lost)

/-- OUT_PCIE_STATE (Table 15.3). -/
def State.pcieState (s : State) : Nat :=
  let x := s.pcie
  let st := if !s.pciePresent then 0 else if s.isShut 14 then 3
    else match x.link with | .off => 0 | .training => 1 | .up => 2
  st + (if st = 2 then x.speed % 16 * 16 + x.width % 16 * 256 else 0) + bitIf x.d3hot 16

/-- OUT_ETHn_STATE. -/
def State.ethState (s : State) (l : Lane) : Nat :=
  if !(s.loaded && (s.ethRec l).isSome) then 0 else if s.isShut 15 then 3 else if s.lanes[l].up then 2 else 1

/-- OUT_ROUTEn_STATE. -/
def State.routeState (s : State) (r : RouteId) : Nat :=
  if !(s.loaded && (s.routeRec r).isSome) then 0
  else if !s.laneUp (s.routeLane r) then 3
  else if (s.routeMac r).isNone then 1 else 2

/-- OUT (Table 11.22). FEC codewords are counted by the line; no command reports them. -/
def State.regsOut (s : State) : List StReg :=
  let lanes : List Lane := [0, 1]
  let x := fun (l : Lane) => s.lanes[l]
  let fec := fun (l : Lane) (bad : Bool) => if s.ethState l = 0 then r64 0 else r64 (Config.fecCount l bad s.now)
  [[r32 s.pcieState, r64 s.pcie.bar2Reads, rU s.pcie.poisoned, rU s.pcie.ur, rU s.pcie.writesDiscarded],
    s.pcie.msix.toList.map fun v => rU v.sent,
    lanes.map fun l => r32 (s.ethState l), lanes.map fun l => fec l false, lanes.map fun l => fec l true,
    lanes.map fun l => r64 (x l).txFrames, lanes.map fun l => r64 (x l).rxFrames, lanes.map fun l => r64 (x l).rxDiscards,
    lanes.map fun l => rU (x l).bufferPeak, lanes.map fun l => rU (x l).arpFails,
    allRoutes.map fun r => r32 (s.routeState r), allRoutes.map fun r => rU s.routes[r].seq,
    allRoutes.map fun r => r64 s.routes[r].records, allRoutes.map fun r => r64 s.routes[r].lost,
    allRoutes.map fun r => rU s.routes[r].load, [rU s.mgmt.requests, rU s.mgmt.dropped]].flatten

/-- Codes of Table 14.2. -/
def AlsSt.code : AlsSt → Nat
  | .idle => 0 | .probe => 1 | .sensing => 2 | .shutdown => 3 | .held => 4 | .disabled => 5 | .suspended => 6

/-- PNL_FRAMES: frames scanned. Log entry 98, DEDUCED. -/
def State.framesScanned (s : State) : U64 :=
  s.pnl.frames + BitVec.ofNat 64 (if s.panelOn then s.frameIndex s.now else 0)

/-- LED states, two bits each, first LED in the low bits. -/
def packLeds : List Nat → List Byte
  | a :: b :: c :: d :: t => BitVec.ofNat 8 (a % 4 + 4 * (b % 4) + 16 * (c % 4) + 64 * (d % 4)) :: packLeds t
  | _ => []

/-- PNL (Table 14.12). -/
def State.regsPnl (s : State) : List StReg :=
  let x := s.pnl
  let a := fun (p : Port) => s.als[p]
  let keys := x.keys.toList
  [r32 (if s.isShut 17 then 2 else if x.running then 1 else 0),
    r32 (bitsOf (s.permits.asserted.toList ++ [s.hardPermit 0, s.hardPermit 1]))] ++
  s.permits.opens.toList.map rU ++ perPort (fun p => r32 (a p).st.code) ++ perPort (fun p => rU (a p).shutdowns) ++
  perPort (fun p => rU (a p).probes) ++ perPort (fun p => rU (a p).probeFails) ++ perPort (fun p => r64 (a p).shutdownTime) ++
  perPort (fun p => rU (a p).shutdownPoint) ++ [r32 (bitsOf (keys.map (·.pressed)))] ++ keys.map (fun k => rU k.presses) ++
  [rU x.keyIgnored, r32 x.brightness, r64 s.framesScanned, r64 x.swaps,
    rBytes 8 (packLeds (x.leds.toList.map (·.state))), r32 (x.leds.toList.filter fun l => l.state == 2).length] ++
  x.trims.toList.map r32 ++
  [rBytes 8 (x.colourLast.toList.flatMap fun m => le 2 (clampNat 0xFFFF m)), r64 x.colourTime, rB x.sensorFault, rB x.trimLimit]

/-- PLK_STATE. -/
def State.plkState (s : State) : Nat :=
  let x := s.plk
  if s.isShut 16 then 4 else if !x.attached then 0 else if !x.configured then 1 else if x.highSpeed then 2 else 3

/-- PLK (Table 14.12). -/
def State.regsPlk (s : State) : List StReg :=
  let x := s.plk
  [r32 s.plkState, r32 (0x48200000 + Config.usbVendor.toNat), rB x.vbus, rU x.attaches, r32 (x.dfu.number + 256 * x.status),
    rU x.blocks, rU x.requests, rU x.requestsDiscarded, rU x.restarts]

/-- An entry of SUP_BUF (Table 7.9). -/
def SupEntry.bytes (e : SupEntry) : List Byte := le 8 e.time.toNat ++ le 1 e.channel ++ le 1 e.flags ++ le 2 0 ++ leInt 4 e.value

/-- SUP_BUF, entry 0 first (R236). -/
def Sup.bufBytes (x : Sup) : List Byte :=
  (List.range 1024).flatMap fun i =>
    ((x.buf[(x.bufIndex + 1023 - i) % 1024]?).map SupEntry.bytes).getD (List.replicate 16 0)

/-- SUP (Table 7.12). -/
def State.regsSup (s : State) : List StReg :=
  let x := s.sup
  let inp := x.inputs.toList
  [r32 (if s.isShut 18 then 3 else if x.converting then 1 else if s.loaded && s.supLowPower == 1 then 2 else 0), rU x.passTime] ++
  x.last.toList.map rI ++ inp.map (fun t => rB (t.broken != 0)) ++ inp.map (fun t => rU t.breaks) ++
  inp.map (fun t => rU t.overrange) ++ [rU x.trigSkipped, r32 x.bufIndex, rBytes 16 x.bufBytes]

/-- MBX_STATUS (Table 15.7). -/
def State.mbxStatus (s : State) : Nat :=
  let x := s.mbx
  let st := if (s.power.request.map fun r => r.1 == 3).getD false then 3
    else match s.mbxStaging.map (fun (g : Staging) => g.phase) with
      | none => 0
      | some .checking => 2
      | some .header => 2
      | some _ => 1
  bitIf x.unlocked 0 + bitIf x.busy 1 + bitIf x.done 2 + 16 * st + 256 * (x.resultOf % 256) + 65536 * (x.result % 256)

/-- MSI-X entries and pending bits (R355, R358). -/
def Pcie.msixBytes (x : Pcie) : List Byte :=
  (x.msix.toList.flatMap fun v => le 8 v.addr.toNat ++ le 4 v.data.toNat ++ le 4 v.control.toNat)
def Pcie.pbaBytes (x : Pcie) : List Byte := le 8 (bitsOf (x.msix.toList.map (·.pending)))

/-- MBX (Table 15.7). -/
def State.regsMbx (s : State) : List StReg :=
  let x := s.mbx
  [r32 0, rU x.command, rU x.arg, rU x.block, r32 s.mbxStatus, rU x.detail, rU x.nextBlock, rU x.bytes, rU x.ops, rU x.rejected,
    rGap (0x1000 - 0x28), rBytes 4 (slice x.data 0 4096), rGap 0xD000, rBytes 4 s.pcie.msixBytes, rGap (0x800 - 128),
    rBytes 4 s.pcie.pbaBytes]

/-- The registers of the block at base k · 0x1_0000 (Table 15.1).
Log entry 36, DESIGN CHOICE; log entry 57, DEDUCED; log entry 99, DEDUCED. -/
def State.regsOf (s : State) (k : Nat) : List StReg :=
  match k with
  | 0x00 => s.regsGen | 0x01 => s.regsCfg | 0x02 => s.regsHlt | 0x03 => s.regsBbx | 0x04 => s.regsTim | 0x05 => s.regsTiu
  | 0x06 => s.regsOpt | 0x07 => s.regsSht | 0x08 => s.regsAcq 0 | 0x09 => s.regsAcq 1 | 0x0A => s.regsRmn
  | 0x0B => s.regsPhs 0 | 0x0C => s.regsPhs 1 | 0x0D => s.regsDts | 0x0E => s.regsEvt | 0x0F => s.regsFab | 0x10 => s.regsMem
  | 0x11 => s.regsCmp | 0x12 => s.regsOut | 0x13 => s.regsPnl | 0x14 => s.regsPlk | 0x15 => s.regsSup | 0x16 => s.regsCal
  | 0x1F => s.regsMbx | _ => []

/-! ## Placement and reads -/

/-- Registers placed at the lowest aligned offset after the one before (R452 step 5). -/
def placeRegs : Nat → List StReg → List (Nat × StReg)
  | _, [] => []
  | at0, r :: t =>
    let o := (at0 + r.align - 1) / r.align * r.align
    (o, r) :: placeRegs (o + r.bytes.length) t

/-- A 32-bit word of placed registers through a latch: the low word of a 64-bit register latches the high word, the high word reads
the latch, and padding reads zero (R14, R353). -/
def wordAt (regs : List (Nat × StReg)) (off : Nat) (latch : U32) : List Byte × U32 :=
  match regs.find? fun e => decide (e.1 ≤ off) && decide (off < e.1 + e.2.bytes.length) with
  | none => (List.replicate 4 0, latch)
  | some (o, r) =>
    if r.wide then
      if off = o then (slice r.bytes 0 4, BitVec.ofNat 32 (fieldAt r.bytes 4 4)) else (le 4 latch.toNat, latch)
    else (slice r.bytes (off - o) 4, latch)

/-- Words in ascending address order (R353). -/
def State.readWords (s : State) : Nat → Nat → U32 → List Byte × U32
  | 0, _, latch => ([], latch)
  | n + 1, off, latch =>
    let w := wordAt (placeRegs 0 (s.regsOf (off / 0x10000))) (off % 0x10000) latch
    let t := s.readWords n (off + 4) w.2
    (w.1 ++ t.1, t.2)

/-- The latch of an access path. -/
def pathIndex : AccessPath → Fin 4
  | .pcie => 0 | .mgmt0 => 1 | .mgmt1 => 2 | .placket => 3

/-- A status read of bytes on a path: the containing words are read, and the path's latch with them (R355).
Log entry 84, DEDUCED. -/
def State.statusRead (s : State) (path : AccessPath) (offset length : Nat) : List Byte × State :=
  let first := offset / 4
  let n := (offset + length + 3) / 4 - first
  let r := s.readWords n (4 * first) s.latches[(pathIndex path)]
  (slice r.1 (offset % 4) length, { s with latches := s.latches.set (pathIndex path) r.2 })

/-- End of what management and placket requests may read (R461). -/
def statusEnd : Nat := 0x1FF000

/-- COUNTER_LOW_WORD_READ (R14, R353, R355, R460): a read of the status space on one access path. A read through BAR0 is
completed here; on the other paths the answer is the request's own row. A transfer that fails twice is answered with the error
response and leaves the latch. Log entry 84, DEDUCED. -/
def execCounterLowWordRead (dt : Nat) (path : AccessPath) (offset length : Nat) (failed : Bool) (s : State) :
    Host.Outcome State Fault Refusal :=
  let s := s.elapse dt
  match path with
  | .pcie =>
    if !(s.pciePresent && s.pcie.link == .up) then .next s
    else if !inWindow bar0Bytes offset length then .fault .outsideWindow
    else if !s.pcieServes then .next s.completeUr
    else if failed then
      let s := { s with
        readFailures := s.readFailures + 1, pcie := { s.pcie with poisoned := s.pcie.poisoned + 1 } }
      .next ((s.send (.completion (.poisoned (List.replicate length 0xFF)))).msixEvent 7)
    else
      let r := s.statusRead .pcie offset length
      .next (r.2.send (.completion (.data r.1)))
  | p =>
    if !s.live || statusEnd < offset + length then .next s
    else if failed then .next { s with readFailures := s.readFailures + 1 }
    else .next (s.statusRead p offset length).2

end Sys2Proof.Machine
end

