-- ==== Sys2Proof/Machine/Fence.lean ====
section
/-! DEFINITION. Fencing and recovery (R406, R407, R413, R414): the boundary each domain presents when its agent closes the fence
(Table 13.4), the recovery sequences (Table 13.5), and the clearing of warnings (R416). -/

namespace Sys2Proof.Machine

/-! ## Boundaries (Table 13.4) -/

/-- The laser and TEC currents go off, LASER_STATE FAULT; both ports are dark (FD02). -/
def State.laserFault (s : State) : State :=
  s.gatesOff.setOpt fun o => { o with laser := .fault, lockDetected := false, tecCurrent := 0, waveFault := none }

/-- Acquisition of a port is fenced (R145, R158, R198, R315): waiting samples leave, the queue is discarded, the ring pauses.
Log entry 42, DEDUCED. -/
def State.acqFence (s : State) (p : Port) : State :=
  let s := (s.flushPort p).pauseRing (dasRing p)
  (s.discardQueue p).setAcq p fun x => { x with pendingSubst := [] }

/-- PLL-A presents R110: an acquisition that a failed attempt leaves is ended (Table 13.5). -/
def State.stopAcquire (s : State) : State :=
  if s.tim.a.st = .acquire then s.setPll .a fun x => { x with st := .failed } else s

/-- RMN is fenced: APD biases off, no Raman records (R238). -/
def State.ramanOff (s : State) : State := bothPorts.foldl (fun s p => (s.ramanFence p).biasOff p) s

/-- EVT is fenced (R253): the alarm outputs take their fence states while a controller acts, its notices end, and ports with
automatic laser shutdown are suspended. -/
def State.evtFence (s : State) : State :=
  let s := if s.hatbandActs then s.alarmsFence else s
  let s := s.setEvt fun e => { e with notice := none, due := [] }
  let s := s.setUrgent fun u => { u with lost := u.lost.set 0 false }
  bothPorts.foldl State.alsSuspend s

/-- CMP is fenced: no blocks, and coded rings pause (R345). -/
def State.coderFence (s : State) : State :=
  bothPorts.foldl (fun s p => if s.histCoding p.val = 0 then s else s.pauseRing (dasRing p)) s.dropCoders

/-- Host reads that wait complete without data (R321, R357). -/
def State.endHostReads (s : State) : State :=
  let k := s.mem.host.length
  let s := s.setMem fun m => { m with host := [] }
  (List.range k).foldl (fun s _ => s.completeUr) s

/-- MEM is fenced: no DRAM accesses; what was on its way is discarded (R321). -/
def State.memFence (s : State) : State :=
  let n := ((List.finRange 3).map fun r => (s.mem.items[r].map fun i => flits i.size).sum).sum
  let s := (s.fencedFlits n).endHostReads
  s.setMem fun m =>
    { m with
      st := .fenced, rt := [], rtMid := false, snap := [], scrub := none, requests := [], copying := none
      items := Vector.replicate 3 [] }

/-- PCI Express is fenced: memory requests end as unsupported, and a staging of the mailbox ends with code 7 (R357, R391). -/
def State.pcieFence (s : State) : State := (s.endHostReads.stageAbort .mailbox).mbxLock

/-- The panel is fenced: drivers off, keys and sensor ignored; ports with automatic laser shutdown are suspended. -/
def State.panelFence (s : State) : State :=
  let s := { s with pnl := { s.pnl with
    lampTest := none, colourPhase := none, colourCounts := []
    keys := s.pnl.keys.map fun k => { k with pressed := false, acted := false } } }
  bothPorts.foldl State.alsSuspend s

/-- A domain is driven to its boundary. The agent's fence is already closed when this acts. Log entry 90, DEDUCED. -/
def State.boundary (s : State) (d : Domain) : State :=
  match d.val with
  | 0 => s.closePort 0
  | 1 => s.closePort 1
  | 2 => s.laserFault
  | 3 => s.gatesOff.stopAcquire
  | 4 => bothPorts.foldl (fun s p => s.setSht p fun x => { x with missed := true }) s.gatesOff
  | 5 => s.acqFence 0
  | 6 => s.acqFence 1
  | 7 => s.ramanOff
  | 8 => (s.flushPort 0).pauseRing (dasRing 0)
  | 9 => (s.flushPort 1).pauseRing (dasRing 1)
  | 10 => bothPorts.foldl State.ramanFence s
  | 11 => s.evtFence
  | 12 => s.coderFence
  | 13 => s.memFence
  | 14 => s.pcieFence
  | 15 => (s.dropLane 0).dropLane 1
  | 16 => s.plkDetach
  | 17 => s.panelFence
  | 18 => (s.setSup fun x => { x with converting := false }).loseAll
  | _ => s

/-- A domain is fenced permanently (R413). Log entry 92, DEDUCED. -/
def State.makePermanent (s : State) (d : Domain) : State :=
  let x := s.dom d
  let s := s.setDom d fun x => { x with st := .permanent }
  let s := s.healthRecord 4 d.val x.lastCode 0
  let s := s.record (s.bbxRec 0x0023 d.val x.lastCode 0 (le 4 x.attempts ++ le 4 0))
  s.msixEvent 5

/-- Delay before an attempt, ms: doubled at each attempt, at most an hour (R413). -/
def State.recoveryMs (s : State) (attempts : Nat) : Nat := min (s.recoveryDelay * 2 ^ attempts) 3600000

/-- A domain newly fenced, or whose attempt has failed, waits for its next attempt or is fenced permanently (R413).
After a failed attempt its boundary is driven again (R407). -/
def State.scheduleRecovery (s : State) (d : Domain) : State :=
  let x := s.dom d
  let s := if x.st = .attempt then s.boundary d else s
  if bitOf s.noRecovery d.val || x.attempts ≥ s.recoveryLimit then s.makePermanent d
  else s.setDom d fun x => { x with st := .waiting, readyAt := s.now + s.recoveryMs x.attempts * msP }

/-- One fault report reaches the active controller; `mask` is the fence mask after this step's command (R413, R415). -/
def State.handleReport (mask : Nat) (s : State) (f : FaultRep) : State :=
  let d := f.domain
  let x := s.dom d
  let fenced := x.fenced
  let s := s.record (s.bbxRec (if fenced then 0x0040 else 0x0020) d.val f.code f.value (le 4 mask))
  let s := s.setDom d fun x => { x with faults := x.faults + 1, lastCode := f.code, lastTime := s.devTime }
  match x.st with
  | .permanent | .waiting => s
  | .attempt => s.scheduleRecovery d
  | .running | .idle =>
    let s := (s.healthRecord 2 d.val f.code f.value).msixEvent 5
    s.scheduleRecovery d

/-- The states the hatband sends (Table 9.4): the fence mask, the fence states of the alarm outputs, and which controller acts. -/
def State.hbTells (s : State) : HbNotice :=
  let mask := BitVec.ofNat 20 s.fenceMask
  { mask := mask, outputs := Vector.ofFn fun o => if mask.getLsbD 11 then some (s.alarmFenceState o) else none
    active := if s.hb.ctlA = .active then some .a else if s.hb.ctlB = .active then some .b else none }

/-- The active controller forms a notice of its states; it replaces one that has not been delivered (R272). -/
def State.hbNotice (s : State) : State := { s with hb := { s.hb with notice := some s.hbTells } }

/-- The source that sends the hatband's commands. -/
def State.hbSource (s : State) : USource := if s.hb.ctlA = .active then .hbA else .hbB

/-- FAULT_REPORT (R413, R415): every report on the lines is handled in one step, and the domains not yet fenced are fenced by
one command. After the both-failed latch the reports only set HLT_FAULT_PENDING (R412); while neither controller acts
they stay on the lines. -/
def execFaultReport (dt : Nat) (extra : List FaultRep) (s : State) : Host.Outcome State Fault Refusal :=
  let s := s.elapse dt
  let l := s.hb.reports ++ extra
  if !s.live then .next s
  else if s.hb.bothFailed then
    .next { s with hb := { s.hb with reports := [], faultPending := s.hb.faultPending ||| reportMask l } }
  else if s.hatbandActs then
    let new := reportMask (l.filter fun f => !(s.dom f.domain).fenced)
    let mask := s.fenceMask ||| new.toNat
    let s := l.foldl (State.handleReport mask) { s with hb := { s.hb with reports := [] } }
    .next (if new = 0 then s else s.hbNotice)
  else .next { s with hb := { s.hb with reports := l } }

/-- RECOVERY_OVERRUN (R414): an attempt that overruns its Max has failed. -/
def execRecoveryOverrun (dt : Nat) (d : Domain) (s : State) : Host.Outcome State Fault Refusal :=
  let s := s.elapse dt
  if s.live && s.hatbandActs && (s.dom d).st == .attempt && decide ((s.dom d).begun + recoveryMax d * msP ≤ s.now) then
    .next (s.scheduleRecovery d)
  else .next s

/-- One domain named by a fence command (R406): its agent closes the fence and drives the boundary. Notices carry states, so that a
repeated command changes nothing, and a domain that has recovered since is left alone (R411). The frames of the panel's scan are
counted up to its fence. -/
def State.fence (s : State) (d : Domain) : State :=
  if (s.dom d).fenced && !s.isShut d then
    let n := s.framesScanned
    let s := (s.setDom d fun x => { x with shut := true }).boundary d
    if d = 17 then { s with pnl := { s.pnl with frames := n } } else s
  else s

/-- The hatband's states reach their sinks (R272): the agents of the domains named act on them. -/
def State.hbReaches (s : State) (n : HbNotice) : State :=
  allDomains.foldl (fun s d => if n.mask.getLsbD d.val then s.fence d else s) (s.setUrgent fun u => { u with hb := some n })

/-- FENCE_COMMAND (R406, R408): the command on its way reaches the agents of the domains it names.
Log entry 88, DEDUCED. -/
def execFenceCommand (dt : Nat) (s : State) : Host.Outcome State Fault Refusal :=
  let s := s.elapse dt
  match s.hb.notice with
  | none => .next s
  | some n =>
    if s.live && s.mayInject s.hbSource then
      .next (({ s with hb := { s.hb with notice := none } }.injected s.hbSource).hbReaches n)
    else .next s

/-! ## Recovery (Table 13.5) -/

/-- The clock a domain's recovery waits on runs (Table 13.5): clocks of PLL-A run once it has reached a control value, and CK_DAC
stops with FD03 (R104, R110). CK_REF, CK_PCIE and CK_USB come from outside: the command says that they run.
Log entry 89, DEDUCED. -/
def State.clockRuns (s : State) (d : Domain) : Bool :=
  match d.val with
  | 0 | 1 => s.tim.a.controlled && !s.isShut 3
  | 4 | 5 | 6 | 7 | 17 | 18 | 19 => s.tim.a.controlled
  | _ => true

/-- A recovery sequence begins (Table 13.5). Domains not named do everything at the sequence's end. Log entry 90, DEDUCED. -/
def State.recoverBegin (s : State) (d : Domain) : State :=
  match d.val with
  | 2 => s.setOpt fun o => { o with laser := .warming }
  | 3 => s.pllRelease .a
  | 7 => bothPorts.foldl (fun s p => s.dtsStart p true) s
  | 13 =>
    let s := s.setMem fun m => { m with st := .off, verified := false, verify := ⟨0, 0, 0, 0, false⟩ }
    if s.tim.d.st = .failed then s.pllRelease .d else s
  | _ => s

/-- An attempt in progress at a takeover starts again from its beginning, without being counted again (R411). -/
def State.restartAttempts (s : State) : State :=
  allDomains.foldl (fun s d =>
    if (s.dom d).st = .attempt then ((s.setDom d fun x => { x with begun := s.now }).boundary d).recoverBegin d else s) s

/-- A controller is declared failed by the other: takeover when it was active, and the record, HEALTH record and warning of
R411. `reason` is that of Table 13.10. -/
def State.ctlFailed (s : State) (c : Ctl) (reason : Nat) : State :=
  let isA := c == .a
  let was := if isA then s.hb.ctlA else s.hb.ctlB
  let other := if isA then s.hb.ctlB else s.hb.ctlA
  if was = .failed then s
  else if other = .failed then
    if isA then { s with hb := { s.hb with ctlA := .failed } } else { s with hb := { s.hb with ctlB := .failed } }
  else
    let takeover := was == .active
    let s := if isA then { s with hb := { s.hb with ctlA := .failed, ctlB := .active } }
      else { s with hb := { s.hb with ctlB := .failed, ctlA := .active } }
    let s := if takeover then s.hbNotice.restartAttempts else s
    let v : U32 := if isA then 0 else 1
    let s := s.record (s.bbxRec 0x0030 0xFF 0x00020001#32 v (le 4 v.toNat ++ le 4 reason ++ le 4 (if takeover then 1 else 0)))
    let s := s.healthRecord 5 0xFF 0x00020001#32 v
    s.warn 0x00020001#32 v true

/-- HB_ALIVE_MISSED (R410, R411): four consecutive strobes of a controller were missed. -/
def execHbAliveMissed (dt : Nat) (c : Ctl) (s : State) : Host.Outcome State Fault Refusal :=
  let s := s.elapse dt
  if s.live && !s.hb.bothFailed then .next (s.ctlFailed c 0) else .next s

/-- HB_SELF_CHECK_FAIL (R409): the copies of a controller disagree; it stops acting and its strobe, and the other declares it
failed. -/
def execHbSelfCheckFail (dt : Nat) (c : Ctl) (s : State) : Host.Outcome State Fault Refusal :=
  let s := s.elapse dt
  if s.live && !s.hb.bothFailed then .next (s.ctlFailed c 1) else .next s

/-- HB_SELF_TEST_DONE (R410, R411): both pass and the event is counted; one fails and is declared failed; both fail and
neither acts, so that the watchdog of R412 follows. -/
def execHbSelfTestDone (dt : Nat) (aOk bOk : Bool) (s : State) : Host.Outcome State Fault Refusal :=
  let s := s.elapse dt
  if s.live && s.hb.selfTest then
    let s := { s with hb := { s.hb with selfTest := false } }
    match aOk, bOk with
    | true, true => .next { s with hb := { s.hb with digestMismatch := s.hb.digestMismatch + 1 } }
    | false, true => .next (s.ctlFailed .a 2)
    | true, false => .next (s.ctlFailed .b 2)
    | false, false => .next { s with hb := { s.hb with ctlA := .failed, ctlB := .failed } }
  else .next s

/-- RECOVERY_ATTEMPT (R413, R414): the delay has passed and the domain's clock runs, so that its recovery sequence starts.
Log entry 88, DEDUCED. -/
def execRecoveryAttempt (dt : Nat) (d : Domain) (s : State) : Host.Outcome State Fault Refusal :=
  let s := s.elapse dt
  let x := s.dom d
  if s.live && s.hatbandActs && x.st == .waiting && x.shut && decide (x.readyAt ≤ s.now) && s.clockRuns d then
    let s := s.setDom d fun x => { x with st := .attempt, attempts := x.attempts + 1, begun := s.now }
    let s := s.record (s.bbxRec 0x0021 d.val x.lastCode 0 (le 4 (x.attempts + 1) ++ le 4 0))
    .next (s.recoverBegin d)
  else .next s

/-- What a sequence must have reached before it ends (Table 13.5). -/
def State.recoveryReady (s : State) (d : Domain) : Bool :=
  match d.val with
  | 2 => s.opt.laser == .ready
  | 3 => s.tim.a.st == .locked
  | 13 => s.mem.st == .running || s.mem.st == .characterised
  | _ => true

/-- A port's launch side returns: the shutter has been tested closed and then open, and stays open where ALS lets it; the first group
launched carries REBASED (R95). Log entry 91, DEDUCED. -/
def State.launchRecover (s : State) (p : Port) : State :=
  (if s.alsPermits p then s.openShutter p else s).requestRebase p

/-- The sequencers are reset and resume at the next scheduled group or call, with REBASED (R97); starts that P1 was still to follow are
skipped (R88). -/
def State.shtRecover (s : State) : State :=
  bothPorts.foldl (fun s p => (s.setSht p fun x =>
    { x with
      nextGroup := x.nextGroup + BitVec.ofNat 48 x.linked.length
      groupsSkipped := x.groupsSkipped + BitVec.ofNat 64 x.linked.length
      group := none, edge := none, calls := [], lateIgnored := false, prescaled := 0, linked := [], callAt := s.now }).requestRebase p) s

/-- Temperature baselines of the slow-strain product are taken anew (R225). -/
def State.clearBaseline (s : State) (p : Port) : State := s.setDts p fun d => { d with baseline := [] }

/-- DTS resumes with both batts empty (R238); RMN stayed as it was. Log entry 56, DEDUCED. -/
def State.battRecover (s : State) (p : Port) : State :=
  let d := s.dts[p]
  (s.dtsStart p true).setDts p fun x => { x with biasOff := d.biasOff, gains := d.gains }

/-- A lane's PHY restarts: its ARP entries are cleared and, with its link up, gratuitous ARP is sent and its next hops are asked for
(R348, Table 13.5). -/
def State.laneRecover (s : State) (l : Lane) : State :=
  let s := s.setLane l fun x => { x with arp := [] }
  if s.laneUp l then
    let s := (s.setLane l fun x => { x with txFrames := x.txFrames + 1 }).send (.arp l 1 broadcastMac (s.ethIp l))
    (s.laneHops l).foldl (fun s ip => s.askHop l ip) s
  else s

/-- The domain runs again, with its first data marked as the other chapters give (R414). The fence is open when this acts.
Log entry 90, DEDUCED. -/
def State.recovered (s : State) (d : Domain) : State :=
  match d.val with
  | 0 => s.launchRecover 0
  | 1 => s.launchRecover 1
  | 3 => bothPorts.foldl State.requestRebase s
  | 4 => s.shtRecover
  | 5 => ((s.startAcquire 0).decReset 0).dropStretch 0
  | 6 => ((s.startAcquire 1).decReset 1).dropStretch 1
  | 8 => (s.clearPhase 0).clearBaseline 0
  | 9 => (s.clearPhase 1).clearBaseline 1
  | 10 => bothPorts.foldl State.battRecover s
  | 11 => bothPorts.foldl State.alsUnsuspend (s.evtStart true).alarmsRecover
  | 16 => if s.plk.vbus then { s with plk := { s.plk with attached := true, attaches := s.plk.attaches + 1 } } else s
  | 15 => (s.laneRecover 0).laneRecover 1
  | 17 =>
    let s := { s with pnl := { s.pnl with
      front := [], back := [], composed := false, scanFrom := s.now, colourAt := s.now } }
    bothPorts.foldl State.alsUnsuspend s.sensorSetup
  | 18 => s.supStart
  | 19 => { s with tiu := { s.tiu with ch := s.tiu.ch.map fun c => { c with run := 0 } } }
  | _ => s

/-- A sequence ends without a fault: the domain is unfenced, HEALTH record of KIND 3, and its clean time begins (R413).
Log entry 92, DEDUCED. -/
def State.unfence (s : State) (d : Domain) : State :=
  let x := s.dom d
  let s := s.setDom d fun x => { x with st := .running, shut := false, cleanSince := s.now }
  let s := s.record (s.bbxRec 0x0022 d.val x.lastCode 0 (le 4 x.attempts ++ le 4 ((s.now - x.begun) / usP)))
  ((s.hbNotice.healthRecord 3 d.val x.lastCode 0).msixEvent 5).recovered d

/-- RECOVERY_SEQUENCE_END (R413, R414): the sequence ends within its Max and without a fault of the domain, and the domain is
unfenced. The slices that `failing` names fail the self-test of FD05 or FD06: substituted where R160 allows, else the attempt fails.
Log entry 88, DEDUCED. -/
def execRecoverySequenceEnd (dt : Nat) (d : Domain) (failing : List (Fin 4 × Fin 5)) (s : State) :
    Host.Outcome State Fault Refusal :=
  let s := s.elapse dt
  let x := s.dom d
  if s.live && s.hatbandActs && x.st == .attempt && decide (s.now ≤ x.begun + recoveryMax d * msP) && s.recoveryReady d &&
      !(s.hb.reports.any fun r => r.domain == d) then
    if d = 5 ∨ d = 6 then
      let p : Port := if d = 5 then 0 else 1
      let r := s.selfTestSlices p failing
      if r.2 then .next (r.1.unfence d) else .next (r.1.report d (acqFault p 2) (BitVec.ofNat 32 p.val))
    else .next (s.unfence d)
  else .next s

/-! ## Warnings -/

/-- WARNING_CLEAR (R416): a warning that does not stay until restart, and whose condition has been absent for 1 s, clears with a
HEALTH record of KIND 1. -/
def execWarningClear (dt : Nat) (code : U32) (s : State) : Host.Outcome State Fault Refusal :=
  let s := s.elapse dt
  match s.hb.warnings.find? fun w => w.code == code with
  | none => .next s
  | some w =>
    if s.live && s.hatbandActs && !stickyWarning code && w.holders.isEmpty && decide (w.seenAt + secP ≤ s.now) then
      let s := { s with hb := { s.hb with warnings := s.hb.warnings.filter fun w => w.code != code } }
      let s := s.healthRecord 1 0xFF code w.value
      .next (s.record (s.bbxRec 0x0011 0xFF code w.value []))
    else .next s

end Sys2Proof.Machine
end

