-- ==== Sys2Proof/Machine/Links.lean ====
section
/-! DEFINITION. The stitch network's nodes, routes and traffic (R265 to R274, R285, R286): repeated urgent notices and link errors. -/

namespace Sys2Proof.Machine

/-! ## Nodes and routes (R265) -/

/-- Column and row of a region's node (Table 9.1). -/
def nodePlace : Vector (Nat × Nat) 10 :=
  #v[(0, 0), (0, 1), (1, 0), (1, 1), (2, 0), (3, 0), (4, 0), (2, 1), (3, 1), (4, 1)]

/-- Nodes that a route enters after its source, in order: along the row first, then along the column (R265). -/
def routeNodes (a b : Region) : List Region :=
  let x := nodePlace[a]
  let y := nodePlace[b]
  let at_ := fun (c r : Nat) => (List.finRange 10).filter fun n => nodePlace[n] == (c, r)
  let columns := if x.1 ≤ y.1 then (List.range (y.1 - x.1)).map (x.1 + 1 + ·) else (List.range (x.1 - y.1)).map (x.1 - 1 - ·)
  columns.flatMap (fun c => at_ c x.2) ++ (if x.2 = y.2 then [] else at_ y.1 y.2)

/-- Links a route crosses: the difference of the columns plus that of the rows (R265). -/
def linkCount (a b : Region) : Nat :=
  let x := nodePlace[a]
  let y := nodePlace[b]
  ((x.1 : Int) - y.1).natAbs + ((x.2 : Int) - y.2).natAbs

/-- Node of a source of U notices, and of its sinks (Table 9.4). The fence agents lie at every node. Log entry 129, DEDUCED. -/
def sourceNode (k : USource) : Region := match k with | .evt => 4 | .hbA => 7 | .hbB => 8 | .operator => 9
def sourceSinks (k : USource) : List Region :=
  match k with
  | .evt => evtSinks
  | .hbA | .hbB => List.finRange 10
  | .operator => [7, 8, 4]

/-- Node at which a record for a route or ring 2 is formed (Table 9.1): DEC, DTS and EVT at RG4, CMP and MEM at RG5, SHT at RG7,
health by the acting controller, SUP at RG9, OUT's own at RG6. Log entry 129, DEDUCED. -/
def State.recordNode (s : State) (q : PRec) : Region :=
  match q.typ with
  | 0x21 => 5
  | 0x30 => if s.hb.ctlA = .active then 7 else 8
  | 0x31 | 0x7F => 6
  | 0x40 => 7
  | _ => if q.coding = 0 then 4 else 5

/-- A hit flit passes the node at which its word was checked. Log entry 129, DEDUCED. -/
def State.passes (s : State) (h : FlitHit) (node : Region) : Bool :=
  match h with
  | .coherent p _ => (if p = 0 then routeNodes 0 2 else routeNodes 1 3).contains node
  | .phase p => (if p = 0 then routeNodes 2 4 else routeNodes 3 4).contains node
  | .product r => (s.routes[r].inflight.head?.map fun q => (routeNodes (s.recordNode q) 6).contains node).getD false
  | .history k =>
    ((s.mem.items[k].find? fun i => !i.begun).map fun i =>
      (routeNodes ((i.prec.map s.recordNode).getD (if s.histCoding k.val = 0 then 4 else 5)) 5).contains node).getD false
  | .background _ _ => true
  | .urgent k => (sourceSinks k).any fun n => (routeNodes (sourceNode k) n).contains node

/-! ## Urgent notices -/

/-- EVT repeats its states (R273): they reach every sink, and where its last notice was lost, so do the ends of the last groups. -/
def State.evtRepeats (s : State) : State :=
  if !s.evtOn then s
  else
    let lost := s.fab.u.lost[(0 : Fin 4)]
    let s := s.setEvt fun e => { e with notice := none, notices := e.notices + 1 }
    let s := (s.evtReaches s.evtSays evtSinks).injected .evt
    if lost then
      bothPorts.foldl (fun s p => match s.evt.ports[p].lastEnd with
        | some e => s.alsGroupEnd p e.group e.near e.point
        | none => s) s
    else s

/-- A controller that works repeats its states; those of the active one reach the fence agents (R273, R409). -/
def State.hbRepeats (s : State) (k : USource) (c : CtlSt) : State :=
  if c = .failed then s
  else if c = .active then (({ s with hb := { s.hb with notice := none } }).injected k).hbReaches s.hbTells
  else s.injected k

/-- U_NOTICE_REPEAT (R273, R285): every 1.0 µs each source that runs repeats its current states, which reach their sinks; notices lost on
a link are thereby delivered late. Log entry 61, DEDUCED. -/
def execUNoticeRepeat (dt : Nat) (s : State) : Host.Outcome State Fault Refusal :=
  let s := s.elapse dt
  if s.live && decide (s.fab.u.repeatedAt + usP ≤ s.now) then
    let late := (s.fab.u.lost.toList.filter id).length
    let t := ((((s.operatorReaches.injected .operator).evtRepeats).hbRepeats .hbA s.hb.ctlA).hbRepeats .hbB s.hb.ctlB)
    let t := t.setUrgent fun u => { u with lost := Vector.replicate 4 false, repeatedAt := s.now }
    .next { t with fab := { t.fab with uLate := t.fab.uLate + BitVec.ofNat 32 late } }.formEvents
  else .next s

/-! ## Link errors -/

/-- A product record or block is discarded whole at its next endpoint: counted, and recorded in the black box (R285). -/
def State.sDiscard (s : State) (typ port seq : Nat) : State :=
  let s := { s with fab := { s.fab with sDiscards := s.fab.sDiscards + 1 } }
  s.record (s.bbxRec 0x0055 0xFF 0 0 (le 4 typ ++ le 4 port ++ le 4 seq))

/-- The next record on its way to a route is discarded (R285): it takes its number, and of a coded one the next block tells the loss. -/
def State.loseProduct (s : State) (r : RouteId) (q : PRec) (t : List PRec) : State :=
  let seq := nextSeq s.routes[r].seq
  let s := s.setRoute r fun x =>
    { x with inflight := t, seq := seq, skipped := true }.blockLost q.typ q.port q.coding
  let s := if q.coding = 0 then s
    else { s with cmp := upd s.cmp (if q.port = 0 then 0 else 1) fun c => { c with lost := c.lost + 1 } }
  s.sDiscard q.typ q.port seq.toNat

/-- The next item on its way to a ring, none of which the writer has taken, is discarded (R285): its ring tells the loss, and a record of
ring 2 takes its number. -/
def State.loseItem (s : State) (k : Fin 3) (i : RtItem) : State :=
  let items := s.mem.items[k]
  let s := s.setMem fun m =>
    { m with
      items := m.items.set k (items.takeWhile (·.begun) ++ (items.dropWhile (·.begun)).drop 1)
      rings := upd m.rings k fun r => { r.skipNumber i with lost := true } }
  let s := if k = 2 ∨ s.histCoding k.val = 0 then s
    else { s with
      ringCoders := upd s.ringCoders (if k = 0 then 0 else 1) fun g => { g with lost := true }
      cmp := upd s.cmp (if k = 0 then 0 else 1) fun c => { c with lost := c.lost + 1 } }
  s.sDiscard ((i.prec.map (·.typ)).getD (prodType (s.histProduct k.val))) ((i.prec.map (·.port)).getD k.val)
    (if i.prec.isSome then s.mem.rings[k].recSeq.toNat else i.index % 2 ^ 32)

/-- A B transfer has failed twice (R285, R460): a status read answers with the error response by its own command, and any other is
abandoned. Log entry 63, DEDUCED. -/
def State.loseTransfer (s : State) (b : BTransfer) : State :=
  let s := if b = .status then s else { s with fab := { s.fab with bFailed := s.fab.bFailed + 1 } }
  match b with
  | .statistics p => s.setCal p fun c => { c with struck := true }
  | .blackBox => { s with bbx := { s.bbx with queue := s.bbx.queue.drop 1 } }
  | _ => s

/-- A U flit is discarded where it is checked (R285): the sinks beyond that node miss the notice until the source repeats it. -/
def State.loseNotice (s : State) (k : USource) (node : Region) : State :=
  let s := { s with fab := { s.fab with uErrors := s.fab.uErrors + 1 } }
  let s := s.setUrgent fun u => { u with lost := u.lost.set (sourceIndex k) true }
  match k with
  | .evt =>
    let left := fun (f : EvtFlit) => { f with sinks := f.sinks.filter fun n => !(routeNodes 4 n).contains node }
    let s := s.setEvt fun e => { e with notice := e.notice.map left }
    if (routeNodes 4 9).contains node then
      bothPorts.foldl (fun s p => s.setAls p fun a => { a with nearNotice := none }) s
    else s
  | .hbA | .hbB => if k = s.hbSource then { s with hb := { s.hb with notice := none } } else s
  | .operator => { s with permits := { s.permits with sent := some s.operatorTells } }

/-- An uncorrectable word is handled by the class of its flit (R285). Log entry 63, DEDUCED. -/
def State.flitHit (s : State) (h : FlitHit) (node : Region) : State :=
  match h with
  | .coherent p instants =>
    s.setAcq p fun x =>
      match x.records.find? (·.noticed) with
      | none => x
      | some r => x.clipWords r instants
  | .phase p =>
    let j := (s.acq[p].records.head?.map fun r => (s.expectOf p r).j).getD 0
    (s.setPhs p fun x => { x with struck := true }).sDiscard 0x01 p.val (j % (2 ^ 32 : Nat)).toNat
  | .product r =>
    match s.routes[r].inflight with
    | [] => s
    | q :: t => s.loseProduct r q t
  | .history k =>
    match s.mem.items[k].find? fun i => !i.begun with
    | none => s
    | some i => s.loseItem k i
  | .background b repeatFails => if repeatFails then s.loseTransfer b else s
  | .urgent k => s.loseNotice k node

/-- A node after an uncorrectable word (R286): words of the last second, and the run of link faults. -/
def NodeSt.word (x : NodeSt) (now : Nat) : NodeSt :=
  let l := now :: x.recent.filter fun t => decide (now < t + secP)
  if l.length ≤ 64 then { x with recent := l }
  else
    let runs := x.since.isSome && decide (now < x.renewed + secP)
    { recent := l, since := if runs then x.since else some now, renewed := now, reported := runs && x.reported }

/-- LINK_WORD_ERROR (R285, R286): a corrected word is counted; an uncorrectable one is handled by its class, and more than 64 of
them at a node in 1 s are a link fault, reported once it has lasted 3 s. A flit meets no error at a node that its route does not
enter. -/
def execLinkWordError (dt : Nat) (node : Region) (uncorrectable : Bool) (hit : FlitHit) (s : State) :
    Host.Outcome State Fault Refusal :=
  let s := s.elapse dt
  if !s.live || !s.passes hit node then .next s
  else if !uncorrectable then .next { s with fab := { s.fab with linkCorrected := s.fab.linkCorrected + 1 } }
  else
    let s := s.flitHit hit node
    let x := (s.fab.nodes[node]).word s.now
    let s := { s with fab := { s.fab with nodes := s.fab.nodes.set node x } }
    if x.recent.length ≤ 64 then .next s
    else
      let s := { s with fab := { s.fab with linkFault := s.fab.linkFault ||| (1#10 <<< node.val) } }
      let s := s.warn 0x000F0003#32 (BitVec.ofNat 32 node.val) true
      if !x.reported && (x.since.map fun t => decide (t + 3 * secP ≤ s.now)).getD false then
        let s := { s with fab := { s.fab with nodes := s.fab.nodes.set node { x with reported := true } } }
        .next (s.reportAll (nodeDomains node) 0x000F8002#32 (BitVec.ofNat 32 node.val))
      else .next s

end Sys2Proof.Machine
end

