-- ==== Sys2Proof/Machine/Manage.lean ====
section
/-! DEFINITION. HOUSEKEEPING records (R333), management on the Ethernet lanes (R352, R353) and the placket's vendor requests (R446,
R447). -/

namespace Sys2Proof.Machine

/-! ## HOUSEKEEPING -/

/-- The region with the least margin: its number and margin, the lowest number of equals. -/
def Fab.leastMargin (f : Fab) : Nat × Nat :=
  let l := f.regions.toList.map fun x => x.margin
  let m := l.foldl min 0xFFFF
  (l.findIdx fun x => x == m, m)

/-- Drops of a port over all causes (R281). -/
def State.allDrops (s : State) (p : Port) : U64 := s.fab.ports[p].counts.toList.foldl (· + ·) 0

/-- The HOUSEKEEPING payload (Table 11.5). -/
def State.housekeeping (s : State) : List Byte :=
  let m := s.fab.leastMargin
  le 4 s.fenceMask ++ le 1 s.opt.laser.code ++ le 1 s.tim.a.st.code ++ le 1 s.tim.pps.code ++
    le 1 (bitIf s.fab.uBound 0 + bitIf s.healthAsserted 1 + bitIf (s.hb.ctlA != .failed) 2 + bitIf (s.hb.ctlB != .failed) 3) ++
    leInt 2 (clampInt 16 s.opt.dieError) ++ le 2 (clampNat 0xFFFF m.2) ++ le 1 m.1 ++ le 1 s.memState ++ le 2 0 ++
    le 4 s.acq[(0 : Port)].level ++ le 4 s.acq[(1 : Port)].level ++ le 4 s.mem.queueLevel ++
    leInt 4 (clampInt 32 s.tim.ppsError) ++ le 8 s.sht[(0 : Port)].groups.toNat ++ le 8 s.sht[(1 : Port)].groups.toNat ++
    le 8 (s.allDrops 0).toNat ++ le 8 (s.allDrops 1).toNat

/-- HOUSEKEEPING_TIMER (R333): HOUSEKEEPING_MS has passed on a route; ring 2 keeps the record when its mask names the type.
Log entry 78, DEDUCED. -/
def execHousekeepingTimer (dt : Nat) (r : RouteId) (s : State) : Host.Outcome State Fault Refusal :=
  let s := s.elapse dt
  if s.live && (s.routeRec r).isSome && s.housekeepingMs r != 0 &&
      decide (s.routes[r].housekeptAt + s.housekeepingMs r * msP ≤ s.now) then
    let rec_ := s.newRec 0x31 0xFF s.housekeeping
    let s := (s.setRoute r fun x => { x with housekeptAt := s.now }).toRoute r rec_
    .next (if s.ring2Takes 0x31 then s.toRing 2 { prec := some rec_ } else s)
  else .next s

/-! ## Requests and answers (Tables 11.15 and 11.16) -/

/-- What a request yields: its RESULT, its data and the state after it. -/
abbrev Served := Nat × List Byte × State

/-- An answer: header, data and CRC-32C (Table 11.16). -/
def answerBytes (sync op result : Nat) (r : MgmtReq) (data : List Byte) (time : U64) : List Byte :=
  let body := le 2 sync ++ le 1 (op % 128 + 128) ++ le 1 result ++ le 4 r.tag.toNat ++ le 4 r.offset ++ le 4 data.length ++
    le 8 time.toNat ++ data
  body ++ le 4 (crc32c body).toNat

/-- A status read (OP 1, R460, R461): RESULT 2 out of range, 4 when its transfer fails twice. -/
def State.serveStatus (s : State) (path : AccessPath) (most : Nat) (r : MgmtReq) (failed : Bool) : Served :=
  if r.offset % 4 ≠ 0 ∨ r.length % 4 ≠ 0 ∨ most < r.length ∨ statusEnd < r.offset + r.length then (2, [], s)
  else if failed then (4, [], { s with readFailures := s.readFailures + 1 })
  else
    let x := s.statusRead path r.offset r.length
    (0, x.1, x.2)

/-- A black-box read (OP 2): records from an index, wrapping (Table 14.8); reading never alters the store (R423).
Log entry 80, DEDUCED. -/
def State.serveBlackBox (s : State) (most : Nat) (r : MgmtReq) : Served :=
  if bbxSlots ≤ r.offset ∨ r.length % 64 ≠ 0 ∨ most < r.length then (2, [], s)
  else (0, (List.range (r.length / 64)).flatMap fun k => s.bbx.recordAt (r.offset + k), s)

/-- An echo (OP 3). Log entry 80, DEDUCED. -/
def State.serveEcho (s : State) (r : MgmtReq) : Served :=
  if r.offset ≠ 0 ∨ 1024 < r.length then (2, [], s) else (0, slice r.data 0 r.length, s)

/-! ## Management on a lane -/

/-- SYNC of a management request. -/
def mgmtSync : U16 := 0x4D47

/-- The latch of management on a lane (R353). -/
def lanePath (l : Lane) : AccessPath := if l = 0 then .mgmt0 else .mgmt1

/-- Requests a lane holds at once (R352). -/
def mgmtHolds : Nat := 16

/-- Requests a lane holds: those that arrived at this instant. Log entry 79, DEDUCED. -/
def LaneSt.heldAt (x : LaneSt) (now : Nat) : Nat := if x.askedAt = now then x.asked else 0

/-- A management request arrives on a lane and is answered to its source without ARP (R352): a lane without MGMT_PORT discards the
frame, and a wrong SYNC discards the request and counts it, as does a request beyond the 16 that the lane holds at once. Log entry 79, DEDUCED. -/
def State.mgmtServe (s : State) (l : Lane) (r : MgmtReq) (op : Nat) (f : State → Served) : State :=
  if !s.laneUp l then s
  else
    let s := s.setLane l fun x => { x with rxFrames := x.rxFrames + 1 }
    if s.mgmtPort l = 0 then s.setLane l fun x => { x with rxDiscards := x.rxDiscards + 1 }
    else if r.sync ≠ mgmtSync then { s with mgmt := { s.mgmt with dropped := s.mgmt.dropped + 1 } }
    else if mgmtHolds ≤ s.lanes[l].heldAt s.now then { s with mgmt := { s.mgmt with dropped := s.mgmt.dropped + 1 } }
    else
      let s := s.setLane l fun x => { x with asked := x.heldAt s.now + 1, askedAt := s.now }
      let s := { s with mgmt := { s.mgmt with requests := s.mgmt.requests + 1 } }
      let x := f s
      let s := x.2.2.setLane l fun y => { y with txFrames := y.txFrames + 1 }
      s.send (.udp l r.srcMac r.srcIp (s.mgmtPort l) r.srcPort Config.answerDscp
        (answerBytes mgmtSync.toNat op x.1 r x.2.1 s.devTime))

/-- MGMT_STATUS_READ (OP 1 of Table 11.15). -/
def execMgmtStatusRead (dt : Nat) (l : Lane) (r : MgmtReq) (failed : Bool) (s : State) : Host.Outcome State Fault Refusal :=
  .next ((s.elapse dt).mgmtServe l r 1 fun s => s.serveStatus (lanePath l) 1024 r failed)

/-- MGMT_BLACK_BOX_READ (OP 2 of Table 11.15). -/
def execMgmtBlackBoxRead (dt : Nat) (l : Lane) (r : MgmtReq) (s : State) : Host.Outcome State Fault Refusal :=
  .next ((s.elapse dt).mgmtServe l r 2 fun s => s.serveBlackBox 1024 r)

/-- MGMT_ECHO (OP 3 of Table 11.15). -/
def execMgmtEcho (dt : Nat) (l : Lane) (r : MgmtReq) (s : State) : Host.Outcome State Fault Refusal :=
  .next ((s.elapse dt).mgmtServe l r 3 fun s => s.serveEcho r)

/-- MGMT_UNKNOWN_OP (Table 11.16): RESULT 1. An operation that Table 11.15 names is served as such. Log entry 80, DEDUCED. -/
def execMgmtUnknownOp (dt : Nat) (l : Lane) (r : MgmtReq) (s : State) : Host.Outcome State Fault Refusal :=
  .next ((s.elapse dt).mgmtServe l r r.op fun s =>
    if r.op = 1 then s.serveStatus (lanePath l) 1024 r false
    else if r.op = 2 then s.serveBlackBox 1024 r
    else if r.op = 3 then s.serveEcho r
    else (1, [], s))

/-! ## The placket's vendor interface -/

/-- SYNC of a placket request (R446). -/
def plkSync : U16 := 0x504B

/-- Longest read through the placket (Table 14.8). -/
def plkMost : Nat := 65536

/-- A vendor request is served and answered by one IN transfer; a wrong SYNC is discarded and counted (R446). The bulk endpoints
exist once the host has configured the placket. Log entry 87, DEDUCED. -/
def State.plkServe (s : State) (r : MgmtReq) (op : Nat) (f : State → Served) : State :=
  if !(s.plkOn && s.plk.configured) then s
  else if r.sync ≠ plkSync then { s with plk := { s.plk with requestsDiscarded := s.plk.requestsDiscarded + 1 } }
  else
    let s := { s with plk := { s.plk with requests := s.plk.requests + 1 } }
    let x := f s
    x.2.2.send (.usb (answerBytes plkSync.toNat op x.1 r x.2.1 x.2.2.devTime))

/-- A black-box dump (OP 4, R423): a header in the form of Table 13.11 and the store. -/
def State.serveDump (s : State) (r : MgmtReq) : Served :=
  if r.offset ≠ 0 ∨ r.length ≠ 0 then (2, [], s)
  else
    let body := storeBytes s.bbx.slots s.bbx.next
    (0, mirrorHeader s.bbx.slots s.bbx.next s.bbx.boot s.devTime body ++ body, s)

/-- A restart request (OP 5, R447): RESULT 2 with any other OFFSET, RESULT 3 while a staging is in progress; else the device restarts
with cause 0x04. Log entry 87, DEDUCED. -/
def State.serveRestart (s : State) (r : MgmtReq) : Served :=
  let s := { s with plk := { s.plk with restarts := s.plk.restarts + 1 } }
  if r.offset ≠ 0x52535452 ∨ r.length ≠ 0 then (2, [], s)
  else if s.cfg.staging.isSome then
    let s := { s with cfg := { s.cfg with restartRefused := s.cfg.restartRefused + 1 } }
    (3, [], s.restartRecord 4 true)
  else
    let s := s.restartRecord 4 false
    let due : Option (Nat × Nat) := if s.power.request.isSome then s.power.request else some (4, s.now)
    (0, [], { s with power := { s.power with request := due } })

/-- PLACKET_STATUS_READ (OP 1 of Table 14.8). -/
def execPlacketStatusRead (dt : Nat) (r : MgmtReq) (failed : Bool) (s : State) : Host.Outcome State Fault Refusal :=
  .next ((s.elapse dt).plkServe r 1 fun s => s.serveStatus .placket plkMost r failed)

/-- PLACKET_BLACK_BOX_READ (OP 2 of Table 14.8). -/
def execPlacketBlackBoxRead (dt : Nat) (r : MgmtReq) (s : State) : Host.Outcome State Fault Refusal :=
  .next ((s.elapse dt).plkServe r 2 fun s => s.serveBlackBox plkMost r)

/-- PLACKET_ECHO (OP 3 of Table 14.8). -/
def execPlacketEcho (dt : Nat) (r : MgmtReq) (s : State) : Host.Outcome State Fault Refusal :=
  .next ((s.elapse dt).plkServe r 3 fun s => s.serveEcho r)

/-- PLACKET_BLACK_BOX_DUMP (OP 4 of Table 14.8). -/
def execPlacketBlackBoxDump (dt : Nat) (r : MgmtReq) (s : State) : Host.Outcome State Fault Refusal :=
  .next ((s.elapse dt).plkServe r 4 fun s => s.serveDump r)

/-- PLACKET_RESTART (OP 5 of Table 14.8). -/
def execPlacketRestart (dt : Nat) (r : MgmtReq) (s : State) : Host.Outcome State Fault Refusal :=
  .next ((s.elapse dt).plkServe r 5 fun s => s.serveRestart r)

/-- PLACKET_BAD_REQUEST (R446, Table 11.16): a wrong SYNC is discarded and counted; an operation that Table 14.8 does not name
answers RESULT 1, and one that it names is served. -/
def execPlacketBadRequest (dt : Nat) (r : MgmtReq) (s : State) : Host.Outcome State Fault Refusal :=
  .next ((s.elapse dt).plkServe r r.op fun s =>
    if r.op = 1 then s.serveStatus .placket plkMost r false
    else if r.op = 2 then s.serveBlackBox plkMost r
    else if r.op = 3 then s.serveEcho r
    else if r.op = 4 then s.serveDump r
    else if r.op = 5 then s.serveRestart r
    else (1, [], s))

end Sys2Proof.Machine
end

