-- ==== Sys2Proof/Machine/Start.lean ====
section
/-! DEFINITION. Power good, power fail and the restarts (R397 to R405, R473 to R475), the loader's path from reset to the loaded image
(R379 to R386, Table 12.10), and the release of functions (Table 13.2, R402). -/

namespace Sys2Proof.Machine

/-! ## What a restart keeps (R398) -/

/-- The black box across a restart: the store and what it holds. -/
def BlackBox.kept (b : BlackBox) : BlackBox := { slots := b.slots, next := b.next, lastSeq := b.lastSeq, boot := b.boot }

/-- Every function is held in reset (R397): the black box, the key fuses, the flash contents and the levels at lands stay, and with
them the model's own clock, free values, queue and record of what left. Log entry 12, DEDUCED. -/
def State.holdReset (s : State) (power : Power) : State :=
  let s := (s.cfg.staging.map fun g => s.stageClear g).getD s
  { State.reset with
    pending := s.pending, now := s.now, free := s.free, outputs := s.outputs
    power := power
    bbx := s.bbx.kept
    flash := s.flash
    cfg := { State.reset.cfg with keys := s.cfg.keys }
    permits := { asserted := s.permits.asserted, risenAt := s.permits.risenAt }
    trigLevel := s.trigLevel
    pnl := { keys := s.pnl.keys.map fun k => { pressed := k.pressed, acted := k.pressed, changedAt := k.changedAt } }
    plk := { vbus := s.plk.vbus } }

/-- HLT_RESET_CAUSE of the start that begins (R475): the first that applies. Log entry 11, DESIGN CHOICE. -/
def Power.nextCause (x : Power) : Nat :=
  if x.belowThreshold then 1
  else if x.resetSeen then 2
  else if x.tripSeen then 6
  else if x.pfailSeen then 5
  else x.requested.getD 5

/-! ## Power good -/

/-- The self-tests of both controllers at step 2 of Table 13.2 (R402): one that fails is a failed controller (R411); with both failed
the device starts in the state of R412. Log entry 13, DEDUCED. -/
def State.hatbandStart (s : State) (aOk bOk : Bool) : State :=
  match aOk, bOk with
  | true, true => s
  | false, true => s.ctlFailed .a 2
  | true, false => s.ctlFailed .b 2
  | false, false =>
    let s := { s with hb := { s.hb with ctlA := .failed, ctlB := .failed, bothFailed := true } }
    s.hardwiredRecord (s.bbxRec 0x0031 0xFF 0 0 (le 4 s.fenceMask ++ le 4 0))

/-- POWER_GOOD (R397, R398, R400 step 2): the supplies have been in range with RESET_N and PFAIL_N high for 10 ms. A full start begins:
the cause is reported, the black box scanned and its start record written, and the hatband's self-tests judged.
Log entry 9, DESIGN CHOICE; log entry 13, DEDUCED; log entry 41, DEDUCED. -/
def execPowerGood (dt : Nat) (hbaOk hbbOk : Bool) (s : State) : Host.Outcome State Fault Refusal :=
  let s := s.elapse dt
  if s.power.phase = .held then
    let cause := s.power.nextCause
    let s := { s with
      power := { phase := .up, belowThreshold := false, cause := cause }
      acq := Vector.ofFn fun p =>
        let x := s.acq[p]
        { x with cal := { x.cal with vals := (List.range 68).map (Config.factorySet p) } } }
    .next ((s.bbxStart cause).hatbandStart hbaOk hbbOk)
  else .next s

/-! ## Power fail (Table 13.3) -/

/-- The power-fail sequence: gates off, shutters closed and currents cut, stagings and the mirror ended without another flash
command, a requested restart abandoned, and the black box written (R403, R404, R465, R475). Log entry 15, DEDUCED. -/
def State.powerFail (s : State) (outMask : Nat) (undervoltage : Bool) : State :=
  let s := bothPorts.foldl (fun s p => s.closePort p) s
  let s := s.setOpt fun o => { o with laser := .off, lockDetected := false, tecCurrent := 0 }
  let s := bothPorts.foldl (fun s p => s.biasOff p) s
  let s := ((s.stageAbort .mailbox).stageAbort .placket).mbxLock
  let s := if s.bbx.mirror.isSome then { s with bbx := { s.bbx with mirror := none, mirrorState := 4 } } else s
  let s := s.powerFailRecords outMask undervoltage
  { s with power := { s.power with phase := .powerFail, request := none, requested := none, failAt := s.now } }

/-- Supplies found out of range, and whether one has fallen to its power-on threshold, towards the cause of the next start. -/
def Power.note (x : Power) (outMask : BitVec 8) (below : Bool) : Power :=
  { x with
    tripSeen := x.tripSeen || outMask != 0
    belowThreshold := x.belowThreshold || below }

/-- Whether a low pulse of a control land is recognised (R474): always from `sure` ns, never below `never` ns, and in between as it
may be. Log entry 14, DESIGN CHOICE. -/
def State.recognised (s : State) (lowNs never sure : Nat) : Bool × State :=
  if sure ≤ lowNs then (true, s)
  else if lowNs < never then (false, s)
  else (Config.shortPulse s.free, s.takeFree)

/-- POWER_FAIL_WARNING (R403, R405, R474): PFAIL_N low for `lowNs`, with the supplies of `outMask` out of range. In POWER_FAIL it
starts the wait of R405 again. Log entry 15, DEDUCED. -/
def execPowerFailWarning (dt : Nat) (lowNs : Nat) (outMask : BitVec 8) (s : State) : Host.Outcome State Fault Refusal :=
  let s := s.elapse dt
  let r := s.recognised lowNs 20 100
  let s := r.2
  if r.1 then
    match s.power.phase with
    | .held => .next s
    | .up =>
      let s := s.powerFail outMask.toNat false
      .next { s with power := s.power.note outMask false }
    | .powerFail => .next { s with power := { s.power.note outMask false with failAt := s.now } }
  else .next s

/-- SUPPLY_MONITOR_TRIP (R473): a supply leaves its range, low or high; `belowThreshold` tells that one falls to its power-on
threshold. It starts the power-fail sequence as PFAIL_N does. Log entry 16, DEDUCED. -/
def execSupplyMonitorTrip (dt : Nat) (outMask : BitVec 8) (low belowThreshold : Bool) (s : State) :
    Host.Outcome State Fault Refusal :=
  let s := s.elapse dt
  let mark := fun (s : State) =>
    { s with power := { s.power.note outMask belowThreshold with tripSeen := true, failAt := s.now } }
  match s.power.phase with
  | .up => .next (mark (s.powerFail outMask.toNat low))
  | .held | .powerFail => .next (mark s)

/-! ## Restarts -/

/-- RESET_N_ASSERTED (R397, R474): RESET_N low for `lowNs`; recognised, it holds the device in reset and is a cause of the next
start. -/
def execResetNAsserted (dt : Nat) (lowNs : Nat) (s : State) : Host.Outcome State Fault Refusal :=
  let s := s.elapse dt
  let r := s.recognised lowNs 100 1000
  let s := r.2
  if r.1 then .next (s.holdReset { s.power with phase := .held, resetSeen := true, request := none, requested := none })
  else .next s

/-- PFAIL_RESTART (R405, R473): PFAIL_N high and every supply in range have held for HEALTH.PFAIL_RESTART ms; the device restarts. -/
def execPfailRestart (dt : Nat) (s : State) : Host.Outcome State Fault Refusal :=
  let s := s.elapse dt
  if s.power.phase = .powerFail ∧ s.power.failAt + s.pfailRestartMs * msP ≤ s.now then
    .next (s.holdReset { s.power with phase := .held, pfailSeen := true })
  else .next s

/-- REQUESTED_RESTART (R447, R464): the delay after an accepted request elapses; the device restarts with the request's cause. -/
def execRequestedRestart (dt : Nat) (s : State) : Host.Outcome State Fault Refusal :=
  let s := s.elapse dt
  match s.power.request with
  | some (cause, due) =>
    if s.live && decide (due ≤ s.now) then
      .next (s.holdReset { s.power with phase := .held, request := none, requested := some cause })
    else .next s
  | none => .next s

/-! ## The loader -/

/-- The 64-byte header of a slot. -/
def State.slotHeader (s : State) (slot : Nat) : List Byte := memReadAll erased s.flash.cells (slotBase slot) 64

/-- The image of a slot, as long as its header says. -/
def State.slotImage (s : State) (slot : Nat) : List Byte :=
  memReadAll erased s.flash.cells (slotBase slot) (fieldAt (s.slotHeader slot) 8 4)

/-- What the header check of a slot leaves in its registers (R380): a candidate reads 0xFF until it is checked fully.
Log entry 17, DEDUCED. -/
def headerResult (h : List Byte) : SlotResult :=
  let c := checkHeader h
  if c = 0 then { code := 0xFF, generation := BitVec.ofNat 32 (fieldAt h 12 4), candidate := true }
  else { code := c, field := 0xFFFFFFFF }

/-- The slot that is checked first (R380): the candidate with the higher GENERATION, slot A with equal ones. -/
def firstSlot (a b : SlotResult) : Option Nat :=
  match a.candidate, b.candidate with
  | true, true => if a.generation.toNat < b.generation.toNat then some 1 else some 0
  | true, false => some 0
  | false, true => some 1
  | false, false => none

/-- REF_FREQ and QSPI_DIV that the loader takes from a slot before it is checked (R382): those of the record at the second position,
when it is a CLOCKS record of VERSION 1 with a matching CRC and both in range; else 0 and 2. -/
def earlyClocks (b : List Byte) : Nat × Nat :=
  let at_ := 64 + 12 + fieldAt b 68 4
  let n := fieldAt b (at_ + 4) 4
  let body := slice b at_ (8 + n)
  let payload := slice b (at_ + 8) n
  if at_ + 12 + n ≤ b.length ∧ fieldAt b at_ 2 = 0x0030 ∧ fieldAt b (at_ + 2) 1 = 1 ∧
      fieldAt b (at_ + 8 + n) 4 = (crc32c body).toNat ∧ clockRangesOk payload = true then
    (fieldAt payload 0 1, fieldAt payload 1 1)
  else (0, 2)

/-- The loader reads in a quad mode, for which it sets the quad-enable bit where that reads clear (R367). -/
def State.readsQuad (s : State) : Bool := s.flash.sfdp && (s.flash.quad144 || s.flash.quad114)

/-- CFG_FLASH_MODE (R367, Table 12.15). -/
def State.flashModeWord (s : State) : Nat :=
  let f := s.flash
  (if !f.sfdp then 0 else if f.quad144 then 2 else if f.quad114 then 1 else 0) + bitIf (f.sfdp && f.fourByteOnly) 2 +
    bitIf (!f.sfdp) 3 + bitIf s.flashSmall 4

/-- A domain whose function comes into service. -/
def Dom.serve (d : Dom) : Dom := if d.st = .idle then { d with st := .running } else d

/-- The LOAD record (Table 13.10): both results, with the step codes of R84, the loaded slot and its generation. -/
def State.loadRecord (s : State) (slot generation : Nat) : State :=
  s.record (s.bbxRec 0x0002 0xFF 0 0
    (le 4 s.cfg.slots[(0 : Fin 2)].word ++ le 4 s.cfg.slots[(1 : Fin 2)].word ++ le 4 slot ++ le 4 generation))

/-- No candidate is left (R84, R386): both results go to the black box, and the device is UNCONFIGURED with the PCI Express endpoint and
the placket in service. Log entry 110, DEDUCED. -/
def State.unconfigured (s : State) : State :=
  let s := { s with cfg := { s.cfg with state := 2, current := none } }
  let s := s.loadRecord 0xFF 0
  (s.setDom 14 Dom.serve).setDom 16 Dom.serve

/-- CFG_LOAD_START (R367, R380, R382, Table 12.10 steps 1 to 4): the SFDP tables and both headers are read, a slot is chosen, and PLL-A
is released with its REF_FREQ; without a candidate the device is UNCONFIGURED. Log entry 23, DEDUCED. -/
def execCfgLoadStart (dt : Nat) (s : State) : Host.Outcome State Fault Refusal :=
  let s := s.elapse dt
  if s.live && s.cfg.state == 0 && !s.cfg.released then
    let a := headerResult (s.slotHeader 0)
    let b := headerResult (s.slotHeader 1)
    let s := { s with cfg := { s.cfg with
      released := true, releasedAt := s.now, slots := #v[a, b]
      flashId := s.flash.jedec, flashMode := BitVec.ofNat 32 s.flashModeWord } }
    let s := { s with flash := { s.flash with quadEnabled := s.flash.quadEnabled || s.readsQuad } }
    match firstSlot a b with
    | none => .next s.unconfigured
    | some k =>
      let c := earlyClocks (s.slotImage k)
      let s := { s with cfg := { s.cfg with current := some k, refFreq := c.1, qspiDiv := c.2 } }
      .next (s.pllRelease .a)
  else .next s

/-! ## Fuse actions (R379) -/

/-- A fuse action in the black box: slot, action (0 key programmed, 1 key revoked), and whether the read-back differed. -/
def State.fuseRecord (s : State) (slot action : Nat) (differs : Bool) : State :=
  s.record (s.bbxRec 0x0060 0xFF 0 (BitVec.ofNat 32 slot) (le 4 slot ++ le 4 action ++ le 4 (bitIf differs 0)))

/-- Change a key slot. -/
def State.setKeySlot (s : State) (k : Fin 4) (f : KeySlot → KeySlot) : State :=
  { s with cfg := { s.cfg with keys := upd s.cfg.keys k f } }

/-- A key hash is programmed into the lowest free slot and read back. -/
def State.fuseKey (s : State) (hash : List Byte) : State :=
  if s.cfg.keys.toList.any fun k => (k.valid || k.spoiled) && k.hash == hash then s
  else
    match (List.finRange 4).find? fun k => !s.cfg.keys[k].valid && !s.cfg.keys[k].spoiled with
    | none => { s with cfg := { s.cfg with keyFull := true } }.warn 0x00010002#32 0 true
    | some k =>
      let ok := Config.fuseReads s.free
      let bad := slice (Config.fuseHash s.free) 0 32
      let s := s.takeFree
      if ok then (s.setKeySlot k fun x => { x with hash := hash, valid := true }).fuseRecord k.val 0 false
      else
        let s := (s.setKeySlot k fun x => { x with hash := bad, spoiled := true }).fuseRecord k.val 0 true
        s.warn 0x00010003#32 (BitVec.ofNat 32 k.val) true

/-- IMAGE_INFO is applied: the key, then, when signatures were mandatory for the image, the revocations. -/
def State.applyKeys (s : State) : State :=
  let info := (s.rec? 0x0010).getD []
  let s := if fieldAt info 22 1 = 1 then s.fuseKey (slice info 24 32) else s
  match s.cfg.image.bind (·.keySlot) with
  | none => s
  | some own =>
    (List.finRange 4).foldl (fun s k =>
      if bitOf (fieldAt info 23 1) k.val && s.cfg.keys[k].valid && k.val != own then
        (s.setKeySlot k fun x => { x with revoked := true }).fuseRecord k.val 1 false
      else s) s

/-! ## Distribution (Table 12.10 step 9) -/

/-- The function of a fence domain is configured (R400, Table 0.1). Log entry 24, DEDUCED. -/
def State.domConfigured (s : State) (d : Domain) : Bool :=
  let ports := bothPorts.filter s.portLaunches
  match d.val with
  | 0 => s.portLaunches 0
  | 1 => s.portLaunches 1
  | 4 | 11 => !ports.isEmpty
  | 5 | 8 => s.hasDas 0
  | 6 | 9 => s.hasDas 1
  | 7 | 10 => s.hasRaman 0 || s.hasRaman 1
  | 12 => !s.codedConsumers.isEmpty
  | 13 => s.memRec.isSome
  | 14 => s.pcieRec.isSome
  | 15 => (s.ethRec 0).isSome || (s.ethRec 1).isSome
  | _ => true

/-- Routes and their timers start; their loads are those of R350. -/
def State.startRoutes (s : State) : State :=
  { s with routes := Vector.ofFn fun r =>
    let x := s.routes[r]
    if (s.routeRec r).isSome then
      { x with load := BitVec.ofNat 32 (s.routeLoad r / 1000).floor.toNat, sentAt := s.now, housekeptAt := s.now }
    else x }

/-- Synchronisation and discipline take their modes (R112, R119, Table 4.8). -/
def State.startSync (s : State) : State :=
  s.setTim fun t =>
    { t with
      pps := if s.ppsMode = 1 then .acquire else .off
      sync := if t.runs ∧ s.syncMode ≠ 0 then .first else t.sync
      syncAt := if t.runs ∧ s.syncMode ≠ 0 then s.now else t.syncAt }

/-- The panel and the sequencers start. -/
def State.startPanel (s : State) : State :=
  { s with
    pnl := { s.pnl with
      running := true, scanFrom := s.now, colourAt := s.now
      leds := s.pnl.leds.map fun l => { l with diagAt := s.now } }
    sht := Vector.ofFn fun p =>
      let x := s.sht[p]
      { x with callAt := s.now, admitResult := if s.inUse p then s.admission p else 0 } }

/-- The configuration is distributed: PLL-D is released and every configured function comes out of idle (Table 12.10 step 9). -/
def State.distribute (s : State) : State :=
  let doms : Vector Dom 20 := Vector.ofFn fun d => if s.domConfigured d then (s.dom d).serve else s.dom d
  let s := { s with hb := { s.hb with doms := doms } }
  let s := s.pllRelease .d
  (((s.startRoutes.startSync.startPanel.sensorSetup.layRings).evtStart false).supStart)

/-- The image that passed every check is loaded (R380, R385, R387): results, the LOAD record, the fallback's warning, the fuse actions
and the distribution. -/
def State.loadImage (s : State) (slot : Fin 2) (m : Image) : State :=
  let gen := m.generation
  let failed := s.cfg.slots[1 - slot].word
  let fell := s.cfg.fellBack
  let s := { s with cfg := { s.cfg with
    state := 1, current := none, image := some m, fallback := fell
    loadTime := BitVec.ofNat 32 ((s.now - s.cfg.releasedAt) / usP)
    slots := upd s.cfg.slots slot fun x => { x with code := 0 } } }
  let s := s.loadRecord slot.val gen.toNat
  let s := if fell then s.warn 0x00010001#32 (BitVec.ofNat 32 failed) true else s
  s.applyKeys.distribute

/-- The failure of a full check in a slot's registers (R381). -/
def SlotResult.failed (x : SlotResult) (r : LoadResult) : SlotResult :=
  { x with code := r.code, sub := r.sub, typ := r.typ, offset := BitVec.ofNat 32 r.offset, field := r.field }

/-- The loader takes the other candidate (Table 12.10 steps 10 and 11, R382): another REF_FREQ stops PLL-A, and device time starts at
zero from its next lock. -/
def State.fallBack (s : State) (slot : Nat) : State :=
  let c := earlyClocks (s.slotImage slot)
  let changed := decide (c.1 ≠ s.cfg.refFreq)
  let s := { s with cfg := { s.cfg with current := some slot, fellBack := true, refFreq := c.1, qspiDiv := c.2 } }
  if changed then ((s.setTim fun t => { t with runs := false }).setPll .a fun x => { x with controlled := false }).pllRelease .a
  else s

/-- IMAGE_READ_DONE (R380, R381, R385, R386, Table 12.10 steps 6 to 12): the chosen slot is checked fully; the first image that passes
is loaded, and with none the device is UNCONFIGURED. Log entry 22, DEDUCED; log entry 23, DEDUCED. -/
def execImageReadDone (dt : Nat) (s : State) : Host.Outcome State Fault Refusal :=
  let s := s.elapse dt
  match s.cfg.current with
  | none => .next s
  | some k =>
    if s.live && s.cfg.state == 0 then
      let slot : Fin 2 := if k = 0 then 0 else 1
      let r := checkImage s.cfg.keys k (s.slotImage k)
      match r.image with
      | some m => .next (s.loadImage slot m)
      | none =>
        let s := { s with cfg := { s.cfg with slots := upd s.cfg.slots slot fun x => x.failed r } }
        if s.cfg.slots[1 - slot].candidate && !s.cfg.fellBack then .next (s.fallBack (1 - k)) else .next s.unconfigured
    else .next s

/-! ## Release (Table 13.2 step 7) -/

/-- The start checks of a port's slices (R160, R402): the spare begins to shadow with SPARE 1, failing slices are substituted, and a
port with one that cannot be substituted is reported. -/
def State.startSlices (s : State) (p : Port) (failing : List (Port × Fin 4 × Fin 5)) : State :=
  if s.hasDas p then
    let s := if s.calSpare = 1 then s.setAcq p fun x => { x with spare := x.spare.map fun k => if k = 0 then 1 else k } else s
    let r := s.selfTestSlices p ((failing.filter fun f => f.1 == p).map (·.2))
    if r.2 then r.1 else r.1.report (acqDomain p) (acqFault p 2) (BitVec.ofNat 32 p.val)
  else s

/-- LSR_RELEASE (R400 step 7, R402, R202): with the fuse actions and start checks done the laser warms up and the APD biases are set.
Functions whose check failed are reported, to be fenced and recovered. Log entry 24, DEDUCED. -/
def execLsrRelease (dt : Nat) (c : StartChecks) (s : State) : Host.Outcome State Fault Refusal :=
  let s := s.elapse dt
  if s.live && s.cfg.state == 1 && s.opt.laser == .off then
    let s := bothPorts.foldl (fun s p => s.startSlices p c.slices) s
    let s := if c.supOk then s else s.report 18 (supFault 9) 0
    let s := if c.tiuOk then s else s.report 19 0x00058001#32 0
    let s := c.other.foldl (fun s d => s.report d 0x00028001#32 0) s
    let s := s.setOpt fun o => { o with laser := .warming }
    .next (bothPorts.foldl (fun s p => s.dtsStart p false) s)
  else .next s

end Sys2Proof.Machine
end

