-- ==== Sys2Proof/Machine/Dispatch.lean ====
section
/-! DEFINITION. One arm per command: the command's effect on everything but the queue. -/

namespace Sys2Proof.Machine

/-- The effect of a command (the rule of its row in spec/opcode_table.json). -/
def exec (i : Instr) (s : State) : Host.Outcome State Fault Refusal :=
  match i with
  | .powerGood dt hbaOk hbbOk => Sys2Proof.Machine.execPowerGood dt hbaOk hbbOk s
  | .resetNAsserted dt lowNs => Sys2Proof.Machine.execResetNAsserted dt lowNs s
  | .powerFailWarning dt lowNs outMask => Sys2Proof.Machine.execPowerFailWarning dt lowNs outMask s
  | .supplyMonitorTrip dt outMask low belowThreshold => Sys2Proof.Machine.execSupplyMonitorTrip dt outMask low belowThreshold s
  | .pfailRestart dt => Sys2Proof.Machine.execPfailRestart dt s
  | .requestedRestart dt => Sys2Proof.Machine.execRequestedRestart dt s
  | .cfgLoadStart dt => Sys2Proof.Machine.execCfgLoadStart dt s
  | .imageReadDone dt => Sys2Proof.Machine.execImageReadDone dt s
  | .lsrRelease dt checks => Sys2Proof.Machine.execLsrRelease dt checks s
  | .laserDieInWindow x => Sys2Proof.Machine.execLaserDieInWindow x s
  | .injectionLockDetected dt => Sys2Proof.Machine.execInjectionLockDetected dt s
  | .wavelengthTuned x => Sys2Proof.Machine.execWavelengthTuned x s
  | .laserReady x => Sys2Proof.Machine.execLaserReady x s
  | .injectionLockLost dt => Sys2Proof.Machine.execInjectionLockLost dt s
  | .relockAttemptTimeout dt => Sys2Proof.Machine.execRelockAttemptTimeout dt s
  | .wavelengthOutOfWindow dt err => Sys2Proof.Machine.execWavelengthOutOfWindow dt err s
  | .wavelengthRecoveryTimeout dt => Sys2Proof.Machine.execWavelengthRecoveryTimeout dt s
  | .dieTempOutOfWindow dt e => Sys2Proof.Machine.execDieTempOutOfWindow dt e s
  | .dieTempFenceTimeout x => Sys2Proof.Machine.execDieTempFenceTimeout x s
  | .dieOverTemperature dt => Sys2Proof.Machine.execDieOverTemperature dt s
  | .laserPowerLow dt permille => Sys2Proof.Machine.execLaserPowerLow dt permille s
  | .tecSaturated x => Sys2Proof.Machine.execTecSaturated x s
  | .launchPeakHigh dt p => Sys2Proof.Machine.execLaunchPeakHigh dt p s
  | .launchPeakLow dt p k => Sys2Proof.Machine.execLaunchPeakLow dt p k s
  | .leakageBetweenPulses dt p => Sys2Proof.Machine.execLeakageBetweenPulses dt p s
  | .gateHeldTooLong dt p => Sys2Proof.Machine.execGateHeldTooLong dt p s
  | .loPowerOutOfRange dt p permille => Sys2Proof.Machine.execLoPowerOutOfRange dt p permille s
  | .photodiodeFault dt p percent => Sys2Proof.Machine.execPhotodiodeFault dt p percent s
  | .pllLockWindow dt pll count => Sys2Proof.Machine.execPllLockWindow dt pll count s
  | .pllAcquireTimeout dt pll => Sys2Proof.Machine.execPllAcquireTimeout dt pll s
  | .pllRelockTimeout dt pll => Sys2Proof.Machine.execPllRelockTimeout dt pll s
  | .refclkLost dt => Sys2Proof.Machine.execRefclkLost dt s
  | .pllCoastRelock dt pll => Sys2Proof.Machine.execPllCoastRelock dt pll s
  | .pllCoastLimit dt pll => Sys2Proof.Machine.execPllCoastLimit dt pll s
  | .syncInEdge dt m lowPeriods offset => Sys2Proof.Machine.execSyncInEdge dt m lowPeriods offset s
  | .syncWaitTimeout dt => Sys2Proof.Machine.execSyncWaitTimeout dt s
  | .syncEdgeTimeout dt => Sys2Proof.Machine.execSyncEdgeTimeout dt s
  | .syncFrameReceived dt slots => Sys2Proof.Machine.execSyncFrameReceived dt slots s
  | .ppsInEdge dt m => Sys2Proof.Machine.execPpsInEdge dt m s
  | .ppsHoldoverTimeout dt => Sys2Proof.Machine.execPpsHoldoverTimeout dt s
  | .deviceTimeWrap => Sys2Proof.Machine.execDeviceTimeWrap  s
  | .ppsOutEdge dt => Sys2Proof.Machine.execPpsOutEdge dt s
  | .syncOutSend dt => Sys2Proof.Machine.execSyncOutSend dt s
  | .groupStart dt p => Sys2Proof.Machine.execGroupStart dt p s
  | .pleatShotLaunch dt p k => Sys2Proof.Machine.execPleatShotLaunch dt p k s
  | .temperatureShotLaunch dt p => Sys2Proof.Machine.execTemperatureShotLaunch dt p s
  | .shotGateClose dt p => Sys2Proof.Machine.execShotGateClose dt p s
  | .launchMonitorEdge dt p m peak energy => Sys2Proof.Machine.execLaunchMonitorEdge dt p m peak energy s
  | .launchTimestampTimeout dt p => Sys2Proof.Machine.execLaunchTimestampTimeout dt p s
  | .triggerEdge dt input level m => Sys2Proof.Machine.execTriggerEdge dt input level m s
  | .triggerEdgeAccepted dt p => Sys2Proof.Machine.execTriggerEdgeAccepted dt p s
  | .triggerTimeout dt p => Sys2Proof.Machine.execTriggerTimeout dt p s
  | .recordNotice dt p words lags => Sys2Proof.Machine.execRecordNotice dt p words lags s
  | .calUpdate dt e => Sys2Proof.Machine.execCalUpdate dt e s
  | .sliceSubstitution dt p => Sys2Proof.Machine.execSliceSubstitution dt p s
  | .phaseRecordProcess dt p r => Sys2Proof.Machine.execPhaseRecordProcess dt p r s
  | .ramanRecordClose dt p as_ st => Sys2Proof.Machine.execRamanRecordClose dt p as_ st s
  | .ramanOffsetMeasure dt p as_ st => Sys2Proof.Machine.execRamanOffsetMeasure dt p as_ st s
  | .dtsUpdateBoundary dt p => Sys2Proof.Machine.execDtsUpdateBoundary dt p s
  | .battSwap dt p corrected uncorrectable => Sys2Proof.Machine.execBattSwap dt p corrected uncorrectable s
  | .dtsProfileDone dt p => Sys2Proof.Machine.execDtsProfileDone dt p s
  | .refHoldExpiry dt p => Sys2Proof.Machine.execRefHoldExpiry dt p s
  | .supPassStart dt selfTestOk => Sys2Proof.Machine.execSupPassStart dt selfTestOk s
  | .supConversionDone dt code => Sys2Proof.Machine.execSupConversionDone dt code s
  | .supCoarseValue dt code => Sys2Proof.Machine.execSupCoarseValue dt code s
  | .snapshotCopy dt poisoned => Sys2Proof.Machine.execSnapshotCopy dt poisoned s
  | .alarmDemandNotice dt => Sys2Proof.Machine.execAlarmDemandNotice dt s
  | .alarmMinAssertExpiry dt o => Sys2Proof.Machine.execAlarmMinAssertExpiry dt o s
  | .operatorStateNotice dt => Sys2Proof.Machine.execOperatorStateNotice dt s
  | .uNoticeRepeat dt => Sys2Proof.Machine.execUNoticeRepeat dt s
  | .regionDeltaSample dt mv halfK => Sys2Proof.Machine.execRegionDeltaSample dt mv halfK s
  | .warningClear dt code => Sys2Proof.Machine.execWarningClear dt code s
  | .marginMeasure dt capacities => Sys2Proof.Machine.execMarginMeasure dt capacities s
  | .linkWordError dt node uncorrectable hit => Sys2Proof.Machine.execLinkWordError dt node uncorrectable hit s
  | .stallDetected dt region stage => Sys2Proof.Machine.execStallDetected dt region stage s
  | .memInitStart dt vddqMv => Sys2Proof.Machine.execMemInitStart dt vddqMv s
  | .memVerifyDone dt v => Sys2Proof.Machine.execMemVerifyDone dt v s
  | .memZeroFillDone dt => Sys2Proof.Machine.execMemZeroFillDone dt s
  | .memSweepDone dt entries => Sys2Proof.Machine.execMemSweepDone dt entries s
  | .refreshDue dt => Sys2Proof.Machine.execRefreshDue dt s
  | .dramTempPoll dt t => Sys2Proof.Machine.execDramTempPoll dt t s
  | .selfRefreshEntry dt abandoned => Sys2Proof.Machine.execSelfRefreshEntry dt abandoned s
  | .selfRefreshExit dt => Sys2Proof.Machine.execSelfRefreshExit dt s
  | .memAccessBoundary dt a => Sys2Proof.Machine.execMemAccessBoundary dt a s
  | .scrubRequest dt => Sys2Proof.Machine.execScrubRequest dt s
  | .requestOverdue dt port => Sys2Proof.Machine.execRequestOverdue dt port s
  | .rtItemArrival dt ring => Sys2Proof.Machine.execRtItemArrival dt ring s
  | .ringFlush dt ring => Sys2Proof.Machine.execRingFlush dt ring s
  | .coderFlush dt c => Sys2Proof.Machine.execCoderFlush dt c s
  | .outRecordEnqueue dt route => Sys2Proof.Machine.execOutRecordEnqueue dt route s
  | .heartbeatTimer dt route => Sys2Proof.Machine.execHeartbeatTimer dt route s
  | .housekeepingTimer dt route => Sys2Proof.Machine.execHousekeepingTimer dt route s
  | .timingRecordClose dt p => Sys2Proof.Machine.execTimingRecordClose dt p s
  | .arpRefresh dt lane => Sys2Proof.Machine.execArpRefresh dt lane s
  | .arpRetryTimeout dt lane => Sys2Proof.Machine.execArpRetryTimeout dt lane s
  | .arpFrameReceived dt lane f => Sys2Proof.Machine.execArpFrameReceived dt lane f s
  | .ethLinkUp dt lane => Sys2Proof.Machine.execEthLinkUp dt lane s
  | .ethLinkDown dt lane => Sys2Proof.Machine.execEthLinkDown dt lane s
  | .icmpEchoRequest dt lane srcMac srcIp dstIp data => Sys2Proof.Machine.execIcmpEchoRequest dt lane srcMac srcIp dstIp data s
  | .ethFrameDiscarded dt lane => Sys2Proof.Machine.execEthFrameDiscarded dt lane s
  | .mgmtStatusRead dt lane r failed => Sys2Proof.Machine.execMgmtStatusRead dt lane r failed s
  | .mgmtBlackBoxRead dt lane r => Sys2Proof.Machine.execMgmtBlackBoxRead dt lane r s
  | .mgmtEcho dt lane r => Sys2Proof.Machine.execMgmtEcho dt lane r s
  | .mgmtUnknownOp dt lane r => Sys2Proof.Machine.execMgmtUnknownOp dt lane r s
  | .pcieConfigRequest dt isWrite reg value => Sys2Proof.Machine.execPcieConfigRequest dt isWrite reg value s
  | .pciePowerStateChange dt d3hot => Sys2Proof.Machine.execPciePowerStateChange dt d3hot s
  | .pcieFunctionLevelReset dt => Sys2Proof.Machine.execPcieFunctionLevelReset dt s
  | .pcieLinkReset dt kind => Sys2Proof.Machine.execPcieLinkReset dt kind s
  | .bar2Read dt offset length => Sys2Proof.Machine.execBar2Read dt offset length s
  | .counterLowWordRead dt path offset length failed => Sys2Proof.Machine.execCounterLowWordRead dt path offset length failed s
  | .msixTableWrite dt offset value => Sys2Proof.Machine.execMsixTableWrite dt offset value s
  | .msixHoldoffExpiry dt v => Sys2Proof.Machine.execMsixHoldoffExpiry dt v s
  | .registerWrite dt offset data => Sys2Proof.Machine.execRegisterWrite dt offset data s
  | .mbxUnlockWrite dt word => Sys2Proof.Machine.execMbxUnlockWrite dt word s
  | .mbxStageBegin dt => Sys2Proof.Machine.execMbxStageBegin dt s
  | .mbxStageBlock dt => Sys2Proof.Machine.execMbxStageBlock dt s
  | .mbxStageAbort dt => Sys2Proof.Machine.execMbxStageAbort dt s
  | .mbxRestart dt => Sys2Proof.Machine.execMbxRestart dt s
  | .mbxUnknownCommand dt word => Sys2Proof.Machine.execMbxUnknownCommand dt word s
  | .mbxLockLapse dt => Sys2Proof.Machine.execMbxLockLapse dt s
  | .flashEraseDone dt ok => Sys2Proof.Machine.execFlashEraseDone dt ok s
  | .flashProgramDone dt ok => Sys2Proof.Machine.execFlashProgramDone dt ok s
  | .flashOperationTimeout dt => Sys2Proof.Machine.execFlashOperationTimeout dt s
  | .stagingCheckDone dt => Sys2Proof.Machine.execStagingCheckDone dt s
  | .faultReport dt extra => Sys2Proof.Machine.execFaultReport dt extra s
  | .fenceCommand dt => Sys2Proof.Machine.execFenceCommand dt s
  | .recoveryAttempt dt d => Sys2Proof.Machine.execRecoveryAttempt dt d s
  | .recoverySequenceEnd dt d failing => Sys2Proof.Machine.execRecoverySequenceEnd dt d failing s
  | .recoveryOverrun dt d => Sys2Proof.Machine.execRecoveryOverrun dt d s
  | .recoveryCleanTick dt => Sys2Proof.Machine.execRecoveryCleanTick dt s
  | .hbAliveMissed dt c => Sys2Proof.Machine.execHbAliveMissed dt c s
  | .hbDigestExchange dt equal => Sys2Proof.Machine.execHbDigestExchange dt equal s
  | .hbSelfCheckFail dt c => Sys2Proof.Machine.execHbSelfCheckFail dt c s
  | .bothFailedLatch dt => Sys2Proof.Machine.execBothFailedLatch dt s
  | .bbxRecordWritten dt => Sys2Proof.Machine.execBbxRecordWritten dt s
  | .bbxMirrorStart dt => Sys2Proof.Machine.execBbxMirrorStart dt s
  | .bbxMirrorDone dt ok => Sys2Proof.Machine.execBbxMirrorDone dt ok s
  | .permitWithdrawn dt input highNs => Sys2Proof.Machine.execPermitWithdrawn dt input highNs s
  | .permitRestored dt input => Sys2Proof.Machine.execPermitRestored dt input s
  | .alsShutdown dt p => Sys2Proof.Machine.execAlsShutdown dt p s
  | .alsProbeEntry dt p => Sys2Proof.Machine.execAlsProbeEntry dt p s
  | .alsProbeWindowEnd dt p => Sys2Proof.Machine.execAlsProbeWindowEnd dt p s
  | .alsProbeJudged dt p => Sys2Proof.Machine.execAlsProbeJudged dt p s
  | .alsProbeNoLaunch dt p => Sys2Proof.Machine.execAlsProbeNoLaunch dt p s
  | .keyAcknowledge dt k => Sys2Proof.Machine.execKeyAcknowledge dt k s
  | .keyManualRestart dt k => Sys2Proof.Machine.execKeyManualRestart dt k s
  | .keyLampTest dt k => Sys2Proof.Machine.execKeyLampTest dt k s
  | .lampTestTimeout dt => Sys2Proof.Machine.execLampTestTimeout dt s
  | .keyBrightness dt k => Sys2Proof.Machine.execKeyBrightness dt k s
  | .keyRelease dt k => Sys2Proof.Machine.execKeyRelease dt k s
  | .panelCompose dt => Sys2Proof.Machine.execPanelCompose dt s
  | .panelBufferSwap dt => Sys2Proof.Machine.execPanelBufferSwap dt s
  | .colourMeasurement dt => Sys2Proof.Machine.execColourMeasurement dt s
  | .colourPhaseEnd dt counts => Sys2Proof.Machine.execColourPhaseEnd dt counts s
  | .ledDiagPulse dt led isOpen => Sys2Proof.Machine.execLedDiagPulse dt led isOpen s
  | .ledDiagExpiry dt led => Sys2Proof.Machine.execLedDiagExpiry dt led s
  | .placketAttach dt => Sys2Proof.Machine.execPlacketAttach dt s
  | .placketDetach dt => Sys2Proof.Machine.execPlacketDetach dt s
  | .dfuDnload dt block data => Sys2Proof.Machine.execDfuDnload dt block data s
  | .dfuGetstatus dt => Sys2Proof.Machine.execDfuGetstatus dt s
  | .dfuClrstatus dt => Sys2Proof.Machine.execDfuClrstatus dt s
  | .dfuGetstate dt => Sys2Proof.Machine.execDfuGetstate dt s
  | .dfuAbort dt => Sys2Proof.Machine.execDfuAbort dt s
  | .dfuDetach dt => Sys2Proof.Machine.execDfuDetach dt s
  | .dfuUpload dt => Sys2Proof.Machine.execDfuUpload dt s
  | .placketStatusRead dt r failed => Sys2Proof.Machine.execPlacketStatusRead dt r failed s
  | .placketBlackBoxRead dt r => Sys2Proof.Machine.execPlacketBlackBoxRead dt r s
  | .placketEcho dt r => Sys2Proof.Machine.execPlacketEcho dt r s
  | .placketBlackBoxDump dt r => Sys2Proof.Machine.execPlacketBlackBoxDump dt r s
  | .placketRestart dt r => Sys2Proof.Machine.execPlacketRestart dt r s
  | .placketBadRequest dt r => Sys2Proof.Machine.execPlacketBadRequest dt r s
  | .apdBiasOutOfRange dt p b mv => Sys2Proof.Machine.execApdBiasOutOfRange dt p b mv s
  | .apdCurrentHigh dt p b microA => Sys2Proof.Machine.execApdCurrentHigh dt p b microA s
  | .hbSelfTestDone dt aOk bOk => Sys2Proof.Machine.execHbSelfTestDone dt aOk bOk s
  | .pcieLinkUp dt speed width => Sys2Proof.Machine.execPcieLinkUp dt speed width s
  | .bar2Write dt offset => Sys2Proof.Machine.execBar2Write dt offset s
  | .placketConfigured dt highSpeed => Sys2Proof.Machine.execPlacketConfigured dt highSpeed s
  | .ethFrameSent dt lane => Sys2Proof.Machine.execEthFrameSent dt lane s

end Sys2Proof.Machine
end

