-- ==== Sys2Proof/Safety.lean ====
section
/-! DEFINITION. What counts as safe, in the terms statements use: light leaves a port only with its hardwired permit (R426, R427),
memories keep their canonical form, a closed fence belongs to a domain the hatband holds fenced (R406, R413), and what a report
of the device may change and nothing else. -/

namespace Sys2Proof.Machine

/-! ## Invariants -/

/-- A port whose gate or shutter is open has its hardwired permit (R62, R426, R427). -/
def State.EmissionSafe (s : State) : Prop :=
  ∀ p : Port, (s.opt.ports[p].gate.isSome = true → s.hardPermit p = true) ∧
    (s.opt.ports[p].shutter = true → s.hardPermit p = true)

/-- Flash and DRAM list their bytes in rising address order and none that equals an unlisted byte. -/
def State.MemoryCanonical (s : State) : Prop :=
  Memory.wf erased s.flash.cells = true ∧ Memory.wf 0 s.mem.cells = true

/-- An agent whose fence is closed belongs to a domain that the hatband holds fenced (R406, R413). -/
def State.FencesAgree (s : State) : Prop := ∀ d : Domain, s.isShut d = true → (s.dom d).fenced = true

/-- In reset no controller has failed and the both-failed latch is clear (R397, R412). -/
def State.HeldWhole (s : State) : Prop :=
  s.power.phase = .held → s.hb.ctlA = .active ∧ s.hb.ctlB = .standby ∧ s.hb.bothFailed = false

/-- What the power-fail sequence leaves of a device that was in state `u` (R403, R465, R475). -/
def State.PoweredDown (t u : State) : Prop :=
  t.power.phase = .powerFail ∧ t.power.request = none ∧ t.power.failAt = u.now ∧
    (∀ p : Port, t.opt.ports[p].gate = none ∧ t.opt.ports[p].shutter = false ∧ t.dts[p].biasOff = true) ∧
    t.opt.laser = .off ∧ t.opt.lockDetected = false ∧ t.opt.tecCurrent = 0 ∧ t.cfg.staging = none ∧ t.bbx.mirror = none ∧
    t.bbx.queue = [] ∧ (∃ r, t.bbx.slots.head? = some (some r) ∧ r.kind = 0x0003) ∧ t.cfg.image = u.cfg.image ∧
    t.cfg.keys = u.cfg.keys ∧ t.mem.cells = u.mem.cells ∧ t.permits = u.permits ∧ t.tim = u.tim ∧ t.hb.doms = u.hb.doms

/-- What the data path leaves alone: supplies, configuration, time, flash, DRAM, the hardwired inputs, fences, alarm outputs, panel,
placket, mailbox and lanes stand as in state `u`. -/
def State.ControlKept (t u : State) : Prop :=
  t.power = u.power ∧ t.cfg = u.cfg ∧ t.tim = u.tim ∧ t.flash.cells = u.flash.cells ∧ t.mem.cells = u.mem.cells ∧
    t.permits = u.permits ∧ t.hb.doms = u.hb.doms ∧ t.hb.bothFailed = u.hb.bothFailed ∧ t.alarms = u.alarms ∧
    t.pnl = u.pnl ∧ t.plk = u.plk ∧ t.mbx = u.mbx ∧ t.lanes = u.lanes ∧ t.pending = u.pending ∧ t.now = u.now

/-- What the optics' commands leave alone: all that `ControlKept` names, the time-interval unit, phase, events and the supervisory
converter. -/
def State.ElseKept (t u : State) : Prop :=
  t.ControlKept u ∧ t.tiu = u.tiu ∧ t.phs = u.phs ∧ t.evt = u.evt ∧ t.sup = u.sup

/-- Both gates are off; shutters, the ALS states and all that `ElseKept` names stand as in state `u` (R65, R67). -/
def State.GatesClosed (t u : State) : Prop :=
  (∀ p : Port, t.opt.ports[p].gate = none ∧ t.opt.ports[p].shutter = u.opt.ports[p].shutter) ∧ t.als = u.als ∧ t.ElseKept u

/-! ## Reports -/

/-- An output that is no MSI-X message. -/
def Output.isPlain : Output → Bool
  | .msix .. => false
  | _ => true

/-- The state with everything blanked that reports alone may change: black-box queue, fault lines, warnings and HEALTH records,
records on their way to routes and ring 2, and MSI-X messages. -/
def State.hushed (s : State) : State :=
  { s with
    outputs := s.outputs.filter Output.isPlain
    bbx := { s.bbx with queue := [], dropped := 0 }
    hb := { s.hb with reports := [], warnings := [], healthSeq := 0 }
    routes := s.routes.map fun x => { x with inflight := [] }
    mem := { s.mem with items := Vector.replicate 3 [] }
    fab := { s.fab with fencedDiscards := 0 }
    pcie := { s.pcie with msix := s.pcie.msix.map fun e => { e with pending := false, holdUntil := 0, merged := false, sent := 0 } } }

/-- The two states differ at most in what reports change. -/
def OnlyReports (t s : State) : Prop := t.hushed = s.hushed

/-- A fault of a domain stands last on the fault lines (R406). -/
def State.Reported (t : State) (d : Domain) (code value : U32) : Prop := t.hb.reports.getLast? = some ⟨d, code, value⟩

/-- A black-box record of a kind and code waits to be written (R420). -/
def State.Logged (t : State) (kind : Nat) (code : U32) : Prop := ∃ r ∈ t.bbx.queue, r.kind = kind ∧ r.code = code

/-! ## Answers -/

/-- A request on a lane has been answered with a RESULT and data (Table 11.16); nothing changed but the lane's counters and the
requests it holds, the answer sent, and what the read itself touches: latches and read failures. -/
def State.LaneAnswers (t u : State) (l : Lane) (r : MgmtReq) (op result : Nat) (data : List Byte) : Prop :=
  t = { u with
    lanes := upd u.lanes l fun x =>
      { x with rxFrames := x.rxFrames + 1, txFrames := x.txFrames + 1, asked := x.heldAt u.now + 1, askedAt := u.now }
    mgmt := { u.mgmt with requests := u.mgmt.requests + 1 }
    outputs := .udp l r.srcMac r.srcIp (u.mgmtPort l) r.srcPort Config.answerDscp
      (answerBytes mgmtSync.toNat op result r data u.devTime) :: u.outputs
    latches := t.latches, readFailures := t.readFailures }

/-- A vendor request of the placket has been answered likewise (R446). -/
def State.PlacketAnswers (t u : State) (r : MgmtReq) (op result : Nat) (data : List Byte) : Prop :=
  t = { u with
    plk := { u.plk with requests := u.plk.requests + 1 }
    outputs := .usb (answerBytes plkSync.toNat op result r data u.devTime) :: u.outputs
    latches := t.latches, readFailures := t.readFailures }

/-! ## Restarts -/

/-- The commands that start the device again or hold it in reset (R397, R403, R464, R473, R475). -/
def isRestart : Instr → Bool
  | .powerGood .. | .resetNAsserted .. | .pfailRestart .. | .requestedRestart .. => true
  | _ => false

end Sys2Proof.Machine
end

