-- ==== Sys2Proof/Certificates/Slice0/Obligations.lean ====
section
/-! DEFINITION. The statements for the provers: what the spec's numbered rules say each command does, for every state that meets
the statement's hypotheses, with what the command leaves unchanged. `u` is always the state at the instant of the command. -/

open Sys2Proof Sys2Proof.Machine

/-! ## The queue and the machine as a whole -/

/-- A step takes the command at the front of the queue and is `exec` of it with the queue's rest; on an empty queue the block
idles (the model's choice, log entry 1). Rests on log entry 1 (the model's choices). -/
def Obligations.StepRunsFront : Prop :=
  (∀ (c : Instr) (rest : List Instr) (s : State), step { s with pending := c :: rest } = exec c { s with pending := rest }) ∧
    ∀ s : State, s.pending = [] → step s = .next s

/-- Every command answers a next state, but for a PCI Express memory request at an offset outside its window, where no
request reaches the function (R355, R356). No command's effect touches the queue: what waits behind it waits on. -/
def Obligations.EveryCommandCompletes : Prop :=
  (∀ (c : Instr) (s : State), (∃ t, exec c s = .next t) ∨
     (exec c s = .fault .outsideWindow ∧
       ((∃ dt o n, c = .bar2Read dt o n) ∨ (∃ dt o, c = .bar2Write dt o) ∨ (∃ dt o n f, c = .counterLowWordRead dt .pcie o n f) ∨
         ∃ dt o d, c = .registerWrite dt o d))) ∧
  (∀ (c : Instr) (s t : State), exec c s = .next t → t.pending = s.pending)

/-- Headline: whatever command is taken, a port whose gate or shutter is open afterwards has its hardwired permit, if that held
before, so that nothing reopens them against the hardwired path; and a withdrawal closes both, whatever else the device's state is
(R66). Rests on log entry 14 (the model's choices). -/
def Obligations.EmissionNeedsPermit : Prop :=
  (∀ s t : State, s.EmissionSafe → step s = .next t → t.EmissionSafe) ∧
  (∀ (s : State) (dt ns : Nat) (i : PermitInput), 5 ≤ ns → s.permits.asserted[inputIndex i] = true →
    ∃ t, exec (.permitWithdrawn dt i ns) s = .next t ∧ t.permits.asserted[inputIndex i] = false ∧
      ∀ p ∈ inputPorts i, t.opt.ports[p].gate = none ∧ t.opt.ports[p].shutter = false)

/-- Headline: every command keeps flash and DRAM in their canonical form. -/
def Obligations.MemoriesStayCanonical : Prop :=
  ∀ s t : State, s.MemoryCanonical → step s = .next t → t.MemoryCanonical

/-- Headline: every command keeps the agents and the hatband in agreement: no fence is closed on a domain that the hatband does
not hold fenced (R406, R413). Rests on log entry 88 (the model's choices). -/
def Obligations.FencesStayInAgreement : Prop :=
  ∀ s t : State, s.FencesAgree → step s = .next t → t.FencesAgree

/-- Headline: the both-failed latch holds until a restart (R412). Headline: a domain fenced permanently stays fenced permanently
until a restart (R413, Table 13.13). Held in reset, both controllers work and the latch is clear: only a running device fails them
(R397, R411, R412). Rests on log entry 9 (the model's choices). -/
def Obligations.FencingHoldsUntilRestart : Prop :=
  (∀ (c : Instr) (s t : State), s.hb.bothFailed = true → exec c s = .next t → isRestart c = false → t.hb.bothFailed = true) ∧
  (∀ (c : Instr) (s t : State) (d : Domain), (s.dom d).st = .permanent → exec c s = .next t → isRestart c = false →
     (t.dom d).st = .permanent) ∧
  (∀ s t : State, s.HeldWhole → step s = .next t → t.HeldWhole)

/-- What reset leaves: every counter at zero, the laser OFF, gates and shutters closed, PLLs OFF, device time stopped at zero, CFG
loading with both slots unchecked, MEM OFF, no warning and no fault, and TIU_CHANNEL_MAP and margins at their printed values. The
invariants hold at reset. Rests on log entries 9, 10 (the model's choices). -/
def Obligations.ResetLeaves : Prop :=
  (let s := State.reset
   s.power.phase = .held ∧ s.opt.laser = .off ∧ (∀ p : Port, s.opt.ports[p].gate = none ∧ s.opt.ports[p].shutter = false) ∧
     s.tim.a.st = .off ∧ s.tim.d.st = .off ∧ s.tim.runs = false ∧ s.tim.time = 0 ∧ s.tim.wraps = 0 ∧
     s.cfg.state = 0 ∧ (∀ k : Fin 2, s.cfg.slots[k].code = 0xFF) ∧ s.mem.st = .off ∧ s.hb.warnings = [] ∧ s.hb.reports = [] ∧
     (∀ d : Domain, s.dom d = {}) ∧ s.tiu.map = #v[0, 1, 2, 3, 4, 5, 0xE, 0xE] ∧ (∀ r : Region, s.fab.regions[r].margin = 0xFFFF) ∧
     (∀ c : Fin 3, s.pnl.trims[c] = 1024) ∧ s.outputs = [] ∧ s.pending = []) ∧
  (State.reset.EmissionSafe ∧ State.reset.MemoryCanonical ∧ State.reset.FencesAgree ∧ State.reset.HeldWhole)

/-! ## Power, restart and start (chapters 12 and 13) -/

/-- POWER_GOOD starts the device: the cause of R475 is reported, the black box counts the start and writes its start record with
FLAGS[0] (R418, R419), and a controller whose self-test fails is failed, both failing setting the latch (R412).
Rests on log entries 9, 11, 13, 41 (the model's choices). -/
def Obligations.PowerGoodStarts : Prop :=
  ∀ (s u : State) (dt : Nat) (a b : Bool), u = s.elapse dt → u.power.phase = .held →
    u.hb.ctlA = .active → u.hb.ctlB = .standby → u.hb.bothFailed = false →
    ∃ t, exec (.powerGood dt a b) s = .next t ∧ t.power.phase = .up ∧ t.power.cause = u.power.nextCause ∧
      t.power.belowThreshold = false ∧ t.bbx.boot = u.bbx.boot + 1 ∧
      (∃ r, some r ∈ t.bbx.slots ∧ r.kind = 0x0001 ∧ r.flags = 1 ∧ r.seq = u.bbx.nextSeq) ∧
      (t.hb.ctlA = .failed ↔ a = false) ∧ (t.hb.ctlB = .failed ↔ b = false) ∧ (t.hb.bothFailed = true ↔ a = false ∧ b = false) ∧
      t.flash = u.flash ∧ t.cfg = u.cfg ∧ t.tim = u.tim ∧ t.opt = u.opt ∧ t.permits = u.permits ∧ t.mem.cells = u.mem.cells ∧
      t.plk = u.plk ∧ t.mbx = u.mbx ∧ t.sht = u.sht ∧ t.lanes = u.lanes

/-- RESET_N low for 1 µs or more, the power-fail restart when its time has passed, and a requested restart when it is due hold the
device in reset with their cause recorded. What a restart keeps are the black-box store, the key fuses, the flash contents and
the levels at lands; the header of a slot under staging is cleared, and every other register returns to its reset value (R397, R398, R405, R464, R475).
Rests on log entry 12 (the model's choices). -/
def Obligations.RestartsHoldReset : Prop :=
  ∀ (s u : State) (dt : Nat), u = s.elapse dt →
    let flash := ((u.cfg.staging.map fun g => u.stageClear g).getD u).flash
    let kept (power : Power) : State :=
      { State.reset with
        pending := u.pending, now := u.now, free := u.free, outputs := u.outputs, power := power, flash := flash
        bbx := { slots := u.bbx.slots, next := u.bbx.next, lastSeq := u.bbx.lastSeq, boot := u.bbx.boot }
        cfg := { keys := u.cfg.keys }, permits := { asserted := u.permits.asserted, risenAt := u.permits.risenAt }, trigLevel := u.trigLevel
        pnl := { keys := u.pnl.keys.map fun k => { pressed := k.pressed, acted := k.pressed, changedAt := k.changedAt } }
        plk := { vbus := u.plk.vbus } }
    (∀ lowNs, 1000 ≤ lowNs → exec (.resetNAsserted dt lowNs) s = .next (kept
      { u.power with phase := .held, resetSeen := true, request := none, requested := none })) ∧
    (u.power.phase = .powerFail → u.power.failAt + u.pfailRestartMs * msP ≤ u.now →
      exec (.pfailRestart dt) s = .next (kept { u.power with phase := .held, pfailSeen := true })) ∧
    (∀ cause due, u.power.request = some (cause, due) → u.power.phase = .up → due ≤ u.now →
      exec (.requestedRestart dt) s = .next (kept
        { u.power with phase := .held, request := none, requested := some cause }))

/-- PFAIL_N low for 100 ns or more, and a supply monitor's trip, start the power-fail sequence: both gates are off and both
shutters closed, the laser and the APD biases off, no staging and no mirror stands, a requested restart is abandoned, the
black-box queue is empty with the power-fail record written, and the state is POWER_FAIL (R403, R465, R473, R475). Configuration
image, DRAM and the hardwired inputs stay. A low pulse on RESET_N below 100 ns, or on PFAIL_N below 20 ns, changes nothing but the
time, one on RESET_N of 1 µs or more restarts the device, and one in between may or may not (R474).
Rests on log entries 14, 15, 16 (the model's choices). -/
def Obligations.PowerFailActs : Prop :=
  (∀ (s u : State) (dt : Nat) (m : BitVec 8), u = s.elapse dt → u.power.phase = .up →
     (∀ lowNs, 100 ≤ lowNs → ∃ t, exec (.powerFailWarning dt lowNs m) s = .next t ∧ t.PoweredDown u ∧
       t.power.tripSeen = (u.power.tripSeen || m != 0)) ∧
     (∀ low below, ∃ t, exec (.supplyMonitorTrip dt m low below) s = .next t ∧ t.PoweredDown u ∧ t.power.tripSeen = true ∧
       t.power.belowThreshold = (u.power.belowThreshold || below))) ∧
  (∀ (s : State) (dt lowNs : Nat) (m : BitVec 8),
     (lowNs < 100 → exec (.resetNAsserted dt lowNs) s = .next (s.elapse dt)) ∧
     (1000 ≤ lowNs → ∃ t, exec (.resetNAsserted dt lowNs) s = .next t ∧ t.power.phase = .held ∧ t.power.resetSeen = true) ∧
     (100 ≤ lowNs → lowNs < 1000 → ∃ t, exec (.resetNAsserted dt lowNs) s = .next t ∧
       ((t.power.phase = .held ∧ t.power.resetSeen = true) ∨ t = (s.elapse dt).takeFree)) ∧
     (lowNs < 20 → exec (.powerFailWarning dt lowNs m) s = .next (s.elapse dt)) ∧
     (100 ≤ lowNs → (s.elapse dt).power.phase = .powerFail → ∃ t, exec (.powerFailWarning dt lowNs m) s = .next t ∧
       t.power.failAt = (s.elapse dt).now))


/-- CFG_LOAD_START reads both headers: each slot's registers take the header check's result (R380), and without a candidate CFG is
UNCONFIGURED with PCI Express and the placket in service and both results in the black box (R84, R386); with one, the candidate with the higher GENERATION is read, slot A
with equal ones, and PLL-A enters its first attempt (R380, Table 12.10 step 4). A flash read
in a quad mode has its quad-enable bit set (R367). Rests on log entries 17, 23 (the model's choices). -/
def Obligations.LoaderChoosesSlot : Prop :=
  ∀ (s u : State) (dt : Nat), u = s.elapse dt → u.power.phase = .up → u.cfg.state = 0 → u.cfg.released = false →
    ∃ t, exec (.cfgLoadStart dt) s = .next t ∧ t.cfg.released = true ∧ t.cfg.flashId = u.flash.jedec ∧
      (∀ k : Fin 2, t.cfg.slots[k] = headerResult (u.slotHeader k.val)) ∧
      (let a := t.cfg.slots[(0 : Fin 2)]
       let b := t.cfg.slots[(1 : Fin 2)]
       (a.candidate = false → b.candidate = false →
          t.cfg.state = 2 ∧ t.cfg.current = none ∧ t.tim = u.tim ∧
            (u.bbx.queue.length < 64 → t.Logged 0x0002 0 ∧ t.outputs = u.outputs) ∧ (t.dom 14).st = (u.dom 14).serve.st ∧
          (t.dom 16).st = (u.dom 16).serve.st) ∧
        (a.candidate = true → (b.candidate = true → b.generation.toNat ≤ a.generation.toNat) → t.cfg.current = some 0) ∧
        (b.candidate = true → (a.candidate = true → a.generation.toNat < b.generation.toNat) → t.cfg.current = some 1) ∧
        (a.candidate = true ∨ b.candidate = true → t.cfg.state = 0 ∧ t.tim.a.st = .acquire ∧ t.tim.a.attempts = 1 ∧
          t.tim.d = u.tim.d ∧ t.hb = u.hb ∧ t.bbx = u.bbx ∧ t.outputs = u.outputs)) ∧
      t.flash = { u.flash with quadEnabled := u.flash.quadEnabled || u.readsQuad } ∧ t.cfg.keys = u.cfg.keys ∧ t.cfg.image = u.cfg.image ∧ t.opt = u.opt ∧
      t.mem.cells = u.mem.cells ∧ t.permits = u.permits

/-- IMAGE_READ_DONE checks the chosen slot fully: an image that passes every check is loaded, its slot reads code 0 and PLL-D is
released; one that fails leaves its code, type and offset in the slot's registers and the other candidate is read, and after two
failures, or without another candidate, the device is UNCONFIGURED (R380, R381, R385, R386).
Rests on log entries 8, 17, 18, 19, 20, 21, 22, 23 (the model's choices). -/
def Obligations.LoaderChecksImage : Prop :=
  ∀ (s u : State) (dt k : Nat) (slot : Fin 2) (r : LoadResult), u = s.elapse dt → u.power.phase = .up → u.cfg.state = 0 →
    u.cfg.current = some k → slot = (if k = 0 then 0 else 1) → r = checkImage u.cfg.keys k (u.slotImage k) →
    ∃ t, exec (.imageReadDone dt) s = .next t ∧ t.flash = u.flash ∧ t.opt = u.opt ∧ t.permits = u.permits ∧
      t.mem.cells = u.mem.cells ∧ t.power = u.power ∧
      (∀ m, r.image = some m → t.cfg.state = 1 ∧ t.cfg.image = some m ∧ t.cfg.slots[slot].code = 0 ∧
        t.cfg.slots[1 - slot] = u.cfg.slots[1 - slot] ∧ t.cfg.fallback = u.cfg.fellBack ∧ t.tim.d.st = .acquire ∧
        t.pnl.running = true) ∧
      (r.image = none → t.cfg.slots[slot] = u.cfg.slots[slot].failed r ∧ t.cfg.slots[1 - slot] = u.cfg.slots[1 - slot] ∧
        t.cfg.image = u.cfg.image ∧
        (if u.cfg.slots[1 - slot].candidate = true ∧ u.cfg.fellBack = false then
          t.cfg.state = 0 ∧ t.cfg.current = some (1 - k) ∧ t.cfg.fellBack = true
         else t.cfg.state = 2 ∧ t.cfg.current = none))

/-! ## The laser (chapter 2) -/

/-- The start of the laser takes its states in order: WARMING, LOCKING, TUNING, SETTLING, READY, each within the window of its
row and READY after a second of SETTLING; outside its window a state stands; a lock found in RELOCK counts a
relock; the first READY lets each port leave ALS state IDLE (Tables 2.8, 2.9 and 14.2). Nothing else of the optical engine
changes. LSR_RELEASE lets the laser warm up (R400 step 7); a management function whose start check fails is reported to be fenced
(R402). Rests on log entries 24, 95 (the model's choices). -/
def Obligations.LaserStartsInOrder : Prop :=
  (∀ (s u : State) (dt : Nat), u = s.elapse dt → u.lsrOn = true →
     (∀ err : Int, u.opt.laser = .warming → exec (.laserDieInWindow ⟨dt, err⟩) s = .next
       (if err.natAbs ≤ 1000 then { u with opt := { u.opt with laser := .locking, dieError := err } } else u)) ∧
     (u.opt.laser = .locking → exec (.injectionLockDetected dt) s = .next
       { u with opt := { u.opt with laser := .tuning, lockDetected := true, attempts := 0 } }) ∧
     (u.opt.laser = .relock → exec (.injectionLockDetected dt) s = .next
       { u with opt := { u.opt with laser := .tuning, lockDetected := true, attempts := 0, relocks := u.opt.relocks + 1 } }) ∧
     (∀ err : Int, u.opt.laser = .tuning → exec (.wavelengthTuned ⟨dt, err⟩) s = .next
       (if err.natAbs ≤ 200 then { u with opt := { u.opt with laser := .settling, waveError := err, settlingAt := u.now } } else u)) ∧
     (∀ de we : Int, u.opt.laser = .settling → de.natAbs ≤ 10 → we.natAbs ≤ 50 → u.opt.settlingAt + secP ≤ u.now →
       ∃ t, exec (.laserReady ⟨dt, (de, we)⟩) s = .next t ∧ t.opt.laser = .ready ∧ t.opt.everReady = true ∧
       t.opt.dieError = de ∧ t.opt.waveError = we ∧
       t.opt.waveFault = none ∧ t.opt.dieClose = true ∧ t.opt.waveClose = true ∧ t.ElseKept u ∧
       (u.opt.everReady = true →
         t = { u with opt := { u.opt with dieError := de, waveError := we, laser := .ready, everReady := true, waveFault := none,
                                          dieClose := true, waveClose := true } }) ∧
       (∀ p : Port, u.opt.everReady = false → u.als[p].st = .idle → u.portLaunches p = true → t.als[p].st =
         (if u.hardPermit p = false then .held else if u.alsDistance p = 0 then .disabled
           else if u.alsBlind then .suspended else .probe)) ∧
       (∀ p : Port, (u.als[p].st ≠ .idle ∨ u.portLaunches p = false) → t.als[p] = u.als[p] ∧ t.opt.ports[p] = u.opt.ports[p]))) ∧
  (∀ (s u : State) (dt : Nat) (c : StartChecks), u = s.elapse dt → u.power.phase = .up → u.cfg.state = 1 → u.opt.laser = .off →
     ∃ t, exec (.lsrRelease dt c) s = .next t ∧ t.opt = { u.opt with laser := .warming } ∧
       (c.supOk = false → ∃ f ∈ t.hb.reports, f.domain = 18) ∧ (c.tiuOk = false → ∃ f ∈ t.hb.reports, f.domain = 19) ∧
       (∀ d ∈ c.other, ⟨d, 0x00028001#32, 0⟩ ∈ t.hb.reports) ∧ t.cfg = u.cfg ∧ t.tim = u.tim ∧ t.mem.cells = u.mem.cells ∧
       t.flash = u.flash ∧ t.permits = u.permits ∧ t.hb.doms = u.hb.doms ∧ t.als = u.als ∧ t.sht = u.sht)

/-- Losing the injection lock, the wavelength window or the die window turns both gates off (R67): the laser goes to RELOCK, TUNING or SETTLING, the row of Table 2.10 is counted, and a lost lock with RELOCK_LIMIT zero or more than ten
losses in 60 s fences FD02. The wavelength row needs more than 0.050 nm, the die row more than 0.1 K for 1 s; short of that only the
reading is kept. When a row ends READY and the other applies at the same instant, it acts as well, and the laser is where the
further one puts it (R68). -/
def Obligations.LaserLossTurnsGatesOff : Prop :=
  ∀ (s u : State) (dt : Nat) (err : Int), u = s.elapse dt → u.lsrOn = true →
    (u.opt.laser = .ready ∨ u.opt.laser = .settling ∨ u.opt.laser = .tuning → ∃ t, exec (.injectionLockLost dt) s = .next t ∧
      t.GatesClosed u ∧ t.opt.laser = .relock ∧ t.opt.lockDetected = false ∧ t.opt.lockLosses = u.opt.lockLosses + 1 ∧
      t.opt.rows = upd u.opt.rows 0 (· + 1) ∧ t.opt.attempts = 1 ∧
      (u.relockLimit = 0 ∨ 10 ≤ (u.opt.losses.filter fun x => decide (u.now < x + 60 * secP)).length → ∃ v, t.Reported 2 0x00068001#32 v)) ∧
    (500 < err.natAbs → u.opt.laser = .ready → ∃ t, exec (.wavelengthOutOfWindow dt err) s = .next t ∧ t.GatesClosed u ∧ t.opt.laser = .tuning ∧
      t.opt.waveClose = false ∧ t.opt.waveError = err ∧ t.opt.waveFault = some u.now ∧ t.opt.rows = upd u.opt.rows 1 (· + 1)) ∧
    (100 < err.natAbs → ∀ ms, 1000 ≤ ms → u.opt.laser = .ready → ∃ t, exec (.dieTempOutOfWindow dt ⟨err, ms⟩) s = .next t ∧ t.GatesClosed u ∧ t.opt.laser = .settling ∧
      t.opt.dieClose = false ∧ t.opt.dieError = err ∧ t.opt.rows = upd u.opt.rows 2 (· + 1)) ∧
    (err.natAbs ≤ 500 → exec (.wavelengthOutOfWindow dt err) s = .next { u with opt := { u.opt with waveError := err } }) ∧
    (∀ ms, err.natAbs ≤ 100 ∨ ms < 1000 → exec (.dieTempOutOfWindow dt ⟨err, ms⟩) s = .next { u with opt := { u.opt with dieError := err } }) ∧
    (500 < err.natAbs → u.opt.laser = .settling → u.opt.leftReadyAt = some u.now → ∃ t, exec (.wavelengthOutOfWindow dt err) s = .next t ∧
      t.GatesClosed u ∧ t.opt.laser = .tuning ∧ t.opt.waveFault = some u.now ∧ t.opt.rows = upd u.opt.rows 1 (· + 1)) ∧
    (100 < err.natAbs → ∀ ms, 1000 ≤ ms → u.opt.laser = .tuning → u.opt.leftReadyAt = some u.now →
      ∃ t, exec (.dieTempOutOfWindow dt ⟨err, ms⟩) s = .next t ∧ t.GatesClosed u ∧ t.opt.laser = .tuning ∧ t.opt.dieClose = false ∧
      t.opt.rows = upd u.opt.rows 2 (· + 1))

/-- The laser's fence conditions of Table 2.10: a relock that fails RELOCK_LIMIT times, each 300 ms after its start, a wavelength not recovered in 5 s, a die
more than 1 K from its setpoint for 10 s and a die over temperature report FD02 with the row's code; short of its limit a failed relock
starts the next attempt. Over temperature also turns both gates off and cuts the TEC, in FAULT. A laser below 70 % of its power
warns with the row counted, below 50 % it also reports FD02 (Table 2.10 row 5); a TEC at its limit for more than 10 s warns (R61). Apart from those flags and
counters only reports are made. Rests on log entries 35, 36 (the model's choices). -/
def Obligations.LaserFaultsAndWarnings : Prop :=
  (∀ (s u : State) (dt : Nat), u = s.elapse dt →
     (u.lsrOn = true → u.opt.laser = .relock → u.opt.attemptAt + 300 * msP ≤ u.now → u.opt.attempts < u.relockLimit →
       exec (.relockAttemptTimeout dt) s = .next { u with opt := { u.opt with attempts := u.opt.attempts + 1, attemptAt := u.now } }) ∧
     (u.lsrOn = true → u.opt.laser = .relock → u.opt.attemptAt + 300 * msP ≤ u.now → u.relockLimit ≤ u.opt.attempts →
       exec (.relockAttemptTimeout dt) s = .next (u.report 2 0x00068001#32 (BitVec.ofNat 32 u.opt.attempts))) ∧
     (∀ t0, u.opt.waveFault = some t0 → u.lsrOn = true → u.opt.laser ≠ .ready → t0 + 5 * secP ≤ u.now →
       exec (.wavelengthRecoveryTimeout dt) s =
         .next ({ u with opt := { u.opt with waveFault := none } }.report 2 0x00068002#32 (BitVec.ofInt 32 u.opt.waveError))) ∧
     (∀ (err : Int) (ms : Nat), u.lsrOn = true → u.opt.laser = .settling ∨ u.opt.laser = .ready ∨ u.opt.laser = .tuning ∨ u.opt.laser = .relock →
       1000 < err.natAbs → 10000 ≤ ms → exec (.dieTempFenceTimeout ⟨dt, ⟨err, ms⟩⟩) s =
       .next ({ u with opt := { u.opt with dieError := err } }.report 2 0x00068003#32 (BitVec.ofInt 32 err))) ∧
     (u.power.phase = .up → ∃ t, exec (.dieOverTemperature dt) s = .next t ∧ t.GatesClosed u ∧ t.opt.laser = .fault ∧
       t.opt.lockDetected = false ∧ t.opt.tecCurrent = 0 ∧ t.opt.rows = upd u.opt.rows 3 (· + 1) ∧ t.Reported 2 0x00068004#32 0)) ∧
  (∀ (s u : State) (dt n : Nat), u = s.elapse dt → u.lsrOn = true → u.hatbandActs = true →
     (u.opt.everReady = true → n < 700 → ∃ t, exec (.laserPowerLow dt n) s = .next t ∧
       OnlyReports t { u with opt := { u.opt with rows := upd u.opt.rows 4 (· + 1), laserPower := BitVec.ofNat 32 n } } ∧
       t.warned 0x00060002#32 = true ∧ (n < 500 → t.Reported 2 0x00068005#32 (BitVec.ofNat 32 n))) ∧
     (∀ ms, u.opt.laser ≠ .off → u.opt.laser ≠ .fault → 10000 < ms → ∃ t, exec (.tecSaturated ⟨dt, ms⟩) s = .next t ∧
       OnlyReports t { u with opt := { u.opt with tecSaturated := true } } ∧ t.warned 0x00060001#32 = true))

/-! ## The ports' optics (chapter 2) -/

/-- A launch peak too high, light between pulses, a gate held too long, a LO power or a photodiode out of range report the port's
launch domain with the code of their row of Table 2.10, and the row is counted; the first two close gate and shutter, and a gate held
too long is turned off and counted (R63, R67). Shots more than 1.0 dB below setting with the SOA drive at its limit warn, and more
than 3.0 dB below report the launch domain too (row 7). Rests on log entries 35, 103 (the model's choices). -/
def Obligations.PortFaultsReport : Prop :=
  ∀ (s u : State) (dt n : Nat) (p : Port), u = s.elapse dt →
    (u.launchOn p = true → u.opt.ports[p].gate ≠ none → ∃ t, exec (.launchPeakHigh dt p) s = .next t ∧
      t.opt.ports[p].gate = none ∧ t.opt.ports[p].shutter = false ∧ t.opt.rows = upd u.opt.rows 5 (· + 1) ∧
      (∀ q, q ≠ p → t.opt.ports[q] = u.opt.ports[q]) ∧ t.als = u.als ∧ t.ElseKept u ∧
      t.Reported (portDomain p) 0x00068006#32 (BitVec.ofNat 32 p.val)) ∧
    (u.launchOn p = true → u.opt.ports[p].shutter = true → ∃ t, exec (.leakageBetweenPulses dt p) s = .next t ∧
      t.opt.ports[p].gate = none ∧ t.opt.ports[p].shutter = false ∧ t.opt.rows = upd u.opt.rows 7 (· + 1) ∧
      (∀ q, q ≠ p → t.opt.ports[q] = u.opt.ports[q]) ∧ t.als = u.als ∧ t.ElseKept u ∧
      t.Reported (portDomain p) 0x00068008#32 (BitVec.ofNat 32 p.val)) ∧
    (∀ g, u.opt.ports[p].gate = some g → g.openedAt + gateLimit ≤ u.now → ∃ t, exec (.gateHeldTooLong dt p) s = .next t ∧
      t.opt.ports[p].gate = none ∧ t.opt.ports[p].shutter = u.opt.ports[p].shutter ∧
      t.opt.ports[p].gateCuts = u.opt.ports[p].gateCuts + 1 ∧ t.opt.rows = upd u.opt.rows 8 (· + 1) ∧
      (∀ q, q ≠ p → t.opt.ports[q] = u.opt.ports[q]) ∧ t.als = u.als ∧ t.ElseKept u ∧
      t.Reported (portDomain p) 0x00068009#32 (BitVec.ofNat 32 p.val)) ∧
    (u.launchOn p = true → u.opt.everReady = true → n < 500 ∨ 2000 < n → exec (.loPowerOutOfRange dt p n) s =
      .next ({ u with opt := { u.opt with
        rows := upd u.opt.rows 10 (· + 1)
        ports := upd u.opt.ports p fun x => { x with loPower := BitVec.ofNat 32 n } } }.report
          (portDomain p) 0x0006800B#32 (BitVec.ofNat 32 n))) ∧
    (u.launchOn p = true → u.opt.everReady = true → n < 25 ∨ 400 < n → exec (.photodiodeFault dt p n) s =
      .next ({ u with opt := { u.opt with rows := upd u.opt.rows 11 (· + 1) } }.report (portDomain p) 0x0006800C#32
        (BitVec.ofNat 32 n))) ∧
    (∀ ts, u.launchOn p = true → u.hatbandActs = true → 100 < n → Config.soaLimit p ≤ u.opt.ports[p].driveOf ts →
      ∃ t, exec (.launchPeakLow dt p ⟨ts, n⟩) s = .next t ∧
      OnlyReports t { u with opt := { u.opt with rows := upd u.opt.rows 6 (· + 1) } } ∧ t.warned 0x00060003#32 = true ∧
      (300 < n → t.Reported (portDomain p) 0x00068007#32 (BitVec.ofNat 32 n)))


/-! ## Synthesis and time (chapter 4) -/

/-- Device time is a 64-bit count with a 32-bit fraction that advances by its increment in every CK_LNC period while it runs, and
TIM_WRAP_COUNT counts its wraps (R115, R116): DEVICE_TIME_WRAP takes it to just past zero with the count one higher, and touches
nothing but time and since when each port has been dark. Extended device time moves by the increment for every period that passes before a command, as one number of 128
bits, and with time stopped it stands (R115, R116). Rests on log entry 2 (the model's choices). -/
def Obligations.DeviceTimeAdvances : Prop :=
  (∀ s : State, s.tim.runs = true → 0 < s.tim.incr → s.tim.incr ≤ 2 ^ 96 →
     ∃ n t, exec .deviceTimeWrap s = .next t ∧ t = { s with now := s.now + n, tim := t.tim, darkFrom := t.darkFrom } ∧
       t.tim = { s.tim with time := t.tim.time, frac := t.tim.frac, wraps := s.tim.wraps + 1 } ∧
       t.tim.full < s.tim.incr ∧ t.tim.full + 2 ^ 96 = s.tim.full + n * s.tim.incr) ∧
  (∀ (s : State) (dt : Nat),
     (s.tim.runs = false → (s.elapse dt).tim = s.tim) ∧
     (s.tim.runs = true →
       (s.elapse dt).tim.wraps.toNat * 2 ^ 96 + (s.elapse dt).tim.full =
         (s.tim.wraps.toNat * 2 ^ 96 + s.tim.full + dt * s.tim.incr) % 2 ^ 128))

/-- The lock machine (R107, Table 4.4): in ACQUIRE or RELOCK a bad window clears the count, a good one raises it, and the third
good window in a row declares LOCKED; in LOCKED a good window changes nothing and a bad one sends both locked PLLs into COAST
(R108). PLL-A's first lock restarts the dividers and starts device time at zero (R111, R112); a later lock keeps it running, and in
SYNC_MODE 1 or 2 calls for the next SYNC_IN edge (R114); in SYNC_MODE 0 it restarts the dividers. CK_PNL and CK_SUP start with PLL-A's
first lock (R104). Rests on log entry 28 (the model's choices). -/
def Obligations.PllLocksAfterThree : Prop :=
  (∀ (s u : State) (dt n : Nat) (k : Pll), u = s.elapse dt →
     ((u.pll k).st = .acquire ∨ (u.pll k).st = .relock →
       (windowGood n (u.expectedCount k) = false → exec (.pllLockWindow dt k n) s = .next (u.setPll k fun x => { x with good := 0 })) ∧
       (windowGood n (u.expectedCount k) = true → (u.pll k).good + 1 < 3 →
         exec (.pllLockWindow dt k n) s = .next (u.setPll k fun x => { x with good := x.good + 1 })) ∧
       (windowGood n (u.expectedCount k) = true → 3 ≤ (u.pll k).good + 1 → ∃ t, exec (.pllLockWindow dt k n) s = .next t ∧
         (t.pll k).st = .locked ∧ (t.pll k).controlled = true ∧ t = { u with tim := t.tim, pnl := t.pnl } ∧
         t.pnl = (if k = .a ∧ u.tim.a.controlled = false then { u.pnl with scanFrom := u.now, colourAt := u.now } else u.pnl))) ∧
     ((u.pll k).st = .locked → windowGood n (u.expectedCount k) = true → exec (.pllLockWindow dt k n) s = .next u) ∧
     ((u.pll k).st = .locked → windowGood n (u.expectedCount k) = false → u.coastLimit ≠ 0 →
       ∃ t, exec (.pllLockWindow dt k n) s = .next t ∧ (t.pll k).st = .coast ∧ (t.pll k).losses = (u.pll k).losses + 1 ∧
         (t.pll k).coastAt = u.now ∧ t = { u with tim := t.tim } ∧
         (∀ j, (u.pll j).st = .locked → (t.pll j).st = .coast) ∧ t.tim.time = u.tim.time) ∧
     ((u.pll k).st = .locked → windowGood n (u.expectedCount k) = false → u.coastLimit = 0 →
       ∃ t, exec (.pllLockWindow dt k n) s = .next t ∧ (t.pll k).st = .failed ∧ OnlyReports t { u with tim := t.tim })) ∧
  (∀ (s u : State) (dt n : Nat), u = s.elapse dt → (u.pll .a).st = .acquire ∨ (u.pll .a).st = .relock →
     windowGood n (u.expectedCount .a) = true → 3 ≤ (u.pll .a).good + 1 →
     ∃ t, exec (.pllLockWindow dt .a n) s = .next t ∧ t.tim.runs = true ∧
       (u.tim.runs = false → t.tim.time = 0 ∧ t.tim.frac = 0 ∧ t.tim.wraps = 0 ∧ t.tim.incr = 640 * 2 ^ 32 ∧
         t.tim.applied = u.tim.applied + 1 ∧ t.tim.sync = (if u.syncMode = 0 then .none else .first)) ∧
       (u.tim.runs = true → t.tim.time = u.tim.time ∧ t.tim.wraps = u.tim.wraps ∧ t.tim.incr = u.tim.incr) ∧
       (u.tim.runs = true → u.syncMode = 0 → t.tim.applied = u.tim.applied + 1 ∧ t.tim.origin = u.now) ∧
       (u.tim.runs = true → u.syncMode ≠ 0 → u.tim.a.st = .relock → u.tim.sync ≠ .first →
         t.tim.sync = .realign ∧ t.tim.syncAt = u.now ∧ t.tim.applied = u.tim.applied))

/-- The lock machine's timers (Table 4.4, R108, R110): 50 ms without lock start the next ACQUIRE attempt, after the third FAILED; 10 ms
of RELOCK without lock go back to COAST with coast time continuing, 10 ms of COAST with a reference go to RELOCK, a lost reference
starts the 10 ms of a coasting PLL again and sends a locked one into COAST, and COAST_LIMIT fails the PLL, which reports FD03 for PLL-A and FD13 for PLL-D. -/
def Obligations.PllTimersAct : Prop :=
  ∀ (s u : State) (dt : Nat) (k : Pll), u = s.elapse dt →
    ((u.pll k).st = .acquire → (u.pll k).since + 50 * msP ≤ u.now →
      ((u.pll k).attempts < 3 → exec (.pllAcquireTimeout dt k) s =
        .next (u.setPll k fun x => { x with attempts := x.attempts + 1, since := u.now, good := 0 })) ∧
      (3 ≤ (u.pll k).attempts → ∃ t, exec (.pllAcquireTimeout dt k) s = .next t ∧ (t.pll k).st = .failed ∧
        OnlyReports t { u with tim := t.tim } ∧ ∃ v, t.Reported (match k with | .a => 3 | .d => 13) 0x00048001#32 v)) ∧
    ((u.pll k).st = .relock → (u.pll k).since + 10 * msP ≤ u.now → exec (.pllRelockTimeout dt k) s =
      .next (u.setPll k fun x => { x with st := .coast, losses := x.losses + 1, since := u.now })) ∧
    ((u.pll k).st = .coast → (u.pll k).since + 10 * msP ≤ u.now → exec (.pllCoastRelock dt k) s =
      .next (u.setPll k fun x => { x with st := .relock, since := u.now, good := 0 })) ∧
    ((u.pll k).st = .coast ∨ (u.pll k).st = .relock → (u.pll k).coastAt + u.coastLimit * secP ≤ u.now →
      ∃ t, exec (.pllCoastLimit dt k) s = .next t ∧ (t.pll k).st = .failed ∧ OnlyReports t { u with tim := t.tim } ∧
        ∃ v, t.Reported (match k with | .a => 3 | .d => 13) 0x00048001#32 v) ∧
    ((u.pll k).st = .coast → ∃ t, exec (.refclkLost dt) s = .next t ∧ t.pll k = { u.pll k with since := u.now } ∧
      OnlyReports t { u with tim := t.tim }) ∧
    ((u.pll k).st = .locked → u.coastLimit ≠ 0 → ∃ t, exec (.refclkLost dt) s = .next t ∧
      t.pll k = { u.pll k with st := .coast, losses := (u.pll k).losses + 1, since := u.now, coastAt := u.now } ∧
      OnlyReports t { u with tim := t.tim })

/-- A SYNC_IN edge that acts (R112, R113): the first sets device time to zero at a divider restart; a realigning one restarts the
dividers with time kept, unless a shot is in flight; an edge in place is confirmed and one out of place counts a mismatch, warns and
calls for the realignment. Nothing but time, its measurement, reports and, with the first edge, the place of the
schedules on it changes. Rests on log entries 27, 28 (the model's choices). -/
def Obligations.SyncEdgesAct : Prop :=
  ∀ (s u : State) (dt low : Nat) (m : TiuMeas) (offset : Int), u = s.elapse dt → u.power.phase = .up → u.tim.runs = true →
    u.syncMode ≠ 0 → (u.syncMode = 2 → 64 ≤ low) →
    ∃ t, exec (.syncInEdge dt m low offset) s = .next t ∧ OnlyReports t { u with tim := t.tim, tiu := t.tiu, sht := t.sht } ∧
      (u.tim.sync ≠ .first → t.sht = u.sht) ∧
      (u.tim.sync = .first → t.tim.time = 0 ∧ t.tim.wraps = 0 ∧ t.tim.frac = 0 ∧ t.tim.sync = .none ∧
        t.tim.applied = u.tim.applied + 1 ∧ t.tim.origin = u.now) ∧
      (u.tim.sync = .realign → u.shotInFlight 0 = false → u.shotInFlight 1 = false → t.tim.time = u.tim.time ∧
        t.tim.sync = .none ∧ t.tim.applied = u.tim.applied + 1 ∧ t.tim.origin = u.now) ∧
      (u.tim.sync = .realign → u.shotInFlight 0 = true ∨ u.shotInFlight 1 = true → t.tim.sync = .realign ∧
        t.tim.applied = u.tim.applied ∧ t.tim.time = u.tim.time) ∧
      (u.tim.sync = .none → offset = 0 → t.tim.confirmed = u.tim.confirmed + 1 ∧ t.tim.sync = .none ∧ t.tim.time = u.tim.time) ∧
      (u.tim.sync = .none → offset ≠ 0 → t.tim.mismatch = u.tim.mismatch + 1 ∧ t.tim.sync = .realign ∧ t.tim.syncAt = u.now ∧
        t.tim.time = u.tim.time ∧ (u.hatbandActs = true → t.warned 0x00040002#32 = true))

/-- No applied edge for 60 s of the first wait warns, and no further edge within 2 s of a realignment ends the wait without a restart
and warns (R112, R113, R114). A sync frame with a wrong CRC or length is counted; the first valid one in TRACK is taken where a step is
permitted, and device time steps by as many whole seconds as the frame's number is ahead of the second that its own edge marks; a
later valid one that agrees changes nothing; one that differs raises the warning, sets the flag and steps only where a step is
permitted (R124). A frame is judged once by its edge. Rests on log entry 27 (the model's choices). -/
def Obligations.SyncTimersAndFrames : Prop :=
  ∀ (s u : State) (dt : Nat) (slots : List Bool), u = s.elapse dt → u.power.phase = .up →
    (u.tim.sync = .first → u.tim.syncWaiting = false → u.tim.syncAt + 60 * secP ≤ u.now →
      ∃ t, exec (.syncWaitTimeout dt) s = .next t ∧ t.tim = { u.tim with syncWaiting := true } ∧
        (u.hatbandActs = true → t.warned 0x00040001#32 = true) ∧ OnlyReports t { u with tim := t.tim }) ∧
    (u.tim.sync = .realign → u.tim.syncAt + 2 * secP ≤ u.now →
      ∃ t, exec (.syncEdgeTimeout dt) s = .next t ∧ t.tim = { u.tim with sync := .none, syncUnaligned := true } ∧
        (u.hatbandActs = true → t.warned 0x00040003#32 = true) ∧ OnlyReports t { u with tim := t.tim }) ∧
    (u.syncMode = 2 → slots.length ≠ 43 ∨ bitsMsb 8 (crc8 ((slots.drop 2).take 33)) ≠ (slots.drop 35).take 8 →
      exec (.syncFrameReceived dt slots) s =
        .next { u with tim := { u.tim with syncEdge := none, frameErrors := u.tim.frameErrors + 1 } }) ∧
    (∀ edge, u.syncMode = 2 → slots.length = 43 → bitsMsb 8 (crc8 ((slots.drop 2).take 33)) = (slots.drop 35).take 8 →
      slots.getD 34 false = true → u.tim.syncEdge = some edge →
      let d := (bitsOf ((slots.drop 2).take 32) : Int) - nearestSecond edge % (2 ^ 32 : Nat)
      (u.tim.secondsLoaded = false → u.tim.pps = .track → u.stepPermits = true →
        ∃ t, exec (.syncFrameReceived dt slots) s = .next t ∧ t.tim.secondsLoaded = true ∧ t.tim.syncEdge = none ∧
          OnlyReports t { u with tim := t.tim, sht := t.sht } ∧
          (d = 0 → t.tim = { u.tim with syncEdge := none, secondsLoaded := true } ∧ t.sht = u.sht) ∧
          (d ≠ 0 → t.tim.steps = u.tim.steps + 1 ∧ (t.tim.extended : Int) = (u.tim.extended + d * secLsb * 2 ^ 32) % (2 ^ 128 : Nat))) ∧
      (u.tim.secondsLoaded = false → u.tim.pps ≠ .track ∨ u.stepPermits = false →
        exec (.syncFrameReceived dt slots) s = .next { u with tim := { u.tim with syncEdge := none } }) ∧
      (u.tim.secondsLoaded = true → d = 0 → exec (.syncFrameReceived dt slots) s = .next { u with tim := { u.tim with syncEdge := none } }) ∧
      (u.tim.secondsLoaded = true → d ≠ 0 → ∃ t, exec (.syncFrameReceived dt slots) s = .next t ∧ t.tim.secondsMismatch = true ∧
        (u.hatbandActs = true → t.warned 0x00040005#32 = true) ∧ OnlyReports t { u with tim := t.tim, sht := t.sht } ∧
        (u.stepPermits = false → t.tim = { u.tim with syncEdge := none, secondsMismatch := true } ∧ t.sht = u.sht) ∧
        (u.stepPermits = true → t.tim.steps = u.tim.steps + 1 ∧
          (t.tim.extended : Int) = (u.tim.extended + d * secLsb * 2 ^ 32) % (2 ^ 128 : Nat))))

/-- A PPS_IN edge (R118, Table 4.8): the first is accepted, a later one when it lies within ±100 µs of one second after the last;
an accepted edge takes its error and moves the discipline's state, a rejected one is only counted. Nothing but time, its
measurement, free values, reports and, where device time steps, the place of the schedules on it
changes. Three seconds without an accepted edge turn TRACK into HOLDOVER. At a whole second
of extended time PPS_OUT rises for PPS_OUT_WIDTH ms (R121), and on the first CK_REF edge after it SYNC_OUT sends a pulse in mode 1
or the frame of that second in mode 2 (R122, R123); each second once. Rests on log entries 26, 30, 107 (the model's choices). -/
def Obligations.SecondsInAndOut : Prop :=
  (∀ (s u : State) (dt : Nat) (m : TiuMeas) (stamp : U64) (coarse : Bool), u = s.elapse dt → u.power.phase = .up →
     (u.tim.runs = true → (u.stampEdge 2 m).2 = some (stamp, coarse) →
       let x := u.extOf stamp
       ∃ t, exec (.ppsInEdge dt m) s = .next t ∧ OnlyReports t { u with tim := t.tim, tiu := t.tiu, free := t.free, sht := t.sht } ∧
         (t.tim.steps = u.tim.steps → t.sht = u.sht) ∧
         (u.tim.pps = .off → t.tim = { u.tim with coarse := coarse }) ∧
         (u.tim.pps ≠ .off → (∀ l, u.tim.lastPps = some l → (x - l - secLsb).natAbs ≤ 100 * usLsb) →
           t.tim.ppsError = u.ppsErrorOf x ∧ t.tim.acceptedAt = u.now ∧ t.tim.pps = (u.tim.ppsNext (u.ppsErrorOf x)).pps ∧
           t.tim.inside = (u.tim.ppsNext (u.ppsErrorOf x)).inside ∧ t.tim.outside = (u.tim.ppsNext (u.ppsErrorOf x)).outside ∧
           t.tim.ppsRejected = u.tim.ppsRejected) ∧
         (∀ l, u.tim.pps ≠ .off → u.tim.lastPps = some l → 100 * usLsb < (x - l - secLsb).natAbs →
           t.tim = { u.tim with coarse := coarse, ppsRejected := u.tim.ppsRejected + 1 })) ∧
     (u.tim.pps = .track → u.tim.acceptedAt + 3 * secP ≤ u.now → exec (.ppsHoldoverTimeout dt) s =
       .next { u with tim := { u.tim with pps := .holdover, inside := 0, outside := 0 } })) ∧
  (∀ (s u : State) (dt n : Nat), u = s.elapse dt → u.power.phase = .up → u.cfg.state = 1 →
     (u.atSecond u.tim.incr = some n → u.ppsOutWidth ≠ 0 → u.tim.ppsOutSec ≠ some n → exec (.ppsOutEdge dt) s =
       .next { u with tim := { u.tim with ppsOutSec := some n }, outputs := .ppsOut u.ppsOutWidth :: u.outputs }) ∧
     (u.atSecond ((if u.cfg.refFreq = 0 then 41 else 9) * u.tim.incr) = some n → u.tim.syncOutSec ≠ some n →
       (u.syncOutMode = 1 → exec (.syncOutSend dt) s =
         .next { u with tim := { u.tim with syncOutSec := some n }, outputs := .syncOut [] :: u.outputs }) ∧
       (u.syncOutMode = 2 → exec (.syncOutSend dt) s =
         .next { u with tim := { u.tim with syncOutSec := some n }, outputs := .syncOut (u.syncFrame n) :: u.outputs })))


/-! ## The shot sequencer (chapter 3) -/

/-- A scheduled group start (R85, R86, R88, R94): the number of passed-over starts is counted as skipped; where the port may
launch, the group takes the next number, carries REBASED if a rebase was called for, and is counted; where it may not, its number
passes and it is counted as skipped, and the next group carries REBASED. Groups that fell due while FD04 was fenced keep their
numbers. Gates, shutters and the other control stay. A linked P1 follows each start of P0, and a P0 that is off keeps the schedule that
P1 follows (R97). A called group start (R90, R91): counted as accepted, and as queued when the call was held, and launched with its
trigger time; on a dark port it is counted dark and launches nothing. Rests on log entries 32, 33, 108 (the model's choices). -/
def Obligations.GroupsStart : Prop :=
  (∀ (s u : State) (dt passed : Nat) (slot : Int) (p : Port), u = s.elapse dt → u.power.phase = .up → u.isShut 4 = false →
     u.linkedTo0 p = false → u.due p = .scheduled passed slot →
     (u.portLaunches p = true → ∃ t, exec (.groupStart dt p) s = .next t ∧ t.sht[p].lastStart = some u.now ∧
       t.sht[p].lastSlot = slot ∧ t.opt = u.opt ∧ t.tiu = u.tiu ∧ t.ControlKept u ∧
       (u.leads p = true → t.sht[(1 : Port)].linked = u.sht[(1 : Port)].linked ++ [(u.now, slot)]) ∧
       (u.leads p = false → ∀ q, q ≠ p → t.sht[q] = u.sht[q]) ∧
       (u.sht[p].missed = false → u.mayLaunch p = true →
         (∃ g, t.sht[p].group = some g ∧ g.number = u.sht[p].nextGroup ∧ g.start = u.now ∧ g.triggered = false ∧ g.pleats = 0 ∧
           g.rebased = u.sht[p].rebase ∧ g.wantsTs = u.carriesTs p u.sht[p].nextGroup ∧ g.stopped = false) ∧
         t.sht[p].nextGroup = u.sht[p].nextGroup + 1 ∧ t.sht[p].groups = u.sht[p].groups + 1 ∧
         t.sht[p].groupsSkipped = u.sht[p].groupsSkipped + BitVec.ofNat 64 passed ∧
         t.sht[p].rebase = false ∧ t.sht[p].launched = true) ∧
       (u.sht[p].missed = false → u.mayLaunch p = false → t.sht[p].group = none ∧ t.sht[p].groups = u.sht[p].groups ∧
         t.sht[p].nextGroup = u.sht[p].nextGroup + 1 ∧
         t.sht[p].groupsSkipped = u.sht[p].groupsSkipped + BitVec.ofNat 64 passed + 1 ∧ t.sht[p].rebase = true) ∧
       (u.sht[p].missed = true → t.sht[p].nextGroup = u.sht[p].nextGroup + BitVec.ofNat 48 passed + 1 ∧
         t.sht[p].groups + t.sht[p].groupsSkipped = u.sht[p].groups + u.sht[p].groupsSkipped + BitVec.ofNat 64 passed + 1)) ∧
     (u.portLaunches p = false → u.leads p = true → ∃ t, exec (.groupStart dt p) s = .next t ∧ t.sht[p].lastStart = some u.now ∧
       t.sht[p].lastSlot = slot ∧ t.sht[p].groups = u.sht[p].groups ∧
       t.sht[(1 : Port)].linked = u.sht[(1 : Port)].linked ++ [(u.now, slot)] ∧ t.opt = u.opt ∧ t.ControlKept u)) ∧
  (∀ (s u : State) (dt : Nat) (c : Call) (p : Port), u = s.elapse dt → u.power.phase = .up → u.portLaunches p = true →
     u.isShut 4 = false → u.due p = .called c →
     (u.hears p = true → u.mayLaunch p = true → ∃ t, exec (.groupStart dt p) s = .next t ∧
       t.sht[p].calls = u.sht[p].calls.filter (fun x => decide (u.now < x.start)) ∧
       t.sht[p].trigAccepted = u.sht[p].trigAccepted + 1 ∧
       t.sht[p].trigQueued = (if c.queued then u.sht[p].trigQueued + 1 else u.sht[p].trigQueued) ∧
       (∃ g, t.sht[p].group = some g ∧ g.number = u.sht[p].nextGroup ∧ g.start = u.now ∧ g.triggered = true ∧
         g.queued = c.queued ∧ g.triggerTime = c.stamp ∧ g.rebased = (u.sht[p].rebase || c.gap)) ∧
       t.sht[p].nextGroup = u.sht[p].nextGroup + 1 ∧ t.sht[p].groups = u.sht[p].groups + 1 ∧ t.opt = u.opt ∧ t.ControlKept u) ∧
     (u.hears p = true → u.mayLaunch p = false → ∃ t, exec (.groupStart dt p) s = .next t ∧
       t.sht[p].calls = u.sht[p].calls.filter (fun x => decide (u.now < x.start)) ∧
       t.sht[p].trigAccepted = u.sht[p].trigAccepted + 1 ∧ t.sht[p].group = none ∧
       t.sht[p].groupsSkipped = u.sht[p].groupsSkipped + 1 ∧ t.opt = u.opt ∧ t.ControlKept u) ∧
     (u.hears p = false → exec (.groupStart dt p) s = .next
       { u with sht := upd u.sht p fun x => { x with
           calls := x.calls.filter (fun y => decide (u.now < y.start)), trigDark := x.trigDark + 1, rebase := true, dark := true } }))

/-- Shots (R74, R75, R78, R81, R82): at pleat k's instant in a group in progress, while the port may emit, no gate of it is open and
PLL-A is not in RELOCK (R62, R109), the gate opens for exactly the pulse's duration, the pulse leaves at its peak power, and the shot is counted and waits for its timestamp; the temperature shot does the same for 10 ns.
Where the shot may not be issued the gate stays closed and the rest of the group is not launched (R88). Shutters and the other port
stay. The gate closes when the shot's duration has passed, and nothing else changes (R78).
Rests on log entries 31, 32, 41 (the model's choices). -/
def Obligations.ShotsOpenTheGate : Prop :=
  (∀ (s u : State) (dt : Nat) (p : Port) (g : Group), u = s.elapse dt → u.sht[p].group = some g → g.stopped = false →
     (∀ k : Pleat, k.val < u.pleats p → g.pleats = k.val → u.now = g.start + k.val * (u.periodP p / u.pleats p) →
       ∃ t, exec (.pleatShotLaunch dt p k) s = .next t ∧ t.tiu = u.tiu ∧ t.ControlKept u ∧
         (∀ q, q ≠ p → t.opt.ports[q] = u.opt.ports[q] ∧ t.sht[q] = u.sht[q]) ∧
         (u.mayIssue p = true → t.opt.ports[p] = { u.opt.ports[p] with
             gate := some ⟨some k.val, u.now, u.vibPulse p k.val⟩, shots := u.opt.ports[p].shots + 1 } ∧
           Output.light p (u.vibPulse p k.val) (u.peakSet p) ∈ t.outputs ∧
           t.sht[p].group = some { g with pleats := k.val + 1 } ∧
           t.sht[p].awaiting.map (·.openedAt) = u.sht[p].awaiting.map (·.openedAt) ++ [u.now]) ∧
         (u.mayIssue p = false → t.opt = u.opt ∧ t.sht[p] = { u.sht[p] with group := some { g with stopped := true }, rebase := true })) ∧
     (g.wantsTs = true → u.now = g.start + u.tsAt p →
       ∃ t, exec (.temperatureShotLaunch dt p) s = .next t ∧ t.tiu = u.tiu ∧ t.ControlKept u ∧
         (∀ q, q ≠ p → t.opt.ports[q] = u.opt.ports[q] ∧ t.sht[q] = u.sht[q]) ∧
         (u.mayIssue p = true → t.opt.ports[p] = { u.opt.ports[p] with
             gate := some ⟨none, u.now, tsPulse⟩, shots := u.opt.ports[p].shots + 1 } ∧
           Output.light p tsPulse (u.tsPeakSet p) ∈ t.outputs ∧
           t.sht[p].group = some { g with wantsTs := false } ∧ t.sht[p].tsShots = u.sht[p].tsShots + 1 ∧
           t.sht[p].awaiting.map (·.openedAt) = u.sht[p].awaiting.map (·.openedAt) ++ [u.now]) ∧
         (u.mayIssue p = false → t = { u with sht := upd u.sht p fun x =>
           { x with group := some { g with stopped := true }, rebase := true } }))) ∧
  (∀ (s u : State) (dt : Nat) (p : Port) (g : ShotFlight), u = s.elapse dt → u.opt.ports[p].gate = some g → g.endsAt ≤ u.now →
     exec (.shotGateClose dt p) s =
       .next { u with opt := { u.opt with ports := upd u.opt.ports p fun x => { x with gate := none, openFor := g.pulse.duration } } })

/-- Launch timestamps (R49, R93, R94, R132, Table 3.6): a measured edge of the launch monitor stamps the oldest waiting shot with its
time as source 0; an edge that is not measured, or the stop timeout, stamps it with its scheduled time and the nominal delay as source 1,
or 2 with FD19 fenced, counts the scheduled source, and at the sixteenth source 1 in a row reports the port's launch domain with row 10
of Table 2.10. The tag with its time and source reaches the shot's records. The monitor pulse's peak is kept for its kind of shot with
the drive that it sets. Either way the shot waits no longer. Rests on log entries 29, 34, 103 (the model's choices). -/
def Obligations.LaunchTimestamps : Prop :=
  ∀ (s u : State) (dt energy : Nat) (p : Port) (m : TiuMeas) (peak : Int) (a : Awaiting) (rest : List Awaiting), u = s.elapse dt →
    u.power.phase = .up → u.sht[p].awaiting = a :: rest →
    let tagged (t : State) (time : U64) (source : Nat) : Prop :=
      ∀ r, r ∈ t.acq[p].records → r.tag.group = a.tag.group → r.tag.pleat = a.tag.pleat → r.tag.temperature = a.tag.temperature →
        r.tag = { a.tag with launchTime := time, source := source }
    let c := if p = 0 then 0 else 1
    let unseen (t : State) : Prop :=
      (u.isShut 19 = true → t.sht[p].unseen = 0) ∧
      (u.isShut 19 = false → u.sht[p].unseen = 15 → t.sht[p].unseen = 0 ∧ t.opt.rows = upd u.opt.rows 9 (· + 1) ∧
        t.Reported (portDomain p) 0x0006800A#32 16) ∧
      (u.isShut 19 = false → u.sht[p].unseen < 15 → t.sht[p].unseen = u.sht[p].unseen + 1 ∧ t.opt.rows = u.opt.rows)
    (∃ t, exec (.launchMonitorEdge dt p m peak energy) s = .next t ∧ t.sht[p].awaiting = rest ∧ t.ControlKept u ∧
      t.opt.ports[p] =
        (if a.tag.temperature then { u.opt.ports[p] with
           tsPeak := peak, tsDrive := min (Config.soaLimit p) (Config.soaDrive p u.opt.ports[p].tsDrive (50 * u.tsPeakSet p - peak)) }
         else { u.opt.ports[p] with
           peak := peak, drive := min (Config.soaLimit p) (Config.soaDrive p u.opt.ports[p].drive (50 * u.peakSet p - peak)) }) ∧
      (∀ q, q ≠ p → t.opt.ports[q] = u.opt.ports[q] ∧ t.sht[q] = u.sht[q]) ∧
      (∀ x, (u.measure c m).2 = some x → t.sht[p].unseen = 0 ∧ t.sht[p].tsScheduled = u.sht[p].tsScheduled ∧ tagged t x 0) ∧
      ((u.measure c m).2 = none → t.sht[p].tsScheduled = u.sht[p].tsScheduled + 1 ∧
        tagged t (a.scheduled + BitVec.ofNat 64 (Config.launchDelay p)) (if u.isShut 19 then 2 else 1) ∧ unseen t)) ∧
    (u.isShut 19 = true ∨ a.openedAt + u.tiuTimeout * usP ≤ u.now →
      ∃ t, exec (.launchTimestampTimeout dt p) s = .next t ∧ t.sht[p].awaiting = rest ∧ t.ControlKept u ∧
        t.sht[p].tsScheduled = u.sht[p].tsScheduled + 1 ∧ (∀ q, q ≠ p → t.sht[q] = u.sht[q]) ∧ t.opt.ports = u.opt.ports ∧
        tagged t (a.scheduled + BitVec.ofNat 64 (Config.launchDelay p)) (if u.isShut 19 then 2 else 1) ∧ unseen t)

/-- Trigger inputs (R89 to R92): a level change is taken at its land, and at each port that uses the input the selected polarity
begins its deglitch hold and the other ends it; an edge held for DEGLITCH counts towards PRESCALE, and the last one calls a group
DEGLITCH, 64 periods and the trigger delay after it where that is T or more after the last start that is set; a call too early for that
is held for the first start allowed with QUEUE_ONE 1 and no call held, else it is counted late and ignored; one on a dark port is
counted dark; a port without a call for TIMEOUT ms rebases and warns. Rests on log entry 33 (the model's choices). -/
def Obligations.TriggersCallGroups : Prop :=
  ∀ (s u : State) (dt : Nat) (p : Port), u = s.elapse dt → u.power.phase = .up → u.isShut 4 = false →
    (∀ (input : Fin 2) (level : Bool) (m : TiuMeas), u.trigLevel[input] ≠ level →
      ∃ t, exec (.triggerEdge dt input level m) s = .next t ∧ t.trigLevel = u.trigLevel.set input level ∧ t.opt = u.opt ∧
        t.ControlKept u ∧
        (u.trigInput p = some input → t.sht[p] = { u.sht[p] with edge := t.sht[p].edge } ∧
          (t.sht[p].edge.isSome = true ↔ level = (u.trigEdge p == 0)) ∧ (∀ e, t.sht[p].edge = some e → e.since = u.now)) ∧
        (u.trigInput p ≠ some input → t.sht[p] = u.sht[p])) ∧
    (∀ e, u.sht[p].edge = some e → e.since + u.deglitch p ≤ u.now →
      (u.sht[p].prescaled + 1 < u.prescale p → exec (.triggerEdgeAccepted dt p) s =
        .next { u with sht := upd u.sht p fun x => { x with edge := none, prescaled := x.prescaled + 1 } }) ∧
      (u.prescale p ≤ u.sht[p].prescaled + 1 →
        let start := e.since + 64 + u.deglitch p + u.trigDelay p
        let last := (u.sht[p].calls.getLast?.map (·.start)).orElse fun _ => u.sht[p].lastStart
        ∃ t, exec (.triggerEdgeAccepted dt p) s = .next t ∧ t.sht[p].edge = none ∧
        t.sht[p].prescaled = 0 ∧ t.sht[p].callAt = u.now ∧ (∀ q, q ≠ p → t.sht[q] = u.sht[q]) ∧ t.opt = u.opt ∧ t.ControlKept u ∧
        (u.hears p = false → t.sht[p].trigDark = u.sht[p].trigDark + 1 ∧ t.sht[p].rebase = true ∧ t.sht[p].calls = u.sht[p].calls) ∧
        (u.hears p = true → (∀ l, last = some l → l + u.periodP p ≤ start) →
          ∃ c, t.sht[p].calls = u.sht[p].calls ++ [c] ∧ c.start = start ∧ c.queued = false ∧ (∀ x, e.stamp = some x → c.stamp = x)) ∧
        (∀ l, u.hears p = true → last = some l → start < l + u.periodP p →
          (u.queueOne p = 1 → u.sht[p].calls.all (fun c => !c.queued) = true →
            ∃ c, t.sht[p].calls = u.sht[p].calls ++ [c] ∧ c.start = l + u.periodP p ∧ c.queued = true ∧
              (∀ x, e.stamp = some x → c.stamp = x)) ∧
          (u.queueOne p ≠ 1 ∨ u.sht[p].calls.all (fun c => !c.queued) = false →
            t.sht[p].calls = u.sht[p].calls ∧ t.sht[p].trigLate = u.sht[p].trigLate + 1)))) ∧
    (u.portLaunches p = true → u.external p = true → u.trigTimeoutMs p ≠ 0 →
      u.sht[p].callAt + u.trigTimeoutMs p * msP ≤ u.now → ∃ t, exec (.triggerTimeout dt p) s = .next t ∧
        OnlyReports t { u with sht := upd u.sht p fun x => { x with trigTimeout := true, rebase := true, callAt := u.now } } ∧
        (u.hatbandActs = true → t.warned 0x00070001#32 = true))


/-! ## Coherent acquisition and calibration (chapter 5) -/

/-- A vibration launch reserves its whole record or none of it (R142, R145, R282): with the port's acquisition fenced the shot is
dropped as fenced, else its record joins the queue at the gate's opening with N_s instants and is counted as admitted where the queue
then holds it, or is refused whole and counted as refused and as dropped for a full queue. The oldest record without a notice is
noticed once its last instant has been written and its launch time is known (R144): the instants that no record before it contains
are written, each that was lost at the entry seam as a clipped word that is counted (R280), its notice names its tag, length, offset
and set and counts its clipped instants, and the records of the queue are otherwise as they were.
Rests on log entries 31, 37, 113 (the model's choices). -/
def Obligations.RecordsAdmittedAndNoticed : Prop :=
  (∀ (s u : State) (dt : Nat) (p : Port) (k : Pleat) (g : Group), u = s.elapse dt → u.sht[p].group = some g →
     g.stopped = false → k.val < u.pleats p → g.pleats = k.val →
     u.now = g.start + k.val * (u.periodP p / u.pleats p) → u.mayIssue p = true → u.selfSupplied p = false →
     ∃ t, exec (.pleatShotLaunch dt p k) s = .next t ∧ (∀ q, q ≠ p → t.acq[q] = u.acq[q]) ∧
       (u.isShut (acqDomain p) = true → t.acq[p].records = u.acq[p].records ∧ t.acq[p].admitted = u.acq[p].admitted ∧
         t.fab.ports[p].counts = upd u.fab.ports[p].counts 3 (· + 1)) ∧
       (u.isShut (acqDomain p) = false → ∃ r, r.tag.group = g.number ∧ r.tag.pleat = k.val ∧ r.openedAt = u.now ∧
         r.first = u.nextSample (u.now + returnDelay p) ∧ r.len = u.nSamples p ∧ r.calSet = u.acq[p].cal.adopted ∧
         r.serving = u.acq[p].serving ∧ r.notice = none ∧
         (({ u.acq[p] with records := u.acq[p].records ++ [r] } : Acq).level ≤ queueSize →
           t.acq[p].records = u.acq[p].records ++ [r] ∧ t.acq[p].admitted = u.acq[p].admitted + 1 ∧
           t.acq[p].refused = u.acq[p].refused ∧ t.fab.ports[p].counts = u.fab.ports[p].counts) ∧
         (queueSize < ({ u.acq[p] with records := u.acq[p].records ++ [r] } : Acq).level →
           t.acq[p].records = u.acq[p].records ∧ t.acq[p].admitted = u.acq[p].admitted ∧
           t.acq[p].refused = u.acq[p].refused + 1 ∧ t.fab.ports[p].counts = upd u.fab.ports[p].counts 0 (· + 1)))) ∧
  (∀ (s u : State) (dt : Nat) (p : Port) (words : List U64) (lags : List SeamLag) (r : AcqRec), u = s.elapse dt →
     (u.acq[p].records.find? fun q => !q.noticed) = some r → u.acqOn p = true → r.first + 2 * r.len ≤ u.now →
     u.untimed p r.tag = false →
     let old := (u.acq[p].writtenTo - r.first) / 2
     let begin_ := max r.first u.acq[p].writtenTo
     let lost := (seamRun lags ((List.range (r.len - old)).map (· + old)) u.acq[p].seam).2
     ∃ t ws n, exec (.recordNotice dt p words lags) s = .next t ∧ t = { u with acq := t.acq, fab := t.fab } ∧
       (∀ q, q ≠ p → t.acq[q] = u.acq[q] ∧ t.fab.ports[q] = u.fab.ports[q]) ∧
       t.acq[p].ring = u.acq[p].ring ++ ws ∧ ws.length = (r.first + 2 * r.len - begin_) / 2 ∧
       (∀ i w, ws[i]? = some w → w.instant = begin_ + 2 * i ∧
         w.data = (if lost.getD i false then clippedWord else converterWord (words.getD i 0))) ∧
       t.acq[p].clipCount = u.acq[p].clipCount + BitVec.ofNat 64 (countClipped (ws.map (·.data))) ∧
       n.tag = r.tag ∧ n.length = r.len ∧ n.offset = r.offset ∧ n.calSet = r.calSet ∧
       n.clipInstants = countClipped (t.acq[p].wordsOf r) ∧
       t.acq[p].records = (u.acq[p].records.map fun q => if q.openedAt = r.openedAt then { q with notice := some n } else q) ∧
       t.acq[p].clipRecords = u.acq[p].clipRecords + (if n.clipInstants = 0 then 0 else 1) ∧
       t.fab.ports[p].counts = u.fab.ports[p].counts ∧
       t.fab.ports[p].entryLost = u.fab.ports[p].entryLost + BitVec.ofNat 64 (lost.filter id).length)

/-- The end of an UPDATE_INTERVAL (R155, R156, R160): while calibration does not work only the next end is set; with a substitution
pending the accumulators are cleared and nothing forms; too few positions or instants count a short update, warn once there are sixteen
in a row, and keep the set; otherwise a slice that serves and meets a retirement criterion keeps the set, and without one a new set is
formed, with the number after the last (wrapping at 65,536), every correction moved and within its range, and the update's time; either
way the slices that meet a criterion are marked retired. A pending substitution takes effect at a group start (R160): the records that
straddle it are dropped as substitution and counted, a spare takes the retired slice's slot, the list of pending slices empties, and an
acquire phase starts. Rests on log entries 38, 39, 40, 117 (the model's choices). -/
def Obligations.CalibrationUpdates : Prop :=
  (∀ (s u : State) (dt d : Nat) (p : Port) (spareBad : List (Fin 4 × Nat)), u = s.elapse dt → u.acq[p].cal.due = some d →
     (u.now < d → exec (.calUpdate dt ⟨p, spareBad⟩) s = .next u) ∧
     (d ≤ u.now → u.calOn p = false → exec (.calUpdate dt ⟨p, spareBad⟩) s =
       .next (u.setCal p fun c => { c with due := some (d + ((u.now - d) / u.updateP + 1) * u.updateP) })) ∧
     (d ≤ u.now → u.calOn p = true →
       (u.acq[p].pendingSubst ≠ [] → exec (.calUpdate dt ⟨p, spareBad⟩) s =
         .next (u.setCal p fun c => { c with acc := {}, due := some (d + u.updateP) })) ∧
       (u.acq[p].pendingSubst = [] → u.calShort p = true → ∃ t, exec (.calUpdate dt ⟨p, spareBad⟩) s = .next t ∧
         OnlyReports t { u with acq := t.acq } ∧ (∀ q, q ≠ p → t.acq[q] = u.acq[q]) ∧ t.acq[p].records = u.acq[p].records ∧
         t.acq[p].cal.vals = u.acq[p].cal.vals ∧ t.acq[p].cal.num = u.acq[p].cal.num ∧ t.acq[p].cal.acc = u.acq[p].cal.acc ∧
         t.acq[p].cal.short = u.acq[p].cal.short + 1 ∧ t.acq[p].cal.shortRun = u.acq[p].cal.shortRun + 1 ∧
         t.acq[p].cal.due = some (d + u.updateP) ∧
         (15 ≤ u.acq[p].cal.shortRun → t.acq[p].cal.starved = true ∧ (u.hatbandActs = true → t.warned 0x00160002#32 = true))) ∧
       (u.acq[p].pendingSubst = [] → u.calShort p = false →
         let c := u.acq[p].cal
         let ns := u.calSteps p
         let m := if c.phaseUpdates < u.acquireUpdates then 64 else 1
         let vals := (c.vals.zip ns).zipIdx.map fun e => moveCorrection m e.2 e.1.1 e.1.2
         let bad := u.badSlices p (limitRuns vals c.atLimit) false spareBad
         ∃ t, exec (.calUpdate dt ⟨p, spareBad⟩) s = .next t ∧
           OnlyReports t { u with acq := t.acq, free := t.free } ∧ (∀ q, q ≠ p → t.acq[q] = u.acq[q]) ∧
           t.acq[p].records = u.acq[p].records ∧ t.acq[p].cal.acc = {} ∧
           (∀ b ∈ bad, t.acq[p].retired.getLsbD (5 * b.1.val + b.2.1.val) = true) ∧
           ((bad.any fun b => (u.acq[p].slotOf b.1 b.2.1.val).isSome) = true → t.acq[p].cal.num = c.num ∧ t.acq[p].cal.vals = c.vals ∧
             t.acq[p].cal.updates = c.updates ∧ t.acq[p].cal.due = some (d + u.updateP)) ∧
           ((bad.any fun b => (u.acq[p].slotOf b.1 b.2.1.val).isSome) = false → t.acq[p].cal.num = (c.num + 1) % 65536 ∧
             t.acq[p].cal.prev = some (c.num, c.vals) ∧ t.acq[p].cal.vals = vals ∧ t.acq[p].cal.updates = c.updates + 1 ∧
             t.acq[p].cal.lastTime = u.devTime ∧ t.acq[p].cal.due = some (u.now + u.updateP) ∧ t.acq[p].cal.shortRun = 0 ∧
             ∀ i v, t.acq[p].cal.vals[i]? = some v → v.natAbs ≤ calRange i)))) ∧
  (∀ (s u : State) (dt g : Nat) (p : Port), u = s.elapse dt → u.sht[p].lastStart = some g → u.acqOn p = true →
     u.acq[p].pendingSubst ≠ [] → u.acq[p].pendingAt ≤ g →
     let hit := u.acq[p].records.filter fun r => decide (r.openedAt < g) && decide (g < r.openedAt + u.listenP p)
     ∃ t, exec (.sliceSubstitution dt p) s = .next t ∧ t.acq[p].pendingSubst = [] ∧ t.acq[p].cal.phaseUpdates = 0 ∧
       t.acq[p].cal.acc = {} ∧ t.acq[p].cal.vals = u.acq[p].cal.vals ∧
       t.acq[p].cal.converged = (u.acq[p].cal.converged && decide (u.acquireUpdates = 0)) ∧
       t.acq[p].records.map (·.openedAt) =
         (u.acq[p].records.filter fun r => !(decide (r.openedAt < g) && decide (g < r.openedAt + u.listenP p))).map (·.openedAt) ∧
       t.acq[p].substDrops = u.acq[p].substDrops + BitVec.ofNat 32 hit.length ∧
       t.fab.ports[p].counts = upd u.fab.ports[p].counts 2 (· + BitVec.ofNat 64 hit.length) ∧
       (∀ l sl k, u.acq[p].pendingSubst = [(l, sl)] → u.acq[p].slotOf l sl.val = some k →
         (t.acq[p].serving[l])[k] = 4 ∧ t.acq[p].spare[l] = 2) ∧
       (∀ q, q ≠ p → t.acq[q] = u.acq[q]) ∧ t.opt = u.opt ∧ t.tiu = u.tiu ∧ t.phs = u.phs ∧ t.evt = u.evt ∧ t.sup = u.sup ∧
       t.ControlKept u)

/-! ## The phase engine (chapter 6) -/

/-- The oldest noticed record is taken, processed whole and released (R143, R165, R181): it leaves the queue, is counted, and becomes
the engine's last shot; words read with errors are counted; one value is kept for every point. Gates, shutters, sequencers and
control stay. Rests on log entries 43, 44 (the model's choices). -/
def Obligations.PhaseRecordsProcessed : Prop :=
  ∀ (s u : State) (dt : Nat) (p : Port) (q : QueueRead) (r : AcqRec) (rest : List AcqRec), u = s.elapse dt →
    u.acq[p].records = r :: rest → r.noticed = true → u.decOn p = true →
    ∃ t, exec (.phaseRecordProcess dt p q) s = .next t ∧ t.acq[p].records = rest ∧
      t.phs[p].records = u.phs[p].records + 1 ∧ t.phs[p].lastShot = some (r.tag.group, r.tag.pleat) ∧
      t.phs[p].acc.length = u.nPoints p ∧ t.phs[p].pend.length = u.nPoints p ∧
      t.phs[p].latencyPeak = BitVec.ofNat 32 (max u.phs[p].latencyPeak.toNat q.latencyNs) ∧
      t.acq[p].eccCorrected = u.acq[p].eccCorrected + BitVec.ofNat 64 q.corrected ∧
      t.acq[p].eccUncorrected = u.acq[p].eccUncorrected + BitVec.ofNat 64 (q.bad.eraseDups.filter fun i => i < r.len).length ∧
      (∀ k, k ≠ p → t.acq[k] = u.acq[k] ∧ t.phs[k] = u.phs[k]) ∧ t.opt = u.opt ∧ t.sht = u.sht ∧ t.tiu = u.tiu ∧ t.ControlKept u

/-- The accumulated phase of a gauge value (R177, R181, R182): a value of code 1 or 2, or one after a rebase, delivers a difference of
zero and adds nothing; otherwise a difference within WRAP_GUARD of a value not faded is added, wrapping as 48 bits, and one beyond
it, or faded, adds nothing and leaves the point pending. -/
def Obligations.GaugeAccumulates : Prop :=
  ∀ (s : State) (p : Port) (k n : Nat) (whole : Bool) (cm : Int) (g : GaugeView), g.code ≠ 0 →
    let o := s.gaugeOut p k whole cm g n
    let acc := s.phs[p].acc.getD n 0
    let d := wrapPhase (g.r - cm)
    (g.code = 1 ∨ g.code = 2 → o.d = 0 ∧ o.acc = acc ∧ o.pend = true) ∧
    (g.code ≠ 1 → g.code ≠ 2 → whole = true ∨ s.phs[p].pend.getD n false = true →
      o.d = 0 ∧ o.acc = acc ∧ (o.pend = true ↔ g.code = 3)) ∧
    (g.code ≠ 1 → g.code ≠ 2 → whole = false → s.phs[p].pend.getD n false = false →
      o.d = d ∧ (g.code = 3 ∨ s.wrapGuard p < d.natAbs → o.acc = acc ∧ o.pend = true) ∧
      (g.code ≠ 3 → g.code ≠ 4 → d.natAbs ≤ s.wrapGuard p → o.acc = wrap48 (acc + d) ∧ o.pend = false))

/-! ## Raman temperature and SUP (chapter 7) -/

/-- A Raman record closes into its batt once it and the launches beside it have their timestamps (R209 to R212): it leaves the
open records, the batt counts one record more and takes the launch's time, an automatic lane lowers its feedback by one step from the
record's or takes the raise that a closed update has called for, and samples lost at the seam are counted (R206, R281). The Raman
offsets are measured before the port's first launch, once it has been dark for 10 ms, or in a recovery of FD07 (R207): the port takes its
lanes' offsets, the time and the receiver's temperature; one beyond 512 codes raises its warning, and with all within it the warning's
condition has ended. An APD bias beyond ±3 % of its setting, or a current above 500 µA, turns the port's bias off and reports FD07
with its row of Table 7.11; nothing else changes. Rests on log entries 51, 52, 53 (the model's choices). -/
def Obligations.RamanFrontEnd : Prop :=
  (∀ (s u : State) (dt : Nat) (p : Port) (as st : List RamanSample) (r : RamanRec) (rest : List RamanRec) (b : Int), u = s.elapse dt →
     u.dts[p].recs = r :: rest → u.ramanOn p = true → u.dts[p].boundary = some b →
     (u.dts[p].closing = true → u.extOf r.tag.launchTime < b) → r.closesAt ≤ u.now → u.slotsKnown p r = true →
     ∃ t, exec (.ramanRecordClose dt p as st) s = .next t ∧ t.dts[p].recs = rest ∧ t.dts[p].records = u.dts[p].records + 1 ∧
       t.dts[p].acc.records = u.dts[p].acc.records + 1 ∧ t.dts[p].acc.lastLaunch = r.tag.launchTime ∧
       (∀ i : Fin 2, t.dts[p].gains[i] = closedGain (u.bandGain p (if i = 0 then .as else .st) == 3)
         (u.laneFlags p (fitSamples (u.nTherm p) (if i = 0 then as else st))).2.1 u.dts[p].raise[i] r.gains[i] u.dts[p].gains[i]) ∧
       t.fab.ports[p].ramanLost = u.fab.ports[p].ramanLost +
         BitVec.ofNat 64 (((as.take (u.nTherm p)).filter (·.lost)).length + ((st.take (u.nTherm p)).filter (·.lost)).length) ∧
       (∀ q, q ≠ p → t.dts[q] = u.dts[q]) ∧ t.opt = u.opt ∧ t.sht = u.sht ∧ t.acq = u.acq ∧ t.phs = u.phs ∧ t.sup = u.sup ∧
       t.tiu = u.tiu ∧ t.ControlKept u) ∧
  (∀ (s u : State) (dt : Nat) (p : Port) (as st : List Int), u = s.elapse dt → u.power.phase = .up → u.hasRaman p = true →
     u.hb.doms[(7 : Fin 20)].st = .attempt ∨ (u.runs 7 = true ∧ (u.sht[p].launched = false ∨
       (u.mayEmit p = false ∧ ∃ d, u.darkFrom[p] = some d ∧ d + 10 * msP ≤ u.now))) →
     let v := { u with dts := upd u.dts p fun d =>
       { d with offsets := #v[as.take 3, st.take 3], offsetTime := u.devTime, offsetTemp := d.theta.value } }
     ∃ t, exec (.ramanOffsetMeasure dt p as st) s = .next t ∧ OnlyReports t v ∧
       ((∃ x ∈ as.take 3 ++ st.take 3, 512 < x.natAbs) → u.hatbandActs = true → t.warned 0x000A0002#32 = true) ∧
       ((∀ (q : Port) (i : Fin 2), ∀ x ∈ v.dts[q].offsets[i], x.natAbs ≤ 512) → t = v.warnEnded 0x000A0002#32)) ∧
  (∀ (s u : State) (dt n : Nat) (p : Port) (b : Band), u = s.elapse dt → u.power.phase = .up → u.hasRaman p = true →
     u.runs 7 = true → u.dts[p].biasOff = false →
     (3 * u.biasSet p b < 100 * ((n : Int) - u.biasSet p b).natAbs → ∃ t, exec (.apdBiasOutOfRange dt p b n) s = .next t ∧
       OnlyReports t { u with dts := upd u.dts p fun d => { d with biasMv := d.biasMv.set (bandIndex b) n, biasOff := true } } ∧
       t.Reported 7 0x000A8001#32 (BitVec.ofNat 32 n)) ∧
     (500 < n → ∃ t, exec (.apdCurrentHigh dt p b n) s = .next t ∧
       OnlyReports t { u with dts := upd u.dts p fun d => { d with currentUa := d.currentUa.set (bandIndex b) n, biasOff := true } } ∧
       t.Reported 7 0x000A8002#32 (BitVec.ofNat 32 n)))

/-- A DTS update ends at its boundary and its batts swap once every record before the boundary has closed (R210): the boundary opens
the next update UPDATE_INTERVAL later; the swap leaves an empty batt, counts the words read with errors, counts an empty update
where no record came, hands a filled one to the engine, and withholds one with more than sixteen uncorrectable entries, the third of
which in a row fences FD10. Rests on log entry 53 (the model's choices). -/
def Obligations.DtsUpdatesClose : Prop :=
  ∀ (s u : State) (dt c n : Nat) (p : Port), u = s.elapse dt → u.ramanOn p = true →
    (∀ x : Int, u.dts[p].next = some x → x ≤ u.extTime → u.dts[p].closing = false → u.dts[p].proc = none →
      ∃ t b, exec (.dtsUpdateBoundary dt p) s = .next t ∧ t = { u with dts := t.dts } ∧ t.dts[p].closing = true ∧
        t.dts[p].boundary = some b ∧ t.dts[p].next = some (b + u.updateLsb p) ∧
        b = (if u.dtsAnchored p then (u.extTime : Int) - u.extTime % u.updateLsb p else x) ∧ t.dts[p].recs = u.dts[p].recs ∧
        t.dts[p].acc.records = u.dts[p].acc.records ∧ ∀ q, q ≠ p → t.dts[q] = u.dts[q]) ∧
    (u.dts[p].next = none → u.dtsAnchored p = true → u.tim.runs = true → (u.extTime : Int) % u.updateLsb p ≤ 641 →
      u.dts[p].closing = false → u.dts[p].proc = none → ∃ t, exec (.dtsUpdateBoundary dt p) s = .next t ∧
        t = { u with dts := t.dts } ∧ t.dts[p].closing = true ∧
        t.dts[p].boundary = some ((u.extTime : Int) - u.extTime % u.updateLsb p)) ∧
    (∀ b : Int, u.dts[p].boundary = some b → u.dts[p].closing = true →
      (u.dts[p].recs.all fun r => !u.untimed p r.tag && decide (b ≤ u.extOf r.tag.launchTime)) = true →
      ∃ t, exec (.battSwap dt p c n) s = .next t ∧
        OnlyReports t { u with dts := t.dts, battCorrected := u.battCorrected + BitVec.ofNat 64 c,
                               battUncorrected := u.battUncorrected + BitVec.ofNat 64 n } ∧
        t.dts[p].acc = {} ∧ t.dts[p].closing = false ∧ t.dts[p].recs = u.dts[p].recs ∧ (∀ q, q ≠ p → t.dts[q] = u.dts[q]) ∧
        (n ≤ 16 → t.dts[p].battRun = 0 ∧
          (u.dts[p].acc.records = 0 → t.dts[p].emptyUpdates = u.dts[p].emptyUpdates + 1 ∧ t.dts[p].proc = u.dts[p].proc) ∧
          (u.dts[p].acc.records ≠ 0 → t.dts[p].proc = some { u.dts[p].acc with uncorrectable := n } ∧
            t.dts[p].emptyUpdates = u.dts[p].emptyUpdates)) ∧
        (16 < n → t.dts[p].proc = u.dts[p].proc ∧ t.dts[p].battRun = u.dts[p].battRun + 1 ∧
          (2 ≤ u.dts[p].battRun → t.Reported 10 0x000D8008#32 (BitVec.ofNat 32 n))))

/-- A profile ends its update (R217 to R220): the closed update is taken, the profile counted and timed, and where a RAW profile is
due the count towards RAW_EVERY starts again; an update with an expired near or θ reading keeps δ and Δα as they were (R221). A reading
whose hold has run out is marked expired, in the update under way too; the others stay (R221).
Rests on log entries 54, 55 (the model's choices). -/
def Obligations.ProfilesAndHolds : Prop :=
  ∀ (s u : State) (dt : Nat) (p : Port), u = s.elapse dt →
    (∀ b, u.dts[p].proc = some b → u.ramanOn p = true →
      (u.formsLf p = true → ∀ e ∈ u.phs[p].expect, ∀ x, u.dts[p].boundary = some x → x ≤ u.extOf e.time) →
      ∃ t, exec (.dtsProfileDone dt p) s = .next t ∧ t.dts[p].proc = none ∧ t.dts[p].profiles = u.dts[p].profiles + 1 ∧
        t.dts[p].lastTime = u.devTime ∧ OnlyReports t { u with dts := t.dts, free := t.free } ∧
        (∀ q, q ≠ p → t.dts[q] = u.dts[q]) ∧
        (b.near.expired = true ∨ b.theta.expired = true → t.dts[p].delta = u.dts[p].delta ∧ t.dts[p].diffAtt = u.dts[p].diffAtt) ∧
        t.dts[p].rawCount = (if u.dtsRawEvery p ≠ 0 ∧ u.dtsRawEvery p ≤ u.dts[p].rawCount + 1 then 0 else u.dts[p].rawCount + 1)) ∧
    (u.power.phase = .up → ∃ t, exec (.refHoldExpiry dt p) s = .next t ∧ t = { u with dts := t.dts } ∧
      (∀ q, q ≠ p → t.dts[q] = u.dts[q]) ∧
      t.dts[p].near = { u.dts[p].near with expired := u.dts[p].near.expired || u.holdOver p u.dts[p].near } ∧
      t.dts[p].far = { u.dts[p].far with expired := u.dts[p].far.expired || u.holdOver p u.dts[p].far } ∧
      t.dts[p].theta = { u.dts[p].theta with expired := u.dts[p].theta.expired || u.holdOver p u.dts[p].theta } ∧
      t.dts[p].curNear.expired = (u.dts[p].curNear.expired || u.holdOver p u.dts[p].near) ∧
      t.dts[p].curFar.expired = (u.dts[p].curFar.expired || u.holdOver p u.dts[p].far) ∧
      t.dts[p].curTheta.expired = (u.dts[p].curTheta.expired || u.holdOver p u.dts[p].theta) ∧
      t.dts[p].profiles = u.dts[p].profiles ∧ t.dts[p].delta = u.dts[p].delta)

/-- A pass of the supervisory converter starts with the first channel of its sequence when it is due (R234, R235); a timed start
during a pass is counted as skipped, and a failed self-test reports FD18. A settled conversion (R228, R231 to R233, R236): a
half-conversion in range is kept and its mate begins; one beyond 0.98 of the reference is delivered with its flag and the burn-out
test begins; a burn-out test that reads full scale declares the input open. The next channel follows, or the pass ends. A coarse
value is delivered once per restart of the filter. Rests on log entry 58 (the model's choices). -/
def Obligations.SupConverts : Prop :=
  (∀ (s u : State) (dt : Nat) (ok : Bool), u = s.elapse dt → u.supOn = true → u.supSequence ≠ [] →
     (u.supPeriod = 0 → u.sup.converting = false → ok = true → ∃ t, exec (.supPassStart dt ok) s = .next t ∧ t = { u with sup := t.sup } ∧
       t.sup.converting = true ∧ t.sup.pos = 0 ∧ t.sup.beganAt = u.now ∧ t.sup.passAt = u.now ∧ t.sup.coarseDone = false) ∧
     (u.supPeriod ≠ 0 →
       ((u.extTime : Int) - (u.supDelay * 256000000 : Nat)) / ((u.supPeriod * 256000000 : Nat) : Int) ≠ u.sup.timer →
       ∃ t, exec (.supPassStart dt ok) s = .next t ∧
         t.sup.timer = ((u.extTime : Int) - (u.supDelay * 256000000 : Nat)) / ((u.supPeriod * 256000000 : Nat) : Int) ∧
         (u.sup.converting = true → t = { u with sup := t.sup } ∧ t.sup.trigSkipped = u.sup.trigSkipped + 1 ∧ t.sup.pos = u.sup.pos) ∧
         (u.sup.converting = false → ok = true → t = { u with sup := t.sup } ∧ t.sup.converting = true ∧ t.sup.pos = 0)) ∧
     (u.sup.converting = false → u.supPeriod = 0 → ok = false → ∃ t, exec (.supPassStart dt ok) s = .next t ∧
       t.Reported 18 0x00158009#32 0 ∧ t.sup.converting = false ∧ t.ControlKept u ∧ t.opt = u.opt ∧ t.acq = u.acq ∧ t.sht = u.sht)) ∧
  (∀ (s u : State) (dt : Nat) (code : Int), u = s.elapse dt → u.supOn = true → u.sup.converting = true →
     (u.sup.beganAt + u.supRestart u.sup.step + u.supSettle ≤ u.now → ∃ t, exec (.supConversionDone dt code) s = .next t ∧
       t.ControlKept u ∧ t.opt = u.opt ∧ t.sht = u.sht ∧ t.acq = u.acq ∧ t.phs = u.phs ∧ t.evt = u.evt ∧ t.tiu = u.tiu ∧
       (u.sup.step = .plus → supOver (code24 code) = false → t.sup = { u.sup with step := .minus (code24 code), beganAt := u.now, coarseDone := false }) ∧
       ((u.sup.step = .plus ∨ ∃ v, u.sup.step = .minus v) → supOver (code24 code) = true → t.sup.step = .burnOut false ∧ t.sup.pos = u.sup.pos ∧
         t.sup.bufIndex = (u.sup.bufIndex + 1) % 1024 ∧
         t.sup.buf.head? = some ⟨u.devTime, u.supChannel, 2, supCode (code24 code)⟩) ∧
       (∀ o, u.sup.step = .burnOut o → supOver (code24 code) = true → t.sup.inputs[u.supInput].broken = 1 ∧
         (u.sup.inputs[u.supInput].broken ≠ 1 → t.sup.inputs[u.supInput].breaks = u.sup.inputs[u.supInput].breaks + 1)) ∧
       (u.sup.step = .single ∨ (∃ o, u.sup.step = .burnOut o) ∨ (∃ v, u.sup.step = .minus v ∧ supOver (code24 code) = false) →
         t.sup.bufIndex = (u.sup.bufIndex + 1) % 1024 ∧
         (u.sup.pos + 1 < u.supSequence.length → t.sup.pos = u.sup.pos + 1 ∧ t.sup.converting = true ∧ t.sup.beganAt = u.now) ∧
         (u.supSequence.length ≤ u.sup.pos + 1 → t.sup.converting = false))) ∧
     (u.supCoarse = 1 → u.sup.coarseDone = false → u.sup.beganAt + u.supRestart u.sup.step + 3 * msP ≤ u.now →
       ∃ t, exec (.supCoarseValue dt code) s = .next t ∧ t = { u with sup := t.sup } ∧ t.sup.coarseDone = true ∧
         t.sup.bufIndex = (u.sup.bufIndex + 1) % 1024 ∧ t.sup.step = u.sup.step ∧
         ∃ f, t.sup.buf.head? = some ⟨u.devTime, u.supChannel, f, supCode (code24 code)⟩ ∧ f % 2 = 1))

/-! ## Alarm outputs and notices (chapters 8 and 9) -/

/-- A notice of EVT that reaches the output stage brings the demand (R251, R253, R274): an output in MODE 0 is asserted while demanded
and released once it has been asserted for MIN_ASSERT, in MODE 1 it latches; an output that holds a fence state, or that is without
entries, keeps its land. The EVENT records of the decisions follow, and the notice is counted as a flit. Once it is no longer
demanded and has been asserted for MIN_ASSERT, an output of MODE 0 is released. Nothing but outputs, EVT and what it reports on
changes. Rests on log entries 49, 50, 101 (the model's choices). -/
def Obligations.AlarmsFollowDemand : Prop :=
  ∀ (s u : State) (dt : Nat) (o : Fin 4), u = s.elapse dt → u.live = true →
    (∀ f, u.evt.notice = some f → u.mayInject .evt = true → ∃ t, exec (.alarmDemandNotice dt) s = .next t ∧
      t = { u with alarms := t.alarms, evt := t.evt, fab := t.fab, mem := t.mem, routes := t.routes, pcie := t.pcie,
                   outputs := t.outputs } ∧
      t.mem.cells = u.mem.cells ∧ t.evt.notice = none ∧ t.evt.due = [] ∧
      t.evt.events = u.evt.events + BitVec.ofNat 64 u.evt.due.length ∧ t.fab.uFlits = u.fab.uFlits + 1 ∧
      (f.sinks.contains 9 = false → t.alarms = u.alarms) ∧
      (f.sinks.contains 9 = true → t.alarms[o].demanded = f.tells.demand.getLsbD o.val ∧
        (u.alarms[o].fenced = true ∨ (u.alarms[o].waits = true ∧ u.windowsSeen o = false) ∨ u.alarmEntries o = [] →
          t.alarms[o].asserted = u.alarms[o].asserted) ∧
        (u.alarms[o].fenced = false → u.alarms[o].waits = false ∨ u.windowsSeen o = true → u.alarmEntries o ≠ [] →
          (u.alarmMode o ≠ 1 → f.tells.demand.getLsbD o.val = true → t.alarms[o].asserted = true) ∧
          (u.alarmMode o ≠ 1 → f.tells.demand.getLsbD o.val = false → t.alarms[o].asserted =
            (if u.alarms[o].since + u.minAssert o * msP ≤ u.now then false else u.alarms[o].asserted)) ∧
          (u.alarmMode o = 1 → t.alarms[o].asserted = (u.alarms[o].latched || f.tells.demand.getLsbD o.val) ∧
            t.alarms[o].latched = (u.alarms[o].latched || f.tells.demand.getLsbD o.val))))) ∧
    (u.alarms[o].asserted = true → u.alarms[o].demanded = false → u.alarms[o].fenced = false → u.alarms[o].waits = false →
      u.alarmMode o = 0 → u.alarms[o].since + u.minAssert o * msP ≤ u.now → exec (.alarmMinAssertExpiry dt o) s =
        .next { u with alarms := u.alarms.set o { u.alarms[o] with asserted := false } })

/-- Urgent notices (R272 to R274, R285): the operator side tells changed inputs and ALS states to their sinks, no sooner than 10 ns
after its last flit; unchanged states are not told. Every microsecond each source repeats its states: the operator side's reach their
sinks, the alarm outputs take EVT's demand, the fence agents take the active controller's mask, and every notice lost before is counted
late. A warning whose condition has been absent for 1 s clears with its records; one that holds, or that stays until restart, does not
(R416). Rests on log entries 49, 61, 92, 94 (the model's choices). -/
def Obligations.NoticesAndWarnings : Prop :=
  (∀ (s u : State) (dt : Nat), u = s.elapse dt → u.live = true →
     (u.mayInject .operator = true → u.permits.sent ≠ some u.operatorTells → ∃ t, exec (.operatorStateNotice dt) s = .next t ∧
       t = { u with permits := { u.permits with sent := some u.operatorTells, noticed := some u.operatorTells }, fab := t.fab } ∧
       t.fab.uFlits = u.fab.uFlits + 1 ∧ t.fab.u.sentAt[(3 : Fin 4)] = some u.now) ∧
     (u.mayInject .operator = false ∨ u.permits.sent = some u.operatorTells → exec (.operatorStateNotice dt) s = .next u) ∧
     (u.now < u.fab.u.repeatedAt + usP → exec (.uNoticeRepeat dt) s = .next u) ∧
     (u.fab.u.repeatedAt + usP ≤ u.now → ∃ t, exec (.uNoticeRepeat dt) s = .next t ∧
       t.permits = { u.permits with sent := some u.operatorTells, noticed := some u.operatorTells } ∧
       t.fab.uLate = u.fab.uLate + BitVec.ofNat 32 (u.fab.u.lost.toList.filter id).length ∧
       (∀ i : Fin 4, t.fab.u.lost[i] = false) ∧ t.fab.u.repeatedAt = u.now ∧
       (u.evtOn = true → t.evt.notice = none ∧ ∀ o : Fin 4, t.alarms[o].demanded = u.demandOf o) ∧
       (u.hb.ctlA = .active ∨ u.hb.ctlB = .active → t.hb.notice = none ∧
         ∀ d : Domain, (u.dom d).fenced = true → t.isShut d = true) ∧
       t.power = u.power ∧ t.tiu = u.tiu ∧ t.phs = u.phs ∧ t.mem.cells = u.mem.cells ∧ t.trigLevel = u.trigLevel ∧
       t.now = u.now)) ∧
  (∀ (s u : State) (dt : Nat) (code : U32) (w : Warn), u = s.elapse dt →
     (u.hb.warnings.find? fun x => x.code == code) = some w →
     (u.live = true → u.hatbandActs = true → stickyWarning code = false → w.holders = [] → w.seenAt + secP ≤ u.now →
       ∃ t, exec (.warningClear dt code) s = .next t ∧ OnlyReports t u ∧
         (code ≠ 0x00030002#32 → t.warned code = false) ∧
         (u.bbx.queue.length < 64 → t.warned code = false ∧ t.Logged 0x0011 code)) ∧
     (stickyWarning code = true ∨ w.holders ≠ [] ∨ u.now < w.seenAt + secP → exec (.warningClear dt code) s = .next u))

/-! ## The stitch network (chapter 9) -/

/-- A region sample (R275, R276): a seam more than 60 mV or 25 K apart is beyond delta and the U bound is withdrawn, and one beyond it anew raises the warning; it is within again
after 1 ms at or below 50 mV and 22 K; with every seam within, the bound holds and the time it was withdrawn is counted. -/
def Obligations.RegionsSampled : Prop :=
  ∀ (s u : State) (dt : Nat) (mv : List Nat) (halfK : List Int), u = s.elapse dt → u.live = true →
    ∃ t, exec (.regionDeltaSample dt mv halfK) s = .next t ∧ OnlyReports t { u with fab := t.fab } ∧
      (∀ r : Region, t.fab.regions[r] = { u.fab.regions[r] with vcore := mv.getD r.val 0 / 2 * 2, tj := halfK.getD r.val 0 }) ∧
      (∀ k : Fin 13, 60 < (t.fab.seamDiff k).1 ∨ 50 < (t.fab.seamDiff k).2 → t.fab.seams[k].beyond = true ∧ t.fab.uBound = false) ∧
      (∀ k : Fin 13, (t.fab.seamDiff k).1 ≤ 50 → (t.fab.seamDiff k).2 ≤ 44 → u.fab.seams[k].outAt + msP ≤ u.now →
        t.fab.seams[k].beyond = false) ∧
      (∀ k : Fin 13, u.fab.seams[k].beyond = true → u.now < u.fab.seams[k].outAt + msP → t.fab.seams[k].beyond = true) ∧
      ((∀ k : Fin 13, t.fab.seams[k].beyond = false) → t.fab.uBound = true ∧ t.fab.withdrawn =
        (if u.fab.uBound then u.fab.withdrawn else u.fab.withdrawn + (u.now - u.fab.withdrawnAt))) ∧
      ((∃ k : Fin 13, t.fab.seams[k].beyond = true ∧ u.fab.seams[k].beyond = false) → u.hatbandActs = true →
        t.warned 0x000F0001#32 = true)

/-- Throughput margins (R277, R279): every region takes its margin in 1/256, truncated, and keeps its least; ten low measurements in
a row flag it and raise the warning. A link word (R285, R286): one at a node that the flit's route does not enter cannot be; a corrected
one is counted; an uncorrectable one discards a product record, item or sample, which is counted, abandons a B transfer that fails
twice, or loses a U notice for the sinks beyond the node until its repeat; the 65th uncorrectable one of a second is a link fault of the
node, which a warning tells. A stall where there is a required rate sets the region's bit and reports its domains (R287).
Rests on log entries 62, 63, 64, 129 (the model's choices). -/
def Obligations.MarginsLinksAndStalls : Prop :=
  ∀ (s u : State) (dt : Nat), u = s.elapse dt → u.live = true →
    (∀ caps : List (List Nat), ∃ t, exec (.marginMeasure dt caps) s = .next t ∧ OnlyReports t { u with fab := t.fab } ∧
      (∀ r : Region, t.fab.regions[r].margin = marginReport (u.marginOf r (caps.getD r.val [])) ∧
        t.fab.regions[r].marginMin = min u.fab.regions[r].marginMin t.fab.regions[r].margin ∧
        (t.fab.regions[r].low = true ↔ t.fab.regions[r].lowRun = 10) ∧
        t.fab.regions[r].vcore = u.fab.regions[r].vcore ∧ t.fab.regions[r].tj = u.fab.regions[r].tj) ∧
      ((∃ r : Region, t.fab.regions[r].low = true) → u.hatbandActs = true → t.warned 0x000F0002#32 = true)) ∧
    (∀ (node : Region) (hit : FlitHit),
      (u.passes hit node = false → ∀ x, exec (.linkWordError dt node x hit) s = .next u) ∧
      (u.passes hit node = true →
        exec (.linkWordError dt node false hit) s = .next { u with fab := { u.fab with linkCorrected := u.fab.linkCorrected + 1 } } ∧
        ∃ t, exec (.linkWordError dt node true hit) s = .next t ∧
          (64 ≤ (u.fab.nodes[node].recent.filter fun x => decide (u.now < x + secP)).length →
            t.fab.linkFault.getLsbD node.val = true ∧ (u.hatbandActs = true → t.warned 0x000F0003#32 = true)) ∧
          ((u.fab.nodes[node].recent.filter fun x => decide (u.now < x + secP)).length < 64 →
            t.fab.linkFault = u.fab.linkFault) ∧
          (∀ p is r, hit = .coherent p is → (u.acq[p].records.find? (·.noticed)) = some r →
            t.acq[p] = u.acq[p].clipWords r is ∧ OnlyReports t { u with acq := t.acq, fab := t.fab } ∧ ∀ q, q ≠ p → t.acq[q] = u.acq[q]) ∧
          (∀ p, hit = .phase p → t.phs[p].struck = true ∧ t.fab.sDiscards = u.fab.sDiscards + 1 ∧
            OnlyReports t { u with phs := t.phs, fab := t.fab }) ∧
          (∀ r q rest, hit = .product r → u.routes[r].inflight = q :: rest → t.fab.sDiscards = u.fab.sDiscards + 1 ∧
            t.routes[r].seq = nextSeq u.routes[r].seq ∧ OnlyReports t { u with routes := t.routes, cmp := t.cmp, fab := t.fab }) ∧
          (∀ k i, hit = .history k → (u.mem.items[k].find? fun i => !i.begun) = some i → t.fab.sDiscards = u.fab.sDiscards + 1 ∧
            t.mem.rings[k].lost = true ∧ t.mem.cells = u.mem.cells) ∧
          (∀ what fails, hit = .background what fails → OnlyReports t { u with acq := t.acq, fab := t.fab } ∧
            t.fab.bFailed = (if fails = true ∧ what ≠ .status then u.fab.bFailed + 1 else u.fab.bFailed) ∧
            (∀ p, what = .statistics p → fails = true → t.acq[p].cal.struck = true) ∧
            ((∀ p, what ≠ .statistics p) → t.acq = u.acq)) ∧
          (∀ k, hit = .urgent k → t.fab.uErrors = u.fab.uErrors + 1 ∧ t.fab.u.lost[sourceIndex k] = true ∧
            (k = .evt → t.evt.notice = u.evt.notice.map (fun f =>
                { f with sinks := f.sinks.filter fun n => !(routeNodes 4 n).contains node }) ∧
              OnlyReports t { u with fab := t.fab, evt := t.evt, als := t.als }) ∧
            (k = .hbA ∨ k = .hbB → OnlyReports t { u with fab := t.fab, hb := { u.hb with
              notice := if k = u.hbSource then none else u.hb.notice } }) ∧
            (k = .operator → OnlyReports t { u with fab := t.fab, permits := { u.permits with sent := some u.operatorTells } })))) ∧
    (∀ (r : Region) (stage : Nat), u.fab.regions[r].margin ≠ 0xFFFF → ∃ t, exec (.stallDetected dt r stage) s = .next t ∧
      OnlyReports t { u with fab := { u.fab with stall := u.fab.stall ||| (1#10 <<< r.val) } } ∧
      (u.bbx.queue.length < 64 → t.Logged 0x0054 0x000F8001#32) ∧
      ∀ d ∈ regionDomains r, (u.dom d).st ≠ .idle → ⟨d, 0x000F8001#32, BitVec.ofNat 32 r.val⟩ ∈ t.hb.reports)

/-! ## Memory (chapter 10) -/

/-- The DRAM's start (R295 to R298, R471): it begins with PLL-D locked and VDDQ in its range, else FD13 is reported; a verification
that passes is kept, one that finds a failure (code 1 of a SODIMM alone, code 5 with a margin set) leaves its result and reports FD13; the zero fill leaves every byte zero, the rings and the pool laid out and
empty, and MEM running; a sweep leaves its values and MEM characterised. Rests on log entries 67, 71 (the model's choices). -/
def Obligations.MemoryStarts : Prop :=
  ∀ (s u : State) (dt : Nat), u = s.elapse dt → u.memStarts = true →
    (∀ mv, u.mem.st = .off → u.tim.d.st = .locked →
      (u.vddqOk mv = true → exec (.memInitStart dt mv) s =
        .next { u with mem := { u.mem with st := .starting, verified := u.memVerify == 0, openRows := [] } }) ∧
      (u.vddqOk mv = false → exec (.memInitStart dt mv) s = .next (u.report 13 0x00028001#32 (BitVec.ofNat 32 mv)))) ∧
    (∀ v : VerifyOutcome, u.mem.st = .starting → u.memVerify = 1 →
      (v.code = 0 → u.mem.verified = false → exec (.memVerifyDone dt v) s =
        .next { u with mem := { u.mem with verify := v, verified := true } }) ∧
      (0 < v.code → v.code ≤ 6 → u.mem.verified = false ∨ v.code = 6 → v.code ≠ 1 ∨ u.memForm = 1 → v.code ≠ 5 ∨ u.verifyMargin ≠ 0 →
        exec (.memVerifyDone dt v) s =
        .next ({ u with mem := { u.mem with verify := v, verified := false } }.report 13 0x00108001#32
          (BitVec.ofNat 32 (verifyWord v))))) ∧
    (u.mem.st = .starting → u.mem.verified = true → u.memVerify ≠ 2 → ∃ t, exec (.memZeroFillDone dt) s = .next t ∧
      t = { u with mem := t.mem } ∧ t.mem.st = .running ∧ (∀ a, memRead 0 t.mem.cells a = 0) ∧
      (∀ k : Fin 3, t.mem.rings[k].size = u.ringBytes k.val ∧ t.mem.rings[k].seq = 0 ∧ t.mem.rings[k].openSeg = none ∧
        t.mem.rings[k].recSeq = u.mem.rings[k].recSeq) ∧
      t.mem.rings[(0 : Fin 3)].base = 0 ∧ t.mem.rings[(1 : Fin 3)].base = u.ringBytes 0 ∧
      t.mem.rings[(2 : Fin 3)].base = u.ringBytes 0 + u.ringBytes 1 ∧
      t.mem.pool.base = u.ringBytes 0 + u.ringBytes 1 + u.ringBytes 2 ∧ t.mem.pool.size = u.ringBytes 3 ∧ t.mem.pool.seq = 0 ∧
      t.mem.requests = [] ∧ t.mem.rt = []) ∧
    (∀ e, u.mem.st = .starting → u.memVerify = 2 → exec (.memSweepDone dt e) s =
      .next { u with mem := { u.mem with st := .characterised, sweep := e, refreshAt := u.now } })

/-- Refresh, temperature and self-refresh (R301, R302, R304): a refresh is due at every interval, is issued outside a segment of the real-time
port, is postponed within one, and with four postponed interrupts it; every 32 ms the temperature is read: a DDR4 sensor is hot from REFRESH_TEMP until 3 K below it, a DDR5 rank
from twice the normal rate, an unreadable one at once; self-refresh is entered when no port but scrub has asked for SR_IDLE, and left
on a request. Rests on log entries 69, 70 (the model's choices). -/
def Obligations.MemoryRefreshes : Prop :=
  ∀ (s u : State) (dt : Nat), u = s.elapse dt → u.live = true → u.isShut 13 = false →
    (u.mem.st = .running ∨ u.mem.st = .characterised →
      (u.now < u.mem.refreshAt + u.refreshInterval → exec (.refreshDue dt) s = .next u) ∧
      (u.mem.refreshAt + u.refreshInterval ≤ u.now →
        (u.mem.rtMid = false → exec (.refreshDue dt) s =
          .next { u with mem := { u.mem with refreshAt := u.mem.refreshAt + u.refreshInterval, postponed := 0, openRows := [] } }) ∧
        (u.mem.rtMid = true → u.mem.postponed < 4 → exec (.refreshDue dt) s =
          .next { u with mem := { u.mem with refreshAt := u.mem.refreshAt + u.refreshInterval, postponed := u.mem.postponed + 1 } }) ∧
        (u.mem.rtMid = true → 4 ≤ u.mem.postponed → exec (.refreshDue dt) s =
          .next { u with mem := { u.mem with refreshAt := u.mem.refreshAt + u.refreshInterval, postponed := 0, openRows := [],
                                             preempt := u.mem.preempt + 1 } })) ∧
      (∀ x, u.now < u.mem.polledAt + 32 * msP → exec (.dramTempPoll dt x) s = .next u)) ∧
    (u.mem.st = .running ∨ u.mem.st = .characterised → u.mem.polledAt + 32 * msP ≤ u.now →
      (∀ q : Int, u.memGeneration = 4 → exec (.dramTempPoll dt (.ddr4 q)) s = .next { u with mem := { u.mem with
        polledAt := u.now, temp := q, hot := if 4 * (u.refreshTemp : Int) ≤ q then true else if q < 4 * (u.refreshTemp : Int) - 12 then false else u.mem.hot } }) ∧
      (∀ rates : List Nat, u.memGeneration = 5 → rates.foldl max (0 : Nat) ≤ 2 → exec (.dramTempPoll dt (.ddr5 rates)) s = .next
        { u with mem := { u.mem with polledAt := u.now, temp := ((rates.foldl max 0 : Nat) : Int), hot := decide (2 ≤ rates.foldl max (0 : Nat)) } }) ∧
      (∀ rates : List Nat, u.memGeneration = 5 → 2 < rates.foldl max (0 : Nat) → ∃ t, exec (.dramTempPoll dt (.ddr5 rates)) s = .next t ∧
        OnlyReports t { u with mem := { u.mem with polledAt := u.now, temp := ((rates.foldl max 0 : Nat) : Int), hot := true, tempFault := true } } ∧
        (u.hatbandActs = true → t.warned 0x00100002#32 = true)) ∧
      ∃ t, exec (.dramTempPoll dt .unreadable) s = .next t ∧
        OnlyReports t { u with mem := { u.mem with polledAt := u.now, hot := true, tempFault := true } } ∧
        (u.hatbandActs = true → t.warned 0x00100002#32 = true)) ∧
    (u.mem.st = .running → u.srIdle ≠ 0 → u.mem.waits = false → u.mem.requestAt + u.srIdle * msP ≤ u.now → u.mem.srNotBefore ≤ u.now →
      exec (.selfRefreshEntry dt false) s =
        .next { u with mem := { u.mem with postponed := 0, openRows := [], st := .selfRefresh, srEntries := u.mem.srEntries + 1 } } ∧
      exec (.selfRefreshEntry dt true) s =
        .next { u with mem := { u.mem with srAbandoned := u.mem.srAbandoned + 1, requestAt := u.now } }) ∧
    (u.mem.st = .selfRefresh → u.mem.waits = true → exec (.selfRefreshExit dt) s =
      .next { u with mem := { u.mem with st := .running, srNotBefore := u.now + msP, refreshAt := u.now } })

/-- At an access boundary postponed refreshes are issued outside a segment; otherwise the chosen port's next access is served and
counted (R305, R308): the real-time and SNAP ports write their bytes and no other, a host read of one access delivers its bytes,
zeros beyond the capacity, and leaves memory, and the patrol scrub moves on, wrapping at the capacity (R300). The port served is one with a request; at panic level 3 it is the real-time port alone,
at level 2 that port or one at urgency 3, and below level 2 no port with a request is more urgent than it, nor one as urgent whose row is
open where its own is not (R306 to R308). Rests on log entries 69, 72, 131 (the model's choices). -/
def Obligations.MemoryPortsServe : Prop :=
  (∀ (s u : State) (dt : Nat) (a : AccessMeet), u = s.elapse dt → u.memServes = true → Memory.wf 0 u.mem.cells = true →
     (u.mem.postponed ≠ 0 → u.mem.rtMid = false → exec (.memAccessBoundary dt a) s =
       .next { u with mem := { u.mem with postponed := 0, openRows := [] } }) ∧
     (u.mem.postponed = 0 ∨ u.mem.rtMid = true →
       (∀ x rest, u.mem.rt = x :: rest → u.choosePort = some 0 → ∃ t, exec (.memAccessBoundary dt a) s = .next t ∧
         t.mem.rt = rest ∧ t.mem.snap = u.mem.snap ∧ t.mem.host = u.mem.host ∧ t.mem.scrub = u.mem.scrub ∧
         t.mem.ports[(0 : Fin 4)].accesses = u.mem.ports[(0 : Fin 4)].accesses + 1 ∧
         (∀ b i v, x.write = some b → b[i]? = some v → memRead 0 t.mem.cells (x.addr + i) = v) ∧
         (∀ y, (∀ b, x.write = some b → y < x.addr ∨ x.addr + b.length ≤ y) → memRead 0 t.mem.cells y = memRead 0 u.mem.cells y) ∧
         OnlyReports t { u with mem := t.mem }) ∧
       (∀ x rest, u.mem.snap = x :: rest → u.choosePort = some 1 → ∃ t, exec (.memAccessBoundary dt a) s = .next t ∧
         t.mem.snap.map (·.addr) = rest.map (·.addr) ∧ t.mem.rt = u.mem.rt ∧ t.mem.host = u.mem.host ∧
         t.mem.ports[(1 : Fin 4)].accesses = u.mem.ports[(1 : Fin 4)].accesses + 1 ∧
         (∀ b i v, x.write = some b → b[i]? = some v → memRead 0 t.mem.cells (x.addr + i) = v) ∧
         (∀ y, (∀ b, x.write = some b → y < x.addr ∨ x.addr + b.length ≤ y) → memRead 0 t.mem.cells y = memRead 0 u.mem.cells y) ∧
         OnlyReports t { u with mem := t.mem }) ∧
       (∀ h rest, u.mem.host = h :: rest → u.choosePort = some 2 → ∃ t, exec (.memAccessBoundary dt a) s = .next t ∧
         t.mem.ports[(2 : Fin 4)].accesses = u.mem.ports[(2 : Fin 4)].accesses + 1 ∧ t.mem.cells = u.mem.cells ∧
         t.pcie.bar2Reads = u.pcie.bar2Reads + 1 ∧ t.mem.rt = u.mem.rt ∧ t.mem.snap = u.mem.snap ∧
         (h.accesses ≤ h.served.length / 64 + 1 → t.mem.host = rest) ∧
         (h.accesses = 1 → h.served = [] → h.poisoned = false → a.bad = [] → u.mem.st = .running →
           (h.offset / 64 * 64 < u.capacity →
             .completion (.data (slice (memReadAll 0 u.mem.cells (h.offset / 64 * 64) 64) (h.offset % 64) h.length)) ∈ t.outputs) ∧
           (u.capacity ≤ h.offset / 64 * 64 →
             .completion (.data (slice (List.replicate 64 0) (h.offset % 64) h.length)) ∈ t.outputs)) ∧
         OnlyReports t { u with mem := t.mem, pcie := t.pcie, free := t.free, outputs := t.outputs }) ∧
       (∀ x, u.mem.scrub = some x → u.choosePort = some 3 → ∃ t, exec (.memAccessBoundary dt a) s = .next t ∧
         t.mem.scrub = none ∧ t.mem.scrubAddr = (if u.mem.scrubAddr + 64 < u.capacity then u.mem.scrubAddr + 64 else 0) ∧
         t.mem.ports[(3 : Fin 4)].accesses = u.mem.ports[(3 : Fin 4)].accesses + 1 ∧ t.mem.cells = u.mem.cells ∧
         OnlyReports t { u with mem := t.mem })) ∧
     (u.mem.st = .running → u.scrubHours ≠ 0 → u.mem.scrub = none →
       u.scrubHours * 3600 * secP * 64 ≤ (u.now - u.mem.scrubAt) * u.capacity → exec (.scrubRequest dt) s =
         .next { u with mem := { u.mem with scrub := some (u.now, false), scrubAt := u.now } })) ∧
  (∀ (s : State) (p : Fin 4), s.choosePort = some p →
     s.oldestRequest p ≠ none ∧ (s.mem.panic = 3 → p = 0) ∧ (s.mem.panic = 2 → p = 0 ∨ s.portUrgency p = some 3) ∧
     (s.mem.panic < 2 → ∀ (q : Fin 4) (x y : Nat), s.portUrgency p = some x → s.portUrgency q = some y → y ≤ x) ∧
     (s.mem.panic < 2 → ∀ (q : Fin 4) (x : Nat), s.portUrgency p = some x → s.portUrgency q = some x → s.hits q = true → s.hits p = true))

/-- The panic level follows the writer queue level (R306). A request of ports 1 to 3 has urgency 0 below half its deadline, 1 below
three quarters, 2 below the deadline and 3 from it on, and one that has reached urgency 3 is counted once (R307): the first of the
port's requests that is due and not yet counted is marked and counted, and with none such nothing changes. -/
def Obligations.UrgencyFollowsAge : Prop :=
  (∀ m : Mem, (m.queueLevel < 131072 → m.panic = 0) ∧ (131072 ≤ m.queueLevel → m.queueLevel < 262144 → m.panic = 1) ∧
    (262144 ≤ m.queueLevel → m.queueLevel < 393216 → m.panic = 2) ∧ (393216 ≤ m.queueLevel → m.panic = 3)) ∧
  (∀ (s : State) (port : Fin 4) (a : Nat), port ≠ 0 → s.oldestRequest port = some a →
    (2 * (s.now - a) < s.portDeadline port → s.portUrgency port = some 0) ∧
    (s.portDeadline port ≤ 2 * (s.now - a) → 4 * (s.now - a) < 3 * s.portDeadline port → s.portUrgency port = some 1) ∧
    (3 * s.portDeadline port ≤ 4 * (s.now - a) → s.now - a < s.portDeadline port → s.portUrgency port = some 2) ∧
    (s.portDeadline port ≤ s.now - a → s.portUrgency port = some 3)) ∧
  ∀ (s u : State) (dt : Nat), u = s.elapse dt →
    (∀ x rest, u.mem.snap = x :: rest →
      (u.mem.snapOverdue = false → x.arrived + u.portDeadline 1 ≤ u.now →
        exec (.requestOverdue dt 1) s = .next { u with mem := { u.mem with
          snapOverdue := true
          ports := upd u.mem.ports 1 fun x => { x with overdue := x.overdue + 1 } } }) ∧
      (u.mem.snapOverdue = true ∨ u.now < x.arrived + u.portDeadline 1 → exec (.requestOverdue dt 1) s = .next u)) ∧
    (∀ pre h post, u.mem.host = pre ++ h :: post → h.overdue = false → h.arrived + u.portDeadline 2 ≤ u.now →
      (∀ x ∈ pre, x.overdue = true ∨ u.now < x.arrived + u.portDeadline 2) →
      exec (.requestOverdue dt 2) s = .next { u with mem := { u.mem with
        host := pre ++ { h with overdue := true } :: post
        ports := upd u.mem.ports 2 fun x => { x with overdue := x.overdue + 1 } } }) ∧
    ((∀ x ∈ u.mem.host, x.overdue = true ∨ u.now < x.arrived + u.portDeadline 2) → exec (.requestOverdue dt 2) s = .next u) ∧
    (∀ (at_ : Nat) (counted : Bool), u.mem.scrub = some (at_, counted) →
      (counted = false → at_ + u.portDeadline 3 ≤ u.now → exec (.requestOverdue dt 3) s = .next { u with mem := { u.mem with
        scrub := some (at_, true)
        ports := upd u.mem.ports 3 fun x => { x with overdue := x.overdue + 1 } } }) ∧
      (counted = true ∨ u.now < at_ + u.portDeadline 3 → exec (.requestOverdue dt 3) s = .next u))

/-- Ring writers (R310, R314, R317, R321): an item for a fenced writer is discarded and its flits counted; one that falls in an
abandoned segment, or that would overflow the writer queue, is lost and marked; any other is queued for the real-time port. A
flush closes the open segment early with its header last. DRAM itself is written only at access boundaries. A snapshot whose last
sample is in a closed segment is copied (R318, R319): its request leaves the queue, and it takes the next segments of the pool and
waits at the SNAP port, unless nothing of its span is left. Rests on log entries 46, 65, 68, 73, 74 (the model's choices). -/
def Obligations.RingsAndSnapshots : Prop :=
  (∀ (s u : State) (dt : Nat) (ring : Fin 3), u = s.elapse dt →
     (∀ i rest, u.mem.items[ring] = i :: rest →
       (u.isShut 13 = true → exec (.rtItemArrival dt ring) s =
         .next { u with
           mem := { u.mem with items := u.mem.items.set ring rest }
           fab := { u.fab with fencedDiscards := u.fab.fencedDiscards + BitVec.ofNat 64 (flits i.size) } }) ∧
       (u.ringsOpen = true → i.begun = false → u.mem.rings[ring].skip ≠ 0 → ∃ t, exec (.rtItemArrival dt ring) s = .next t ∧
         t = { u with mem := t.mem } ∧ t.mem.items = u.mem.items.set ring rest ∧ t.mem.discards = u.mem.discards + 1 ∧
         t.mem.rt = u.mem.rt ∧ t.mem.cells = u.mem.cells ∧ (∀ k, k ≠ ring → t.mem.rings[k] = u.mem.rings[k])) ∧
       (u.ringsOpen = true → i.begun = true ∨ u.mem.rings[ring].skip = 0 → queueBytes < u.mem.queueLevel + min i.size pieceBytes →
         ∃ t, exec (.rtItemArrival dt ring) s = .next t ∧ OnlyReports t { u with mem := t.mem } ∧
           t.mem.rings[ring].openSeg = none ∧ t.mem.rings[ring].lost = true ∧
           (∀ a ∈ t.mem.rt, a ∈ u.mem.rt ∧ ∀ x, u.mem.rings[ring].openSeg = some x → a.ring = ring.val → a.seq ≠ x.seq) ∧
           t.mem.cells = u.mem.cells ∧ (∀ k, k ≠ ring → t.mem.rings[k] = u.mem.rings[k])) ∧
       (u.ringsOpen = true → i.begun = true ∨ u.mem.rings[ring].skip = 0 → u.mem.queueLevel + min i.size pieceBytes ≤ queueBytes →
         ∃ t new, exec (.rtItemArrival dt ring) s = .next t ∧ t = { u with mem := t.mem, free := t.free } ∧
           t.mem.rt = u.mem.rt ++ new ∧ t.mem.discards = u.mem.discards ∧ t.mem.cells = u.mem.cells ∧
           (i.prec = none → i.bytes.length ≤ pieceBytes → t.mem.items = u.mem.items.set ring rest) ∧
           (∀ k, k ≠ ring → t.mem.rings[k] = u.mem.rings[k]))) ∧
     (∀ x, u.mem.rings[ring].openSeg = some x → u.ringsOpen = true → u.memFlushMs ≠ 0 →
       (∀ i rest, u.mem.items[ring] = i :: rest → i.begun = false) → x.payload ≠ [] →
       u.mem.rings[ring].lastAt + u.memFlushMs * msP ≤ u.now →
       ∃ t a, exec (.ringFlush dt ring) s = .next t ∧ t = { u with mem := t.mem, free := t.free } ∧
         t.mem.rings[ring] = { u.mem.rings[ring] with openSeg := none } ∧ t.mem.rt.getLast? = some a ∧ a.last = true ∧
         a.seq = x.seq ∧ a.addr = u.mem.rings[ring].slot x.seq ∧ t.mem.cells = u.mem.cells ∧
         (∀ k, k ≠ ring → t.mem.rings[k] = u.mem.rings[k]))) ∧
  (∀ (s u : State) (dt : Nat) (poisoned : List Nat) (q : SnapReq), u = s.elapse dt → u.mem.requests.find? u.snapReady = some q →
     q.port < 2 → u.memServes = true → u.ringsOpen = true → u.mem.copying = none →
     ∃ t, exec (.snapshotCopy dt poisoned) s = .next t ∧
       OnlyReports t { u with mem := t.mem, free := t.free, evt := t.evt } ∧
       (t.evt = u.evt ∨ t.evt = { u.evt with snapTruncated := u.evt.snapTruncated + 1 }) ∧
       t.mem.requests = u.mem.requests.filter (fun x => x.id != q.id) ∧ t.mem.cells = u.mem.cells ∧ t.mem.rings = u.mem.rings ∧
       ((t.mem.copying = none ∧ t.mem.pool = u.mem.pool ∧ t.mem.stored = u.mem.stored) ∨
         ∃ c n, t.mem.copying = some c ∧ c.req = q ∧ c.seg = u.mem.pool.seq + 1 ∧ 0 < n ∧
           t.mem.pool.seq = u.mem.pool.seq + n ∧ t.mem.stored.getLast? = some { id := q.id, seg := c.seg, segs := n } ∧
           ∃ a, t.mem.snap.getLast? = some a ∧ a.last = true))

/-! ## Streams (chapter 11) -/

/-- A record that reaches its lane (R329, R348, R349): where the route cannot send, or the transmit buffer has no room, it is
discarded with its number and counted, and at a fenced lane its flits are counted too; else it takes the free line at once, numbered, or waits, urgent types before
others and otherwise in the order of completion. When the frame on the line has gone it is counted, and the oldest urgent record, or else the oldest other one, takes its
place. Rests on log entries 76, 77 (the model's choices). -/
def Obligations.RecordsReachTheLine : Prop :=
  ∀ (s u : State) (dt : Nat), u = s.elapse dt →
    (∀ (r : RouteId) p rest, u.routes[r].inflight = p :: rest →
      (u.routeSends r = false ∨ 4194304 < u.lanes[u.routeLane r].used + p.size → ∃ t, exec (.outRecordEnqueue dt r) s = .next t ∧
        t = { u with routes := t.routes, fab := { u.fab with fencedDiscards := t.fab.fencedDiscards } } ∧
        t.fab.fencedDiscards = u.fab.fencedDiscards + (if u.isShut 15 then BitVec.ofNat 64 (flits p.size) else 0) ∧
        t.routes[r].inflight = rest ∧ t.routes[r].seq = nextSeq u.routes[r].seq ∧ t.routes[r].skipped = true ∧
        t.routes[r].lost = u.routes[r].lost + 1 ∧ ∀ k, k ≠ r → t.routes[k] = u.routes[k]) ∧
      (u.routeSends r = true → u.lanes[u.routeLane r].used + p.size ≤ 4194304 → ∃ t, exec (.outRecordEnqueue dt r) s = .next t ∧
        t = { u with routes := t.routes, lanes := t.lanes } ∧ t.routes[r].inflight = rest ∧ t.routes[r].lost = u.routes[r].lost ∧
        (∀ k, k ≠ r → u.lanes[u.routeLane r].sending.isSome = true → t.routes[k] = u.routes[k]) ∧
        (∀ l, l ≠ u.routeLane r → t.lanes[l] = u.lanes[l]) ∧
        (∀ mac, u.lanes[u.routeLane r].sending = none → u.lanes[u.routeLane r].urgent = [] → u.lanes[u.routeLane r].normal = [] →
          u.routeMac r = some mac → t.routes[r].seq = nextSeq u.routes[r].seq ∧ t.routes[r].skipped = false ∧
          t.lanes[u.routeLane r].sending = some ⟨r, mac, p.bytes (nextSeq u.routes[r].seq) r.val u.routes[r].skipped⟩) ∧
        (u.lanes[u.routeLane r].sending.isSome = true → t.lanes[u.routeLane r].sending = u.lanes[u.routeLane r].sending ∧
          t.lanes[u.routeLane r].urgent = u.lanes[u.routeLane r].urgent ++ (if urgentType p.typ then [⟨r, p⟩] else []) ∧
          t.lanes[u.routeLane r].normal = (if urgentType p.typ then u.lanes[u.routeLane r].normal else insertDone ⟨r, p⟩ u.lanes[u.routeLane r].normal)))) ∧
    (∀ (l : Lane) f, u.lanes[l].sending = some f → ∃ t, exec (.ethFrameSent dt l) s = .next t ∧
      t = { u with routes := t.routes, lanes := t.lanes, outputs := t.outputs } ∧
      t.outputs = .udp l f.mac (u.routeDestIp f.route) (u.routeSrcPort f.route) (u.routeDestPort f.route) (u.routeDscp f.route) f.bytes ::
        u.outputs ∧
      t.routes[f.route].records = u.routes[f.route].records + 1 ∧ t.routes[f.route].sentAt = u.now ∧
      t.lanes[l].txFrames = u.lanes[l].txFrames + 1 ∧ (∀ k, k ≠ l → t.lanes[k] = u.lanes[k]) ∧
      (u.lanes[l].urgent = [] → u.lanes[l].normal = [] → t.lanes[l].sending = none) ∧
      (∀ x rest mac, (u.lanes[l].urgent = x :: rest ∨ (u.lanes[l].urgent = [] ∧ u.lanes[l].normal = x :: rest)) → u.laneUp l = true →
        u.routeMac x.route = some mac → t.lanes[l].sending =
          some ⟨x.route, mac, x.prec.bytes (nextSeq u.routes[x.route].seq) x.route.val u.routes[x.route].skipped⟩))

/-- The timers that form records: a HEARTBEAT with no payload once HEARTBEAT_MS has passed without a record sent on a route that can
send, and none while it cannot (R351), HOUSEKEEPING every HOUSEKEEPING_MS (R333), TIMING records of shot tags 10 ms after their first entry (R334), and coded
blocks that no sample has entered for FLUSH_MS (R336). Rests on log entry 78 (the model's choices). -/
def Obligations.TimersFormRecords : Prop :=
  ∀ (s u : State) (dt : Nat), u = s.elapse dt →
    (∀ r : RouteId, (u.routeRec r).isSome = true → u.heartbeatMs r ≠ 0 → u.routeSends r = true →
      u.routes[r].sentAt + u.heartbeatMs r * msP ≤ u.now → exec (.heartbeatTimer dt r) s = .next { u with routes := upd u.routes r fun x =>
        { x with
          sentAt := u.now
          inflight := x.inflight ++ [u.newRec 0x7F 0xFF []] } }) ∧
    (∀ r : RouteId, u.routeSends r = false ∨ u.heartbeatMs r = 0 ∨ u.now < u.routes[r].sentAt + u.heartbeatMs r * msP →
      exec (.heartbeatTimer dt r) s = .next u) ∧
    (∀ r : RouteId, u.live = true → (u.routeRec r).isSome = true → u.housekeepingMs r ≠ 0 →
      u.routes[r].housekeptAt + u.housekeepingMs r * msP ≤ u.now → ∃ t, exec (.housekeepingTimer dt r) s = .next t ∧
        t.routes = (upd u.routes r fun x =>
          { x with
            housekeptAt := u.now
            inflight := x.inflight ++
              [u.newRec 0x31 0xFF u.housekeeping] }) ∧
        OnlyReports t { u with routes := t.routes } ∧
        (u.ring2Takes 0x31 = false → t = { u with routes := t.routes })) ∧
    (∀ p : Port, ∃ t, exec (.timingRecordClose dt p) s = .next t ∧ OnlyReports t { u with routes := t.routes, mem := t.mem } ∧
      (∀ r : RouteId, u.routes[r].tags[p].firstAt + 10 * msP ≤ u.now → u.routes[r].tags[p].entries ≠ [] → t.routes[r] =
        { u.routes[r] with
          tags := u.routes[r].tags.set p {}
          inflight := u.routes[r].inflight ++ [u.newRec 0x40 p.val (timingPayload 2 u.routes[r].tags[p].entries)] }) ∧
      (∀ r : RouteId, u.now < u.routes[r].tags[p].firstAt + 10 * msP → t.routes[r] = u.routes[r]) ∧
      (u.mem.tags[p].firstAt + 10 * msP ≤ u.now → u.mem.tags[p].entries ≠ [] → t.mem.tags = u.mem.tags.set p {}) ∧
      (u.now < u.mem.tags[p].firstAt + 10 * msP → t.mem = u.mem)) ∧
    (∀ p : Port, u.live = true → u.isShut 12 = false → u.histCoding p.val ≠ 0 → u.memFlushMs ≠ 0 →
      u.ringCoders[p].lastAt + u.memFlushMs * msP ≤ u.now → ∃ t, exec (.coderFlush dt (.ring p)) s = .next t ∧
        OnlyReports t { u with ringCoders := t.ringCoders, cmp := t.cmp } ∧ t.ringCoders[p].rows = [] ∧
        (∀ q, q ≠ p → t.ringCoders[q] = u.ringCoders[q] ∧ t.cmp[q] = u.cmp[q])) ∧
    (∀ (r : RouteId) (p : Port) (product : Nat), u.live = true → u.isShut 12 = false → u.routeCoding r ≠ 0 → u.routeFlushMs r ≠ 0 →
      ∃ t, exec (.coderFlush dt (.route r p product)) s = .next t ∧ t = { u with routes := t.routes, cmp := t.cmp } ∧
        (∀ k, k ≠ r → t.routes[k] = u.routes[k]) ∧ (∀ q, q ≠ p → t.cmp[q] = u.cmp[q]) ∧
        (∀ g ∈ t.routes[r].das, g.port = p.val → g.product = product → g.lastAt + u.routeFlushMs r * msP ≤ u.now → g.rows = []))

/-- A lane resolves and answers (R347, R348, Table 11.13): an ARP request for its address and an echo request are answered; a next hop
that is unknown or stale is asked for, asked again each second, and unresolved after three; coming up, the lane sends a gratuitous ARP
and asks for its next hops; going down, it discards what waits, each record counted. Every other frame is discarded.
Rests on log entry 77 (the model's choices). -/
def Obligations.LanesResolve : Prop :=
  ∀ (s u : State) (dt : Nat) (l : Lane), u = s.elapse dt →
    (u.laneUp l = true →
      (∀ f : ArpFrame, ∃ t, exec (.arpFrameReceived dt l f) s = .next t ∧ t = { u with lanes := t.lanes, outputs := t.outputs } ∧
        t.lanes[l].arp = (u.lanes[l].arp.map fun a =>
          if a.ip = f.senderIp then { a with mac := some f.senderMac, unanswered := 0, refreshedAt := u.now } else a) ∧
        t.outputs = (if f.op = 1 ∧ f.targetIp = u.ethIp l then .arp l 2 f.senderMac f.senderIp :: u.outputs else u.outputs) ∧
        t.lanes[l].rxFrames = u.lanes[l].rxFrames + 1 ∧ (∀ k, k ≠ l → t.lanes[k] = u.lanes[k])) ∧
      (∃ t, exec (.arpRefresh dt l) s = .next t ∧ t = { u with lanes := t.lanes, outputs := t.outputs } ∧
        (∀ k, k ≠ l → t.lanes[k] = u.lanes[k]) ∧
        (∀ ip ∈ u.laneHops l,
          ((u.lanes[l].arp.find? fun e => e.ip == ip) = none → .arp l 1 broadcastMac ip ∈ t.outputs) ∧
          (∀ e, (u.lanes[l].arp.find? fun e => e.ip == ip) = some e → e.unanswered = 0 →
            e.refreshedAt + u.arpRefreshS l * secP ≤ u.now → .arp l 1 broadcastMac ip ∈ t.outputs)) ∧
        ((∀ ip ∈ u.laneHops l, ∃ e, (u.lanes[l].arp.find? fun e => e.ip == ip) = some e ∧
          (e.unanswered ≠ 0 ∨ u.now < e.refreshedAt + u.arpRefreshS l * secP)) → t = u)) ∧
      (∃ t, exec (.arpRetryTimeout dt l) s = .next t ∧ t = { u with lanes := t.lanes, outputs := t.outputs } ∧
        (∀ k, k ≠ l → t.lanes[k] = u.lanes[k]) ∧
        (∀ e ∈ u.lanes[l].arp, e.unanswered ≠ 0 → e.askedAt + secP ≤ u.now →
          (e.unanswered < 3 → .arp l 1 broadcastMac e.ip ∈ t.outputs) ∧ (3 ≤ e.unanswered → t.arpMac l e.ip = none)) ∧
        ((∀ e ∈ u.lanes[l].arp, e.unanswered = 0 ∨ u.now < e.askedAt + secP) → t = u)) ∧
      (∀ srcMac srcIp dstIp data,
        (u.icmpEcho l = 1 ∧ dstIp = u.ethIp l → exec (.icmpEchoRequest dt l srcMac srcIp dstIp data) s = .next { u with
          lanes := upd u.lanes l fun x => { x with rxFrames := x.rxFrames + 1, txFrames := x.txFrames + 1 }
          outputs := .echoReply l srcMac srcIp data :: u.outputs }) ∧
        (u.icmpEcho l ≠ 1 ∨ dstIp ≠ u.ethIp l → exec (.icmpEchoRequest dt l srcMac srcIp dstIp data) s = .next { u with
          lanes := upd u.lanes l fun x => { x with rxFrames := x.rxFrames + 1, rxDiscards := x.rxDiscards + 1 } })) ∧
      exec (.ethFrameDiscarded dt l) s = .next { u with
        lanes := upd u.lanes l fun x => { x with rxFrames := x.rxFrames + 1, rxDiscards := x.rxDiscards + 1 } }) ∧
    (u.laneOn l = true → u.lanes[l].up = false → ∃ t, exec (.ethLinkUp dt l) s = .next t ∧
      t = { u with lanes := t.lanes, outputs := t.outputs } ∧ t.lanes[l].up = true ∧ (∀ k, k ≠ l → t.lanes[k] = u.lanes[k]) ∧
      .arp l 1 broadcastMac (u.ethIp l) ∈ t.outputs ∧
      ∀ ip ∈ u.laneHops l, u.arpMac l ip = none → .arp l 1 broadcastMac ip ∈ t.outputs) ∧
    (u.lanes[l].up = true → ∃ t, exec (.ethLinkDown dt l) s = .next t ∧ t = { u with lanes := t.lanes, routes := t.routes } ∧
      t.lanes[l] = { u.lanes[l] with up := false, urgent := [], normal := [], sending := none } ∧
      (∀ k, k ≠ l → t.lanes[k] = u.lanes[k]) ∧
      ∀ r : RouteId, t.routes[r].lost = u.routes[r].lost +
        BitVec.ofNat 64 (((u.lanes[l].urgent ++ u.lanes[l].normal).filter fun x => x.route == r).length +
          (if u.lanes[l].sending.map (·.route) = some r then 1 else 0)))

/-- Management on a lane (R352, Tables 11.15 and 11.16): a lane without MGMT_PORT discards the frame, a wrong SYNC discards the
request and counts it, as does a request beyond the 16 that the lane holds, and any other request is answered at once: a status read with the registers' bytes, RESULT 2 out of range and 4
when its transfer fails; a black-box read with the records from an index; an echo with its data; any other operation with RESULT 1.
Rests on log entries 79, 80, 84 (the model's choices). -/
def Obligations.ManagementAnswers : Prop :=
  ∀ (s u v : State) (dt : Nat) (l : Lane) (r : MgmtReq), u = s.elapse dt → u.laneUp l = true →
    v = { u with
      lanes := upd u.lanes l fun x => { x with rxFrames := x.rxFrames + 1, asked := x.heldAt u.now + 1, askedAt := u.now }
      mgmt := { u.mgmt with requests := u.mgmt.requests + 1 } } →
    (u.mgmtPort l = 0 → exec (.mgmtEcho dt l r) s = .next { u with
      lanes := upd u.lanes l fun x => { x with rxFrames := x.rxFrames + 1, rxDiscards := x.rxDiscards + 1 } }) ∧
    (u.mgmtPort l ≠ 0 → r.sync ≠ mgmtSync ∨ 16 ≤ u.lanes[l].heldAt u.now → exec (.mgmtEcho dt l r) s = .next { u with
      lanes := upd u.lanes l fun x => { x with rxFrames := x.rxFrames + 1 }
      mgmt := { u.mgmt with dropped := u.mgmt.dropped + 1 } }) ∧
    (u.mgmtPort l ≠ 0 → r.sync = mgmtSync → u.lanes[l].heldAt u.now < 16 →
      (r.offset % 4 = 0 → r.length % 4 = 0 → r.length ≤ 1024 → r.offset + r.length ≤ statusEnd →
        (∃ t, exec (.mgmtStatusRead dt l r false) s = .next t ∧ t.LaneAnswers u l r 1 0 (v.statusRead (lanePath l) r.offset r.length).1 ∧
          t.readFailures = u.readFailures) ∧
        ∃ t, exec (.mgmtStatusRead dt l r true) s = .next t ∧ t.LaneAnswers u l r 1 4 [] ∧ t.readFailures = u.readFailures + 1 ∧
          t.latches = u.latches) ∧
      (∀ failed, r.offset % 4 ≠ 0 ∨ r.length % 4 ≠ 0 ∨ 1024 < r.length ∨ statusEnd < r.offset + r.length →
        ∃ t, exec (.mgmtStatusRead dt l r failed) s = .next t ∧ t.LaneAnswers u l r 1 2 [] ∧ t.readFailures = u.readFailures ∧
          t.latches = u.latches) ∧
      (∃ t, exec (.mgmtBlackBoxRead dt l r) s = .next t ∧ t.readFailures = u.readFailures ∧ t.latches = u.latches ∧
        (if r.offset < 8192 ∧ r.length % 64 = 0 ∧ r.length ≤ 1024 then
          t.LaneAnswers u l r 2 0 ((List.range (r.length / 64)).flatMap fun k => u.bbx.recordAt (r.offset + k))
         else t.LaneAnswers u l r 2 2 [])) ∧
      (∃ t, exec (.mgmtEcho dt l r) s = .next t ∧ t.readFailures = u.readFailures ∧ t.latches = u.latches ∧
        (if r.offset = 0 ∧ r.length ≤ 1024 then t.LaneAnswers u l r 3 0 (slice r.data 0 r.length) else t.LaneAnswers u l r 3 2 [])) ∧
      (r.op ≠ 1 → r.op ≠ 2 → r.op ≠ 3 → ∃ t, exec (.mgmtUnknownOp dt l r) s = .next t ∧ t.readFailures = u.readFailures ∧
        t.latches = u.latches ∧ t.LaneAnswers u l r r.op 1 []))

/-! ## The PCI Express endpoint (chapters 11 and 15) -/

/-- PCI Express requests (R354 to R357, R460): configuration requests are retried while CFG loads and then complete; the link comes up
at the lesser of the host's speed and width and its own, the width one of 1, 2 and 4, and the power state is the host's; a function-level reset or a link reset resets configuration space and MSI-X, keeping the counts of
messages; a request that the function does not serve completes with UR; a read of BAR2 waits at the memory port; a status read
delivers the registers' bytes, all ones poisoned when its transfer fails.
Rests on log entries 72, 81, 83, 84, 133, 134 (the model's choices). -/
def Obligations.PcieRequestsComplete : Prop :=
  ∀ (s u : State) (dt : Nat), u = s.elapse dt → u.live = true →
    (∀ (w : Bool) (reg : Nat) (value : U32),
      (u.cfg.state = 0 → exec (.pcieConfigRequest dt w reg value) s = .next { u with outputs := .completion .crs :: u.outputs }) ∧
      (u.cfg.state ≠ 0 → u.pciePresent = true →
        exec (.pcieConfigRequest dt true reg value) s = .next { u with
          pcie := { u.pcie with config := (reg, value) :: u.pcie.config }
          outputs := .completion (.data []) :: u.outputs } ∧
        exec (.pcieConfigRequest dt false reg value) s = .next { u with
          outputs := .completion (.data (le 4 (u.configWord reg))) :: u.outputs })) ∧
    (u.pciePresent = true →
      (∀ speed width, exec (.pcieLinkUp dt speed width) s =
        .next { u with pcie := { u.pcie with
          link := .up, speed := min speed u.pcieMaxSpeed, width := linkWidth (min width u.pcieMaxWidth) } }) ∧
      (∀ kind, u.mbxStaging = none → exec (.pcieLinkReset dt kind) s = .next { u with pcie := { u.pcie with
        config := [], d3hot := false, msix := u.pcie.msix.map fun v => { sent := v.sent }
        link := (if kind = .perst then LinkSt.off else LinkSt.training), speed := 0, width := 0 } }) ∧
      (u.mbxStaging ≠ none →
        (∀ kind, ∃ t, exec (.pcieLinkReset dt kind) s = .next t ∧ t.cfg.staging = none ∧ t.cfg.stageResult = 7 ∧ t.mbx.unlocked = false) ∧
        (u.pcie.link = .up → ∃ t, exec (.pcieFunctionLevelReset dt) s = .next t ∧ t.cfg.staging = none ∧ t.cfg.stageResult = 7 ∧
          t.mbx.unlocked = false))) ∧
    (u.pciePresent = true → u.pcie.link = .up →
      (∀ d3, exec (.pciePowerStateChange dt d3) s = .next { u with pcie := { u.pcie with d3hot := d3 } }) ∧
      (u.mbxStaging = none → exec (.pcieFunctionLevelReset dt) s = .next { u with pcie := { u.pcie with
        config := [], d3hot := false, msix := u.pcie.msix.map fun v => { sent := v.sent } } }) ∧
      (∀ o n, u.bar2Bytes < o + n → exec (.bar2Read dt o n) s = .fault .outsideWindow) ∧
      (∀ o n, o + n ≤ u.bar2Bytes → u.pcieServes = false ∨ u.isShut 13 = true → exec (.bar2Read dt o n) s = .next { u with
        pcie := { u.pcie with ur := u.pcie.ur + 1 }, outputs := .completion .ur :: u.outputs }) ∧
      (∀ o n, o + n ≤ u.bar2Bytes → u.pcieServes = true → u.isShut 13 = false →
        (u.mem.host = [] ∧ u.capacity ≤ o → exec (.bar2Read dt o n) s =
          .next { u with outputs := .completion (.data (List.replicate n 0)) :: u.outputs }) ∧
        (u.mem.host ≠ [] ∨ o < u.capacity → exec (.bar2Read dt o n) s = .next { u with mem := { u.mem with
          host := u.mem.host ++ [{ offset := o, length := n, arrived := u.now }], requestAt := u.now } })) ∧
      (∀ o, o + 1 ≤ u.bar2Bytes →
        (u.pcieServes = true → exec (.bar2Write dt o) s =
          .next { u with pcie := { u.pcie with writesDiscarded := u.pcie.writesDiscarded + 1 } }) ∧
        (u.pcieServes = false → exec (.bar2Write dt o) s = .next { u with pcie := { u.pcie with ur := u.pcie.ur + 1 } })) ∧
      (∀ o n, o + n ≤ 0x1000000 →
        (∀ failed, u.pcieServes = false → exec (.counterLowWordRead dt .pcie o n failed) s = .next { u with
          pcie := { u.pcie with ur := u.pcie.ur + 1 }, outputs := .completion .ur :: u.outputs }) ∧
        (u.pcieServes = true → exec (.counterLowWordRead dt .pcie o n false) s = .next { u with
          latches := (u.statusRead .pcie o n).2.latches
          outputs := .completion (.data (u.statusRead .pcie o n).1) :: u.outputs }) ∧
        (u.pcieServes = true → ∃ t, exec (.counterLowWordRead dt .pcie o n true) s = .next t ∧ OnlyReports t { u with
          readFailures := u.readFailures + 1, pcie := { u.pcie with poisoned := u.pcie.poisoned + 1 }
          outputs := .completion (.poisoned (List.replicate n 0xFF)) :: u.outputs }))) ∧
    (∀ path o n, path ≠ .pcie → o + n ≤ statusEnd →
      exec (.counterLowWordRead dt path o n false) s = .next { u with latches := (u.statusRead path o n).2.latches } ∧
      exec (.counterLowWordRead dt path o n true) s = .next { u with readFailures := u.readFailures + 1 })

/-- Host writes (R355, R358, R461, R462): outside the MBX page they are discarded and counted, inside it argument,
block and data words are stored while the mailbox is unlocked, and discarded and counted while it is locked; a function that does not
serve counts UR. A vector's
table entry is stored, and one that is unmasked while pending sends its message; events merged during a hold-off send one message
when it has ended. Rests on log entries 82, 83 (the model's choices). -/
def Obligations.HostWritesAct : Prop :=
  ∀ (s u : State) (dt : Nat), u = s.elapse dt →
    (u.pciePresent = true → u.pcie.link = .up → u.pcieServes = false →
      (∀ o w, exec (.msixTableWrite dt o w) s = .next { u with pcie := { u.pcie with ur := u.pcie.ur + 1 } }) ∧
      (∀ o data, o + data.length ≤ 0x1000000 → exec (.registerWrite dt o data) s =
        .next { u with pcie := { u.pcie with ur := u.pcie.ur + 1 } })) ∧
    (u.pcieServes = true →
      (∀ o data, o + data.length ≤ 0x1000000 → o < 0x1F0000 ∨ 0x200000 ≤ o → exec (.registerWrite dt o data) s =
        .next { u with pcie := { u.pcie with writesDiscarded := u.pcie.writesDiscarded + 1 } }) ∧
      (∀ data, data.length = 4 →
        (u.mbx.unlocked = true → exec (.registerWrite dt 0x1F0008 data) s = .next { u with mbx := { u.mbx with
          arg := BitVec.ofNat 32 (leNat data), firstKey := none, idleFrom := u.now } }) ∧
        (u.mbx.unlocked = true → exec (.registerWrite dt 0x1F000C data) s = .next { u with mbx := { u.mbx with
          block := BitVec.ofNat 32 (leNat data), firstKey := none, idleFrom := u.now } }) ∧
        (u.mbx.unlocked = true → u.mbx.busy = false → ∀ i, i % 4 = 0 → i + 4 ≤ 4096 → exec (.registerWrite dt (0x1F1000 + i) data) s =
          .next { u with mbx := { u.mbx with
            data := u.mbx.data.take i ++ data ++ u.mbx.data.drop (i + 4), firstKey := none, idleFrom := u.now } }) ∧
        (u.mbx.unlocked = false → ∀ o, 0x1F0008 ≤ o → o < 0x1FF000 → exec (.registerWrite dt o data) s =
          .next { u with mbx := { u.mbx with rejected := u.mbx.rejected + 1, firstKey := none, idleFrom := u.now } })) ∧
      (∀ (v : Fin 8) (word : Fin 4) (value : U32), ∃ t, exec (.msixTableWrite dt (0x1FF000 + 16 * v.val + 4 * word.val) value) s = .next t ∧
        t = { u with pcie := { u.pcie with msix := t.pcie.msix }, outputs := t.outputs } ∧
        t.pcie.msix[v].addr = (u.pcie.msix[v].writeWord word.val value).addr ∧
        t.pcie.msix[v].data = (u.pcie.msix[v].writeWord word.val value).data ∧
        t.pcie.msix[v].control = (u.pcie.msix[v].writeWord word.val value).control ∧
        (∀ k, k ≠ v → t.pcie.msix[k] = u.pcie.msix[k]) ∧
        (if u.pcie.msix[v].pending = true ∧ (u.pcie.msix[v].writeWord word.val value).control.getLsbD 0 = false then
          t.outputs = .msix v t.pcie.msix[v].addr t.pcie.msix[v].data :: u.outputs ∧ t.pcie.msix[v].pending = false ∧
            t.pcie.msix[v].sent = u.pcie.msix[v].sent + 1
         else t.outputs = u.outputs ∧ t.pcie.msix[v].pending = u.pcie.msix[v].pending))) ∧
    (∀ v : Fin 8, u.pcie.msix[v].merged = true → u.pcie.msix[v].holdUntil ≤ u.now → u.pcieServes = true →
      ∃ t, exec (.msixHoldoffExpiry dt v) s = .next t ∧ OnlyReports t u ∧ t.pcie.msix[v].merged = false ∧
        (u.pcie.msix[v].control.getLsbD 0 = false → t.outputs = .msix v u.pcie.msix[v].addr u.pcie.msix[v].data :: u.outputs ∧
          t.pcie.msix[v].sent = u.pcie.msix[v].sent + 1 ∧ t.pcie.msix[v].holdUntil = u.now + u.msixHoldoff * usP) ∧
        (u.pcie.msix[v].control.getLsbD 0 = true → t.outputs = u.outputs ∧ t.pcie.msix[v].pending = true))

/-! ## Staging: mailbox, flash, placket (chapters 12, 14, 15) -/

/-- The mailbox (R462 to R464, Table 15.8): the two key words within 10 ms unlock it, and 10 s without a write lock it; a command is
discarded while BUSY and refused with result 0x10 while locked; unlocked, each does what its row says and completes with its result.
Only the mailbox, the staging, its slot's flash and a requested restart can change.
Rests on log entries 85, 136 (the model's choices). -/
def Obligations.MailboxActs : Prop :=
  ∀ (s u : State) (dt : Nat), u = s.elapse dt → u.pcieServes = true →
    exec (.mbxUnlockWrite dt 0x4D425831#32) s = .next { u with mbx := { u.mbx with firstKey := some u.now, idleFrom := u.now } } ∧
    (∀ k, u.mbx.firstKey = some k → exec (.mbxUnlockWrite dt 0x4D425832#32) s = .next { u with mbx := { u.mbx with
      firstKey := none, unlocked := u.mbx.unlocked || decide (u.now ≤ k + 10 * msP), idleFrom := u.now } }) ∧
    (∀ (word : U32) (c : Instr), (c, word) ∈ [(Instr.mbxStageBegin dt, 1#32), (.mbxStageBlock dt, 2#32), (.mbxStageAbort dt, 3#32),
        (.mbxRestart dt, 4#32), (.mbxUnknownCommand dt word, word)] →
      (u.mbx.busy = true → exec c s =
        .next { u with mbx := { u.mbx with rejected := u.mbx.rejected + 1, firstKey := none, idleFrom := u.now } }) ∧
      (u.mbx.busy = false → u.mbx.unlocked = false → exec c s = .next { u with mbx := { u.mbx with
        rejected := u.mbx.rejected + 1, firstKey := none, idleFrom := u.now, result := 0x10, resultOf := word.toNat % 256 } })) ∧
    (u.mbx.busy = false → u.mbx.unlocked = true →
      (∃ t, exec (.mbxStageBegin dt) s = .next t ∧ OnlyReports t { u with cfg := t.cfg, mbx := t.mbx } ∧ t.mbx.done = true ∧
        t.mbx.busy = false ∧ t.mbx.result = u.stageRefusal.getD 0 ∧
        (u.stageRefusal = none → t.cfg.staging = some { feeder := .mailbox, target := u.stageTarget } ∧ t.mbx.nextBlock = 0) ∧
        (∀ c, u.stageRefusal = some c → t.cfg.staging = u.cfg.staging ∧ t.cfg.stageResult = BitVec.ofNat 32 c)) ∧
      (∃ t, exec (.mbxStageBlock dt) s = .next t ∧
        OnlyReports t { u with cfg := t.cfg, mbx := t.mbx, flash := { u.flash with cells := t.flash.cells } } ∧
        (u.mbxStaging = none → t.mbx.result = 0x12 ∧ t.mbx.done = true ∧ t.cfg = u.cfg ∧ t.flash = u.flash) ∧
        (u.mbxStaging ≠ none → u.mbx.block ≠ u.mbx.nextBlock ∨ u.mbx.arg.toNat % 4 ≠ 0 ∨ 4096 < u.mbx.arg.toNat →
          t.cfg.staging = none ∧ t.cfg.stageResult = 7 ∧ t.mbx.result = 7 ∧ t.mbx.unlocked = false) ∧
        (∀ g, u.mbxStaging = some g → u.mbx.block = u.mbx.nextBlock → u.mbx.arg.toNat % 4 = 0 → u.mbx.arg.toNat ≤ 4096 →
          t.mbx.nextBlock = u.mbx.nextBlock + 1 ∧
          (u.mbx.arg.toNat ≠ 0 → ∀ h, t.cfg.staging = some h → h.bytes = g.bytes ++ u.mbx.data.take u.mbx.arg.toNat))) ∧
      (∃ t, exec (.mbxStageAbort dt) s = .next t ∧
        OnlyReports t { u with cfg := t.cfg, mbx := t.mbx, flash := { u.flash with cells := t.flash.cells } } ∧
        (u.mbxStaging = none → t.mbx.result = 0x12 ∧ t.cfg = u.cfg) ∧
        (u.mbxStaging ≠ none → t.cfg.staging = none ∧ t.cfg.stageResult = 7 ∧ t.mbx.result = 7 ∧ t.mbx.unlocked = false)) ∧
      (∃ t, exec (.mbxRestart dt) s = .next t ∧ OnlyReports t { u with cfg := t.cfg, mbx := t.mbx, power := t.power } ∧
        (u.mbx.arg ≠ 0x52535452#32 → t.mbx.result = 0x13 ∧ t.power = u.power ∧ t.cfg = u.cfg) ∧
        (u.mbx.arg = 0x52535452#32 → u.cfg.staging ≠ none → t.mbx.result = 0x14 ∧ t.power = u.power ∧
          t.cfg = { u.cfg with restartRefused := u.cfg.restartRefused + 1 }) ∧
        (u.mbx.arg = 0x52535452#32 → u.cfg.staging = none → t.mbx.result = 0 ∧ t.mbx.unlocked = false ∧
          t.power = { u.power with request := some (3, u.now + 10 * msP) } ∧ t.cfg = u.cfg)) ∧
      (∀ word, ∃ t, exec (.mbxUnknownCommand dt word) s = .next t ∧ OnlyReports t { u with mbx := t.mbx } ∧ t.mbx.result = 0x11 ∧
        t.mbx.done = true) ∧
      (u.mbx.idleFrom + 10 * secP ≤ u.now → ∃ t, exec (.mbxLockLapse dt) s = .next t ∧ t.mbx.unlocked = false ∧
        t.mbxStaging = none ∧
        OnlyReports t { u with cfg := t.cfg, mbx := t.mbx, flash := { u.flash with cells := t.flash.cells } }))

/-- The staging service works on its slot's flash alone (R390 to R392): a finished erase leaves the units that cover the image
erased, a finished program the page's bytes, the held header page last, which ends the staging with code 0; a failed or overdue
operation ends it with code 4 or 5 and the slot without its first erase unit, a failed check with code 6.
Rests on log entry 85 (the model's choices). -/
def Obligations.StagingProgramsFlash : Prop :=
  ∀ (s u : State) (dt b : Nat) (g : Staging), u = s.elapse dt → u.live = true → u.cfg.staging = some g → b = slotBase g.target →
    Memory.wf erased u.flash.cells = true → 0 < g.length → g.ended = false ∨ g.length ≤ g.bytes.length →
    (g.phase = .erasing → u.bbx.mirror = none →
      (∃ t, exec (.flashEraseDone dt true) s = .next t ∧
        OnlyReports t { u with flash := { u.flash with cells := t.flash.cells }, cfg := t.cfg, mbx := t.mbx } ∧
        t.cfg.staging.isSome = true ∧
        ∀ a, memRead erased t.flash.cells a = if b ≤ a ∧ a < b + u.eraseSpan g.length then erased else memRead erased u.flash.cells a) ∧
      ∃ t, exec (.flashEraseDone dt false) s = .next t ∧ t.cfg.staging = none ∧ t.cfg.stageResult = 4 ∧
        OnlyReports t { u with flash := { u.flash with cells := t.flash.cells }, cfg := t.cfg, mbx := t.mbx, plk := t.plk } ∧
        ∀ a, memRead erased t.flash.cells a = if b ≤ a ∧ a < b + u.eraseUnit then erased else memRead erased u.flash.cells a) ∧
    (g.phase = .programming →
      (∃ t, exec (.flashProgramDone dt true) s = .next t ∧
        OnlyReports t { u with flash := { u.flash with cells := t.flash.cells }, cfg := t.cfg, mbx := t.mbx } ∧
        t.cfg.staging.isSome = true ∧
        (∀ i, i < 256 → g.programmed + i < min g.bytes.length g.length → some (memRead erased t.flash.cells (b + g.programmed + i)) =
          g.bytes[g.programmed + i]?) ∧
        (∀ a, a < b + g.programmed ∨ b + g.programmed + 256 ≤ a → memRead erased t.flash.cells a = memRead erased u.flash.cells a)) ∧
      ∃ t, exec (.flashProgramDone dt false) s = .next t ∧ t.cfg.staging = none ∧ t.cfg.stageResult = 5 ∧
        OnlyReports t { u with flash := { u.flash with cells := t.flash.cells }, cfg := t.cfg, mbx := t.mbx, plk := t.plk }) ∧
    (g.phase = .header → ∃ t, exec (.flashProgramDone dt true) s = .next t ∧ t.cfg.staging = none ∧ t.cfg.stageResult = 0 ∧
      t.cfg.stages = u.cfg.stages + 1 ∧
      OnlyReports t { u with flash := { u.flash with cells := t.flash.cells }, cfg := t.cfg, mbx := t.mbx, plk := t.plk } ∧
      (∀ i, i < 256 → i < min g.bytes.length g.length → some (memRead erased t.flash.cells (b + i)) = g.bytes[i]?) ∧
      (∀ a, a < b ∨ b + 256 ≤ a → memRead erased t.flash.cells a = memRead erased u.flash.cells a)) ∧
    (g.phase = .erasing → g.since + u.eraseSpan g.length / u.eraseUnit * u.unitEraseMs * msP ≤ u.now →
      ∃ t, exec (.flashOperationTimeout dt) s = .next t ∧ t.cfg.staging = none ∧ t.cfg.stageResult = 4) ∧
    (g.phase = .programming ∨ g.phase = .header → g.since + u.pageProgramMs * msP ≤ u.now →
      ∃ t, exec (.flashOperationTimeout dt) s = .next t ∧ t.cfg.staging = none ∧ t.cfg.stageResult = 5) ∧
    (g.phase = .checking → ∃ t, exec (.stagingCheckDone dt) s = .next t ∧
      ((t = { u with cfg := { u.cfg with staging := some { g with phase := .header, since := u.now } } }) ∨
        (t.cfg.staging = none ∧ t.cfg.stageResult = 6)))

/-- DFU through the placket (R443 to R445, Tables 14.6 and 14.7): a first block opens a staging, a block in order feeds it, a block out
of order ends it with code 7 in dfuERROR, an empty block ends the transfer; status requests tell where it stands; an error state is
cleared; what is not supported, or out of place, stalls. VBUS attaches and detaches the placket, not while it is fenced, and the host
reads its two descriptors and configures it. Rests on log entries 85, 86, 87, 132 (the model's choices). -/
def Obligations.DfuTransfers : Prop :=
  ∀ (s u : State) (dt : Nat), u = s.elapse dt →
    (u.live = true → u.plk.attached = false → u.isShut 16 = false → exec (.placketAttach dt) s = .next { u with plk := { u.plk with
      vbus := true, attached := true, configured := false, attaches := u.plk.attaches + 1, dfu := .idle, status := 0 } }) ∧
    (u.live = true → u.plk.attached = false → u.isShut 16 = true → exec (.placketAttach dt) s =
      .next { u with plk := { u.plk with vbus := true } }) ∧
    (u.plk.attached = false → exec (.placketDetach dt) s = .next { u with plk := { u.plk with vbus := false } }) ∧
    (u.plk.attached = true → ∃ t, exec (.placketDetach dt) s = .next t ∧ t.plk.attached = false ∧ t.plk.vbus = false ∧
      t.plk.configured = false ∧ t.plkStaging = none ∧
      OnlyReports t { u with plk := t.plk, cfg := t.cfg, flash := { u.flash with cells := t.flash.cells } }) ∧
    (u.plkOn = true →
      (∀ hs, exec (.placketConfigured dt hs) s = .next { u with
        plk := { u.plk with configured := true, highSpeed := hs }
        outputs := .usb (configDescriptor hs) :: .usb deviceDescriptor :: u.outputs }) ∧
      (u.plk.dfu = .idle →
        (∀ block, exec (.dfuDnload dt block []) s =
          .next { u with plk := { u.plk with dfu := .error, status := 15 }, outputs := .usbStall :: u.outputs }) ∧
        (∀ block data, data ≠ [] → block ≠ 0 → exec (.dfuDnload dt block data) s =
          .next { u with plk := { u.plk with dfu := .error, status := 14 } }) ∧
        (∀ data c, data ≠ [] → u.stageRefusal = some c → ∃ t, exec (.dfuDnload dt 0 data) s = .next t ∧ t.plk.dfu = .error ∧
          t.cfg.staging = u.cfg.staging ∧ t.cfg.stageResult = BitVec.ofNat 32 c ∧ t = { u with plk := t.plk, cfg := t.cfg }) ∧
        (∀ data, data ≠ [] → data.length < 64 → u.stageRefusal = none → exec (.dfuDnload dt 0 data) s = .next { u with
          plk := { u.plk with dfu := .dnloadSync, status := 0, nextBlock := 1, blocks := u.plk.blocks + 1 }
          cfg := { u.cfg with
            staging := some { feeder := .placket, target := u.stageTarget, bytes := data }
            stageSlot := BitVec.ofNat 32 u.stageTarget } })) ∧
      (u.plk.dfu = .dnloadIdle →
        (∀ block data, block ≠ u.plk.nextBlock → ∃ t, exec (.dfuDnload dt block data) s = .next t ∧ t.plk.dfu = .error ∧
          t.plk.status = 14 ∧ t.plkStaging = none ∧ (u.plkStaging ≠ none → t.cfg.stageResult = 7)) ∧
        (∃ t, exec (.dfuDnload dt u.plk.nextBlock []) s = .next t ∧ t.plk.dfu = .manifestSync) ∧
        (∀ data, data ≠ [] → ∃ t, exec (.dfuDnload dt u.plk.nextBlock data) s = .next t ∧ t.plk.nextBlock = u.plk.nextBlock + 1 ∧
          t.plk.blocks = u.plk.blocks + 1 ∧
          ∀ g h, u.plkStaging = some g → t.cfg.staging = some h → h.bytes = g.bytes ++ data)) ∧
      (∀ block data, u.plk.dfu = .dnloadSync ∨ u.plk.dfu = .manifestSync ∨ u.plk.dfu = .error → exec (.dfuDnload dt block data) s =
        .next { u with plk := { u.plk with dfu := .error, status := 15 }, outputs := .usbStall :: u.outputs }) ∧
      (u.plk.dfu = .dnloadSync → (∀ g, u.plkStaging = some g → g.phase = .receiving) → exec (.dfuGetstatus dt) s = .next { u with
        plk := { u.plk with dfu := .dnloadIdle, status := 0 }, outputs := .usb (statusAnswer 0 20 5) :: u.outputs }) ∧
      (∀ g, u.plk.dfu = .dnloadSync → u.plkStaging = some g → g.phase ≠ .receiving → exec (.dfuGetstatus dt) s =
        .next { u with outputs := .usb (statusAnswer 0 u.pollTimeout 4) :: u.outputs }) ∧
      (u.plk.dfu = .manifestSync → u.plkStaging ≠ none → exec (.dfuGetstatus dt) s =
        .next { u with outputs := .usb (statusAnswer 0 u.pollTimeout 7) :: u.outputs }) ∧
      (u.plk.dfu = .manifestSync → u.plkStaging = none → exec (.dfuGetstatus dt) s = .next { u with
        plk := { u.plk with dfu := .idle }, outputs := .usb (statusAnswer u.plk.status 0 2) :: u.outputs }) ∧
      (u.plk.dfu ≠ .dnloadSync → u.plk.dfu ≠ .manifestSync → exec (.dfuGetstatus dt) s =
        .next { u with outputs := .usb (statusAnswer u.plk.status 0 u.plk.dfu.number) :: u.outputs }) ∧
      exec (.dfuGetstate dt) s = .next { u with outputs := .usb (le 1 u.plk.dfu.number) :: u.outputs } ∧
      (u.plk.dfu = .error → exec (.dfuClrstatus dt) s = .next { u with plk := { u.plk with dfu := .idle, status := 0 } }) ∧
      (u.plk.dfu ≠ .error → exec (.dfuClrstatus dt) s =
        .next { u with plk := { u.plk with dfu := .error, status := 15 }, outputs := .usbStall :: u.outputs }) ∧
      (u.plk.dfu = .error → exec (.dfuAbort dt) s = .next { u with outputs := .usbStall :: u.outputs }) ∧
      (u.plk.dfu ≠ .error → ∃ t, exec (.dfuAbort dt) s = .next t ∧ t.plk.dfu = .idle ∧ t.plk.status = 0 ∧ t.plkStaging = none ∧
        (u.plkStaging ≠ none → t.cfg.stageResult = 7)) ∧
      exec (.dfuDetach dt) s = .next { u with outputs := .usbStall :: u.outputs } ∧
      exec (.dfuUpload dt) s = .next { u with outputs := .usbStall :: u.outputs })

/-- Vendor requests of a configured placket (R446, R447, Table 14.8): a wrong SYNC is discarded and counted; status read, black-box
read, echo, dump and unknown operations are answered with their RESULT and data; a restart is accepted with its magic OFFSET and no
staging, refused with RESULT 3 during one, and a bad one with RESULT 2.
Rests on log entries 79, 80, 84, 87 (the model's choices). -/
def Obligations.PlacketAnswersRequests : Prop :=
  ∀ (s u v : State) (dt : Nat) (r : MgmtReq), u = s.elapse dt → u.plkOn = true → u.plk.configured = true →
    v = { u with plk := { u.plk with requests := u.plk.requests + 1 } } →
    (r.sync ≠ plkSync → ∀ c ∈ [Instr.placketStatusRead dt r false, .placketBlackBoxRead dt r, .placketEcho dt r,
      .placketBlackBoxDump dt r, .placketRestart dt r, .placketBadRequest dt r], exec c s =
        .next { u with plk := { u.plk with requestsDiscarded := u.plk.requestsDiscarded + 1 } }) ∧
    (r.sync = plkSync →
      (r.offset % 4 = 0 → r.length % 4 = 0 → r.length ≤ 65536 → r.offset + r.length ≤ statusEnd →
        (∃ t, exec (.placketStatusRead dt r false) s = .next t ∧ t.readFailures = u.readFailures ∧
          t.PlacketAnswers u r 1 0 (v.statusRead .placket r.offset r.length).1) ∧
        ∃ t, exec (.placketStatusRead dt r true) s = .next t ∧ t.PlacketAnswers u r 1 4 [] ∧ t.readFailures = u.readFailures + 1 ∧
          t.latches = u.latches) ∧
      (∀ failed, r.offset % 4 ≠ 0 ∨ r.length % 4 ≠ 0 ∨ 65536 < r.length ∨ statusEnd < r.offset + r.length →
        ∃ t, exec (.placketStatusRead dt r failed) s = .next t ∧ t.PlacketAnswers u r 1 2 [] ∧ t.readFailures = u.readFailures ∧
          t.latches = u.latches) ∧
      (∃ t, exec (.placketBlackBoxRead dt r) s = .next t ∧ t.readFailures = u.readFailures ∧ t.latches = u.latches ∧
        (if r.offset < 8192 ∧ r.length % 64 = 0 ∧ r.length ≤ 65536 then
          t.PlacketAnswers u r 2 0 ((List.range (r.length / 64)).flatMap fun k => u.bbx.recordAt (r.offset + k))
         else t.PlacketAnswers u r 2 2 [])) ∧
      (∃ t, exec (.placketEcho dt r) s = .next t ∧ t.readFailures = u.readFailures ∧ t.latches = u.latches ∧
        (if r.offset = 0 ∧ r.length ≤ 1024 then t.PlacketAnswers u r 3 0 (slice r.data 0 r.length) else t.PlacketAnswers u r 3 2 [])) ∧
      (∃ t, exec (.placketBlackBoxDump dt r) s = .next t ∧ t.readFailures = u.readFailures ∧ t.latches = u.latches ∧
        (if r.offset = 0 ∧ r.length = 0 then
          t.PlacketAnswers u r 4 0 (mirrorHeader u.bbx.slots u.bbx.next u.bbx.boot u.devTime (storeBytes u.bbx.slots u.bbx.next) ++
            storeBytes u.bbx.slots u.bbx.next)
         else t.PlacketAnswers u r 4 2 [])) ∧
      (r.offset ≠ 0x52535452 ∨ r.length ≠ 0 → exec (.placketRestart dt r) s = .next { u with
          plk := { u.plk with requests := u.plk.requests + 1, restarts := u.plk.restarts + 1 }
          outputs := .usb (answerBytes plkSync.toNat 5 2 r [] u.devTime) :: u.outputs }) ∧
      (r.offset = 0x52535452 → r.length = 0 →
        (u.cfg.staging ≠ none → ∃ t, exec (.placketRestart dt r) s = .next t ∧ OnlyReports t { u with
          plk := { u.plk with requests := u.plk.requests + 1, restarts := u.plk.restarts + 1 }
          cfg := { u.cfg with restartRefused := u.cfg.restartRefused + 1 }
          outputs := .usb (answerBytes plkSync.toNat 5 3 r [] u.devTime) :: u.outputs }) ∧
        (u.cfg.staging = none → ∃ t, exec (.placketRestart dt r) s = .next t ∧ OnlyReports t { u with
          plk := { u.plk with requests := u.plk.requests + 1, restarts := u.plk.restarts + 1 }
          power := { u.power with request := (if u.power.request.isSome then u.power.request else some (4, u.now)) }
          outputs := .usb (answerBytes plkSync.toNat 5 0 r [] u.devTime) :: u.outputs })) ∧
      (5 < r.op ∨ r.op = 0 → ∃ t, exec (.placketBadRequest dt r) s = .next t ∧ t.PlacketAnswers u r r.op 1 [] ∧
        t.readFailures = u.readFailures ∧ t.latches = u.latches))

/-! ## The hatband and the black box (chapter 13) -/

/-- Faults are fenced (R406, R408, R412, R413): while a controller acts every domain with a report on the lines is fenced afterwards, a
running one newly, by one notice of the whole fence mask, waiting for its recovery or, at its limit, permanently; after the both-failed
latch a report is only remembered. A notice that reaches the agents closes the fences of the domains it names that the hatband holds
fenced, closing gates and shutters as their boundaries say, and leaves every other domain's fence as it was.
Rests on log entries 88, 90 (the model's choices). -/
def Obligations.FaultsAreFenced : Prop :=
  ∀ (s u : State) (dt : Nat), u = s.elapse dt → u.live = true →
    (∀ extra, u.hatbandActs = true → u.hb.bothFailed = false → ∃ t, exec (.faultReport dt extra) s = .next t ∧ t.hb.reports = [] ∧
      ((∀ f ∈ u.hb.reports ++ extra, (u.dom f.domain).st ≠ .attempt) →
        OnlyReports t { u with hb := { u.hb with doms := t.hb.doms, notice := t.hb.notice } }) ∧
      (∀ f ∈ u.hb.reports ++ extra, (t.dom f.domain).fenced = true) ∧
      (∀ d : Domain, (∀ f ∈ u.hb.reports ++ extra, f.domain ≠ d) → t.dom d = u.dom d) ∧
      (∀ d : Domain, t.isShut d = u.isShut d) ∧
      ((∀ f ∈ u.hb.reports ++ extra, (u.dom f.domain).fenced = true) → t.hb.notice = u.hb.notice) ∧
      ((∃ f ∈ u.hb.reports ++ extra, (u.dom f.domain).fenced = false) → t.hb.notice = some t.hbTells) ∧
      t.permits = u.permits ∧ t.power = u.power ∧ t.mem.cells = u.mem.cells) ∧
    (∀ f : FaultRep, u.hatbandActs = true → u.hb.bothFailed = false → u.hb.reports = [] →
      ∃ t, exec (.faultReport dt [f]) s = .next t ∧
      (t.dom f.domain).faults = (u.dom f.domain).faults + 1 ∧ (t.dom f.domain).lastCode = f.code ∧
      (t.dom f.domain).lastTime = u.devTime ∧
      ((u.dom f.domain).fenced = false →
        (∃ n, t.hb.notice = some n ∧ n.mask.getLsbD f.domain.val = true ∧
          ∀ d : Domain, (u.dom d).fenced = true → n.mask.getLsbD d.val = true) ∧
        (if bitOf u.noRecovery f.domain.val = true ∨ u.recoveryLimit ≤ (u.dom f.domain).attempts then
          (t.dom f.domain).st = .permanent
         else (t.dom f.domain).st = .waiting ∧
          (t.dom f.domain).readyAt = u.now + u.recoveryMs (u.dom f.domain).attempts * msP))) ∧
    (∀ extra, u.hb.bothFailed = true → exec (.faultReport dt extra) s = .next { u with hb := { u.hb with
      reports := [], faultPending := u.hb.faultPending ||| reportMask (u.hb.reports ++ extra) } }) ∧
    (∀ n, u.hb.notice = some n → u.mayInject u.hbSource = true → ∃ t, exec (.fenceCommand dt) s = .next t ∧ t.hb.notice = none ∧
      t.mem.cells = u.mem.cells ∧ t.permits = u.permits ∧ t.power = u.power ∧
      (∀ d : Domain, (t.dom d).st = (u.dom d).st ∧ (t.dom d).attempts = (u.dom d).attempts) ∧
      (∀ d : Domain, t.isShut d = (u.isShut d || (n.mask.getLsbD d.val && (u.dom d).fenced))) ∧
      (∀ p : Port, u.opt.ports[p].shutter = false → t.opt.ports[p].shutter = false) ∧
      (∀ p : Port, u.opt.ports[p].gate = none → t.opt.ports[p].gate = none) ∧
      (∀ p : Port, t.isShut (portDomain p) = true → u.isShut (portDomain p) = false →
        t.opt.ports[p].gate = none ∧ t.opt.ports[p].shutter = false) ∧
      (∀ p : Port, (∃ d : Domain, d.val ∈ [2, 3, 4] ∧ t.isShut d = true ∧ u.isShut d = false) → t.opt.ports[p].gate = none) ∧
      (t.isShut 2 = true → u.isShut 2 = false → t.opt.laser = .fault) ∧
      (t.isShut 13 = true → u.isShut 13 = false → t.mem.st = .fenced ∧ t.mem.host = [] ∧ t.mem.rt = []))

/-- Domains recover (R413, R414, Table 13.5): a waiting domain whose delay has passed and whose clock runs begins an attempt, counted;
a sequence that ends in time and clean unfences its domain, no other one's state changing; an attempt that overruns presents its boundary
again (the laser in FAULT, APD biases off) and waits for the next, with the delay doubled, or is permanent; a domain clean for RECOVERY_CLEAN forgets its attempts.
Rests on log entries 88, 89, 90, 91 (the model's choices). -/
def Obligations.DomainsRecover : Prop :=
  ∀ (s u : State) (dt : Nat) (d : Domain), u = s.elapse dt → u.live = true → u.hatbandActs = true →
    ((u.dom d).st = .waiting → u.isShut d = true → (u.dom d).readyAt ≤ u.now → u.clockRuns d = true →
      ∃ t, exec (.recoveryAttempt dt d) s = .next t ∧
        t.dom d = { u.dom d with st := .attempt, attempts := (u.dom d).attempts + 1, begun := u.now } ∧
        (∀ e, e ≠ d → t.dom e = u.dom e) ∧ (u.bbx.queue.length < 64 → t.Logged 0x0021 (u.dom d).lastCode) ∧
        (d = 2 → t.opt.laser = .warming) ∧ (d = 3 → t.tim.a.st = .acquire) ∧ (d = 13 → t.mem.st = .off) ∧
        (d ∉ ([2, 3, 7, 13] : List Domain) → OnlyReports t { u with hb := { u.hb with doms := t.hb.doms } })) ∧
    (∀ failing, (u.dom d).st = .attempt → u.now ≤ (u.dom d).begun + recoveryMax d * msP → u.recoveryReady d = true →
      (∀ r ∈ u.hb.reports, r.domain ≠ d) → (d ≠ 5 ∧ d ≠ 6) ∨ failing = [] →
      ∃ t, exec (.recoverySequenceEnd dt d failing) s = .next t ∧
        t.dom d = { u.dom d with st := .running, shut := false, cleanSince := u.now } ∧ (∀ e, e ≠ d → t.dom e = u.dom e) ∧
        t.hb.reports = u.hb.reports ∧ t.mem.cells = u.mem.cells ∧ t.flash = u.flash ∧ t.power = u.power ∧ t.permits = u.permits ∧
        (∀ p : Port, t.opt.ports[p].gate = u.opt.ports[p].gate)) ∧
    ((u.dom d).st = .attempt → (u.dom d).begun + recoveryMax d * msP ≤ u.now → ∃ t, exec (.recoveryOverrun dt d) s = .next t ∧
      (∀ e, e ≠ d → t.dom e = u.dom e) ∧ t.permits = u.permits ∧ t.power = u.power ∧ t.mem.cells = u.mem.cells ∧
      (d = 2 → t.opt.laser = .fault) ∧ (d = 7 → ∀ p : Port, t.dts[p].biasOff = true) ∧
      (∀ p : Port, u.opt.ports[p].gate = none → t.opt.ports[p].gate = none) ∧
      (d = 19 → OnlyReports t { u with hb := { u.hb with doms := t.hb.doms } }) ∧
      (if bitOf u.noRecovery d.val = true ∨ u.recoveryLimit ≤ (u.dom d).attempts then t.dom d = { u.dom d with st := .permanent }
       else t.dom d = { u.dom d with
        st := .waiting, readyAt := u.now + min (u.recoveryDelay * 2 ^ (u.dom d).attempts) 3600000 * msP })) ∧
    (u.recoveryClean ≠ 0 → ∃ t, exec (.recoveryCleanTick dt) s = .next t ∧ t = { u with hb := { u.hb with doms := t.hb.doms } } ∧
      ∀ e : Domain, t.dom e = (if (u.dom e).st = .running ∧ (u.dom e).cleanSince + u.recoveryClean * secP ≤ u.now then
        { u.dom e with attempts := 0 } else u.dom e))

/-- The controllers (R409 to R412): four missed strobes or a failed self-check of a working one make the other act, with its warning,
and of the active one a takeover that tells the fence mask again
and begins attempts in progress anew; unequal digests start both self-tests, and their results fail the
controller that failed, or count the event; with neither alive the latch is set, HEALTH_N asserted, the alarm outputs freed of their fence states and
the hardwired record written. Rests on log entry 60 (the model's choices). -/
def Obligations.ControllersFail : Prop :=
  ∀ (s u : State) (dt : Nat), u = s.elapse dt → u.live = true → u.hb.bothFailed = false →
    (∀ (c : Ctl) (i : Instr), i = .hbAliveMissed dt c ∨ i = .hbSelfCheckFail dt c → u.hb.ctlA ≠ .failed → u.hb.ctlB ≠ .failed →
      ∃ t, exec i s = .next t ∧ t.hb.bothFailed = false ∧ t.permits = u.permits ∧ t.power = u.power ∧ t.mem.cells = u.mem.cells ∧
        ((if c = .a then u.hb.ctlA else u.hb.ctlB) ≠ .active ∨ (∀ d : Domain, (u.dom d).st ≠ .attempt) →
          OnlyReports t { u with hb := t.hb }) ∧
        (c = .a → t.hb.ctlA = .failed ∧ t.hb.ctlB = .active) ∧ (c = .b → t.hb.ctlB = .failed ∧ t.hb.ctlA = .active) ∧
        t.warned 0x00020001#32 = true ∧ (∀ d : Domain, (t.dom d).st = (u.dom d).st ∧ t.isShut d = u.isShut d) ∧
        (if (if c = .a then u.hb.ctlA else u.hb.ctlB) = .active then
          (∃ n, t.hb.notice = some n ∧ n.mask = BitVec.ofNat 20 u.fenceMask ∧ n.active = some (if c = .a then Ctl.b else .a)) ∧
            ∀ d : Domain, (u.dom d).st = .attempt → (t.dom d).begun = u.now
         else t.hb.notice = u.hb.notice)) ∧
    (∀ i : Instr, i = .hbAliveMissed dt .a ∨ i = .hbSelfCheckFail dt .a → u.hb.ctlA ≠ .failed → u.hb.ctlB = .failed →
      exec i s = .next { u with hb := { u.hb with ctlA := .failed } }) ∧
    (u.hb.ctlA ≠ .failed → u.hb.ctlB ≠ .failed →
      exec (.hbDigestExchange dt false) s = .next { u with hb := { u.hb with selfTest := true } } ∧
      exec (.hbDigestExchange dt true) s = .next u) ∧
    (u.hb.selfTest = true →
      exec (.hbSelfTestDone dt true true) s =
        .next { u with hb := { u.hb with selfTest := false, digestMismatch := u.hb.digestMismatch + 1 } } ∧
      exec (.hbSelfTestDone dt false false) s =
        .next { u with hb := { u.hb with selfTest := false, ctlA := .failed, ctlB := .failed } } ∧
      (u.hb.ctlA ≠ .failed → u.hb.ctlB ≠ .failed → (∃ t, exec (.hbSelfTestDone dt false true) s = .next t ∧ t.hb.ctlA = .failed ∧
          t.hb.ctlB = .active ∧ t.hb.selfTest = false ∧ t.permits = u.permits ∧ t.power = u.power ∧ t.mem.cells = u.mem.cells) ∧
        ∃ t, exec (.hbSelfTestDone dt true false) s = .next t ∧ t.hb.ctlB = .failed ∧ t.hb.ctlA = .active ∧
          t.hb.selfTest = false ∧ t.permits = u.permits ∧ t.power = u.power ∧ t.mem.cells = u.mem.cells)) ∧
    (u.hb.ctlA = .failed → u.hb.ctlB = .failed → ∃ t, exec (.bothFailedLatch dt) s = .next t ∧
      t = { u with hb := { u.hb with bothFailed := true }, bbx := t.bbx, alarms := t.alarms } ∧ t.healthAsserted = true ∧
      (∀ o : Fin 4, t.alarms[o].fenced = false ∧ (u.alarms[o].fenced = false → t.alarms[o] = u.alarms[o])) ∧
      (∃ r, t.bbx.slots.head? = some (some r) ∧ r.kind = 0x0031 ∧ r.flags = 4) ∧ t.bbx.hardwired = u.bbx.hardwired + 1)

/-- The black box (R418, R420, R422): a waiting record is written whole with the next SEQ, the store keeping the newest 8,192; a mirror
starts once per start by imaging the store and erasing its region of flash, and ends by programming image and header there, or fails
with its warning. No other byte of flash changes. Rests on log entries 92, 93 (the model's choices). -/
def Obligations.BlackBoxKeeps : Prop :=
  ∀ (s u : State) (dt : Nat), u = s.elapse dt → u.live = true → Memory.wf erased u.flash.cells = true →
    (∀ r rest, u.bbx.queue = r :: rest → exec (.bbxRecordWritten dt) s = .next { u with bbx := { u.bbx with
      queue := rest, slots := (some { r with seq := u.bbx.nextSeq } :: u.bbx.slots).take 8192, lastSeq := u.bbx.nextSeq
      next := (u.bbx.next + 1) % 8192 } }) ∧
    (u.cfg.state = 1 → u.mirrorOn = 1 → u.bbx.mirrorBegun = false → ∃ t, exec (.bbxMirrorStart dt) s = .next t ∧
      t = { u with
        flash := { u.flash with cells := t.flash.cells }
        bbx := { u.bbx with mirrorBegun := true, mirrorState := 1, mirror := some (u.bbx.slots, u.bbx.next, u.devTime) } } ∧
      ∀ a, memRead erased t.flash.cells a =
        if 0x400000 ≤ a ∧ a < (if u.flash.erase4k then 0x481000 else 0x490000) then erased else memRead erased u.flash.cells a) ∧
    (∀ slots next time, u.bbx.mirror = some (slots, next, time) →
      (∃ t, exec (.bbxMirrorDone dt true) s = .next t ∧ t = { u with
        flash := { u.flash with cells := t.flash.cells }
        bbx := { u.bbx with mirror := none, mirrorState := 2, mirrorSeq := t.bbx.mirrorSeq } } ∧
        (∀ i b, (mirrorHeader slots next u.bbx.boot time (storeBytes slots next))[i]? = some b →
          memRead erased t.flash.cells (0x400000 + i) = b) ∧
        (∀ i b, (storeBytes slots next)[i]? = some b → memRead erased t.flash.cells (0x401000 + i) = b) ∧
        (∀ a, a < 0x400000 ∨ 0x481000 ≤ a → memRead erased t.flash.cells a = memRead erased u.flash.cells a)) ∧
      ∃ t, exec (.bbxMirrorDone dt false) s = .next t ∧ (u.hatbandActs = true → t.warned 0x00030001#32 = true) ∧
        OnlyReports t { u with free := u.free + 1, bbx := { u.bbx with mirror := none, mirrorState := 3 } })

/-! ## The operator side (chapter 14) -/

/-- The hardwired permits (R427, R428, R431, R435): an input withdrawn for 5 ns or more closes gate and shutter of every port it
governs and holds it, a shorter pulse may or may not; restored after 100 ms without a rise, a held port whose permit is present goes to DISABLED without ALS, SUSPENDED while FD11 or FD17 is
fenced, else to PROBE. Ports the input does not govern stay. Rests on log entries 14, 94, 95 (the model's choices). -/
def Obligations.PermitsGovern : Prop :=
  ∀ (s u v : State) (dt : Nat) (i : PermitInput), u = s.elapse dt →
    v = { u with permits := { u.permits with asserted := u.permits.asserted.set (inputIndex i) true } } →
    (∀ ns, 5 ≤ ns → u.permits.asserted[inputIndex i] = true → ∃ t, exec (.permitWithdrawn dt i ns) s = .next t ∧
      OnlyReports t { u with permits := t.permits, opt := t.opt, als := t.als, sht := t.sht, acq := t.acq, dts := t.dts,
                             fab := t.fab } ∧
      t.permits.asserted = u.permits.asserted.set (inputIndex i) false ∧
      t.permits.risenAt = u.permits.risenAt.set (inputIndex i) u.now ∧
      t.permits.opens[inputIndex i] = (if u.live then u.permits.opens[inputIndex i] + 1 else u.permits.opens[inputIndex i]) ∧
      (∀ p ∈ inputPorts i, t.opt.ports[p].gate = none ∧ t.opt.ports[p].shutter = false ∧
        t.als[p].st = (if u.als[p].st = .idle then .idle else .held)) ∧
      (∀ p : Port, p ∉ inputPorts i → t.opt.ports[p] = u.opt.ports[p] ∧ t.als[p] = u.als[p] ∧ t.sht[p] = u.sht[p])) ∧
    (∀ ns, 5 ≤ ns → u.permits.asserted[inputIndex i] = false → exec (.permitWithdrawn dt i ns) s = .next
      { u with permits := { u.permits with risenAt := u.permits.risenAt.set (inputIndex i) u.now } }) ∧
    (∀ ns, ns < 5 → ∃ t, exec (.permitWithdrawn dt i ns) s = .next t ∧
      (t = u.takeFree ∨ t.permits.asserted[inputIndex i] = false)) ∧
    (u.permits.asserted[inputIndex i] = true ∨ u.now < u.permits.risenAt[inputIndex i] + 100 * msP →
      exec (.permitRestored dt i) s = .next u) ∧
    (u.permits.asserted[inputIndex i] = false → u.permits.risenAt[inputIndex i] + 100 * msP ≤ u.now → ∃ t, exec (.permitRestored dt i) s = .next t ∧
      t = { u with permits := v.permits, opt := t.opt, als := t.als, sht := t.sht } ∧
      (∀ p ∈ inputPorts i, u.als[p].st = .held → v.hardPermit p = true →
        t.als[p].st = (if u.alsDistance p = 0 then .disabled else if u.alsBlind then .suspended else .probe) ∧
        (u.live = true → u.isShut (portDomain p) = false → u.alsDistance p = 0 ∨ u.alsBlind = false →
          t.opt.ports[p].shutter = true)) ∧
      (∀ p : Port, p ∉ inputPorts i ∨ u.als[p].st ≠ .held ∨ v.hardPermit p = false →
        t.opt.ports[p] = u.opt.ports[p] ∧ t.als[p] = u.als[p] ∧ t.sht[p] = u.sht[p]) ∧
      (∀ p : Port, t.opt.ports[p].gate = u.opt.ports[p].gate))

/-- Automatic laser shutdown (R430 to R434): a near end shuts a sensing port down, its gate off and shutter closed; after PROBE_PERIOD
a port in SHUTDOWN probes; a probe's window ends after PROBE_TIME with sixteen groups, and when all its ends are decided it passes
with the last sixteen far, else it fails back to SHUTDOWN, as it does when nothing is launched for PROBE_TIME.
Rests on log entries 48, 95 (the model's choices). -/
def Obligations.AlsProtects : Prop :=
  ∀ (s u : State) (dt : Nat) (p : Port), u = s.elapse dt →
    (∀ point, u.als[p].nearNotice = some point → u.als[p].st = .sensing → ∃ t, exec (.alsShutdown dt p) s = .next t ∧
      OnlyReports t { u with opt := t.opt, als := t.als, sht := t.sht, acq := t.acq, dts := t.dts, fab := t.fab } ∧
      t.als[p] = { u.als[p] with
        st := .shutdown, shutdowns := u.als[p].shutdowns + 1, shutdownTime := u.devTime, shutdownPoint := point
        nearNotice := none, periodFrom := u.now } ∧
      t.opt.ports[p].gate = none ∧ t.opt.ports[p].shutter = false ∧
      (∀ q, q ≠ p → t.als[q] = u.als[q] ∧ t.opt.ports[q] = u.opt.ports[q])) ∧
    (u.live = true → u.als[p].st = .shutdown → u.probePeriod ≠ 0 → u.als[p].periodFrom + u.probePeriod * secP ≤ u.now →
      ∃ t, exec (.alsProbeEntry dt p) s = .next t ∧ t = { u with opt := t.opt, als := t.als, sht := t.sht } ∧ t.als[p].st = .probe ∧
        t.als[p].probes = u.als[p].probes + 1 ∧ t.als[p].periodFrom = u.now ∧ t.als[p].groups = [] ∧ t.sht[p].rebase = true ∧
        (u.hardPermit p = true → u.isShut (portDomain p) = false → t.opt.ports[p].shutter = true) ∧
        (u.hardPermit p = false ∨ u.isShut (portDomain p) = true → t.opt.ports[p] = u.opt.ports[p]) ∧
        (∀ q, q ≠ p → t.als[q] = u.als[q] ∧ t.opt.ports[q] = u.opt.ports[q])) ∧
    (u.als[p].st = .probe →
      (∀ w, u.als[p].windowFrom = some w → w + u.probeTime * msP ≤ u.now → 16 ≤ u.als[p].groups.length →
        exec (.alsProbeWindowEnd dt p) s = .next { u with als := upd u.als p fun a => { a with windowEnded := true } }) ∧
      (u.als[p].windowEnded = true → (∀ g ∈ u.als[p].groups, g.near ≠ none) →
        (u.als[p].passes = true → exec (.alsProbeJudged dt p) s = .next { u with als := upd u.als p fun a => { a with st := .sensing } }) ∧
        (u.als[p].passes = false → ∃ t, exec (.alsProbeJudged dt p) s = .next t ∧ t.als[p].st = .shutdown ∧
          t.als[p].probeFails = u.als[p].probeFails + 1 ∧ t.als[p].shutdowns = u.als[p].shutdowns + 1 ∧
          t.opt.ports[p].gate = none ∧ t.opt.ports[p].shutter = false ∧
          OnlyReports t { u with opt := t.opt, als := t.als, sht := t.sht, acq := t.acq, dts := t.dts, fab := t.fab })) ∧
      (u.als[p].launchedAt + u.probeTime * msP ≤ u.now → ∃ t, exec (.alsProbeNoLaunch dt p) s = .next t ∧ t.als[p].st = .shutdown ∧
        t.als[p].probeFails = u.als[p].probeFails + 1 ∧ t.opt.ports[p].gate = none ∧ t.opt.ports[p].shutter = false ∧
        OnlyReports t { u with opt := t.opt, als := t.als, sht := t.sht, acq := t.acq, dts := t.dts, fab := t.fab }))

/-- Keys and panel (R436 to R442, Table 14.4): a key that has been settled for its debounce time is pressed and counted; an
acknowledgement releases latched outputs no longer demanded, and one without effect is counted; a manual restart, held for
RESTART_HOLD, makes a port in SHUTDOWN probe, and is ignored and counted otherwise; a lamp test ends with its key or
after 10 s, and the measurement it paused goes on; brightness steps through its four scales; a composition every 10 ms and its swap at
the next frame show the pixels; a colour measurement runs through its phases and keeps its trims within 768 to 1,280; an LED
open three times running has failed, and a good one expires after 16 s.
Rests on log entries 96, 97, 98 (the model's choices). -/
def Obligations.PanelServes : Prop :=
  ∀ (s u : State) (dt : Nat), u = s.elapse dt → u.panelOn = true →
    let down (k : Fin 8) : Vector KeySt 8 :=
      upd u.pnl.keys k fun x => { x with pressed := true, acted := true, presses := x.presses + 1, changedAt := u.now }
    let up (k : Fin 8) : Vector KeySt 8 := upd u.pnl.keys k fun x => { x with pressed := false, acted := false, changedAt := u.now }
    (∀ k : Fin 8, u.pnl.keys[k].pressed = false → u.pnl.keys[k].changedAt + u.debounceMs * msP ≤ u.now →
      (u.keyFunc k = 1 → ∃ t, exec (.keyAcknowledge dt k) s = .next t ∧
        t = { u with pnl := { u.pnl with keys := down k, keyIgnored := t.pnl.keyIgnored }, alarms := t.alarms } ∧
        (∀ o : Fin 4, (u.isShut 11 = false → u.keyArg k = 0 ∨ bitOf (u.keyArg k) o.val = true → u.alarms[o].latched = true →
          u.alarms[o].demanded = false → u.demandOf o = false → t.alarms[o].asserted = false ∧ t.alarms[o].latched = false) ∧
          (u.alarms[o].demanded = true ∨ u.alarms[o].latched = false ∨ u.isShut 11 = true ∨
            (u.keyArg k ≠ 0 ∧ bitOf (u.keyArg k) o.val = false) → t.alarms[o] = u.alarms[o])) ∧
        t.pnl.keyIgnored = (if t.alarms = u.alarms then u.pnl.keyIgnored + 1 else u.pnl.keyIgnored)) ∧
      (u.keyFunc k = 3 → exec (.keyLampTest dt k) s =
        .next { u with pnl := { u.pnl with keys := down k, lampTest := some (k, u.now) } }) ∧
      (u.keyFunc k = 4 → exec (.keyBrightness dt k) s =
        .next { u with pnl := { u.pnl with keys := down k, brightness := (u.pnl.brightness + 1) % 4 } })) ∧
    (∀ (k : Fin 8) (p : Port), u.keyFunc k = 2 → u.pnl.keys[k].acted = false → p = (if u.keyArg k = 1 then 1 else 0) →
      u.pnl.keys[k].changedAt + (u.debounceMs + u.restartHold) * msP ≤ u.now →
      (u.inUse p = true → u.als[p].st = .shutdown → ∃ t, exec (.keyManualRestart dt k) s = .next t ∧ t.als[p].st = .probe ∧
        t.als[p].probes = u.als[p].probes + 1 ∧ t = { u with pnl := { u.pnl with keys := down k }, als := t.als, sht := t.sht,
                                                             opt := t.opt }) ∧
      (u.inUse p = false ∨ u.als[p].st ≠ .shutdown → exec (.keyManualRestart dt k) s = .next { u with pnl := { u.pnl with
        keys := down k, keyIgnored := u.pnl.keyIgnored + 1 } })) ∧
    (∀ (k : Fin 8) (t0 : Nat), u.pnl.lampTest = some (k, t0) →
      let resumed := if u.pnl.colourPhase.isSome then u.pnl.colourAt + (u.now - t0) else u.pnl.colourAt
      (t0 + 10 * secP ≤ u.now → exec (.lampTestTimeout dt) s =
        .next { u with pnl := { u.pnl with lampTest := none, colourAt := resumed } }) ∧
      (u.pnl.keys[k].changedAt + u.debounceMs * msP ≤ u.now → exec (.keyRelease dt k) s =
        .next { u with pnl := { u.pnl with keys := up k, lampTest := none, colourAt := resumed } }) ∧
      ∀ j, j ≠ k → u.pnl.keys[j].changedAt + u.debounceMs * msP ≤ u.now → exec (.keyRelease dt j) s =
        .next { u with pnl := { u.pnl with keys := up j } }) ∧
    (u.pnl.composedAt + 10 * msP ≤ u.now → exec (.panelCompose dt) s = .next { u with pnl := { u.pnl with
      back := (List.range 128).flatMap u.pixelValue, composed := true, composedAt := u.now } }) ∧
    (u.pnl.composed = true → u.frameIndex u.pnl.composedAt < u.frameIndex u.now → exec (.panelBufferSwap dt) s =
      .next { u with pnl := { u.pnl with
        front := u.pnl.back, back := u.pnl.front, composed := false, swapped := true, swaps := u.pnl.swaps + 1 } }) ∧
    (u.colourOn = true → u.pnl.colourPhase = none → u.pnl.lampTest = none → u.pnl.colourAt + u.colourPeriod * secP ≤ u.now →
      exec (.colourMeasurement dt) s = .next { u with pnl := { u.pnl with
        colourPhase := some 0, colourCounts := [], colourFault := false, colourAt := u.now } }) ∧
    (∀ ph counts, u.pnl.colourPhase = some ph → u.pnl.lampTest = none → u.pnl.colourAt + (ph + 1) * u.senseTime * msP ≤ u.now →
      ∃ t, exec (.colourPhaseEnd dt counts) s = .next t ∧
        t = { u with pnl := t.pnl, outputs := .sensorRead u.sensorAddr u.sensorDataReg :: u.outputs } ∧
        (ph < 3 → t.pnl = { u.pnl with
          colourPhase := some (ph + 1), colourCounts := t.pnl.colourCounts, colourFault := u.pnl.colourFault || counts.isNone } ∧
          t.pnl.colourCounts.length = u.pnl.colourCounts.length + 1) ∧
        (3 ≤ ph → t.pnl.colourPhase = none ∧ t.pnl.colourTime = u.devTime ∧
          (u.pnl.colourFault = true ∨ counts = none → t.pnl.sensorFault = true ∧ t.pnl.trims = u.pnl.trims) ∧
          (∀ c : Fin 3, t.pnl.trims[c] = u.pnl.trims[c] ∨ (768 ≤ t.pnl.trims[c] ∧ t.pnl.trims[c] ≤ 1280)))) ∧
    (∀ (led : Fin 384) (isOpen : Bool), u.pnl.leds[led].state ≠ 2 → 5 ≤ u.sinkCurrent led →
      16 ≤ u.ledTicks led ∨ (u.diagInterval ≠ 0 ∧ u.pnl.leds[led].diagAt + u.diagInterval * (secP / 4) ≤ u.now) →
      ∃ t, exec (.ledDiagPulse dt led isOpen) s = .next t ∧ t = { u with pnl := { u.pnl with leds := t.pnl.leds } } ∧
        (∀ j, j ≠ led → t.pnl.leds[j] = u.pnl.leds[j]) ∧ t.pnl.leds[led].diagAt = u.now ∧
        (isOpen = false → t.pnl.leds[led].state = 1 ∧ t.pnl.leds[led].opens = 0) ∧
        (isOpen = true → t.pnl.leds[led].opens = u.pnl.leds[led].opens + 1 ∧
          t.pnl.leds[led].state = (if 3 ≤ u.pnl.leds[led].opens + 1 then 2 else u.pnl.leds[led].state))) ∧
    (∀ led : Fin 384, u.pnl.leds[led].state = 1 → u.pnl.leds[led].diagAt + 16 * secP ≤ u.now → exec (.ledDiagExpiry dt led) s =
      .next { u with pnl := { u.pnl with leds := u.pnl.leds.set led { u.pnl.leds[led] with state := 0 } } })
end

