-- ==== Sys2Proof/Laws/State.lean ====
section
/-! SUPPORT. The updates of State, field by field: what each sets, and that every other field stays. All hold by definition, and no later
proof unfolds a record update. -/

namespace Sys2Proof.Machine

variable (s : State)

/-! ## `State.elapse` -/

@[simp] theorem State.elapse_pending (dt : Nat) : (s.elapse dt).pending = s.pending := rfl
@[simp] theorem State.elapse_now (dt : Nat) : (s.elapse dt).now = s.now + dt := rfl
@[simp] theorem State.elapse_free (dt : Nat) : (s.elapse dt).free = s.free := rfl
@[simp] theorem State.elapse_outputs (dt : Nat) : (s.elapse dt).outputs = s.outputs := rfl
@[simp] theorem State.elapse_power (dt : Nat) : (s.elapse dt).power = s.power := rfl
@[simp] theorem State.elapse_hb (dt : Nat) : (s.elapse dt).hb = s.hb := rfl
@[simp] theorem State.elapse_bbx (dt : Nat) : (s.elapse dt).bbx = s.bbx := rfl
@[simp] theorem State.elapse_flash (dt : Nat) : (s.elapse dt).flash = s.flash := rfl
@[simp] theorem State.elapse_cfg (dt : Nat) : (s.elapse dt).cfg = s.cfg := rfl
@[simp] theorem State.elapse_tim (dt : Nat) : (s.elapse dt).tim = s.tim.advance dt := rfl
@[simp] theorem State.elapse_tiu (dt : Nat) : (s.elapse dt).tiu = s.tiu := rfl
@[simp] theorem State.elapse_mem (dt : Nat) : (s.elapse dt).mem = s.mem := rfl
@[simp] theorem State.elapse_fab (dt : Nat) : (s.elapse dt).fab = s.fab := rfl
@[simp] theorem State.elapse_opt (dt : Nat) : (s.elapse dt).opt = s.opt := rfl
@[simp] theorem State.elapse_sht (dt : Nat) : (s.elapse dt).sht = s.sht := rfl
@[simp] theorem State.elapse_trigLevel (dt : Nat) : (s.elapse dt).trigLevel = s.trigLevel := rfl
@[simp] theorem State.elapse_acq (dt : Nat) : (s.elapse dt).acq = s.acq := rfl
@[simp] theorem State.elapse_phs (dt : Nat) : (s.elapse dt).phs = s.phs := rfl
@[simp] theorem State.elapse_evt (dt : Nat) : (s.elapse dt).evt = s.evt := rfl
@[simp] theorem State.elapse_alarms (dt : Nat) : (s.elapse dt).alarms = s.alarms := rfl
@[simp] theorem State.elapse_dts (dt : Nat) : (s.elapse dt).dts = s.dts := rfl
@[simp] theorem State.elapse_battCorrected (dt : Nat) : (s.elapse dt).battCorrected = s.battCorrected := rfl
@[simp] theorem State.elapse_battUncorrected (dt : Nat) : (s.elapse dt).battUncorrected = s.battUncorrected := rfl
@[simp] theorem State.elapse_sup (dt : Nat) : (s.elapse dt).sup = s.sup := rfl
@[simp] theorem State.elapse_permits (dt : Nat) : (s.elapse dt).permits = s.permits := rfl
@[simp] theorem State.elapse_als (dt : Nat) : (s.elapse dt).als = s.als := rfl
@[simp] theorem State.elapse_pnl (dt : Nat) : (s.elapse dt).pnl = s.pnl := rfl
@[simp] theorem State.elapse_plk (dt : Nat) : (s.elapse dt).plk = s.plk := rfl
@[simp] theorem State.elapse_mbx (dt : Nat) : (s.elapse dt).mbx = s.mbx := rfl
@[simp] theorem State.elapse_cmp (dt : Nat) : (s.elapse dt).cmp = s.cmp := rfl
@[simp] theorem State.elapse_ringCoders (dt : Nat) : (s.elapse dt).ringCoders = s.ringCoders := rfl
@[simp] theorem State.elapse_lanes (dt : Nat) : (s.elapse dt).lanes = s.lanes := rfl
@[simp] theorem State.elapse_routes (dt : Nat) : (s.elapse dt).routes = s.routes := rfl
@[simp] theorem State.elapse_mgmt (dt : Nat) : (s.elapse dt).mgmt = s.mgmt := rfl
@[simp] theorem State.elapse_pcie (dt : Nat) : (s.elapse dt).pcie = s.pcie := rfl
@[simp] theorem State.elapse_latches (dt : Nat) : (s.elapse dt).latches = s.latches := rfl
@[simp] theorem State.elapse_readFailures (dt : Nat) : (s.elapse dt).readFailures = s.readFailures := rfl

/-! ## `State.send` -/

@[simp] theorem State.send_pending (o : Output) : (s.send o).pending = s.pending := rfl
@[simp] theorem State.send_now (o : Output) : (s.send o).now = s.now := rfl
@[simp] theorem State.send_free (o : Output) : (s.send o).free = s.free := rfl
@[simp] theorem State.send_outputs (o : Output) : (s.send o).outputs = o :: s.outputs := rfl
@[simp] theorem State.send_power (o : Output) : (s.send o).power = s.power := rfl
@[simp] theorem State.send_hb (o : Output) : (s.send o).hb = s.hb := rfl
@[simp] theorem State.send_bbx (o : Output) : (s.send o).bbx = s.bbx := rfl
@[simp] theorem State.send_flash (o : Output) : (s.send o).flash = s.flash := rfl
@[simp] theorem State.send_cfg (o : Output) : (s.send o).cfg = s.cfg := rfl
@[simp] theorem State.send_tim (o : Output) : (s.send o).tim = s.tim := rfl
@[simp] theorem State.send_tiu (o : Output) : (s.send o).tiu = s.tiu := rfl
@[simp] theorem State.send_mem (o : Output) : (s.send o).mem = s.mem := rfl
@[simp] theorem State.send_fab (o : Output) : (s.send o).fab = s.fab := rfl
@[simp] theorem State.send_opt (o : Output) : (s.send o).opt = s.opt := rfl
@[simp] theorem State.send_darkFrom (o : Output) : (s.send o).darkFrom = s.darkFrom := rfl
@[simp] theorem State.send_sht (o : Output) : (s.send o).sht = s.sht := rfl
@[simp] theorem State.send_trigLevel (o : Output) : (s.send o).trigLevel = s.trigLevel := rfl
@[simp] theorem State.send_acq (o : Output) : (s.send o).acq = s.acq := rfl
@[simp] theorem State.send_phs (o : Output) : (s.send o).phs = s.phs := rfl
@[simp] theorem State.send_evt (o : Output) : (s.send o).evt = s.evt := rfl
@[simp] theorem State.send_alarms (o : Output) : (s.send o).alarms = s.alarms := rfl
@[simp] theorem State.send_dts (o : Output) : (s.send o).dts = s.dts := rfl
@[simp] theorem State.send_battCorrected (o : Output) : (s.send o).battCorrected = s.battCorrected := rfl
@[simp] theorem State.send_battUncorrected (o : Output) : (s.send o).battUncorrected = s.battUncorrected := rfl
@[simp] theorem State.send_sup (o : Output) : (s.send o).sup = s.sup := rfl
@[simp] theorem State.send_permits (o : Output) : (s.send o).permits = s.permits := rfl
@[simp] theorem State.send_als (o : Output) : (s.send o).als = s.als := rfl
@[simp] theorem State.send_pnl (o : Output) : (s.send o).pnl = s.pnl := rfl
@[simp] theorem State.send_plk (o : Output) : (s.send o).plk = s.plk := rfl
@[simp] theorem State.send_mbx (o : Output) : (s.send o).mbx = s.mbx := rfl
@[simp] theorem State.send_cmp (o : Output) : (s.send o).cmp = s.cmp := rfl
@[simp] theorem State.send_ringCoders (o : Output) : (s.send o).ringCoders = s.ringCoders := rfl
@[simp] theorem State.send_lanes (o : Output) : (s.send o).lanes = s.lanes := rfl
@[simp] theorem State.send_routes (o : Output) : (s.send o).routes = s.routes := rfl
@[simp] theorem State.send_mgmt (o : Output) : (s.send o).mgmt = s.mgmt := rfl
@[simp] theorem State.send_pcie (o : Output) : (s.send o).pcie = s.pcie := rfl
@[simp] theorem State.send_latches (o : Output) : (s.send o).latches = s.latches := rfl
@[simp] theorem State.send_readFailures (o : Output) : (s.send o).readFailures = s.readFailures := rfl

/-! ## `State.takeFree` -/

@[simp] theorem State.takeFree_pending : (s.takeFree).pending = s.pending := rfl
@[simp] theorem State.takeFree_now : (s.takeFree).now = s.now := rfl
@[simp] theorem State.takeFree_free : (s.takeFree).free = s.free + 1 := rfl
@[simp] theorem State.takeFree_outputs : (s.takeFree).outputs = s.outputs := rfl
@[simp] theorem State.takeFree_power : (s.takeFree).power = s.power := rfl
@[simp] theorem State.takeFree_hb : (s.takeFree).hb = s.hb := rfl
@[simp] theorem State.takeFree_bbx : (s.takeFree).bbx = s.bbx := rfl
@[simp] theorem State.takeFree_flash : (s.takeFree).flash = s.flash := rfl
@[simp] theorem State.takeFree_cfg : (s.takeFree).cfg = s.cfg := rfl
@[simp] theorem State.takeFree_tim : (s.takeFree).tim = s.tim := rfl
@[simp] theorem State.takeFree_tiu : (s.takeFree).tiu = s.tiu := rfl
@[simp] theorem State.takeFree_mem : (s.takeFree).mem = s.mem := rfl
@[simp] theorem State.takeFree_fab : (s.takeFree).fab = s.fab := rfl
@[simp] theorem State.takeFree_opt : (s.takeFree).opt = s.opt := rfl
@[simp] theorem State.takeFree_darkFrom : (s.takeFree).darkFrom = s.darkFrom := rfl
@[simp] theorem State.takeFree_sht : (s.takeFree).sht = s.sht := rfl
@[simp] theorem State.takeFree_trigLevel : (s.takeFree).trigLevel = s.trigLevel := rfl
@[simp] theorem State.takeFree_acq : (s.takeFree).acq = s.acq := rfl
@[simp] theorem State.takeFree_phs : (s.takeFree).phs = s.phs := rfl
@[simp] theorem State.takeFree_evt : (s.takeFree).evt = s.evt := rfl
@[simp] theorem State.takeFree_alarms : (s.takeFree).alarms = s.alarms := rfl
@[simp] theorem State.takeFree_dts : (s.takeFree).dts = s.dts := rfl
@[simp] theorem State.takeFree_battCorrected : (s.takeFree).battCorrected = s.battCorrected := rfl
@[simp] theorem State.takeFree_battUncorrected : (s.takeFree).battUncorrected = s.battUncorrected := rfl
@[simp] theorem State.takeFree_sup : (s.takeFree).sup = s.sup := rfl
@[simp] theorem State.takeFree_permits : (s.takeFree).permits = s.permits := rfl
@[simp] theorem State.takeFree_als : (s.takeFree).als = s.als := rfl
@[simp] theorem State.takeFree_pnl : (s.takeFree).pnl = s.pnl := rfl
@[simp] theorem State.takeFree_plk : (s.takeFree).plk = s.plk := rfl
@[simp] theorem State.takeFree_mbx : (s.takeFree).mbx = s.mbx := rfl
@[simp] theorem State.takeFree_cmp : (s.takeFree).cmp = s.cmp := rfl
@[simp] theorem State.takeFree_ringCoders : (s.takeFree).ringCoders = s.ringCoders := rfl
@[simp] theorem State.takeFree_lanes : (s.takeFree).lanes = s.lanes := rfl
@[simp] theorem State.takeFree_routes : (s.takeFree).routes = s.routes := rfl
@[simp] theorem State.takeFree_mgmt : (s.takeFree).mgmt = s.mgmt := rfl
@[simp] theorem State.takeFree_pcie : (s.takeFree).pcie = s.pcie := rfl
@[simp] theorem State.takeFree_latches : (s.takeFree).latches = s.latches := rfl
@[simp] theorem State.takeFree_readFailures : (s.takeFree).readFailures = s.readFailures := rfl

/-! ## `State.setDom` -/

@[simp] theorem State.setDom_pending (d : Domain) (f : Dom → Dom) : (s.setDom d f).pending = s.pending := rfl
@[simp] theorem State.setDom_now (d : Domain) (f : Dom → Dom) : (s.setDom d f).now = s.now := rfl
@[simp] theorem State.setDom_free (d : Domain) (f : Dom → Dom) : (s.setDom d f).free = s.free := rfl
@[simp] theorem State.setDom_outputs (d : Domain) (f : Dom → Dom) : (s.setDom d f).outputs = s.outputs := rfl
@[simp] theorem State.setDom_power (d : Domain) (f : Dom → Dom) : (s.setDom d f).power = s.power := rfl
@[simp] theorem State.setDom_hb (d : Domain) (f : Dom → Dom) : (s.setDom d f).hb = { s.hb with doms := upd s.hb.doms d f } := rfl
@[simp] theorem State.setDom_bbx (d : Domain) (f : Dom → Dom) : (s.setDom d f).bbx = s.bbx := rfl
@[simp] theorem State.setDom_flash (d : Domain) (f : Dom → Dom) : (s.setDom d f).flash = s.flash := rfl
@[simp] theorem State.setDom_cfg (d : Domain) (f : Dom → Dom) : (s.setDom d f).cfg = s.cfg := rfl
@[simp] theorem State.setDom_tim (d : Domain) (f : Dom → Dom) : (s.setDom d f).tim = s.tim := rfl
@[simp] theorem State.setDom_tiu (d : Domain) (f : Dom → Dom) : (s.setDom d f).tiu = s.tiu := rfl
@[simp] theorem State.setDom_mem (d : Domain) (f : Dom → Dom) : (s.setDom d f).mem = s.mem := rfl
@[simp] theorem State.setDom_fab (d : Domain) (f : Dom → Dom) : (s.setDom d f).fab = s.fab := rfl
@[simp] theorem State.setDom_opt (d : Domain) (f : Dom → Dom) : (s.setDom d f).opt = s.opt := rfl
@[simp] theorem State.setDom_darkFrom (d : Domain) (f : Dom → Dom) : (s.setDom d f).darkFrom = s.darkFrom := rfl
@[simp] theorem State.setDom_sht (d : Domain) (f : Dom → Dom) : (s.setDom d f).sht = s.sht := rfl
@[simp] theorem State.setDom_trigLevel (d : Domain) (f : Dom → Dom) : (s.setDom d f).trigLevel = s.trigLevel := rfl
@[simp] theorem State.setDom_acq (d : Domain) (f : Dom → Dom) : (s.setDom d f).acq = s.acq := rfl
@[simp] theorem State.setDom_phs (d : Domain) (f : Dom → Dom) : (s.setDom d f).phs = s.phs := rfl
@[simp] theorem State.setDom_evt (d : Domain) (f : Dom → Dom) : (s.setDom d f).evt = s.evt := rfl
@[simp] theorem State.setDom_alarms (d : Domain) (f : Dom → Dom) : (s.setDom d f).alarms = s.alarms := rfl
@[simp] theorem State.setDom_dts (d : Domain) (f : Dom → Dom) : (s.setDom d f).dts = s.dts := rfl
@[simp] theorem State.setDom_battCorrected (d : Domain) (f : Dom → Dom) : (s.setDom d f).battCorrected = s.battCorrected := rfl
@[simp] theorem State.setDom_battUncorrected (d : Domain) (f : Dom → Dom) : (s.setDom d f).battUncorrected = s.battUncorrected := rfl
@[simp] theorem State.setDom_sup (d : Domain) (f : Dom → Dom) : (s.setDom d f).sup = s.sup := rfl
@[simp] theorem State.setDom_permits (d : Domain) (f : Dom → Dom) : (s.setDom d f).permits = s.permits := rfl
@[simp] theorem State.setDom_als (d : Domain) (f : Dom → Dom) : (s.setDom d f).als = s.als := rfl
@[simp] theorem State.setDom_pnl (d : Domain) (f : Dom → Dom) : (s.setDom d f).pnl = s.pnl := rfl
@[simp] theorem State.setDom_plk (d : Domain) (f : Dom → Dom) : (s.setDom d f).plk = s.plk := rfl
@[simp] theorem State.setDom_mbx (d : Domain) (f : Dom → Dom) : (s.setDom d f).mbx = s.mbx := rfl
@[simp] theorem State.setDom_cmp (d : Domain) (f : Dom → Dom) : (s.setDom d f).cmp = s.cmp := rfl
@[simp] theorem State.setDom_ringCoders (d : Domain) (f : Dom → Dom) : (s.setDom d f).ringCoders = s.ringCoders := rfl
@[simp] theorem State.setDom_lanes (d : Domain) (f : Dom → Dom) : (s.setDom d f).lanes = s.lanes := rfl
@[simp] theorem State.setDom_routes (d : Domain) (f : Dom → Dom) : (s.setDom d f).routes = s.routes := rfl
@[simp] theorem State.setDom_mgmt (d : Domain) (f : Dom → Dom) : (s.setDom d f).mgmt = s.mgmt := rfl
@[simp] theorem State.setDom_pcie (d : Domain) (f : Dom → Dom) : (s.setDom d f).pcie = s.pcie := rfl
@[simp] theorem State.setDom_latches (d : Domain) (f : Dom → Dom) : (s.setDom d f).latches = s.latches := rfl
@[simp] theorem State.setDom_readFailures (d : Domain) (f : Dom → Dom) : (s.setDom d f).readFailures = s.readFailures := rfl

/-! ## `State.report` -/

@[simp] theorem State.report_pending (d : Domain) (c v : U32) : (s.report d c v).pending = s.pending := rfl
@[simp] theorem State.report_now (d : Domain) (c v : U32) : (s.report d c v).now = s.now := rfl
@[simp] theorem State.report_free (d : Domain) (c v : U32) : (s.report d c v).free = s.free := rfl
@[simp] theorem State.report_outputs (d : Domain) (c v : U32) : (s.report d c v).outputs = s.outputs := rfl
@[simp] theorem State.report_power (d : Domain) (c v : U32) : (s.report d c v).power = s.power := rfl
@[simp] theorem State.report_hb (d : Domain) (c v : U32) : (s.report d c v).hb = { s.hb with reports := s.hb.reports ++ [⟨d, c, v⟩] } := rfl
@[simp] theorem State.report_bbx (d : Domain) (c v : U32) : (s.report d c v).bbx = s.bbx := rfl
@[simp] theorem State.report_flash (d : Domain) (c v : U32) : (s.report d c v).flash = s.flash := rfl
@[simp] theorem State.report_cfg (d : Domain) (c v : U32) : (s.report d c v).cfg = s.cfg := rfl
@[simp] theorem State.report_tim (d : Domain) (c v : U32) : (s.report d c v).tim = s.tim := rfl
@[simp] theorem State.report_tiu (d : Domain) (c v : U32) : (s.report d c v).tiu = s.tiu := rfl
@[simp] theorem State.report_mem (d : Domain) (c v : U32) : (s.report d c v).mem = s.mem := rfl
@[simp] theorem State.report_fab (d : Domain) (c v : U32) : (s.report d c v).fab = s.fab := rfl
@[simp] theorem State.report_opt (d : Domain) (c v : U32) : (s.report d c v).opt = s.opt := rfl
@[simp] theorem State.report_darkFrom (d : Domain) (c v : U32) : (s.report d c v).darkFrom = s.darkFrom := rfl
@[simp] theorem State.report_sht (d : Domain) (c v : U32) : (s.report d c v).sht = s.sht := rfl
@[simp] theorem State.report_trigLevel (d : Domain) (c v : U32) : (s.report d c v).trigLevel = s.trigLevel := rfl
@[simp] theorem State.report_acq (d : Domain) (c v : U32) : (s.report d c v).acq = s.acq := rfl
@[simp] theorem State.report_phs (d : Domain) (c v : U32) : (s.report d c v).phs = s.phs := rfl
@[simp] theorem State.report_evt (d : Domain) (c v : U32) : (s.report d c v).evt = s.evt := rfl
@[simp] theorem State.report_alarms (d : Domain) (c v : U32) : (s.report d c v).alarms = s.alarms := rfl
@[simp] theorem State.report_dts (d : Domain) (c v : U32) : (s.report d c v).dts = s.dts := rfl
@[simp] theorem State.report_battCorrected (d : Domain) (c v : U32) : (s.report d c v).battCorrected = s.battCorrected := rfl
@[simp] theorem State.report_battUncorrected (d : Domain) (c v : U32) : (s.report d c v).battUncorrected = s.battUncorrected := rfl
@[simp] theorem State.report_sup (d : Domain) (c v : U32) : (s.report d c v).sup = s.sup := rfl
@[simp] theorem State.report_permits (d : Domain) (c v : U32) : (s.report d c v).permits = s.permits := rfl
@[simp] theorem State.report_als (d : Domain) (c v : U32) : (s.report d c v).als = s.als := rfl
@[simp] theorem State.report_pnl (d : Domain) (c v : U32) : (s.report d c v).pnl = s.pnl := rfl
@[simp] theorem State.report_plk (d : Domain) (c v : U32) : (s.report d c v).plk = s.plk := rfl
@[simp] theorem State.report_mbx (d : Domain) (c v : U32) : (s.report d c v).mbx = s.mbx := rfl
@[simp] theorem State.report_cmp (d : Domain) (c v : U32) : (s.report d c v).cmp = s.cmp := rfl
@[simp] theorem State.report_ringCoders (d : Domain) (c v : U32) : (s.report d c v).ringCoders = s.ringCoders := rfl
@[simp] theorem State.report_lanes (d : Domain) (c v : U32) : (s.report d c v).lanes = s.lanes := rfl
@[simp] theorem State.report_routes (d : Domain) (c v : U32) : (s.report d c v).routes = s.routes := rfl
@[simp] theorem State.report_mgmt (d : Domain) (c v : U32) : (s.report d c v).mgmt = s.mgmt := rfl
@[simp] theorem State.report_pcie (d : Domain) (c v : U32) : (s.report d c v).pcie = s.pcie := rfl
@[simp] theorem State.report_latches (d : Domain) (c v : U32) : (s.report d c v).latches = s.latches := rfl
@[simp] theorem State.report_readFailures (d : Domain) (c v : U32) : (s.report d c v).readFailures = s.readFailures := rfl

/-! ## `State.setOpt` -/

@[simp] theorem State.setOpt_pending (f : Opt → Opt) : (s.setOpt f).pending = s.pending := rfl
@[simp] theorem State.setOpt_now (f : Opt → Opt) : (s.setOpt f).now = s.now := rfl
@[simp] theorem State.setOpt_free (f : Opt → Opt) : (s.setOpt f).free = s.free := rfl
@[simp] theorem State.setOpt_outputs (f : Opt → Opt) : (s.setOpt f).outputs = s.outputs := rfl
@[simp] theorem State.setOpt_power (f : Opt → Opt) : (s.setOpt f).power = s.power := rfl
@[simp] theorem State.setOpt_hb (f : Opt → Opt) : (s.setOpt f).hb = s.hb := rfl
@[simp] theorem State.setOpt_bbx (f : Opt → Opt) : (s.setOpt f).bbx = s.bbx := rfl
@[simp] theorem State.setOpt_flash (f : Opt → Opt) : (s.setOpt f).flash = s.flash := rfl
@[simp] theorem State.setOpt_cfg (f : Opt → Opt) : (s.setOpt f).cfg = s.cfg := rfl
@[simp] theorem State.setOpt_tim (f : Opt → Opt) : (s.setOpt f).tim = s.tim := rfl
@[simp] theorem State.setOpt_tiu (f : Opt → Opt) : (s.setOpt f).tiu = s.tiu := rfl
@[simp] theorem State.setOpt_mem (f : Opt → Opt) : (s.setOpt f).mem = s.mem := rfl
@[simp] theorem State.setOpt_fab (f : Opt → Opt) : (s.setOpt f).fab = s.fab := rfl
@[simp] theorem State.setOpt_opt (f : Opt → Opt) : (s.setOpt f).opt = f s.opt := rfl
@[simp] theorem State.setOpt_darkFrom (f : Opt → Opt) : (s.setOpt f).darkFrom = s.darkFrom := rfl
@[simp] theorem State.setOpt_sht (f : Opt → Opt) : (s.setOpt f).sht = s.sht := rfl
@[simp] theorem State.setOpt_trigLevel (f : Opt → Opt) : (s.setOpt f).trigLevel = s.trigLevel := rfl
@[simp] theorem State.setOpt_acq (f : Opt → Opt) : (s.setOpt f).acq = s.acq := rfl
@[simp] theorem State.setOpt_phs (f : Opt → Opt) : (s.setOpt f).phs = s.phs := rfl
@[simp] theorem State.setOpt_evt (f : Opt → Opt) : (s.setOpt f).evt = s.evt := rfl
@[simp] theorem State.setOpt_alarms (f : Opt → Opt) : (s.setOpt f).alarms = s.alarms := rfl
@[simp] theorem State.setOpt_dts (f : Opt → Opt) : (s.setOpt f).dts = s.dts := rfl
@[simp] theorem State.setOpt_battCorrected (f : Opt → Opt) : (s.setOpt f).battCorrected = s.battCorrected := rfl
@[simp] theorem State.setOpt_battUncorrected (f : Opt → Opt) : (s.setOpt f).battUncorrected = s.battUncorrected := rfl
@[simp] theorem State.setOpt_sup (f : Opt → Opt) : (s.setOpt f).sup = s.sup := rfl
@[simp] theorem State.setOpt_permits (f : Opt → Opt) : (s.setOpt f).permits = s.permits := rfl
@[simp] theorem State.setOpt_als (f : Opt → Opt) : (s.setOpt f).als = s.als := rfl
@[simp] theorem State.setOpt_pnl (f : Opt → Opt) : (s.setOpt f).pnl = s.pnl := rfl
@[simp] theorem State.setOpt_plk (f : Opt → Opt) : (s.setOpt f).plk = s.plk := rfl
@[simp] theorem State.setOpt_mbx (f : Opt → Opt) : (s.setOpt f).mbx = s.mbx := rfl
@[simp] theorem State.setOpt_cmp (f : Opt → Opt) : (s.setOpt f).cmp = s.cmp := rfl
@[simp] theorem State.setOpt_ringCoders (f : Opt → Opt) : (s.setOpt f).ringCoders = s.ringCoders := rfl
@[simp] theorem State.setOpt_lanes (f : Opt → Opt) : (s.setOpt f).lanes = s.lanes := rfl
@[simp] theorem State.setOpt_routes (f : Opt → Opt) : (s.setOpt f).routes = s.routes := rfl
@[simp] theorem State.setOpt_mgmt (f : Opt → Opt) : (s.setOpt f).mgmt = s.mgmt := rfl
@[simp] theorem State.setOpt_pcie (f : Opt → Opt) : (s.setOpt f).pcie = s.pcie := rfl
@[simp] theorem State.setOpt_latches (f : Opt → Opt) : (s.setOpt f).latches = s.latches := rfl
@[simp] theorem State.setOpt_readFailures (f : Opt → Opt) : (s.setOpt f).readFailures = s.readFailures := rfl

/-! ## `State.countRow` -/

@[simp] theorem State.countRow_pending (k : Fin 12) : (s.countRow k).pending = s.pending := rfl
@[simp] theorem State.countRow_now (k : Fin 12) : (s.countRow k).now = s.now := rfl
@[simp] theorem State.countRow_free (k : Fin 12) : (s.countRow k).free = s.free := rfl
@[simp] theorem State.countRow_outputs (k : Fin 12) : (s.countRow k).outputs = s.outputs := rfl
@[simp] theorem State.countRow_power (k : Fin 12) : (s.countRow k).power = s.power := rfl
@[simp] theorem State.countRow_hb (k : Fin 12) : (s.countRow k).hb = s.hb := rfl
@[simp] theorem State.countRow_bbx (k : Fin 12) : (s.countRow k).bbx = s.bbx := rfl
@[simp] theorem State.countRow_flash (k : Fin 12) : (s.countRow k).flash = s.flash := rfl
@[simp] theorem State.countRow_cfg (k : Fin 12) : (s.countRow k).cfg = s.cfg := rfl
@[simp] theorem State.countRow_tim (k : Fin 12) : (s.countRow k).tim = s.tim := rfl
@[simp] theorem State.countRow_tiu (k : Fin 12) : (s.countRow k).tiu = s.tiu := rfl
@[simp] theorem State.countRow_mem (k : Fin 12) : (s.countRow k).mem = s.mem := rfl
@[simp] theorem State.countRow_fab (k : Fin 12) : (s.countRow k).fab = s.fab := rfl
@[simp] theorem State.countRow_opt (k : Fin 12) : (s.countRow k).opt = { s.opt with rows := upd s.opt.rows k (· + 1) } := rfl
@[simp] theorem State.countRow_darkFrom (k : Fin 12) : (s.countRow k).darkFrom = s.darkFrom := rfl
@[simp] theorem State.countRow_sht (k : Fin 12) : (s.countRow k).sht = s.sht := rfl
@[simp] theorem State.countRow_trigLevel (k : Fin 12) : (s.countRow k).trigLevel = s.trigLevel := rfl
@[simp] theorem State.countRow_acq (k : Fin 12) : (s.countRow k).acq = s.acq := rfl
@[simp] theorem State.countRow_phs (k : Fin 12) : (s.countRow k).phs = s.phs := rfl
@[simp] theorem State.countRow_evt (k : Fin 12) : (s.countRow k).evt = s.evt := rfl
@[simp] theorem State.countRow_alarms (k : Fin 12) : (s.countRow k).alarms = s.alarms := rfl
@[simp] theorem State.countRow_dts (k : Fin 12) : (s.countRow k).dts = s.dts := rfl
@[simp] theorem State.countRow_battCorrected (k : Fin 12) : (s.countRow k).battCorrected = s.battCorrected := rfl
@[simp] theorem State.countRow_battUncorrected (k : Fin 12) : (s.countRow k).battUncorrected = s.battUncorrected := rfl
@[simp] theorem State.countRow_sup (k : Fin 12) : (s.countRow k).sup = s.sup := rfl
@[simp] theorem State.countRow_permits (k : Fin 12) : (s.countRow k).permits = s.permits := rfl
@[simp] theorem State.countRow_als (k : Fin 12) : (s.countRow k).als = s.als := rfl
@[simp] theorem State.countRow_pnl (k : Fin 12) : (s.countRow k).pnl = s.pnl := rfl
@[simp] theorem State.countRow_plk (k : Fin 12) : (s.countRow k).plk = s.plk := rfl
@[simp] theorem State.countRow_mbx (k : Fin 12) : (s.countRow k).mbx = s.mbx := rfl
@[simp] theorem State.countRow_cmp (k : Fin 12) : (s.countRow k).cmp = s.cmp := rfl
@[simp] theorem State.countRow_ringCoders (k : Fin 12) : (s.countRow k).ringCoders = s.ringCoders := rfl
@[simp] theorem State.countRow_lanes (k : Fin 12) : (s.countRow k).lanes = s.lanes := rfl
@[simp] theorem State.countRow_routes (k : Fin 12) : (s.countRow k).routes = s.routes := rfl
@[simp] theorem State.countRow_mgmt (k : Fin 12) : (s.countRow k).mgmt = s.mgmt := rfl
@[simp] theorem State.countRow_pcie (k : Fin 12) : (s.countRow k).pcie = s.pcie := rfl
@[simp] theorem State.countRow_latches (k : Fin 12) : (s.countRow k).latches = s.latches := rfl
@[simp] theorem State.countRow_readFailures (k : Fin 12) : (s.countRow k).readFailures = s.readFailures := rfl

/-! ## `State.setOptPort` -/

@[simp] theorem State.setOptPort_pending (p : Port) (f : OptPort → OptPort) : (s.setOptPort p f).pending = s.pending := rfl
@[simp] theorem State.setOptPort_now (p : Port) (f : OptPort → OptPort) : (s.setOptPort p f).now = s.now := rfl
@[simp] theorem State.setOptPort_free (p : Port) (f : OptPort → OptPort) : (s.setOptPort p f).free = s.free := rfl
@[simp] theorem State.setOptPort_outputs (p : Port) (f : OptPort → OptPort) : (s.setOptPort p f).outputs = s.outputs := rfl
@[simp] theorem State.setOptPort_power (p : Port) (f : OptPort → OptPort) : (s.setOptPort p f).power = s.power := rfl
@[simp] theorem State.setOptPort_hb (p : Port) (f : OptPort → OptPort) : (s.setOptPort p f).hb = s.hb := rfl
@[simp] theorem State.setOptPort_bbx (p : Port) (f : OptPort → OptPort) : (s.setOptPort p f).bbx = s.bbx := rfl
@[simp] theorem State.setOptPort_flash (p : Port) (f : OptPort → OptPort) : (s.setOptPort p f).flash = s.flash := rfl
@[simp] theorem State.setOptPort_cfg (p : Port) (f : OptPort → OptPort) : (s.setOptPort p f).cfg = s.cfg := rfl
@[simp] theorem State.setOptPort_tim (p : Port) (f : OptPort → OptPort) : (s.setOptPort p f).tim = s.tim := rfl
@[simp] theorem State.setOptPort_tiu (p : Port) (f : OptPort → OptPort) : (s.setOptPort p f).tiu = s.tiu := rfl
@[simp] theorem State.setOptPort_mem (p : Port) (f : OptPort → OptPort) : (s.setOptPort p f).mem = s.mem := rfl
@[simp] theorem State.setOptPort_fab (p : Port) (f : OptPort → OptPort) : (s.setOptPort p f).fab = s.fab := rfl
@[simp] theorem State.setOptPort_opt (p : Port) (f : OptPort → OptPort) : (s.setOptPort p f).opt = { s.opt with ports := upd s.opt.ports p f } := rfl
@[simp] theorem State.setOptPort_darkFrom (p : Port) (f : OptPort → OptPort) : (s.setOptPort p f).darkFrom = s.darkFrom := rfl
@[simp] theorem State.setOptPort_sht (p : Port) (f : OptPort → OptPort) : (s.setOptPort p f).sht = s.sht := rfl
@[simp] theorem State.setOptPort_trigLevel (p : Port) (f : OptPort → OptPort) : (s.setOptPort p f).trigLevel = s.trigLevel := rfl
@[simp] theorem State.setOptPort_acq (p : Port) (f : OptPort → OptPort) : (s.setOptPort p f).acq = s.acq := rfl
@[simp] theorem State.setOptPort_phs (p : Port) (f : OptPort → OptPort) : (s.setOptPort p f).phs = s.phs := rfl
@[simp] theorem State.setOptPort_evt (p : Port) (f : OptPort → OptPort) : (s.setOptPort p f).evt = s.evt := rfl
@[simp] theorem State.setOptPort_alarms (p : Port) (f : OptPort → OptPort) : (s.setOptPort p f).alarms = s.alarms := rfl
@[simp] theorem State.setOptPort_dts (p : Port) (f : OptPort → OptPort) : (s.setOptPort p f).dts = s.dts := rfl
@[simp] theorem State.setOptPort_battCorrected (p : Port) (f : OptPort → OptPort) : (s.setOptPort p f).battCorrected = s.battCorrected := rfl
@[simp] theorem State.setOptPort_battUncorrected (p : Port) (f : OptPort → OptPort) : (s.setOptPort p f).battUncorrected = s.battUncorrected := rfl
@[simp] theorem State.setOptPort_sup (p : Port) (f : OptPort → OptPort) : (s.setOptPort p f).sup = s.sup := rfl
@[simp] theorem State.setOptPort_permits (p : Port) (f : OptPort → OptPort) : (s.setOptPort p f).permits = s.permits := rfl
@[simp] theorem State.setOptPort_als (p : Port) (f : OptPort → OptPort) : (s.setOptPort p f).als = s.als := rfl
@[simp] theorem State.setOptPort_pnl (p : Port) (f : OptPort → OptPort) : (s.setOptPort p f).pnl = s.pnl := rfl
@[simp] theorem State.setOptPort_plk (p : Port) (f : OptPort → OptPort) : (s.setOptPort p f).plk = s.plk := rfl
@[simp] theorem State.setOptPort_mbx (p : Port) (f : OptPort → OptPort) : (s.setOptPort p f).mbx = s.mbx := rfl
@[simp] theorem State.setOptPort_cmp (p : Port) (f : OptPort → OptPort) : (s.setOptPort p f).cmp = s.cmp := rfl
@[simp] theorem State.setOptPort_ringCoders (p : Port) (f : OptPort → OptPort) : (s.setOptPort p f).ringCoders = s.ringCoders := rfl
@[simp] theorem State.setOptPort_lanes (p : Port) (f : OptPort → OptPort) : (s.setOptPort p f).lanes = s.lanes := rfl
@[simp] theorem State.setOptPort_routes (p : Port) (f : OptPort → OptPort) : (s.setOptPort p f).routes = s.routes := rfl
@[simp] theorem State.setOptPort_mgmt (p : Port) (f : OptPort → OptPort) : (s.setOptPort p f).mgmt = s.mgmt := rfl
@[simp] theorem State.setOptPort_pcie (p : Port) (f : OptPort → OptPort) : (s.setOptPort p f).pcie = s.pcie := rfl
@[simp] theorem State.setOptPort_latches (p : Port) (f : OptPort → OptPort) : (s.setOptPort p f).latches = s.latches := rfl
@[simp] theorem State.setOptPort_readFailures (p : Port) (f : OptPort → OptPort) : (s.setOptPort p f).readFailures = s.readFailures := rfl

/-! ## `State.setSht` -/

@[simp] theorem State.setSht_pending (p : Port) (f : Sht → Sht) : (s.setSht p f).pending = s.pending := rfl
@[simp] theorem State.setSht_now (p : Port) (f : Sht → Sht) : (s.setSht p f).now = s.now := rfl
@[simp] theorem State.setSht_free (p : Port) (f : Sht → Sht) : (s.setSht p f).free = s.free := rfl
@[simp] theorem State.setSht_outputs (p : Port) (f : Sht → Sht) : (s.setSht p f).outputs = s.outputs := rfl
@[simp] theorem State.setSht_power (p : Port) (f : Sht → Sht) : (s.setSht p f).power = s.power := rfl
@[simp] theorem State.setSht_hb (p : Port) (f : Sht → Sht) : (s.setSht p f).hb = s.hb := rfl
@[simp] theorem State.setSht_bbx (p : Port) (f : Sht → Sht) : (s.setSht p f).bbx = s.bbx := rfl
@[simp] theorem State.setSht_flash (p : Port) (f : Sht → Sht) : (s.setSht p f).flash = s.flash := rfl
@[simp] theorem State.setSht_cfg (p : Port) (f : Sht → Sht) : (s.setSht p f).cfg = s.cfg := rfl
@[simp] theorem State.setSht_tim (p : Port) (f : Sht → Sht) : (s.setSht p f).tim = s.tim := rfl
@[simp] theorem State.setSht_tiu (p : Port) (f : Sht → Sht) : (s.setSht p f).tiu = s.tiu := rfl
@[simp] theorem State.setSht_mem (p : Port) (f : Sht → Sht) : (s.setSht p f).mem = s.mem := rfl
@[simp] theorem State.setSht_fab (p : Port) (f : Sht → Sht) : (s.setSht p f).fab = s.fab := rfl
@[simp] theorem State.setSht_opt (p : Port) (f : Sht → Sht) : (s.setSht p f).opt = s.opt := rfl
@[simp] theorem State.setSht_darkFrom (p : Port) (f : Sht → Sht) : (s.setSht p f).darkFrom = s.darkFrom := rfl
@[simp] theorem State.setSht_sht (p : Port) (f : Sht → Sht) : (s.setSht p f).sht = upd s.sht p f := rfl
@[simp] theorem State.setSht_trigLevel (p : Port) (f : Sht → Sht) : (s.setSht p f).trigLevel = s.trigLevel := rfl
@[simp] theorem State.setSht_acq (p : Port) (f : Sht → Sht) : (s.setSht p f).acq = s.acq := rfl
@[simp] theorem State.setSht_phs (p : Port) (f : Sht → Sht) : (s.setSht p f).phs = s.phs := rfl
@[simp] theorem State.setSht_evt (p : Port) (f : Sht → Sht) : (s.setSht p f).evt = s.evt := rfl
@[simp] theorem State.setSht_alarms (p : Port) (f : Sht → Sht) : (s.setSht p f).alarms = s.alarms := rfl
@[simp] theorem State.setSht_dts (p : Port) (f : Sht → Sht) : (s.setSht p f).dts = s.dts := rfl
@[simp] theorem State.setSht_battCorrected (p : Port) (f : Sht → Sht) : (s.setSht p f).battCorrected = s.battCorrected := rfl
@[simp] theorem State.setSht_battUncorrected (p : Port) (f : Sht → Sht) : (s.setSht p f).battUncorrected = s.battUncorrected := rfl
@[simp] theorem State.setSht_sup (p : Port) (f : Sht → Sht) : (s.setSht p f).sup = s.sup := rfl
@[simp] theorem State.setSht_permits (p : Port) (f : Sht → Sht) : (s.setSht p f).permits = s.permits := rfl
@[simp] theorem State.setSht_als (p : Port) (f : Sht → Sht) : (s.setSht p f).als = s.als := rfl
@[simp] theorem State.setSht_pnl (p : Port) (f : Sht → Sht) : (s.setSht p f).pnl = s.pnl := rfl
@[simp] theorem State.setSht_plk (p : Port) (f : Sht → Sht) : (s.setSht p f).plk = s.plk := rfl
@[simp] theorem State.setSht_mbx (p : Port) (f : Sht → Sht) : (s.setSht p f).mbx = s.mbx := rfl
@[simp] theorem State.setSht_cmp (p : Port) (f : Sht → Sht) : (s.setSht p f).cmp = s.cmp := rfl
@[simp] theorem State.setSht_ringCoders (p : Port) (f : Sht → Sht) : (s.setSht p f).ringCoders = s.ringCoders := rfl
@[simp] theorem State.setSht_lanes (p : Port) (f : Sht → Sht) : (s.setSht p f).lanes = s.lanes := rfl
@[simp] theorem State.setSht_routes (p : Port) (f : Sht → Sht) : (s.setSht p f).routes = s.routes := rfl
@[simp] theorem State.setSht_mgmt (p : Port) (f : Sht → Sht) : (s.setSht p f).mgmt = s.mgmt := rfl
@[simp] theorem State.setSht_pcie (p : Port) (f : Sht → Sht) : (s.setSht p f).pcie = s.pcie := rfl
@[simp] theorem State.setSht_latches (p : Port) (f : Sht → Sht) : (s.setSht p f).latches = s.latches := rfl
@[simp] theorem State.setSht_readFailures (p : Port) (f : Sht → Sht) : (s.setSht p f).readFailures = s.readFailures := rfl

/-! ## `State.requestRebase` -/

@[simp] theorem State.requestRebase_pending (p : Port) : (s.requestRebase p).pending = s.pending := rfl
@[simp] theorem State.requestRebase_now (p : Port) : (s.requestRebase p).now = s.now := rfl
@[simp] theorem State.requestRebase_free (p : Port) : (s.requestRebase p).free = s.free := rfl
@[simp] theorem State.requestRebase_outputs (p : Port) : (s.requestRebase p).outputs = s.outputs := rfl
@[simp] theorem State.requestRebase_power (p : Port) : (s.requestRebase p).power = s.power := rfl
@[simp] theorem State.requestRebase_hb (p : Port) : (s.requestRebase p).hb = s.hb := rfl
@[simp] theorem State.requestRebase_bbx (p : Port) : (s.requestRebase p).bbx = s.bbx := rfl
@[simp] theorem State.requestRebase_flash (p : Port) : (s.requestRebase p).flash = s.flash := rfl
@[simp] theorem State.requestRebase_cfg (p : Port) : (s.requestRebase p).cfg = s.cfg := rfl
@[simp] theorem State.requestRebase_tim (p : Port) : (s.requestRebase p).tim = s.tim := rfl
@[simp] theorem State.requestRebase_tiu (p : Port) : (s.requestRebase p).tiu = s.tiu := rfl
@[simp] theorem State.requestRebase_mem (p : Port) : (s.requestRebase p).mem = s.mem := rfl
@[simp] theorem State.requestRebase_fab (p : Port) : (s.requestRebase p).fab = s.fab := rfl
@[simp] theorem State.requestRebase_opt (p : Port) : (s.requestRebase p).opt = s.opt := rfl
@[simp] theorem State.requestRebase_darkFrom (p : Port) : (s.requestRebase p).darkFrom = s.darkFrom := rfl
@[simp] theorem State.requestRebase_sht (p : Port) : (s.requestRebase p).sht = upd s.sht p fun x => { x with rebase := true } := rfl
@[simp] theorem State.requestRebase_trigLevel (p : Port) : (s.requestRebase p).trigLevel = s.trigLevel := rfl
@[simp] theorem State.requestRebase_acq (p : Port) : (s.requestRebase p).acq = s.acq := rfl
@[simp] theorem State.requestRebase_phs (p : Port) : (s.requestRebase p).phs = s.phs := rfl
@[simp] theorem State.requestRebase_evt (p : Port) : (s.requestRebase p).evt = s.evt := rfl
@[simp] theorem State.requestRebase_alarms (p : Port) : (s.requestRebase p).alarms = s.alarms := rfl
@[simp] theorem State.requestRebase_dts (p : Port) : (s.requestRebase p).dts = s.dts := rfl
@[simp] theorem State.requestRebase_battCorrected (p : Port) : (s.requestRebase p).battCorrected = s.battCorrected := rfl
@[simp] theorem State.requestRebase_battUncorrected (p : Port) : (s.requestRebase p).battUncorrected = s.battUncorrected := rfl
@[simp] theorem State.requestRebase_sup (p : Port) : (s.requestRebase p).sup = s.sup := rfl
@[simp] theorem State.requestRebase_permits (p : Port) : (s.requestRebase p).permits = s.permits := rfl
@[simp] theorem State.requestRebase_als (p : Port) : (s.requestRebase p).als = s.als := rfl
@[simp] theorem State.requestRebase_pnl (p : Port) : (s.requestRebase p).pnl = s.pnl := rfl
@[simp] theorem State.requestRebase_plk (p : Port) : (s.requestRebase p).plk = s.plk := rfl
@[simp] theorem State.requestRebase_mbx (p : Port) : (s.requestRebase p).mbx = s.mbx := rfl
@[simp] theorem State.requestRebase_cmp (p : Port) : (s.requestRebase p).cmp = s.cmp := rfl
@[simp] theorem State.requestRebase_ringCoders (p : Port) : (s.requestRebase p).ringCoders = s.ringCoders := rfl
@[simp] theorem State.requestRebase_lanes (p : Port) : (s.requestRebase p).lanes = s.lanes := rfl
@[simp] theorem State.requestRebase_routes (p : Port) : (s.requestRebase p).routes = s.routes := rfl
@[simp] theorem State.requestRebase_mgmt (p : Port) : (s.requestRebase p).mgmt = s.mgmt := rfl
@[simp] theorem State.requestRebase_pcie (p : Port) : (s.requestRebase p).pcie = s.pcie := rfl
@[simp] theorem State.requestRebase_latches (p : Port) : (s.requestRebase p).latches = s.latches := rfl
@[simp] theorem State.requestRebase_readFailures (p : Port) : (s.requestRebase p).readFailures = s.readFailures := rfl

/-! ## `State.setAcq` -/

@[simp] theorem State.setAcq_pending (p : Port) (f : Acq → Acq) : (s.setAcq p f).pending = s.pending := rfl
@[simp] theorem State.setAcq_now (p : Port) (f : Acq → Acq) : (s.setAcq p f).now = s.now := rfl
@[simp] theorem State.setAcq_free (p : Port) (f : Acq → Acq) : (s.setAcq p f).free = s.free := rfl
@[simp] theorem State.setAcq_outputs (p : Port) (f : Acq → Acq) : (s.setAcq p f).outputs = s.outputs := rfl
@[simp] theorem State.setAcq_power (p : Port) (f : Acq → Acq) : (s.setAcq p f).power = s.power := rfl
@[simp] theorem State.setAcq_hb (p : Port) (f : Acq → Acq) : (s.setAcq p f).hb = s.hb := rfl
@[simp] theorem State.setAcq_bbx (p : Port) (f : Acq → Acq) : (s.setAcq p f).bbx = s.bbx := rfl
@[simp] theorem State.setAcq_flash (p : Port) (f : Acq → Acq) : (s.setAcq p f).flash = s.flash := rfl
@[simp] theorem State.setAcq_cfg (p : Port) (f : Acq → Acq) : (s.setAcq p f).cfg = s.cfg := rfl
@[simp] theorem State.setAcq_tim (p : Port) (f : Acq → Acq) : (s.setAcq p f).tim = s.tim := rfl
@[simp] theorem State.setAcq_tiu (p : Port) (f : Acq → Acq) : (s.setAcq p f).tiu = s.tiu := rfl
@[simp] theorem State.setAcq_mem (p : Port) (f : Acq → Acq) : (s.setAcq p f).mem = s.mem := rfl
@[simp] theorem State.setAcq_fab (p : Port) (f : Acq → Acq) : (s.setAcq p f).fab = s.fab := rfl
@[simp] theorem State.setAcq_opt (p : Port) (f : Acq → Acq) : (s.setAcq p f).opt = s.opt := rfl
@[simp] theorem State.setAcq_darkFrom (p : Port) (f : Acq → Acq) : (s.setAcq p f).darkFrom = s.darkFrom := rfl
@[simp] theorem State.setAcq_sht (p : Port) (f : Acq → Acq) : (s.setAcq p f).sht = s.sht := rfl
@[simp] theorem State.setAcq_trigLevel (p : Port) (f : Acq → Acq) : (s.setAcq p f).trigLevel = s.trigLevel := rfl
@[simp] theorem State.setAcq_acq (p : Port) (f : Acq → Acq) : (s.setAcq p f).acq = upd s.acq p f := rfl
@[simp] theorem State.setAcq_phs (p : Port) (f : Acq → Acq) : (s.setAcq p f).phs = s.phs := rfl
@[simp] theorem State.setAcq_evt (p : Port) (f : Acq → Acq) : (s.setAcq p f).evt = s.evt := rfl
@[simp] theorem State.setAcq_alarms (p : Port) (f : Acq → Acq) : (s.setAcq p f).alarms = s.alarms := rfl
@[simp] theorem State.setAcq_dts (p : Port) (f : Acq → Acq) : (s.setAcq p f).dts = s.dts := rfl
@[simp] theorem State.setAcq_battCorrected (p : Port) (f : Acq → Acq) : (s.setAcq p f).battCorrected = s.battCorrected := rfl
@[simp] theorem State.setAcq_battUncorrected (p : Port) (f : Acq → Acq) : (s.setAcq p f).battUncorrected = s.battUncorrected := rfl
@[simp] theorem State.setAcq_sup (p : Port) (f : Acq → Acq) : (s.setAcq p f).sup = s.sup := rfl
@[simp] theorem State.setAcq_permits (p : Port) (f : Acq → Acq) : (s.setAcq p f).permits = s.permits := rfl
@[simp] theorem State.setAcq_als (p : Port) (f : Acq → Acq) : (s.setAcq p f).als = s.als := rfl
@[simp] theorem State.setAcq_pnl (p : Port) (f : Acq → Acq) : (s.setAcq p f).pnl = s.pnl := rfl
@[simp] theorem State.setAcq_plk (p : Port) (f : Acq → Acq) : (s.setAcq p f).plk = s.plk := rfl
@[simp] theorem State.setAcq_mbx (p : Port) (f : Acq → Acq) : (s.setAcq p f).mbx = s.mbx := rfl
@[simp] theorem State.setAcq_cmp (p : Port) (f : Acq → Acq) : (s.setAcq p f).cmp = s.cmp := rfl
@[simp] theorem State.setAcq_ringCoders (p : Port) (f : Acq → Acq) : (s.setAcq p f).ringCoders = s.ringCoders := rfl
@[simp] theorem State.setAcq_lanes (p : Port) (f : Acq → Acq) : (s.setAcq p f).lanes = s.lanes := rfl
@[simp] theorem State.setAcq_routes (p : Port) (f : Acq → Acq) : (s.setAcq p f).routes = s.routes := rfl
@[simp] theorem State.setAcq_mgmt (p : Port) (f : Acq → Acq) : (s.setAcq p f).mgmt = s.mgmt := rfl
@[simp] theorem State.setAcq_pcie (p : Port) (f : Acq → Acq) : (s.setAcq p f).pcie = s.pcie := rfl
@[simp] theorem State.setAcq_latches (p : Port) (f : Acq → Acq) : (s.setAcq p f).latches = s.latches := rfl
@[simp] theorem State.setAcq_readFailures (p : Port) (f : Acq → Acq) : (s.setAcq p f).readFailures = s.readFailures := rfl

/-! ## `State.setCal` -/

@[simp] theorem State.setCal_pending (p : Port) (f : Cal → Cal) : (s.setCal p f).pending = s.pending := rfl
@[simp] theorem State.setCal_now (p : Port) (f : Cal → Cal) : (s.setCal p f).now = s.now := rfl
@[simp] theorem State.setCal_free (p : Port) (f : Cal → Cal) : (s.setCal p f).free = s.free := rfl
@[simp] theorem State.setCal_outputs (p : Port) (f : Cal → Cal) : (s.setCal p f).outputs = s.outputs := rfl
@[simp] theorem State.setCal_power (p : Port) (f : Cal → Cal) : (s.setCal p f).power = s.power := rfl
@[simp] theorem State.setCal_hb (p : Port) (f : Cal → Cal) : (s.setCal p f).hb = s.hb := rfl
@[simp] theorem State.setCal_bbx (p : Port) (f : Cal → Cal) : (s.setCal p f).bbx = s.bbx := rfl
@[simp] theorem State.setCal_flash (p : Port) (f : Cal → Cal) : (s.setCal p f).flash = s.flash := rfl
@[simp] theorem State.setCal_cfg (p : Port) (f : Cal → Cal) : (s.setCal p f).cfg = s.cfg := rfl
@[simp] theorem State.setCal_tim (p : Port) (f : Cal → Cal) : (s.setCal p f).tim = s.tim := rfl
@[simp] theorem State.setCal_tiu (p : Port) (f : Cal → Cal) : (s.setCal p f).tiu = s.tiu := rfl
@[simp] theorem State.setCal_mem (p : Port) (f : Cal → Cal) : (s.setCal p f).mem = s.mem := rfl
@[simp] theorem State.setCal_fab (p : Port) (f : Cal → Cal) : (s.setCal p f).fab = s.fab := rfl
@[simp] theorem State.setCal_opt (p : Port) (f : Cal → Cal) : (s.setCal p f).opt = s.opt := rfl
@[simp] theorem State.setCal_darkFrom (p : Port) (f : Cal → Cal) : (s.setCal p f).darkFrom = s.darkFrom := rfl
@[simp] theorem State.setCal_sht (p : Port) (f : Cal → Cal) : (s.setCal p f).sht = s.sht := rfl
@[simp] theorem State.setCal_trigLevel (p : Port) (f : Cal → Cal) : (s.setCal p f).trigLevel = s.trigLevel := rfl
@[simp] theorem State.setCal_acq (p : Port) (f : Cal → Cal) : (s.setCal p f).acq = upd s.acq p fun x => { x with cal := f x.cal } := rfl
@[simp] theorem State.setCal_phs (p : Port) (f : Cal → Cal) : (s.setCal p f).phs = s.phs := rfl
@[simp] theorem State.setCal_evt (p : Port) (f : Cal → Cal) : (s.setCal p f).evt = s.evt := rfl
@[simp] theorem State.setCal_alarms (p : Port) (f : Cal → Cal) : (s.setCal p f).alarms = s.alarms := rfl
@[simp] theorem State.setCal_dts (p : Port) (f : Cal → Cal) : (s.setCal p f).dts = s.dts := rfl
@[simp] theorem State.setCal_battCorrected (p : Port) (f : Cal → Cal) : (s.setCal p f).battCorrected = s.battCorrected := rfl
@[simp] theorem State.setCal_battUncorrected (p : Port) (f : Cal → Cal) : (s.setCal p f).battUncorrected = s.battUncorrected := rfl
@[simp] theorem State.setCal_sup (p : Port) (f : Cal → Cal) : (s.setCal p f).sup = s.sup := rfl
@[simp] theorem State.setCal_permits (p : Port) (f : Cal → Cal) : (s.setCal p f).permits = s.permits := rfl
@[simp] theorem State.setCal_als (p : Port) (f : Cal → Cal) : (s.setCal p f).als = s.als := rfl
@[simp] theorem State.setCal_pnl (p : Port) (f : Cal → Cal) : (s.setCal p f).pnl = s.pnl := rfl
@[simp] theorem State.setCal_plk (p : Port) (f : Cal → Cal) : (s.setCal p f).plk = s.plk := rfl
@[simp] theorem State.setCal_mbx (p : Port) (f : Cal → Cal) : (s.setCal p f).mbx = s.mbx := rfl
@[simp] theorem State.setCal_cmp (p : Port) (f : Cal → Cal) : (s.setCal p f).cmp = s.cmp := rfl
@[simp] theorem State.setCal_ringCoders (p : Port) (f : Cal → Cal) : (s.setCal p f).ringCoders = s.ringCoders := rfl
@[simp] theorem State.setCal_lanes (p : Port) (f : Cal → Cal) : (s.setCal p f).lanes = s.lanes := rfl
@[simp] theorem State.setCal_routes (p : Port) (f : Cal → Cal) : (s.setCal p f).routes = s.routes := rfl
@[simp] theorem State.setCal_mgmt (p : Port) (f : Cal → Cal) : (s.setCal p f).mgmt = s.mgmt := rfl
@[simp] theorem State.setCal_pcie (p : Port) (f : Cal → Cal) : (s.setCal p f).pcie = s.pcie := rfl
@[simp] theorem State.setCal_latches (p : Port) (f : Cal → Cal) : (s.setCal p f).latches = s.latches := rfl
@[simp] theorem State.setCal_readFailures (p : Port) (f : Cal → Cal) : (s.setCal p f).readFailures = s.readFailures := rfl

/-! ## `State.setDts` -/

@[simp] theorem State.setDts_pending (p : Port) (f : Dts → Dts) : (s.setDts p f).pending = s.pending := rfl
@[simp] theorem State.setDts_now (p : Port) (f : Dts → Dts) : (s.setDts p f).now = s.now := rfl
@[simp] theorem State.setDts_free (p : Port) (f : Dts → Dts) : (s.setDts p f).free = s.free := rfl
@[simp] theorem State.setDts_outputs (p : Port) (f : Dts → Dts) : (s.setDts p f).outputs = s.outputs := rfl
@[simp] theorem State.setDts_power (p : Port) (f : Dts → Dts) : (s.setDts p f).power = s.power := rfl
@[simp] theorem State.setDts_hb (p : Port) (f : Dts → Dts) : (s.setDts p f).hb = s.hb := rfl
@[simp] theorem State.setDts_bbx (p : Port) (f : Dts → Dts) : (s.setDts p f).bbx = s.bbx := rfl
@[simp] theorem State.setDts_flash (p : Port) (f : Dts → Dts) : (s.setDts p f).flash = s.flash := rfl
@[simp] theorem State.setDts_cfg (p : Port) (f : Dts → Dts) : (s.setDts p f).cfg = s.cfg := rfl
@[simp] theorem State.setDts_tim (p : Port) (f : Dts → Dts) : (s.setDts p f).tim = s.tim := rfl
@[simp] theorem State.setDts_tiu (p : Port) (f : Dts → Dts) : (s.setDts p f).tiu = s.tiu := rfl
@[simp] theorem State.setDts_mem (p : Port) (f : Dts → Dts) : (s.setDts p f).mem = s.mem := rfl
@[simp] theorem State.setDts_fab (p : Port) (f : Dts → Dts) : (s.setDts p f).fab = s.fab := rfl
@[simp] theorem State.setDts_opt (p : Port) (f : Dts → Dts) : (s.setDts p f).opt = s.opt := rfl
@[simp] theorem State.setDts_darkFrom (p : Port) (f : Dts → Dts) : (s.setDts p f).darkFrom = s.darkFrom := rfl
@[simp] theorem State.setDts_sht (p : Port) (f : Dts → Dts) : (s.setDts p f).sht = s.sht := rfl
@[simp] theorem State.setDts_trigLevel (p : Port) (f : Dts → Dts) : (s.setDts p f).trigLevel = s.trigLevel := rfl
@[simp] theorem State.setDts_acq (p : Port) (f : Dts → Dts) : (s.setDts p f).acq = s.acq := rfl
@[simp] theorem State.setDts_phs (p : Port) (f : Dts → Dts) : (s.setDts p f).phs = s.phs := rfl
@[simp] theorem State.setDts_evt (p : Port) (f : Dts → Dts) : (s.setDts p f).evt = s.evt := rfl
@[simp] theorem State.setDts_alarms (p : Port) (f : Dts → Dts) : (s.setDts p f).alarms = s.alarms := rfl
@[simp] theorem State.setDts_dts (p : Port) (f : Dts → Dts) : (s.setDts p f).dts = upd s.dts p f := rfl
@[simp] theorem State.setDts_battCorrected (p : Port) (f : Dts → Dts) : (s.setDts p f).battCorrected = s.battCorrected := rfl
@[simp] theorem State.setDts_battUncorrected (p : Port) (f : Dts → Dts) : (s.setDts p f).battUncorrected = s.battUncorrected := rfl
@[simp] theorem State.setDts_sup (p : Port) (f : Dts → Dts) : (s.setDts p f).sup = s.sup := rfl
@[simp] theorem State.setDts_permits (p : Port) (f : Dts → Dts) : (s.setDts p f).permits = s.permits := rfl
@[simp] theorem State.setDts_als (p : Port) (f : Dts → Dts) : (s.setDts p f).als = s.als := rfl
@[simp] theorem State.setDts_pnl (p : Port) (f : Dts → Dts) : (s.setDts p f).pnl = s.pnl := rfl
@[simp] theorem State.setDts_plk (p : Port) (f : Dts → Dts) : (s.setDts p f).plk = s.plk := rfl
@[simp] theorem State.setDts_mbx (p : Port) (f : Dts → Dts) : (s.setDts p f).mbx = s.mbx := rfl
@[simp] theorem State.setDts_cmp (p : Port) (f : Dts → Dts) : (s.setDts p f).cmp = s.cmp := rfl
@[simp] theorem State.setDts_ringCoders (p : Port) (f : Dts → Dts) : (s.setDts p f).ringCoders = s.ringCoders := rfl
@[simp] theorem State.setDts_lanes (p : Port) (f : Dts → Dts) : (s.setDts p f).lanes = s.lanes := rfl
@[simp] theorem State.setDts_routes (p : Port) (f : Dts → Dts) : (s.setDts p f).routes = s.routes := rfl
@[simp] theorem State.setDts_mgmt (p : Port) (f : Dts → Dts) : (s.setDts p f).mgmt = s.mgmt := rfl
@[simp] theorem State.setDts_pcie (p : Port) (f : Dts → Dts) : (s.setDts p f).pcie = s.pcie := rfl
@[simp] theorem State.setDts_latches (p : Port) (f : Dts → Dts) : (s.setDts p f).latches = s.latches := rfl
@[simp] theorem State.setDts_readFailures (p : Port) (f : Dts → Dts) : (s.setDts p f).readFailures = s.readFailures := rfl

/-! ## `State.biasOff` -/

@[simp] theorem State.biasOff_pending (p : Port) : (s.biasOff p).pending = s.pending := rfl
@[simp] theorem State.biasOff_now (p : Port) : (s.biasOff p).now = s.now := rfl
@[simp] theorem State.biasOff_free (p : Port) : (s.biasOff p).free = s.free := rfl
@[simp] theorem State.biasOff_outputs (p : Port) : (s.biasOff p).outputs = s.outputs := rfl
@[simp] theorem State.biasOff_power (p : Port) : (s.biasOff p).power = s.power := rfl
@[simp] theorem State.biasOff_hb (p : Port) : (s.biasOff p).hb = s.hb := rfl
@[simp] theorem State.biasOff_bbx (p : Port) : (s.biasOff p).bbx = s.bbx := rfl
@[simp] theorem State.biasOff_flash (p : Port) : (s.biasOff p).flash = s.flash := rfl
@[simp] theorem State.biasOff_cfg (p : Port) : (s.biasOff p).cfg = s.cfg := rfl
@[simp] theorem State.biasOff_tim (p : Port) : (s.biasOff p).tim = s.tim := rfl
@[simp] theorem State.biasOff_tiu (p : Port) : (s.biasOff p).tiu = s.tiu := rfl
@[simp] theorem State.biasOff_mem (p : Port) : (s.biasOff p).mem = s.mem := rfl
@[simp] theorem State.biasOff_fab (p : Port) : (s.biasOff p).fab = s.fab := rfl
@[simp] theorem State.biasOff_opt (p : Port) : (s.biasOff p).opt = s.opt := rfl
@[simp] theorem State.biasOff_darkFrom (p : Port) : (s.biasOff p).darkFrom = s.darkFrom := rfl
@[simp] theorem State.biasOff_sht (p : Port) : (s.biasOff p).sht = s.sht := rfl
@[simp] theorem State.biasOff_trigLevel (p : Port) : (s.biasOff p).trigLevel = s.trigLevel := rfl
@[simp] theorem State.biasOff_acq (p : Port) : (s.biasOff p).acq = s.acq := rfl
@[simp] theorem State.biasOff_phs (p : Port) : (s.biasOff p).phs = s.phs := rfl
@[simp] theorem State.biasOff_evt (p : Port) : (s.biasOff p).evt = s.evt := rfl
@[simp] theorem State.biasOff_alarms (p : Port) : (s.biasOff p).alarms = s.alarms := rfl
@[simp] theorem State.biasOff_dts (p : Port) : (s.biasOff p).dts = upd s.dts p fun d => { d with biasOff := true } := rfl
@[simp] theorem State.biasOff_battCorrected (p : Port) : (s.biasOff p).battCorrected = s.battCorrected := rfl
@[simp] theorem State.biasOff_battUncorrected (p : Port) : (s.biasOff p).battUncorrected = s.battUncorrected := rfl
@[simp] theorem State.biasOff_sup (p : Port) : (s.biasOff p).sup = s.sup := rfl
@[simp] theorem State.biasOff_permits (p : Port) : (s.biasOff p).permits = s.permits := rfl
@[simp] theorem State.biasOff_als (p : Port) : (s.biasOff p).als = s.als := rfl
@[simp] theorem State.biasOff_pnl (p : Port) : (s.biasOff p).pnl = s.pnl := rfl
@[simp] theorem State.biasOff_plk (p : Port) : (s.biasOff p).plk = s.plk := rfl
@[simp] theorem State.biasOff_mbx (p : Port) : (s.biasOff p).mbx = s.mbx := rfl
@[simp] theorem State.biasOff_cmp (p : Port) : (s.biasOff p).cmp = s.cmp := rfl
@[simp] theorem State.biasOff_ringCoders (p : Port) : (s.biasOff p).ringCoders = s.ringCoders := rfl
@[simp] theorem State.biasOff_lanes (p : Port) : (s.biasOff p).lanes = s.lanes := rfl
@[simp] theorem State.biasOff_routes (p : Port) : (s.biasOff p).routes = s.routes := rfl
@[simp] theorem State.biasOff_mgmt (p : Port) : (s.biasOff p).mgmt = s.mgmt := rfl
@[simp] theorem State.biasOff_pcie (p : Port) : (s.biasOff p).pcie = s.pcie := rfl
@[simp] theorem State.biasOff_latches (p : Port) : (s.biasOff p).latches = s.latches := rfl
@[simp] theorem State.biasOff_readFailures (p : Port) : (s.biasOff p).readFailures = s.readFailures := rfl

/-! ## `State.setDrop` -/

@[simp] theorem State.setDrop_pending (p : Port) (f : DropPort → DropPort) : (s.setDrop p f).pending = s.pending := rfl
@[simp] theorem State.setDrop_now (p : Port) (f : DropPort → DropPort) : (s.setDrop p f).now = s.now := rfl
@[simp] theorem State.setDrop_free (p : Port) (f : DropPort → DropPort) : (s.setDrop p f).free = s.free := rfl
@[simp] theorem State.setDrop_outputs (p : Port) (f : DropPort → DropPort) : (s.setDrop p f).outputs = s.outputs := rfl
@[simp] theorem State.setDrop_power (p : Port) (f : DropPort → DropPort) : (s.setDrop p f).power = s.power := rfl
@[simp] theorem State.setDrop_hb (p : Port) (f : DropPort → DropPort) : (s.setDrop p f).hb = s.hb := rfl
@[simp] theorem State.setDrop_bbx (p : Port) (f : DropPort → DropPort) : (s.setDrop p f).bbx = s.bbx := rfl
@[simp] theorem State.setDrop_flash (p : Port) (f : DropPort → DropPort) : (s.setDrop p f).flash = s.flash := rfl
@[simp] theorem State.setDrop_cfg (p : Port) (f : DropPort → DropPort) : (s.setDrop p f).cfg = s.cfg := rfl
@[simp] theorem State.setDrop_tim (p : Port) (f : DropPort → DropPort) : (s.setDrop p f).tim = s.tim := rfl
@[simp] theorem State.setDrop_tiu (p : Port) (f : DropPort → DropPort) : (s.setDrop p f).tiu = s.tiu := rfl
@[simp] theorem State.setDrop_mem (p : Port) (f : DropPort → DropPort) : (s.setDrop p f).mem = s.mem := rfl
@[simp] theorem State.setDrop_fab (p : Port) (f : DropPort → DropPort) : (s.setDrop p f).fab = { s.fab with ports := upd s.fab.ports p f } := rfl
@[simp] theorem State.setDrop_opt (p : Port) (f : DropPort → DropPort) : (s.setDrop p f).opt = s.opt := rfl
@[simp] theorem State.setDrop_darkFrom (p : Port) (f : DropPort → DropPort) : (s.setDrop p f).darkFrom = s.darkFrom := rfl
@[simp] theorem State.setDrop_sht (p : Port) (f : DropPort → DropPort) : (s.setDrop p f).sht = s.sht := rfl
@[simp] theorem State.setDrop_trigLevel (p : Port) (f : DropPort → DropPort) : (s.setDrop p f).trigLevel = s.trigLevel := rfl
@[simp] theorem State.setDrop_acq (p : Port) (f : DropPort → DropPort) : (s.setDrop p f).acq = s.acq := rfl
@[simp] theorem State.setDrop_phs (p : Port) (f : DropPort → DropPort) : (s.setDrop p f).phs = s.phs := rfl
@[simp] theorem State.setDrop_evt (p : Port) (f : DropPort → DropPort) : (s.setDrop p f).evt = s.evt := rfl
@[simp] theorem State.setDrop_alarms (p : Port) (f : DropPort → DropPort) : (s.setDrop p f).alarms = s.alarms := rfl
@[simp] theorem State.setDrop_dts (p : Port) (f : DropPort → DropPort) : (s.setDrop p f).dts = s.dts := rfl
@[simp] theorem State.setDrop_battCorrected (p : Port) (f : DropPort → DropPort) : (s.setDrop p f).battCorrected = s.battCorrected := rfl
@[simp] theorem State.setDrop_battUncorrected (p : Port) (f : DropPort → DropPort) : (s.setDrop p f).battUncorrected = s.battUncorrected := rfl
@[simp] theorem State.setDrop_sup (p : Port) (f : DropPort → DropPort) : (s.setDrop p f).sup = s.sup := rfl
@[simp] theorem State.setDrop_permits (p : Port) (f : DropPort → DropPort) : (s.setDrop p f).permits = s.permits := rfl
@[simp] theorem State.setDrop_als (p : Port) (f : DropPort → DropPort) : (s.setDrop p f).als = s.als := rfl
@[simp] theorem State.setDrop_pnl (p : Port) (f : DropPort → DropPort) : (s.setDrop p f).pnl = s.pnl := rfl
@[simp] theorem State.setDrop_plk (p : Port) (f : DropPort → DropPort) : (s.setDrop p f).plk = s.plk := rfl
@[simp] theorem State.setDrop_mbx (p : Port) (f : DropPort → DropPort) : (s.setDrop p f).mbx = s.mbx := rfl
@[simp] theorem State.setDrop_cmp (p : Port) (f : DropPort → DropPort) : (s.setDrop p f).cmp = s.cmp := rfl
@[simp] theorem State.setDrop_ringCoders (p : Port) (f : DropPort → DropPort) : (s.setDrop p f).ringCoders = s.ringCoders := rfl
@[simp] theorem State.setDrop_lanes (p : Port) (f : DropPort → DropPort) : (s.setDrop p f).lanes = s.lanes := rfl
@[simp] theorem State.setDrop_routes (p : Port) (f : DropPort → DropPort) : (s.setDrop p f).routes = s.routes := rfl
@[simp] theorem State.setDrop_mgmt (p : Port) (f : DropPort → DropPort) : (s.setDrop p f).mgmt = s.mgmt := rfl
@[simp] theorem State.setDrop_pcie (p : Port) (f : DropPort → DropPort) : (s.setDrop p f).pcie = s.pcie := rfl
@[simp] theorem State.setDrop_latches (p : Port) (f : DropPort → DropPort) : (s.setDrop p f).latches = s.latches := rfl
@[simp] theorem State.setDrop_readFailures (p : Port) (f : DropPort → DropPort) : (s.setDrop p f).readFailures = s.readFailures := rfl

/-! ## `State.setAls` -/

@[simp] theorem State.setAls_pending (p : Port) (f : Als → Als) : (s.setAls p f).pending = s.pending := rfl
@[simp] theorem State.setAls_now (p : Port) (f : Als → Als) : (s.setAls p f).now = s.now := rfl
@[simp] theorem State.setAls_free (p : Port) (f : Als → Als) : (s.setAls p f).free = s.free := rfl
@[simp] theorem State.setAls_outputs (p : Port) (f : Als → Als) : (s.setAls p f).outputs = s.outputs := rfl
@[simp] theorem State.setAls_power (p : Port) (f : Als → Als) : (s.setAls p f).power = s.power := rfl
@[simp] theorem State.setAls_hb (p : Port) (f : Als → Als) : (s.setAls p f).hb = s.hb := rfl
@[simp] theorem State.setAls_bbx (p : Port) (f : Als → Als) : (s.setAls p f).bbx = s.bbx := rfl
@[simp] theorem State.setAls_flash (p : Port) (f : Als → Als) : (s.setAls p f).flash = s.flash := rfl
@[simp] theorem State.setAls_cfg (p : Port) (f : Als → Als) : (s.setAls p f).cfg = s.cfg := rfl
@[simp] theorem State.setAls_tim (p : Port) (f : Als → Als) : (s.setAls p f).tim = s.tim := rfl
@[simp] theorem State.setAls_tiu (p : Port) (f : Als → Als) : (s.setAls p f).tiu = s.tiu := rfl
@[simp] theorem State.setAls_mem (p : Port) (f : Als → Als) : (s.setAls p f).mem = s.mem := rfl
@[simp] theorem State.setAls_fab (p : Port) (f : Als → Als) : (s.setAls p f).fab = s.fab := rfl
@[simp] theorem State.setAls_opt (p : Port) (f : Als → Als) : (s.setAls p f).opt = s.opt := rfl
@[simp] theorem State.setAls_darkFrom (p : Port) (f : Als → Als) : (s.setAls p f).darkFrom = s.darkFrom := rfl
@[simp] theorem State.setAls_sht (p : Port) (f : Als → Als) : (s.setAls p f).sht = s.sht := rfl
@[simp] theorem State.setAls_trigLevel (p : Port) (f : Als → Als) : (s.setAls p f).trigLevel = s.trigLevel := rfl
@[simp] theorem State.setAls_acq (p : Port) (f : Als → Als) : (s.setAls p f).acq = s.acq := rfl
@[simp] theorem State.setAls_phs (p : Port) (f : Als → Als) : (s.setAls p f).phs = s.phs := rfl
@[simp] theorem State.setAls_evt (p : Port) (f : Als → Als) : (s.setAls p f).evt = s.evt := rfl
@[simp] theorem State.setAls_alarms (p : Port) (f : Als → Als) : (s.setAls p f).alarms = s.alarms := rfl
@[simp] theorem State.setAls_dts (p : Port) (f : Als → Als) : (s.setAls p f).dts = s.dts := rfl
@[simp] theorem State.setAls_battCorrected (p : Port) (f : Als → Als) : (s.setAls p f).battCorrected = s.battCorrected := rfl
@[simp] theorem State.setAls_battUncorrected (p : Port) (f : Als → Als) : (s.setAls p f).battUncorrected = s.battUncorrected := rfl
@[simp] theorem State.setAls_sup (p : Port) (f : Als → Als) : (s.setAls p f).sup = s.sup := rfl
@[simp] theorem State.setAls_permits (p : Port) (f : Als → Als) : (s.setAls p f).permits = s.permits := rfl
@[simp] theorem State.setAls_als (p : Port) (f : Als → Als) : (s.setAls p f).als = upd s.als p f := rfl
@[simp] theorem State.setAls_pnl (p : Port) (f : Als → Als) : (s.setAls p f).pnl = s.pnl := rfl
@[simp] theorem State.setAls_plk (p : Port) (f : Als → Als) : (s.setAls p f).plk = s.plk := rfl
@[simp] theorem State.setAls_mbx (p : Port) (f : Als → Als) : (s.setAls p f).mbx = s.mbx := rfl
@[simp] theorem State.setAls_cmp (p : Port) (f : Als → Als) : (s.setAls p f).cmp = s.cmp := rfl
@[simp] theorem State.setAls_ringCoders (p : Port) (f : Als → Als) : (s.setAls p f).ringCoders = s.ringCoders := rfl
@[simp] theorem State.setAls_lanes (p : Port) (f : Als → Als) : (s.setAls p f).lanes = s.lanes := rfl
@[simp] theorem State.setAls_routes (p : Port) (f : Als → Als) : (s.setAls p f).routes = s.routes := rfl
@[simp] theorem State.setAls_mgmt (p : Port) (f : Als → Als) : (s.setAls p f).mgmt = s.mgmt := rfl
@[simp] theorem State.setAls_pcie (p : Port) (f : Als → Als) : (s.setAls p f).pcie = s.pcie := rfl
@[simp] theorem State.setAls_latches (p : Port) (f : Als → Als) : (s.setAls p f).latches = s.latches := rfl
@[simp] theorem State.setAls_readFailures (p : Port) (f : Als → Als) : (s.setAls p f).readFailures = s.readFailures := rfl

/-! ## `State.setMem` -/

@[simp] theorem State.setMem_pending (f : Mem → Mem) : (s.setMem f).pending = s.pending := rfl
@[simp] theorem State.setMem_now (f : Mem → Mem) : (s.setMem f).now = s.now := rfl
@[simp] theorem State.setMem_free (f : Mem → Mem) : (s.setMem f).free = s.free := rfl
@[simp] theorem State.setMem_outputs (f : Mem → Mem) : (s.setMem f).outputs = s.outputs := rfl
@[simp] theorem State.setMem_power (f : Mem → Mem) : (s.setMem f).power = s.power := rfl
@[simp] theorem State.setMem_hb (f : Mem → Mem) : (s.setMem f).hb = s.hb := rfl
@[simp] theorem State.setMem_bbx (f : Mem → Mem) : (s.setMem f).bbx = s.bbx := rfl
@[simp] theorem State.setMem_flash (f : Mem → Mem) : (s.setMem f).flash = s.flash := rfl
@[simp] theorem State.setMem_cfg (f : Mem → Mem) : (s.setMem f).cfg = s.cfg := rfl
@[simp] theorem State.setMem_tim (f : Mem → Mem) : (s.setMem f).tim = s.tim := rfl
@[simp] theorem State.setMem_tiu (f : Mem → Mem) : (s.setMem f).tiu = s.tiu := rfl
@[simp] theorem State.setMem_mem (f : Mem → Mem) : (s.setMem f).mem = f s.mem := rfl
@[simp] theorem State.setMem_fab (f : Mem → Mem) : (s.setMem f).fab = s.fab := rfl
@[simp] theorem State.setMem_opt (f : Mem → Mem) : (s.setMem f).opt = s.opt := rfl
@[simp] theorem State.setMem_darkFrom (f : Mem → Mem) : (s.setMem f).darkFrom = s.darkFrom := rfl
@[simp] theorem State.setMem_sht (f : Mem → Mem) : (s.setMem f).sht = s.sht := rfl
@[simp] theorem State.setMem_trigLevel (f : Mem → Mem) : (s.setMem f).trigLevel = s.trigLevel := rfl
@[simp] theorem State.setMem_acq (f : Mem → Mem) : (s.setMem f).acq = s.acq := rfl
@[simp] theorem State.setMem_phs (f : Mem → Mem) : (s.setMem f).phs = s.phs := rfl
@[simp] theorem State.setMem_evt (f : Mem → Mem) : (s.setMem f).evt = s.evt := rfl
@[simp] theorem State.setMem_alarms (f : Mem → Mem) : (s.setMem f).alarms = s.alarms := rfl
@[simp] theorem State.setMem_dts (f : Mem → Mem) : (s.setMem f).dts = s.dts := rfl
@[simp] theorem State.setMem_battCorrected (f : Mem → Mem) : (s.setMem f).battCorrected = s.battCorrected := rfl
@[simp] theorem State.setMem_battUncorrected (f : Mem → Mem) : (s.setMem f).battUncorrected = s.battUncorrected := rfl
@[simp] theorem State.setMem_sup (f : Mem → Mem) : (s.setMem f).sup = s.sup := rfl
@[simp] theorem State.setMem_permits (f : Mem → Mem) : (s.setMem f).permits = s.permits := rfl
@[simp] theorem State.setMem_als (f : Mem → Mem) : (s.setMem f).als = s.als := rfl
@[simp] theorem State.setMem_pnl (f : Mem → Mem) : (s.setMem f).pnl = s.pnl := rfl
@[simp] theorem State.setMem_plk (f : Mem → Mem) : (s.setMem f).plk = s.plk := rfl
@[simp] theorem State.setMem_mbx (f : Mem → Mem) : (s.setMem f).mbx = s.mbx := rfl
@[simp] theorem State.setMem_cmp (f : Mem → Mem) : (s.setMem f).cmp = s.cmp := rfl
@[simp] theorem State.setMem_ringCoders (f : Mem → Mem) : (s.setMem f).ringCoders = s.ringCoders := rfl
@[simp] theorem State.setMem_lanes (f : Mem → Mem) : (s.setMem f).lanes = s.lanes := rfl
@[simp] theorem State.setMem_routes (f : Mem → Mem) : (s.setMem f).routes = s.routes := rfl
@[simp] theorem State.setMem_mgmt (f : Mem → Mem) : (s.setMem f).mgmt = s.mgmt := rfl
@[simp] theorem State.setMem_pcie (f : Mem → Mem) : (s.setMem f).pcie = s.pcie := rfl
@[simp] theorem State.setMem_latches (f : Mem → Mem) : (s.setMem f).latches = s.latches := rfl
@[simp] theorem State.setMem_readFailures (f : Mem → Mem) : (s.setMem f).readFailures = s.readFailures := rfl

/-! ## `State.setTim` -/

@[simp] theorem State.setTim_pending (f : Tim → Tim) : (s.setTim f).pending = s.pending := rfl
@[simp] theorem State.setTim_now (f : Tim → Tim) : (s.setTim f).now = s.now := rfl
@[simp] theorem State.setTim_free (f : Tim → Tim) : (s.setTim f).free = s.free := rfl
@[simp] theorem State.setTim_outputs (f : Tim → Tim) : (s.setTim f).outputs = s.outputs := rfl
@[simp] theorem State.setTim_power (f : Tim → Tim) : (s.setTim f).power = s.power := rfl
@[simp] theorem State.setTim_hb (f : Tim → Tim) : (s.setTim f).hb = s.hb := rfl
@[simp] theorem State.setTim_bbx (f : Tim → Tim) : (s.setTim f).bbx = s.bbx := rfl
@[simp] theorem State.setTim_flash (f : Tim → Tim) : (s.setTim f).flash = s.flash := rfl
@[simp] theorem State.setTim_cfg (f : Tim → Tim) : (s.setTim f).cfg = s.cfg := rfl
@[simp] theorem State.setTim_tim (f : Tim → Tim) : (s.setTim f).tim = f s.tim := rfl
@[simp] theorem State.setTim_tiu (f : Tim → Tim) : (s.setTim f).tiu = s.tiu := rfl
@[simp] theorem State.setTim_mem (f : Tim → Tim) : (s.setTim f).mem = s.mem := rfl
@[simp] theorem State.setTim_fab (f : Tim → Tim) : (s.setTim f).fab = s.fab := rfl
@[simp] theorem State.setTim_opt (f : Tim → Tim) : (s.setTim f).opt = s.opt := rfl
@[simp] theorem State.setTim_darkFrom (f : Tim → Tim) : (s.setTim f).darkFrom = s.darkFrom := rfl
@[simp] theorem State.setTim_sht (f : Tim → Tim) : (s.setTim f).sht = s.sht := rfl
@[simp] theorem State.setTim_trigLevel (f : Tim → Tim) : (s.setTim f).trigLevel = s.trigLevel := rfl
@[simp] theorem State.setTim_acq (f : Tim → Tim) : (s.setTim f).acq = s.acq := rfl
@[simp] theorem State.setTim_phs (f : Tim → Tim) : (s.setTim f).phs = s.phs := rfl
@[simp] theorem State.setTim_evt (f : Tim → Tim) : (s.setTim f).evt = s.evt := rfl
@[simp] theorem State.setTim_alarms (f : Tim → Tim) : (s.setTim f).alarms = s.alarms := rfl
@[simp] theorem State.setTim_dts (f : Tim → Tim) : (s.setTim f).dts = s.dts := rfl
@[simp] theorem State.setTim_battCorrected (f : Tim → Tim) : (s.setTim f).battCorrected = s.battCorrected := rfl
@[simp] theorem State.setTim_battUncorrected (f : Tim → Tim) : (s.setTim f).battUncorrected = s.battUncorrected := rfl
@[simp] theorem State.setTim_sup (f : Tim → Tim) : (s.setTim f).sup = s.sup := rfl
@[simp] theorem State.setTim_permits (f : Tim → Tim) : (s.setTim f).permits = s.permits := rfl
@[simp] theorem State.setTim_als (f : Tim → Tim) : (s.setTim f).als = s.als := rfl
@[simp] theorem State.setTim_pnl (f : Tim → Tim) : (s.setTim f).pnl = s.pnl := rfl
@[simp] theorem State.setTim_plk (f : Tim → Tim) : (s.setTim f).plk = s.plk := rfl
@[simp] theorem State.setTim_mbx (f : Tim → Tim) : (s.setTim f).mbx = s.mbx := rfl
@[simp] theorem State.setTim_cmp (f : Tim → Tim) : (s.setTim f).cmp = s.cmp := rfl
@[simp] theorem State.setTim_ringCoders (f : Tim → Tim) : (s.setTim f).ringCoders = s.ringCoders := rfl
@[simp] theorem State.setTim_lanes (f : Tim → Tim) : (s.setTim f).lanes = s.lanes := rfl
@[simp] theorem State.setTim_routes (f : Tim → Tim) : (s.setTim f).routes = s.routes := rfl
@[simp] theorem State.setTim_mgmt (f : Tim → Tim) : (s.setTim f).mgmt = s.mgmt := rfl
@[simp] theorem State.setTim_pcie (f : Tim → Tim) : (s.setTim f).pcie = s.pcie := rfl
@[simp] theorem State.setTim_latches (f : Tim → Tim) : (s.setTim f).latches = s.latches := rfl
@[simp] theorem State.setTim_readFailures (f : Tim → Tim) : (s.setTim f).readFailures = s.readFailures := rfl

/-! ## `State.setLane` -/

@[simp] theorem State.setLane_pending (l : Lane) (f : LaneSt → LaneSt) : (s.setLane l f).pending = s.pending := rfl
@[simp] theorem State.setLane_now (l : Lane) (f : LaneSt → LaneSt) : (s.setLane l f).now = s.now := rfl
@[simp] theorem State.setLane_free (l : Lane) (f : LaneSt → LaneSt) : (s.setLane l f).free = s.free := rfl
@[simp] theorem State.setLane_outputs (l : Lane) (f : LaneSt → LaneSt) : (s.setLane l f).outputs = s.outputs := rfl
@[simp] theorem State.setLane_power (l : Lane) (f : LaneSt → LaneSt) : (s.setLane l f).power = s.power := rfl
@[simp] theorem State.setLane_hb (l : Lane) (f : LaneSt → LaneSt) : (s.setLane l f).hb = s.hb := rfl
@[simp] theorem State.setLane_bbx (l : Lane) (f : LaneSt → LaneSt) : (s.setLane l f).bbx = s.bbx := rfl
@[simp] theorem State.setLane_flash (l : Lane) (f : LaneSt → LaneSt) : (s.setLane l f).flash = s.flash := rfl
@[simp] theorem State.setLane_cfg (l : Lane) (f : LaneSt → LaneSt) : (s.setLane l f).cfg = s.cfg := rfl
@[simp] theorem State.setLane_tim (l : Lane) (f : LaneSt → LaneSt) : (s.setLane l f).tim = s.tim := rfl
@[simp] theorem State.setLane_tiu (l : Lane) (f : LaneSt → LaneSt) : (s.setLane l f).tiu = s.tiu := rfl
@[simp] theorem State.setLane_mem (l : Lane) (f : LaneSt → LaneSt) : (s.setLane l f).mem = s.mem := rfl
@[simp] theorem State.setLane_fab (l : Lane) (f : LaneSt → LaneSt) : (s.setLane l f).fab = s.fab := rfl
@[simp] theorem State.setLane_opt (l : Lane) (f : LaneSt → LaneSt) : (s.setLane l f).opt = s.opt := rfl
@[simp] theorem State.setLane_darkFrom (l : Lane) (f : LaneSt → LaneSt) : (s.setLane l f).darkFrom = s.darkFrom := rfl
@[simp] theorem State.setLane_sht (l : Lane) (f : LaneSt → LaneSt) : (s.setLane l f).sht = s.sht := rfl
@[simp] theorem State.setLane_trigLevel (l : Lane) (f : LaneSt → LaneSt) : (s.setLane l f).trigLevel = s.trigLevel := rfl
@[simp] theorem State.setLane_acq (l : Lane) (f : LaneSt → LaneSt) : (s.setLane l f).acq = s.acq := rfl
@[simp] theorem State.setLane_phs (l : Lane) (f : LaneSt → LaneSt) : (s.setLane l f).phs = s.phs := rfl
@[simp] theorem State.setLane_evt (l : Lane) (f : LaneSt → LaneSt) : (s.setLane l f).evt = s.evt := rfl
@[simp] theorem State.setLane_alarms (l : Lane) (f : LaneSt → LaneSt) : (s.setLane l f).alarms = s.alarms := rfl
@[simp] theorem State.setLane_dts (l : Lane) (f : LaneSt → LaneSt) : (s.setLane l f).dts = s.dts := rfl
@[simp] theorem State.setLane_battCorrected (l : Lane) (f : LaneSt → LaneSt) : (s.setLane l f).battCorrected = s.battCorrected := rfl
@[simp] theorem State.setLane_battUncorrected (l : Lane) (f : LaneSt → LaneSt) : (s.setLane l f).battUncorrected = s.battUncorrected := rfl
@[simp] theorem State.setLane_sup (l : Lane) (f : LaneSt → LaneSt) : (s.setLane l f).sup = s.sup := rfl
@[simp] theorem State.setLane_permits (l : Lane) (f : LaneSt → LaneSt) : (s.setLane l f).permits = s.permits := rfl
@[simp] theorem State.setLane_als (l : Lane) (f : LaneSt → LaneSt) : (s.setLane l f).als = s.als := rfl
@[simp] theorem State.setLane_pnl (l : Lane) (f : LaneSt → LaneSt) : (s.setLane l f).pnl = s.pnl := rfl
@[simp] theorem State.setLane_plk (l : Lane) (f : LaneSt → LaneSt) : (s.setLane l f).plk = s.plk := rfl
@[simp] theorem State.setLane_mbx (l : Lane) (f : LaneSt → LaneSt) : (s.setLane l f).mbx = s.mbx := rfl
@[simp] theorem State.setLane_cmp (l : Lane) (f : LaneSt → LaneSt) : (s.setLane l f).cmp = s.cmp := rfl
@[simp] theorem State.setLane_ringCoders (l : Lane) (f : LaneSt → LaneSt) : (s.setLane l f).ringCoders = s.ringCoders := rfl
@[simp] theorem State.setLane_lanes (l : Lane) (f : LaneSt → LaneSt) : (s.setLane l f).lanes = upd s.lanes l f := rfl
@[simp] theorem State.setLane_routes (l : Lane) (f : LaneSt → LaneSt) : (s.setLane l f).routes = s.routes := rfl
@[simp] theorem State.setLane_mgmt (l : Lane) (f : LaneSt → LaneSt) : (s.setLane l f).mgmt = s.mgmt := rfl
@[simp] theorem State.setLane_pcie (l : Lane) (f : LaneSt → LaneSt) : (s.setLane l f).pcie = s.pcie := rfl
@[simp] theorem State.setLane_latches (l : Lane) (f : LaneSt → LaneSt) : (s.setLane l f).latches = s.latches := rfl
@[simp] theorem State.setLane_readFailures (l : Lane) (f : LaneSt → LaneSt) : (s.setLane l f).readFailures = s.readFailures := rfl

/-! ## `State.setRoute` -/

@[simp] theorem State.setRoute_pending (r : RouteId) (f : RouteSt → RouteSt) : (s.setRoute r f).pending = s.pending := rfl
@[simp] theorem State.setRoute_now (r : RouteId) (f : RouteSt → RouteSt) : (s.setRoute r f).now = s.now := rfl
@[simp] theorem State.setRoute_free (r : RouteId) (f : RouteSt → RouteSt) : (s.setRoute r f).free = s.free := rfl
@[simp] theorem State.setRoute_outputs (r : RouteId) (f : RouteSt → RouteSt) : (s.setRoute r f).outputs = s.outputs := rfl
@[simp] theorem State.setRoute_power (r : RouteId) (f : RouteSt → RouteSt) : (s.setRoute r f).power = s.power := rfl
@[simp] theorem State.setRoute_hb (r : RouteId) (f : RouteSt → RouteSt) : (s.setRoute r f).hb = s.hb := rfl
@[simp] theorem State.setRoute_bbx (r : RouteId) (f : RouteSt → RouteSt) : (s.setRoute r f).bbx = s.bbx := rfl
@[simp] theorem State.setRoute_flash (r : RouteId) (f : RouteSt → RouteSt) : (s.setRoute r f).flash = s.flash := rfl
@[simp] theorem State.setRoute_cfg (r : RouteId) (f : RouteSt → RouteSt) : (s.setRoute r f).cfg = s.cfg := rfl
@[simp] theorem State.setRoute_tim (r : RouteId) (f : RouteSt → RouteSt) : (s.setRoute r f).tim = s.tim := rfl
@[simp] theorem State.setRoute_tiu (r : RouteId) (f : RouteSt → RouteSt) : (s.setRoute r f).tiu = s.tiu := rfl
@[simp] theorem State.setRoute_mem (r : RouteId) (f : RouteSt → RouteSt) : (s.setRoute r f).mem = s.mem := rfl
@[simp] theorem State.setRoute_fab (r : RouteId) (f : RouteSt → RouteSt) : (s.setRoute r f).fab = s.fab := rfl
@[simp] theorem State.setRoute_opt (r : RouteId) (f : RouteSt → RouteSt) : (s.setRoute r f).opt = s.opt := rfl
@[simp] theorem State.setRoute_darkFrom (r : RouteId) (f : RouteSt → RouteSt) : (s.setRoute r f).darkFrom = s.darkFrom := rfl
@[simp] theorem State.setRoute_sht (r : RouteId) (f : RouteSt → RouteSt) : (s.setRoute r f).sht = s.sht := rfl
@[simp] theorem State.setRoute_trigLevel (r : RouteId) (f : RouteSt → RouteSt) : (s.setRoute r f).trigLevel = s.trigLevel := rfl
@[simp] theorem State.setRoute_acq (r : RouteId) (f : RouteSt → RouteSt) : (s.setRoute r f).acq = s.acq := rfl
@[simp] theorem State.setRoute_phs (r : RouteId) (f : RouteSt → RouteSt) : (s.setRoute r f).phs = s.phs := rfl
@[simp] theorem State.setRoute_evt (r : RouteId) (f : RouteSt → RouteSt) : (s.setRoute r f).evt = s.evt := rfl
@[simp] theorem State.setRoute_alarms (r : RouteId) (f : RouteSt → RouteSt) : (s.setRoute r f).alarms = s.alarms := rfl
@[simp] theorem State.setRoute_dts (r : RouteId) (f : RouteSt → RouteSt) : (s.setRoute r f).dts = s.dts := rfl
@[simp] theorem State.setRoute_battCorrected (r : RouteId) (f : RouteSt → RouteSt) : (s.setRoute r f).battCorrected = s.battCorrected := rfl
@[simp] theorem State.setRoute_battUncorrected (r : RouteId) (f : RouteSt → RouteSt) : (s.setRoute r f).battUncorrected = s.battUncorrected := rfl
@[simp] theorem State.setRoute_sup (r : RouteId) (f : RouteSt → RouteSt) : (s.setRoute r f).sup = s.sup := rfl
@[simp] theorem State.setRoute_permits (r : RouteId) (f : RouteSt → RouteSt) : (s.setRoute r f).permits = s.permits := rfl
@[simp] theorem State.setRoute_als (r : RouteId) (f : RouteSt → RouteSt) : (s.setRoute r f).als = s.als := rfl
@[simp] theorem State.setRoute_pnl (r : RouteId) (f : RouteSt → RouteSt) : (s.setRoute r f).pnl = s.pnl := rfl
@[simp] theorem State.setRoute_plk (r : RouteId) (f : RouteSt → RouteSt) : (s.setRoute r f).plk = s.plk := rfl
@[simp] theorem State.setRoute_mbx (r : RouteId) (f : RouteSt → RouteSt) : (s.setRoute r f).mbx = s.mbx := rfl
@[simp] theorem State.setRoute_cmp (r : RouteId) (f : RouteSt → RouteSt) : (s.setRoute r f).cmp = s.cmp := rfl
@[simp] theorem State.setRoute_ringCoders (r : RouteId) (f : RouteSt → RouteSt) : (s.setRoute r f).ringCoders = s.ringCoders := rfl
@[simp] theorem State.setRoute_lanes (r : RouteId) (f : RouteSt → RouteSt) : (s.setRoute r f).lanes = s.lanes := rfl
@[simp] theorem State.setRoute_routes (r : RouteId) (f : RouteSt → RouteSt) : (s.setRoute r f).routes = upd s.routes r f := rfl
@[simp] theorem State.setRoute_mgmt (r : RouteId) (f : RouteSt → RouteSt) : (s.setRoute r f).mgmt = s.mgmt := rfl
@[simp] theorem State.setRoute_pcie (r : RouteId) (f : RouteSt → RouteSt) : (s.setRoute r f).pcie = s.pcie := rfl
@[simp] theorem State.setRoute_latches (r : RouteId) (f : RouteSt → RouteSt) : (s.setRoute r f).latches = s.latches := rfl
@[simp] theorem State.setRoute_readFailures (r : RouteId) (f : RouteSt → RouteSt) : (s.setRoute r f).readFailures = s.readFailures := rfl

/-! ## `State.toRoute` -/

@[simp] theorem State.toRoute_pending (r : RouteId) (q : PRec) : (s.toRoute r q).pending = s.pending := rfl
@[simp] theorem State.toRoute_now (r : RouteId) (q : PRec) : (s.toRoute r q).now = s.now := rfl
@[simp] theorem State.toRoute_free (r : RouteId) (q : PRec) : (s.toRoute r q).free = s.free := rfl
@[simp] theorem State.toRoute_outputs (r : RouteId) (q : PRec) : (s.toRoute r q).outputs = s.outputs := rfl
@[simp] theorem State.toRoute_power (r : RouteId) (q : PRec) : (s.toRoute r q).power = s.power := rfl
@[simp] theorem State.toRoute_hb (r : RouteId) (q : PRec) : (s.toRoute r q).hb = s.hb := rfl
@[simp] theorem State.toRoute_bbx (r : RouteId) (q : PRec) : (s.toRoute r q).bbx = s.bbx := rfl
@[simp] theorem State.toRoute_flash (r : RouteId) (q : PRec) : (s.toRoute r q).flash = s.flash := rfl
@[simp] theorem State.toRoute_cfg (r : RouteId) (q : PRec) : (s.toRoute r q).cfg = s.cfg := rfl
@[simp] theorem State.toRoute_tim (r : RouteId) (q : PRec) : (s.toRoute r q).tim = s.tim := rfl
@[simp] theorem State.toRoute_tiu (r : RouteId) (q : PRec) : (s.toRoute r q).tiu = s.tiu := rfl
@[simp] theorem State.toRoute_mem (r : RouteId) (q : PRec) : (s.toRoute r q).mem = s.mem := rfl
@[simp] theorem State.toRoute_fab (r : RouteId) (q : PRec) : (s.toRoute r q).fab = s.fab := rfl
@[simp] theorem State.toRoute_opt (r : RouteId) (q : PRec) : (s.toRoute r q).opt = s.opt := rfl
@[simp] theorem State.toRoute_darkFrom (r : RouteId) (q : PRec) : (s.toRoute r q).darkFrom = s.darkFrom := rfl
@[simp] theorem State.toRoute_sht (r : RouteId) (q : PRec) : (s.toRoute r q).sht = s.sht := rfl
@[simp] theorem State.toRoute_trigLevel (r : RouteId) (q : PRec) : (s.toRoute r q).trigLevel = s.trigLevel := rfl
@[simp] theorem State.toRoute_acq (r : RouteId) (q : PRec) : (s.toRoute r q).acq = s.acq := rfl
@[simp] theorem State.toRoute_phs (r : RouteId) (q : PRec) : (s.toRoute r q).phs = s.phs := rfl
@[simp] theorem State.toRoute_evt (r : RouteId) (q : PRec) : (s.toRoute r q).evt = s.evt := rfl
@[simp] theorem State.toRoute_alarms (r : RouteId) (q : PRec) : (s.toRoute r q).alarms = s.alarms := rfl
@[simp] theorem State.toRoute_dts (r : RouteId) (q : PRec) : (s.toRoute r q).dts = s.dts := rfl
@[simp] theorem State.toRoute_battCorrected (r : RouteId) (q : PRec) : (s.toRoute r q).battCorrected = s.battCorrected := rfl
@[simp] theorem State.toRoute_battUncorrected (r : RouteId) (q : PRec) : (s.toRoute r q).battUncorrected = s.battUncorrected := rfl
@[simp] theorem State.toRoute_sup (r : RouteId) (q : PRec) : (s.toRoute r q).sup = s.sup := rfl
@[simp] theorem State.toRoute_permits (r : RouteId) (q : PRec) : (s.toRoute r q).permits = s.permits := rfl
@[simp] theorem State.toRoute_als (r : RouteId) (q : PRec) : (s.toRoute r q).als = s.als := rfl
@[simp] theorem State.toRoute_pnl (r : RouteId) (q : PRec) : (s.toRoute r q).pnl = s.pnl := rfl
@[simp] theorem State.toRoute_plk (r : RouteId) (q : PRec) : (s.toRoute r q).plk = s.plk := rfl
@[simp] theorem State.toRoute_mbx (r : RouteId) (q : PRec) : (s.toRoute r q).mbx = s.mbx := rfl
@[simp] theorem State.toRoute_cmp (r : RouteId) (q : PRec) : (s.toRoute r q).cmp = s.cmp := rfl
@[simp] theorem State.toRoute_ringCoders (r : RouteId) (q : PRec) : (s.toRoute r q).ringCoders = s.ringCoders := rfl
@[simp] theorem State.toRoute_lanes (r : RouteId) (q : PRec) : (s.toRoute r q).lanes = s.lanes := rfl
@[simp] theorem State.toRoute_routes (r : RouteId) (q : PRec) : (s.toRoute r q).routes = upd s.routes r fun x => { x with inflight := x.inflight ++ [q] } := rfl
@[simp] theorem State.toRoute_mgmt (r : RouteId) (q : PRec) : (s.toRoute r q).mgmt = s.mgmt := rfl
@[simp] theorem State.toRoute_pcie (r : RouteId) (q : PRec) : (s.toRoute r q).pcie = s.pcie := rfl
@[simp] theorem State.toRoute_latches (r : RouteId) (q : PRec) : (s.toRoute r q).latches = s.latches := rfl
@[simp] theorem State.toRoute_readFailures (r : RouteId) (q : PRec) : (s.toRoute r q).readFailures = s.readFailures := rfl

/-! ## `State.setPhs` -/

@[simp] theorem State.setPhs_pending (p : Port) (f : Phs → Phs) : (s.setPhs p f).pending = s.pending := rfl
@[simp] theorem State.setPhs_now (p : Port) (f : Phs → Phs) : (s.setPhs p f).now = s.now := rfl
@[simp] theorem State.setPhs_free (p : Port) (f : Phs → Phs) : (s.setPhs p f).free = s.free := rfl
@[simp] theorem State.setPhs_outputs (p : Port) (f : Phs → Phs) : (s.setPhs p f).outputs = s.outputs := rfl
@[simp] theorem State.setPhs_power (p : Port) (f : Phs → Phs) : (s.setPhs p f).power = s.power := rfl
@[simp] theorem State.setPhs_hb (p : Port) (f : Phs → Phs) : (s.setPhs p f).hb = s.hb := rfl
@[simp] theorem State.setPhs_bbx (p : Port) (f : Phs → Phs) : (s.setPhs p f).bbx = s.bbx := rfl
@[simp] theorem State.setPhs_flash (p : Port) (f : Phs → Phs) : (s.setPhs p f).flash = s.flash := rfl
@[simp] theorem State.setPhs_cfg (p : Port) (f : Phs → Phs) : (s.setPhs p f).cfg = s.cfg := rfl
@[simp] theorem State.setPhs_tim (p : Port) (f : Phs → Phs) : (s.setPhs p f).tim = s.tim := rfl
@[simp] theorem State.setPhs_tiu (p : Port) (f : Phs → Phs) : (s.setPhs p f).tiu = s.tiu := rfl
@[simp] theorem State.setPhs_mem (p : Port) (f : Phs → Phs) : (s.setPhs p f).mem = s.mem := rfl
@[simp] theorem State.setPhs_fab (p : Port) (f : Phs → Phs) : (s.setPhs p f).fab = s.fab := rfl
@[simp] theorem State.setPhs_opt (p : Port) (f : Phs → Phs) : (s.setPhs p f).opt = s.opt := rfl
@[simp] theorem State.setPhs_darkFrom (p : Port) (f : Phs → Phs) : (s.setPhs p f).darkFrom = s.darkFrom := rfl
@[simp] theorem State.setPhs_sht (p : Port) (f : Phs → Phs) : (s.setPhs p f).sht = s.sht := rfl
@[simp] theorem State.setPhs_trigLevel (p : Port) (f : Phs → Phs) : (s.setPhs p f).trigLevel = s.trigLevel := rfl
@[simp] theorem State.setPhs_acq (p : Port) (f : Phs → Phs) : (s.setPhs p f).acq = s.acq := rfl
@[simp] theorem State.setPhs_phs (p : Port) (f : Phs → Phs) : (s.setPhs p f).phs = upd s.phs p f := rfl
@[simp] theorem State.setPhs_evt (p : Port) (f : Phs → Phs) : (s.setPhs p f).evt = s.evt := rfl
@[simp] theorem State.setPhs_alarms (p : Port) (f : Phs → Phs) : (s.setPhs p f).alarms = s.alarms := rfl
@[simp] theorem State.setPhs_dts (p : Port) (f : Phs → Phs) : (s.setPhs p f).dts = s.dts := rfl
@[simp] theorem State.setPhs_battCorrected (p : Port) (f : Phs → Phs) : (s.setPhs p f).battCorrected = s.battCorrected := rfl
@[simp] theorem State.setPhs_battUncorrected (p : Port) (f : Phs → Phs) : (s.setPhs p f).battUncorrected = s.battUncorrected := rfl
@[simp] theorem State.setPhs_sup (p : Port) (f : Phs → Phs) : (s.setPhs p f).sup = s.sup := rfl
@[simp] theorem State.setPhs_permits (p : Port) (f : Phs → Phs) : (s.setPhs p f).permits = s.permits := rfl
@[simp] theorem State.setPhs_als (p : Port) (f : Phs → Phs) : (s.setPhs p f).als = s.als := rfl
@[simp] theorem State.setPhs_pnl (p : Port) (f : Phs → Phs) : (s.setPhs p f).pnl = s.pnl := rfl
@[simp] theorem State.setPhs_plk (p : Port) (f : Phs → Phs) : (s.setPhs p f).plk = s.plk := rfl
@[simp] theorem State.setPhs_mbx (p : Port) (f : Phs → Phs) : (s.setPhs p f).mbx = s.mbx := rfl
@[simp] theorem State.setPhs_cmp (p : Port) (f : Phs → Phs) : (s.setPhs p f).cmp = s.cmp := rfl
@[simp] theorem State.setPhs_ringCoders (p : Port) (f : Phs → Phs) : (s.setPhs p f).ringCoders = s.ringCoders := rfl
@[simp] theorem State.setPhs_lanes (p : Port) (f : Phs → Phs) : (s.setPhs p f).lanes = s.lanes := rfl
@[simp] theorem State.setPhs_routes (p : Port) (f : Phs → Phs) : (s.setPhs p f).routes = s.routes := rfl
@[simp] theorem State.setPhs_mgmt (p : Port) (f : Phs → Phs) : (s.setPhs p f).mgmt = s.mgmt := rfl
@[simp] theorem State.setPhs_pcie (p : Port) (f : Phs → Phs) : (s.setPhs p f).pcie = s.pcie := rfl
@[simp] theorem State.setPhs_latches (p : Port) (f : Phs → Phs) : (s.setPhs p f).latches = s.latches := rfl
@[simp] theorem State.setPhs_readFailures (p : Port) (f : Phs → Phs) : (s.setPhs p f).readFailures = s.readFailures := rfl

/-! ## `State.setSup` -/

@[simp] theorem State.setSup_pending (f : Sup → Sup) : (s.setSup f).pending = s.pending := rfl
@[simp] theorem State.setSup_now (f : Sup → Sup) : (s.setSup f).now = s.now := rfl
@[simp] theorem State.setSup_free (f : Sup → Sup) : (s.setSup f).free = s.free := rfl
@[simp] theorem State.setSup_outputs (f : Sup → Sup) : (s.setSup f).outputs = s.outputs := rfl
@[simp] theorem State.setSup_power (f : Sup → Sup) : (s.setSup f).power = s.power := rfl
@[simp] theorem State.setSup_hb (f : Sup → Sup) : (s.setSup f).hb = s.hb := rfl
@[simp] theorem State.setSup_bbx (f : Sup → Sup) : (s.setSup f).bbx = s.bbx := rfl
@[simp] theorem State.setSup_flash (f : Sup → Sup) : (s.setSup f).flash = s.flash := rfl
@[simp] theorem State.setSup_cfg (f : Sup → Sup) : (s.setSup f).cfg = s.cfg := rfl
@[simp] theorem State.setSup_tim (f : Sup → Sup) : (s.setSup f).tim = s.tim := rfl
@[simp] theorem State.setSup_tiu (f : Sup → Sup) : (s.setSup f).tiu = s.tiu := rfl
@[simp] theorem State.setSup_mem (f : Sup → Sup) : (s.setSup f).mem = s.mem := rfl
@[simp] theorem State.setSup_fab (f : Sup → Sup) : (s.setSup f).fab = s.fab := rfl
@[simp] theorem State.setSup_opt (f : Sup → Sup) : (s.setSup f).opt = s.opt := rfl
@[simp] theorem State.setSup_darkFrom (f : Sup → Sup) : (s.setSup f).darkFrom = s.darkFrom := rfl
@[simp] theorem State.setSup_sht (f : Sup → Sup) : (s.setSup f).sht = s.sht := rfl
@[simp] theorem State.setSup_trigLevel (f : Sup → Sup) : (s.setSup f).trigLevel = s.trigLevel := rfl
@[simp] theorem State.setSup_acq (f : Sup → Sup) : (s.setSup f).acq = s.acq := rfl
@[simp] theorem State.setSup_phs (f : Sup → Sup) : (s.setSup f).phs = s.phs := rfl
@[simp] theorem State.setSup_evt (f : Sup → Sup) : (s.setSup f).evt = s.evt := rfl
@[simp] theorem State.setSup_alarms (f : Sup → Sup) : (s.setSup f).alarms = s.alarms := rfl
@[simp] theorem State.setSup_dts (f : Sup → Sup) : (s.setSup f).dts = s.dts := rfl
@[simp] theorem State.setSup_battCorrected (f : Sup → Sup) : (s.setSup f).battCorrected = s.battCorrected := rfl
@[simp] theorem State.setSup_battUncorrected (f : Sup → Sup) : (s.setSup f).battUncorrected = s.battUncorrected := rfl
@[simp] theorem State.setSup_sup (f : Sup → Sup) : (s.setSup f).sup = f s.sup := rfl
@[simp] theorem State.setSup_permits (f : Sup → Sup) : (s.setSup f).permits = s.permits := rfl
@[simp] theorem State.setSup_als (f : Sup → Sup) : (s.setSup f).als = s.als := rfl
@[simp] theorem State.setSup_pnl (f : Sup → Sup) : (s.setSup f).pnl = s.pnl := rfl
@[simp] theorem State.setSup_plk (f : Sup → Sup) : (s.setSup f).plk = s.plk := rfl
@[simp] theorem State.setSup_mbx (f : Sup → Sup) : (s.setSup f).mbx = s.mbx := rfl
@[simp] theorem State.setSup_cmp (f : Sup → Sup) : (s.setSup f).cmp = s.cmp := rfl
@[simp] theorem State.setSup_ringCoders (f : Sup → Sup) : (s.setSup f).ringCoders = s.ringCoders := rfl
@[simp] theorem State.setSup_lanes (f : Sup → Sup) : (s.setSup f).lanes = s.lanes := rfl
@[simp] theorem State.setSup_routes (f : Sup → Sup) : (s.setSup f).routes = s.routes := rfl
@[simp] theorem State.setSup_mgmt (f : Sup → Sup) : (s.setSup f).mgmt = s.mgmt := rfl
@[simp] theorem State.setSup_pcie (f : Sup → Sup) : (s.setSup f).pcie = s.pcie := rfl
@[simp] theorem State.setSup_latches (f : Sup → Sup) : (s.setSup f).latches = s.latches := rfl
@[simp] theorem State.setSup_readFailures (f : Sup → Sup) : (s.setSup f).readFailures = s.readFailures := rfl

/-! ## `State.setEvt` -/

@[simp] theorem State.setEvt_pending (f : Evt → Evt) : (s.setEvt f).pending = s.pending := rfl
@[simp] theorem State.setEvt_now (f : Evt → Evt) : (s.setEvt f).now = s.now := rfl
@[simp] theorem State.setEvt_free (f : Evt → Evt) : (s.setEvt f).free = s.free := rfl
@[simp] theorem State.setEvt_outputs (f : Evt → Evt) : (s.setEvt f).outputs = s.outputs := rfl
@[simp] theorem State.setEvt_power (f : Evt → Evt) : (s.setEvt f).power = s.power := rfl
@[simp] theorem State.setEvt_hb (f : Evt → Evt) : (s.setEvt f).hb = s.hb := rfl
@[simp] theorem State.setEvt_bbx (f : Evt → Evt) : (s.setEvt f).bbx = s.bbx := rfl
@[simp] theorem State.setEvt_flash (f : Evt → Evt) : (s.setEvt f).flash = s.flash := rfl
@[simp] theorem State.setEvt_cfg (f : Evt → Evt) : (s.setEvt f).cfg = s.cfg := rfl
@[simp] theorem State.setEvt_tim (f : Evt → Evt) : (s.setEvt f).tim = s.tim := rfl
@[simp] theorem State.setEvt_tiu (f : Evt → Evt) : (s.setEvt f).tiu = s.tiu := rfl
@[simp] theorem State.setEvt_mem (f : Evt → Evt) : (s.setEvt f).mem = s.mem := rfl
@[simp] theorem State.setEvt_fab (f : Evt → Evt) : (s.setEvt f).fab = s.fab := rfl
@[simp] theorem State.setEvt_opt (f : Evt → Evt) : (s.setEvt f).opt = s.opt := rfl
@[simp] theorem State.setEvt_darkFrom (f : Evt → Evt) : (s.setEvt f).darkFrom = s.darkFrom := rfl
@[simp] theorem State.setEvt_sht (f : Evt → Evt) : (s.setEvt f).sht = s.sht := rfl
@[simp] theorem State.setEvt_trigLevel (f : Evt → Evt) : (s.setEvt f).trigLevel = s.trigLevel := rfl
@[simp] theorem State.setEvt_acq (f : Evt → Evt) : (s.setEvt f).acq = s.acq := rfl
@[simp] theorem State.setEvt_phs (f : Evt → Evt) : (s.setEvt f).phs = s.phs := rfl
@[simp] theorem State.setEvt_evt (f : Evt → Evt) : (s.setEvt f).evt = f s.evt := rfl
@[simp] theorem State.setEvt_alarms (f : Evt → Evt) : (s.setEvt f).alarms = s.alarms := rfl
@[simp] theorem State.setEvt_dts (f : Evt → Evt) : (s.setEvt f).dts = s.dts := rfl
@[simp] theorem State.setEvt_battCorrected (f : Evt → Evt) : (s.setEvt f).battCorrected = s.battCorrected := rfl
@[simp] theorem State.setEvt_battUncorrected (f : Evt → Evt) : (s.setEvt f).battUncorrected = s.battUncorrected := rfl
@[simp] theorem State.setEvt_sup (f : Evt → Evt) : (s.setEvt f).sup = s.sup := rfl
@[simp] theorem State.setEvt_permits (f : Evt → Evt) : (s.setEvt f).permits = s.permits := rfl
@[simp] theorem State.setEvt_als (f : Evt → Evt) : (s.setEvt f).als = s.als := rfl
@[simp] theorem State.setEvt_pnl (f : Evt → Evt) : (s.setEvt f).pnl = s.pnl := rfl
@[simp] theorem State.setEvt_plk (f : Evt → Evt) : (s.setEvt f).plk = s.plk := rfl
@[simp] theorem State.setEvt_mbx (f : Evt → Evt) : (s.setEvt f).mbx = s.mbx := rfl
@[simp] theorem State.setEvt_cmp (f : Evt → Evt) : (s.setEvt f).cmp = s.cmp := rfl
@[simp] theorem State.setEvt_ringCoders (f : Evt → Evt) : (s.setEvt f).ringCoders = s.ringCoders := rfl
@[simp] theorem State.setEvt_lanes (f : Evt → Evt) : (s.setEvt f).lanes = s.lanes := rfl
@[simp] theorem State.setEvt_routes (f : Evt → Evt) : (s.setEvt f).routes = s.routes := rfl
@[simp] theorem State.setEvt_mgmt (f : Evt → Evt) : (s.setEvt f).mgmt = s.mgmt := rfl
@[simp] theorem State.setEvt_pcie (f : Evt → Evt) : (s.setEvt f).pcie = s.pcie := rfl
@[simp] theorem State.setEvt_latches (f : Evt → Evt) : (s.setEvt f).latches = s.latches := rfl
@[simp] theorem State.setEvt_readFailures (f : Evt → Evt) : (s.setEvt f).readFailures = s.readFailures := rfl

/-! ## `State.setEvtPort` -/

@[simp] theorem State.setEvtPort_pending (p : Port) (f : EvtPort → EvtPort) : (s.setEvtPort p f).pending = s.pending := rfl
@[simp] theorem State.setEvtPort_now (p : Port) (f : EvtPort → EvtPort) : (s.setEvtPort p f).now = s.now := rfl
@[simp] theorem State.setEvtPort_free (p : Port) (f : EvtPort → EvtPort) : (s.setEvtPort p f).free = s.free := rfl
@[simp] theorem State.setEvtPort_outputs (p : Port) (f : EvtPort → EvtPort) : (s.setEvtPort p f).outputs = s.outputs := rfl
@[simp] theorem State.setEvtPort_power (p : Port) (f : EvtPort → EvtPort) : (s.setEvtPort p f).power = s.power := rfl
@[simp] theorem State.setEvtPort_hb (p : Port) (f : EvtPort → EvtPort) : (s.setEvtPort p f).hb = s.hb := rfl
@[simp] theorem State.setEvtPort_bbx (p : Port) (f : EvtPort → EvtPort) : (s.setEvtPort p f).bbx = s.bbx := rfl
@[simp] theorem State.setEvtPort_flash (p : Port) (f : EvtPort → EvtPort) : (s.setEvtPort p f).flash = s.flash := rfl
@[simp] theorem State.setEvtPort_cfg (p : Port) (f : EvtPort → EvtPort) : (s.setEvtPort p f).cfg = s.cfg := rfl
@[simp] theorem State.setEvtPort_tim (p : Port) (f : EvtPort → EvtPort) : (s.setEvtPort p f).tim = s.tim := rfl
@[simp] theorem State.setEvtPort_tiu (p : Port) (f : EvtPort → EvtPort) : (s.setEvtPort p f).tiu = s.tiu := rfl
@[simp] theorem State.setEvtPort_mem (p : Port) (f : EvtPort → EvtPort) : (s.setEvtPort p f).mem = s.mem := rfl
@[simp] theorem State.setEvtPort_fab (p : Port) (f : EvtPort → EvtPort) : (s.setEvtPort p f).fab = s.fab := rfl
@[simp] theorem State.setEvtPort_opt (p : Port) (f : EvtPort → EvtPort) : (s.setEvtPort p f).opt = s.opt := rfl
@[simp] theorem State.setEvtPort_darkFrom (p : Port) (f : EvtPort → EvtPort) : (s.setEvtPort p f).darkFrom = s.darkFrom := rfl
@[simp] theorem State.setEvtPort_sht (p : Port) (f : EvtPort → EvtPort) : (s.setEvtPort p f).sht = s.sht := rfl
@[simp] theorem State.setEvtPort_trigLevel (p : Port) (f : EvtPort → EvtPort) : (s.setEvtPort p f).trigLevel = s.trigLevel := rfl
@[simp] theorem State.setEvtPort_acq (p : Port) (f : EvtPort → EvtPort) : (s.setEvtPort p f).acq = s.acq := rfl
@[simp] theorem State.setEvtPort_phs (p : Port) (f : EvtPort → EvtPort) : (s.setEvtPort p f).phs = s.phs := rfl
@[simp] theorem State.setEvtPort_evt (p : Port) (f : EvtPort → EvtPort) : (s.setEvtPort p f).evt = { s.evt with ports := upd s.evt.ports p f } := rfl
@[simp] theorem State.setEvtPort_alarms (p : Port) (f : EvtPort → EvtPort) : (s.setEvtPort p f).alarms = s.alarms := rfl
@[simp] theorem State.setEvtPort_dts (p : Port) (f : EvtPort → EvtPort) : (s.setEvtPort p f).dts = s.dts := rfl
@[simp] theorem State.setEvtPort_battCorrected (p : Port) (f : EvtPort → EvtPort) : (s.setEvtPort p f).battCorrected = s.battCorrected := rfl
@[simp] theorem State.setEvtPort_battUncorrected (p : Port) (f : EvtPort → EvtPort) : (s.setEvtPort p f).battUncorrected = s.battUncorrected := rfl
@[simp] theorem State.setEvtPort_sup (p : Port) (f : EvtPort → EvtPort) : (s.setEvtPort p f).sup = s.sup := rfl
@[simp] theorem State.setEvtPort_permits (p : Port) (f : EvtPort → EvtPort) : (s.setEvtPort p f).permits = s.permits := rfl
@[simp] theorem State.setEvtPort_als (p : Port) (f : EvtPort → EvtPort) : (s.setEvtPort p f).als = s.als := rfl
@[simp] theorem State.setEvtPort_pnl (p : Port) (f : EvtPort → EvtPort) : (s.setEvtPort p f).pnl = s.pnl := rfl
@[simp] theorem State.setEvtPort_plk (p : Port) (f : EvtPort → EvtPort) : (s.setEvtPort p f).plk = s.plk := rfl
@[simp] theorem State.setEvtPort_mbx (p : Port) (f : EvtPort → EvtPort) : (s.setEvtPort p f).mbx = s.mbx := rfl
@[simp] theorem State.setEvtPort_cmp (p : Port) (f : EvtPort → EvtPort) : (s.setEvtPort p f).cmp = s.cmp := rfl
@[simp] theorem State.setEvtPort_ringCoders (p : Port) (f : EvtPort → EvtPort) : (s.setEvtPort p f).ringCoders = s.ringCoders := rfl
@[simp] theorem State.setEvtPort_lanes (p : Port) (f : EvtPort → EvtPort) : (s.setEvtPort p f).lanes = s.lanes := rfl
@[simp] theorem State.setEvtPort_routes (p : Port) (f : EvtPort → EvtPort) : (s.setEvtPort p f).routes = s.routes := rfl
@[simp] theorem State.setEvtPort_mgmt (p : Port) (f : EvtPort → EvtPort) : (s.setEvtPort p f).mgmt = s.mgmt := rfl
@[simp] theorem State.setEvtPort_pcie (p : Port) (f : EvtPort → EvtPort) : (s.setEvtPort p f).pcie = s.pcie := rfl
@[simp] theorem State.setEvtPort_latches (p : Port) (f : EvtPort → EvtPort) : (s.setEvtPort p f).latches = s.latches := rfl
@[simp] theorem State.setEvtPort_readFailures (p : Port) (f : EvtPort → EvtPort) : (s.setEvtPort p f).readFailures = s.readFailures := rfl

/-! ## `State.setKey` -/

@[simp] theorem State.setKey_pending (k : Fin 8) (f : KeySt → KeySt) : (s.setKey k f).pending = s.pending := rfl
@[simp] theorem State.setKey_now (k : Fin 8) (f : KeySt → KeySt) : (s.setKey k f).now = s.now := rfl
@[simp] theorem State.setKey_free (k : Fin 8) (f : KeySt → KeySt) : (s.setKey k f).free = s.free := rfl
@[simp] theorem State.setKey_outputs (k : Fin 8) (f : KeySt → KeySt) : (s.setKey k f).outputs = s.outputs := rfl
@[simp] theorem State.setKey_power (k : Fin 8) (f : KeySt → KeySt) : (s.setKey k f).power = s.power := rfl
@[simp] theorem State.setKey_hb (k : Fin 8) (f : KeySt → KeySt) : (s.setKey k f).hb = s.hb := rfl
@[simp] theorem State.setKey_bbx (k : Fin 8) (f : KeySt → KeySt) : (s.setKey k f).bbx = s.bbx := rfl
@[simp] theorem State.setKey_flash (k : Fin 8) (f : KeySt → KeySt) : (s.setKey k f).flash = s.flash := rfl
@[simp] theorem State.setKey_cfg (k : Fin 8) (f : KeySt → KeySt) : (s.setKey k f).cfg = s.cfg := rfl
@[simp] theorem State.setKey_tim (k : Fin 8) (f : KeySt → KeySt) : (s.setKey k f).tim = s.tim := rfl
@[simp] theorem State.setKey_tiu (k : Fin 8) (f : KeySt → KeySt) : (s.setKey k f).tiu = s.tiu := rfl
@[simp] theorem State.setKey_mem (k : Fin 8) (f : KeySt → KeySt) : (s.setKey k f).mem = s.mem := rfl
@[simp] theorem State.setKey_fab (k : Fin 8) (f : KeySt → KeySt) : (s.setKey k f).fab = s.fab := rfl
@[simp] theorem State.setKey_opt (k : Fin 8) (f : KeySt → KeySt) : (s.setKey k f).opt = s.opt := rfl
@[simp] theorem State.setKey_darkFrom (k : Fin 8) (f : KeySt → KeySt) : (s.setKey k f).darkFrom = s.darkFrom := rfl
@[simp] theorem State.setKey_sht (k : Fin 8) (f : KeySt → KeySt) : (s.setKey k f).sht = s.sht := rfl
@[simp] theorem State.setKey_trigLevel (k : Fin 8) (f : KeySt → KeySt) : (s.setKey k f).trigLevel = s.trigLevel := rfl
@[simp] theorem State.setKey_acq (k : Fin 8) (f : KeySt → KeySt) : (s.setKey k f).acq = s.acq := rfl
@[simp] theorem State.setKey_phs (k : Fin 8) (f : KeySt → KeySt) : (s.setKey k f).phs = s.phs := rfl
@[simp] theorem State.setKey_evt (k : Fin 8) (f : KeySt → KeySt) : (s.setKey k f).evt = s.evt := rfl
@[simp] theorem State.setKey_alarms (k : Fin 8) (f : KeySt → KeySt) : (s.setKey k f).alarms = s.alarms := rfl
@[simp] theorem State.setKey_dts (k : Fin 8) (f : KeySt → KeySt) : (s.setKey k f).dts = s.dts := rfl
@[simp] theorem State.setKey_battCorrected (k : Fin 8) (f : KeySt → KeySt) : (s.setKey k f).battCorrected = s.battCorrected := rfl
@[simp] theorem State.setKey_battUncorrected (k : Fin 8) (f : KeySt → KeySt) : (s.setKey k f).battUncorrected = s.battUncorrected := rfl
@[simp] theorem State.setKey_sup (k : Fin 8) (f : KeySt → KeySt) : (s.setKey k f).sup = s.sup := rfl
@[simp] theorem State.setKey_permits (k : Fin 8) (f : KeySt → KeySt) : (s.setKey k f).permits = s.permits := rfl
@[simp] theorem State.setKey_als (k : Fin 8) (f : KeySt → KeySt) : (s.setKey k f).als = s.als := rfl
@[simp] theorem State.setKey_pnl (k : Fin 8) (f : KeySt → KeySt) : (s.setKey k f).pnl = { s.pnl with keys := upd s.pnl.keys k f } := rfl
@[simp] theorem State.setKey_plk (k : Fin 8) (f : KeySt → KeySt) : (s.setKey k f).plk = s.plk := rfl
@[simp] theorem State.setKey_mbx (k : Fin 8) (f : KeySt → KeySt) : (s.setKey k f).mbx = s.mbx := rfl
@[simp] theorem State.setKey_cmp (k : Fin 8) (f : KeySt → KeySt) : (s.setKey k f).cmp = s.cmp := rfl
@[simp] theorem State.setKey_ringCoders (k : Fin 8) (f : KeySt → KeySt) : (s.setKey k f).ringCoders = s.ringCoders := rfl
@[simp] theorem State.setKey_lanes (k : Fin 8) (f : KeySt → KeySt) : (s.setKey k f).lanes = s.lanes := rfl
@[simp] theorem State.setKey_routes (k : Fin 8) (f : KeySt → KeySt) : (s.setKey k f).routes = s.routes := rfl
@[simp] theorem State.setKey_mgmt (k : Fin 8) (f : KeySt → KeySt) : (s.setKey k f).mgmt = s.mgmt := rfl
@[simp] theorem State.setKey_pcie (k : Fin 8) (f : KeySt → KeySt) : (s.setKey k f).pcie = s.pcie := rfl
@[simp] theorem State.setKey_latches (k : Fin 8) (f : KeySt → KeySt) : (s.setKey k f).latches = s.latches := rfl
@[simp] theorem State.setKey_readFailures (k : Fin 8) (f : KeySt → KeySt) : (s.setKey k f).readFailures = s.readFailures := rfl

/-! ## `State.setDfu` -/

@[simp] theorem State.setDfu_pending (d : DfuSt) (n : Nat) : (s.setDfu d n).pending = s.pending := rfl
@[simp] theorem State.setDfu_now (d : DfuSt) (n : Nat) : (s.setDfu d n).now = s.now := rfl
@[simp] theorem State.setDfu_free (d : DfuSt) (n : Nat) : (s.setDfu d n).free = s.free := rfl
@[simp] theorem State.setDfu_outputs (d : DfuSt) (n : Nat) : (s.setDfu d n).outputs = s.outputs := rfl
@[simp] theorem State.setDfu_power (d : DfuSt) (n : Nat) : (s.setDfu d n).power = s.power := rfl
@[simp] theorem State.setDfu_hb (d : DfuSt) (n : Nat) : (s.setDfu d n).hb = s.hb := rfl
@[simp] theorem State.setDfu_bbx (d : DfuSt) (n : Nat) : (s.setDfu d n).bbx = s.bbx := rfl
@[simp] theorem State.setDfu_flash (d : DfuSt) (n : Nat) : (s.setDfu d n).flash = s.flash := rfl
@[simp] theorem State.setDfu_cfg (d : DfuSt) (n : Nat) : (s.setDfu d n).cfg = s.cfg := rfl
@[simp] theorem State.setDfu_tim (d : DfuSt) (n : Nat) : (s.setDfu d n).tim = s.tim := rfl
@[simp] theorem State.setDfu_tiu (d : DfuSt) (n : Nat) : (s.setDfu d n).tiu = s.tiu := rfl
@[simp] theorem State.setDfu_mem (d : DfuSt) (n : Nat) : (s.setDfu d n).mem = s.mem := rfl
@[simp] theorem State.setDfu_fab (d : DfuSt) (n : Nat) : (s.setDfu d n).fab = s.fab := rfl
@[simp] theorem State.setDfu_opt (d : DfuSt) (n : Nat) : (s.setDfu d n).opt = s.opt := rfl
@[simp] theorem State.setDfu_darkFrom (d : DfuSt) (n : Nat) : (s.setDfu d n).darkFrom = s.darkFrom := rfl
@[simp] theorem State.setDfu_sht (d : DfuSt) (n : Nat) : (s.setDfu d n).sht = s.sht := rfl
@[simp] theorem State.setDfu_trigLevel (d : DfuSt) (n : Nat) : (s.setDfu d n).trigLevel = s.trigLevel := rfl
@[simp] theorem State.setDfu_acq (d : DfuSt) (n : Nat) : (s.setDfu d n).acq = s.acq := rfl
@[simp] theorem State.setDfu_phs (d : DfuSt) (n : Nat) : (s.setDfu d n).phs = s.phs := rfl
@[simp] theorem State.setDfu_evt (d : DfuSt) (n : Nat) : (s.setDfu d n).evt = s.evt := rfl
@[simp] theorem State.setDfu_alarms (d : DfuSt) (n : Nat) : (s.setDfu d n).alarms = s.alarms := rfl
@[simp] theorem State.setDfu_dts (d : DfuSt) (n : Nat) : (s.setDfu d n).dts = s.dts := rfl
@[simp] theorem State.setDfu_battCorrected (d : DfuSt) (n : Nat) : (s.setDfu d n).battCorrected = s.battCorrected := rfl
@[simp] theorem State.setDfu_battUncorrected (d : DfuSt) (n : Nat) : (s.setDfu d n).battUncorrected = s.battUncorrected := rfl
@[simp] theorem State.setDfu_sup (d : DfuSt) (n : Nat) : (s.setDfu d n).sup = s.sup := rfl
@[simp] theorem State.setDfu_permits (d : DfuSt) (n : Nat) : (s.setDfu d n).permits = s.permits := rfl
@[simp] theorem State.setDfu_als (d : DfuSt) (n : Nat) : (s.setDfu d n).als = s.als := rfl
@[simp] theorem State.setDfu_pnl (d : DfuSt) (n : Nat) : (s.setDfu d n).pnl = s.pnl := rfl
@[simp] theorem State.setDfu_plk (d : DfuSt) (n : Nat) : (s.setDfu d n).plk = { s.plk with dfu := d, status := n } := rfl
@[simp] theorem State.setDfu_mbx (d : DfuSt) (n : Nat) : (s.setDfu d n).mbx = s.mbx := rfl
@[simp] theorem State.setDfu_cmp (d : DfuSt) (n : Nat) : (s.setDfu d n).cmp = s.cmp := rfl
@[simp] theorem State.setDfu_ringCoders (d : DfuSt) (n : Nat) : (s.setDfu d n).ringCoders = s.ringCoders := rfl
@[simp] theorem State.setDfu_lanes (d : DfuSt) (n : Nat) : (s.setDfu d n).lanes = s.lanes := rfl
@[simp] theorem State.setDfu_routes (d : DfuSt) (n : Nat) : (s.setDfu d n).routes = s.routes := rfl
@[simp] theorem State.setDfu_mgmt (d : DfuSt) (n : Nat) : (s.setDfu d n).mgmt = s.mgmt := rfl
@[simp] theorem State.setDfu_pcie (d : DfuSt) (n : Nat) : (s.setDfu d n).pcie = s.pcie := rfl
@[simp] theorem State.setDfu_latches (d : DfuSt) (n : Nat) : (s.setDfu d n).latches = s.latches := rfl
@[simp] theorem State.setDfu_readFailures (d : DfuSt) (n : Nat) : (s.setDfu d n).readFailures = s.readFailures := rfl

/-! ## `State.setStaging` -/

@[simp] theorem State.setStaging_pending (g : Staging) : (s.setStaging g).pending = s.pending := rfl
@[simp] theorem State.setStaging_now (g : Staging) : (s.setStaging g).now = s.now := rfl
@[simp] theorem State.setStaging_free (g : Staging) : (s.setStaging g).free = s.free := rfl
@[simp] theorem State.setStaging_outputs (g : Staging) : (s.setStaging g).outputs = s.outputs := rfl
@[simp] theorem State.setStaging_power (g : Staging) : (s.setStaging g).power = s.power := rfl
@[simp] theorem State.setStaging_hb (g : Staging) : (s.setStaging g).hb = s.hb := rfl
@[simp] theorem State.setStaging_bbx (g : Staging) : (s.setStaging g).bbx = s.bbx := rfl
@[simp] theorem State.setStaging_flash (g : Staging) : (s.setStaging g).flash = s.flash := rfl
@[simp] theorem State.setStaging_cfg (g : Staging) : (s.setStaging g).cfg = { s.cfg with staging := some g } := rfl
@[simp] theorem State.setStaging_tim (g : Staging) : (s.setStaging g).tim = s.tim := rfl
@[simp] theorem State.setStaging_tiu (g : Staging) : (s.setStaging g).tiu = s.tiu := rfl
@[simp] theorem State.setStaging_mem (g : Staging) : (s.setStaging g).mem = s.mem := rfl
@[simp] theorem State.setStaging_fab (g : Staging) : (s.setStaging g).fab = s.fab := rfl
@[simp] theorem State.setStaging_opt (g : Staging) : (s.setStaging g).opt = s.opt := rfl
@[simp] theorem State.setStaging_darkFrom (g : Staging) : (s.setStaging g).darkFrom = s.darkFrom := rfl
@[simp] theorem State.setStaging_sht (g : Staging) : (s.setStaging g).sht = s.sht := rfl
@[simp] theorem State.setStaging_trigLevel (g : Staging) : (s.setStaging g).trigLevel = s.trigLevel := rfl
@[simp] theorem State.setStaging_acq (g : Staging) : (s.setStaging g).acq = s.acq := rfl
@[simp] theorem State.setStaging_phs (g : Staging) : (s.setStaging g).phs = s.phs := rfl
@[simp] theorem State.setStaging_evt (g : Staging) : (s.setStaging g).evt = s.evt := rfl
@[simp] theorem State.setStaging_alarms (g : Staging) : (s.setStaging g).alarms = s.alarms := rfl
@[simp] theorem State.setStaging_dts (g : Staging) : (s.setStaging g).dts = s.dts := rfl
@[simp] theorem State.setStaging_battCorrected (g : Staging) : (s.setStaging g).battCorrected = s.battCorrected := rfl
@[simp] theorem State.setStaging_battUncorrected (g : Staging) : (s.setStaging g).battUncorrected = s.battUncorrected := rfl
@[simp] theorem State.setStaging_sup (g : Staging) : (s.setStaging g).sup = s.sup := rfl
@[simp] theorem State.setStaging_permits (g : Staging) : (s.setStaging g).permits = s.permits := rfl
@[simp] theorem State.setStaging_als (g : Staging) : (s.setStaging g).als = s.als := rfl
@[simp] theorem State.setStaging_pnl (g : Staging) : (s.setStaging g).pnl = s.pnl := rfl
@[simp] theorem State.setStaging_plk (g : Staging) : (s.setStaging g).plk = s.plk := rfl
@[simp] theorem State.setStaging_mbx (g : Staging) : (s.setStaging g).mbx = s.mbx := rfl
@[simp] theorem State.setStaging_cmp (g : Staging) : (s.setStaging g).cmp = s.cmp := rfl
@[simp] theorem State.setStaging_ringCoders (g : Staging) : (s.setStaging g).ringCoders = s.ringCoders := rfl
@[simp] theorem State.setStaging_lanes (g : Staging) : (s.setStaging g).lanes = s.lanes := rfl
@[simp] theorem State.setStaging_routes (g : Staging) : (s.setStaging g).routes = s.routes := rfl
@[simp] theorem State.setStaging_mgmt (g : Staging) : (s.setStaging g).mgmt = s.mgmt := rfl
@[simp] theorem State.setStaging_pcie (g : Staging) : (s.setStaging g).pcie = s.pcie := rfl
@[simp] theorem State.setStaging_latches (g : Staging) : (s.setStaging g).latches = s.latches := rfl
@[simp] theorem State.setStaging_readFailures (g : Staging) : (s.setStaging g).readFailures = s.readFailures := rfl

/-! ## `State.fencedFlits` -/

@[simp] theorem State.fencedFlits_pending (n : Nat) : (s.fencedFlits n).pending = s.pending := rfl
@[simp] theorem State.fencedFlits_now (n : Nat) : (s.fencedFlits n).now = s.now := rfl
@[simp] theorem State.fencedFlits_free (n : Nat) : (s.fencedFlits n).free = s.free := rfl
@[simp] theorem State.fencedFlits_outputs (n : Nat) : (s.fencedFlits n).outputs = s.outputs := rfl
@[simp] theorem State.fencedFlits_power (n : Nat) : (s.fencedFlits n).power = s.power := rfl
@[simp] theorem State.fencedFlits_hb (n : Nat) : (s.fencedFlits n).hb = s.hb := rfl
@[simp] theorem State.fencedFlits_bbx (n : Nat) : (s.fencedFlits n).bbx = s.bbx := rfl
@[simp] theorem State.fencedFlits_flash (n : Nat) : (s.fencedFlits n).flash = s.flash := rfl
@[simp] theorem State.fencedFlits_cfg (n : Nat) : (s.fencedFlits n).cfg = s.cfg := rfl
@[simp] theorem State.fencedFlits_tim (n : Nat) : (s.fencedFlits n).tim = s.tim := rfl
@[simp] theorem State.fencedFlits_tiu (n : Nat) : (s.fencedFlits n).tiu = s.tiu := rfl
@[simp] theorem State.fencedFlits_mem (n : Nat) : (s.fencedFlits n).mem = s.mem := rfl
@[simp] theorem State.fencedFlits_fab (n : Nat) : (s.fencedFlits n).fab = { s.fab with fencedDiscards := s.fab.fencedDiscards + BitVec.ofNat 64 n } := rfl
@[simp] theorem State.fencedFlits_opt (n : Nat) : (s.fencedFlits n).opt = s.opt := rfl
@[simp] theorem State.fencedFlits_darkFrom (n : Nat) : (s.fencedFlits n).darkFrom = s.darkFrom := rfl
@[simp] theorem State.fencedFlits_sht (n : Nat) : (s.fencedFlits n).sht = s.sht := rfl
@[simp] theorem State.fencedFlits_trigLevel (n : Nat) : (s.fencedFlits n).trigLevel = s.trigLevel := rfl
@[simp] theorem State.fencedFlits_acq (n : Nat) : (s.fencedFlits n).acq = s.acq := rfl
@[simp] theorem State.fencedFlits_phs (n : Nat) : (s.fencedFlits n).phs = s.phs := rfl
@[simp] theorem State.fencedFlits_evt (n : Nat) : (s.fencedFlits n).evt = s.evt := rfl
@[simp] theorem State.fencedFlits_alarms (n : Nat) : (s.fencedFlits n).alarms = s.alarms := rfl
@[simp] theorem State.fencedFlits_dts (n : Nat) : (s.fencedFlits n).dts = s.dts := rfl
@[simp] theorem State.fencedFlits_battCorrected (n : Nat) : (s.fencedFlits n).battCorrected = s.battCorrected := rfl
@[simp] theorem State.fencedFlits_battUncorrected (n : Nat) : (s.fencedFlits n).battUncorrected = s.battUncorrected := rfl
@[simp] theorem State.fencedFlits_sup (n : Nat) : (s.fencedFlits n).sup = s.sup := rfl
@[simp] theorem State.fencedFlits_permits (n : Nat) : (s.fencedFlits n).permits = s.permits := rfl
@[simp] theorem State.fencedFlits_als (n : Nat) : (s.fencedFlits n).als = s.als := rfl
@[simp] theorem State.fencedFlits_pnl (n : Nat) : (s.fencedFlits n).pnl = s.pnl := rfl
@[simp] theorem State.fencedFlits_plk (n : Nat) : (s.fencedFlits n).plk = s.plk := rfl
@[simp] theorem State.fencedFlits_mbx (n : Nat) : (s.fencedFlits n).mbx = s.mbx := rfl
@[simp] theorem State.fencedFlits_cmp (n : Nat) : (s.fencedFlits n).cmp = s.cmp := rfl
@[simp] theorem State.fencedFlits_ringCoders (n : Nat) : (s.fencedFlits n).ringCoders = s.ringCoders := rfl
@[simp] theorem State.fencedFlits_lanes (n : Nat) : (s.fencedFlits n).lanes = s.lanes := rfl
@[simp] theorem State.fencedFlits_routes (n : Nat) : (s.fencedFlits n).routes = s.routes := rfl
@[simp] theorem State.fencedFlits_mgmt (n : Nat) : (s.fencedFlits n).mgmt = s.mgmt := rfl
@[simp] theorem State.fencedFlits_pcie (n : Nat) : (s.fencedFlits n).pcie = s.pcie := rfl
@[simp] theorem State.fencedFlits_latches (n : Nat) : (s.fencedFlits n).latches = s.latches := rfl
@[simp] theorem State.fencedFlits_readFailures (n : Nat) : (s.fencedFlits n).readFailures = s.readFailures := rfl

/-! ## `State.mbxLock` -/

@[simp] theorem State.mbxLock_pending : (s.mbxLock).pending = s.pending := rfl
@[simp] theorem State.mbxLock_now : (s.mbxLock).now = s.now := rfl
@[simp] theorem State.mbxLock_free : (s.mbxLock).free = s.free := rfl
@[simp] theorem State.mbxLock_outputs : (s.mbxLock).outputs = s.outputs := rfl
@[simp] theorem State.mbxLock_power : (s.mbxLock).power = s.power := rfl
@[simp] theorem State.mbxLock_hb : (s.mbxLock).hb = s.hb := rfl
@[simp] theorem State.mbxLock_bbx : (s.mbxLock).bbx = s.bbx := rfl
@[simp] theorem State.mbxLock_flash : (s.mbxLock).flash = s.flash := rfl
@[simp] theorem State.mbxLock_cfg : (s.mbxLock).cfg = s.cfg := rfl
@[simp] theorem State.mbxLock_tim : (s.mbxLock).tim = s.tim := rfl
@[simp] theorem State.mbxLock_tiu : (s.mbxLock).tiu = s.tiu := rfl
@[simp] theorem State.mbxLock_mem : (s.mbxLock).mem = s.mem := rfl
@[simp] theorem State.mbxLock_fab : (s.mbxLock).fab = s.fab := rfl
@[simp] theorem State.mbxLock_opt : (s.mbxLock).opt = s.opt := rfl
@[simp] theorem State.mbxLock_darkFrom : (s.mbxLock).darkFrom = s.darkFrom := rfl
@[simp] theorem State.mbxLock_sht : (s.mbxLock).sht = s.sht := rfl
@[simp] theorem State.mbxLock_trigLevel : (s.mbxLock).trigLevel = s.trigLevel := rfl
@[simp] theorem State.mbxLock_acq : (s.mbxLock).acq = s.acq := rfl
@[simp] theorem State.mbxLock_phs : (s.mbxLock).phs = s.phs := rfl
@[simp] theorem State.mbxLock_evt : (s.mbxLock).evt = s.evt := rfl
@[simp] theorem State.mbxLock_alarms : (s.mbxLock).alarms = s.alarms := rfl
@[simp] theorem State.mbxLock_dts : (s.mbxLock).dts = s.dts := rfl
@[simp] theorem State.mbxLock_battCorrected : (s.mbxLock).battCorrected = s.battCorrected := rfl
@[simp] theorem State.mbxLock_battUncorrected : (s.mbxLock).battUncorrected = s.battUncorrected := rfl
@[simp] theorem State.mbxLock_sup : (s.mbxLock).sup = s.sup := rfl
@[simp] theorem State.mbxLock_permits : (s.mbxLock).permits = s.permits := rfl
@[simp] theorem State.mbxLock_als : (s.mbxLock).als = s.als := rfl
@[simp] theorem State.mbxLock_pnl : (s.mbxLock).pnl = s.pnl := rfl
@[simp] theorem State.mbxLock_plk : (s.mbxLock).plk = s.plk := rfl
@[simp] theorem State.mbxLock_mbx : (s.mbxLock).mbx = { s.mbx with unlocked := false, firstKey := none } := rfl
@[simp] theorem State.mbxLock_cmp : (s.mbxLock).cmp = s.cmp := rfl
@[simp] theorem State.mbxLock_ringCoders : (s.mbxLock).ringCoders = s.ringCoders := rfl
@[simp] theorem State.mbxLock_lanes : (s.mbxLock).lanes = s.lanes := rfl
@[simp] theorem State.mbxLock_routes : (s.mbxLock).routes = s.routes := rfl
@[simp] theorem State.mbxLock_mgmt : (s.mbxLock).mgmt = s.mgmt := rfl
@[simp] theorem State.mbxLock_pcie : (s.mbxLock).pcie = s.pcie := rfl
@[simp] theorem State.mbxLock_latches : (s.mbxLock).latches = s.latches := rfl
@[simp] theorem State.mbxLock_readFailures : (s.mbxLock).readFailures = s.readFailures := rfl

/-! ## `State.pauseRing` -/

@[simp] theorem State.pauseRing_pending (k : Fin 3) : (s.pauseRing k).pending = s.pending := rfl
@[simp] theorem State.pauseRing_now (k : Fin 3) : (s.pauseRing k).now = s.now := rfl
@[simp] theorem State.pauseRing_free (k : Fin 3) : (s.pauseRing k).free = s.free := rfl
@[simp] theorem State.pauseRing_outputs (k : Fin 3) : (s.pauseRing k).outputs = s.outputs := rfl
@[simp] theorem State.pauseRing_power (k : Fin 3) : (s.pauseRing k).power = s.power := rfl
@[simp] theorem State.pauseRing_hb (k : Fin 3) : (s.pauseRing k).hb = s.hb := rfl
@[simp] theorem State.pauseRing_bbx (k : Fin 3) : (s.pauseRing k).bbx = s.bbx := rfl
@[simp] theorem State.pauseRing_flash (k : Fin 3) : (s.pauseRing k).flash = s.flash := rfl
@[simp] theorem State.pauseRing_cfg (k : Fin 3) : (s.pauseRing k).cfg = s.cfg := rfl
@[simp] theorem State.pauseRing_tim (k : Fin 3) : (s.pauseRing k).tim = s.tim := rfl
@[simp] theorem State.pauseRing_tiu (k : Fin 3) : (s.pauseRing k).tiu = s.tiu := rfl
@[simp] theorem State.pauseRing_mem (k : Fin 3) : (s.pauseRing k).mem = { s.mem with rings := upd s.mem.rings k fun x => { x with lost := true } } := rfl
@[simp] theorem State.pauseRing_fab (k : Fin 3) : (s.pauseRing k).fab = s.fab := rfl
@[simp] theorem State.pauseRing_opt (k : Fin 3) : (s.pauseRing k).opt = s.opt := rfl
@[simp] theorem State.pauseRing_darkFrom (k : Fin 3) : (s.pauseRing k).darkFrom = s.darkFrom := rfl
@[simp] theorem State.pauseRing_sht (k : Fin 3) : (s.pauseRing k).sht = s.sht := rfl
@[simp] theorem State.pauseRing_trigLevel (k : Fin 3) : (s.pauseRing k).trigLevel = s.trigLevel := rfl
@[simp] theorem State.pauseRing_acq (k : Fin 3) : (s.pauseRing k).acq = s.acq := rfl
@[simp] theorem State.pauseRing_phs (k : Fin 3) : (s.pauseRing k).phs = s.phs := rfl
@[simp] theorem State.pauseRing_evt (k : Fin 3) : (s.pauseRing k).evt = s.evt := rfl
@[simp] theorem State.pauseRing_alarms (k : Fin 3) : (s.pauseRing k).alarms = s.alarms := rfl
@[simp] theorem State.pauseRing_dts (k : Fin 3) : (s.pauseRing k).dts = s.dts := rfl
@[simp] theorem State.pauseRing_battCorrected (k : Fin 3) : (s.pauseRing k).battCorrected = s.battCorrected := rfl
@[simp] theorem State.pauseRing_battUncorrected (k : Fin 3) : (s.pauseRing k).battUncorrected = s.battUncorrected := rfl
@[simp] theorem State.pauseRing_sup (k : Fin 3) : (s.pauseRing k).sup = s.sup := rfl
@[simp] theorem State.pauseRing_permits (k : Fin 3) : (s.pauseRing k).permits = s.permits := rfl
@[simp] theorem State.pauseRing_als (k : Fin 3) : (s.pauseRing k).als = s.als := rfl
@[simp] theorem State.pauseRing_pnl (k : Fin 3) : (s.pauseRing k).pnl = s.pnl := rfl
@[simp] theorem State.pauseRing_plk (k : Fin 3) : (s.pauseRing k).plk = s.plk := rfl
@[simp] theorem State.pauseRing_mbx (k : Fin 3) : (s.pauseRing k).mbx = s.mbx := rfl
@[simp] theorem State.pauseRing_cmp (k : Fin 3) : (s.pauseRing k).cmp = s.cmp := rfl
@[simp] theorem State.pauseRing_ringCoders (k : Fin 3) : (s.pauseRing k).ringCoders = s.ringCoders := rfl
@[simp] theorem State.pauseRing_lanes (k : Fin 3) : (s.pauseRing k).lanes = s.lanes := rfl
@[simp] theorem State.pauseRing_routes (k : Fin 3) : (s.pauseRing k).routes = s.routes := rfl
@[simp] theorem State.pauseRing_mgmt (k : Fin 3) : (s.pauseRing k).mgmt = s.mgmt := rfl
@[simp] theorem State.pauseRing_pcie (k : Fin 3) : (s.pauseRing k).pcie = s.pcie := rfl
@[simp] theorem State.pauseRing_latches (k : Fin 3) : (s.pauseRing k).latches = s.latches := rfl
@[simp] theorem State.pauseRing_readFailures (k : Fin 3) : (s.pauseRing k).readFailures = s.readFailures := rfl

end Sys2Proof.Machine
end

