-- ==== Sys2Proof/Laws/Frames.lean ====
section
/-! SUPPORT. What the shared operations leave as it was: the hardwired inputs' state, the optics of the ports (gates and shutters), the
contents of flash and DRAM, the bookkeeping of the fence domains, and the power, configuration, time, panel and mailbox blocks with
the both-failed latch, and the other blocks. One theorem per operation; an operation that changes some of them names those it keeps. -/

namespace Sys2Proof.Machine

/-- The five stay: states of the hardwired inputs, optics of the ports, contents of flash and of DRAM, fence domains. -/
def Keeps (t s : State) : Prop :=
  t.permits.asserted = s.permits.asserted ∧ t.opt.ports = s.opt.ports ∧ t.flash.cells = s.flash.cells ∧
    t.mem.cells = s.mem.cells ∧ t.hb.doms = s.hb.doms

/-- The eight stay: supplies and restart, configuration, time, panel, mailbox, the both-failed latch, the queue of commands and
the model's clock. -/
def Still (t s : State) : Prop :=
  t.power = s.power ∧ t.cfg = s.cfg ∧ t.tim = s.tim ∧ t.pnl = s.pnl ∧ t.mbx = s.mbx ∧ t.hb.bothFailed = s.hb.bothFailed ∧
    t.pending = s.pending ∧ t.now = s.now

theorem Still.trans {a b c : State} (h : Still a b) (k : Still b c) : Still a c :=
  ⟨h.1.trans k.1, h.2.1.trans k.2.1, h.2.2.1.trans k.2.2.1, h.2.2.2.1.trans k.2.2.2.1, h.2.2.2.2.1.trans k.2.2.2.2.1,
    h.2.2.2.2.2.1.trans k.2.2.2.2.2.1, h.2.2.2.2.2.2.1.trans k.2.2.2.2.2.2.1, h.2.2.2.2.2.2.2.trans k.2.2.2.2.2.2.2⟩

theorem still_ite {c : Prop} [Decidable c] {a b s : State} (ha : Still a s) (hb : Still b s) : Still (if c then a else b) s := by
  split
  · exact ha
  · exact hb

theorem still_foldl {α : Type} (f : State → α → State) (h : ∀ s a, Still (f s a) s) (l : List α) (s : State) :
    Still (l.foldl f s) s := by
  induction l generalizing s with
  | nil => exact ⟨rfl, rfl, rfl, rfl, rfl, rfl, rfl, rfl⟩
  | cons x t ih => exact (ih (f s x)).trans (h s x)

/-- A part of the state stays. -/
def Same {α : Type} (π : State → α) (t s : State) : Prop := π t = π s

theorem Same.trans {α : Type} {π : State → α} {a b c : State} (h : Same π a b) (k : Same π b c) : Same π a c := Eq.trans h k

theorem same_ite {α : Type} {π : State → α} {c : Prop} [Decidable c] {a b s : State} (ha : Same π a s) (hb : Same π b s) :
    Same π (if c then a else b) s := by
  split
  · exact ha
  · exact hb

theorem same_foldl {α β : Type} {π : State → β} (f : State → α → State) (h : ∀ s a, Same π (f s a) s) (l : List α) (s : State) :
    Same π (l.foldl f s) s := by
  induction l generalizing s with
  | nil => rfl
  | cons x t ih => exact (ih (f s x)).trans (h s x)

theorem same_foldl_fst {α β γ : Type} {π : State → γ} (f : State × β → α → State × β) (h : ∀ r a, Same π (f r a).1 r.1)
    (l : List α) (r : State × β) : Same π (l.foldl f r).1 r.1 := by
  induction l generalizing r with
  | nil => rfl
  | cons x t ih => exact (ih (f r x)).trans (h r x)

theorem Keeps.trans {a b c : State} (h : Keeps a b) (k : Keeps b c) : Keeps a c :=
  ⟨h.1.trans k.1, h.2.1.trans k.2.1, h.2.2.1.trans k.2.2.1, h.2.2.2.1.trans k.2.2.2.1, h.2.2.2.2.trans k.2.2.2.2⟩

theorem keeps_ite {c : Prop} [Decidable c] {a b s : State} (ha : Keeps a s) (hb : Keeps b s) : Keeps (if c then a else b) s := by
  split
  · exact ha
  · exact hb

theorem keeps_foldl {α : Type} (f : State → α → State) (h : ∀ s a, Keeps (f s a) s) (l : List α) (s : State) :
    Keeps (l.foldl f s) s := by
  induction l generalizing s with
  | nil => exact ⟨rfl, rfl, rfl, rfl, rfl⟩
  | cons x t ih => exact (ih (f s x)).trans (h s x)

section
variable (c : Prop) [Decidable c] (a b : State)

@[simp] theorem ite_permits_asserted : (if c then a else b).permits.asserted = if c then a.permits.asserted else b.permits.asserted := by split <;> rfl
@[simp] theorem ite_opt_ports : (if c then a else b).opt.ports = if c then a.opt.ports else b.opt.ports := by split <;> rfl
@[simp] theorem ite_flash_cells : (if c then a else b).flash.cells = if c then a.flash.cells else b.flash.cells := by split <;> rfl
@[simp] theorem ite_mem_cells : (if c then a else b).mem.cells = if c then a.mem.cells else b.mem.cells := by split <;> rfl
@[simp] theorem ite_hb_doms : (if c then a else b).hb.doms = if c then a.hb.doms else b.hb.doms := by split <;> rfl
@[simp] theorem ite_power : (if c then a else b).power = if c then a.power else b.power := by split <;> rfl
@[simp] theorem ite_cfg : (if c then a else b).cfg = if c then a.cfg else b.cfg := by split <;> rfl
@[simp] theorem ite_tim : (if c then a else b).tim = if c then a.tim else b.tim := by split <;> rfl
@[simp] theorem ite_pnl : (if c then a else b).pnl = if c then a.pnl else b.pnl := by split <;> rfl
@[simp] theorem ite_mbx : (if c then a else b).mbx = if c then a.mbx else b.mbx := by split <;> rfl
@[simp] theorem ite_hb_bothFailed : (if c then a else b).hb.bothFailed = if c then a.hb.bothFailed else b.hb.bothFailed := by split <;> rfl
@[simp] theorem ite_pending : (if c then a else b).pending = if c then a.pending else b.pending := by split <;> rfl
@[simp] theorem ite_now : (if c then a else b).now = if c then a.now else b.now := by split <;> rfl
@[simp] theorem ite_tiu : (if c then a else b).tiu = if c then a.tiu else b.tiu := by split <;> rfl
@[simp] theorem ite_sht : (if c then a else b).sht = if c then a.sht else b.sht := by split <;> rfl
@[simp] theorem ite_acq : (if c then a else b).acq = if c then a.acq else b.acq := by split <;> rfl
@[simp] theorem ite_phs : (if c then a else b).phs = if c then a.phs else b.phs := by split <;> rfl
@[simp] theorem ite_evt : (if c then a else b).evt = if c then a.evt else b.evt := by split <;> rfl
@[simp] theorem ite_alarms : (if c then a else b).alarms = if c then a.alarms else b.alarms := by split <;> rfl
@[simp] theorem ite_dts : (if c then a else b).dts = if c then a.dts else b.dts := by split <;> rfl
@[simp] theorem ite_sup : (if c then a else b).sup = if c then a.sup else b.sup := by split <;> rfl
@[simp] theorem ite_permits : (if c then a else b).permits = if c then a.permits else b.permits := by split <;> rfl
@[simp] theorem ite_als : (if c then a else b).als = if c then a.als else b.als := by split <;> rfl
@[simp] theorem ite_plk : (if c then a else b).plk = if c then a.plk else b.plk := by split <;> rfl
@[simp] theorem ite_lanes : (if c then a else b).lanes = if c then a.lanes else b.lanes := by split <;> rfl
@[simp] theorem ite_mgmt : (if c then a else b).mgmt = if c then a.mgmt else b.mgmt := by split <;> rfl
@[simp] theorem ite_trigLevel : (if c then a else b).trigLevel = if c then a.trigLevel else b.trigLevel := by split <;> rfl
@[simp] theorem ite_opt : (if c then a else b).opt = if c then a.opt else b.opt := by split <;> rfl

end

@[simp] theorem foldl_permits_asserted {α : Type} (f : State → α → State) (h : ∀ s a, (f s a).permits.asserted = s.permits.asserted) (l : List α) (s : State) :
    (l.foldl f s).permits.asserted = s.permits.asserted := by
  induction l generalizing s with
  | nil => rfl
  | cons x t ih => rw [List.foldl_cons, ih, h]

@[simp] theorem foldl_opt_ports {α : Type} (f : State → α → State) (h : ∀ s a, (f s a).opt.ports = s.opt.ports) (l : List α) (s : State) :
    (l.foldl f s).opt.ports = s.opt.ports := by
  induction l generalizing s with
  | nil => rfl
  | cons x t ih => rw [List.foldl_cons, ih, h]

@[simp] theorem foldl_flash_cells {α : Type} (f : State → α → State) (h : ∀ s a, (f s a).flash.cells = s.flash.cells) (l : List α) (s : State) :
    (l.foldl f s).flash.cells = s.flash.cells := by
  induction l generalizing s with
  | nil => rfl
  | cons x t ih => rw [List.foldl_cons, ih, h]

@[simp] theorem foldl_mem_cells {α : Type} (f : State → α → State) (h : ∀ s a, (f s a).mem.cells = s.mem.cells) (l : List α) (s : State) :
    (l.foldl f s).mem.cells = s.mem.cells := by
  induction l generalizing s with
  | nil => rfl
  | cons x t ih => rw [List.foldl_cons, ih, h]

@[simp] theorem foldl_hb_doms {α : Type} (f : State → α → State) (h : ∀ s a, (f s a).hb.doms = s.hb.doms) (l : List α) (s : State) :
    (l.foldl f s).hb.doms = s.hb.doms := by
  induction l generalizing s with
  | nil => rfl
  | cons x t ih => rw [List.foldl_cons, ih, h]

@[simp] theorem foldl_power {α : Type} (f : State → α → State) (h : ∀ s a, (f s a).power = s.power) (l : List α) (s : State) :
    (l.foldl f s).power = s.power := by
  induction l generalizing s with
  | nil => rfl
  | cons x t ih => rw [List.foldl_cons, ih, h]

@[simp] theorem foldl_cfg {α : Type} (f : State → α → State) (h : ∀ s a, (f s a).cfg = s.cfg) (l : List α) (s : State) :
    (l.foldl f s).cfg = s.cfg := by
  induction l generalizing s with
  | nil => rfl
  | cons x t ih => rw [List.foldl_cons, ih, h]

@[simp] theorem foldl_tim {α : Type} (f : State → α → State) (h : ∀ s a, (f s a).tim = s.tim) (l : List α) (s : State) :
    (l.foldl f s).tim = s.tim := by
  induction l generalizing s with
  | nil => rfl
  | cons x t ih => rw [List.foldl_cons, ih, h]

@[simp] theorem foldl_pnl {α : Type} (f : State → α → State) (h : ∀ s a, (f s a).pnl = s.pnl) (l : List α) (s : State) :
    (l.foldl f s).pnl = s.pnl := by
  induction l generalizing s with
  | nil => rfl
  | cons x t ih => rw [List.foldl_cons, ih, h]

@[simp] theorem foldl_mbx {α : Type} (f : State → α → State) (h : ∀ s a, (f s a).mbx = s.mbx) (l : List α) (s : State) :
    (l.foldl f s).mbx = s.mbx := by
  induction l generalizing s with
  | nil => rfl
  | cons x t ih => rw [List.foldl_cons, ih, h]

@[simp] theorem foldl_hb_bothFailed {α : Type} (f : State → α → State) (h : ∀ s a, (f s a).hb.bothFailed = s.hb.bothFailed) (l : List α) (s : State) :
    (l.foldl f s).hb.bothFailed = s.hb.bothFailed := by
  induction l generalizing s with
  | nil => rfl
  | cons x t ih => rw [List.foldl_cons, ih, h]

@[simp] theorem foldl_pending {α : Type} (f : State → α → State) (h : ∀ s a, (f s a).pending = s.pending) (l : List α) (s : State) :
    (l.foldl f s).pending = s.pending := by
  induction l generalizing s with
  | nil => rfl
  | cons x t ih => rw [List.foldl_cons, ih, h]

@[simp] theorem foldl_now {α : Type} (f : State → α → State) (h : ∀ s a, (f s a).now = s.now) (l : List α) (s : State) :
    (l.foldl f s).now = s.now := by
  induction l generalizing s with
  | nil => rfl
  | cons x t ih => rw [List.foldl_cons, ih, h]

@[simp] theorem foldl_tiu {α : Type} (f : State → α → State) (h : ∀ s a, (f s a).tiu = s.tiu) (l : List α) (s : State) :
    (l.foldl f s).tiu = s.tiu := by
  induction l generalizing s with
  | nil => rfl
  | cons x t ih => rw [List.foldl_cons, ih, h]

@[simp] theorem foldl_sht {α : Type} (f : State → α → State) (h : ∀ s a, (f s a).sht = s.sht) (l : List α) (s : State) :
    (l.foldl f s).sht = s.sht := by
  induction l generalizing s with
  | nil => rfl
  | cons x t ih => rw [List.foldl_cons, ih, h]

@[simp] theorem foldl_acq {α : Type} (f : State → α → State) (h : ∀ s a, (f s a).acq = s.acq) (l : List α) (s : State) :
    (l.foldl f s).acq = s.acq := by
  induction l generalizing s with
  | nil => rfl
  | cons x t ih => rw [List.foldl_cons, ih, h]

@[simp] theorem foldl_phs {α : Type} (f : State → α → State) (h : ∀ s a, (f s a).phs = s.phs) (l : List α) (s : State) :
    (l.foldl f s).phs = s.phs := by
  induction l generalizing s with
  | nil => rfl
  | cons x t ih => rw [List.foldl_cons, ih, h]

@[simp] theorem foldl_evt {α : Type} (f : State → α → State) (h : ∀ s a, (f s a).evt = s.evt) (l : List α) (s : State) :
    (l.foldl f s).evt = s.evt := by
  induction l generalizing s with
  | nil => rfl
  | cons x t ih => rw [List.foldl_cons, ih, h]

@[simp] theorem foldl_alarms {α : Type} (f : State → α → State) (h : ∀ s a, (f s a).alarms = s.alarms) (l : List α) (s : State) :
    (l.foldl f s).alarms = s.alarms := by
  induction l generalizing s with
  | nil => rfl
  | cons x t ih => rw [List.foldl_cons, ih, h]

@[simp] theorem foldl_dts {α : Type} (f : State → α → State) (h : ∀ s a, (f s a).dts = s.dts) (l : List α) (s : State) :
    (l.foldl f s).dts = s.dts := by
  induction l generalizing s with
  | nil => rfl
  | cons x t ih => rw [List.foldl_cons, ih, h]

@[simp] theorem foldl_sup {α : Type} (f : State → α → State) (h : ∀ s a, (f s a).sup = s.sup) (l : List α) (s : State) :
    (l.foldl f s).sup = s.sup := by
  induction l generalizing s with
  | nil => rfl
  | cons x t ih => rw [List.foldl_cons, ih, h]

@[simp] theorem foldl_permits {α : Type} (f : State → α → State) (h : ∀ s a, (f s a).permits = s.permits) (l : List α) (s : State) :
    (l.foldl f s).permits = s.permits := by
  induction l generalizing s with
  | nil => rfl
  | cons x t ih => rw [List.foldl_cons, ih, h]

@[simp] theorem foldl_als {α : Type} (f : State → α → State) (h : ∀ s a, (f s a).als = s.als) (l : List α) (s : State) :
    (l.foldl f s).als = s.als := by
  induction l generalizing s with
  | nil => rfl
  | cons x t ih => rw [List.foldl_cons, ih, h]

@[simp] theorem foldl_plk {α : Type} (f : State → α → State) (h : ∀ s a, (f s a).plk = s.plk) (l : List α) (s : State) :
    (l.foldl f s).plk = s.plk := by
  induction l generalizing s with
  | nil => rfl
  | cons x t ih => rw [List.foldl_cons, ih, h]

@[simp] theorem foldl_lanes {α : Type} (f : State → α → State) (h : ∀ s a, (f s a).lanes = s.lanes) (l : List α) (s : State) :
    (l.foldl f s).lanes = s.lanes := by
  induction l generalizing s with
  | nil => rfl
  | cons x t ih => rw [List.foldl_cons, ih, h]

@[simp] theorem foldl_mgmt {α : Type} (f : State → α → State) (h : ∀ s a, (f s a).mgmt = s.mgmt) (l : List α) (s : State) :
    (l.foldl f s).mgmt = s.mgmt := by
  induction l generalizing s with
  | nil => rfl
  | cons x t ih => rw [List.foldl_cons, ih, h]

@[simp] theorem foldl_trigLevel {α : Type} (f : State → α → State) (h : ∀ s a, (f s a).trigLevel = s.trigLevel) (l : List α) (s : State) :
    (l.foldl f s).trigLevel = s.trigLevel := by
  induction l generalizing s with
  | nil => rfl
  | cons x t ih => rw [List.foldl_cons, ih, h]

@[simp] theorem foldl_opt {α : Type} (f : State → α → State) (h : ∀ s a, (f s a).opt = s.opt) (l : List α) (s : State) :
    (l.foldl f s).opt = s.opt := by
  induction l generalizing s with
  | nil => rfl
  | cons x t ih => rw [List.foldl_cons, ih, h]

@[simp] theorem State.toRing_keeps (s : State) (ring : Fin 3) (i : RtItem) :
    (State.toRing s ring i).permits.asserted = s.permits.asserted ∧
    (State.toRing s ring i).opt.ports = s.opt.ports ∧
    (State.toRing s ring i).flash.cells = s.flash.cells ∧
    (State.toRing s ring i).mem.cells = s.mem.cells ∧
    (State.toRing s ring i).hb.doms = s.hb.doms ∧
    (State.toRing s ring i).power = s.power ∧
    (State.toRing s ring i).cfg = s.cfg ∧
    (State.toRing s ring i).tim = s.tim ∧
    (State.toRing s ring i).pnl = s.pnl ∧
    (State.toRing s ring i).mbx = s.mbx ∧
    (State.toRing s ring i).hb.bothFailed = s.hb.bothFailed ∧
    (State.toRing s ring i).pending = s.pending ∧
    (State.toRing s ring i).now = s.now ∧
    (State.toRing s ring i).tiu = s.tiu ∧
    (State.toRing s ring i).sht = s.sht ∧
    (State.toRing s ring i).acq = s.acq ∧
    (State.toRing s ring i).phs = s.phs ∧
    (State.toRing s ring i).evt = s.evt ∧
    (State.toRing s ring i).alarms = s.alarms ∧
    (State.toRing s ring i).dts = s.dts ∧
    (State.toRing s ring i).sup = s.sup ∧
    (State.toRing s ring i).permits = s.permits ∧
    (State.toRing s ring i).als = s.als ∧
    (State.toRing s ring i).plk = s.plk ∧
    (State.toRing s ring i).lanes = s.lanes ∧
    (State.toRing s ring i).mgmt = s.mgmt ∧
    (State.toRing s ring i).trigLevel = s.trigLevel ∧
    (State.toRing s ring i).opt = s.opt := by
  simp [State.toRing]

@[simp] theorem State.emitRec_keeps (s : State) (p : PRec) :
    (State.emitRec s p).permits.asserted = s.permits.asserted ∧
    (State.emitRec s p).opt.ports = s.opt.ports ∧
    (State.emitRec s p).flash.cells = s.flash.cells ∧
    (State.emitRec s p).mem.cells = s.mem.cells ∧
    (State.emitRec s p).hb.doms = s.hb.doms ∧
    (State.emitRec s p).power = s.power ∧
    (State.emitRec s p).cfg = s.cfg ∧
    (State.emitRec s p).tim = s.tim ∧
    (State.emitRec s p).pnl = s.pnl ∧
    (State.emitRec s p).mbx = s.mbx ∧
    (State.emitRec s p).hb.bothFailed = s.hb.bothFailed ∧
    (State.emitRec s p).pending = s.pending ∧
    (State.emitRec s p).now = s.now ∧
    (State.emitRec s p).tiu = s.tiu ∧
    (State.emitRec s p).sht = s.sht ∧
    (State.emitRec s p).acq = s.acq ∧
    (State.emitRec s p).phs = s.phs ∧
    (State.emitRec s p).evt = s.evt ∧
    (State.emitRec s p).alarms = s.alarms ∧
    (State.emitRec s p).dts = s.dts ∧
    (State.emitRec s p).sup = s.sup ∧
    (State.emitRec s p).permits = s.permits ∧
    (State.emitRec s p).als = s.als ∧
    (State.emitRec s p).plk = s.plk ∧
    (State.emitRec s p).lanes = s.lanes ∧
    (State.emitRec s p).mgmt = s.mgmt ∧
    (State.emitRec s p).trigLevel = s.trigLevel ∧
    (State.emitRec s p).opt = s.opt := by
  simp [State.emitRec]

@[simp] theorem State.msixSend_keeps (s : State) (v : Fin 8) :
    (State.msixSend s v).permits.asserted = s.permits.asserted ∧
    (State.msixSend s v).opt.ports = s.opt.ports ∧
    (State.msixSend s v).flash.cells = s.flash.cells ∧
    (State.msixSend s v).mem.cells = s.mem.cells ∧
    (State.msixSend s v).hb.doms = s.hb.doms ∧
    (State.msixSend s v).power = s.power ∧
    (State.msixSend s v).cfg = s.cfg ∧
    (State.msixSend s v).tim = s.tim ∧
    (State.msixSend s v).pnl = s.pnl ∧
    (State.msixSend s v).mbx = s.mbx ∧
    (State.msixSend s v).hb.bothFailed = s.hb.bothFailed ∧
    (State.msixSend s v).pending = s.pending ∧
    (State.msixSend s v).now = s.now ∧
    (State.msixSend s v).tiu = s.tiu ∧
    (State.msixSend s v).sht = s.sht ∧
    (State.msixSend s v).acq = s.acq ∧
    (State.msixSend s v).phs = s.phs ∧
    (State.msixSend s v).evt = s.evt ∧
    (State.msixSend s v).alarms = s.alarms ∧
    (State.msixSend s v).dts = s.dts ∧
    (State.msixSend s v).sup = s.sup ∧
    (State.msixSend s v).permits = s.permits ∧
    (State.msixSend s v).als = s.als ∧
    (State.msixSend s v).plk = s.plk ∧
    (State.msixSend s v).lanes = s.lanes ∧
    (State.msixSend s v).mgmt = s.mgmt ∧
    (State.msixSend s v).trigLevel = s.trigLevel ∧
    (State.msixSend s v).opt = s.opt := by
  simp [State.msixSend]

@[simp] theorem State.msixEvent_keeps (s : State) (v : Fin 8) :
    (State.msixEvent s v).permits.asserted = s.permits.asserted ∧
    (State.msixEvent s v).opt.ports = s.opt.ports ∧
    (State.msixEvent s v).flash.cells = s.flash.cells ∧
    (State.msixEvent s v).mem.cells = s.mem.cells ∧
    (State.msixEvent s v).hb.doms = s.hb.doms ∧
    (State.msixEvent s v).power = s.power ∧
    (State.msixEvent s v).cfg = s.cfg ∧
    (State.msixEvent s v).tim = s.tim ∧
    (State.msixEvent s v).pnl = s.pnl ∧
    (State.msixEvent s v).mbx = s.mbx ∧
    (State.msixEvent s v).hb.bothFailed = s.hb.bothFailed ∧
    (State.msixEvent s v).pending = s.pending ∧
    (State.msixEvent s v).now = s.now ∧
    (State.msixEvent s v).tiu = s.tiu ∧
    (State.msixEvent s v).sht = s.sht ∧
    (State.msixEvent s v).acq = s.acq ∧
    (State.msixEvent s v).phs = s.phs ∧
    (State.msixEvent s v).evt = s.evt ∧
    (State.msixEvent s v).alarms = s.alarms ∧
    (State.msixEvent s v).dts = s.dts ∧
    (State.msixEvent s v).sup = s.sup ∧
    (State.msixEvent s v).permits = s.permits ∧
    (State.msixEvent s v).als = s.als ∧
    (State.msixEvent s v).plk = s.plk ∧
    (State.msixEvent s v).lanes = s.lanes ∧
    (State.msixEvent s v).mgmt = s.mgmt ∧
    (State.msixEvent s v).trigLevel = s.trigLevel ∧
    (State.msixEvent s v).opt = s.opt := by
  simp [State.msixEvent]

@[simp] theorem State.postedUr_keeps (s : State) :
    (State.postedUr s).permits.asserted = s.permits.asserted ∧
    (State.postedUr s).opt.ports = s.opt.ports ∧
    (State.postedUr s).flash.cells = s.flash.cells ∧
    (State.postedUr s).mem.cells = s.mem.cells ∧
    (State.postedUr s).hb.doms = s.hb.doms ∧
    (State.postedUr s).power = s.power ∧
    (State.postedUr s).cfg = s.cfg ∧
    (State.postedUr s).tim = s.tim ∧
    (State.postedUr s).pnl = s.pnl ∧
    (State.postedUr s).mbx = s.mbx ∧
    (State.postedUr s).hb.bothFailed = s.hb.bothFailed ∧
    (State.postedUr s).pending = s.pending ∧
    (State.postedUr s).now = s.now ∧
    (State.postedUr s).tiu = s.tiu ∧
    (State.postedUr s).sht = s.sht ∧
    (State.postedUr s).acq = s.acq ∧
    (State.postedUr s).phs = s.phs ∧
    (State.postedUr s).evt = s.evt ∧
    (State.postedUr s).alarms = s.alarms ∧
    (State.postedUr s).dts = s.dts ∧
    (State.postedUr s).sup = s.sup ∧
    (State.postedUr s).permits = s.permits ∧
    (State.postedUr s).als = s.als ∧
    (State.postedUr s).plk = s.plk ∧
    (State.postedUr s).lanes = s.lanes ∧
    (State.postedUr s).mgmt = s.mgmt ∧
    (State.postedUr s).trigLevel = s.trigLevel ∧
    (State.postedUr s).opt = s.opt := by
  simp [State.postedUr]

@[simp] theorem State.healthRecord_keeps (s : State) (kind domain : Nat) (code value : U32) :
    (State.healthRecord s kind domain code value).permits.asserted = s.permits.asserted ∧
    (State.healthRecord s kind domain code value).opt.ports = s.opt.ports ∧
    (State.healthRecord s kind domain code value).flash.cells = s.flash.cells ∧
    (State.healthRecord s kind domain code value).mem.cells = s.mem.cells ∧
    (State.healthRecord s kind domain code value).hb.doms = s.hb.doms ∧
    (State.healthRecord s kind domain code value).power = s.power ∧
    (State.healthRecord s kind domain code value).cfg = s.cfg ∧
    (State.healthRecord s kind domain code value).tim = s.tim ∧
    (State.healthRecord s kind domain code value).pnl = s.pnl ∧
    (State.healthRecord s kind domain code value).mbx = s.mbx ∧
    (State.healthRecord s kind domain code value).hb.bothFailed = s.hb.bothFailed ∧
    (State.healthRecord s kind domain code value).pending = s.pending ∧
    (State.healthRecord s kind domain code value).now = s.now ∧
    (State.healthRecord s kind domain code value).tiu = s.tiu ∧
    (State.healthRecord s kind domain code value).sht = s.sht ∧
    (State.healthRecord s kind domain code value).acq = s.acq ∧
    (State.healthRecord s kind domain code value).phs = s.phs ∧
    (State.healthRecord s kind domain code value).evt = s.evt ∧
    (State.healthRecord s kind domain code value).alarms = s.alarms ∧
    (State.healthRecord s kind domain code value).dts = s.dts ∧
    (State.healthRecord s kind domain code value).sup = s.sup ∧
    (State.healthRecord s kind domain code value).permits = s.permits ∧
    (State.healthRecord s kind domain code value).als = s.als ∧
    (State.healthRecord s kind domain code value).plk = s.plk ∧
    (State.healthRecord s kind domain code value).lanes = s.lanes ∧
    (State.healthRecord s kind domain code value).mgmt = s.mgmt ∧
    (State.healthRecord s kind domain code value).trigLevel = s.trigLevel ∧
    (State.healthRecord s kind domain code value).opt = s.opt := by
  simp [State.healthRecord]

@[simp] theorem State.bbxEnqueue_keeps (s : State) (r : BbxRec) :
    (State.bbxEnqueue s r).permits.asserted = s.permits.asserted ∧
    (State.bbxEnqueue s r).opt.ports = s.opt.ports ∧
    (State.bbxEnqueue s r).flash.cells = s.flash.cells ∧
    (State.bbxEnqueue s r).mem.cells = s.mem.cells ∧
    (State.bbxEnqueue s r).hb.doms = s.hb.doms ∧
    (State.bbxEnqueue s r).power = s.power ∧
    (State.bbxEnqueue s r).cfg = s.cfg ∧
    (State.bbxEnqueue s r).tim = s.tim ∧
    (State.bbxEnqueue s r).pnl = s.pnl ∧
    (State.bbxEnqueue s r).mbx = s.mbx ∧
    (State.bbxEnqueue s r).hb.bothFailed = s.hb.bothFailed ∧
    (State.bbxEnqueue s r).pending = s.pending ∧
    (State.bbxEnqueue s r).now = s.now ∧
    (State.bbxEnqueue s r).tiu = s.tiu ∧
    (State.bbxEnqueue s r).sht = s.sht ∧
    (State.bbxEnqueue s r).acq = s.acq ∧
    (State.bbxEnqueue s r).phs = s.phs ∧
    (State.bbxEnqueue s r).evt = s.evt ∧
    (State.bbxEnqueue s r).alarms = s.alarms ∧
    (State.bbxEnqueue s r).dts = s.dts ∧
    (State.bbxEnqueue s r).sup = s.sup ∧
    (State.bbxEnqueue s r).permits = s.permits ∧
    (State.bbxEnqueue s r).als = s.als ∧
    (State.bbxEnqueue s r).plk = s.plk ∧
    (State.bbxEnqueue s r).lanes = s.lanes ∧
    (State.bbxEnqueue s r).mgmt = s.mgmt ∧
    (State.bbxEnqueue s r).trigLevel = s.trigLevel ∧
    (State.bbxEnqueue s r).opt = s.opt := by
  simp [State.bbxEnqueue]

@[simp] theorem State.raise_keeps (s : State) (code value : U32) (holds : Bool) (place : Nat := 0) :
    (State.raise s code value holds place).permits.asserted = s.permits.asserted ∧
    (State.raise s code value holds place).opt.ports = s.opt.ports ∧
    (State.raise s code value holds place).flash.cells = s.flash.cells ∧
    (State.raise s code value holds place).mem.cells = s.mem.cells ∧
    (State.raise s code value holds place).hb.doms = s.hb.doms ∧
    (State.raise s code value holds place).power = s.power ∧
    (State.raise s code value holds place).cfg = s.cfg ∧
    (State.raise s code value holds place).tim = s.tim ∧
    (State.raise s code value holds place).pnl = s.pnl ∧
    (State.raise s code value holds place).mbx = s.mbx ∧
    (State.raise s code value holds place).hb.bothFailed = s.hb.bothFailed ∧
    (State.raise s code value holds place).pending = s.pending ∧
    (State.raise s code value holds place).now = s.now ∧
    (State.raise s code value holds place).tiu = s.tiu ∧
    (State.raise s code value holds place).sht = s.sht ∧
    (State.raise s code value holds place).acq = s.acq ∧
    (State.raise s code value holds place).phs = s.phs ∧
    (State.raise s code value holds place).evt = s.evt ∧
    (State.raise s code value holds place).alarms = s.alarms ∧
    (State.raise s code value holds place).dts = s.dts ∧
    (State.raise s code value holds place).sup = s.sup ∧
    (State.raise s code value holds place).permits = s.permits ∧
    (State.raise s code value holds place).als = s.als ∧
    (State.raise s code value holds place).plk = s.plk ∧
    (State.raise s code value holds place).lanes = s.lanes ∧
    (State.raise s code value holds place).mgmt = s.mgmt ∧
    (State.raise s code value holds place).trigLevel = s.trigLevel ∧
    (State.raise s code value holds place).opt = s.opt := by
  simp [State.raise]

@[simp] theorem State.record_keeps (s : State) (r : BbxRec) :
    (State.record s r).permits.asserted = s.permits.asserted ∧
    (State.record s r).opt.ports = s.opt.ports ∧
    (State.record s r).flash.cells = s.flash.cells ∧
    (State.record s r).mem.cells = s.mem.cells ∧
    (State.record s r).hb.doms = s.hb.doms ∧
    (State.record s r).power = s.power ∧
    (State.record s r).cfg = s.cfg ∧
    (State.record s r).tim = s.tim ∧
    (State.record s r).pnl = s.pnl ∧
    (State.record s r).mbx = s.mbx ∧
    (State.record s r).hb.bothFailed = s.hb.bothFailed ∧
    (State.record s r).pending = s.pending ∧
    (State.record s r).now = s.now ∧
    (State.record s r).tiu = s.tiu ∧
    (State.record s r).sht = s.sht ∧
    (State.record s r).acq = s.acq ∧
    (State.record s r).phs = s.phs ∧
    (State.record s r).evt = s.evt ∧
    (State.record s r).alarms = s.alarms ∧
    (State.record s r).dts = s.dts ∧
    (State.record s r).sup = s.sup ∧
    (State.record s r).permits = s.permits ∧
    (State.record s r).als = s.als ∧
    (State.record s r).plk = s.plk ∧
    (State.record s r).lanes = s.lanes ∧
    (State.record s r).mgmt = s.mgmt ∧
    (State.record s r).trigLevel = s.trigLevel ∧
    (State.record s r).opt = s.opt := by
  simp [State.record]

@[simp] theorem State.warnEnded_keeps (s : State) (code : U32) (place : Nat := 0) :
    (State.warnEnded s code place).permits.asserted = s.permits.asserted ∧
    (State.warnEnded s code place).opt.ports = s.opt.ports ∧
    (State.warnEnded s code place).flash.cells = s.flash.cells ∧
    (State.warnEnded s code place).mem.cells = s.mem.cells ∧
    (State.warnEnded s code place).hb.doms = s.hb.doms ∧
    (State.warnEnded s code place).power = s.power ∧
    (State.warnEnded s code place).cfg = s.cfg ∧
    (State.warnEnded s code place).tim = s.tim ∧
    (State.warnEnded s code place).pnl = s.pnl ∧
    (State.warnEnded s code place).mbx = s.mbx ∧
    (State.warnEnded s code place).hb.bothFailed = s.hb.bothFailed ∧
    (State.warnEnded s code place).pending = s.pending ∧
    (State.warnEnded s code place).now = s.now ∧
    (State.warnEnded s code place).tiu = s.tiu ∧
    (State.warnEnded s code place).sht = s.sht ∧
    (State.warnEnded s code place).acq = s.acq ∧
    (State.warnEnded s code place).phs = s.phs ∧
    (State.warnEnded s code place).evt = s.evt ∧
    (State.warnEnded s code place).alarms = s.alarms ∧
    (State.warnEnded s code place).dts = s.dts ∧
    (State.warnEnded s code place).sup = s.sup ∧
    (State.warnEnded s code place).permits = s.permits ∧
    (State.warnEnded s code place).als = s.als ∧
    (State.warnEnded s code place).plk = s.plk ∧
    (State.warnEnded s code place).lanes = s.lanes ∧
    (State.warnEnded s code place).mgmt = s.mgmt ∧
    (State.warnEnded s code place).trigLevel = s.trigLevel ∧
    (State.warnEnded s code place).opt = s.opt := by
  simp [State.warnEnded]

@[simp] theorem State.warn_keeps (s : State) (code value : U32) (holds : Bool := false) (place : Nat := 0) :
    (State.warn s code value holds place).permits.asserted = s.permits.asserted ∧
    (State.warn s code value holds place).opt.ports = s.opt.ports ∧
    (State.warn s code value holds place).flash.cells = s.flash.cells ∧
    (State.warn s code value holds place).mem.cells = s.mem.cells ∧
    (State.warn s code value holds place).hb.doms = s.hb.doms ∧
    (State.warn s code value holds place).power = s.power ∧
    (State.warn s code value holds place).cfg = s.cfg ∧
    (State.warn s code value holds place).tim = s.tim ∧
    (State.warn s code value holds place).pnl = s.pnl ∧
    (State.warn s code value holds place).mbx = s.mbx ∧
    (State.warn s code value holds place).hb.bothFailed = s.hb.bothFailed ∧
    (State.warn s code value holds place).pending = s.pending ∧
    (State.warn s code value holds place).now = s.now ∧
    (State.warn s code value holds place).tiu = s.tiu ∧
    (State.warn s code value holds place).sht = s.sht ∧
    (State.warn s code value holds place).acq = s.acq ∧
    (State.warn s code value holds place).phs = s.phs ∧
    (State.warn s code value holds place).evt = s.evt ∧
    (State.warn s code value holds place).alarms = s.alarms ∧
    (State.warn s code value holds place).dts = s.dts ∧
    (State.warn s code value holds place).sup = s.sup ∧
    (State.warn s code value holds place).permits = s.permits ∧
    (State.warn s code value holds place).als = s.als ∧
    (State.warn s code value holds place).plk = s.plk ∧
    (State.warn s code value holds place).lanes = s.lanes ∧
    (State.warn s code value holds place).mgmt = s.mgmt ∧
    (State.warn s code value holds place).trigLevel = s.trigLevel ∧
    (State.warn s code value holds place).opt = s.opt := by
  simp [State.warn]

@[simp] theorem State.setUrgent_keeps (s : State) (f : Urgent → Urgent) :
    (State.setUrgent s f).permits.asserted = s.permits.asserted ∧
    (State.setUrgent s f).opt.ports = s.opt.ports ∧
    (State.setUrgent s f).flash.cells = s.flash.cells ∧
    (State.setUrgent s f).mem.cells = s.mem.cells ∧
    (State.setUrgent s f).hb.doms = s.hb.doms ∧
    (State.setUrgent s f).power = s.power ∧
    (State.setUrgent s f).cfg = s.cfg ∧
    (State.setUrgent s f).tim = s.tim ∧
    (State.setUrgent s f).pnl = s.pnl ∧
    (State.setUrgent s f).mbx = s.mbx ∧
    (State.setUrgent s f).hb.bothFailed = s.hb.bothFailed ∧
    (State.setUrgent s f).pending = s.pending ∧
    (State.setUrgent s f).now = s.now ∧
    (State.setUrgent s f).tiu = s.tiu ∧
    (State.setUrgent s f).sht = s.sht ∧
    (State.setUrgent s f).acq = s.acq ∧
    (State.setUrgent s f).phs = s.phs ∧
    (State.setUrgent s f).evt = s.evt ∧
    (State.setUrgent s f).alarms = s.alarms ∧
    (State.setUrgent s f).dts = s.dts ∧
    (State.setUrgent s f).sup = s.sup ∧
    (State.setUrgent s f).permits = s.permits ∧
    (State.setUrgent s f).als = s.als ∧
    (State.setUrgent s f).plk = s.plk ∧
    (State.setUrgent s f).lanes = s.lanes ∧
    (State.setUrgent s f).mgmt = s.mgmt ∧
    (State.setUrgent s f).trigLevel = s.trigLevel ∧
    (State.setUrgent s f).opt = s.opt := by
  simp [State.setUrgent]

@[simp] theorem State.injected_keeps (s : State) (k : USource) :
    (State.injected s k).permits.asserted = s.permits.asserted ∧
    (State.injected s k).opt.ports = s.opt.ports ∧
    (State.injected s k).flash.cells = s.flash.cells ∧
    (State.injected s k).mem.cells = s.mem.cells ∧
    (State.injected s k).hb.doms = s.hb.doms ∧
    (State.injected s k).power = s.power ∧
    (State.injected s k).cfg = s.cfg ∧
    (State.injected s k).tim = s.tim ∧
    (State.injected s k).pnl = s.pnl ∧
    (State.injected s k).mbx = s.mbx ∧
    (State.injected s k).hb.bothFailed = s.hb.bothFailed ∧
    (State.injected s k).pending = s.pending ∧
    (State.injected s k).now = s.now ∧
    (State.injected s k).tiu = s.tiu ∧
    (State.injected s k).sht = s.sht ∧
    (State.injected s k).acq = s.acq ∧
    (State.injected s k).phs = s.phs ∧
    (State.injected s k).evt = s.evt ∧
    (State.injected s k).alarms = s.alarms ∧
    (State.injected s k).dts = s.dts ∧
    (State.injected s k).sup = s.sup ∧
    (State.injected s k).permits = s.permits ∧
    (State.injected s k).als = s.als ∧
    (State.injected s k).plk = s.plk ∧
    (State.injected s k).lanes = s.lanes ∧
    (State.injected s k).mgmt = s.mgmt ∧
    (State.injected s k).trigLevel = s.trigLevel ∧
    (State.injected s k).opt = s.opt := by
  simp [State.injected]

@[simp] theorem State.logDrop_keeps (s : State) (p : Port) (tag : ShotTag) (cause : Nat) :
    (State.logDrop s p tag cause).permits.asserted = s.permits.asserted ∧
    (State.logDrop s p tag cause).opt.ports = s.opt.ports ∧
    (State.logDrop s p tag cause).flash.cells = s.flash.cells ∧
    (State.logDrop s p tag cause).mem.cells = s.mem.cells ∧
    (State.logDrop s p tag cause).hb.doms = s.hb.doms ∧
    (State.logDrop s p tag cause).power = s.power ∧
    (State.logDrop s p tag cause).cfg = s.cfg ∧
    (State.logDrop s p tag cause).tim = s.tim ∧
    (State.logDrop s p tag cause).pnl = s.pnl ∧
    (State.logDrop s p tag cause).mbx = s.mbx ∧
    (State.logDrop s p tag cause).hb.bothFailed = s.hb.bothFailed ∧
    (State.logDrop s p tag cause).pending = s.pending ∧
    (State.logDrop s p tag cause).now = s.now ∧
    (State.logDrop s p tag cause).tiu = s.tiu ∧
    (State.logDrop s p tag cause).sht = s.sht ∧
    (State.logDrop s p tag cause).acq = s.acq ∧
    (State.logDrop s p tag cause).phs = s.phs ∧
    (State.logDrop s p tag cause).evt = s.evt ∧
    (State.logDrop s p tag cause).alarms = s.alarms ∧
    (State.logDrop s p tag cause).dts = s.dts ∧
    (State.logDrop s p tag cause).sup = s.sup ∧
    (State.logDrop s p tag cause).permits = s.permits ∧
    (State.logDrop s p tag cause).als = s.als ∧
    (State.logDrop s p tag cause).plk = s.plk ∧
    (State.logDrop s p tag cause).lanes = s.lanes ∧
    (State.logDrop s p tag cause).mgmt = s.mgmt ∧
    (State.logDrop s p tag cause).trigLevel = s.trigLevel ∧
    (State.logDrop s p tag cause).opt = s.opt := by
  simp [State.logDrop]

@[simp] theorem State.dropShot_keeps (s : State) (p : Port) (tag : ShotTag) (cause : Fin 4) :
    (State.dropShot s p tag cause).permits.asserted = s.permits.asserted ∧
    (State.dropShot s p tag cause).opt.ports = s.opt.ports ∧
    (State.dropShot s p tag cause).flash.cells = s.flash.cells ∧
    (State.dropShot s p tag cause).mem.cells = s.mem.cells ∧
    (State.dropShot s p tag cause).hb.doms = s.hb.doms ∧
    (State.dropShot s p tag cause).power = s.power ∧
    (State.dropShot s p tag cause).cfg = s.cfg ∧
    (State.dropShot s p tag cause).tim = s.tim ∧
    (State.dropShot s p tag cause).pnl = s.pnl ∧
    (State.dropShot s p tag cause).mbx = s.mbx ∧
    (State.dropShot s p tag cause).hb.bothFailed = s.hb.bothFailed ∧
    (State.dropShot s p tag cause).pending = s.pending ∧
    (State.dropShot s p tag cause).now = s.now ∧
    (State.dropShot s p tag cause).tiu = s.tiu ∧
    (State.dropShot s p tag cause).phs = s.phs ∧
    (State.dropShot s p tag cause).evt = s.evt ∧
    (State.dropShot s p tag cause).alarms = s.alarms ∧
    (State.dropShot s p tag cause).dts = s.dts ∧
    (State.dropShot s p tag cause).sup = s.sup ∧
    (State.dropShot s p tag cause).permits = s.permits ∧
    (State.dropShot s p tag cause).als = s.als ∧
    (State.dropShot s p tag cause).plk = s.plk ∧
    (State.dropShot s p tag cause).lanes = s.lanes ∧
    (State.dropShot s p tag cause).mgmt = s.mgmt ∧
    (State.dropShot s p tag cause).trigLevel = s.trigLevel ∧
    (State.dropShot s p tag cause).opt = s.opt := by
  simp [State.dropShot]

@[simp] theorem State.discardShot_keeps (s : State) (p : Port) (g : ShotFlight) :
    (State.discardShot s p g).permits.asserted = s.permits.asserted ∧
    (State.discardShot s p g).opt.ports = s.opt.ports ∧
    (State.discardShot s p g).flash.cells = s.flash.cells ∧
    (State.discardShot s p g).mem.cells = s.mem.cells ∧
    (State.discardShot s p g).hb.doms = s.hb.doms ∧
    (State.discardShot s p g).power = s.power ∧
    (State.discardShot s p g).cfg = s.cfg ∧
    (State.discardShot s p g).tim = s.tim ∧
    (State.discardShot s p g).pnl = s.pnl ∧
    (State.discardShot s p g).mbx = s.mbx ∧
    (State.discardShot s p g).hb.bothFailed = s.hb.bothFailed ∧
    (State.discardShot s p g).pending = s.pending ∧
    (State.discardShot s p g).now = s.now ∧
    (State.discardShot s p g).tiu = s.tiu ∧
    (State.discardShot s p g).sht = s.sht ∧
    (State.discardShot s p g).phs = s.phs ∧
    (State.discardShot s p g).evt = s.evt ∧
    (State.discardShot s p g).alarms = s.alarms ∧
    (State.discardShot s p g).sup = s.sup ∧
    (State.discardShot s p g).permits = s.permits ∧
    (State.discardShot s p g).als = s.als ∧
    (State.discardShot s p g).plk = s.plk ∧
    (State.discardShot s p g).lanes = s.lanes ∧
    (State.discardShot s p g).mgmt = s.mgmt ∧
    (State.discardShot s p g).trigLevel = s.trigLevel ∧
    (State.discardShot s p g).opt = s.opt := by
  simp [State.discardShot]

@[simp] theorem State.closeGate_keeps (s : State) (p : Port) :
    (State.closeGate s p).permits.asserted = s.permits.asserted ∧
    (State.closeGate s p).flash.cells = s.flash.cells ∧
    (State.closeGate s p).mem.cells = s.mem.cells ∧
    (State.closeGate s p).hb.doms = s.hb.doms ∧
    (State.closeGate s p).power = s.power ∧
    (State.closeGate s p).cfg = s.cfg ∧
    (State.closeGate s p).tim = s.tim ∧
    (State.closeGate s p).pnl = s.pnl ∧
    (State.closeGate s p).mbx = s.mbx ∧
    (State.closeGate s p).hb.bothFailed = s.hb.bothFailed ∧
    (State.closeGate s p).pending = s.pending ∧
    (State.closeGate s p).now = s.now ∧
    (State.closeGate s p).tiu = s.tiu ∧
    (State.closeGate s p).phs = s.phs ∧
    (State.closeGate s p).evt = s.evt ∧
    (State.closeGate s p).alarms = s.alarms ∧
    (State.closeGate s p).sup = s.sup ∧
    (State.closeGate s p).permits = s.permits ∧
    (State.closeGate s p).als = s.als ∧
    (State.closeGate s p).plk = s.plk ∧
    (State.closeGate s p).lanes = s.lanes ∧
    (State.closeGate s p).mgmt = s.mgmt ∧
    (State.closeGate s p).trigLevel = s.trigLevel := by
  unfold State.closeGate
  (repeat' split) <;> simp

@[simp] theorem State.dropHeld_keeps (s : State) (p : Port) :
    (State.dropHeld s p).permits.asserted = s.permits.asserted ∧
    (State.dropHeld s p).opt.ports = s.opt.ports ∧
    (State.dropHeld s p).flash.cells = s.flash.cells ∧
    (State.dropHeld s p).mem.cells = s.mem.cells ∧
    (State.dropHeld s p).hb.doms = s.hb.doms ∧
    (State.dropHeld s p).power = s.power ∧
    (State.dropHeld s p).cfg = s.cfg ∧
    (State.dropHeld s p).tim = s.tim ∧
    (State.dropHeld s p).pnl = s.pnl ∧
    (State.dropHeld s p).mbx = s.mbx ∧
    (State.dropHeld s p).hb.bothFailed = s.hb.bothFailed ∧
    (State.dropHeld s p).pending = s.pending ∧
    (State.dropHeld s p).now = s.now ∧
    (State.dropHeld s p).tiu = s.tiu ∧
    (State.dropHeld s p).acq = s.acq ∧
    (State.dropHeld s p).phs = s.phs ∧
    (State.dropHeld s p).evt = s.evt ∧
    (State.dropHeld s p).alarms = s.alarms ∧
    (State.dropHeld s p).dts = s.dts ∧
    (State.dropHeld s p).sup = s.sup ∧
    (State.dropHeld s p).permits = s.permits ∧
    (State.dropHeld s p).als = s.als ∧
    (State.dropHeld s p).plk = s.plk ∧
    (State.dropHeld s p).lanes = s.lanes ∧
    (State.dropHeld s p).mgmt = s.mgmt ∧
    (State.dropHeld s p).trigLevel = s.trigLevel ∧
    (State.dropHeld s p).opt = s.opt := by
  simp [State.dropHeld]

@[simp] theorem State.closePort_keeps (s : State) (p : Port) :
    (State.closePort s p).permits.asserted = s.permits.asserted ∧
    (State.closePort s p).flash.cells = s.flash.cells ∧
    (State.closePort s p).mem.cells = s.mem.cells ∧
    (State.closePort s p).hb.doms = s.hb.doms ∧
    (State.closePort s p).power = s.power ∧
    (State.closePort s p).cfg = s.cfg ∧
    (State.closePort s p).tim = s.tim ∧
    (State.closePort s p).pnl = s.pnl ∧
    (State.closePort s p).mbx = s.mbx ∧
    (State.closePort s p).hb.bothFailed = s.hb.bothFailed ∧
    (State.closePort s p).pending = s.pending ∧
    (State.closePort s p).now = s.now ∧
    (State.closePort s p).tiu = s.tiu ∧
    (State.closePort s p).phs = s.phs ∧
    (State.closePort s p).evt = s.evt ∧
    (State.closePort s p).alarms = s.alarms ∧
    (State.closePort s p).sup = s.sup ∧
    (State.closePort s p).permits = s.permits ∧
    (State.closePort s p).als = s.als ∧
    (State.closePort s p).plk = s.plk ∧
    (State.closePort s p).lanes = s.lanes ∧
    (State.closePort s p).mgmt = s.mgmt ∧
    (State.closePort s p).trigLevel = s.trigLevel := by
  simp [State.closePort]

@[simp] theorem State.openShutter_keeps (s : State) (p : Port) :
    (State.openShutter s p).permits.asserted = s.permits.asserted ∧
    (State.openShutter s p).flash.cells = s.flash.cells ∧
    (State.openShutter s p).mem.cells = s.mem.cells ∧
    (State.openShutter s p).hb.doms = s.hb.doms ∧
    (State.openShutter s p).power = s.power ∧
    (State.openShutter s p).cfg = s.cfg ∧
    (State.openShutter s p).tim = s.tim ∧
    (State.openShutter s p).pnl = s.pnl ∧
    (State.openShutter s p).mbx = s.mbx ∧
    (State.openShutter s p).hb.bothFailed = s.hb.bothFailed ∧
    (State.openShutter s p).pending = s.pending ∧
    (State.openShutter s p).now = s.now ∧
    (State.openShutter s p).tiu = s.tiu ∧
    (State.openShutter s p).sht = s.sht ∧
    (State.openShutter s p).acq = s.acq ∧
    (State.openShutter s p).phs = s.phs ∧
    (State.openShutter s p).evt = s.evt ∧
    (State.openShutter s p).alarms = s.alarms ∧
    (State.openShutter s p).dts = s.dts ∧
    (State.openShutter s p).sup = s.sup ∧
    (State.openShutter s p).permits = s.permits ∧
    (State.openShutter s p).als = s.als ∧
    (State.openShutter s p).plk = s.plk ∧
    (State.openShutter s p).lanes = s.lanes ∧
    (State.openShutter s p).mgmt = s.mgmt ∧
    (State.openShutter s p).trigLevel = s.trigLevel := by
  simp [State.openShutter]

@[simp] theorem State.missRecord_keeps (s : State) (p : Port) (pleat : Nat) :
    (State.missRecord s p pleat).permits.asserted = s.permits.asserted ∧
    (State.missRecord s p pleat).opt.ports = s.opt.ports ∧
    (State.missRecord s p pleat).flash.cells = s.flash.cells ∧
    (State.missRecord s p pleat).mem.cells = s.mem.cells ∧
    (State.missRecord s p pleat).hb.doms = s.hb.doms ∧
    (State.missRecord s p pleat).power = s.power ∧
    (State.missRecord s p pleat).cfg = s.cfg ∧
    (State.missRecord s p pleat).tim = s.tim ∧
    (State.missRecord s p pleat).pnl = s.pnl ∧
    (State.missRecord s p pleat).mbx = s.mbx ∧
    (State.missRecord s p pleat).hb.bothFailed = s.hb.bothFailed ∧
    (State.missRecord s p pleat).pending = s.pending ∧
    (State.missRecord s p pleat).now = s.now ∧
    (State.missRecord s p pleat).tiu = s.tiu ∧
    (State.missRecord s p pleat).sht = s.sht ∧
    (State.missRecord s p pleat).phs = s.phs ∧
    (State.missRecord s p pleat).evt = s.evt ∧
    (State.missRecord s p pleat).alarms = s.alarms ∧
    (State.missRecord s p pleat).dts = s.dts ∧
    (State.missRecord s p pleat).sup = s.sup ∧
    (State.missRecord s p pleat).permits = s.permits ∧
    (State.missRecord s p pleat).als = s.als ∧
    (State.missRecord s p pleat).plk = s.plk ∧
    (State.missRecord s p pleat).lanes = s.lanes ∧
    (State.missRecord s p pleat).mgmt = s.mgmt ∧
    (State.missRecord s p pleat).trigLevel = s.trigLevel ∧
    (State.missRecord s p pleat).opt = s.opt := by
  simp [State.missRecord]

@[simp] theorem State.admitRecord_keeps (s : State) (p : Port) (tag : ShotTag) :
    (State.admitRecord s p tag).permits.asserted = s.permits.asserted ∧
    (State.admitRecord s p tag).opt.ports = s.opt.ports ∧
    (State.admitRecord s p tag).flash.cells = s.flash.cells ∧
    (State.admitRecord s p tag).mem.cells = s.mem.cells ∧
    (State.admitRecord s p tag).hb.doms = s.hb.doms ∧
    (State.admitRecord s p tag).power = s.power ∧
    (State.admitRecord s p tag).cfg = s.cfg ∧
    (State.admitRecord s p tag).tim = s.tim ∧
    (State.admitRecord s p tag).pnl = s.pnl ∧
    (State.admitRecord s p tag).mbx = s.mbx ∧
    (State.admitRecord s p tag).hb.bothFailed = s.hb.bothFailed ∧
    (State.admitRecord s p tag).pending = s.pending ∧
    (State.admitRecord s p tag).now = s.now ∧
    (State.admitRecord s p tag).tiu = s.tiu ∧
    (State.admitRecord s p tag).phs = s.phs ∧
    (State.admitRecord s p tag).evt = s.evt ∧
    (State.admitRecord s p tag).alarms = s.alarms ∧
    (State.admitRecord s p tag).dts = s.dts ∧
    (State.admitRecord s p tag).sup = s.sup ∧
    (State.admitRecord s p tag).permits = s.permits ∧
    (State.admitRecord s p tag).als = s.als ∧
    (State.admitRecord s p tag).plk = s.plk ∧
    (State.admitRecord s p tag).lanes = s.lanes ∧
    (State.admitRecord s p tag).mgmt = s.mgmt ∧
    (State.admitRecord s p tag).trigLevel = s.trigLevel ∧
    (State.admitRecord s p tag).opt = s.opt := by
  simp [State.admitRecord]

@[simp] theorem State.tagRecords_keeps (s : State) (p : Port) (tag : ShotTag) :
    (State.tagRecords s p tag).permits.asserted = s.permits.asserted ∧
    (State.tagRecords s p tag).opt.ports = s.opt.ports ∧
    (State.tagRecords s p tag).flash.cells = s.flash.cells ∧
    (State.tagRecords s p tag).mem.cells = s.mem.cells ∧
    (State.tagRecords s p tag).hb.doms = s.hb.doms ∧
    (State.tagRecords s p tag).power = s.power ∧
    (State.tagRecords s p tag).cfg = s.cfg ∧
    (State.tagRecords s p tag).tim = s.tim ∧
    (State.tagRecords s p tag).pnl = s.pnl ∧
    (State.tagRecords s p tag).mbx = s.mbx ∧
    (State.tagRecords s p tag).hb.bothFailed = s.hb.bothFailed ∧
    (State.tagRecords s p tag).pending = s.pending ∧
    (State.tagRecords s p tag).now = s.now ∧
    (State.tagRecords s p tag).tiu = s.tiu ∧
    (State.tagRecords s p tag).sht = s.sht ∧
    (State.tagRecords s p tag).phs = s.phs ∧
    (State.tagRecords s p tag).evt = s.evt ∧
    (State.tagRecords s p tag).alarms = s.alarms ∧
    (State.tagRecords s p tag).sup = s.sup ∧
    (State.tagRecords s p tag).permits = s.permits ∧
    (State.tagRecords s p tag).als = s.als ∧
    (State.tagRecords s p tag).plk = s.plk ∧
    (State.tagRecords s p tag).lanes = s.lanes ∧
    (State.tagRecords s p tag).mgmt = s.mgmt ∧
    (State.tagRecords s p tag).trigLevel = s.trigLevel ∧
    (State.tagRecords s p tag).opt = s.opt := by
  simp [State.tagRecords]

@[simp] theorem State.accumulate_keeps (s : State) (p : Port) (r : AcqRec) (words : List U64) (lanes : List (List Int)) :
    (State.accumulate s p r words lanes).permits.asserted = s.permits.asserted ∧
    (State.accumulate s p r words lanes).opt.ports = s.opt.ports ∧
    (State.accumulate s p r words lanes).flash.cells = s.flash.cells ∧
    (State.accumulate s p r words lanes).mem.cells = s.mem.cells ∧
    (State.accumulate s p r words lanes).hb.doms = s.hb.doms ∧
    (State.accumulate s p r words lanes).power = s.power ∧
    (State.accumulate s p r words lanes).cfg = s.cfg ∧
    (State.accumulate s p r words lanes).tim = s.tim ∧
    (State.accumulate s p r words lanes).pnl = s.pnl ∧
    (State.accumulate s p r words lanes).mbx = s.mbx ∧
    (State.accumulate s p r words lanes).hb.bothFailed = s.hb.bothFailed ∧
    (State.accumulate s p r words lanes).pending = s.pending ∧
    (State.accumulate s p r words lanes).now = s.now ∧
    (State.accumulate s p r words lanes).tiu = s.tiu ∧
    (State.accumulate s p r words lanes).sht = s.sht ∧
    (State.accumulate s p r words lanes).phs = s.phs ∧
    (State.accumulate s p r words lanes).evt = s.evt ∧
    (State.accumulate s p r words lanes).alarms = s.alarms ∧
    (State.accumulate s p r words lanes).dts = s.dts ∧
    (State.accumulate s p r words lanes).sup = s.sup ∧
    (State.accumulate s p r words lanes).permits = s.permits ∧
    (State.accumulate s p r words lanes).als = s.als ∧
    (State.accumulate s p r words lanes).plk = s.plk ∧
    (State.accumulate s p r words lanes).lanes = s.lanes ∧
    (State.accumulate s p r words lanes).mgmt = s.mgmt ∧
    (State.accumulate s p r words lanes).trigLevel = s.trigLevel ∧
    (State.accumulate s p r words lanes).opt = s.opt := by
  simp [State.accumulate]

@[simp] theorem State.markRetired_keeps (s : State) (p : Port) (l : Fin 4) (slice : Fin 5) (criterion : Nat) :
    (State.markRetired s p l slice criterion).permits.asserted = s.permits.asserted ∧
    (State.markRetired s p l slice criterion).opt.ports = s.opt.ports ∧
    (State.markRetired s p l slice criterion).flash.cells = s.flash.cells ∧
    (State.markRetired s p l slice criterion).mem.cells = s.mem.cells ∧
    (State.markRetired s p l slice criterion).hb.doms = s.hb.doms ∧
    (State.markRetired s p l slice criterion).power = s.power ∧
    (State.markRetired s p l slice criterion).cfg = s.cfg ∧
    (State.markRetired s p l slice criterion).tim = s.tim ∧
    (State.markRetired s p l slice criterion).pnl = s.pnl ∧
    (State.markRetired s p l slice criterion).mbx = s.mbx ∧
    (State.markRetired s p l slice criterion).hb.bothFailed = s.hb.bothFailed ∧
    (State.markRetired s p l slice criterion).pending = s.pending ∧
    (State.markRetired s p l slice criterion).now = s.now ∧
    (State.markRetired s p l slice criterion).tiu = s.tiu ∧
    (State.markRetired s p l slice criterion).sht = s.sht ∧
    (State.markRetired s p l slice criterion).phs = s.phs ∧
    (State.markRetired s p l slice criterion).evt = s.evt ∧
    (State.markRetired s p l slice criterion).alarms = s.alarms ∧
    (State.markRetired s p l slice criterion).dts = s.dts ∧
    (State.markRetired s p l slice criterion).sup = s.sup ∧
    (State.markRetired s p l slice criterion).permits = s.permits ∧
    (State.markRetired s p l slice criterion).als = s.als ∧
    (State.markRetired s p l slice criterion).plk = s.plk ∧
    (State.markRetired s p l slice criterion).lanes = s.lanes ∧
    (State.markRetired s p l slice criterion).mgmt = s.mgmt ∧
    (State.markRetired s p l slice criterion).trigLevel = s.trigLevel ∧
    (State.markRetired s p l slice criterion).opt = s.opt := by
  simp [State.markRetired]

@[simp] theorem State.substitute_keeps (s : State) (p : Port) (l : Fin 4) (slice : Fin 5) :
    (State.substitute s p l slice).permits.asserted = s.permits.asserted ∧
    (State.substitute s p l slice).opt.ports = s.opt.ports ∧
    (State.substitute s p l slice).flash.cells = s.flash.cells ∧
    (State.substitute s p l slice).mem.cells = s.mem.cells ∧
    (State.substitute s p l slice).hb.doms = s.hb.doms ∧
    (State.substitute s p l slice).power = s.power ∧
    (State.substitute s p l slice).cfg = s.cfg ∧
    (State.substitute s p l slice).tim = s.tim ∧
    (State.substitute s p l slice).pnl = s.pnl ∧
    (State.substitute s p l slice).mbx = s.mbx ∧
    (State.substitute s p l slice).hb.bothFailed = s.hb.bothFailed ∧
    (State.substitute s p l slice).pending = s.pending ∧
    (State.substitute s p l slice).now = s.now ∧
    (State.substitute s p l slice).tiu = s.tiu ∧
    (State.substitute s p l slice).sht = s.sht ∧
    (State.substitute s p l slice).phs = s.phs ∧
    (State.substitute s p l slice).evt = s.evt ∧
    (State.substitute s p l slice).alarms = s.alarms ∧
    (State.substitute s p l slice).dts = s.dts ∧
    (State.substitute s p l slice).sup = s.sup ∧
    (State.substitute s p l slice).permits = s.permits ∧
    (State.substitute s p l slice).als = s.als ∧
    (State.substitute s p l slice).plk = s.plk ∧
    (State.substitute s p l slice).lanes = s.lanes ∧
    (State.substitute s p l slice).mgmt = s.mgmt ∧
    (State.substitute s p l slice).trigLevel = s.trigLevel ∧
    (State.substitute s p l slice).opt = s.opt := by
  simp [State.substitute]

@[simp] theorem State.startAcquire_keeps (s : State) (p : Port) :
    (State.startAcquire s p).permits.asserted = s.permits.asserted ∧
    (State.startAcquire s p).opt.ports = s.opt.ports ∧
    (State.startAcquire s p).flash.cells = s.flash.cells ∧
    (State.startAcquire s p).mem.cells = s.mem.cells ∧
    (State.startAcquire s p).hb.doms = s.hb.doms ∧
    (State.startAcquire s p).power = s.power ∧
    (State.startAcquire s p).cfg = s.cfg ∧
    (State.startAcquire s p).tim = s.tim ∧
    (State.startAcquire s p).pnl = s.pnl ∧
    (State.startAcquire s p).mbx = s.mbx ∧
    (State.startAcquire s p).hb.bothFailed = s.hb.bothFailed ∧
    (State.startAcquire s p).pending = s.pending ∧
    (State.startAcquire s p).now = s.now ∧
    (State.startAcquire s p).tiu = s.tiu ∧
    (State.startAcquire s p).sht = s.sht ∧
    (State.startAcquire s p).phs = s.phs ∧
    (State.startAcquire s p).evt = s.evt ∧
    (State.startAcquire s p).alarms = s.alarms ∧
    (State.startAcquire s p).dts = s.dts ∧
    (State.startAcquire s p).sup = s.sup ∧
    (State.startAcquire s p).permits = s.permits ∧
    (State.startAcquire s p).als = s.als ∧
    (State.startAcquire s p).plk = s.plk ∧
    (State.startAcquire s p).lanes = s.lanes ∧
    (State.startAcquire s p).mgmt = s.mgmt ∧
    (State.startAcquire s p).trigLevel = s.trigLevel ∧
    (State.startAcquire s p).opt = s.opt := by
  simp [State.startAcquire]

@[simp] theorem State.retireSlice_keeps (s : State) (p : Port) (l : Fin 4) (slice : Fin 5) (criterion : Nat) :
    (State.retireSlice s p l slice criterion).permits.asserted = s.permits.asserted ∧
    (State.retireSlice s p l slice criterion).opt.ports = s.opt.ports ∧
    (State.retireSlice s p l slice criterion).flash.cells = s.flash.cells ∧
    (State.retireSlice s p l slice criterion).mem.cells = s.mem.cells ∧
    (State.retireSlice s p l slice criterion).hb.doms = s.hb.doms ∧
    (State.retireSlice s p l slice criterion).power = s.power ∧
    (State.retireSlice s p l slice criterion).cfg = s.cfg ∧
    (State.retireSlice s p l slice criterion).tim = s.tim ∧
    (State.retireSlice s p l slice criterion).pnl = s.pnl ∧
    (State.retireSlice s p l slice criterion).mbx = s.mbx ∧
    (State.retireSlice s p l slice criterion).hb.bothFailed = s.hb.bothFailed ∧
    (State.retireSlice s p l slice criterion).pending = s.pending ∧
    (State.retireSlice s p l slice criterion).now = s.now ∧
    (State.retireSlice s p l slice criterion).tiu = s.tiu ∧
    (State.retireSlice s p l slice criterion).sht = s.sht ∧
    (State.retireSlice s p l slice criterion).phs = s.phs ∧
    (State.retireSlice s p l slice criterion).evt = s.evt ∧
    (State.retireSlice s p l slice criterion).alarms = s.alarms ∧
    (State.retireSlice s p l slice criterion).dts = s.dts ∧
    (State.retireSlice s p l slice criterion).sup = s.sup ∧
    (State.retireSlice s p l slice criterion).permits = s.permits ∧
    (State.retireSlice s p l slice criterion).als = s.als ∧
    (State.retireSlice s p l slice criterion).plk = s.plk ∧
    (State.retireSlice s p l slice criterion).lanes = s.lanes ∧
    (State.retireSlice s p l slice criterion).mgmt = s.mgmt ∧
    (State.retireSlice s p l slice criterion).trigLevel = s.trigLevel ∧
    (State.retireSlice s p l slice criterion).opt = s.opt := by
  simp [State.retireSlice]

theorem keeps_foldl_fst {α β : Type} (f : State × β → α → State × β) (h : ∀ r a, Keeps (f r a).1 r.1) (l : List α)
    (r : State × β) : Keeps (l.foldl f r).1 r.1 := by
  induction l generalizing r with
  | nil => exact ⟨rfl, rfl, rfl, rfl, rfl⟩
  | cons x t ih => exact (ih (f r x)).trans (h r x)

@[simp] theorem State.selfTestSlices_keeps (s : State) (p : Port) (failing : List (Fin 4 × Fin 5)) :
    (s.selfTestSlices p failing).1.permits.asserted = s.permits.asserted ∧
    (s.selfTestSlices p failing).1.opt.ports = s.opt.ports ∧
    (s.selfTestSlices p failing).1.flash.cells = s.flash.cells ∧
    (s.selfTestSlices p failing).1.mem.cells = s.mem.cells ∧
    (s.selfTestSlices p failing).1.hb.doms = s.hb.doms := by
  unfold State.selfTestSlices
  refine keeps_foldl_fst _ (fun r f => ?_) _ (s, true)
  dsimp only
  split
  · split <;> simp [Keeps]
  · split <;> simp [Keeps]

theorem still_foldl_fst {α β : Type} (f : State × β → α → State × β) (h : ∀ r a, Still (f r a).1 r.1) (l : List α)
    (r : State × β) : Still (l.foldl f r).1 r.1 := by
  induction l generalizing r with
  | nil => exact ⟨rfl, rfl, rfl, rfl, rfl, rfl, rfl, rfl⟩
  | cons x t ih => exact (ih (f r x)).trans (h r x)

@[simp] theorem State.selfTestSlices_still (s : State) (p : Port) (failing : List (Fin 4 × Fin 5)) :
    (s.selfTestSlices p failing).1.power = s.power ∧
    (s.selfTestSlices p failing).1.cfg = s.cfg ∧
    (s.selfTestSlices p failing).1.tim = s.tim ∧
    (s.selfTestSlices p failing).1.pnl = s.pnl ∧
    (s.selfTestSlices p failing).1.mbx = s.mbx ∧
    (s.selfTestSlices p failing).1.hb.bothFailed = s.hb.bothFailed ∧
    (s.selfTestSlices p failing).1.pending = s.pending ∧
    (s.selfTestSlices p failing).1.now = s.now := by
  unfold State.selfTestSlices
  refine still_foldl_fst _ (fun r f => ?_) _ (s, true)
  dsimp only
  split
  · split <;> simp [Still]
  · split <;> simp [Still]

theorem State.selfTestSlices_same (s : State) (p : Port) (failing : List (Fin 4 × Fin 5)) :
    Same (fun s => (s.tiu, s.sht, s.phs, s.evt, s.alarms, s.dts, s.sup, s.permits, s.als, s.plk, s.lanes, s.mgmt, s.trigLevel, s.opt)) (s.selfTestSlices p failing).1 s := by
  unfold State.selfTestSlices
  refine same_foldl_fst _ (fun r f => ?_) _ (s, true)
  dsimp only
  split
  · split <;> simp [Same]
  · split <;> simp [Same]

@[simp] theorem State.selfTestSlices_blocks (s : State) (p : Port) (failing : List (Fin 4 × Fin 5)) :
    (State.selfTestSlices s p failing).1.tiu = s.tiu ∧
    (State.selfTestSlices s p failing).1.sht = s.sht ∧
    (State.selfTestSlices s p failing).1.phs = s.phs ∧
    (State.selfTestSlices s p failing).1.evt = s.evt ∧
    (State.selfTestSlices s p failing).1.alarms = s.alarms ∧
    (State.selfTestSlices s p failing).1.dts = s.dts ∧
    (State.selfTestSlices s p failing).1.sup = s.sup ∧
    (State.selfTestSlices s p failing).1.permits = s.permits ∧
    (State.selfTestSlices s p failing).1.als = s.als ∧
    (State.selfTestSlices s p failing).1.plk = s.plk ∧
    (State.selfTestSlices s p failing).1.lanes = s.lanes ∧
    (State.selfTestSlices s p failing).1.mgmt = s.mgmt ∧
    (State.selfTestSlices s p failing).1.trigLevel = s.trigLevel ∧
    (State.selfTestSlices s p failing).1.opt = s.opt := by
  simpa [Same] using State.selfTestSlices_same s p failing

@[simp] theorem State.adoptSet_keeps (s : State) (p : Port) :
    (State.adoptSet s p).permits.asserted = s.permits.asserted ∧
    (State.adoptSet s p).opt.ports = s.opt.ports ∧
    (State.adoptSet s p).flash.cells = s.flash.cells ∧
    (State.adoptSet s p).mem.cells = s.mem.cells ∧
    (State.adoptSet s p).hb.doms = s.hb.doms ∧
    (State.adoptSet s p).power = s.power ∧
    (State.adoptSet s p).cfg = s.cfg ∧
    (State.adoptSet s p).tim = s.tim ∧
    (State.adoptSet s p).pnl = s.pnl ∧
    (State.adoptSet s p).mbx = s.mbx ∧
    (State.adoptSet s p).hb.bothFailed = s.hb.bothFailed ∧
    (State.adoptSet s p).pending = s.pending ∧
    (State.adoptSet s p).now = s.now ∧
    (State.adoptSet s p).tiu = s.tiu ∧
    (State.adoptSet s p).sht = s.sht ∧
    (State.adoptSet s p).phs = s.phs ∧
    (State.adoptSet s p).evt = s.evt ∧
    (State.adoptSet s p).alarms = s.alarms ∧
    (State.adoptSet s p).dts = s.dts ∧
    (State.adoptSet s p).sup = s.sup ∧
    (State.adoptSet s p).permits = s.permits ∧
    (State.adoptSet s p).als = s.als ∧
    (State.adoptSet s p).plk = s.plk ∧
    (State.adoptSet s p).lanes = s.lanes ∧
    (State.adoptSet s p).mgmt = s.mgmt ∧
    (State.adoptSet s p).trigLevel = s.trigLevel ∧
    (State.adoptSet s p).opt = s.opt := by
  simp [State.adoptSet]

@[simp] theorem State.calWarn_keeps (s : State) (p : Port) (code : U32) (row : Nat) :
    (State.calWarn s p code row).permits.asserted = s.permits.asserted ∧
    (State.calWarn s p code row).opt.ports = s.opt.ports ∧
    (State.calWarn s p code row).flash.cells = s.flash.cells ∧
    (State.calWarn s p code row).mem.cells = s.mem.cells ∧
    (State.calWarn s p code row).hb.doms = s.hb.doms ∧
    (State.calWarn s p code row).power = s.power ∧
    (State.calWarn s p code row).cfg = s.cfg ∧
    (State.calWarn s p code row).tim = s.tim ∧
    (State.calWarn s p code row).pnl = s.pnl ∧
    (State.calWarn s p code row).mbx = s.mbx ∧
    (State.calWarn s p code row).hb.bothFailed = s.hb.bothFailed ∧
    (State.calWarn s p code row).pending = s.pending ∧
    (State.calWarn s p code row).now = s.now ∧
    (State.calWarn s p code row).tiu = s.tiu ∧
    (State.calWarn s p code row).sht = s.sht ∧
    (State.calWarn s p code row).acq = s.acq ∧
    (State.calWarn s p code row).phs = s.phs ∧
    (State.calWarn s p code row).evt = s.evt ∧
    (State.calWarn s p code row).alarms = s.alarms ∧
    (State.calWarn s p code row).dts = s.dts ∧
    (State.calWarn s p code row).sup = s.sup ∧
    (State.calWarn s p code row).permits = s.permits ∧
    (State.calWarn s p code row).als = s.als ∧
    (State.calWarn s p code row).plk = s.plk ∧
    (State.calWarn s p code row).lanes = s.lanes ∧
    (State.calWarn s p code row).mgmt = s.mgmt ∧
    (State.calWarn s p code row).trigLevel = s.trigLevel ∧
    (State.calWarn s p code row).opt = s.opt := by
  simp [State.calWarn]

@[simp] theorem State.limitRow_keeps (s : State) (p : Port) :
    (State.limitRow s p).permits.asserted = s.permits.asserted ∧
    (State.limitRow s p).opt.ports = s.opt.ports ∧
    (State.limitRow s p).flash.cells = s.flash.cells ∧
    (State.limitRow s p).mem.cells = s.mem.cells ∧
    (State.limitRow s p).hb.doms = s.hb.doms ∧
    (State.limitRow s p).power = s.power ∧
    (State.limitRow s p).cfg = s.cfg ∧
    (State.limitRow s p).tim = s.tim ∧
    (State.limitRow s p).pnl = s.pnl ∧
    (State.limitRow s p).mbx = s.mbx ∧
    (State.limitRow s p).hb.bothFailed = s.hb.bothFailed ∧
    (State.limitRow s p).pending = s.pending ∧
    (State.limitRow s p).now = s.now ∧
    (State.limitRow s p).tiu = s.tiu ∧
    (State.limitRow s p).sht = s.sht ∧
    (State.limitRow s p).phs = s.phs ∧
    (State.limitRow s p).evt = s.evt ∧
    (State.limitRow s p).alarms = s.alarms ∧
    (State.limitRow s p).dts = s.dts ∧
    (State.limitRow s p).sup = s.sup ∧
    (State.limitRow s p).permits = s.permits ∧
    (State.limitRow s p).als = s.als ∧
    (State.limitRow s p).plk = s.plk ∧
    (State.limitRow s p).lanes = s.lanes ∧
    (State.limitRow s p).mgmt = s.mgmt ∧
    (State.limitRow s p).trigLevel = s.trigLevel ∧
    (State.limitRow s p).opt = s.opt := by
  simp [State.limitRow]

@[simp] theorem State.retireAll_keeps (s : State) (p : Port) (bad : List (Fin 4 × Fin 5 × Nat)) :
    (State.retireAll s p bad).permits.asserted = s.permits.asserted ∧
    (State.retireAll s p bad).opt.ports = s.opt.ports ∧
    (State.retireAll s p bad).flash.cells = s.flash.cells ∧
    (State.retireAll s p bad).mem.cells = s.mem.cells ∧
    (State.retireAll s p bad).hb.doms = s.hb.doms ∧
    (State.retireAll s p bad).power = s.power ∧
    (State.retireAll s p bad).cfg = s.cfg ∧
    (State.retireAll s p bad).tim = s.tim ∧
    (State.retireAll s p bad).pnl = s.pnl ∧
    (State.retireAll s p bad).mbx = s.mbx ∧
    (State.retireAll s p bad).hb.bothFailed = s.hb.bothFailed ∧
    (State.retireAll s p bad).pending = s.pending ∧
    (State.retireAll s p bad).now = s.now ∧
    (State.retireAll s p bad).tiu = s.tiu ∧
    (State.retireAll s p bad).sht = s.sht ∧
    (State.retireAll s p bad).phs = s.phs ∧
    (State.retireAll s p bad).evt = s.evt ∧
    (State.retireAll s p bad).alarms = s.alarms ∧
    (State.retireAll s p bad).dts = s.dts ∧
    (State.retireAll s p bad).sup = s.sup ∧
    (State.retireAll s p bad).permits = s.permits ∧
    (State.retireAll s p bad).als = s.als ∧
    (State.retireAll s p bad).plk = s.plk ∧
    (State.retireAll s p bad).lanes = s.lanes ∧
    (State.retireAll s p bad).mgmt = s.mgmt ∧
    (State.retireAll s p bad).trigLevel = s.trigLevel ∧
    (State.retireAll s p bad).opt = s.opt := by
  simp [State.retireAll]

@[simp] theorem State.formSet_keeps (s : State) (p : Port) (vals ns : List Int) (runs : List Nat) :
    (State.formSet s p vals ns runs).permits.asserted = s.permits.asserted ∧
    (State.formSet s p vals ns runs).opt.ports = s.opt.ports ∧
    (State.formSet s p vals ns runs).flash.cells = s.flash.cells ∧
    (State.formSet s p vals ns runs).mem.cells = s.mem.cells ∧
    (State.formSet s p vals ns runs).hb.doms = s.hb.doms ∧
    (State.formSet s p vals ns runs).power = s.power ∧
    (State.formSet s p vals ns runs).cfg = s.cfg ∧
    (State.formSet s p vals ns runs).tim = s.tim ∧
    (State.formSet s p vals ns runs).pnl = s.pnl ∧
    (State.formSet s p vals ns runs).mbx = s.mbx ∧
    (State.formSet s p vals ns runs).hb.bothFailed = s.hb.bothFailed ∧
    (State.formSet s p vals ns runs).pending = s.pending ∧
    (State.formSet s p vals ns runs).now = s.now ∧
    (State.formSet s p vals ns runs).tiu = s.tiu ∧
    (State.formSet s p vals ns runs).sht = s.sht ∧
    (State.formSet s p vals ns runs).phs = s.phs ∧
    (State.formSet s p vals ns runs).evt = s.evt ∧
    (State.formSet s p vals ns runs).alarms = s.alarms ∧
    (State.formSet s p vals ns runs).dts = s.dts ∧
    (State.formSet s p vals ns runs).sup = s.sup ∧
    (State.formSet s p vals ns runs).permits = s.permits ∧
    (State.formSet s p vals ns runs).als = s.als ∧
    (State.formSet s p vals ns runs).plk = s.plk ∧
    (State.formSet s p vals ns runs).lanes = s.lanes ∧
    (State.formSet s p vals ns runs).mgmt = s.mgmt ∧
    (State.formSet s p vals ns runs).trigLevel = s.trigLevel ∧
    (State.formSet s p vals ns runs).opt = s.opt := by
  simp [State.formSet]

@[simp] theorem State.fullUpdate_keeps (s : State) (p : Port) (spareBad : List (Fin 4 × Nat)) :
    (State.fullUpdate s p spareBad).permits.asserted = s.permits.asserted ∧
    (State.fullUpdate s p spareBad).opt.ports = s.opt.ports ∧
    (State.fullUpdate s p spareBad).flash.cells = s.flash.cells ∧
    (State.fullUpdate s p spareBad).mem.cells = s.mem.cells ∧
    (State.fullUpdate s p spareBad).hb.doms = s.hb.doms ∧
    (State.fullUpdate s p spareBad).power = s.power ∧
    (State.fullUpdate s p spareBad).cfg = s.cfg ∧
    (State.fullUpdate s p spareBad).tim = s.tim ∧
    (State.fullUpdate s p spareBad).pnl = s.pnl ∧
    (State.fullUpdate s p spareBad).mbx = s.mbx ∧
    (State.fullUpdate s p spareBad).hb.bothFailed = s.hb.bothFailed ∧
    (State.fullUpdate s p spareBad).pending = s.pending ∧
    (State.fullUpdate s p spareBad).now = s.now ∧
    (State.fullUpdate s p spareBad).tiu = s.tiu ∧
    (State.fullUpdate s p spareBad).sht = s.sht ∧
    (State.fullUpdate s p spareBad).phs = s.phs ∧
    (State.fullUpdate s p spareBad).evt = s.evt ∧
    (State.fullUpdate s p spareBad).alarms = s.alarms ∧
    (State.fullUpdate s p spareBad).dts = s.dts ∧
    (State.fullUpdate s p spareBad).sup = s.sup ∧
    (State.fullUpdate s p spareBad).permits = s.permits ∧
    (State.fullUpdate s p spareBad).als = s.als ∧
    (State.fullUpdate s p spareBad).plk = s.plk ∧
    (State.fullUpdate s p spareBad).lanes = s.lanes ∧
    (State.fullUpdate s p spareBad).mgmt = s.mgmt ∧
    (State.fullUpdate s p spareBad).trigLevel = s.trigLevel ∧
    (State.fullUpdate s p spareBad).opt = s.opt := by
  simp only [State.fullUpdate]
  (repeat' split) <;> simp

@[simp] theorem State.shortUpdate_keeps (s : State) (p : Port) :
    (State.shortUpdate s p).permits.asserted = s.permits.asserted ∧
    (State.shortUpdate s p).opt.ports = s.opt.ports ∧
    (State.shortUpdate s p).flash.cells = s.flash.cells ∧
    (State.shortUpdate s p).mem.cells = s.mem.cells ∧
    (State.shortUpdate s p).hb.doms = s.hb.doms ∧
    (State.shortUpdate s p).power = s.power ∧
    (State.shortUpdate s p).cfg = s.cfg ∧
    (State.shortUpdate s p).tim = s.tim ∧
    (State.shortUpdate s p).pnl = s.pnl ∧
    (State.shortUpdate s p).mbx = s.mbx ∧
    (State.shortUpdate s p).hb.bothFailed = s.hb.bothFailed ∧
    (State.shortUpdate s p).pending = s.pending ∧
    (State.shortUpdate s p).now = s.now ∧
    (State.shortUpdate s p).tiu = s.tiu ∧
    (State.shortUpdate s p).sht = s.sht ∧
    (State.shortUpdate s p).phs = s.phs ∧
    (State.shortUpdate s p).evt = s.evt ∧
    (State.shortUpdate s p).alarms = s.alarms ∧
    (State.shortUpdate s p).dts = s.dts ∧
    (State.shortUpdate s p).sup = s.sup ∧
    (State.shortUpdate s p).permits = s.permits ∧
    (State.shortUpdate s p).als = s.als ∧
    (State.shortUpdate s p).plk = s.plk ∧
    (State.shortUpdate s p).lanes = s.lanes ∧
    (State.shortUpdate s p).mgmt = s.mgmt ∧
    (State.shortUpdate s p).trigLevel = s.trigLevel ∧
    (State.shortUpdate s p).opt = s.opt := by
  simp [State.shortUpdate]

@[simp] theorem State.queueErrors_keeps (s : State) (p : Port) (corrected bad : Nat) :
    (State.queueErrors s p corrected bad).permits.asserted = s.permits.asserted ∧
    (State.queueErrors s p corrected bad).opt.ports = s.opt.ports ∧
    (State.queueErrors s p corrected bad).flash.cells = s.flash.cells ∧
    (State.queueErrors s p corrected bad).mem.cells = s.mem.cells ∧
    (State.queueErrors s p corrected bad).hb.doms = s.hb.doms ∧
    (State.queueErrors s p corrected bad).power = s.power ∧
    (State.queueErrors s p corrected bad).cfg = s.cfg ∧
    (State.queueErrors s p corrected bad).tim = s.tim ∧
    (State.queueErrors s p corrected bad).pnl = s.pnl ∧
    (State.queueErrors s p corrected bad).mbx = s.mbx ∧
    (State.queueErrors s p corrected bad).hb.bothFailed = s.hb.bothFailed ∧
    (State.queueErrors s p corrected bad).pending = s.pending ∧
    (State.queueErrors s p corrected bad).now = s.now ∧
    (State.queueErrors s p corrected bad).tiu = s.tiu ∧
    (State.queueErrors s p corrected bad).sht = s.sht ∧
    (State.queueErrors s p corrected bad).phs = s.phs ∧
    (State.queueErrors s p corrected bad).evt = s.evt ∧
    (State.queueErrors s p corrected bad).alarms = s.alarms ∧
    (State.queueErrors s p corrected bad).dts = s.dts ∧
    (State.queueErrors s p corrected bad).sup = s.sup ∧
    (State.queueErrors s p corrected bad).permits = s.permits ∧
    (State.queueErrors s p corrected bad).als = s.als ∧
    (State.queueErrors s p corrected bad).plk = s.plk ∧
    (State.queueErrors s p corrected bad).lanes = s.lanes ∧
    (State.queueErrors s p corrected bad).mgmt = s.mgmt ∧
    (State.queueErrors s p corrected bad).trigLevel = s.trigLevel ∧
    (State.queueErrors s p corrected bad).opt = s.opt := by
  simp [State.queueErrors]

@[simp] theorem State.discardQueue_keeps (s : State) (p : Port) :
    (State.discardQueue s p).permits.asserted = s.permits.asserted ∧
    (State.discardQueue s p).opt.ports = s.opt.ports ∧
    (State.discardQueue s p).flash.cells = s.flash.cells ∧
    (State.discardQueue s p).mem.cells = s.mem.cells ∧
    (State.discardQueue s p).hb.doms = s.hb.doms ∧
    (State.discardQueue s p).power = s.power ∧
    (State.discardQueue s p).cfg = s.cfg ∧
    (State.discardQueue s p).tim = s.tim ∧
    (State.discardQueue s p).pnl = s.pnl ∧
    (State.discardQueue s p).mbx = s.mbx ∧
    (State.discardQueue s p).hb.bothFailed = s.hb.bothFailed ∧
    (State.discardQueue s p).pending = s.pending ∧
    (State.discardQueue s p).now = s.now ∧
    (State.discardQueue s p).tiu = s.tiu ∧
    (State.discardQueue s p).phs = s.phs ∧
    (State.discardQueue s p).evt = s.evt ∧
    (State.discardQueue s p).alarms = s.alarms ∧
    (State.discardQueue s p).dts = s.dts ∧
    (State.discardQueue s p).sup = s.sup ∧
    (State.discardQueue s p).permits = s.permits ∧
    (State.discardQueue s p).als = s.als ∧
    (State.discardQueue s p).plk = s.plk ∧
    (State.discardQueue s p).lanes = s.lanes ∧
    (State.discardQueue s p).mgmt = s.mgmt ∧
    (State.discardQueue s p).trigLevel = s.trigLevel ∧
    (State.discardQueue s p).opt = s.opt := by
  simp [State.discardQueue]

@[simp] theorem State.enterProbe_keeps (s : State) (p : Port) :
    (State.enterProbe s p).permits.asserted = s.permits.asserted ∧
    (State.enterProbe s p).flash.cells = s.flash.cells ∧
    (State.enterProbe s p).mem.cells = s.mem.cells ∧
    (State.enterProbe s p).hb.doms = s.hb.doms ∧
    (State.enterProbe s p).power = s.power ∧
    (State.enterProbe s p).cfg = s.cfg ∧
    (State.enterProbe s p).tim = s.tim ∧
    (State.enterProbe s p).pnl = s.pnl ∧
    (State.enterProbe s p).mbx = s.mbx ∧
    (State.enterProbe s p).hb.bothFailed = s.hb.bothFailed ∧
    (State.enterProbe s p).pending = s.pending ∧
    (State.enterProbe s p).now = s.now ∧
    (State.enterProbe s p).tiu = s.tiu ∧
    (State.enterProbe s p).acq = s.acq ∧
    (State.enterProbe s p).phs = s.phs ∧
    (State.enterProbe s p).evt = s.evt ∧
    (State.enterProbe s p).alarms = s.alarms ∧
    (State.enterProbe s p).dts = s.dts ∧
    (State.enterProbe s p).sup = s.sup ∧
    (State.enterProbe s p).permits = s.permits ∧
    (State.enterProbe s p).plk = s.plk ∧
    (State.enterProbe s p).lanes = s.lanes ∧
    (State.enterProbe s p).mgmt = s.mgmt ∧
    (State.enterProbe s p).trigLevel = s.trigLevel := by
  simp [State.enterProbe]

@[simp] theorem State.enterShutdown_keeps (s : State) (p : Port) (point : U32) :
    (State.enterShutdown s p point).permits.asserted = s.permits.asserted ∧
    (State.enterShutdown s p point).flash.cells = s.flash.cells ∧
    (State.enterShutdown s p point).mem.cells = s.mem.cells ∧
    (State.enterShutdown s p point).hb.doms = s.hb.doms ∧
    (State.enterShutdown s p point).power = s.power ∧
    (State.enterShutdown s p point).cfg = s.cfg ∧
    (State.enterShutdown s p point).tim = s.tim ∧
    (State.enterShutdown s p point).pnl = s.pnl ∧
    (State.enterShutdown s p point).mbx = s.mbx ∧
    (State.enterShutdown s p point).hb.bothFailed = s.hb.bothFailed ∧
    (State.enterShutdown s p point).pending = s.pending ∧
    (State.enterShutdown s p point).now = s.now ∧
    (State.enterShutdown s p point).tiu = s.tiu ∧
    (State.enterShutdown s p point).phs = s.phs ∧
    (State.enterShutdown s p point).evt = s.evt ∧
    (State.enterShutdown s p point).alarms = s.alarms ∧
    (State.enterShutdown s p point).sup = s.sup ∧
    (State.enterShutdown s p point).permits = s.permits ∧
    (State.enterShutdown s p point).plk = s.plk ∧
    (State.enterShutdown s p point).lanes = s.lanes ∧
    (State.enterShutdown s p point).mgmt = s.mgmt ∧
    (State.enterShutdown s p point).trigLevel = s.trigLevel := by
  simp [State.enterShutdown]

@[simp] theorem State.alsResume_keeps (s : State) (p : Port) :
    (State.alsResume s p).permits.asserted = s.permits.asserted ∧
    (State.alsResume s p).flash.cells = s.flash.cells ∧
    (State.alsResume s p).mem.cells = s.mem.cells ∧
    (State.alsResume s p).hb.doms = s.hb.doms ∧
    (State.alsResume s p).power = s.power ∧
    (State.alsResume s p).cfg = s.cfg ∧
    (State.alsResume s p).tim = s.tim ∧
    (State.alsResume s p).pnl = s.pnl ∧
    (State.alsResume s p).mbx = s.mbx ∧
    (State.alsResume s p).hb.bothFailed = s.hb.bothFailed ∧
    (State.alsResume s p).pending = s.pending ∧
    (State.alsResume s p).now = s.now ∧
    (State.alsResume s p).tiu = s.tiu ∧
    (State.alsResume s p).acq = s.acq ∧
    (State.alsResume s p).phs = s.phs ∧
    (State.alsResume s p).evt = s.evt ∧
    (State.alsResume s p).alarms = s.alarms ∧
    (State.alsResume s p).dts = s.dts ∧
    (State.alsResume s p).sup = s.sup ∧
    (State.alsResume s p).permits = s.permits ∧
    (State.alsResume s p).plk = s.plk ∧
    (State.alsResume s p).lanes = s.lanes ∧
    (State.alsResume s p).mgmt = s.mgmt ∧
    (State.alsResume s p).trigLevel = s.trigLevel := by
  simp [State.alsResume]

@[simp] theorem State.alsLeaveIdle_keeps (s : State) (p : Port) :
    (State.alsLeaveIdle s p).permits.asserted = s.permits.asserted ∧
    (State.alsLeaveIdle s p).flash.cells = s.flash.cells ∧
    (State.alsLeaveIdle s p).mem.cells = s.mem.cells ∧
    (State.alsLeaveIdle s p).hb.doms = s.hb.doms ∧
    (State.alsLeaveIdle s p).power = s.power ∧
    (State.alsLeaveIdle s p).cfg = s.cfg ∧
    (State.alsLeaveIdle s p).tim = s.tim ∧
    (State.alsLeaveIdle s p).pnl = s.pnl ∧
    (State.alsLeaveIdle s p).mbx = s.mbx ∧
    (State.alsLeaveIdle s p).hb.bothFailed = s.hb.bothFailed ∧
    (State.alsLeaveIdle s p).pending = s.pending ∧
    (State.alsLeaveIdle s p).now = s.now ∧
    (State.alsLeaveIdle s p).tiu = s.tiu ∧
    (State.alsLeaveIdle s p).acq = s.acq ∧
    (State.alsLeaveIdle s p).phs = s.phs ∧
    (State.alsLeaveIdle s p).evt = s.evt ∧
    (State.alsLeaveIdle s p).alarms = s.alarms ∧
    (State.alsLeaveIdle s p).dts = s.dts ∧
    (State.alsLeaveIdle s p).sup = s.sup ∧
    (State.alsLeaveIdle s p).permits = s.permits ∧
    (State.alsLeaveIdle s p).plk = s.plk ∧
    (State.alsLeaveIdle s p).lanes = s.lanes ∧
    (State.alsLeaveIdle s p).mgmt = s.mgmt ∧
    (State.alsLeaveIdle s p).trigLevel = s.trigLevel := by
  simp [State.alsLeaveIdle]

@[simp] theorem State.alsSuspend_keeps (s : State) (p : Port) :
    (State.alsSuspend s p).permits.asserted = s.permits.asserted ∧
    (State.alsSuspend s p).flash.cells = s.flash.cells ∧
    (State.alsSuspend s p).mem.cells = s.mem.cells ∧
    (State.alsSuspend s p).hb.doms = s.hb.doms ∧
    (State.alsSuspend s p).power = s.power ∧
    (State.alsSuspend s p).cfg = s.cfg ∧
    (State.alsSuspend s p).tim = s.tim ∧
    (State.alsSuspend s p).pnl = s.pnl ∧
    (State.alsSuspend s p).mbx = s.mbx ∧
    (State.alsSuspend s p).hb.bothFailed = s.hb.bothFailed ∧
    (State.alsSuspend s p).pending = s.pending ∧
    (State.alsSuspend s p).now = s.now ∧
    (State.alsSuspend s p).tiu = s.tiu ∧
    (State.alsSuspend s p).phs = s.phs ∧
    (State.alsSuspend s p).evt = s.evt ∧
    (State.alsSuspend s p).alarms = s.alarms ∧
    (State.alsSuspend s p).sup = s.sup ∧
    (State.alsSuspend s p).permits = s.permits ∧
    (State.alsSuspend s p).plk = s.plk ∧
    (State.alsSuspend s p).lanes = s.lanes ∧
    (State.alsSuspend s p).mgmt = s.mgmt ∧
    (State.alsSuspend s p).trigLevel = s.trigLevel := by
  unfold State.alsSuspend
  (repeat' split) <;> simp

@[simp] theorem State.alsUnsuspend_keeps (s : State) (p : Port) :
    (State.alsUnsuspend s p).permits.asserted = s.permits.asserted ∧
    (State.alsUnsuspend s p).flash.cells = s.flash.cells ∧
    (State.alsUnsuspend s p).mem.cells = s.mem.cells ∧
    (State.alsUnsuspend s p).hb.doms = s.hb.doms ∧
    (State.alsUnsuspend s p).power = s.power ∧
    (State.alsUnsuspend s p).cfg = s.cfg ∧
    (State.alsUnsuspend s p).tim = s.tim ∧
    (State.alsUnsuspend s p).pnl = s.pnl ∧
    (State.alsUnsuspend s p).mbx = s.mbx ∧
    (State.alsUnsuspend s p).hb.bothFailed = s.hb.bothFailed ∧
    (State.alsUnsuspend s p).pending = s.pending ∧
    (State.alsUnsuspend s p).now = s.now ∧
    (State.alsUnsuspend s p).tiu = s.tiu ∧
    (State.alsUnsuspend s p).acq = s.acq ∧
    (State.alsUnsuspend s p).phs = s.phs ∧
    (State.alsUnsuspend s p).evt = s.evt ∧
    (State.alsUnsuspend s p).alarms = s.alarms ∧
    (State.alsUnsuspend s p).dts = s.dts ∧
    (State.alsUnsuspend s p).sup = s.sup ∧
    (State.alsUnsuspend s p).permits = s.permits ∧
    (State.alsUnsuspend s p).plk = s.plk ∧
    (State.alsUnsuspend s p).lanes = s.lanes ∧
    (State.alsUnsuspend s p).mgmt = s.mgmt ∧
    (State.alsUnsuspend s p).trigLevel = s.trigLevel := by
  simp [State.alsUnsuspend]

@[simp] theorem State.alsGroupLaunched_keeps (s : State) (p : Port) (group : U48) :
    (State.alsGroupLaunched s p group).permits.asserted = s.permits.asserted ∧
    (State.alsGroupLaunched s p group).opt.ports = s.opt.ports ∧
    (State.alsGroupLaunched s p group).flash.cells = s.flash.cells ∧
    (State.alsGroupLaunched s p group).mem.cells = s.mem.cells ∧
    (State.alsGroupLaunched s p group).hb.doms = s.hb.doms ∧
    (State.alsGroupLaunched s p group).power = s.power ∧
    (State.alsGroupLaunched s p group).cfg = s.cfg ∧
    (State.alsGroupLaunched s p group).tim = s.tim ∧
    (State.alsGroupLaunched s p group).pnl = s.pnl ∧
    (State.alsGroupLaunched s p group).mbx = s.mbx ∧
    (State.alsGroupLaunched s p group).hb.bothFailed = s.hb.bothFailed ∧
    (State.alsGroupLaunched s p group).pending = s.pending ∧
    (State.alsGroupLaunched s p group).now = s.now ∧
    (State.alsGroupLaunched s p group).tiu = s.tiu ∧
    (State.alsGroupLaunched s p group).sht = s.sht ∧
    (State.alsGroupLaunched s p group).acq = s.acq ∧
    (State.alsGroupLaunched s p group).phs = s.phs ∧
    (State.alsGroupLaunched s p group).evt = s.evt ∧
    (State.alsGroupLaunched s p group).alarms = s.alarms ∧
    (State.alsGroupLaunched s p group).dts = s.dts ∧
    (State.alsGroupLaunched s p group).sup = s.sup ∧
    (State.alsGroupLaunched s p group).permits = s.permits ∧
    (State.alsGroupLaunched s p group).plk = s.plk ∧
    (State.alsGroupLaunched s p group).lanes = s.lanes ∧
    (State.alsGroupLaunched s p group).mgmt = s.mgmt ∧
    (State.alsGroupLaunched s p group).trigLevel = s.trigLevel ∧
    (State.alsGroupLaunched s p group).opt = s.opt := by
  simp [State.alsGroupLaunched]

@[simp] theorem State.alsGroupEnd_keeps (s : State) (p : Port) (group : U48) (near : Bool) (point : U32) :
    (State.alsGroupEnd s p group near point).permits.asserted = s.permits.asserted ∧
    (State.alsGroupEnd s p group near point).opt.ports = s.opt.ports ∧
    (State.alsGroupEnd s p group near point).flash.cells = s.flash.cells ∧
    (State.alsGroupEnd s p group near point).mem.cells = s.mem.cells ∧
    (State.alsGroupEnd s p group near point).hb.doms = s.hb.doms ∧
    (State.alsGroupEnd s p group near point).power = s.power ∧
    (State.alsGroupEnd s p group near point).cfg = s.cfg ∧
    (State.alsGroupEnd s p group near point).tim = s.tim ∧
    (State.alsGroupEnd s p group near point).pnl = s.pnl ∧
    (State.alsGroupEnd s p group near point).mbx = s.mbx ∧
    (State.alsGroupEnd s p group near point).hb.bothFailed = s.hb.bothFailed ∧
    (State.alsGroupEnd s p group near point).pending = s.pending ∧
    (State.alsGroupEnd s p group near point).now = s.now ∧
    (State.alsGroupEnd s p group near point).tiu = s.tiu ∧
    (State.alsGroupEnd s p group near point).sht = s.sht ∧
    (State.alsGroupEnd s p group near point).acq = s.acq ∧
    (State.alsGroupEnd s p group near point).phs = s.phs ∧
    (State.alsGroupEnd s p group near point).evt = s.evt ∧
    (State.alsGroupEnd s p group near point).alarms = s.alarms ∧
    (State.alsGroupEnd s p group near point).dts = s.dts ∧
    (State.alsGroupEnd s p group near point).sup = s.sup ∧
    (State.alsGroupEnd s p group near point).permits = s.permits ∧
    (State.alsGroupEnd s p group near point).plk = s.plk ∧
    (State.alsGroupEnd s p group near point).lanes = s.lanes ∧
    (State.alsGroupEnd s p group near point).mgmt = s.mgmt ∧
    (State.alsGroupEnd s p group near point).trigLevel = s.trigLevel ∧
    (State.alsGroupEnd s p group near point).opt = s.opt := by
  simp [State.alsGroupEnd]

@[simp] theorem State.holdPort_keeps (s : State) (p : Port) :
    (State.holdPort s p).permits.asserted = s.permits.asserted ∧
    (State.holdPort s p).flash.cells = s.flash.cells ∧
    (State.holdPort s p).mem.cells = s.mem.cells ∧
    (State.holdPort s p).hb.doms = s.hb.doms ∧
    (State.holdPort s p).power = s.power ∧
    (State.holdPort s p).cfg = s.cfg ∧
    (State.holdPort s p).tim = s.tim ∧
    (State.holdPort s p).pnl = s.pnl ∧
    (State.holdPort s p).mbx = s.mbx ∧
    (State.holdPort s p).hb.bothFailed = s.hb.bothFailed ∧
    (State.holdPort s p).pending = s.pending ∧
    (State.holdPort s p).now = s.now ∧
    (State.holdPort s p).tiu = s.tiu ∧
    (State.holdPort s p).phs = s.phs ∧
    (State.holdPort s p).evt = s.evt ∧
    (State.holdPort s p).alarms = s.alarms ∧
    (State.holdPort s p).sup = s.sup ∧
    (State.holdPort s p).permits = s.permits ∧
    (State.holdPort s p).plk = s.plk ∧
    (State.holdPort s p).lanes = s.lanes ∧
    (State.holdPort s p).mgmt = s.mgmt ∧
    (State.holdPort s p).trigLevel = s.trigLevel := by
  simp [State.holdPort]

@[simp] theorem State.operatorReaches_keeps (s : State) :
    (State.operatorReaches s).permits.asserted = s.permits.asserted ∧
    (State.operatorReaches s).opt.ports = s.opt.ports ∧
    (State.operatorReaches s).flash.cells = s.flash.cells ∧
    (State.operatorReaches s).mem.cells = s.mem.cells ∧
    (State.operatorReaches s).hb.doms = s.hb.doms ∧
    (State.operatorReaches s).power = s.power ∧
    (State.operatorReaches s).cfg = s.cfg ∧
    (State.operatorReaches s).tim = s.tim ∧
    (State.operatorReaches s).pnl = s.pnl ∧
    (State.operatorReaches s).mbx = s.mbx ∧
    (State.operatorReaches s).hb.bothFailed = s.hb.bothFailed ∧
    (State.operatorReaches s).pending = s.pending ∧
    (State.operatorReaches s).now = s.now ∧
    (State.operatorReaches s).tiu = s.tiu ∧
    (State.operatorReaches s).sht = s.sht ∧
    (State.operatorReaches s).acq = s.acq ∧
    (State.operatorReaches s).phs = s.phs ∧
    (State.operatorReaches s).evt = s.evt ∧
    (State.operatorReaches s).alarms = s.alarms ∧
    (State.operatorReaches s).dts = s.dts ∧
    (State.operatorReaches s).sup = s.sup ∧
    (State.operatorReaches s).als = s.als ∧
    (State.operatorReaches s).plk = s.plk ∧
    (State.operatorReaches s).lanes = s.lanes ∧
    (State.operatorReaches s).mgmt = s.mgmt ∧
    (State.operatorReaches s).trigLevel = s.trigLevel ∧
    (State.operatorReaches s).opt = s.opt := by
  simp [State.operatorReaches]

@[simp] theorem State.hardwiredRecord_keeps (s : State) (r : BbxRec) :
    (State.hardwiredRecord s r).permits.asserted = s.permits.asserted ∧
    (State.hardwiredRecord s r).opt.ports = s.opt.ports ∧
    (State.hardwiredRecord s r).flash.cells = s.flash.cells ∧
    (State.hardwiredRecord s r).mem.cells = s.mem.cells ∧
    (State.hardwiredRecord s r).hb.doms = s.hb.doms ∧
    (State.hardwiredRecord s r).power = s.power ∧
    (State.hardwiredRecord s r).cfg = s.cfg ∧
    (State.hardwiredRecord s r).tim = s.tim ∧
    (State.hardwiredRecord s r).pnl = s.pnl ∧
    (State.hardwiredRecord s r).mbx = s.mbx ∧
    (State.hardwiredRecord s r).hb.bothFailed = s.hb.bothFailed ∧
    (State.hardwiredRecord s r).pending = s.pending ∧
    (State.hardwiredRecord s r).now = s.now ∧
    (State.hardwiredRecord s r).tiu = s.tiu ∧
    (State.hardwiredRecord s r).sht = s.sht ∧
    (State.hardwiredRecord s r).acq = s.acq ∧
    (State.hardwiredRecord s r).phs = s.phs ∧
    (State.hardwiredRecord s r).evt = s.evt ∧
    (State.hardwiredRecord s r).alarms = s.alarms ∧
    (State.hardwiredRecord s r).dts = s.dts ∧
    (State.hardwiredRecord s r).sup = s.sup ∧
    (State.hardwiredRecord s r).permits = s.permits ∧
    (State.hardwiredRecord s r).als = s.als ∧
    (State.hardwiredRecord s r).plk = s.plk ∧
    (State.hardwiredRecord s r).lanes = s.lanes ∧
    (State.hardwiredRecord s r).mgmt = s.mgmt ∧
    (State.hardwiredRecord s r).trigLevel = s.trigLevel ∧
    (State.hardwiredRecord s r).opt = s.opt := by
  simp [State.hardwiredRecord]

@[simp] theorem State.powerFailRecords_keeps (s : State) (outMask : Nat) (undervoltage : Bool) :
    (State.powerFailRecords s outMask undervoltage).permits.asserted = s.permits.asserted ∧
    (State.powerFailRecords s outMask undervoltage).opt.ports = s.opt.ports ∧
    (State.powerFailRecords s outMask undervoltage).flash.cells = s.flash.cells ∧
    (State.powerFailRecords s outMask undervoltage).mem.cells = s.mem.cells ∧
    (State.powerFailRecords s outMask undervoltage).hb.doms = s.hb.doms ∧
    (State.powerFailRecords s outMask undervoltage).power = s.power ∧
    (State.powerFailRecords s outMask undervoltage).cfg = s.cfg ∧
    (State.powerFailRecords s outMask undervoltage).tim = s.tim ∧
    (State.powerFailRecords s outMask undervoltage).pnl = s.pnl ∧
    (State.powerFailRecords s outMask undervoltage).mbx = s.mbx ∧
    (State.powerFailRecords s outMask undervoltage).hb.bothFailed = s.hb.bothFailed ∧
    (State.powerFailRecords s outMask undervoltage).pending = s.pending ∧
    (State.powerFailRecords s outMask undervoltage).now = s.now ∧
    (State.powerFailRecords s outMask undervoltage).tiu = s.tiu ∧
    (State.powerFailRecords s outMask undervoltage).sht = s.sht ∧
    (State.powerFailRecords s outMask undervoltage).acq = s.acq ∧
    (State.powerFailRecords s outMask undervoltage).phs = s.phs ∧
    (State.powerFailRecords s outMask undervoltage).evt = s.evt ∧
    (State.powerFailRecords s outMask undervoltage).alarms = s.alarms ∧
    (State.powerFailRecords s outMask undervoltage).dts = s.dts ∧
    (State.powerFailRecords s outMask undervoltage).sup = s.sup ∧
    (State.powerFailRecords s outMask undervoltage).permits = s.permits ∧
    (State.powerFailRecords s outMask undervoltage).als = s.als ∧
    (State.powerFailRecords s outMask undervoltage).plk = s.plk ∧
    (State.powerFailRecords s outMask undervoltage).lanes = s.lanes ∧
    (State.powerFailRecords s outMask undervoltage).mgmt = s.mgmt ∧
    (State.powerFailRecords s outMask undervoltage).trigLevel = s.trigLevel ∧
    (State.powerFailRecords s outMask undervoltage).opt = s.opt := by
  simp [State.powerFailRecords]

@[simp] theorem State.bbxStart_keeps (s : State) (cause : Nat) :
    (State.bbxStart s cause).permits.asserted = s.permits.asserted ∧
    (State.bbxStart s cause).opt.ports = s.opt.ports ∧
    (State.bbxStart s cause).flash.cells = s.flash.cells ∧
    (State.bbxStart s cause).mem.cells = s.mem.cells ∧
    (State.bbxStart s cause).hb.doms = s.hb.doms ∧
    (State.bbxStart s cause).power = s.power ∧
    (State.bbxStart s cause).cfg = s.cfg ∧
    (State.bbxStart s cause).tim = s.tim ∧
    (State.bbxStart s cause).pnl = s.pnl ∧
    (State.bbxStart s cause).mbx = s.mbx ∧
    (State.bbxStart s cause).hb.bothFailed = s.hb.bothFailed ∧
    (State.bbxStart s cause).pending = s.pending ∧
    (State.bbxStart s cause).now = s.now ∧
    (State.bbxStart s cause).tiu = s.tiu ∧
    (State.bbxStart s cause).sht = s.sht ∧
    (State.bbxStart s cause).acq = s.acq ∧
    (State.bbxStart s cause).phs = s.phs ∧
    (State.bbxStart s cause).evt = s.evt ∧
    (State.bbxStart s cause).alarms = s.alarms ∧
    (State.bbxStart s cause).dts = s.dts ∧
    (State.bbxStart s cause).sup = s.sup ∧
    (State.bbxStart s cause).permits = s.permits ∧
    (State.bbxStart s cause).als = s.als ∧
    (State.bbxStart s cause).plk = s.plk ∧
    (State.bbxStart s cause).lanes = s.lanes ∧
    (State.bbxStart s cause).mgmt = s.mgmt ∧
    (State.bbxStart s cause).trigLevel = s.trigLevel ∧
    (State.bbxStart s cause).opt = s.opt := by
  simp [State.bbxStart]

@[simp] theorem State.discardNumbered_keeps (s : State) (r : RouteId) :
    (State.discardNumbered s r).permits.asserted = s.permits.asserted ∧
    (State.discardNumbered s r).opt.ports = s.opt.ports ∧
    (State.discardNumbered s r).flash.cells = s.flash.cells ∧
    (State.discardNumbered s r).mem.cells = s.mem.cells ∧
    (State.discardNumbered s r).hb.doms = s.hb.doms ∧
    (State.discardNumbered s r).power = s.power ∧
    (State.discardNumbered s r).cfg = s.cfg ∧
    (State.discardNumbered s r).tim = s.tim ∧
    (State.discardNumbered s r).pnl = s.pnl ∧
    (State.discardNumbered s r).mbx = s.mbx ∧
    (State.discardNumbered s r).hb.bothFailed = s.hb.bothFailed ∧
    (State.discardNumbered s r).pending = s.pending ∧
    (State.discardNumbered s r).now = s.now ∧
    (State.discardNumbered s r).tiu = s.tiu ∧
    (State.discardNumbered s r).sht = s.sht ∧
    (State.discardNumbered s r).acq = s.acq ∧
    (State.discardNumbered s r).phs = s.phs ∧
    (State.discardNumbered s r).evt = s.evt ∧
    (State.discardNumbered s r).alarms = s.alarms ∧
    (State.discardNumbered s r).dts = s.dts ∧
    (State.discardNumbered s r).sup = s.sup ∧
    (State.discardNumbered s r).permits = s.permits ∧
    (State.discardNumbered s r).als = s.als ∧
    (State.discardNumbered s r).plk = s.plk ∧
    (State.discardNumbered s r).lanes = s.lanes ∧
    (State.discardNumbered s r).mgmt = s.mgmt ∧
    (State.discardNumbered s r).trigLevel = s.trigLevel ∧
    (State.discardNumbered s r).opt = s.opt := by
  simp [State.discardNumbered]

@[simp] theorem State.discardRec_keeps (s : State) (r : RouteId) (p : PRec) :
    (State.discardRec s r p).permits.asserted = s.permits.asserted ∧
    (State.discardRec s r p).opt.ports = s.opt.ports ∧
    (State.discardRec s r p).flash.cells = s.flash.cells ∧
    (State.discardRec s r p).mem.cells = s.mem.cells ∧
    (State.discardRec s r p).hb.doms = s.hb.doms ∧
    (State.discardRec s r p).power = s.power ∧
    (State.discardRec s r p).cfg = s.cfg ∧
    (State.discardRec s r p).tim = s.tim ∧
    (State.discardRec s r p).pnl = s.pnl ∧
    (State.discardRec s r p).mbx = s.mbx ∧
    (State.discardRec s r p).hb.bothFailed = s.hb.bothFailed ∧
    (State.discardRec s r p).pending = s.pending ∧
    (State.discardRec s r p).now = s.now ∧
    (State.discardRec s r p).tiu = s.tiu ∧
    (State.discardRec s r p).sht = s.sht ∧
    (State.discardRec s r p).acq = s.acq ∧
    (State.discardRec s r p).phs = s.phs ∧
    (State.discardRec s r p).evt = s.evt ∧
    (State.discardRec s r p).alarms = s.alarms ∧
    (State.discardRec s r p).dts = s.dts ∧
    (State.discardRec s r p).sup = s.sup ∧
    (State.discardRec s r p).permits = s.permits ∧
    (State.discardRec s r p).als = s.als ∧
    (State.discardRec s r p).plk = s.plk ∧
    (State.discardRec s r p).lanes = s.lanes ∧
    (State.discardRec s r p).mgmt = s.mgmt ∧
    (State.discardRec s r p).trigLevel = s.trigLevel ∧
    (State.discardRec s r p).opt = s.opt := by
  simp [State.discardRec]

theorem State.startNext_keeps (l : Lane) (fuel : Nat) (s : State) : Keeps (State.startNext l fuel s) s := by
  induction fuel generalizing s with
  | zero => exact ⟨rfl, rfl, rfl, rfl, rfl⟩
  | succ n ih =>
    unfold State.startNext
    split
    · exact ⟨rfl, rfl, rfl, rfl, rfl⟩
    · dsimp only
      split
      · exact ⟨rfl, rfl, rfl, rfl, rfl⟩
      · rename_i t s' h
        have hs : Keeps s' s := by
          split at h <;> simp only [Option.some.injEq, Prod.mk.injEq, reduceCtorEq] at h
          · exact h.2 ▸ ⟨rfl, rfl, rfl, rfl, rfl⟩
          · exact h.2 ▸ ⟨rfl, rfl, rfl, rfl, rfl⟩
        split
        · exact ((ih _).trans (by simp [Keeps])).trans hs
        · exact Keeps.trans (by simp [Keeps]) hs

@[simp] theorem State.enqueueRec_keeps (s : State) (r : RouteId) (p : PRec) :
    (s.enqueueRec r p).permits.asserted = s.permits.asserted ∧
    (s.enqueueRec r p).opt.ports = s.opt.ports ∧
    (s.enqueueRec r p).flash.cells = s.flash.cells ∧
    (s.enqueueRec r p).mem.cells = s.mem.cells ∧
    (s.enqueueRec r p).hb.doms = s.hb.doms := by
  unfold State.enqueueRec
  dsimp only
  refine keeps_ite (by simp [Keeps]) (keeps_ite (by simp [Keeps]) ?_)
  exact (State.startNext_keeps _ _ _).trans (by simp [Keeps])

theorem State.startNext_still (l : Lane) (fuel : Nat) (s : State) : Still (State.startNext l fuel s) s := by
  induction fuel generalizing s with
  | zero => exact ⟨rfl, rfl, rfl, rfl, rfl, rfl, rfl, rfl⟩
  | succ n ih =>
    unfold State.startNext
    split
    · exact ⟨rfl, rfl, rfl, rfl, rfl, rfl, rfl, rfl⟩
    · dsimp only
      split
      · exact ⟨rfl, rfl, rfl, rfl, rfl, rfl, rfl, rfl⟩
      · rename_i t s' h
        have hs : Still s' s := by
          split at h <;> simp only [Option.some.injEq, Prod.mk.injEq, reduceCtorEq] at h
          · exact h.2 ▸ ⟨rfl, rfl, rfl, rfl, rfl, rfl, rfl, rfl⟩
          · exact h.2 ▸ ⟨rfl, rfl, rfl, rfl, rfl, rfl, rfl, rfl⟩
        split
        · exact ((ih _).trans (by simp [Still])).trans hs
        · exact Still.trans (by simp [Still]) hs

@[simp] theorem State.enqueueRec_still (s : State) (r : RouteId) (p : PRec) :
    (s.enqueueRec r p).power = s.power ∧
    (s.enqueueRec r p).cfg = s.cfg ∧
    (s.enqueueRec r p).tim = s.tim ∧
    (s.enqueueRec r p).pnl = s.pnl ∧
    (s.enqueueRec r p).mbx = s.mbx ∧
    (s.enqueueRec r p).hb.bothFailed = s.hb.bothFailed ∧
    (s.enqueueRec r p).pending = s.pending ∧
    (s.enqueueRec r p).now = s.now := by
  unfold State.enqueueRec
  dsimp only
  refine still_ite (by simp [Still]) (still_ite (by simp [Still]) ?_)
  exact (State.startNext_still _ _ _).trans (by simp [Still])

theorem State.startNext_same (l : Lane) (fuel : Nat) (s : State) : Same (fun s => (s.tiu, s.sht, s.acq, s.phs, s.evt, s.alarms, s.dts, s.sup, s.permits, s.als, s.plk, s.mgmt, s.trigLevel, s.opt)) (State.startNext l fuel s) s := by
  induction fuel generalizing s with
  | zero => exact rfl
  | succ n ih =>
    unfold State.startNext
    split
    · exact rfl
    · dsimp only
      split
      · exact rfl
      · rename_i t s' h
        have hs : Same (fun s => (s.tiu, s.sht, s.acq, s.phs, s.evt, s.alarms, s.dts, s.sup, s.permits, s.als, s.plk, s.mgmt, s.trigLevel, s.opt)) s' s := by
          split at h <;> simp only [Option.some.injEq, Prod.mk.injEq, reduceCtorEq] at h
          · exact h.2 ▸ rfl
          · exact h.2 ▸ rfl
        split
        · exact ((ih _).trans (by simp [Same])).trans hs
        · exact Same.trans (by simp [Same]) hs

theorem State.enqueueRec_same (s : State) (r : RouteId) (p : PRec) :
    Same (fun s => (s.tiu, s.sht, s.acq, s.phs, s.evt, s.alarms, s.dts, s.sup, s.permits, s.als, s.plk, s.mgmt, s.trigLevel, s.opt)) (s.enqueueRec r p) s := by
  unfold State.enqueueRec
  dsimp only
  refine same_ite (by simp [Same]) (same_ite (by simp [Same]) ?_)
  exact (State.startNext_same _ _ _).trans (by simp [Same])

@[simp] theorem State.enqueueRec_blocks (s : State) (r : RouteId) (p : PRec) :
    (State.enqueueRec s r p).tiu = s.tiu ∧
    (State.enqueueRec s r p).sht = s.sht ∧
    (State.enqueueRec s r p).acq = s.acq ∧
    (State.enqueueRec s r p).phs = s.phs ∧
    (State.enqueueRec s r p).evt = s.evt ∧
    (State.enqueueRec s r p).alarms = s.alarms ∧
    (State.enqueueRec s r p).dts = s.dts ∧
    (State.enqueueRec s r p).sup = s.sup ∧
    (State.enqueueRec s r p).permits = s.permits ∧
    (State.enqueueRec s r p).als = s.als ∧
    (State.enqueueRec s r p).plk = s.plk ∧
    (State.enqueueRec s r p).mgmt = s.mgmt ∧
    (State.enqueueRec s r p).trigLevel = s.trigLevel ∧
    (State.enqueueRec s r p).opt = s.opt := by
  simpa [Same] using State.enqueueRec_same s r p

@[simp] theorem State.askHop_keeps (s : State) (l : Lane) (ip : U32) :
    (State.askHop s l ip).permits.asserted = s.permits.asserted ∧
    (State.askHop s l ip).opt.ports = s.opt.ports ∧
    (State.askHop s l ip).flash.cells = s.flash.cells ∧
    (State.askHop s l ip).mem.cells = s.mem.cells ∧
    (State.askHop s l ip).hb.doms = s.hb.doms ∧
    (State.askHop s l ip).power = s.power ∧
    (State.askHop s l ip).cfg = s.cfg ∧
    (State.askHop s l ip).tim = s.tim ∧
    (State.askHop s l ip).pnl = s.pnl ∧
    (State.askHop s l ip).mbx = s.mbx ∧
    (State.askHop s l ip).hb.bothFailed = s.hb.bothFailed ∧
    (State.askHop s l ip).pending = s.pending ∧
    (State.askHop s l ip).now = s.now ∧
    (State.askHop s l ip).tiu = s.tiu ∧
    (State.askHop s l ip).sht = s.sht ∧
    (State.askHop s l ip).acq = s.acq ∧
    (State.askHop s l ip).phs = s.phs ∧
    (State.askHop s l ip).evt = s.evt ∧
    (State.askHop s l ip).alarms = s.alarms ∧
    (State.askHop s l ip).dts = s.dts ∧
    (State.askHop s l ip).sup = s.sup ∧
    (State.askHop s l ip).permits = s.permits ∧
    (State.askHop s l ip).als = s.als ∧
    (State.askHop s l ip).plk = s.plk ∧
    (State.askHop s l ip).mgmt = s.mgmt ∧
    (State.askHop s l ip).trigLevel = s.trigLevel ∧
    (State.askHop s l ip).opt = s.opt := by
  simp [State.askHop]

@[simp] theorem State.closeTags_keeps (s : State) (r : RouteId) (p : Port) :
    (State.closeTags s r p).permits.asserted = s.permits.asserted ∧
    (State.closeTags s r p).opt.ports = s.opt.ports ∧
    (State.closeTags s r p).flash.cells = s.flash.cells ∧
    (State.closeTags s r p).mem.cells = s.mem.cells ∧
    (State.closeTags s r p).hb.doms = s.hb.doms ∧
    (State.closeTags s r p).power = s.power ∧
    (State.closeTags s r p).cfg = s.cfg ∧
    (State.closeTags s r p).tim = s.tim ∧
    (State.closeTags s r p).pnl = s.pnl ∧
    (State.closeTags s r p).mbx = s.mbx ∧
    (State.closeTags s r p).hb.bothFailed = s.hb.bothFailed ∧
    (State.closeTags s r p).pending = s.pending ∧
    (State.closeTags s r p).now = s.now ∧
    (State.closeTags s r p).tiu = s.tiu ∧
    (State.closeTags s r p).sht = s.sht ∧
    (State.closeTags s r p).acq = s.acq ∧
    (State.closeTags s r p).phs = s.phs ∧
    (State.closeTags s r p).evt = s.evt ∧
    (State.closeTags s r p).alarms = s.alarms ∧
    (State.closeTags s r p).dts = s.dts ∧
    (State.closeTags s r p).sup = s.sup ∧
    (State.closeTags s r p).permits = s.permits ∧
    (State.closeTags s r p).als = s.als ∧
    (State.closeTags s r p).plk = s.plk ∧
    (State.closeTags s r p).lanes = s.lanes ∧
    (State.closeTags s r p).mgmt = s.mgmt ∧
    (State.closeTags s r p).trigLevel = s.trigLevel ∧
    (State.closeTags s r p).opt = s.opt := by
  simp [State.closeTags]

@[simp] theorem State.closeRingTags_keeps (s : State) (p : Port) :
    (State.closeRingTags s p).permits.asserted = s.permits.asserted ∧
    (State.closeRingTags s p).opt.ports = s.opt.ports ∧
    (State.closeRingTags s p).flash.cells = s.flash.cells ∧
    (State.closeRingTags s p).mem.cells = s.mem.cells ∧
    (State.closeRingTags s p).hb.doms = s.hb.doms ∧
    (State.closeRingTags s p).power = s.power ∧
    (State.closeRingTags s p).cfg = s.cfg ∧
    (State.closeRingTags s p).tim = s.tim ∧
    (State.closeRingTags s p).pnl = s.pnl ∧
    (State.closeRingTags s p).mbx = s.mbx ∧
    (State.closeRingTags s p).hb.bothFailed = s.hb.bothFailed ∧
    (State.closeRingTags s p).pending = s.pending ∧
    (State.closeRingTags s p).now = s.now ∧
    (State.closeRingTags s p).tiu = s.tiu ∧
    (State.closeRingTags s p).sht = s.sht ∧
    (State.closeRingTags s p).acq = s.acq ∧
    (State.closeRingTags s p).phs = s.phs ∧
    (State.closeRingTags s p).evt = s.evt ∧
    (State.closeRingTags s p).alarms = s.alarms ∧
    (State.closeRingTags s p).dts = s.dts ∧
    (State.closeRingTags s p).sup = s.sup ∧
    (State.closeRingTags s p).permits = s.permits ∧
    (State.closeRingTags s p).als = s.als ∧
    (State.closeRingTags s p).plk = s.plk ∧
    (State.closeRingTags s p).lanes = s.lanes ∧
    (State.closeRingTags s p).mgmt = s.mgmt ∧
    (State.closeRingTags s p).trigLevel = s.trigLevel ∧
    (State.closeRingTags s p).opt = s.opt := by
  simp [State.closeRingTags]

@[simp] theorem State.addTag_keeps (s : State) (p : Port) (e : List Byte) :
    (State.addTag s p e).permits.asserted = s.permits.asserted ∧
    (State.addTag s p e).opt.ports = s.opt.ports ∧
    (State.addTag s p e).flash.cells = s.flash.cells ∧
    (State.addTag s p e).mem.cells = s.mem.cells ∧
    (State.addTag s p e).hb.doms = s.hb.doms ∧
    (State.addTag s p e).power = s.power ∧
    (State.addTag s p e).cfg = s.cfg ∧
    (State.addTag s p e).tim = s.tim ∧
    (State.addTag s p e).pnl = s.pnl ∧
    (State.addTag s p e).mbx = s.mbx ∧
    (State.addTag s p e).hb.bothFailed = s.hb.bothFailed ∧
    (State.addTag s p e).pending = s.pending ∧
    (State.addTag s p e).now = s.now ∧
    (State.addTag s p e).tiu = s.tiu ∧
    (State.addTag s p e).sht = s.sht ∧
    (State.addTag s p e).acq = s.acq ∧
    (State.addTag s p e).phs = s.phs ∧
    (State.addTag s p e).evt = s.evt ∧
    (State.addTag s p e).alarms = s.alarms ∧
    (State.addTag s p e).dts = s.dts ∧
    (State.addTag s p e).sup = s.sup ∧
    (State.addTag s p e).permits = s.permits ∧
    (State.addTag s p e).als = s.als ∧
    (State.addTag s p e).plk = s.plk ∧
    (State.addTag s p e).lanes = s.lanes ∧
    (State.addTag s p e).mgmt = s.mgmt ∧
    (State.addTag s p e).trigLevel = s.trigLevel ∧
    (State.addTag s p e).opt = s.opt := by
  simp [State.addTag]

@[simp] theorem State.dropLane_keeps (s : State) (l : Lane) :
    (State.dropLane s l).permits.asserted = s.permits.asserted ∧
    (State.dropLane s l).opt.ports = s.opt.ports ∧
    (State.dropLane s l).flash.cells = s.flash.cells ∧
    (State.dropLane s l).mem.cells = s.mem.cells ∧
    (State.dropLane s l).hb.doms = s.hb.doms ∧
    (State.dropLane s l).power = s.power ∧
    (State.dropLane s l).cfg = s.cfg ∧
    (State.dropLane s l).tim = s.tim ∧
    (State.dropLane s l).pnl = s.pnl ∧
    (State.dropLane s l).mbx = s.mbx ∧
    (State.dropLane s l).hb.bothFailed = s.hb.bothFailed ∧
    (State.dropLane s l).pending = s.pending ∧
    (State.dropLane s l).now = s.now ∧
    (State.dropLane s l).tiu = s.tiu ∧
    (State.dropLane s l).sht = s.sht ∧
    (State.dropLane s l).acq = s.acq ∧
    (State.dropLane s l).phs = s.phs ∧
    (State.dropLane s l).evt = s.evt ∧
    (State.dropLane s l).alarms = s.alarms ∧
    (State.dropLane s l).dts = s.dts ∧
    (State.dropLane s l).sup = s.sup ∧
    (State.dropLane s l).permits = s.permits ∧
    (State.dropLane s l).als = s.als ∧
    (State.dropLane s l).plk = s.plk ∧
    (State.dropLane s l).mgmt = s.mgmt ∧
    (State.dropLane s l).trigLevel = s.trigLevel ∧
    (State.dropLane s l).opt = s.opt := by
  unfold State.dropLane
  (repeat' split) <;> simp

@[simp] theorem State.countBlocks_keeps (s : State) (p : Port) (coding : Nat) (flushed : Bool) (bs : List (Nat × CodedBlock)) :
    (State.countBlocks s p coding flushed bs).permits.asserted = s.permits.asserted ∧
    (State.countBlocks s p coding flushed bs).opt.ports = s.opt.ports ∧
    (State.countBlocks s p coding flushed bs).flash.cells = s.flash.cells ∧
    (State.countBlocks s p coding flushed bs).mem.cells = s.mem.cells ∧
    (State.countBlocks s p coding flushed bs).hb.doms = s.hb.doms ∧
    (State.countBlocks s p coding flushed bs).power = s.power ∧
    (State.countBlocks s p coding flushed bs).cfg = s.cfg ∧
    (State.countBlocks s p coding flushed bs).tim = s.tim ∧
    (State.countBlocks s p coding flushed bs).pnl = s.pnl ∧
    (State.countBlocks s p coding flushed bs).mbx = s.mbx ∧
    (State.countBlocks s p coding flushed bs).hb.bothFailed = s.hb.bothFailed ∧
    (State.countBlocks s p coding flushed bs).pending = s.pending ∧
    (State.countBlocks s p coding flushed bs).now = s.now ∧
    (State.countBlocks s p coding flushed bs).tiu = s.tiu ∧
    (State.countBlocks s p coding flushed bs).sht = s.sht ∧
    (State.countBlocks s p coding flushed bs).acq = s.acq ∧
    (State.countBlocks s p coding flushed bs).phs = s.phs ∧
    (State.countBlocks s p coding flushed bs).evt = s.evt ∧
    (State.countBlocks s p coding flushed bs).alarms = s.alarms ∧
    (State.countBlocks s p coding flushed bs).dts = s.dts ∧
    (State.countBlocks s p coding flushed bs).sup = s.sup ∧
    (State.countBlocks s p coding flushed bs).permits = s.permits ∧
    (State.countBlocks s p coding flushed bs).als = s.als ∧
    (State.countBlocks s p coding flushed bs).plk = s.plk ∧
    (State.countBlocks s p coding flushed bs).lanes = s.lanes ∧
    (State.countBlocks s p coding flushed bs).mgmt = s.mgmt ∧
    (State.countBlocks s p coding flushed bs).trigLevel = s.trigLevel ∧
    (State.countBlocks s p coding flushed bs).opt = s.opt := by
  simp [State.countBlocks]

@[simp] theorem State.closeGather_keeps (s : State) (r : RouteId) (p : Port) (g : Gather) (flushed : Bool) :
    (s.closeGather r p g flushed).permits.asserted = s.permits.asserted ∧
    (s.closeGather r p g flushed).opt.ports = s.opt.ports ∧
    (s.closeGather r p g flushed).flash.cells = s.flash.cells ∧
    (s.closeGather r p g flushed).mem.cells = s.mem.cells ∧
    (s.closeGather r p g flushed).hb.doms = s.hb.doms := by
  unfold State.closeGather
  dsimp only
  refine keeps_ite ⟨rfl, rfl, rfl, rfl, rfl⟩ (keeps_ite ?_ ?_)
  · exact (keeps_foldl _ (fun _ _ => by simp [Keeps]) _ _).trans (by simp [Keeps])
  · exact (keeps_foldl _ (fun _ _ => by simp [Keeps]) _ _).trans (by simp [Keeps])

@[simp] theorem State.closeGather_still (s : State) (r : RouteId) (p : Port) (g : Gather) (flushed : Bool) :
    (s.closeGather r p g flushed).power = s.power ∧
    (s.closeGather r p g flushed).cfg = s.cfg ∧
    (s.closeGather r p g flushed).tim = s.tim ∧
    (s.closeGather r p g flushed).pnl = s.pnl ∧
    (s.closeGather r p g flushed).mbx = s.mbx ∧
    (s.closeGather r p g flushed).hb.bothFailed = s.hb.bothFailed ∧
    (s.closeGather r p g flushed).pending = s.pending ∧
    (s.closeGather r p g flushed).now = s.now := by
  unfold State.closeGather
  dsimp only
  refine still_ite ⟨rfl, rfl, rfl, rfl, rfl, rfl, rfl, rfl⟩ (still_ite ?_ ?_)
  · exact (still_foldl _ (fun _ _ => by simp [Still]) _ _).trans (by simp [Still])
  · exact (still_foldl _ (fun _ _ => by simp [Still]) _ _).trans (by simp [Still])

theorem State.closeGather_same (s : State) (r : RouteId) (p : Port) (g : Gather) (flushed : Bool) :
    Same (fun s => (s.tiu, s.sht, s.acq, s.phs, s.evt, s.alarms, s.dts, s.sup, s.permits, s.als, s.plk, s.lanes, s.mgmt, s.trigLevel, s.opt)) (s.closeGather r p g flushed) s := by
  unfold State.closeGather
  dsimp only
  refine same_ite rfl (same_ite ?_ ?_)
  · exact (same_foldl _ (fun _ _ => by simp [Same]) _ _).trans (by simp [Same])
  · exact (same_foldl _ (fun _ _ => by simp [Same]) _ _).trans (by simp [Same])

@[simp] theorem State.closeGather_blocks (s : State) (r : RouteId) (p : Port) (g : Gather) (flushed : Bool) :
    (State.closeGather s r p g flushed).tiu = s.tiu ∧
    (State.closeGather s r p g flushed).sht = s.sht ∧
    (State.closeGather s r p g flushed).acq = s.acq ∧
    (State.closeGather s r p g flushed).phs = s.phs ∧
    (State.closeGather s r p g flushed).evt = s.evt ∧
    (State.closeGather s r p g flushed).alarms = s.alarms ∧
    (State.closeGather s r p g flushed).dts = s.dts ∧
    (State.closeGather s r p g flushed).sup = s.sup ∧
    (State.closeGather s r p g flushed).permits = s.permits ∧
    (State.closeGather s r p g flushed).als = s.als ∧
    (State.closeGather s r p g flushed).plk = s.plk ∧
    (State.closeGather s r p g flushed).lanes = s.lanes ∧
    (State.closeGather s r p g flushed).mgmt = s.mgmt ∧
    (State.closeGather s r p g flushed).trigLevel = s.trigLevel ∧
    (State.closeGather s r p g flushed).opt = s.opt := by
  simpa [Same] using State.closeGather_same s r p g flushed

@[simp] theorem State.routeRow_keeps (s : State) (r : RouteId) (p : Port) (product : Nat) (coarse : Bool) (o : Int) (row : Row) :
    (State.routeRow s r p product coarse o row).permits.asserted = s.permits.asserted ∧
    (State.routeRow s r p product coarse o row).opt.ports = s.opt.ports ∧
    (State.routeRow s r p product coarse o row).flash.cells = s.flash.cells ∧
    (State.routeRow s r p product coarse o row).mem.cells = s.mem.cells ∧
    (State.routeRow s r p product coarse o row).hb.doms = s.hb.doms ∧
    (State.routeRow s r p product coarse o row).power = s.power ∧
    (State.routeRow s r p product coarse o row).cfg = s.cfg ∧
    (State.routeRow s r p product coarse o row).tim = s.tim ∧
    (State.routeRow s r p product coarse o row).pnl = s.pnl ∧
    (State.routeRow s r p product coarse o row).mbx = s.mbx ∧
    (State.routeRow s r p product coarse o row).hb.bothFailed = s.hb.bothFailed ∧
    (State.routeRow s r p product coarse o row).pending = s.pending ∧
    (State.routeRow s r p product coarse o row).now = s.now ∧
    (State.routeRow s r p product coarse o row).tiu = s.tiu ∧
    (State.routeRow s r p product coarse o row).sht = s.sht ∧
    (State.routeRow s r p product coarse o row).acq = s.acq ∧
    (State.routeRow s r p product coarse o row).phs = s.phs ∧
    (State.routeRow s r p product coarse o row).evt = s.evt ∧
    (State.routeRow s r p product coarse o row).alarms = s.alarms ∧
    (State.routeRow s r p product coarse o row).dts = s.dts ∧
    (State.routeRow s r p product coarse o row).sup = s.sup ∧
    (State.routeRow s r p product coarse o row).permits = s.permits ∧
    (State.routeRow s r p product coarse o row).als = s.als ∧
    (State.routeRow s r p product coarse o row).plk = s.plk ∧
    (State.routeRow s r p product coarse o row).lanes = s.lanes ∧
    (State.routeRow s r p product coarse o row).mgmt = s.mgmt ∧
    (State.routeRow s r p product coarse o row).trigLevel = s.trigLevel ∧
    (State.routeRow s r p product coarse o row).opt = s.opt := by
  simp [State.routeRow]

@[simp] theorem State.closeRing_keeps (s : State) (p : Port) (flushed : Bool) :
    (State.closeRing s p flushed).permits.asserted = s.permits.asserted ∧
    (State.closeRing s p flushed).opt.ports = s.opt.ports ∧
    (State.closeRing s p flushed).flash.cells = s.flash.cells ∧
    (State.closeRing s p flushed).mem.cells = s.mem.cells ∧
    (State.closeRing s p flushed).hb.doms = s.hb.doms ∧
    (State.closeRing s p flushed).power = s.power ∧
    (State.closeRing s p flushed).cfg = s.cfg ∧
    (State.closeRing s p flushed).tim = s.tim ∧
    (State.closeRing s p flushed).pnl = s.pnl ∧
    (State.closeRing s p flushed).mbx = s.mbx ∧
    (State.closeRing s p flushed).hb.bothFailed = s.hb.bothFailed ∧
    (State.closeRing s p flushed).pending = s.pending ∧
    (State.closeRing s p flushed).now = s.now ∧
    (State.closeRing s p flushed).tiu = s.tiu ∧
    (State.closeRing s p flushed).sht = s.sht ∧
    (State.closeRing s p flushed).acq = s.acq ∧
    (State.closeRing s p flushed).phs = s.phs ∧
    (State.closeRing s p flushed).evt = s.evt ∧
    (State.closeRing s p flushed).alarms = s.alarms ∧
    (State.closeRing s p flushed).dts = s.dts ∧
    (State.closeRing s p flushed).sup = s.sup ∧
    (State.closeRing s p flushed).permits = s.permits ∧
    (State.closeRing s p flushed).als = s.als ∧
    (State.closeRing s p flushed).plk = s.plk ∧
    (State.closeRing s p flushed).lanes = s.lanes ∧
    (State.closeRing s p flushed).mgmt = s.mgmt ∧
    (State.closeRing s p flushed).trigLevel = s.trigLevel ∧
    (State.closeRing s p flushed).opt = s.opt := by
  simp only [State.closeRing]
  (repeat' split) <;> simp

@[simp] theorem State.ringRow_keeps (s : State) (p : Port) (product : Nat) (coarse : Bool) (o : Int) (row : Row) :
    (State.ringRow s p product coarse o row).permits.asserted = s.permits.asserted ∧
    (State.ringRow s p product coarse o row).opt.ports = s.opt.ports ∧
    (State.ringRow s p product coarse o row).flash.cells = s.flash.cells ∧
    (State.ringRow s p product coarse o row).mem.cells = s.mem.cells ∧
    (State.ringRow s p product coarse o row).hb.doms = s.hb.doms ∧
    (State.ringRow s p product coarse o row).power = s.power ∧
    (State.ringRow s p product coarse o row).cfg = s.cfg ∧
    (State.ringRow s p product coarse o row).tim = s.tim ∧
    (State.ringRow s p product coarse o row).pnl = s.pnl ∧
    (State.ringRow s p product coarse o row).mbx = s.mbx ∧
    (State.ringRow s p product coarse o row).hb.bothFailed = s.hb.bothFailed ∧
    (State.ringRow s p product coarse o row).pending = s.pending ∧
    (State.ringRow s p product coarse o row).now = s.now ∧
    (State.ringRow s p product coarse o row).tiu = s.tiu ∧
    (State.ringRow s p product coarse o row).sht = s.sht ∧
    (State.ringRow s p product coarse o row).acq = s.acq ∧
    (State.ringRow s p product coarse o row).phs = s.phs ∧
    (State.ringRow s p product coarse o row).evt = s.evt ∧
    (State.ringRow s p product coarse o row).alarms = s.alarms ∧
    (State.ringRow s p product coarse o row).dts = s.dts ∧
    (State.ringRow s p product coarse o row).sup = s.sup ∧
    (State.ringRow s p product coarse o row).permits = s.permits ∧
    (State.ringRow s p product coarse o row).als = s.als ∧
    (State.ringRow s p product coarse o row).plk = s.plk ∧
    (State.ringRow s p product coarse o row).lanes = s.lanes ∧
    (State.ringRow s p product coarse o row).mgmt = s.mgmt ∧
    (State.ringRow s p product coarse o row).trigLevel = s.trigLevel ∧
    (State.ringRow s p product coarse o row).opt = s.opt := by
  simp [State.ringRow]

@[simp] theorem State.emitRow_keeps (s : State) (p : Port) (product : Nat) (coarse : Bool) (o : Int) (row : Row) :
    (State.emitRow s p product coarse o row).permits.asserted = s.permits.asserted ∧
    (State.emitRow s p product coarse o row).opt.ports = s.opt.ports ∧
    (State.emitRow s p product coarse o row).flash.cells = s.flash.cells ∧
    (State.emitRow s p product coarse o row).mem.cells = s.mem.cells ∧
    (State.emitRow s p product coarse o row).hb.doms = s.hb.doms ∧
    (State.emitRow s p product coarse o row).power = s.power ∧
    (State.emitRow s p product coarse o row).cfg = s.cfg ∧
    (State.emitRow s p product coarse o row).tim = s.tim ∧
    (State.emitRow s p product coarse o row).pnl = s.pnl ∧
    (State.emitRow s p product coarse o row).mbx = s.mbx ∧
    (State.emitRow s p product coarse o row).hb.bothFailed = s.hb.bothFailed ∧
    (State.emitRow s p product coarse o row).pending = s.pending ∧
    (State.emitRow s p product coarse o row).now = s.now ∧
    (State.emitRow s p product coarse o row).tiu = s.tiu ∧
    (State.emitRow s p product coarse o row).sht = s.sht ∧
    (State.emitRow s p product coarse o row).acq = s.acq ∧
    (State.emitRow s p product coarse o row).phs = s.phs ∧
    (State.emitRow s p product coarse o row).evt = s.evt ∧
    (State.emitRow s p product coarse o row).alarms = s.alarms ∧
    (State.emitRow s p product coarse o row).dts = s.dts ∧
    (State.emitRow s p product coarse o row).sup = s.sup ∧
    (State.emitRow s p product coarse o row).permits = s.permits ∧
    (State.emitRow s p product coarse o row).als = s.als ∧
    (State.emitRow s p product coarse o row).plk = s.plk ∧
    (State.emitRow s p product coarse o row).lanes = s.lanes ∧
    (State.emitRow s p product coarse o row).mgmt = s.mgmt ∧
    (State.emitRow s p product coarse o row).trigLevel = s.trigLevel ∧
    (State.emitRow s p product coarse o row).opt = s.opt := by
  simp [State.emitRow]

@[simp] theorem State.flushPort_keeps (s : State) (p : Port) :
    (State.flushPort s p).permits.asserted = s.permits.asserted ∧
    (State.flushPort s p).opt.ports = s.opt.ports ∧
    (State.flushPort s p).flash.cells = s.flash.cells ∧
    (State.flushPort s p).mem.cells = s.mem.cells ∧
    (State.flushPort s p).hb.doms = s.hb.doms ∧
    (State.flushPort s p).power = s.power ∧
    (State.flushPort s p).cfg = s.cfg ∧
    (State.flushPort s p).tim = s.tim ∧
    (State.flushPort s p).pnl = s.pnl ∧
    (State.flushPort s p).mbx = s.mbx ∧
    (State.flushPort s p).hb.bothFailed = s.hb.bothFailed ∧
    (State.flushPort s p).pending = s.pending ∧
    (State.flushPort s p).now = s.now ∧
    (State.flushPort s p).tiu = s.tiu ∧
    (State.flushPort s p).sht = s.sht ∧
    (State.flushPort s p).acq = s.acq ∧
    (State.flushPort s p).phs = s.phs ∧
    (State.flushPort s p).evt = s.evt ∧
    (State.flushPort s p).alarms = s.alarms ∧
    (State.flushPort s p).dts = s.dts ∧
    (State.flushPort s p).sup = s.sup ∧
    (State.flushPort s p).permits = s.permits ∧
    (State.flushPort s p).als = s.als ∧
    (State.flushPort s p).plk = s.plk ∧
    (State.flushPort s p).lanes = s.lanes ∧
    (State.flushPort s p).mgmt = s.mgmt ∧
    (State.flushPort s p).trigLevel = s.trigLevel ∧
    (State.flushPort s p).opt = s.opt := by
  simp [State.flushPort]

@[simp] theorem State.dropCoders_keeps (s : State) :
    (State.dropCoders s).permits.asserted = s.permits.asserted ∧
    (State.dropCoders s).opt.ports = s.opt.ports ∧
    (State.dropCoders s).flash.cells = s.flash.cells ∧
    (State.dropCoders s).mem.cells = s.mem.cells ∧
    (State.dropCoders s).hb.doms = s.hb.doms ∧
    (State.dropCoders s).power = s.power ∧
    (State.dropCoders s).cfg = s.cfg ∧
    (State.dropCoders s).tim = s.tim ∧
    (State.dropCoders s).pnl = s.pnl ∧
    (State.dropCoders s).mbx = s.mbx ∧
    (State.dropCoders s).hb.bothFailed = s.hb.bothFailed ∧
    (State.dropCoders s).pending = s.pending ∧
    (State.dropCoders s).now = s.now ∧
    (State.dropCoders s).tiu = s.tiu ∧
    (State.dropCoders s).sht = s.sht ∧
    (State.dropCoders s).acq = s.acq ∧
    (State.dropCoders s).phs = s.phs ∧
    (State.dropCoders s).evt = s.evt ∧
    (State.dropCoders s).alarms = s.alarms ∧
    (State.dropCoders s).dts = s.dts ∧
    (State.dropCoders s).sup = s.sup ∧
    (State.dropCoders s).permits = s.permits ∧
    (State.dropCoders s).als = s.als ∧
    (State.dropCoders s).plk = s.plk ∧
    (State.dropCoders s).lanes = s.lanes ∧
    (State.dropCoders s).mgmt = s.mgmt ∧
    (State.dropCoders s).trigLevel = s.trigLevel ∧
    (State.dropCoders s).opt = s.opt := by
  simp [State.dropCoders]

@[simp] theorem State.stageReport_keeps (s : State) (code detail : Nat) :
    (State.stageReport s code detail).permits.asserted = s.permits.asserted ∧
    (State.stageReport s code detail).opt.ports = s.opt.ports ∧
    (State.stageReport s code detail).flash.cells = s.flash.cells ∧
    (State.stageReport s code detail).mem.cells = s.mem.cells ∧
    (State.stageReport s code detail).hb.doms = s.hb.doms ∧
    (State.stageReport s code detail).power = s.power ∧
    (State.stageReport s code detail).tim = s.tim ∧
    (State.stageReport s code detail).pnl = s.pnl ∧
    (State.stageReport s code detail).mbx = s.mbx ∧
    (State.stageReport s code detail).hb.bothFailed = s.hb.bothFailed ∧
    (State.stageReport s code detail).pending = s.pending ∧
    (State.stageReport s code detail).now = s.now ∧
    (State.stageReport s code detail).tiu = s.tiu ∧
    (State.stageReport s code detail).sht = s.sht ∧
    (State.stageReport s code detail).acq = s.acq ∧
    (State.stageReport s code detail).phs = s.phs ∧
    (State.stageReport s code detail).evt = s.evt ∧
    (State.stageReport s code detail).alarms = s.alarms ∧
    (State.stageReport s code detail).dts = s.dts ∧
    (State.stageReport s code detail).sup = s.sup ∧
    (State.stageReport s code detail).permits = s.permits ∧
    (State.stageReport s code detail).als = s.als ∧
    (State.stageReport s code detail).plk = s.plk ∧
    (State.stageReport s code detail).lanes = s.lanes ∧
    (State.stageReport s code detail).mgmt = s.mgmt ∧
    (State.stageReport s code detail).trigLevel = s.trigLevel ∧
    (State.stageReport s code detail).opt = s.opt := by
  simp [State.stageReport]

@[simp] theorem State.mbxComplete_keeps (s : State) (result : Nat) :
    (State.mbxComplete s result).permits.asserted = s.permits.asserted ∧
    (State.mbxComplete s result).opt.ports = s.opt.ports ∧
    (State.mbxComplete s result).flash.cells = s.flash.cells ∧
    (State.mbxComplete s result).mem.cells = s.mem.cells ∧
    (State.mbxComplete s result).hb.doms = s.hb.doms ∧
    (State.mbxComplete s result).power = s.power ∧
    (State.mbxComplete s result).cfg = s.cfg ∧
    (State.mbxComplete s result).tim = s.tim ∧
    (State.mbxComplete s result).pnl = s.pnl ∧
    (State.mbxComplete s result).hb.bothFailed = s.hb.bothFailed ∧
    (State.mbxComplete s result).pending = s.pending ∧
    (State.mbxComplete s result).now = s.now ∧
    (State.mbxComplete s result).tiu = s.tiu ∧
    (State.mbxComplete s result).sht = s.sht ∧
    (State.mbxComplete s result).acq = s.acq ∧
    (State.mbxComplete s result).phs = s.phs ∧
    (State.mbxComplete s result).evt = s.evt ∧
    (State.mbxComplete s result).alarms = s.alarms ∧
    (State.mbxComplete s result).dts = s.dts ∧
    (State.mbxComplete s result).sup = s.sup ∧
    (State.mbxComplete s result).permits = s.permits ∧
    (State.mbxComplete s result).als = s.als ∧
    (State.mbxComplete s result).plk = s.plk ∧
    (State.mbxComplete s result).lanes = s.lanes ∧
    (State.mbxComplete s result).mgmt = s.mgmt ∧
    (State.mbxComplete s result).trigLevel = s.trigLevel ∧
    (State.mbxComplete s result).opt = s.opt := by
  simp [State.mbxComplete]

@[simp] theorem State.stageClear_keeps (s : State) (g : Staging) :
    (State.stageClear s g).permits.asserted = s.permits.asserted ∧
    (State.stageClear s g).opt.ports = s.opt.ports ∧
    (State.stageClear s g).mem.cells = s.mem.cells ∧
    (State.stageClear s g).hb.doms = s.hb.doms ∧
    (State.stageClear s g).power = s.power ∧
    (State.stageClear s g).cfg = s.cfg ∧
    (State.stageClear s g).tim = s.tim ∧
    (State.stageClear s g).pnl = s.pnl ∧
    (State.stageClear s g).mbx = s.mbx ∧
    (State.stageClear s g).hb.bothFailed = s.hb.bothFailed ∧
    (State.stageClear s g).pending = s.pending ∧
    (State.stageClear s g).now = s.now ∧
    (State.stageClear s g).tiu = s.tiu ∧
    (State.stageClear s g).sht = s.sht ∧
    (State.stageClear s g).acq = s.acq ∧
    (State.stageClear s g).phs = s.phs ∧
    (State.stageClear s g).evt = s.evt ∧
    (State.stageClear s g).alarms = s.alarms ∧
    (State.stageClear s g).dts = s.dts ∧
    (State.stageClear s g).sup = s.sup ∧
    (State.stageClear s g).permits = s.permits ∧
    (State.stageClear s g).als = s.als ∧
    (State.stageClear s g).plk = s.plk ∧
    (State.stageClear s g).lanes = s.lanes ∧
    (State.stageClear s g).mgmt = s.mgmt ∧
    (State.stageClear s g).trigLevel = s.trigLevel ∧
    (State.stageClear s g).opt = s.opt := by
  simp [State.stageClear]

@[simp] theorem State.stageEnd_keeps (s : State) (code detail : Nat) :
    (State.stageEnd s code detail).permits.asserted = s.permits.asserted ∧
    (State.stageEnd s code detail).opt.ports = s.opt.ports ∧
    (State.stageEnd s code detail).mem.cells = s.mem.cells ∧
    (State.stageEnd s code detail).hb.doms = s.hb.doms ∧
    (State.stageEnd s code detail).power = s.power ∧
    (State.stageEnd s code detail).tim = s.tim ∧
    (State.stageEnd s code detail).pnl = s.pnl ∧
    (State.stageEnd s code detail).hb.bothFailed = s.hb.bothFailed ∧
    (State.stageEnd s code detail).pending = s.pending ∧
    (State.stageEnd s code detail).now = s.now ∧
    (State.stageEnd s code detail).tiu = s.tiu ∧
    (State.stageEnd s code detail).sht = s.sht ∧
    (State.stageEnd s code detail).acq = s.acq ∧
    (State.stageEnd s code detail).phs = s.phs ∧
    (State.stageEnd s code detail).evt = s.evt ∧
    (State.stageEnd s code detail).alarms = s.alarms ∧
    (State.stageEnd s code detail).dts = s.dts ∧
    (State.stageEnd s code detail).sup = s.sup ∧
    (State.stageEnd s code detail).permits = s.permits ∧
    (State.stageEnd s code detail).als = s.als ∧
    (State.stageEnd s code detail).lanes = s.lanes ∧
    (State.stageEnd s code detail).mgmt = s.mgmt ∧
    (State.stageEnd s code detail).trigLevel = s.trigLevel ∧
    (State.stageEnd s code detail).opt = s.opt := by
  unfold State.stageEnd
  (repeat' split) <;> simp

@[simp] theorem State.stageAbort_keeps (s : State) (f : Feeder) :
    (State.stageAbort s f).permits.asserted = s.permits.asserted ∧
    (State.stageAbort s f).opt.ports = s.opt.ports ∧
    (State.stageAbort s f).mem.cells = s.mem.cells ∧
    (State.stageAbort s f).hb.doms = s.hb.doms ∧
    (State.stageAbort s f).power = s.power ∧
    (State.stageAbort s f).tim = s.tim ∧
    (State.stageAbort s f).pnl = s.pnl ∧
    (State.stageAbort s f).hb.bothFailed = s.hb.bothFailed ∧
    (State.stageAbort s f).pending = s.pending ∧
    (State.stageAbort s f).now = s.now ∧
    (State.stageAbort s f).tiu = s.tiu ∧
    (State.stageAbort s f).sht = s.sht ∧
    (State.stageAbort s f).acq = s.acq ∧
    (State.stageAbort s f).phs = s.phs ∧
    (State.stageAbort s f).evt = s.evt ∧
    (State.stageAbort s f).alarms = s.alarms ∧
    (State.stageAbort s f).dts = s.dts ∧
    (State.stageAbort s f).sup = s.sup ∧
    (State.stageAbort s f).permits = s.permits ∧
    (State.stageAbort s f).als = s.als ∧
    (State.stageAbort s f).lanes = s.lanes ∧
    (State.stageAbort s f).mgmt = s.mgmt ∧
    (State.stageAbort s f).trigLevel = s.trigLevel ∧
    (State.stageAbort s f).opt = s.opt := by
  unfold State.stageAbort
  (repeat' split) <;> simp

@[simp] theorem State.stageNext_keeps (s : State) :
    (State.stageNext s).permits.asserted = s.permits.asserted ∧
    (State.stageNext s).opt.ports = s.opt.ports ∧
    (State.stageNext s).mem.cells = s.mem.cells ∧
    (State.stageNext s).hb.doms = s.hb.doms ∧
    (State.stageNext s).power = s.power ∧
    (State.stageNext s).tim = s.tim ∧
    (State.stageNext s).pnl = s.pnl ∧
    (State.stageNext s).hb.bothFailed = s.hb.bothFailed ∧
    (State.stageNext s).pending = s.pending ∧
    (State.stageNext s).now = s.now ∧
    (State.stageNext s).tiu = s.tiu ∧
    (State.stageNext s).sht = s.sht ∧
    (State.stageNext s).acq = s.acq ∧
    (State.stageNext s).phs = s.phs ∧
    (State.stageNext s).evt = s.evt ∧
    (State.stageNext s).alarms = s.alarms ∧
    (State.stageNext s).dts = s.dts ∧
    (State.stageNext s).sup = s.sup ∧
    (State.stageNext s).permits = s.permits ∧
    (State.stageNext s).als = s.als ∧
    (State.stageNext s).lanes = s.lanes ∧
    (State.stageNext s).mgmt = s.mgmt ∧
    (State.stageNext s).trigLevel = s.trigLevel ∧
    (State.stageNext s).opt = s.opt := by
  simp only [State.stageNext]
  (repeat' split) <;> simp

@[simp] theorem State.stageOpen_keeps (s : State) (f : Feeder) :
    (State.stageOpen s f).permits.asserted = s.permits.asserted ∧
    (State.stageOpen s f).opt.ports = s.opt.ports ∧
    (State.stageOpen s f).flash.cells = s.flash.cells ∧
    (State.stageOpen s f).mem.cells = s.mem.cells ∧
    (State.stageOpen s f).hb.doms = s.hb.doms ∧
    (State.stageOpen s f).power = s.power ∧
    (State.stageOpen s f).tim = s.tim ∧
    (State.stageOpen s f).pnl = s.pnl ∧
    (State.stageOpen s f).mbx = s.mbx ∧
    (State.stageOpen s f).hb.bothFailed = s.hb.bothFailed ∧
    (State.stageOpen s f).pending = s.pending ∧
    (State.stageOpen s f).now = s.now ∧
    (State.stageOpen s f).tiu = s.tiu ∧
    (State.stageOpen s f).sht = s.sht ∧
    (State.stageOpen s f).acq = s.acq ∧
    (State.stageOpen s f).phs = s.phs ∧
    (State.stageOpen s f).evt = s.evt ∧
    (State.stageOpen s f).alarms = s.alarms ∧
    (State.stageOpen s f).dts = s.dts ∧
    (State.stageOpen s f).sup = s.sup ∧
    (State.stageOpen s f).permits = s.permits ∧
    (State.stageOpen s f).als = s.als ∧
    (State.stageOpen s f).plk = s.plk ∧
    (State.stageOpen s f).lanes = s.lanes ∧
    (State.stageOpen s f).mgmt = s.mgmt ∧
    (State.stageOpen s f).trigLevel = s.trigLevel ∧
    (State.stageOpen s f).opt = s.opt := by
  simp [State.stageOpen]

@[simp] theorem State.stageData_keeps (s : State) (bytes : List Byte) :
    (State.stageData s bytes).permits.asserted = s.permits.asserted ∧
    (State.stageData s bytes).opt.ports = s.opt.ports ∧
    (State.stageData s bytes).mem.cells = s.mem.cells ∧
    (State.stageData s bytes).hb.doms = s.hb.doms ∧
    (State.stageData s bytes).power = s.power ∧
    (State.stageData s bytes).tim = s.tim ∧
    (State.stageData s bytes).pnl = s.pnl ∧
    (State.stageData s bytes).hb.bothFailed = s.hb.bothFailed ∧
    (State.stageData s bytes).pending = s.pending ∧
    (State.stageData s bytes).now = s.now ∧
    (State.stageData s bytes).tiu = s.tiu ∧
    (State.stageData s bytes).sht = s.sht ∧
    (State.stageData s bytes).acq = s.acq ∧
    (State.stageData s bytes).phs = s.phs ∧
    (State.stageData s bytes).evt = s.evt ∧
    (State.stageData s bytes).alarms = s.alarms ∧
    (State.stageData s bytes).dts = s.dts ∧
    (State.stageData s bytes).sup = s.sup ∧
    (State.stageData s bytes).permits = s.permits ∧
    (State.stageData s bytes).als = s.als ∧
    (State.stageData s bytes).lanes = s.lanes ∧
    (State.stageData s bytes).mgmt = s.mgmt ∧
    (State.stageData s bytes).trigLevel = s.trigLevel ∧
    (State.stageData s bytes).opt = s.opt := by
  unfold State.stageData
  (repeat' split) <;> simp

@[simp] theorem State.stageFinish_keeps (s : State) :
    (State.stageFinish s).permits.asserted = s.permits.asserted ∧
    (State.stageFinish s).opt.ports = s.opt.ports ∧
    (State.stageFinish s).mem.cells = s.mem.cells ∧
    (State.stageFinish s).hb.doms = s.hb.doms ∧
    (State.stageFinish s).power = s.power ∧
    (State.stageFinish s).tim = s.tim ∧
    (State.stageFinish s).pnl = s.pnl ∧
    (State.stageFinish s).hb.bothFailed = s.hb.bothFailed ∧
    (State.stageFinish s).pending = s.pending ∧
    (State.stageFinish s).now = s.now ∧
    (State.stageFinish s).tiu = s.tiu ∧
    (State.stageFinish s).sht = s.sht ∧
    (State.stageFinish s).acq = s.acq ∧
    (State.stageFinish s).phs = s.phs ∧
    (State.stageFinish s).evt = s.evt ∧
    (State.stageFinish s).alarms = s.alarms ∧
    (State.stageFinish s).dts = s.dts ∧
    (State.stageFinish s).sup = s.sup ∧
    (State.stageFinish s).permits = s.permits ∧
    (State.stageFinish s).als = s.als ∧
    (State.stageFinish s).lanes = s.lanes ∧
    (State.stageFinish s).mgmt = s.mgmt ∧
    (State.stageFinish s).trigLevel = s.trigLevel ∧
    (State.stageFinish s).opt = s.opt := by
  unfold State.stageFinish
  (repeat' split) <;> simp

@[simp] theorem State.mbxReject_keeps (s : State) :
    (State.mbxReject s).permits.asserted = s.permits.asserted ∧
    (State.mbxReject s).opt.ports = s.opt.ports ∧
    (State.mbxReject s).flash.cells = s.flash.cells ∧
    (State.mbxReject s).mem.cells = s.mem.cells ∧
    (State.mbxReject s).hb.doms = s.hb.doms ∧
    (State.mbxReject s).power = s.power ∧
    (State.mbxReject s).cfg = s.cfg ∧
    (State.mbxReject s).tim = s.tim ∧
    (State.mbxReject s).pnl = s.pnl ∧
    (State.mbxReject s).hb.bothFailed = s.hb.bothFailed ∧
    (State.mbxReject s).pending = s.pending ∧
    (State.mbxReject s).now = s.now ∧
    (State.mbxReject s).tiu = s.tiu ∧
    (State.mbxReject s).sht = s.sht ∧
    (State.mbxReject s).acq = s.acq ∧
    (State.mbxReject s).phs = s.phs ∧
    (State.mbxReject s).evt = s.evt ∧
    (State.mbxReject s).alarms = s.alarms ∧
    (State.mbxReject s).dts = s.dts ∧
    (State.mbxReject s).sup = s.sup ∧
    (State.mbxReject s).permits = s.permits ∧
    (State.mbxReject s).als = s.als ∧
    (State.mbxReject s).plk = s.plk ∧
    (State.mbxReject s).lanes = s.lanes ∧
    (State.mbxReject s).mgmt = s.mgmt ∧
    (State.mbxReject s).trigLevel = s.trigLevel ∧
    (State.mbxReject s).opt = s.opt := by
  simp [State.mbxReject]

@[simp] theorem State.mbxUnlock_keeps (s : State) (word : U32) :
    (State.mbxUnlock s word).permits.asserted = s.permits.asserted ∧
    (State.mbxUnlock s word).opt.ports = s.opt.ports ∧
    (State.mbxUnlock s word).flash.cells = s.flash.cells ∧
    (State.mbxUnlock s word).mem.cells = s.mem.cells ∧
    (State.mbxUnlock s word).hb.doms = s.hb.doms ∧
    (State.mbxUnlock s word).power = s.power ∧
    (State.mbxUnlock s word).cfg = s.cfg ∧
    (State.mbxUnlock s word).tim = s.tim ∧
    (State.mbxUnlock s word).pnl = s.pnl ∧
    (State.mbxUnlock s word).hb.bothFailed = s.hb.bothFailed ∧
    (State.mbxUnlock s word).pending = s.pending ∧
    (State.mbxUnlock s word).now = s.now ∧
    (State.mbxUnlock s word).tiu = s.tiu ∧
    (State.mbxUnlock s word).sht = s.sht ∧
    (State.mbxUnlock s word).acq = s.acq ∧
    (State.mbxUnlock s word).phs = s.phs ∧
    (State.mbxUnlock s word).evt = s.evt ∧
    (State.mbxUnlock s word).alarms = s.alarms ∧
    (State.mbxUnlock s word).dts = s.dts ∧
    (State.mbxUnlock s word).sup = s.sup ∧
    (State.mbxUnlock s word).permits = s.permits ∧
    (State.mbxUnlock s word).als = s.als ∧
    (State.mbxUnlock s word).plk = s.plk ∧
    (State.mbxUnlock s word).lanes = s.lanes ∧
    (State.mbxUnlock s word).mgmt = s.mgmt ∧
    (State.mbxUnlock s word).trigLevel = s.trigLevel ∧
    (State.mbxUnlock s word).opt = s.opt := by
  simp only [State.mbxUnlock]
  (repeat' split) <;> simp

@[simp] theorem State.actStageBegin_keeps (s : State) :
    (State.actStageBegin s).permits.asserted = s.permits.asserted ∧
    (State.actStageBegin s).opt.ports = s.opt.ports ∧
    (State.actStageBegin s).flash.cells = s.flash.cells ∧
    (State.actStageBegin s).mem.cells = s.mem.cells ∧
    (State.actStageBegin s).hb.doms = s.hb.doms ∧
    (State.actStageBegin s).power = s.power ∧
    (State.actStageBegin s).tim = s.tim ∧
    (State.actStageBegin s).pnl = s.pnl ∧
    (State.actStageBegin s).hb.bothFailed = s.hb.bothFailed ∧
    (State.actStageBegin s).pending = s.pending ∧
    (State.actStageBegin s).now = s.now ∧
    (State.actStageBegin s).tiu = s.tiu ∧
    (State.actStageBegin s).sht = s.sht ∧
    (State.actStageBegin s).acq = s.acq ∧
    (State.actStageBegin s).phs = s.phs ∧
    (State.actStageBegin s).evt = s.evt ∧
    (State.actStageBegin s).alarms = s.alarms ∧
    (State.actStageBegin s).dts = s.dts ∧
    (State.actStageBegin s).sup = s.sup ∧
    (State.actStageBegin s).permits = s.permits ∧
    (State.actStageBegin s).als = s.als ∧
    (State.actStageBegin s).plk = s.plk ∧
    (State.actStageBegin s).lanes = s.lanes ∧
    (State.actStageBegin s).mgmt = s.mgmt ∧
    (State.actStageBegin s).trigLevel = s.trigLevel ∧
    (State.actStageBegin s).opt = s.opt := by
  unfold State.actStageBegin
  (repeat' split) <;> simp

@[simp] theorem State.actStageBlock_keeps (s : State) :
    (State.actStageBlock s).permits.asserted = s.permits.asserted ∧
    (State.actStageBlock s).opt.ports = s.opt.ports ∧
    (State.actStageBlock s).mem.cells = s.mem.cells ∧
    (State.actStageBlock s).hb.doms = s.hb.doms ∧
    (State.actStageBlock s).power = s.power ∧
    (State.actStageBlock s).tim = s.tim ∧
    (State.actStageBlock s).pnl = s.pnl ∧
    (State.actStageBlock s).hb.bothFailed = s.hb.bothFailed ∧
    (State.actStageBlock s).pending = s.pending ∧
    (State.actStageBlock s).now = s.now ∧
    (State.actStageBlock s).tiu = s.tiu ∧
    (State.actStageBlock s).sht = s.sht ∧
    (State.actStageBlock s).acq = s.acq ∧
    (State.actStageBlock s).phs = s.phs ∧
    (State.actStageBlock s).evt = s.evt ∧
    (State.actStageBlock s).alarms = s.alarms ∧
    (State.actStageBlock s).dts = s.dts ∧
    (State.actStageBlock s).sup = s.sup ∧
    (State.actStageBlock s).permits = s.permits ∧
    (State.actStageBlock s).als = s.als ∧
    (State.actStageBlock s).lanes = s.lanes ∧
    (State.actStageBlock s).mgmt = s.mgmt ∧
    (State.actStageBlock s).trigLevel = s.trigLevel ∧
    (State.actStageBlock s).opt = s.opt := by
  unfold State.actStageBlock
  (repeat' split) <;> simp

@[simp] theorem State.actStageAbort_keeps (s : State) :
    (State.actStageAbort s).permits.asserted = s.permits.asserted ∧
    (State.actStageAbort s).opt.ports = s.opt.ports ∧
    (State.actStageAbort s).mem.cells = s.mem.cells ∧
    (State.actStageAbort s).hb.doms = s.hb.doms ∧
    (State.actStageAbort s).power = s.power ∧
    (State.actStageAbort s).tim = s.tim ∧
    (State.actStageAbort s).pnl = s.pnl ∧
    (State.actStageAbort s).hb.bothFailed = s.hb.bothFailed ∧
    (State.actStageAbort s).pending = s.pending ∧
    (State.actStageAbort s).now = s.now ∧
    (State.actStageAbort s).tiu = s.tiu ∧
    (State.actStageAbort s).sht = s.sht ∧
    (State.actStageAbort s).acq = s.acq ∧
    (State.actStageAbort s).phs = s.phs ∧
    (State.actStageAbort s).evt = s.evt ∧
    (State.actStageAbort s).alarms = s.alarms ∧
    (State.actStageAbort s).dts = s.dts ∧
    (State.actStageAbort s).sup = s.sup ∧
    (State.actStageAbort s).permits = s.permits ∧
    (State.actStageAbort s).als = s.als ∧
    (State.actStageAbort s).lanes = s.lanes ∧
    (State.actStageAbort s).mgmt = s.mgmt ∧
    (State.actStageAbort s).trigLevel = s.trigLevel ∧
    (State.actStageAbort s).opt = s.opt := by
  unfold State.actStageAbort
  (repeat' split) <;> simp

@[simp] theorem State.restartRecord_keeps (s : State) (path : Nat) (refused : Bool) :
    (State.restartRecord s path refused).permits.asserted = s.permits.asserted ∧
    (State.restartRecord s path refused).opt.ports = s.opt.ports ∧
    (State.restartRecord s path refused).flash.cells = s.flash.cells ∧
    (State.restartRecord s path refused).mem.cells = s.mem.cells ∧
    (State.restartRecord s path refused).hb.doms = s.hb.doms ∧
    (State.restartRecord s path refused).power = s.power ∧
    (State.restartRecord s path refused).cfg = s.cfg ∧
    (State.restartRecord s path refused).tim = s.tim ∧
    (State.restartRecord s path refused).pnl = s.pnl ∧
    (State.restartRecord s path refused).mbx = s.mbx ∧
    (State.restartRecord s path refused).hb.bothFailed = s.hb.bothFailed ∧
    (State.restartRecord s path refused).pending = s.pending ∧
    (State.restartRecord s path refused).now = s.now ∧
    (State.restartRecord s path refused).tiu = s.tiu ∧
    (State.restartRecord s path refused).sht = s.sht ∧
    (State.restartRecord s path refused).acq = s.acq ∧
    (State.restartRecord s path refused).phs = s.phs ∧
    (State.restartRecord s path refused).evt = s.evt ∧
    (State.restartRecord s path refused).alarms = s.alarms ∧
    (State.restartRecord s path refused).dts = s.dts ∧
    (State.restartRecord s path refused).sup = s.sup ∧
    (State.restartRecord s path refused).permits = s.permits ∧
    (State.restartRecord s path refused).als = s.als ∧
    (State.restartRecord s path refused).plk = s.plk ∧
    (State.restartRecord s path refused).lanes = s.lanes ∧
    (State.restartRecord s path refused).mgmt = s.mgmt ∧
    (State.restartRecord s path refused).trigLevel = s.trigLevel ∧
    (State.restartRecord s path refused).opt = s.opt := by
  simp [State.restartRecord]

@[simp] theorem State.actRestart_keeps (s : State) :
    (State.actRestart s).permits.asserted = s.permits.asserted ∧
    (State.actRestart s).opt.ports = s.opt.ports ∧
    (State.actRestart s).flash.cells = s.flash.cells ∧
    (State.actRestart s).mem.cells = s.mem.cells ∧
    (State.actRestart s).hb.doms = s.hb.doms ∧
    (State.actRestart s).tim = s.tim ∧
    (State.actRestart s).pnl = s.pnl ∧
    (State.actRestart s).hb.bothFailed = s.hb.bothFailed ∧
    (State.actRestart s).pending = s.pending ∧
    (State.actRestart s).now = s.now ∧
    (State.actRestart s).tiu = s.tiu ∧
    (State.actRestart s).sht = s.sht ∧
    (State.actRestart s).acq = s.acq ∧
    (State.actRestart s).phs = s.phs ∧
    (State.actRestart s).evt = s.evt ∧
    (State.actRestart s).alarms = s.alarms ∧
    (State.actRestart s).dts = s.dts ∧
    (State.actRestart s).sup = s.sup ∧
    (State.actRestart s).permits = s.permits ∧
    (State.actRestart s).als = s.als ∧
    (State.actRestart s).plk = s.plk ∧
    (State.actRestart s).lanes = s.lanes ∧
    (State.actRestart s).mgmt = s.mgmt ∧
    (State.actRestart s).trigLevel = s.trigLevel ∧
    (State.actRestart s).opt = s.opt := by
  simp [State.actRestart]

@[simp] theorem State.dfuStall_keeps (s : State) :
    (State.dfuStall s).permits.asserted = s.permits.asserted ∧
    (State.dfuStall s).opt.ports = s.opt.ports ∧
    (State.dfuStall s).flash.cells = s.flash.cells ∧
    (State.dfuStall s).mem.cells = s.mem.cells ∧
    (State.dfuStall s).hb.doms = s.hb.doms ∧
    (State.dfuStall s).power = s.power ∧
    (State.dfuStall s).cfg = s.cfg ∧
    (State.dfuStall s).tim = s.tim ∧
    (State.dfuStall s).pnl = s.pnl ∧
    (State.dfuStall s).mbx = s.mbx ∧
    (State.dfuStall s).hb.bothFailed = s.hb.bothFailed ∧
    (State.dfuStall s).pending = s.pending ∧
    (State.dfuStall s).now = s.now ∧
    (State.dfuStall s).tiu = s.tiu ∧
    (State.dfuStall s).sht = s.sht ∧
    (State.dfuStall s).acq = s.acq ∧
    (State.dfuStall s).phs = s.phs ∧
    (State.dfuStall s).evt = s.evt ∧
    (State.dfuStall s).alarms = s.alarms ∧
    (State.dfuStall s).dts = s.dts ∧
    (State.dfuStall s).sup = s.sup ∧
    (State.dfuStall s).permits = s.permits ∧
    (State.dfuStall s).als = s.als ∧
    (State.dfuStall s).plk = s.plk ∧
    (State.dfuStall s).lanes = s.lanes ∧
    (State.dfuStall s).mgmt = s.mgmt ∧
    (State.dfuStall s).trigLevel = s.trigLevel ∧
    (State.dfuStall s).opt = s.opt := by
  simp [State.dfuStall]

@[simp] theorem State.dfuAccept_keeps (s : State) (block : Nat) (data : List Byte) :
    (State.dfuAccept s block data).permits.asserted = s.permits.asserted ∧
    (State.dfuAccept s block data).opt.ports = s.opt.ports ∧
    (State.dfuAccept s block data).mem.cells = s.mem.cells ∧
    (State.dfuAccept s block data).hb.doms = s.hb.doms ∧
    (State.dfuAccept s block data).power = s.power ∧
    (State.dfuAccept s block data).tim = s.tim ∧
    (State.dfuAccept s block data).pnl = s.pnl ∧
    (State.dfuAccept s block data).hb.bothFailed = s.hb.bothFailed ∧
    (State.dfuAccept s block data).pending = s.pending ∧
    (State.dfuAccept s block data).now = s.now ∧
    (State.dfuAccept s block data).tiu = s.tiu ∧
    (State.dfuAccept s block data).sht = s.sht ∧
    (State.dfuAccept s block data).acq = s.acq ∧
    (State.dfuAccept s block data).phs = s.phs ∧
    (State.dfuAccept s block data).evt = s.evt ∧
    (State.dfuAccept s block data).alarms = s.alarms ∧
    (State.dfuAccept s block data).dts = s.dts ∧
    (State.dfuAccept s block data).sup = s.sup ∧
    (State.dfuAccept s block data).permits = s.permits ∧
    (State.dfuAccept s block data).als = s.als ∧
    (State.dfuAccept s block data).lanes = s.lanes ∧
    (State.dfuAccept s block data).mgmt = s.mgmt ∧
    (State.dfuAccept s block data).trigLevel = s.trigLevel ∧
    (State.dfuAccept s block data).opt = s.opt := by
  simp [State.dfuAccept]

@[simp] theorem State.plkDetach_keeps (s : State) :
    (State.plkDetach s).permits.asserted = s.permits.asserted ∧
    (State.plkDetach s).opt.ports = s.opt.ports ∧
    (State.plkDetach s).mem.cells = s.mem.cells ∧
    (State.plkDetach s).hb.doms = s.hb.doms ∧
    (State.plkDetach s).power = s.power ∧
    (State.plkDetach s).tim = s.tim ∧
    (State.plkDetach s).pnl = s.pnl ∧
    (State.plkDetach s).hb.bothFailed = s.hb.bothFailed ∧
    (State.plkDetach s).pending = s.pending ∧
    (State.plkDetach s).now = s.now ∧
    (State.plkDetach s).tiu = s.tiu ∧
    (State.plkDetach s).sht = s.sht ∧
    (State.plkDetach s).acq = s.acq ∧
    (State.plkDetach s).phs = s.phs ∧
    (State.plkDetach s).evt = s.evt ∧
    (State.plkDetach s).alarms = s.alarms ∧
    (State.plkDetach s).dts = s.dts ∧
    (State.plkDetach s).sup = s.sup ∧
    (State.plkDetach s).permits = s.permits ∧
    (State.plkDetach s).als = s.als ∧
    (State.plkDetach s).lanes = s.lanes ∧
    (State.plkDetach s).mgmt = s.mgmt ∧
    (State.plkDetach s).trigLevel = s.trigLevel ∧
    (State.plkDetach s).opt = s.opt := by
  simp [State.plkDetach]

@[simp] theorem State.completeUr_keeps (s : State) :
    (State.completeUr s).permits.asserted = s.permits.asserted ∧
    (State.completeUr s).opt.ports = s.opt.ports ∧
    (State.completeUr s).flash.cells = s.flash.cells ∧
    (State.completeUr s).mem.cells = s.mem.cells ∧
    (State.completeUr s).hb.doms = s.hb.doms ∧
    (State.completeUr s).power = s.power ∧
    (State.completeUr s).cfg = s.cfg ∧
    (State.completeUr s).tim = s.tim ∧
    (State.completeUr s).pnl = s.pnl ∧
    (State.completeUr s).mbx = s.mbx ∧
    (State.completeUr s).hb.bothFailed = s.hb.bothFailed ∧
    (State.completeUr s).pending = s.pending ∧
    (State.completeUr s).now = s.now ∧
    (State.completeUr s).tiu = s.tiu ∧
    (State.completeUr s).sht = s.sht ∧
    (State.completeUr s).acq = s.acq ∧
    (State.completeUr s).phs = s.phs ∧
    (State.completeUr s).evt = s.evt ∧
    (State.completeUr s).alarms = s.alarms ∧
    (State.completeUr s).dts = s.dts ∧
    (State.completeUr s).sup = s.sup ∧
    (State.completeUr s).permits = s.permits ∧
    (State.completeUr s).als = s.als ∧
    (State.completeUr s).plk = s.plk ∧
    (State.completeUr s).lanes = s.lanes ∧
    (State.completeUr s).mgmt = s.mgmt ∧
    (State.completeUr s).trigLevel = s.trigLevel ∧
    (State.completeUr s).opt = s.opt := by
  simp [State.completeUr]

@[simp] theorem State.discardWrite_keeps (s : State) :
    (State.discardWrite s).permits.asserted = s.permits.asserted ∧
    (State.discardWrite s).opt.ports = s.opt.ports ∧
    (State.discardWrite s).flash.cells = s.flash.cells ∧
    (State.discardWrite s).mem.cells = s.mem.cells ∧
    (State.discardWrite s).hb.doms = s.hb.doms ∧
    (State.discardWrite s).power = s.power ∧
    (State.discardWrite s).cfg = s.cfg ∧
    (State.discardWrite s).tim = s.tim ∧
    (State.discardWrite s).pnl = s.pnl ∧
    (State.discardWrite s).mbx = s.mbx ∧
    (State.discardWrite s).hb.bothFailed = s.hb.bothFailed ∧
    (State.discardWrite s).pending = s.pending ∧
    (State.discardWrite s).now = s.now ∧
    (State.discardWrite s).tiu = s.tiu ∧
    (State.discardWrite s).sht = s.sht ∧
    (State.discardWrite s).acq = s.acq ∧
    (State.discardWrite s).phs = s.phs ∧
    (State.discardWrite s).evt = s.evt ∧
    (State.discardWrite s).alarms = s.alarms ∧
    (State.discardWrite s).dts = s.dts ∧
    (State.discardWrite s).sup = s.sup ∧
    (State.discardWrite s).permits = s.permits ∧
    (State.discardWrite s).als = s.als ∧
    (State.discardWrite s).plk = s.plk ∧
    (State.discardWrite s).lanes = s.lanes ∧
    (State.discardWrite s).mgmt = s.mgmt ∧
    (State.discardWrite s).trigLevel = s.trigLevel ∧
    (State.discardWrite s).opt = s.opt := by
  simp [State.discardWrite]

@[simp] theorem State.msixWrite_keeps (s : State) (offset : Nat) (value : U32) :
    (State.msixWrite s offset value).permits.asserted = s.permits.asserted ∧
    (State.msixWrite s offset value).opt.ports = s.opt.ports ∧
    (State.msixWrite s offset value).flash.cells = s.flash.cells ∧
    (State.msixWrite s offset value).mem.cells = s.mem.cells ∧
    (State.msixWrite s offset value).hb.doms = s.hb.doms ∧
    (State.msixWrite s offset value).power = s.power ∧
    (State.msixWrite s offset value).cfg = s.cfg ∧
    (State.msixWrite s offset value).tim = s.tim ∧
    (State.msixWrite s offset value).pnl = s.pnl ∧
    (State.msixWrite s offset value).mbx = s.mbx ∧
    (State.msixWrite s offset value).hb.bothFailed = s.hb.bothFailed ∧
    (State.msixWrite s offset value).pending = s.pending ∧
    (State.msixWrite s offset value).now = s.now ∧
    (State.msixWrite s offset value).tiu = s.tiu ∧
    (State.msixWrite s offset value).sht = s.sht ∧
    (State.msixWrite s offset value).acq = s.acq ∧
    (State.msixWrite s offset value).phs = s.phs ∧
    (State.msixWrite s offset value).evt = s.evt ∧
    (State.msixWrite s offset value).alarms = s.alarms ∧
    (State.msixWrite s offset value).dts = s.dts ∧
    (State.msixWrite s offset value).sup = s.sup ∧
    (State.msixWrite s offset value).permits = s.permits ∧
    (State.msixWrite s offset value).als = s.als ∧
    (State.msixWrite s offset value).plk = s.plk ∧
    (State.msixWrite s offset value).lanes = s.lanes ∧
    (State.msixWrite s offset value).mgmt = s.mgmt ∧
    (State.msixWrite s offset value).trigLevel = s.trigLevel ∧
    (State.msixWrite s offset value).opt = s.opt := by
  simp only [State.msixWrite]
  (repeat' split) <;> simp

@[simp] theorem State.mbxWrite_keeps (s : State) (off : Nat) (data : List Byte) :
    (State.mbxWrite s off data).permits.asserted = s.permits.asserted ∧
    (State.mbxWrite s off data).opt.ports = s.opt.ports ∧
    (State.mbxWrite s off data).flash.cells = s.flash.cells ∧
    (State.mbxWrite s off data).mem.cells = s.mem.cells ∧
    (State.mbxWrite s off data).hb.doms = s.hb.doms ∧
    (State.mbxWrite s off data).power = s.power ∧
    (State.mbxWrite s off data).cfg = s.cfg ∧
    (State.mbxWrite s off data).tim = s.tim ∧
    (State.mbxWrite s off data).pnl = s.pnl ∧
    (State.mbxWrite s off data).hb.bothFailed = s.hb.bothFailed ∧
    (State.mbxWrite s off data).pending = s.pending ∧
    (State.mbxWrite s off data).now = s.now ∧
    (State.mbxWrite s off data).tiu = s.tiu ∧
    (State.mbxWrite s off data).sht = s.sht ∧
    (State.mbxWrite s off data).acq = s.acq ∧
    (State.mbxWrite s off data).phs = s.phs ∧
    (State.mbxWrite s off data).evt = s.evt ∧
    (State.mbxWrite s off data).alarms = s.alarms ∧
    (State.mbxWrite s off data).dts = s.dts ∧
    (State.mbxWrite s off data).sup = s.sup ∧
    (State.mbxWrite s off data).permits = s.permits ∧
    (State.mbxWrite s off data).als = s.als ∧
    (State.mbxWrite s off data).plk = s.plk ∧
    (State.mbxWrite s off data).lanes = s.lanes ∧
    (State.mbxWrite s off data).mgmt = s.mgmt ∧
    (State.mbxWrite s off data).trigLevel = s.trigLevel ∧
    (State.mbxWrite s off data).opt = s.opt := by
  simp [State.mbxWrite]

@[simp] theorem State.touchRow_keeps (s : State) (port : Fin 4) (addr : Nat) (next : Option Nat) :
    (State.touchRow s port addr next).permits.asserted = s.permits.asserted ∧
    (State.touchRow s port addr next).opt.ports = s.opt.ports ∧
    (State.touchRow s port addr next).flash.cells = s.flash.cells ∧
    (State.touchRow s port addr next).mem.cells = s.mem.cells ∧
    (State.touchRow s port addr next).hb.doms = s.hb.doms ∧
    (State.touchRow s port addr next).power = s.power ∧
    (State.touchRow s port addr next).cfg = s.cfg ∧
    (State.touchRow s port addr next).tim = s.tim ∧
    (State.touchRow s port addr next).pnl = s.pnl ∧
    (State.touchRow s port addr next).mbx = s.mbx ∧
    (State.touchRow s port addr next).hb.bothFailed = s.hb.bothFailed ∧
    (State.touchRow s port addr next).pending = s.pending ∧
    (State.touchRow s port addr next).now = s.now ∧
    (State.touchRow s port addr next).tiu = s.tiu ∧
    (State.touchRow s port addr next).sht = s.sht ∧
    (State.touchRow s port addr next).acq = s.acq ∧
    (State.touchRow s port addr next).phs = s.phs ∧
    (State.touchRow s port addr next).evt = s.evt ∧
    (State.touchRow s port addr next).alarms = s.alarms ∧
    (State.touchRow s port addr next).dts = s.dts ∧
    (State.touchRow s port addr next).sup = s.sup ∧
    (State.touchRow s port addr next).permits = s.permits ∧
    (State.touchRow s port addr next).als = s.als ∧
    (State.touchRow s port addr next).plk = s.plk ∧
    (State.touchRow s port addr next).lanes = s.lanes ∧
    (State.touchRow s port addr next).mgmt = s.mgmt ∧
    (State.touchRow s port addr next).trigLevel = s.trigLevel ∧
    (State.touchRow s port addr next).opt = s.opt := by
  simp [State.touchRow]

@[simp] theorem State.layRings_keeps (s : State) :
    (State.layRings s).permits.asserted = s.permits.asserted ∧
    (State.layRings s).opt.ports = s.opt.ports ∧
    (State.layRings s).flash.cells = s.flash.cells ∧
    (State.layRings s).mem.cells = s.mem.cells ∧
    (State.layRings s).hb.doms = s.hb.doms ∧
    (State.layRings s).power = s.power ∧
    (State.layRings s).cfg = s.cfg ∧
    (State.layRings s).tim = s.tim ∧
    (State.layRings s).pnl = s.pnl ∧
    (State.layRings s).mbx = s.mbx ∧
    (State.layRings s).hb.bothFailed = s.hb.bothFailed ∧
    (State.layRings s).pending = s.pending ∧
    (State.layRings s).now = s.now ∧
    (State.layRings s).tiu = s.tiu ∧
    (State.layRings s).sht = s.sht ∧
    (State.layRings s).acq = s.acq ∧
    (State.layRings s).phs = s.phs ∧
    (State.layRings s).evt = s.evt ∧
    (State.layRings s).alarms = s.alarms ∧
    (State.layRings s).dts = s.dts ∧
    (State.layRings s).sup = s.sup ∧
    (State.layRings s).permits = s.permits ∧
    (State.layRings s).als = s.als ∧
    (State.layRings s).plk = s.plk ∧
    (State.layRings s).lanes = s.lanes ∧
    (State.layRings s).mgmt = s.mgmt ∧
    (State.layRings s).trigLevel = s.trigLevel ∧
    (State.layRings s).opt = s.opt := by
  simp [State.layRings]

@[simp] theorem State.memWarn_keeps (s : State) (row : Nat) (code value : U32) (holds : Bool) :
    (State.memWarn s row code value holds).permits.asserted = s.permits.asserted ∧
    (State.memWarn s row code value holds).opt.ports = s.opt.ports ∧
    (State.memWarn s row code value holds).flash.cells = s.flash.cells ∧
    (State.memWarn s row code value holds).mem.cells = s.mem.cells ∧
    (State.memWarn s row code value holds).hb.doms = s.hb.doms ∧
    (State.memWarn s row code value holds).power = s.power ∧
    (State.memWarn s row code value holds).cfg = s.cfg ∧
    (State.memWarn s row code value holds).tim = s.tim ∧
    (State.memWarn s row code value holds).pnl = s.pnl ∧
    (State.memWarn s row code value holds).mbx = s.mbx ∧
    (State.memWarn s row code value holds).hb.bothFailed = s.hb.bothFailed ∧
    (State.memWarn s row code value holds).pending = s.pending ∧
    (State.memWarn s row code value holds).now = s.now ∧
    (State.memWarn s row code value holds).tiu = s.tiu ∧
    (State.memWarn s row code value holds).sht = s.sht ∧
    (State.memWarn s row code value holds).acq = s.acq ∧
    (State.memWarn s row code value holds).phs = s.phs ∧
    (State.memWarn s row code value holds).evt = s.evt ∧
    (State.memWarn s row code value holds).alarms = s.alarms ∧
    (State.memWarn s row code value holds).dts = s.dts ∧
    (State.memWarn s row code value holds).sup = s.sup ∧
    (State.memWarn s row code value holds).permits = s.permits ∧
    (State.memWarn s row code value holds).als = s.als ∧
    (State.memWarn s row code value holds).plk = s.plk ∧
    (State.memWarn s row code value holds).lanes = s.lanes ∧
    (State.memWarn s row code value holds).mgmt = s.mgmt ∧
    (State.memWarn s row code value holds).trigLevel = s.trigLevel ∧
    (State.memWarn s row code value holds).opt = s.opt := by
  simp [State.memWarn]

@[simp] theorem State.dramTempFault_keeps (s : State) :
    (State.dramTempFault s).permits.asserted = s.permits.asserted ∧
    (State.dramTempFault s).opt.ports = s.opt.ports ∧
    (State.dramTempFault s).flash.cells = s.flash.cells ∧
    (State.dramTempFault s).mem.cells = s.mem.cells ∧
    (State.dramTempFault s).hb.doms = s.hb.doms ∧
    (State.dramTempFault s).power = s.power ∧
    (State.dramTempFault s).cfg = s.cfg ∧
    (State.dramTempFault s).tim = s.tim ∧
    (State.dramTempFault s).pnl = s.pnl ∧
    (State.dramTempFault s).mbx = s.mbx ∧
    (State.dramTempFault s).hb.bothFailed = s.hb.bothFailed ∧
    (State.dramTempFault s).pending = s.pending ∧
    (State.dramTempFault s).now = s.now ∧
    (State.dramTempFault s).tiu = s.tiu ∧
    (State.dramTempFault s).sht = s.sht ∧
    (State.dramTempFault s).acq = s.acq ∧
    (State.dramTempFault s).phs = s.phs ∧
    (State.dramTempFault s).evt = s.evt ∧
    (State.dramTempFault s).alarms = s.alarms ∧
    (State.dramTempFault s).dts = s.dts ∧
    (State.dramTempFault s).sup = s.sup ∧
    (State.dramTempFault s).permits = s.permits ∧
    (State.dramTempFault s).als = s.als ∧
    (State.dramTempFault s).plk = s.plk ∧
    (State.dramTempFault s).lanes = s.lanes ∧
    (State.dramTempFault s).mgmt = s.mgmt ∧
    (State.dramTempFault s).trigLevel = s.trigLevel ∧
    (State.dramTempFault s).opt = s.opt := by
  simp [State.dramTempFault]

@[simp] theorem State.memErrors_keeps (s : State) (corrected : Nat) (bad : List Nat) :
    (State.memErrors s corrected bad).permits.asserted = s.permits.asserted ∧
    (State.memErrors s corrected bad).opt.ports = s.opt.ports ∧
    (State.memErrors s corrected bad).flash.cells = s.flash.cells ∧
    (State.memErrors s corrected bad).mem.cells = s.mem.cells ∧
    (State.memErrors s corrected bad).hb.doms = s.hb.doms ∧
    (State.memErrors s corrected bad).power = s.power ∧
    (State.memErrors s corrected bad).cfg = s.cfg ∧
    (State.memErrors s corrected bad).tim = s.tim ∧
    (State.memErrors s corrected bad).pnl = s.pnl ∧
    (State.memErrors s corrected bad).mbx = s.mbx ∧
    (State.memErrors s corrected bad).hb.bothFailed = s.hb.bothFailed ∧
    (State.memErrors s corrected bad).pending = s.pending ∧
    (State.memErrors s corrected bad).now = s.now ∧
    (State.memErrors s corrected bad).tiu = s.tiu ∧
    (State.memErrors s corrected bad).sht = s.sht ∧
    (State.memErrors s corrected bad).acq = s.acq ∧
    (State.memErrors s corrected bad).phs = s.phs ∧
    (State.memErrors s corrected bad).evt = s.evt ∧
    (State.memErrors s corrected bad).alarms = s.alarms ∧
    (State.memErrors s corrected bad).dts = s.dts ∧
    (State.memErrors s corrected bad).sup = s.sup ∧
    (State.memErrors s corrected bad).permits = s.permits ∧
    (State.memErrors s corrected bad).als = s.als ∧
    (State.memErrors s corrected bad).plk = s.plk ∧
    (State.memErrors s corrected bad).lanes = s.lanes ∧
    (State.memErrors s corrected bad).mgmt = s.mgmt ∧
    (State.memErrors s corrected bad).trigLevel = s.trigLevel ∧
    (State.memErrors s corrected bad).opt = s.opt := by
  simp [State.memErrors]

@[simp] theorem State.retireChannel_keeps (s : State) (c : Fin 8) :
    (State.retireChannel s c).permits.asserted = s.permits.asserted ∧
    (State.retireChannel s c).opt.ports = s.opt.ports ∧
    (State.retireChannel s c).flash.cells = s.flash.cells ∧
    (State.retireChannel s c).mem.cells = s.mem.cells ∧
    (State.retireChannel s c).hb.doms = s.hb.doms ∧
    (State.retireChannel s c).power = s.power ∧
    (State.retireChannel s c).cfg = s.cfg ∧
    (State.retireChannel s c).tim = s.tim ∧
    (State.retireChannel s c).pnl = s.pnl ∧
    (State.retireChannel s c).mbx = s.mbx ∧
    (State.retireChannel s c).hb.bothFailed = s.hb.bothFailed ∧
    (State.retireChannel s c).pending = s.pending ∧
    (State.retireChannel s c).now = s.now ∧
    (State.retireChannel s c).sht = s.sht ∧
    (State.retireChannel s c).acq = s.acq ∧
    (State.retireChannel s c).phs = s.phs ∧
    (State.retireChannel s c).evt = s.evt ∧
    (State.retireChannel s c).alarms = s.alarms ∧
    (State.retireChannel s c).dts = s.dts ∧
    (State.retireChannel s c).sup = s.sup ∧
    (State.retireChannel s c).permits = s.permits ∧
    (State.retireChannel s c).als = s.als ∧
    (State.retireChannel s c).plk = s.plk ∧
    (State.retireChannel s c).lanes = s.lanes ∧
    (State.retireChannel s c).mgmt = s.mgmt ∧
    (State.retireChannel s c).trigLevel = s.trigLevel ∧
    (State.retireChannel s c).opt = s.opt := by
  unfold State.retireChannel
  (repeat' split) <;> simp

@[simp] theorem State.measure_keeps (s : State) (input : Nat) (m : TiuMeas) :
    (State.measure s input m).1.permits.asserted = s.permits.asserted ∧
    (State.measure s input m).1.opt.ports = s.opt.ports ∧
    (State.measure s input m).1.flash.cells = s.flash.cells ∧
    (State.measure s input m).1.mem.cells = s.mem.cells ∧
    (State.measure s input m).1.hb.doms = s.hb.doms ∧
    (State.measure s input m).1.power = s.power ∧
    (State.measure s input m).1.cfg = s.cfg ∧
    (State.measure s input m).1.tim = s.tim ∧
    (State.measure s input m).1.pnl = s.pnl ∧
    (State.measure s input m).1.mbx = s.mbx ∧
    (State.measure s input m).1.hb.bothFailed = s.hb.bothFailed ∧
    (State.measure s input m).1.pending = s.pending ∧
    (State.measure s input m).1.now = s.now ∧
    (State.measure s input m).1.sht = s.sht ∧
    (State.measure s input m).1.acq = s.acq ∧
    (State.measure s input m).1.phs = s.phs ∧
    (State.measure s input m).1.evt = s.evt ∧
    (State.measure s input m).1.alarms = s.alarms ∧
    (State.measure s input m).1.dts = s.dts ∧
    (State.measure s input m).1.sup = s.sup ∧
    (State.measure s input m).1.permits = s.permits ∧
    (State.measure s input m).1.als = s.als ∧
    (State.measure s input m).1.plk = s.plk ∧
    (State.measure s input m).1.lanes = s.lanes ∧
    (State.measure s input m).1.mgmt = s.mgmt ∧
    (State.measure s input m).1.trigLevel = s.trigLevel ∧
    (State.measure s input m).1.opt = s.opt := by
  unfold State.measure
  (repeat' split) <;> simp

@[simp] theorem State.coarseTime_keeps (s : State) (input hold : Nat) :
    (State.coarseTime s input hold).1.permits.asserted = s.permits.asserted ∧
    (State.coarseTime s input hold).1.opt.ports = s.opt.ports ∧
    (State.coarseTime s input hold).1.flash.cells = s.flash.cells ∧
    (State.coarseTime s input hold).1.mem.cells = s.mem.cells ∧
    (State.coarseTime s input hold).1.hb.doms = s.hb.doms ∧
    (State.coarseTime s input hold).1.power = s.power ∧
    (State.coarseTime s input hold).1.cfg = s.cfg ∧
    (State.coarseTime s input hold).1.tim = s.tim ∧
    (State.coarseTime s input hold).1.pnl = s.pnl ∧
    (State.coarseTime s input hold).1.mbx = s.mbx ∧
    (State.coarseTime s input hold).1.hb.bothFailed = s.hb.bothFailed ∧
    (State.coarseTime s input hold).1.pending = s.pending ∧
    (State.coarseTime s input hold).1.now = s.now ∧
    (State.coarseTime s input hold).1.sht = s.sht ∧
    (State.coarseTime s input hold).1.acq = s.acq ∧
    (State.coarseTime s input hold).1.phs = s.phs ∧
    (State.coarseTime s input hold).1.evt = s.evt ∧
    (State.coarseTime s input hold).1.alarms = s.alarms ∧
    (State.coarseTime s input hold).1.dts = s.dts ∧
    (State.coarseTime s input hold).1.sup = s.sup ∧
    (State.coarseTime s input hold).1.permits = s.permits ∧
    (State.coarseTime s input hold).1.als = s.als ∧
    (State.coarseTime s input hold).1.plk = s.plk ∧
    (State.coarseTime s input hold).1.lanes = s.lanes ∧
    (State.coarseTime s input hold).1.mgmt = s.mgmt ∧
    (State.coarseTime s input hold).1.trigLevel = s.trigLevel ∧
    (State.coarseTime s input hold).1.opt = s.opt := by
  simp [State.coarseTime]

@[simp] theorem State.setPll_keeps (s : State) (k : Pll) (f : PllUnit → PllUnit) :
    (s.setPll k f).permits.asserted = s.permits.asserted ∧
    (s.setPll k f).opt.ports = s.opt.ports ∧
    (s.setPll k f).flash.cells = s.flash.cells ∧
    (s.setPll k f).mem.cells = s.mem.cells ∧
    (s.setPll k f).hb.doms = s.hb.doms := by
  cases k <;> simp [State.setPll]

@[simp] theorem State.setPll_still (s : State) (k : Pll) (f : PllUnit → PllUnit) :
    (s.setPll k f).power = s.power ∧
    (s.setPll k f).cfg = s.cfg ∧
    (s.setPll k f).pnl = s.pnl ∧
    (s.setPll k f).mbx = s.mbx ∧
    (s.setPll k f).hb.bothFailed = s.hb.bothFailed ∧
    (s.setPll k f).pending = s.pending ∧
    (s.setPll k f).now = s.now := by
  cases k <;> simp [State.setPll]

theorem State.setPll_same (s : State) (k : Pll) (f : PllUnit → PllUnit) :
    Same (fun s => (s.tiu, s.sht, s.acq, s.phs, s.evt, s.alarms, s.dts, s.sup, s.permits, s.als, s.plk, s.lanes, s.mgmt, s.trigLevel, s.opt)) (s.setPll k f) s := by
  cases k <;> rfl

@[simp] theorem State.setPll_blocks (s : State) (k : Pll) (f : PllUnit → PllUnit) :
    (State.setPll s k f).tiu = s.tiu ∧
    (State.setPll s k f).sht = s.sht ∧
    (State.setPll s k f).acq = s.acq ∧
    (State.setPll s k f).phs = s.phs ∧
    (State.setPll s k f).evt = s.evt ∧
    (State.setPll s k f).alarms = s.alarms ∧
    (State.setPll s k f).dts = s.dts ∧
    (State.setPll s k f).sup = s.sup ∧
    (State.setPll s k f).permits = s.permits ∧
    (State.setPll s k f).als = s.als ∧
    (State.setPll s k f).plk = s.plk ∧
    (State.setPll s k f).lanes = s.lanes ∧
    (State.setPll s k f).mgmt = s.mgmt ∧
    (State.setPll s k f).trigLevel = s.trigLevel ∧
    (State.setPll s k f).opt = s.opt := by
  simpa [Same] using State.setPll_same s k f

@[simp] theorem State.pllRelease_keeps (s : State) (k : Pll) :
    (State.pllRelease s k).permits.asserted = s.permits.asserted ∧
    (State.pllRelease s k).opt.ports = s.opt.ports ∧
    (State.pllRelease s k).flash.cells = s.flash.cells ∧
    (State.pllRelease s k).mem.cells = s.mem.cells ∧
    (State.pllRelease s k).hb.doms = s.hb.doms ∧
    (State.pllRelease s k).power = s.power ∧
    (State.pllRelease s k).cfg = s.cfg ∧
    (State.pllRelease s k).pnl = s.pnl ∧
    (State.pllRelease s k).mbx = s.mbx ∧
    (State.pllRelease s k).hb.bothFailed = s.hb.bothFailed ∧
    (State.pllRelease s k).pending = s.pending ∧
    (State.pllRelease s k).now = s.now ∧
    (State.pllRelease s k).tiu = s.tiu ∧
    (State.pllRelease s k).sht = s.sht ∧
    (State.pllRelease s k).acq = s.acq ∧
    (State.pllRelease s k).phs = s.phs ∧
    (State.pllRelease s k).evt = s.evt ∧
    (State.pllRelease s k).alarms = s.alarms ∧
    (State.pllRelease s k).dts = s.dts ∧
    (State.pllRelease s k).sup = s.sup ∧
    (State.pllRelease s k).permits = s.permits ∧
    (State.pllRelease s k).als = s.als ∧
    (State.pllRelease s k).plk = s.plk ∧
    (State.pllRelease s k).lanes = s.lanes ∧
    (State.pllRelease s k).mgmt = s.mgmt ∧
    (State.pllRelease s k).trigLevel = s.trigLevel ∧
    (State.pllRelease s k).opt = s.opt := by
  simp [State.pllRelease]

@[simp] theorem State.pllFailed_keeps (s : State) (k : Pll) :
    (State.pllFailed s k).permits.asserted = s.permits.asserted ∧
    (State.pllFailed s k).opt.ports = s.opt.ports ∧
    (State.pllFailed s k).flash.cells = s.flash.cells ∧
    (State.pllFailed s k).mem.cells = s.mem.cells ∧
    (State.pllFailed s k).hb.doms = s.hb.doms ∧
    (State.pllFailed s k).power = s.power ∧
    (State.pllFailed s k).cfg = s.cfg ∧
    (State.pllFailed s k).pnl = s.pnl ∧
    (State.pllFailed s k).mbx = s.mbx ∧
    (State.pllFailed s k).hb.bothFailed = s.hb.bothFailed ∧
    (State.pllFailed s k).pending = s.pending ∧
    (State.pllFailed s k).now = s.now ∧
    (State.pllFailed s k).tiu = s.tiu ∧
    (State.pllFailed s k).sht = s.sht ∧
    (State.pllFailed s k).acq = s.acq ∧
    (State.pllFailed s k).phs = s.phs ∧
    (State.pllFailed s k).evt = s.evt ∧
    (State.pllFailed s k).alarms = s.alarms ∧
    (State.pllFailed s k).dts = s.dts ∧
    (State.pllFailed s k).sup = s.sup ∧
    (State.pllFailed s k).permits = s.permits ∧
    (State.pllFailed s k).als = s.als ∧
    (State.pllFailed s k).plk = s.plk ∧
    (State.pllFailed s k).lanes = s.lanes ∧
    (State.pllFailed s k).mgmt = s.mgmt ∧
    (State.pllFailed s k).trigLevel = s.trigLevel ∧
    (State.pllFailed s k).opt = s.opt := by
  simp [State.pllFailed]

@[simp] theorem State.pllCoast_keeps (s : State) (k : Pll) :
    (State.pllCoast s k).permits.asserted = s.permits.asserted ∧
    (State.pllCoast s k).opt.ports = s.opt.ports ∧
    (State.pllCoast s k).flash.cells = s.flash.cells ∧
    (State.pllCoast s k).mem.cells = s.mem.cells ∧
    (State.pllCoast s k).hb.doms = s.hb.doms ∧
    (State.pllCoast s k).power = s.power ∧
    (State.pllCoast s k).cfg = s.cfg ∧
    (State.pllCoast s k).pnl = s.pnl ∧
    (State.pllCoast s k).mbx = s.mbx ∧
    (State.pllCoast s k).hb.bothFailed = s.hb.bothFailed ∧
    (State.pllCoast s k).pending = s.pending ∧
    (State.pllCoast s k).now = s.now ∧
    (State.pllCoast s k).tiu = s.tiu ∧
    (State.pllCoast s k).sht = s.sht ∧
    (State.pllCoast s k).acq = s.acq ∧
    (State.pllCoast s k).phs = s.phs ∧
    (State.pllCoast s k).evt = s.evt ∧
    (State.pllCoast s k).alarms = s.alarms ∧
    (State.pllCoast s k).dts = s.dts ∧
    (State.pllCoast s k).sup = s.sup ∧
    (State.pllCoast s k).permits = s.permits ∧
    (State.pllCoast s k).als = s.als ∧
    (State.pllCoast s k).plk = s.plk ∧
    (State.pllCoast s k).lanes = s.lanes ∧
    (State.pllCoast s k).mgmt = s.mgmt ∧
    (State.pllCoast s k).trigLevel = s.trigLevel ∧
    (State.pllCoast s k).opt = s.opt := by
  unfold State.pllCoast
  (repeat' split) <;> simp

@[simp] theorem State.bothCoast_keeps (s : State) :
    (State.bothCoast s).permits.asserted = s.permits.asserted ∧
    (State.bothCoast s).opt.ports = s.opt.ports ∧
    (State.bothCoast s).flash.cells = s.flash.cells ∧
    (State.bothCoast s).mem.cells = s.mem.cells ∧
    (State.bothCoast s).hb.doms = s.hb.doms ∧
    (State.bothCoast s).power = s.power ∧
    (State.bothCoast s).cfg = s.cfg ∧
    (State.bothCoast s).pnl = s.pnl ∧
    (State.bothCoast s).mbx = s.mbx ∧
    (State.bothCoast s).hb.bothFailed = s.hb.bothFailed ∧
    (State.bothCoast s).pending = s.pending ∧
    (State.bothCoast s).now = s.now ∧
    (State.bothCoast s).tiu = s.tiu ∧
    (State.bothCoast s).sht = s.sht ∧
    (State.bothCoast s).acq = s.acq ∧
    (State.bothCoast s).phs = s.phs ∧
    (State.bothCoast s).evt = s.evt ∧
    (State.bothCoast s).alarms = s.alarms ∧
    (State.bothCoast s).dts = s.dts ∧
    (State.bothCoast s).sup = s.sup ∧
    (State.bothCoast s).permits = s.permits ∧
    (State.bothCoast s).als = s.als ∧
    (State.bothCoast s).plk = s.plk ∧
    (State.bothCoast s).lanes = s.lanes ∧
    (State.bothCoast s).mgmt = s.mgmt ∧
    (State.bothCoast s).trigLevel = s.trigLevel ∧
    (State.bothCoast s).opt = s.opt := by
  simp [State.bothCoast]

@[simp] theorem State.restartDividers_keeps (s : State) :
    (State.restartDividers s).permits.asserted = s.permits.asserted ∧
    (State.restartDividers s).opt.ports = s.opt.ports ∧
    (State.restartDividers s).flash.cells = s.flash.cells ∧
    (State.restartDividers s).mem.cells = s.mem.cells ∧
    (State.restartDividers s).hb.doms = s.hb.doms ∧
    (State.restartDividers s).power = s.power ∧
    (State.restartDividers s).cfg = s.cfg ∧
    (State.restartDividers s).pnl = s.pnl ∧
    (State.restartDividers s).mbx = s.mbx ∧
    (State.restartDividers s).hb.bothFailed = s.hb.bothFailed ∧
    (State.restartDividers s).pending = s.pending ∧
    (State.restartDividers s).now = s.now ∧
    (State.restartDividers s).tiu = s.tiu ∧
    (State.restartDividers s).sht = s.sht ∧
    (State.restartDividers s).acq = s.acq ∧
    (State.restartDividers s).phs = s.phs ∧
    (State.restartDividers s).evt = s.evt ∧
    (State.restartDividers s).alarms = s.alarms ∧
    (State.restartDividers s).dts = s.dts ∧
    (State.restartDividers s).sup = s.sup ∧
    (State.restartDividers s).permits = s.permits ∧
    (State.restartDividers s).als = s.als ∧
    (State.restartDividers s).plk = s.plk ∧
    (State.restartDividers s).lanes = s.lanes ∧
    (State.restartDividers s).mgmt = s.mgmt ∧
    (State.restartDividers s).trigLevel = s.trigLevel ∧
    (State.restartDividers s).opt = s.opt := by
  simp [State.restartDividers]

@[simp] theorem State.startTime_keeps (s : State) :
    (State.startTime s).permits.asserted = s.permits.asserted ∧
    (State.startTime s).opt.ports = s.opt.ports ∧
    (State.startTime s).flash.cells = s.flash.cells ∧
    (State.startTime s).mem.cells = s.mem.cells ∧
    (State.startTime s).hb.doms = s.hb.doms ∧
    (State.startTime s).power = s.power ∧
    (State.startTime s).cfg = s.cfg ∧
    (State.startTime s).pnl = s.pnl ∧
    (State.startTime s).mbx = s.mbx ∧
    (State.startTime s).hb.bothFailed = s.hb.bothFailed ∧
    (State.startTime s).pending = s.pending ∧
    (State.startTime s).now = s.now ∧
    (State.startTime s).tiu = s.tiu ∧
    (State.startTime s).sht = s.sht ∧
    (State.startTime s).acq = s.acq ∧
    (State.startTime s).phs = s.phs ∧
    (State.startTime s).evt = s.evt ∧
    (State.startTime s).alarms = s.alarms ∧
    (State.startTime s).dts = s.dts ∧
    (State.startTime s).sup = s.sup ∧
    (State.startTime s).permits = s.permits ∧
    (State.startTime s).als = s.als ∧
    (State.startTime s).plk = s.plk ∧
    (State.startTime s).lanes = s.lanes ∧
    (State.startTime s).mgmt = s.mgmt ∧
    (State.startTime s).trigLevel = s.trigLevel ∧
    (State.startTime s).opt = s.opt := by
  simp [State.startTime]

@[simp] theorem State.afterLockA_keeps (s : State) (was : PllSt) :
    (State.afterLockA s was).permits.asserted = s.permits.asserted ∧
    (State.afterLockA s was).opt.ports = s.opt.ports ∧
    (State.afterLockA s was).flash.cells = s.flash.cells ∧
    (State.afterLockA s was).mem.cells = s.mem.cells ∧
    (State.afterLockA s was).hb.doms = s.hb.doms ∧
    (State.afterLockA s was).power = s.power ∧
    (State.afterLockA s was).cfg = s.cfg ∧
    (State.afterLockA s was).pnl = s.pnl ∧
    (State.afterLockA s was).mbx = s.mbx ∧
    (State.afterLockA s was).hb.bothFailed = s.hb.bothFailed ∧
    (State.afterLockA s was).pending = s.pending ∧
    (State.afterLockA s was).now = s.now ∧
    (State.afterLockA s was).tiu = s.tiu ∧
    (State.afterLockA s was).sht = s.sht ∧
    (State.afterLockA s was).acq = s.acq ∧
    (State.afterLockA s was).phs = s.phs ∧
    (State.afterLockA s was).evt = s.evt ∧
    (State.afterLockA s was).alarms = s.alarms ∧
    (State.afterLockA s was).dts = s.dts ∧
    (State.afterLockA s was).sup = s.sup ∧
    (State.afterLockA s was).permits = s.permits ∧
    (State.afterLockA s was).als = s.als ∧
    (State.afterLockA s was).plk = s.plk ∧
    (State.afterLockA s was).lanes = s.lanes ∧
    (State.afterLockA s was).mgmt = s.mgmt ∧
    (State.afterLockA s was).trigLevel = s.trigLevel ∧
    (State.afterLockA s was).opt = s.opt := by
  simp [State.afterLockA]

@[simp] theorem State.firstLock_keeps (s : State) :
    (State.firstLock s).permits.asserted = s.permits.asserted ∧
    (State.firstLock s).opt.ports = s.opt.ports ∧
    (State.firstLock s).flash.cells = s.flash.cells ∧
    (State.firstLock s).mem.cells = s.mem.cells ∧
    (State.firstLock s).hb.doms = s.hb.doms ∧
    (State.firstLock s).power = s.power ∧
    (State.firstLock s).cfg = s.cfg ∧
    (State.firstLock s).tim = s.tim ∧
    (State.firstLock s).mbx = s.mbx ∧
    (State.firstLock s).hb.bothFailed = s.hb.bothFailed ∧
    (State.firstLock s).pending = s.pending ∧
    (State.firstLock s).now = s.now ∧
    (State.firstLock s).tiu = s.tiu ∧
    (State.firstLock s).sht = s.sht ∧
    (State.firstLock s).acq = s.acq ∧
    (State.firstLock s).phs = s.phs ∧
    (State.firstLock s).evt = s.evt ∧
    (State.firstLock s).alarms = s.alarms ∧
    (State.firstLock s).dts = s.dts ∧
    (State.firstLock s).sup = s.sup ∧
    (State.firstLock s).permits = s.permits ∧
    (State.firstLock s).als = s.als ∧
    (State.firstLock s).plk = s.plk ∧
    (State.firstLock s).lanes = s.lanes ∧
    (State.firstLock s).mgmt = s.mgmt ∧
    (State.firstLock s).trigLevel = s.trigLevel ∧
    (State.firstLock s).opt = s.opt := by
  simp [State.firstLock]

@[simp] theorem State.rebaseSlots_keeps (old : Tim) (s : State) (p : Port) :
    (State.rebaseSlots old s p).permits.asserted = s.permits.asserted ∧
    (State.rebaseSlots old s p).opt.ports = s.opt.ports ∧
    (State.rebaseSlots old s p).flash.cells = s.flash.cells ∧
    (State.rebaseSlots old s p).mem.cells = s.mem.cells ∧
    (State.rebaseSlots old s p).hb.doms = s.hb.doms ∧
    (State.rebaseSlots old s p).power = s.power ∧
    (State.rebaseSlots old s p).cfg = s.cfg ∧
    (State.rebaseSlots old s p).tim = s.tim ∧
    (State.rebaseSlots old s p).pnl = s.pnl ∧
    (State.rebaseSlots old s p).mbx = s.mbx ∧
    (State.rebaseSlots old s p).hb.bothFailed = s.hb.bothFailed ∧
    (State.rebaseSlots old s p).pending = s.pending ∧
    (State.rebaseSlots old s p).now = s.now ∧
    (State.rebaseSlots old s p).tiu = s.tiu ∧
    (State.rebaseSlots old s p).acq = s.acq ∧
    (State.rebaseSlots old s p).phs = s.phs ∧
    (State.rebaseSlots old s p).evt = s.evt ∧
    (State.rebaseSlots old s p).alarms = s.alarms ∧
    (State.rebaseSlots old s p).dts = s.dts ∧
    (State.rebaseSlots old s p).sup = s.sup ∧
    (State.rebaseSlots old s p).permits = s.permits ∧
    (State.rebaseSlots old s p).als = s.als ∧
    (State.rebaseSlots old s p).plk = s.plk ∧
    (State.rebaseSlots old s p).lanes = s.lanes ∧
    (State.rebaseSlots old s p).mgmt = s.mgmt ∧
    (State.rebaseSlots old s p).trigLevel = s.trigLevel ∧
    (State.rebaseSlots old s p).opt = s.opt := by
  simp [State.rebaseSlots]

@[simp] theorem State.moveTime_keeps (s : State) (d : Int) :
    (State.moveTime s d).permits.asserted = s.permits.asserted ∧
    (State.moveTime s d).opt.ports = s.opt.ports ∧
    (State.moveTime s d).flash.cells = s.flash.cells ∧
    (State.moveTime s d).mem.cells = s.mem.cells ∧
    (State.moveTime s d).hb.doms = s.hb.doms ∧
    (State.moveTime s d).power = s.power ∧
    (State.moveTime s d).cfg = s.cfg ∧
    (State.moveTime s d).pnl = s.pnl ∧
    (State.moveTime s d).mbx = s.mbx ∧
    (State.moveTime s d).hb.bothFailed = s.hb.bothFailed ∧
    (State.moveTime s d).pending = s.pending ∧
    (State.moveTime s d).now = s.now ∧
    (State.moveTime s d).tiu = s.tiu ∧
    (State.moveTime s d).acq = s.acq ∧
    (State.moveTime s d).phs = s.phs ∧
    (State.moveTime s d).evt = s.evt ∧
    (State.moveTime s d).alarms = s.alarms ∧
    (State.moveTime s d).dts = s.dts ∧
    (State.moveTime s d).sup = s.sup ∧
    (State.moveTime s d).permits = s.permits ∧
    (State.moveTime s d).als = s.als ∧
    (State.moveTime s d).plk = s.plk ∧
    (State.moveTime s d).lanes = s.lanes ∧
    (State.moveTime s d).mgmt = s.mgmt ∧
    (State.moveTime s d).trigLevel = s.trigLevel ∧
    (State.moveTime s d).opt = s.opt := by
  simp [State.moveTime]

@[simp] theorem State.stepTime_keeps (s : State) (d : Int) :
    (State.stepTime s d).permits.asserted = s.permits.asserted ∧
    (State.stepTime s d).opt.ports = s.opt.ports ∧
    (State.stepTime s d).flash.cells = s.flash.cells ∧
    (State.stepTime s d).mem.cells = s.mem.cells ∧
    (State.stepTime s d).hb.doms = s.hb.doms ∧
    (State.stepTime s d).power = s.power ∧
    (State.stepTime s d).cfg = s.cfg ∧
    (State.stepTime s d).pnl = s.pnl ∧
    (State.stepTime s d).mbx = s.mbx ∧
    (State.stepTime s d).hb.bothFailed = s.hb.bothFailed ∧
    (State.stepTime s d).pending = s.pending ∧
    (State.stepTime s d).now = s.now ∧
    (State.stepTime s d).tiu = s.tiu ∧
    (State.stepTime s d).acq = s.acq ∧
    (State.stepTime s d).phs = s.phs ∧
    (State.stepTime s d).evt = s.evt ∧
    (State.stepTime s d).alarms = s.alarms ∧
    (State.stepTime s d).dts = s.dts ∧
    (State.stepTime s d).sup = s.sup ∧
    (State.stepTime s d).permits = s.permits ∧
    (State.stepTime s d).als = s.als ∧
    (State.stepTime s d).plk = s.plk ∧
    (State.stepTime s d).lanes = s.lanes ∧
    (State.stepTime s d).mgmt = s.mgmt ∧
    (State.stepTime s d).trigLevel = s.trigLevel ∧
    (State.stepTime s d).opt = s.opt := by
  simp [State.stepTime]

@[simp] theorem State.emitEdge_keeps (s : State) (kind : Nat) (entry : List Byte) :
    (State.emitEdge s kind entry).permits.asserted = s.permits.asserted ∧
    (State.emitEdge s kind entry).opt.ports = s.opt.ports ∧
    (State.emitEdge s kind entry).flash.cells = s.flash.cells ∧
    (State.emitEdge s kind entry).mem.cells = s.mem.cells ∧
    (State.emitEdge s kind entry).hb.doms = s.hb.doms ∧
    (State.emitEdge s kind entry).power = s.power ∧
    (State.emitEdge s kind entry).cfg = s.cfg ∧
    (State.emitEdge s kind entry).tim = s.tim ∧
    (State.emitEdge s kind entry).pnl = s.pnl ∧
    (State.emitEdge s kind entry).mbx = s.mbx ∧
    (State.emitEdge s kind entry).hb.bothFailed = s.hb.bothFailed ∧
    (State.emitEdge s kind entry).pending = s.pending ∧
    (State.emitEdge s kind entry).now = s.now ∧
    (State.emitEdge s kind entry).tiu = s.tiu ∧
    (State.emitEdge s kind entry).sht = s.sht ∧
    (State.emitEdge s kind entry).acq = s.acq ∧
    (State.emitEdge s kind entry).phs = s.phs ∧
    (State.emitEdge s kind entry).evt = s.evt ∧
    (State.emitEdge s kind entry).alarms = s.alarms ∧
    (State.emitEdge s kind entry).dts = s.dts ∧
    (State.emitEdge s kind entry).sup = s.sup ∧
    (State.emitEdge s kind entry).permits = s.permits ∧
    (State.emitEdge s kind entry).als = s.als ∧
    (State.emitEdge s kind entry).plk = s.plk ∧
    (State.emitEdge s kind entry).lanes = s.lanes ∧
    (State.emitEdge s kind entry).mgmt = s.mgmt ∧
    (State.emitEdge s kind entry).trigLevel = s.trigLevel ∧
    (State.emitEdge s kind entry).opt = s.opt := by
  simp [State.emitEdge]

@[simp] theorem State.stampEdge_keeps (s : State) (input : Nat) (m : TiuMeas) :
    (State.stampEdge s input m).1.permits.asserted = s.permits.asserted ∧
    (State.stampEdge s input m).1.opt.ports = s.opt.ports ∧
    (State.stampEdge s input m).1.flash.cells = s.flash.cells ∧
    (State.stampEdge s input m).1.mem.cells = s.mem.cells ∧
    (State.stampEdge s input m).1.hb.doms = s.hb.doms ∧
    (State.stampEdge s input m).1.power = s.power ∧
    (State.stampEdge s input m).1.cfg = s.cfg ∧
    (State.stampEdge s input m).1.pnl = s.pnl ∧
    (State.stampEdge s input m).1.mbx = s.mbx ∧
    (State.stampEdge s input m).1.hb.bothFailed = s.hb.bothFailed ∧
    (State.stampEdge s input m).1.pending = s.pending ∧
    (State.stampEdge s input m).1.now = s.now ∧
    (State.stampEdge s input m).1.sht = s.sht ∧
    (State.stampEdge s input m).1.acq = s.acq ∧
    (State.stampEdge s input m).1.phs = s.phs ∧
    (State.stampEdge s input m).1.evt = s.evt ∧
    (State.stampEdge s input m).1.alarms = s.alarms ∧
    (State.stampEdge s input m).1.dts = s.dts ∧
    (State.stampEdge s input m).1.sup = s.sup ∧
    (State.stampEdge s input m).1.permits = s.permits ∧
    (State.stampEdge s input m).1.als = s.als ∧
    (State.stampEdge s input m).1.plk = s.plk ∧
    (State.stampEdge s input m).1.lanes = s.lanes ∧
    (State.stampEdge s input m).1.mgmt = s.mgmt ∧
    (State.stampEdge s input m).1.trigLevel = s.trigLevel ∧
    (State.stampEdge s input m).1.opt = s.opt := by
  unfold State.stampEdge
  (repeat' split) <;> simp

@[simp] theorem State.syncEdge_keeps (s : State) (offset : Int) :
    (s.syncEdge offset).1.permits.asserted = s.permits.asserted ∧
    (s.syncEdge offset).1.opt.ports = s.opt.ports ∧
    (s.syncEdge offset).1.flash.cells = s.flash.cells ∧
    (s.syncEdge offset).1.mem.cells = s.mem.cells ∧
    (s.syncEdge offset).1.hb.doms = s.hb.doms := by
  unfold State.syncEdge
  split
  · simp
  · split
    · exact ⟨rfl, rfl, rfl, rfl, rfl⟩
    · exact ⟨rfl, rfl, rfl, rfl, rfl⟩
  · dsimp only
    split
    · exact ⟨rfl, rfl, rfl, rfl, rfl⟩
    · simp

@[simp] theorem State.syncEdge_still (s : State) (offset : Int) :
    (s.syncEdge offset).1.power = s.power ∧
    (s.syncEdge offset).1.cfg = s.cfg ∧
    (s.syncEdge offset).1.pnl = s.pnl ∧
    (s.syncEdge offset).1.mbx = s.mbx ∧
    (s.syncEdge offset).1.hb.bothFailed = s.hb.bothFailed ∧
    (s.syncEdge offset).1.pending = s.pending ∧
    (s.syncEdge offset).1.now = s.now := by
  unfold State.syncEdge
  split
  · simp
  · split
    · exact ⟨rfl, rfl, rfl, rfl, rfl, rfl, rfl⟩
    · exact ⟨rfl, rfl, rfl, rfl, rfl, rfl, rfl⟩
  · dsimp only
    split
    · exact ⟨rfl, rfl, rfl, rfl, rfl, rfl, rfl⟩
    · simp

theorem State.syncEdge_same (s : State) (offset : Int) :
    Same (fun s => (s.tiu, s.acq, s.phs, s.evt, s.alarms, s.dts, s.sup, s.permits, s.als, s.plk, s.lanes, s.mgmt, s.trigLevel, s.opt)) (s.syncEdge offset).1 s := by
  unfold State.syncEdge
  split
  · simp [Same]
  · split
    · exact rfl
    · exact rfl
  · dsimp only
    split
    · exact rfl
    · simp [Same]

@[simp] theorem State.syncEdge_blocks (s : State) (offset : Int) :
    (State.syncEdge s offset).1.tiu = s.tiu ∧
    (State.syncEdge s offset).1.acq = s.acq ∧
    (State.syncEdge s offset).1.phs = s.phs ∧
    (State.syncEdge s offset).1.evt = s.evt ∧
    (State.syncEdge s offset).1.alarms = s.alarms ∧
    (State.syncEdge s offset).1.dts = s.dts ∧
    (State.syncEdge s offset).1.sup = s.sup ∧
    (State.syncEdge s offset).1.permits = s.permits ∧
    (State.syncEdge s offset).1.als = s.als ∧
    (State.syncEdge s offset).1.plk = s.plk ∧
    (State.syncEdge s offset).1.lanes = s.lanes ∧
    (State.syncEdge s offset).1.mgmt = s.mgmt ∧
    (State.syncEdge s offset).1.trigLevel = s.trigLevel ∧
    (State.syncEdge s offset).1.opt = s.opt := by
  simpa [Same] using State.syncEdge_same s offset

@[simp] theorem State.ppsSteer_keeps (s : State) (t e : Int) :
    (State.ppsSteer s t e).permits.asserted = s.permits.asserted ∧
    (State.ppsSteer s t e).opt.ports = s.opt.ports ∧
    (State.ppsSteer s t e).flash.cells = s.flash.cells ∧
    (State.ppsSteer s t e).mem.cells = s.mem.cells ∧
    (State.ppsSteer s t e).hb.doms = s.hb.doms ∧
    (State.ppsSteer s t e).power = s.power ∧
    (State.ppsSteer s t e).cfg = s.cfg ∧
    (State.ppsSteer s t e).pnl = s.pnl ∧
    (State.ppsSteer s t e).mbx = s.mbx ∧
    (State.ppsSteer s t e).hb.bothFailed = s.hb.bothFailed ∧
    (State.ppsSteer s t e).pending = s.pending ∧
    (State.ppsSteer s t e).now = s.now ∧
    (State.ppsSteer s t e).tiu = s.tiu ∧
    (State.ppsSteer s t e).acq = s.acq ∧
    (State.ppsSteer s t e).phs = s.phs ∧
    (State.ppsSteer s t e).evt = s.evt ∧
    (State.ppsSteer s t e).alarms = s.alarms ∧
    (State.ppsSteer s t e).dts = s.dts ∧
    (State.ppsSteer s t e).sup = s.sup ∧
    (State.ppsSteer s t e).permits = s.permits ∧
    (State.ppsSteer s t e).als = s.als ∧
    (State.ppsSteer s t e).plk = s.plk ∧
    (State.ppsSteer s t e).lanes = s.lanes ∧
    (State.ppsSteer s t e).mgmt = s.mgmt ∧
    (State.ppsSteer s t e).trigLevel = s.trigLevel ∧
    (State.ppsSteer s t e).opt = s.opt := by
  simp [State.ppsSteer]

@[simp] theorem State.notice_keeps (s : State) :
    (State.notice s).permits.asserted = s.permits.asserted ∧
    (State.notice s).opt.ports = s.opt.ports ∧
    (State.notice s).flash.cells = s.flash.cells ∧
    (State.notice s).mem.cells = s.mem.cells ∧
    (State.notice s).hb.doms = s.hb.doms ∧
    (State.notice s).power = s.power ∧
    (State.notice s).cfg = s.cfg ∧
    (State.notice s).tim = s.tim ∧
    (State.notice s).pnl = s.pnl ∧
    (State.notice s).mbx = s.mbx ∧
    (State.notice s).hb.bothFailed = s.hb.bothFailed ∧
    (State.notice s).pending = s.pending ∧
    (State.notice s).now = s.now ∧
    (State.notice s).tiu = s.tiu ∧
    (State.notice s).sht = s.sht ∧
    (State.notice s).acq = s.acq ∧
    (State.notice s).phs = s.phs ∧
    (State.notice s).alarms = s.alarms ∧
    (State.notice s).dts = s.dts ∧
    (State.notice s).sup = s.sup ∧
    (State.notice s).permits = s.permits ∧
    (State.notice s).als = s.als ∧
    (State.notice s).plk = s.plk ∧
    (State.notice s).lanes = s.lanes ∧
    (State.notice s).mgmt = s.mgmt ∧
    (State.notice s).trigLevel = s.trigLevel ∧
    (State.notice s).opt = s.opt := by
  simp [State.notice]

@[simp] theorem State.evtReaches_keeps (s : State) (d : EvtNotice) (sinks : List Region) :
    (State.evtReaches s d sinks).permits.asserted = s.permits.asserted ∧
    (State.evtReaches s d sinks).opt.ports = s.opt.ports ∧
    (State.evtReaches s d sinks).flash.cells = s.flash.cells ∧
    (State.evtReaches s d sinks).mem.cells = s.mem.cells ∧
    (State.evtReaches s d sinks).hb.doms = s.hb.doms ∧
    (State.evtReaches s d sinks).power = s.power ∧
    (State.evtReaches s d sinks).cfg = s.cfg ∧
    (State.evtReaches s d sinks).tim = s.tim ∧
    (State.evtReaches s d sinks).pnl = s.pnl ∧
    (State.evtReaches s d sinks).mbx = s.mbx ∧
    (State.evtReaches s d sinks).hb.bothFailed = s.hb.bothFailed ∧
    (State.evtReaches s d sinks).pending = s.pending ∧
    (State.evtReaches s d sinks).now = s.now ∧
    (State.evtReaches s d sinks).tiu = s.tiu ∧
    (State.evtReaches s d sinks).sht = s.sht ∧
    (State.evtReaches s d sinks).acq = s.acq ∧
    (State.evtReaches s d sinks).phs = s.phs ∧
    (State.evtReaches s d sinks).dts = s.dts ∧
    (State.evtReaches s d sinks).sup = s.sup ∧
    (State.evtReaches s d sinks).permits = s.permits ∧
    (State.evtReaches s d sinks).als = s.als ∧
    (State.evtReaches s d sinks).plk = s.plk ∧
    (State.evtReaches s d sinks).lanes = s.lanes ∧
    (State.evtReaches s d sinks).mgmt = s.mgmt ∧
    (State.evtReaches s d sinks).trigLevel = s.trigLevel ∧
    (State.evtReaches s d sinks).opt = s.opt := by
  simp [State.evtReaches]

@[simp] theorem State.acknowledge_keeps (s : State) (mask : Nat) :
    (State.acknowledge s mask).permits.asserted = s.permits.asserted ∧
    (State.acknowledge s mask).opt.ports = s.opt.ports ∧
    (State.acknowledge s mask).flash.cells = s.flash.cells ∧
    (State.acknowledge s mask).mem.cells = s.mem.cells ∧
    (State.acknowledge s mask).hb.doms = s.hb.doms ∧
    (State.acknowledge s mask).power = s.power ∧
    (State.acknowledge s mask).cfg = s.cfg ∧
    (State.acknowledge s mask).tim = s.tim ∧
    (State.acknowledge s mask).pnl = s.pnl ∧
    (State.acknowledge s mask).mbx = s.mbx ∧
    (State.acknowledge s mask).hb.bothFailed = s.hb.bothFailed ∧
    (State.acknowledge s mask).pending = s.pending ∧
    (State.acknowledge s mask).now = s.now ∧
    (State.acknowledge s mask).tiu = s.tiu ∧
    (State.acknowledge s mask).sht = s.sht ∧
    (State.acknowledge s mask).acq = s.acq ∧
    (State.acknowledge s mask).phs = s.phs ∧
    (State.acknowledge s mask).evt = s.evt ∧
    (State.acknowledge s mask).dts = s.dts ∧
    (State.acknowledge s mask).sup = s.sup ∧
    (State.acknowledge s mask).permits = s.permits ∧
    (State.acknowledge s mask).als = s.als ∧
    (State.acknowledge s mask).plk = s.plk ∧
    (State.acknowledge s mask).lanes = s.lanes ∧
    (State.acknowledge s mask).mgmt = s.mgmt ∧
    (State.acknowledge s mask).trigLevel = s.trigLevel ∧
    (State.acknowledge s mask).opt = s.opt := by
  simp [State.acknowledge]

@[simp] theorem State.alarmsFence_keeps (s : State) :
    (State.alarmsFence s).permits.asserted = s.permits.asserted ∧
    (State.alarmsFence s).opt.ports = s.opt.ports ∧
    (State.alarmsFence s).flash.cells = s.flash.cells ∧
    (State.alarmsFence s).mem.cells = s.mem.cells ∧
    (State.alarmsFence s).hb.doms = s.hb.doms ∧
    (State.alarmsFence s).power = s.power ∧
    (State.alarmsFence s).cfg = s.cfg ∧
    (State.alarmsFence s).tim = s.tim ∧
    (State.alarmsFence s).pnl = s.pnl ∧
    (State.alarmsFence s).mbx = s.mbx ∧
    (State.alarmsFence s).hb.bothFailed = s.hb.bothFailed ∧
    (State.alarmsFence s).pending = s.pending ∧
    (State.alarmsFence s).now = s.now ∧
    (State.alarmsFence s).tiu = s.tiu ∧
    (State.alarmsFence s).sht = s.sht ∧
    (State.alarmsFence s).acq = s.acq ∧
    (State.alarmsFence s).phs = s.phs ∧
    (State.alarmsFence s).evt = s.evt ∧
    (State.alarmsFence s).dts = s.dts ∧
    (State.alarmsFence s).sup = s.sup ∧
    (State.alarmsFence s).permits = s.permits ∧
    (State.alarmsFence s).als = s.als ∧
    (State.alarmsFence s).plk = s.plk ∧
    (State.alarmsFence s).lanes = s.lanes ∧
    (State.alarmsFence s).mgmt = s.mgmt ∧
    (State.alarmsFence s).trigLevel = s.trigLevel ∧
    (State.alarmsFence s).opt = s.opt := by
  simp [State.alarmsFence]

@[simp] theorem State.alarmsFree_keeps (s : State) :
    (State.alarmsFree s).permits.asserted = s.permits.asserted ∧
    (State.alarmsFree s).opt.ports = s.opt.ports ∧
    (State.alarmsFree s).flash.cells = s.flash.cells ∧
    (State.alarmsFree s).mem.cells = s.mem.cells ∧
    (State.alarmsFree s).hb.doms = s.hb.doms ∧
    (State.alarmsFree s).power = s.power ∧
    (State.alarmsFree s).cfg = s.cfg ∧
    (State.alarmsFree s).tim = s.tim ∧
    (State.alarmsFree s).pnl = s.pnl ∧
    (State.alarmsFree s).mbx = s.mbx ∧
    (State.alarmsFree s).hb.bothFailed = s.hb.bothFailed ∧
    (State.alarmsFree s).pending = s.pending ∧
    (State.alarmsFree s).now = s.now ∧
    (State.alarmsFree s).tiu = s.tiu ∧
    (State.alarmsFree s).acq = s.acq ∧
    (State.alarmsFree s).permits = s.permits ∧
    (State.alarmsFree s).plk = s.plk ∧
    (State.alarmsFree s).lanes = s.lanes ∧
    (State.alarmsFree s).mgmt = s.mgmt ∧
    (State.alarmsFree s).trigLevel = s.trigLevel ∧
    (State.alarmsFree s).opt = s.opt := by
  simp [State.alarmsFree]

@[simp] theorem State.alarmsRecover_keeps (s : State) :
    (State.alarmsRecover s).permits.asserted = s.permits.asserted ∧
    (State.alarmsRecover s).opt.ports = s.opt.ports ∧
    (State.alarmsRecover s).flash.cells = s.flash.cells ∧
    (State.alarmsRecover s).mem.cells = s.mem.cells ∧
    (State.alarmsRecover s).hb.doms = s.hb.doms ∧
    (State.alarmsRecover s).power = s.power ∧
    (State.alarmsRecover s).cfg = s.cfg ∧
    (State.alarmsRecover s).tim = s.tim ∧
    (State.alarmsRecover s).pnl = s.pnl ∧
    (State.alarmsRecover s).mbx = s.mbx ∧
    (State.alarmsRecover s).hb.bothFailed = s.hb.bothFailed ∧
    (State.alarmsRecover s).pending = s.pending ∧
    (State.alarmsRecover s).now = s.now ∧
    (State.alarmsRecover s).tiu = s.tiu ∧
    (State.alarmsRecover s).acq = s.acq ∧
    (State.alarmsRecover s).permits = s.permits ∧
    (State.alarmsRecover s).plk = s.plk ∧
    (State.alarmsRecover s).lanes = s.lanes ∧
    (State.alarmsRecover s).mgmt = s.mgmt ∧
    (State.alarmsRecover s).trigLevel = s.trigLevel ∧
    (State.alarmsRecover s).opt = s.opt := by
  simp [State.alarmsRecover]

@[simp] theorem State.requestSnap_keeps (s : State) (p : Port) (d zone first count : Nat) (j0 : Int) :
    (State.requestSnap s p d zone first count j0).1.permits.asserted = s.permits.asserted ∧
    (State.requestSnap s p d zone first count j0).1.opt.ports = s.opt.ports ∧
    (State.requestSnap s p d zone first count j0).1.flash.cells = s.flash.cells ∧
    (State.requestSnap s p d zone first count j0).1.mem.cells = s.mem.cells ∧
    (State.requestSnap s p d zone first count j0).1.hb.doms = s.hb.doms ∧
    (State.requestSnap s p d zone first count j0).1.power = s.power ∧
    (State.requestSnap s p d zone first count j0).1.cfg = s.cfg ∧
    (State.requestSnap s p d zone first count j0).1.tim = s.tim ∧
    (State.requestSnap s p d zone first count j0).1.pnl = s.pnl ∧
    (State.requestSnap s p d zone first count j0).1.mbx = s.mbx ∧
    (State.requestSnap s p d zone first count j0).1.hb.bothFailed = s.hb.bothFailed ∧
    (State.requestSnap s p d zone first count j0).1.pending = s.pending ∧
    (State.requestSnap s p d zone first count j0).1.now = s.now ∧
    (State.requestSnap s p d zone first count j0).1.tiu = s.tiu ∧
    (State.requestSnap s p d zone first count j0).1.sht = s.sht ∧
    (State.requestSnap s p d zone first count j0).1.acq = s.acq ∧
    (State.requestSnap s p d zone first count j0).1.phs = s.phs ∧
    (State.requestSnap s p d zone first count j0).1.alarms = s.alarms ∧
    (State.requestSnap s p d zone first count j0).1.dts = s.dts ∧
    (State.requestSnap s p d zone first count j0).1.sup = s.sup ∧
    (State.requestSnap s p d zone first count j0).1.permits = s.permits ∧
    (State.requestSnap s p d zone first count j0).1.als = s.als ∧
    (State.requestSnap s p d zone first count j0).1.plk = s.plk ∧
    (State.requestSnap s p d zone first count j0).1.lanes = s.lanes ∧
    (State.requestSnap s p d zone first count j0).1.mgmt = s.mgmt ∧
    (State.requestSnap s p d zone first count j0).1.trigLevel = s.trigLevel ∧
    (State.requestSnap s p d zone first count j0).1.opt = s.opt := by
  simp only [State.requestSnap]
  (repeat' split) <;> simp

@[simp] theorem State.event_keeps (s : State) (e : EventRec) (decided : U64) (alarms snap : Nat) (skipped : Bool) :
    (State.event s e decided alarms snap skipped).permits.asserted = s.permits.asserted ∧
    (State.event s e decided alarms snap skipped).opt.ports = s.opt.ports ∧
    (State.event s e decided alarms snap skipped).flash.cells = s.flash.cells ∧
    (State.event s e decided alarms snap skipped).mem.cells = s.mem.cells ∧
    (State.event s e decided alarms snap skipped).hb.doms = s.hb.doms ∧
    (State.event s e decided alarms snap skipped).power = s.power ∧
    (State.event s e decided alarms snap skipped).cfg = s.cfg ∧
    (State.event s e decided alarms snap skipped).tim = s.tim ∧
    (State.event s e decided alarms snap skipped).pnl = s.pnl ∧
    (State.event s e decided alarms snap skipped).mbx = s.mbx ∧
    (State.event s e decided alarms snap skipped).hb.bothFailed = s.hb.bothFailed ∧
    (State.event s e decided alarms snap skipped).pending = s.pending ∧
    (State.event s e decided alarms snap skipped).now = s.now ∧
    (State.event s e decided alarms snap skipped).tiu = s.tiu ∧
    (State.event s e decided alarms snap skipped).sht = s.sht ∧
    (State.event s e decided alarms snap skipped).acq = s.acq ∧
    (State.event s e decided alarms snap skipped).phs = s.phs ∧
    (State.event s e decided alarms snap skipped).alarms = s.alarms ∧
    (State.event s e decided alarms snap skipped).dts = s.dts ∧
    (State.event s e decided alarms snap skipped).sup = s.sup ∧
    (State.event s e decided alarms snap skipped).permits = s.permits ∧
    (State.event s e decided alarms snap skipped).als = s.als ∧
    (State.event s e decided alarms snap skipped).plk = s.plk ∧
    (State.event s e decided alarms snap skipped).lanes = s.lanes ∧
    (State.event s e decided alarms snap skipped).mgmt = s.mgmt ∧
    (State.event s e decided alarms snap skipped).trigLevel = s.trigLevel ∧
    (State.event s e decided alarms snap skipped).opt = s.opt := by
  simp [State.event]

@[simp] theorem State.formEvent_keeps (s : State) (e : EventDue) :
    (State.formEvent s e).permits.asserted = s.permits.asserted ∧
    (State.formEvent s e).opt.ports = s.opt.ports ∧
    (State.formEvent s e).flash.cells = s.flash.cells ∧
    (State.formEvent s e).mem.cells = s.mem.cells ∧
    (State.formEvent s e).hb.doms = s.hb.doms ∧
    (State.formEvent s e).power = s.power ∧
    (State.formEvent s e).cfg = s.cfg ∧
    (State.formEvent s e).tim = s.tim ∧
    (State.formEvent s e).pnl = s.pnl ∧
    (State.formEvent s e).mbx = s.mbx ∧
    (State.formEvent s e).hb.bothFailed = s.hb.bothFailed ∧
    (State.formEvent s e).pending = s.pending ∧
    (State.formEvent s e).now = s.now ∧
    (State.formEvent s e).tiu = s.tiu ∧
    (State.formEvent s e).sht = s.sht ∧
    (State.formEvent s e).acq = s.acq ∧
    (State.formEvent s e).phs = s.phs ∧
    (State.formEvent s e).alarms = s.alarms ∧
    (State.formEvent s e).dts = s.dts ∧
    (State.formEvent s e).sup = s.sup ∧
    (State.formEvent s e).permits = s.permits ∧
    (State.formEvent s e).als = s.als ∧
    (State.formEvent s e).plk = s.plk ∧
    (State.formEvent s e).lanes = s.lanes ∧
    (State.formEvent s e).mgmt = s.mgmt ∧
    (State.formEvent s e).trigLevel = s.trigLevel ∧
    (State.formEvent s e).opt = s.opt := by
  unfold State.formEvent
  (repeat' split) <;> simp

@[simp] theorem State.formEvents_keeps (s : State) :
    (State.formEvents s).permits.asserted = s.permits.asserted ∧
    (State.formEvents s).opt.ports = s.opt.ports ∧
    (State.formEvents s).flash.cells = s.flash.cells ∧
    (State.formEvents s).mem.cells = s.mem.cells ∧
    (State.formEvents s).hb.doms = s.hb.doms ∧
    (State.formEvents s).power = s.power ∧
    (State.formEvents s).cfg = s.cfg ∧
    (State.formEvents s).tim = s.tim ∧
    (State.formEvents s).pnl = s.pnl ∧
    (State.formEvents s).mbx = s.mbx ∧
    (State.formEvents s).hb.bothFailed = s.hb.bothFailed ∧
    (State.formEvents s).pending = s.pending ∧
    (State.formEvents s).now = s.now ∧
    (State.formEvents s).tiu = s.tiu ∧
    (State.formEvents s).sht = s.sht ∧
    (State.formEvents s).acq = s.acq ∧
    (State.formEvents s).phs = s.phs ∧
    (State.formEvents s).alarms = s.alarms ∧
    (State.formEvents s).dts = s.dts ∧
    (State.formEvents s).sup = s.sup ∧
    (State.formEvents s).permits = s.permits ∧
    (State.formEvents s).als = s.als ∧
    (State.formEvents s).plk = s.plk ∧
    (State.formEvents s).lanes = s.lanes ∧
    (State.formEvents s).mgmt = s.mgmt ∧
    (State.formEvents s).trigLevel = s.trigLevel ∧
    (State.formEvents s).opt = s.opt := by
  simp [State.formEvents]

@[simp] theorem State.decided_keeps (s : State) (es : List EventDue) :
    (State.decided s es).permits.asserted = s.permits.asserted ∧
    (State.decided s es).opt.ports = s.opt.ports ∧
    (State.decided s es).flash.cells = s.flash.cells ∧
    (State.decided s es).mem.cells = s.mem.cells ∧
    (State.decided s es).hb.doms = s.hb.doms ∧
    (State.decided s es).power = s.power ∧
    (State.decided s es).cfg = s.cfg ∧
    (State.decided s es).tim = s.tim ∧
    (State.decided s es).pnl = s.pnl ∧
    (State.decided s es).mbx = s.mbx ∧
    (State.decided s es).hb.bothFailed = s.hb.bothFailed ∧
    (State.decided s es).pending = s.pending ∧
    (State.decided s es).now = s.now ∧
    (State.decided s es).tiu = s.tiu ∧
    (State.decided s es).sht = s.sht ∧
    (State.decided s es).acq = s.acq ∧
    (State.decided s es).phs = s.phs ∧
    (State.decided s es).dts = s.dts ∧
    (State.decided s es).sup = s.sup ∧
    (State.decided s es).permits = s.permits ∧
    (State.decided s es).als = s.als ∧
    (State.decided s es).plk = s.plk ∧
    (State.decided s es).lanes = s.lanes ∧
    (State.decided s es).mgmt = s.mgmt ∧
    (State.decided s es).trigLevel = s.trigLevel ∧
    (State.decided s es).opt = s.opt := by
  simp [State.decided]

@[simp] theorem State.markSample_keeps (s : State) (p : Port) (j : Int) (time : U64) :
    (State.markSample s p j time).permits.asserted = s.permits.asserted ∧
    (State.markSample s p j time).opt.ports = s.opt.ports ∧
    (State.markSample s p j time).flash.cells = s.flash.cells ∧
    (State.markSample s p j time).mem.cells = s.mem.cells ∧
    (State.markSample s p j time).hb.doms = s.hb.doms ∧
    (State.markSample s p j time).power = s.power ∧
    (State.markSample s p j time).cfg = s.cfg ∧
    (State.markSample s p j time).tim = s.tim ∧
    (State.markSample s p j time).pnl = s.pnl ∧
    (State.markSample s p j time).mbx = s.mbx ∧
    (State.markSample s p j time).hb.bothFailed = s.hb.bothFailed ∧
    (State.markSample s p j time).pending = s.pending ∧
    (State.markSample s p j time).now = s.now ∧
    (State.markSample s p j time).tiu = s.tiu ∧
    (State.markSample s p j time).sht = s.sht ∧
    (State.markSample s p j time).acq = s.acq ∧
    (State.markSample s p j time).phs = s.phs ∧
    (State.markSample s p j time).alarms = s.alarms ∧
    (State.markSample s p j time).dts = s.dts ∧
    (State.markSample s p j time).sup = s.sup ∧
    (State.markSample s p j time).permits = s.permits ∧
    (State.markSample s p j time).als = s.als ∧
    (State.markSample s p j time).plk = s.plk ∧
    (State.markSample s p j time).lanes = s.lanes ∧
    (State.markSample s p j time).mgmt = s.mgmt ∧
    (State.markSample s p j time).trigLevel = s.trigLevel ∧
    (State.markSample s p j time).opt = s.opt := by
  simp [State.markSample]

@[simp] theorem State.markGroup_keeps (s : State) (p : Port) (group : U48) (k : Nat) (j : Int) (time : U64) :
    (State.markGroup s p group k j time).permits.asserted = s.permits.asserted ∧
    (State.markGroup s p group k j time).opt.ports = s.opt.ports ∧
    (State.markGroup s p group k j time).flash.cells = s.flash.cells ∧
    (State.markGroup s p group k j time).mem.cells = s.mem.cells ∧
    (State.markGroup s p group k j time).hb.doms = s.hb.doms ∧
    (State.markGroup s p group k j time).power = s.power ∧
    (State.markGroup s p group k j time).cfg = s.cfg ∧
    (State.markGroup s p group k j time).tim = s.tim ∧
    (State.markGroup s p group k j time).pnl = s.pnl ∧
    (State.markGroup s p group k j time).mbx = s.mbx ∧
    (State.markGroup s p group k j time).hb.bothFailed = s.hb.bothFailed ∧
    (State.markGroup s p group k j time).pending = s.pending ∧
    (State.markGroup s p group k j time).now = s.now ∧
    (State.markGroup s p group k j time).tiu = s.tiu ∧
    (State.markGroup s p group k j time).sht = s.sht ∧
    (State.markGroup s p group k j time).acq = s.acq ∧
    (State.markGroup s p group k j time).phs = s.phs ∧
    (State.markGroup s p group k j time).alarms = s.alarms ∧
    (State.markGroup s p group k j time).dts = s.dts ∧
    (State.markGroup s p group k j time).sup = s.sup ∧
    (State.markGroup s p group k j time).permits = s.permits ∧
    (State.markGroup s p group k j time).als = s.als ∧
    (State.markGroup s p group k j time).plk = s.plk ∧
    (State.markGroup s p group k j time).lanes = s.lanes ∧
    (State.markGroup s p group k j time).mgmt = s.mgmt ∧
    (State.markGroup s p group k j time).trigLevel = s.trigLevel ∧
    (State.markGroup s p group k j time).opt = s.opt := by
  simp [State.markGroup]

@[simp] theorem State.decide__keeps (s : State) (p : Port) (done : List WindowSt) :
    (State.decide_ s p done).permits.asserted = s.permits.asserted ∧
    (State.decide_ s p done).opt.ports = s.opt.ports ∧
    (State.decide_ s p done).flash.cells = s.flash.cells ∧
    (State.decide_ s p done).mem.cells = s.mem.cells ∧
    (State.decide_ s p done).hb.doms = s.hb.doms ∧
    (State.decide_ s p done).power = s.power ∧
    (State.decide_ s p done).cfg = s.cfg ∧
    (State.decide_ s p done).tim = s.tim ∧
    (State.decide_ s p done).pnl = s.pnl ∧
    (State.decide_ s p done).mbx = s.mbx ∧
    (State.decide_ s p done).hb.bothFailed = s.hb.bothFailed ∧
    (State.decide_ s p done).pending = s.pending ∧
    (State.decide_ s p done).now = s.now ∧
    (State.decide_ s p done).tiu = s.tiu ∧
    (State.decide_ s p done).sht = s.sht ∧
    (State.decide_ s p done).acq = s.acq ∧
    (State.decide_ s p done).phs = s.phs ∧
    (State.decide_ s p done).dts = s.dts ∧
    (State.decide_ s p done).sup = s.sup ∧
    (State.decide_ s p done).permits = s.permits ∧
    (State.decide_ s p done).als = s.als ∧
    (State.decide_ s p done).plk = s.plk ∧
    (State.decide_ s p done).lanes = s.lanes ∧
    (State.decide_ s p done).mgmt = s.mgmt ∧
    (State.decide_ s p done).trigLevel = s.trigLevel ∧
    (State.decide_ s p done).opt = s.opt := by
  simp [State.decide_]

@[simp] theorem State.evtSample_keeps (s : State) (p : Port) (x : DecSample) :
    (State.evtSample s p x).permits.asserted = s.permits.asserted ∧
    (State.evtSample s p x).opt.ports = s.opt.ports ∧
    (State.evtSample s p x).flash.cells = s.flash.cells ∧
    (State.evtSample s p x).mem.cells = s.mem.cells ∧
    (State.evtSample s p x).hb.doms = s.hb.doms ∧
    (State.evtSample s p x).power = s.power ∧
    (State.evtSample s p x).cfg = s.cfg ∧
    (State.evtSample s p x).tim = s.tim ∧
    (State.evtSample s p x).pnl = s.pnl ∧
    (State.evtSample s p x).mbx = s.mbx ∧
    (State.evtSample s p x).hb.bothFailed = s.hb.bothFailed ∧
    (State.evtSample s p x).pending = s.pending ∧
    (State.evtSample s p x).now = s.now ∧
    (State.evtSample s p x).tiu = s.tiu ∧
    (State.evtSample s p x).sht = s.sht ∧
    (State.evtSample s p x).acq = s.acq ∧
    (State.evtSample s p x).phs = s.phs ∧
    (State.evtSample s p x).dts = s.dts ∧
    (State.evtSample s p x).sup = s.sup ∧
    (State.evtSample s p x).permits = s.permits ∧
    (State.evtSample s p x).als = s.als ∧
    (State.evtSample s p x).plk = s.plk ∧
    (State.evtSample s p x).lanes = s.lanes ∧
    (State.evtSample s p x).mgmt = s.mgmt ∧
    (State.evtSample s p x).trigLevel = s.trigLevel ∧
    (State.evtSample s p x).opt = s.opt := by
  simp [State.evtSample]

@[simp] theorem State.clearBands_keeps (s : State) (p : Port) :
    (State.clearBands s p).permits.asserted = s.permits.asserted ∧
    (State.clearBands s p).opt.ports = s.opt.ports ∧
    (State.clearBands s p).flash.cells = s.flash.cells ∧
    (State.clearBands s p).mem.cells = s.mem.cells ∧
    (State.clearBands s p).hb.doms = s.hb.doms ∧
    (State.clearBands s p).power = s.power ∧
    (State.clearBands s p).cfg = s.cfg ∧
    (State.clearBands s p).tim = s.tim ∧
    (State.clearBands s p).pnl = s.pnl ∧
    (State.clearBands s p).mbx = s.mbx ∧
    (State.clearBands s p).hb.bothFailed = s.hb.bothFailed ∧
    (State.clearBands s p).pending = s.pending ∧
    (State.clearBands s p).now = s.now ∧
    (State.clearBands s p).tiu = s.tiu ∧
    (State.clearBands s p).sht = s.sht ∧
    (State.clearBands s p).acq = s.acq ∧
    (State.clearBands s p).phs = s.phs ∧
    (State.clearBands s p).alarms = s.alarms ∧
    (State.clearBands s p).dts = s.dts ∧
    (State.clearBands s p).sup = s.sup ∧
    (State.clearBands s p).permits = s.permits ∧
    (State.clearBands s p).als = s.als ∧
    (State.clearBands s p).plk = s.plk ∧
    (State.clearBands s p).lanes = s.lanes ∧
    (State.clearBands s p).mgmt = s.mgmt ∧
    (State.clearBands s p).trigLevel = s.trigLevel ∧
    (State.clearBands s p).opt = s.opt := by
  simp [State.clearBands]

@[simp] theorem State.setBrk_keeps (s : State) (p : Port) (f : BreakSt → BreakSt) :
    (State.setBrk s p f).permits.asserted = s.permits.asserted ∧
    (State.setBrk s p f).opt.ports = s.opt.ports ∧
    (State.setBrk s p f).flash.cells = s.flash.cells ∧
    (State.setBrk s p f).mem.cells = s.mem.cells ∧
    (State.setBrk s p f).hb.doms = s.hb.doms ∧
    (State.setBrk s p f).power = s.power ∧
    (State.setBrk s p f).cfg = s.cfg ∧
    (State.setBrk s p f).tim = s.tim ∧
    (State.setBrk s p f).pnl = s.pnl ∧
    (State.setBrk s p f).mbx = s.mbx ∧
    (State.setBrk s p f).hb.bothFailed = s.hb.bothFailed ∧
    (State.setBrk s p f).pending = s.pending ∧
    (State.setBrk s p f).now = s.now ∧
    (State.setBrk s p f).tiu = s.tiu ∧
    (State.setBrk s p f).sht = s.sht ∧
    (State.setBrk s p f).acq = s.acq ∧
    (State.setBrk s p f).phs = s.phs ∧
    (State.setBrk s p f).alarms = s.alarms ∧
    (State.setBrk s p f).dts = s.dts ∧
    (State.setBrk s p f).sup = s.sup ∧
    (State.setBrk s p f).permits = s.permits ∧
    (State.setBrk s p f).als = s.als ∧
    (State.setBrk s p f).plk = s.plk ∧
    (State.setBrk s p f).lanes = s.lanes ∧
    (State.setBrk s p f).mgmt = s.mgmt ∧
    (State.setBrk s p f).trigLevel = s.trigLevel ∧
    (State.setBrk s p f).opt = s.opt := by
  simp [State.setBrk]

@[simp] theorem State.breakEvent_keeps (s : State) (p : Port) (kind point : Nat) (j : Int) (time : U64) :
    (State.breakEvent s p kind point j time).permits.asserted = s.permits.asserted ∧
    (State.breakEvent s p kind point j time).opt.ports = s.opt.ports ∧
    (State.breakEvent s p kind point j time).flash.cells = s.flash.cells ∧
    (State.breakEvent s p kind point j time).mem.cells = s.mem.cells ∧
    (State.breakEvent s p kind point j time).hb.doms = s.hb.doms ∧
    (State.breakEvent s p kind point j time).power = s.power ∧
    (State.breakEvent s p kind point j time).cfg = s.cfg ∧
    (State.breakEvent s p kind point j time).tim = s.tim ∧
    (State.breakEvent s p kind point j time).pnl = s.pnl ∧
    (State.breakEvent s p kind point j time).mbx = s.mbx ∧
    (State.breakEvent s p kind point j time).hb.bothFailed = s.hb.bothFailed ∧
    (State.breakEvent s p kind point j time).pending = s.pending ∧
    (State.breakEvent s p kind point j time).now = s.now ∧
    (State.breakEvent s p kind point j time).tiu = s.tiu ∧
    (State.breakEvent s p kind point j time).sht = s.sht ∧
    (State.breakEvent s p kind point j time).acq = s.acq ∧
    (State.breakEvent s p kind point j time).phs = s.phs ∧
    (State.breakEvent s p kind point j time).dts = s.dts ∧
    (State.breakEvent s p kind point j time).sup = s.sup ∧
    (State.breakEvent s p kind point j time).permits = s.permits ∧
    (State.breakEvent s p kind point j time).als = s.als ∧
    (State.breakEvent s p kind point j time).plk = s.plk ∧
    (State.breakEvent s p kind point j time).lanes = s.lanes ∧
    (State.breakEvent s p kind point j time).mgmt = s.mgmt ∧
    (State.breakEvent s p kind point j time).trigLevel = s.trigLevel ∧
    (State.breakEvent s p kind point j time).opt = s.opt := by
  simp [State.breakEvent]

@[simp] theorem State.breakGroup_keeps (s : State) (p : Port) (e : Nat) (j : Int) (time : U64) :
    (State.breakGroup s p e j time).permits.asserted = s.permits.asserted ∧
    (State.breakGroup s p e j time).opt.ports = s.opt.ports ∧
    (State.breakGroup s p e j time).flash.cells = s.flash.cells ∧
    (State.breakGroup s p e j time).mem.cells = s.mem.cells ∧
    (State.breakGroup s p e j time).hb.doms = s.hb.doms ∧
    (State.breakGroup s p e j time).power = s.power ∧
    (State.breakGroup s p e j time).cfg = s.cfg ∧
    (State.breakGroup s p e j time).tim = s.tim ∧
    (State.breakGroup s p e j time).pnl = s.pnl ∧
    (State.breakGroup s p e j time).mbx = s.mbx ∧
    (State.breakGroup s p e j time).hb.bothFailed = s.hb.bothFailed ∧
    (State.breakGroup s p e j time).pending = s.pending ∧
    (State.breakGroup s p e j time).now = s.now ∧
    (State.breakGroup s p e j time).tiu = s.tiu ∧
    (State.breakGroup s p e j time).sht = s.sht ∧
    (State.breakGroup s p e j time).acq = s.acq ∧
    (State.breakGroup s p e j time).phs = s.phs ∧
    (State.breakGroup s p e j time).dts = s.dts ∧
    (State.breakGroup s p e j time).sup = s.sup ∧
    (State.breakGroup s p e j time).permits = s.permits ∧
    (State.breakGroup s p e j time).als = s.als ∧
    (State.breakGroup s p e j time).plk = s.plk ∧
    (State.breakGroup s p e j time).lanes = s.lanes ∧
    (State.breakGroup s p e j time).mgmt = s.mgmt ∧
    (State.breakGroup s p e j time).trigLevel = s.trigLevel ∧
    (State.breakGroup s p e j time).opt = s.opt := by
  simp only [State.breakGroup]
  (repeat' split) <;> simp

@[simp] theorem State.alsGroupMissing_keeps (s : State) (p : Port) (group : U48) :
    (State.alsGroupMissing s p group).permits.asserted = s.permits.asserted ∧
    (State.alsGroupMissing s p group).opt.ports = s.opt.ports ∧
    (State.alsGroupMissing s p group).flash.cells = s.flash.cells ∧
    (State.alsGroupMissing s p group).mem.cells = s.mem.cells ∧
    (State.alsGroupMissing s p group).hb.doms = s.hb.doms ∧
    (State.alsGroupMissing s p group).power = s.power ∧
    (State.alsGroupMissing s p group).cfg = s.cfg ∧
    (State.alsGroupMissing s p group).tim = s.tim ∧
    (State.alsGroupMissing s p group).pnl = s.pnl ∧
    (State.alsGroupMissing s p group).mbx = s.mbx ∧
    (State.alsGroupMissing s p group).hb.bothFailed = s.hb.bothFailed ∧
    (State.alsGroupMissing s p group).pending = s.pending ∧
    (State.alsGroupMissing s p group).now = s.now ∧
    (State.alsGroupMissing s p group).tiu = s.tiu ∧
    (State.alsGroupMissing s p group).sht = s.sht ∧
    (State.alsGroupMissing s p group).acq = s.acq ∧
    (State.alsGroupMissing s p group).phs = s.phs ∧
    (State.alsGroupMissing s p group).evt = s.evt ∧
    (State.alsGroupMissing s p group).alarms = s.alarms ∧
    (State.alsGroupMissing s p group).dts = s.dts ∧
    (State.alsGroupMissing s p group).sup = s.sup ∧
    (State.alsGroupMissing s p group).permits = s.permits ∧
    (State.alsGroupMissing s p group).plk = s.plk ∧
    (State.alsGroupMissing s p group).lanes = s.lanes ∧
    (State.alsGroupMissing s p group).mgmt = s.mgmt ∧
    (State.alsGroupMissing s p group).trigLevel = s.trigLevel ∧
    (State.alsGroupMissing s p group).opt = s.opt := by
  simp [State.alsGroupMissing]

@[simp] theorem State.tellEnd_keeps (s : State) (p : Port) (group : U48) (near : Bool) (point : U32) :
    (State.tellEnd s p group near point).permits.asserted = s.permits.asserted ∧
    (State.tellEnd s p group near point).opt.ports = s.opt.ports ∧
    (State.tellEnd s p group near point).flash.cells = s.flash.cells ∧
    (State.tellEnd s p group near point).mem.cells = s.mem.cells ∧
    (State.tellEnd s p group near point).hb.doms = s.hb.doms ∧
    (State.tellEnd s p group near point).power = s.power ∧
    (State.tellEnd s p group near point).cfg = s.cfg ∧
    (State.tellEnd s p group near point).tim = s.tim ∧
    (State.tellEnd s p group near point).pnl = s.pnl ∧
    (State.tellEnd s p group near point).mbx = s.mbx ∧
    (State.tellEnd s p group near point).hb.bothFailed = s.hb.bothFailed ∧
    (State.tellEnd s p group near point).pending = s.pending ∧
    (State.tellEnd s p group near point).now = s.now ∧
    (State.tellEnd s p group near point).tiu = s.tiu ∧
    (State.tellEnd s p group near point).sht = s.sht ∧
    (State.tellEnd s p group near point).acq = s.acq ∧
    (State.tellEnd s p group near point).phs = s.phs ∧
    (State.tellEnd s p group near point).alarms = s.alarms ∧
    (State.tellEnd s p group near point).dts = s.dts ∧
    (State.tellEnd s p group near point).sup = s.sup ∧
    (State.tellEnd s p group near point).permits = s.permits ∧
    (State.tellEnd s p group near point).plk = s.plk ∧
    (State.tellEnd s p group near point).lanes = s.lanes ∧
    (State.tellEnd s p group near point).mgmt = s.mgmt ∧
    (State.tellEnd s p group near point).trigLevel = s.trigLevel ∧
    (State.tellEnd s p group near point).opt = s.opt := by
  simp [State.tellEnd]

@[simp] theorem State.endGroup_keeps (s : State) (p : Port) (step : Nat) :
    (State.endGroup s p step).permits.asserted = s.permits.asserted ∧
    (State.endGroup s p step).opt.ports = s.opt.ports ∧
    (State.endGroup s p step).flash.cells = s.flash.cells ∧
    (State.endGroup s p step).mem.cells = s.mem.cells ∧
    (State.endGroup s p step).hb.doms = s.hb.doms ∧
    (State.endGroup s p step).power = s.power ∧
    (State.endGroup s p step).cfg = s.cfg ∧
    (State.endGroup s p step).tim = s.tim ∧
    (State.endGroup s p step).pnl = s.pnl ∧
    (State.endGroup s p step).mbx = s.mbx ∧
    (State.endGroup s p step).hb.bothFailed = s.hb.bothFailed ∧
    (State.endGroup s p step).pending = s.pending ∧
    (State.endGroup s p step).now = s.now ∧
    (State.endGroup s p step).tiu = s.tiu ∧
    (State.endGroup s p step).sht = s.sht ∧
    (State.endGroup s p step).acq = s.acq ∧
    (State.endGroup s p step).phs = s.phs ∧
    (State.endGroup s p step).dts = s.dts ∧
    (State.endGroup s p step).sup = s.sup ∧
    (State.endGroup s p step).permits = s.permits ∧
    (State.endGroup s p step).plk = s.plk ∧
    (State.endGroup s p step).lanes = s.lanes ∧
    (State.endGroup s p step).mgmt = s.mgmt ∧
    (State.endGroup s p step).trigLevel = s.trigLevel ∧
    (State.endGroup s p step).opt = s.opt := by
  simp only [State.endGroup]
  (repeat' split) <;> simp

@[simp] theorem State.evtEnd_keeps (s : State) (p : Port) (step : Nat) (group : U48) (k n : Nat) (j : Int) (time : U64) (e : Option Nat) :
    (State.evtEnd s p step group k n j time e).permits.asserted = s.permits.asserted ∧
    (State.evtEnd s p step group k n j time e).opt.ports = s.opt.ports ∧
    (State.evtEnd s p step group k n j time e).flash.cells = s.flash.cells ∧
    (State.evtEnd s p step group k n j time e).mem.cells = s.mem.cells ∧
    (State.evtEnd s p step group k n j time e).hb.doms = s.hb.doms ∧
    (State.evtEnd s p step group k n j time e).power = s.power ∧
    (State.evtEnd s p step group k n j time e).cfg = s.cfg ∧
    (State.evtEnd s p step group k n j time e).tim = s.tim ∧
    (State.evtEnd s p step group k n j time e).pnl = s.pnl ∧
    (State.evtEnd s p step group k n j time e).mbx = s.mbx ∧
    (State.evtEnd s p step group k n j time e).hb.bothFailed = s.hb.bothFailed ∧
    (State.evtEnd s p step group k n j time e).pending = s.pending ∧
    (State.evtEnd s p step group k n j time e).now = s.now ∧
    (State.evtEnd s p step group k n j time e).tiu = s.tiu ∧
    (State.evtEnd s p step group k n j time e).sht = s.sht ∧
    (State.evtEnd s p step group k n j time e).acq = s.acq ∧
    (State.evtEnd s p step group k n j time e).phs = s.phs ∧
    (State.evtEnd s p step group k n j time e).dts = s.dts ∧
    (State.evtEnd s p step group k n j time e).sup = s.sup ∧
    (State.evtEnd s p step group k n j time e).permits = s.permits ∧
    (State.evtEnd s p step group k n j time e).plk = s.plk ∧
    (State.evtEnd s p step group k n j time e).lanes = s.lanes ∧
    (State.evtEnd s p step group k n j time e).mgmt = s.mgmt ∧
    (State.evtEnd s p step group k n j time e).trigLevel = s.trigLevel ∧
    (State.evtEnd s p step group k n j time e).opt = s.opt := by
  simp [State.evtEnd]

@[simp] theorem State.evtStart_keeps (s : State) (recovered : Bool) :
    (State.evtStart s recovered).permits.asserted = s.permits.asserted ∧
    (State.evtStart s recovered).opt.ports = s.opt.ports ∧
    (State.evtStart s recovered).flash.cells = s.flash.cells ∧
    (State.evtStart s recovered).mem.cells = s.mem.cells ∧
    (State.evtStart s recovered).hb.doms = s.hb.doms ∧
    (State.evtStart s recovered).power = s.power ∧
    (State.evtStart s recovered).cfg = s.cfg ∧
    (State.evtStart s recovered).tim = s.tim ∧
    (State.evtStart s recovered).pnl = s.pnl ∧
    (State.evtStart s recovered).mbx = s.mbx ∧
    (State.evtStart s recovered).hb.bothFailed = s.hb.bothFailed ∧
    (State.evtStart s recovered).pending = s.pending ∧
    (State.evtStart s recovered).now = s.now ∧
    (State.evtStart s recovered).tiu = s.tiu ∧
    (State.evtStart s recovered).sht = s.sht ∧
    (State.evtStart s recovered).acq = s.acq ∧
    (State.evtStart s recovered).phs = s.phs ∧
    (State.evtStart s recovered).alarms = s.alarms ∧
    (State.evtStart s recovered).dts = s.dts ∧
    (State.evtStart s recovered).sup = s.sup ∧
    (State.evtStart s recovered).permits = s.permits ∧
    (State.evtStart s recovered).als = s.als ∧
    (State.evtStart s recovered).plk = s.plk ∧
    (State.evtStart s recovered).lanes = s.lanes ∧
    (State.evtStart s recovered).mgmt = s.mgmt ∧
    (State.evtStart s recovered).trigLevel = s.trigLevel ∧
    (State.evtStart s recovered).opt = s.opt := by
  simp [State.evtStart]

@[simp] theorem State.openRaman_keeps (s : State) (p : Port) (tag : ShotTag) :
    (State.openRaman s p tag).permits.asserted = s.permits.asserted ∧
    (State.openRaman s p tag).opt.ports = s.opt.ports ∧
    (State.openRaman s p tag).flash.cells = s.flash.cells ∧
    (State.openRaman s p tag).mem.cells = s.mem.cells ∧
    (State.openRaman s p tag).hb.doms = s.hb.doms ∧
    (State.openRaman s p tag).power = s.power ∧
    (State.openRaman s p tag).cfg = s.cfg ∧
    (State.openRaman s p tag).tim = s.tim ∧
    (State.openRaman s p tag).pnl = s.pnl ∧
    (State.openRaman s p tag).mbx = s.mbx ∧
    (State.openRaman s p tag).hb.bothFailed = s.hb.bothFailed ∧
    (State.openRaman s p tag).pending = s.pending ∧
    (State.openRaman s p tag).now = s.now ∧
    (State.openRaman s p tag).tiu = s.tiu ∧
    (State.openRaman s p tag).phs = s.phs ∧
    (State.openRaman s p tag).evt = s.evt ∧
    (State.openRaman s p tag).alarms = s.alarms ∧
    (State.openRaman s p tag).sup = s.sup ∧
    (State.openRaman s p tag).permits = s.permits ∧
    (State.openRaman s p tag).als = s.als ∧
    (State.openRaman s p tag).plk = s.plk ∧
    (State.openRaman s p tag).lanes = s.lanes ∧
    (State.openRaman s p tag).mgmt = s.mgmt ∧
    (State.openRaman s p tag).trigLevel = s.trigLevel ∧
    (State.openRaman s p tag).opt = s.opt := by
  simp [State.openRaman]

@[simp] theorem State.dtsBegin_keeps (s : State) (p : Port) (tag : ShotTag) :
    (State.dtsBegin s p tag).permits.asserted = s.permits.asserted ∧
    (State.dtsBegin s p tag).opt.ports = s.opt.ports ∧
    (State.dtsBegin s p tag).flash.cells = s.flash.cells ∧
    (State.dtsBegin s p tag).mem.cells = s.mem.cells ∧
    (State.dtsBegin s p tag).hb.doms = s.hb.doms ∧
    (State.dtsBegin s p tag).power = s.power ∧
    (State.dtsBegin s p tag).cfg = s.cfg ∧
    (State.dtsBegin s p tag).tim = s.tim ∧
    (State.dtsBegin s p tag).pnl = s.pnl ∧
    (State.dtsBegin s p tag).mbx = s.mbx ∧
    (State.dtsBegin s p tag).hb.bothFailed = s.hb.bothFailed ∧
    (State.dtsBegin s p tag).pending = s.pending ∧
    (State.dtsBegin s p tag).now = s.now ∧
    (State.dtsBegin s p tag).tiu = s.tiu ∧
    (State.dtsBegin s p tag).sht = s.sht ∧
    (State.dtsBegin s p tag).acq = s.acq ∧
    (State.dtsBegin s p tag).phs = s.phs ∧
    (State.dtsBegin s p tag).evt = s.evt ∧
    (State.dtsBegin s p tag).alarms = s.alarms ∧
    (State.dtsBegin s p tag).sup = s.sup ∧
    (State.dtsBegin s p tag).permits = s.permits ∧
    (State.dtsBegin s p tag).als = s.als ∧
    (State.dtsBegin s p tag).plk = s.plk ∧
    (State.dtsBegin s p tag).lanes = s.lanes ∧
    (State.dtsBegin s p tag).mgmt = s.mgmt ∧
    (State.dtsBegin s p tag).trigLevel = s.trigLevel ∧
    (State.dtsBegin s p tag).opt = s.opt := by
  simp [State.dtsBegin]

@[simp] theorem State.noteLaunch_keeps (s : State) (p : Port) (dur125 : Nat) :
    (State.noteLaunch s p dur125).permits.asserted = s.permits.asserted ∧
    (State.noteLaunch s p dur125).opt.ports = s.opt.ports ∧
    (State.noteLaunch s p dur125).flash.cells = s.flash.cells ∧
    (State.noteLaunch s p dur125).mem.cells = s.mem.cells ∧
    (State.noteLaunch s p dur125).hb.doms = s.hb.doms ∧
    (State.noteLaunch s p dur125).power = s.power ∧
    (State.noteLaunch s p dur125).cfg = s.cfg ∧
    (State.noteLaunch s p dur125).tim = s.tim ∧
    (State.noteLaunch s p dur125).pnl = s.pnl ∧
    (State.noteLaunch s p dur125).mbx = s.mbx ∧
    (State.noteLaunch s p dur125).hb.bothFailed = s.hb.bothFailed ∧
    (State.noteLaunch s p dur125).pending = s.pending ∧
    (State.noteLaunch s p dur125).now = s.now ∧
    (State.noteLaunch s p dur125).tiu = s.tiu ∧
    (State.noteLaunch s p dur125).sht = s.sht ∧
    (State.noteLaunch s p dur125).acq = s.acq ∧
    (State.noteLaunch s p dur125).phs = s.phs ∧
    (State.noteLaunch s p dur125).evt = s.evt ∧
    (State.noteLaunch s p dur125).alarms = s.alarms ∧
    (State.noteLaunch s p dur125).sup = s.sup ∧
    (State.noteLaunch s p dur125).permits = s.permits ∧
    (State.noteLaunch s p dur125).als = s.als ∧
    (State.noteLaunch s p dur125).plk = s.plk ∧
    (State.noteLaunch s p dur125).lanes = s.lanes ∧
    (State.noteLaunch s p dur125).mgmt = s.mgmt ∧
    (State.noteLaunch s p dur125).trigLevel = s.trigLevel ∧
    (State.noteLaunch s p dur125).opt = s.opt := by
  simp [State.noteLaunch]

@[simp] theorem State.noteEnergy_keeps (s : State) (p : Port) (openedAt energy : Nat) :
    (State.noteEnergy s p openedAt energy).permits.asserted = s.permits.asserted ∧
    (State.noteEnergy s p openedAt energy).opt.ports = s.opt.ports ∧
    (State.noteEnergy s p openedAt energy).flash.cells = s.flash.cells ∧
    (State.noteEnergy s p openedAt energy).mem.cells = s.mem.cells ∧
    (State.noteEnergy s p openedAt energy).hb.doms = s.hb.doms ∧
    (State.noteEnergy s p openedAt energy).power = s.power ∧
    (State.noteEnergy s p openedAt energy).cfg = s.cfg ∧
    (State.noteEnergy s p openedAt energy).tim = s.tim ∧
    (State.noteEnergy s p openedAt energy).pnl = s.pnl ∧
    (State.noteEnergy s p openedAt energy).mbx = s.mbx ∧
    (State.noteEnergy s p openedAt energy).hb.bothFailed = s.hb.bothFailed ∧
    (State.noteEnergy s p openedAt energy).pending = s.pending ∧
    (State.noteEnergy s p openedAt energy).now = s.now ∧
    (State.noteEnergy s p openedAt energy).tiu = s.tiu ∧
    (State.noteEnergy s p openedAt energy).sht = s.sht ∧
    (State.noteEnergy s p openedAt energy).acq = s.acq ∧
    (State.noteEnergy s p openedAt energy).phs = s.phs ∧
    (State.noteEnergy s p openedAt energy).evt = s.evt ∧
    (State.noteEnergy s p openedAt energy).alarms = s.alarms ∧
    (State.noteEnergy s p openedAt energy).sup = s.sup ∧
    (State.noteEnergy s p openedAt energy).permits = s.permits ∧
    (State.noteEnergy s p openedAt energy).als = s.als ∧
    (State.noteEnergy s p openedAt energy).plk = s.plk ∧
    (State.noteEnergy s p openedAt energy).lanes = s.lanes ∧
    (State.noteEnergy s p openedAt energy).mgmt = s.mgmt ∧
    (State.noteEnergy s p openedAt energy).trigLevel = s.trigLevel ∧
    (State.noteEnergy s p openedAt energy).opt = s.opt := by
  simp [State.noteEnergy]

@[simp] theorem State.goodReading_keeps (s : State) (p : Port) (k : Source) (v : Int) :
    (State.goodReading s p k v).permits.asserted = s.permits.asserted ∧
    (State.goodReading s p k v).opt.ports = s.opt.ports ∧
    (State.goodReading s p k v).flash.cells = s.flash.cells ∧
    (State.goodReading s p k v).mem.cells = s.mem.cells ∧
    (State.goodReading s p k v).hb.doms = s.hb.doms ∧
    (State.goodReading s p k v).power = s.power ∧
    (State.goodReading s p k v).cfg = s.cfg ∧
    (State.goodReading s p k v).tim = s.tim ∧
    (State.goodReading s p k v).pnl = s.pnl ∧
    (State.goodReading s p k v).mbx = s.mbx ∧
    (State.goodReading s p k v).hb.bothFailed = s.hb.bothFailed ∧
    (State.goodReading s p k v).pending = s.pending ∧
    (State.goodReading s p k v).now = s.now ∧
    (State.goodReading s p k v).tiu = s.tiu ∧
    (State.goodReading s p k v).sht = s.sht ∧
    (State.goodReading s p k v).acq = s.acq ∧
    (State.goodReading s p k v).phs = s.phs ∧
    (State.goodReading s p k v).evt = s.evt ∧
    (State.goodReading s p k v).alarms = s.alarms ∧
    (State.goodReading s p k v).sup = s.sup ∧
    (State.goodReading s p k v).permits = s.permits ∧
    (State.goodReading s p k v).als = s.als ∧
    (State.goodReading s p k v).plk = s.plk ∧
    (State.goodReading s p k v).lanes = s.lanes ∧
    (State.goodReading s p k v).mgmt = s.mgmt ∧
    (State.goodReading s p k v).trigLevel = s.trigLevel ∧
    (State.goodReading s p k v).opt = s.opt := by
  simp [State.goodReading]

@[simp] theorem State.loseOne_keeps (s : State) (p : Port) (k : Source) :
    (State.loseOne s p k).permits.asserted = s.permits.asserted ∧
    (State.loseOne s p k).opt.ports = s.opt.ports ∧
    (State.loseOne s p k).flash.cells = s.flash.cells ∧
    (State.loseOne s p k).mem.cells = s.mem.cells ∧
    (State.loseOne s p k).hb.doms = s.hb.doms ∧
    (State.loseOne s p k).power = s.power ∧
    (State.loseOne s p k).cfg = s.cfg ∧
    (State.loseOne s p k).tim = s.tim ∧
    (State.loseOne s p k).pnl = s.pnl ∧
    (State.loseOne s p k).mbx = s.mbx ∧
    (State.loseOne s p k).hb.bothFailed = s.hb.bothFailed ∧
    (State.loseOne s p k).pending = s.pending ∧
    (State.loseOne s p k).now = s.now ∧
    (State.loseOne s p k).tiu = s.tiu ∧
    (State.loseOne s p k).sht = s.sht ∧
    (State.loseOne s p k).acq = s.acq ∧
    (State.loseOne s p k).phs = s.phs ∧
    (State.loseOne s p k).evt = s.evt ∧
    (State.loseOne s p k).alarms = s.alarms ∧
    (State.loseOne s p k).sup = s.sup ∧
    (State.loseOne s p k).permits = s.permits ∧
    (State.loseOne s p k).als = s.als ∧
    (State.loseOne s p k).plk = s.plk ∧
    (State.loseOne s p k).lanes = s.lanes ∧
    (State.loseOne s p k).mgmt = s.mgmt ∧
    (State.loseOne s p k).trigLevel = s.trigLevel ∧
    (State.loseOne s p k).opt = s.opt := by
  simp [State.loseOne]

@[simp] theorem State.loseReading_keeps (s : State) (p : Port) (k : Source) :
    (State.loseReading s p k).permits.asserted = s.permits.asserted ∧
    (State.loseReading s p k).opt.ports = s.opt.ports ∧
    (State.loseReading s p k).flash.cells = s.flash.cells ∧
    (State.loseReading s p k).mem.cells = s.mem.cells ∧
    (State.loseReading s p k).hb.doms = s.hb.doms ∧
    (State.loseReading s p k).power = s.power ∧
    (State.loseReading s p k).cfg = s.cfg ∧
    (State.loseReading s p k).tim = s.tim ∧
    (State.loseReading s p k).pnl = s.pnl ∧
    (State.loseReading s p k).mbx = s.mbx ∧
    (State.loseReading s p k).hb.bothFailed = s.hb.bothFailed ∧
    (State.loseReading s p k).pending = s.pending ∧
    (State.loseReading s p k).now = s.now ∧
    (State.loseReading s p k).tiu = s.tiu ∧
    (State.loseReading s p k).sht = s.sht ∧
    (State.loseReading s p k).acq = s.acq ∧
    (State.loseReading s p k).phs = s.phs ∧
    (State.loseReading s p k).evt = s.evt ∧
    (State.loseReading s p k).alarms = s.alarms ∧
    (State.loseReading s p k).sup = s.sup ∧
    (State.loseReading s p k).permits = s.permits ∧
    (State.loseReading s p k).als = s.als ∧
    (State.loseReading s p k).plk = s.plk ∧
    (State.loseReading s p k).lanes = s.lanes ∧
    (State.loseReading s p k).mgmt = s.mgmt ∧
    (State.loseReading s p k).trigLevel = s.trigLevel ∧
    (State.loseReading s p k).opt = s.opt := by
  unfold State.loseReading
  (repeat' split) <;> simp

@[simp] theorem State.loseAll_keeps (s : State) :
    (State.loseAll s).permits.asserted = s.permits.asserted ∧
    (State.loseAll s).opt.ports = s.opt.ports ∧
    (State.loseAll s).flash.cells = s.flash.cells ∧
    (State.loseAll s).mem.cells = s.mem.cells ∧
    (State.loseAll s).hb.doms = s.hb.doms ∧
    (State.loseAll s).power = s.power ∧
    (State.loseAll s).cfg = s.cfg ∧
    (State.loseAll s).tim = s.tim ∧
    (State.loseAll s).pnl = s.pnl ∧
    (State.loseAll s).mbx = s.mbx ∧
    (State.loseAll s).hb.bothFailed = s.hb.bothFailed ∧
    (State.loseAll s).pending = s.pending ∧
    (State.loseAll s).now = s.now ∧
    (State.loseAll s).tiu = s.tiu ∧
    (State.loseAll s).sht = s.sht ∧
    (State.loseAll s).acq = s.acq ∧
    (State.loseAll s).phs = s.phs ∧
    (State.loseAll s).evt = s.evt ∧
    (State.loseAll s).alarms = s.alarms ∧
    (State.loseAll s).sup = s.sup ∧
    (State.loseAll s).permits = s.permits ∧
    (State.loseAll s).als = s.als ∧
    (State.loseAll s).plk = s.plk ∧
    (State.loseAll s).lanes = s.lanes ∧
    (State.loseAll s).mgmt = s.mgmt ∧
    (State.loseAll s).trigLevel = s.trigLevel ∧
    (State.loseAll s).opt = s.opt := by
  simp [State.loseAll]

@[simp] theorem State.dtsStart_keeps (s : State) (p : Port) (recovered : Bool) :
    (State.dtsStart s p recovered).permits.asserted = s.permits.asserted ∧
    (State.dtsStart s p recovered).opt.ports = s.opt.ports ∧
    (State.dtsStart s p recovered).flash.cells = s.flash.cells ∧
    (State.dtsStart s p recovered).mem.cells = s.mem.cells ∧
    (State.dtsStart s p recovered).hb.doms = s.hb.doms ∧
    (State.dtsStart s p recovered).power = s.power ∧
    (State.dtsStart s p recovered).cfg = s.cfg ∧
    (State.dtsStart s p recovered).tim = s.tim ∧
    (State.dtsStart s p recovered).pnl = s.pnl ∧
    (State.dtsStart s p recovered).mbx = s.mbx ∧
    (State.dtsStart s p recovered).hb.bothFailed = s.hb.bothFailed ∧
    (State.dtsStart s p recovered).pending = s.pending ∧
    (State.dtsStart s p recovered).now = s.now ∧
    (State.dtsStart s p recovered).tiu = s.tiu ∧
    (State.dtsStart s p recovered).sht = s.sht ∧
    (State.dtsStart s p recovered).acq = s.acq ∧
    (State.dtsStart s p recovered).phs = s.phs ∧
    (State.dtsStart s p recovered).evt = s.evt ∧
    (State.dtsStart s p recovered).alarms = s.alarms ∧
    (State.dtsStart s p recovered).sup = s.sup ∧
    (State.dtsStart s p recovered).permits = s.permits ∧
    (State.dtsStart s p recovered).als = s.als ∧
    (State.dtsStart s p recovered).plk = s.plk ∧
    (State.dtsStart s p recovered).lanes = s.lanes ∧
    (State.dtsStart s p recovered).mgmt = s.mgmt ∧
    (State.dtsStart s p recovered).trigLevel = s.trigLevel ∧
    (State.dtsStart s p recovered).opt = s.opt := by
  simp [State.dtsStart]

@[simp] theorem State.ramanFence_keeps (s : State) (p : Port) :
    (State.ramanFence s p).permits.asserted = s.permits.asserted ∧
    (State.ramanFence s p).opt.ports = s.opt.ports ∧
    (State.ramanFence s p).flash.cells = s.flash.cells ∧
    (State.ramanFence s p).mem.cells = s.mem.cells ∧
    (State.ramanFence s p).hb.doms = s.hb.doms ∧
    (State.ramanFence s p).power = s.power ∧
    (State.ramanFence s p).cfg = s.cfg ∧
    (State.ramanFence s p).tim = s.tim ∧
    (State.ramanFence s p).pnl = s.pnl ∧
    (State.ramanFence s p).mbx = s.mbx ∧
    (State.ramanFence s p).hb.bothFailed = s.hb.bothFailed ∧
    (State.ramanFence s p).pending = s.pending ∧
    (State.ramanFence s p).now = s.now ∧
    (State.ramanFence s p).tiu = s.tiu ∧
    (State.ramanFence s p).phs = s.phs ∧
    (State.ramanFence s p).evt = s.evt ∧
    (State.ramanFence s p).alarms = s.alarms ∧
    (State.ramanFence s p).sup = s.sup ∧
    (State.ramanFence s p).permits = s.permits ∧
    (State.ramanFence s p).als = s.als ∧
    (State.ramanFence s p).plk = s.plk ∧
    (State.ramanFence s p).lanes = s.lanes ∧
    (State.ramanFence s p).mgmt = s.mgmt ∧
    (State.ramanFence s p).trigLevel = s.trigLevel ∧
    (State.ramanFence s p).opt = s.opt := by
  simp [State.ramanFence]

@[simp] theorem State.emitPhase_keeps (s : State) (p : Port) (coarse : Bool) (o : Int) (x : DecSample) (flags : Nat) (vals prev : List Int) (codes : List Nat) :
    (State.emitPhase s p coarse o x flags vals prev codes).permits.asserted = s.permits.asserted ∧
    (State.emitPhase s p coarse o x flags vals prev codes).opt.ports = s.opt.ports ∧
    (State.emitPhase s p coarse o x flags vals prev codes).flash.cells = s.flash.cells ∧
    (State.emitPhase s p coarse o x flags vals prev codes).mem.cells = s.mem.cells ∧
    (State.emitPhase s p coarse o x flags vals prev codes).hb.doms = s.hb.doms ∧
    (State.emitPhase s p coarse o x flags vals prev codes).power = s.power ∧
    (State.emitPhase s p coarse o x flags vals prev codes).cfg = s.cfg ∧
    (State.emitPhase s p coarse o x flags vals prev codes).tim = s.tim ∧
    (State.emitPhase s p coarse o x flags vals prev codes).pnl = s.pnl ∧
    (State.emitPhase s p coarse o x flags vals prev codes).mbx = s.mbx ∧
    (State.emitPhase s p coarse o x flags vals prev codes).hb.bothFailed = s.hb.bothFailed ∧
    (State.emitPhase s p coarse o x flags vals prev codes).pending = s.pending ∧
    (State.emitPhase s p coarse o x flags vals prev codes).now = s.now ∧
    (State.emitPhase s p coarse o x flags vals prev codes).tiu = s.tiu ∧
    (State.emitPhase s p coarse o x flags vals prev codes).sht = s.sht ∧
    (State.emitPhase s p coarse o x flags vals prev codes).acq = s.acq ∧
    (State.emitPhase s p coarse o x flags vals prev codes).evt = s.evt ∧
    (State.emitPhase s p coarse o x flags vals prev codes).alarms = s.alarms ∧
    (State.emitPhase s p coarse o x flags vals prev codes).dts = s.dts ∧
    (State.emitPhase s p coarse o x flags vals prev codes).sup = s.sup ∧
    (State.emitPhase s p coarse o x flags vals prev codes).permits = s.permits ∧
    (State.emitPhase s p coarse o x flags vals prev codes).als = s.als ∧
    (State.emitPhase s p coarse o x flags vals prev codes).plk = s.plk ∧
    (State.emitPhase s p coarse o x flags vals prev codes).lanes = s.lanes ∧
    (State.emitPhase s p coarse o x flags vals prev codes).mgmt = s.mgmt ∧
    (State.emitPhase s p coarse o x flags vals prev codes).trigLevel = s.trigLevel ∧
    (State.emitPhase s p coarse o x flags vals prev codes).opt = s.opt := by
  simp [State.emitPhase]

@[simp] theorem State.fullPath_keeps (s : State) (p : Port) :
    (State.fullPath s p).permits.asserted = s.permits.asserted ∧
    (State.fullPath s p).opt.ports = s.opt.ports ∧
    (State.fullPath s p).flash.cells = s.flash.cells ∧
    (State.fullPath s p).mem.cells = s.mem.cells ∧
    (State.fullPath s p).hb.doms = s.hb.doms ∧
    (State.fullPath s p).power = s.power ∧
    (State.fullPath s p).cfg = s.cfg ∧
    (State.fullPath s p).tim = s.tim ∧
    (State.fullPath s p).pnl = s.pnl ∧
    (State.fullPath s p).mbx = s.mbx ∧
    (State.fullPath s p).hb.bothFailed = s.hb.bothFailed ∧
    (State.fullPath s p).pending = s.pending ∧
    (State.fullPath s p).now = s.now ∧
    (State.fullPath s p).tiu = s.tiu ∧
    (State.fullPath s p).sht = s.sht ∧
    (State.fullPath s p).acq = s.acq ∧
    (State.fullPath s p).evt = s.evt ∧
    (State.fullPath s p).alarms = s.alarms ∧
    (State.fullPath s p).dts = s.dts ∧
    (State.fullPath s p).permits = s.permits ∧
    (State.fullPath s p).als = s.als ∧
    (State.fullPath s p).plk = s.plk ∧
    (State.fullPath s p).lanes = s.lanes ∧
    (State.fullPath s p).mgmt = s.mgmt ∧
    (State.fullPath s p).trigLevel = s.trigLevel ∧
    (State.fullPath s p).opt = s.opt := by
  simp only [State.fullPath]
  (repeat' split) <;> simp

@[simp] theorem State.emitAmplitude_keeps (s : State) (p : Port) (coarse : Bool) (m h flags : Nat) :
    (State.emitAmplitude s p coarse m h flags).permits.asserted = s.permits.asserted ∧
    (State.emitAmplitude s p coarse m h flags).opt.ports = s.opt.ports ∧
    (State.emitAmplitude s p coarse m h flags).flash.cells = s.flash.cells ∧
    (State.emitAmplitude s p coarse m h flags).mem.cells = s.mem.cells ∧
    (State.emitAmplitude s p coarse m h flags).hb.doms = s.hb.doms ∧
    (State.emitAmplitude s p coarse m h flags).power = s.power ∧
    (State.emitAmplitude s p coarse m h flags).cfg = s.cfg ∧
    (State.emitAmplitude s p coarse m h flags).tim = s.tim ∧
    (State.emitAmplitude s p coarse m h flags).pnl = s.pnl ∧
    (State.emitAmplitude s p coarse m h flags).mbx = s.mbx ∧
    (State.emitAmplitude s p coarse m h flags).hb.bothFailed = s.hb.bothFailed ∧
    (State.emitAmplitude s p coarse m h flags).pending = s.pending ∧
    (State.emitAmplitude s p coarse m h flags).now = s.now ∧
    (State.emitAmplitude s p coarse m h flags).tiu = s.tiu ∧
    (State.emitAmplitude s p coarse m h flags).sht = s.sht ∧
    (State.emitAmplitude s p coarse m h flags).acq = s.acq ∧
    (State.emitAmplitude s p coarse m h flags).phs = s.phs ∧
    (State.emitAmplitude s p coarse m h flags).evt = s.evt ∧
    (State.emitAmplitude s p coarse m h flags).alarms = s.alarms ∧
    (State.emitAmplitude s p coarse m h flags).dts = s.dts ∧
    (State.emitAmplitude s p coarse m h flags).sup = s.sup ∧
    (State.emitAmplitude s p coarse m h flags).permits = s.permits ∧
    (State.emitAmplitude s p coarse m h flags).als = s.als ∧
    (State.emitAmplitude s p coarse m h flags).plk = s.plk ∧
    (State.emitAmplitude s p coarse m h flags).lanes = s.lanes ∧
    (State.emitAmplitude s p coarse m h flags).mgmt = s.mgmt ∧
    (State.emitAmplitude s p coarse m h flags).trigLevel = s.trigLevel ∧
    (State.emitAmplitude s p coarse m h flags).opt = s.opt := by
  simp only [State.emitAmplitude]
  (repeat' split) <;> simp

@[simp] theorem State.fullAmplitude_keeps (s : State) (p : Port) :
    (State.fullAmplitude s p).permits.asserted = s.permits.asserted ∧
    (State.fullAmplitude s p).opt.ports = s.opt.ports ∧
    (State.fullAmplitude s p).flash.cells = s.flash.cells ∧
    (State.fullAmplitude s p).mem.cells = s.mem.cells ∧
    (State.fullAmplitude s p).hb.doms = s.hb.doms ∧
    (State.fullAmplitude s p).power = s.power ∧
    (State.fullAmplitude s p).cfg = s.cfg ∧
    (State.fullAmplitude s p).tim = s.tim ∧
    (State.fullAmplitude s p).pnl = s.pnl ∧
    (State.fullAmplitude s p).mbx = s.mbx ∧
    (State.fullAmplitude s p).hb.bothFailed = s.hb.bothFailed ∧
    (State.fullAmplitude s p).pending = s.pending ∧
    (State.fullAmplitude s p).now = s.now ∧
    (State.fullAmplitude s p).tiu = s.tiu ∧
    (State.fullAmplitude s p).sht = s.sht ∧
    (State.fullAmplitude s p).acq = s.acq ∧
    (State.fullAmplitude s p).phs = s.phs ∧
    (State.fullAmplitude s p).evt = s.evt ∧
    (State.fullAmplitude s p).alarms = s.alarms ∧
    (State.fullAmplitude s p).dts = s.dts ∧
    (State.fullAmplitude s p).sup = s.sup ∧
    (State.fullAmplitude s p).permits = s.permits ∧
    (State.fullAmplitude s p).als = s.als ∧
    (State.fullAmplitude s p).plk = s.plk ∧
    (State.fullAmplitude s p).lanes = s.lanes ∧
    (State.fullAmplitude s p).mgmt = s.mgmt ∧
    (State.fullAmplitude s p).trigLevel = s.trigLevel ∧
    (State.fullAmplitude s p).opt = s.opt := by
  simp only [State.fullAmplitude]
  (repeat' split) <;> simp

@[simp] theorem State.coarsePath_keeps (s : State) (p : Port) :
    (State.coarsePath s p).permits.asserted = s.permits.asserted ∧
    (State.coarsePath s p).opt.ports = s.opt.ports ∧
    (State.coarsePath s p).flash.cells = s.flash.cells ∧
    (State.coarsePath s p).mem.cells = s.mem.cells ∧
    (State.coarsePath s p).hb.doms = s.hb.doms ∧
    (State.coarsePath s p).power = s.power ∧
    (State.coarsePath s p).cfg = s.cfg ∧
    (State.coarsePath s p).tim = s.tim ∧
    (State.coarsePath s p).pnl = s.pnl ∧
    (State.coarsePath s p).mbx = s.mbx ∧
    (State.coarsePath s p).hb.bothFailed = s.hb.bothFailed ∧
    (State.coarsePath s p).pending = s.pending ∧
    (State.coarsePath s p).now = s.now ∧
    (State.coarsePath s p).tiu = s.tiu ∧
    (State.coarsePath s p).sht = s.sht ∧
    (State.coarsePath s p).acq = s.acq ∧
    (State.coarsePath s p).evt = s.evt ∧
    (State.coarsePath s p).alarms = s.alarms ∧
    (State.coarsePath s p).dts = s.dts ∧
    (State.coarsePath s p).sup = s.sup ∧
    (State.coarsePath s p).permits = s.permits ∧
    (State.coarsePath s p).als = s.als ∧
    (State.coarsePath s p).plk = s.plk ∧
    (State.coarsePath s p).lanes = s.lanes ∧
    (State.coarsePath s p).mgmt = s.mgmt ∧
    (State.coarsePath s p).trigLevel = s.trigLevel ∧
    (State.coarsePath s p).opt = s.opt := by
  simp only [State.coarsePath]
  (repeat' split) <;> simp

@[simp] theorem State.lfSample_keeps (s : State) (p : Port) (x : DecSample) :
    (State.lfSample s p x).permits.asserted = s.permits.asserted ∧
    (State.lfSample s p x).opt.ports = s.opt.ports ∧
    (State.lfSample s p x).flash.cells = s.flash.cells ∧
    (State.lfSample s p x).mem.cells = s.mem.cells ∧
    (State.lfSample s p x).hb.doms = s.hb.doms ∧
    (State.lfSample s p x).power = s.power ∧
    (State.lfSample s p x).cfg = s.cfg ∧
    (State.lfSample s p x).tim = s.tim ∧
    (State.lfSample s p x).pnl = s.pnl ∧
    (State.lfSample s p x).mbx = s.mbx ∧
    (State.lfSample s p x).hb.bothFailed = s.hb.bothFailed ∧
    (State.lfSample s p x).pending = s.pending ∧
    (State.lfSample s p x).now = s.now ∧
    (State.lfSample s p x).tiu = s.tiu ∧
    (State.lfSample s p x).sht = s.sht ∧
    (State.lfSample s p x).acq = s.acq ∧
    (State.lfSample s p x).phs = s.phs ∧
    (State.lfSample s p x).evt = s.evt ∧
    (State.lfSample s p x).alarms = s.alarms ∧
    (State.lfSample s p x).sup = s.sup ∧
    (State.lfSample s p x).permits = s.permits ∧
    (State.lfSample s p x).als = s.als ∧
    (State.lfSample s p x).plk = s.plk ∧
    (State.lfSample s p x).lanes = s.lanes ∧
    (State.lfSample s p x).mgmt = s.mgmt ∧
    (State.lfSample s p x).trigLevel = s.trigLevel ∧
    (State.lfSample s p x).opt = s.opt := by
  unfold State.lfSample
  (repeat' split) <;> simp

@[simp] theorem State.decReset_keeps (s : State) (p : Port) :
    (State.decReset s p).permits.asserted = s.permits.asserted ∧
    (State.decReset s p).opt.ports = s.opt.ports ∧
    (State.decReset s p).flash.cells = s.flash.cells ∧
    (State.decReset s p).mem.cells = s.mem.cells ∧
    (State.decReset s p).hb.doms = s.hb.doms ∧
    (State.decReset s p).power = s.power ∧
    (State.decReset s p).cfg = s.cfg ∧
    (State.decReset s p).tim = s.tim ∧
    (State.decReset s p).pnl = s.pnl ∧
    (State.decReset s p).mbx = s.mbx ∧
    (State.decReset s p).hb.bothFailed = s.hb.bothFailed ∧
    (State.decReset s p).pending = s.pending ∧
    (State.decReset s p).now = s.now ∧
    (State.decReset s p).tiu = s.tiu ∧
    (State.decReset s p).sht = s.sht ∧
    (State.decReset s p).acq = s.acq ∧
    (State.decReset s p).evt = s.evt ∧
    (State.decReset s p).alarms = s.alarms ∧
    (State.decReset s p).dts = s.dts ∧
    (State.decReset s p).sup = s.sup ∧
    (State.decReset s p).permits = s.permits ∧
    (State.decReset s p).als = s.als ∧
    (State.decReset s p).plk = s.plk ∧
    (State.decReset s p).lanes = s.lanes ∧
    (State.decReset s p).mgmt = s.mgmt ∧
    (State.decReset s p).trigLevel = s.trigLevel ∧
    (State.decReset s p).opt = s.opt := by
  simp [State.decReset]

@[simp] theorem State.decFeed_keeps (s : State) (p : Port) (x : DecSample) :
    (State.decFeed s p x).permits.asserted = s.permits.asserted ∧
    (State.decFeed s p x).opt.ports = s.opt.ports ∧
    (State.decFeed s p x).flash.cells = s.flash.cells ∧
    (State.decFeed s p x).mem.cells = s.mem.cells ∧
    (State.decFeed s p x).hb.doms = s.hb.doms ∧
    (State.decFeed s p x).power = s.power ∧
    (State.decFeed s p x).cfg = s.cfg ∧
    (State.decFeed s p x).tim = s.tim ∧
    (State.decFeed s p x).pnl = s.pnl ∧
    (State.decFeed s p x).mbx = s.mbx ∧
    (State.decFeed s p x).hb.bothFailed = s.hb.bothFailed ∧
    (State.decFeed s p x).pending = s.pending ∧
    (State.decFeed s p x).now = s.now ∧
    (State.decFeed s p x).tiu = s.tiu ∧
    (State.decFeed s p x).sht = s.sht ∧
    (State.decFeed s p x).acq = s.acq ∧
    (State.decFeed s p x).permits = s.permits ∧
    (State.decFeed s p x).als = s.als ∧
    (State.decFeed s p x).plk = s.plk ∧
    (State.decFeed s p x).lanes = s.lanes ∧
    (State.decFeed s p x).mgmt = s.mgmt ∧
    (State.decFeed s p x).trigLevel = s.trigLevel ∧
    (State.decFeed s p x).opt = s.opt := by
  simp [State.decFeed]

@[simp] theorem State.fillOne_keeps (s : State) (p : Port) (e : Expect) :
    (State.fillOne s p e).permits.asserted = s.permits.asserted ∧
    (State.fillOne s p e).opt.ports = s.opt.ports ∧
    (State.fillOne s p e).flash.cells = s.flash.cells ∧
    (State.fillOne s p e).mem.cells = s.mem.cells ∧
    (State.fillOne s p e).hb.doms = s.hb.doms ∧
    (State.fillOne s p e).power = s.power ∧
    (State.fillOne s p e).cfg = s.cfg ∧
    (State.fillOne s p e).tim = s.tim ∧
    (State.fillOne s p e).pnl = s.pnl ∧
    (State.fillOne s p e).mbx = s.mbx ∧
    (State.fillOne s p e).hb.bothFailed = s.hb.bothFailed ∧
    (State.fillOne s p e).pending = s.pending ∧
    (State.fillOne s p e).now = s.now ∧
    (State.fillOne s p e).tiu = s.tiu ∧
    (State.fillOne s p e).sht = s.sht ∧
    (State.fillOne s p e).acq = s.acq ∧
    (State.fillOne s p e).permits = s.permits ∧
    (State.fillOne s p e).plk = s.plk ∧
    (State.fillOne s p e).lanes = s.lanes ∧
    (State.fillOne s p e).mgmt = s.mgmt ∧
    (State.fillOne s p e).trigLevel = s.trigLevel ∧
    (State.fillOne s p e).opt = s.opt := by
  simp [State.fillOne]

@[simp] theorem State.fillGap_keeps (s : State) (p : Port) (e : Expect) :
    (State.fillGap s p e).permits.asserted = s.permits.asserted ∧
    (State.fillGap s p e).opt.ports = s.opt.ports ∧
    (State.fillGap s p e).flash.cells = s.flash.cells ∧
    (State.fillGap s p e).mem.cells = s.mem.cells ∧
    (State.fillGap s p e).hb.doms = s.hb.doms ∧
    (State.fillGap s p e).power = s.power ∧
    (State.fillGap s p e).cfg = s.cfg ∧
    (State.fillGap s p e).tim = s.tim ∧
    (State.fillGap s p e).pnl = s.pnl ∧
    (State.fillGap s p e).mbx = s.mbx ∧
    (State.fillGap s p e).hb.bothFailed = s.hb.bothFailed ∧
    (State.fillGap s p e).pending = s.pending ∧
    (State.fillGap s p e).now = s.now ∧
    (State.fillGap s p e).tiu = s.tiu ∧
    (State.fillGap s p e).sht = s.sht ∧
    (State.fillGap s p e).acq = s.acq ∧
    (State.fillGap s p e).permits = s.permits ∧
    (State.fillGap s p e).plk = s.plk ∧
    (State.fillGap s p e).lanes = s.lanes ∧
    (State.fillGap s p e).mgmt = s.mgmt ∧
    (State.fillGap s p e).trigLevel = s.trigLevel ∧
    (State.fillGap s p e).opt = s.opt := by
  simp [State.fillGap]

@[simp] theorem State.dropStretch_keeps (s : State) (p : Port) :
    (State.dropStretch s p).permits.asserted = s.permits.asserted ∧
    (State.dropStretch s p).opt.ports = s.opt.ports ∧
    (State.dropStretch s p).flash.cells = s.flash.cells ∧
    (State.dropStretch s p).mem.cells = s.mem.cells ∧
    (State.dropStretch s p).hb.doms = s.hb.doms ∧
    (State.dropStretch s p).power = s.power ∧
    (State.dropStretch s p).cfg = s.cfg ∧
    (State.dropStretch s p).tim = s.tim ∧
    (State.dropStretch s p).pnl = s.pnl ∧
    (State.dropStretch s p).mbx = s.mbx ∧
    (State.dropStretch s p).hb.bothFailed = s.hb.bothFailed ∧
    (State.dropStretch s p).pending = s.pending ∧
    (State.dropStretch s p).now = s.now ∧
    (State.dropStretch s p).tiu = s.tiu ∧
    (State.dropStretch s p).sht = s.sht ∧
    (State.dropStretch s p).acq = s.acq ∧
    (State.dropStretch s p).alarms = s.alarms ∧
    (State.dropStretch s p).dts = s.dts ∧
    (State.dropStretch s p).sup = s.sup ∧
    (State.dropStretch s p).permits = s.permits ∧
    (State.dropStretch s p).als = s.als ∧
    (State.dropStretch s p).plk = s.plk ∧
    (State.dropStretch s p).lanes = s.lanes ∧
    (State.dropStretch s p).mgmt = s.mgmt ∧
    (State.dropStretch s p).trigLevel = s.trigLevel ∧
    (State.dropStretch s p).opt = s.opt := by
  simp [State.dropStretch]

theorem State.drainList_keeps (p : Port) (l : List Expect) (s : State) : Keeps (State.drainList p l s) s := by
  induction l generalizing s with
  | nil => exact ⟨rfl, rfl, rfl, rfl, rfl⟩
  | cons e t ih =>
    unfold State.drainList
    split
    · exact ⟨rfl, rfl, rfl, rfl, rfl⟩
    · exact (ih _).trans (by simp [Keeps])

@[simp] theorem State.drainMissing_keeps (s : State) (p : Port) :
    (s.drainMissing p).permits.asserted = s.permits.asserted ∧
    (s.drainMissing p).opt.ports = s.opt.ports ∧
    (s.drainMissing p).flash.cells = s.flash.cells ∧
    (s.drainMissing p).mem.cells = s.mem.cells ∧
    (s.drainMissing p).hb.doms = s.hb.doms := by
  unfold State.drainMissing
  exact keeps_ite (State.drainList_keeps _ _ _) ⟨rfl, rfl, rfl, rfl, rfl⟩

theorem State.drainList_still (p : Port) (l : List Expect) (s : State) : Still (State.drainList p l s) s := by
  induction l generalizing s with
  | nil => exact ⟨rfl, rfl, rfl, rfl, rfl, rfl, rfl, rfl⟩
  | cons e t ih =>
    unfold State.drainList
    split
    · exact ⟨rfl, rfl, rfl, rfl, rfl, rfl, rfl, rfl⟩
    · exact (ih _).trans (by simp [Still])

@[simp] theorem State.drainMissing_still (s : State) (p : Port) :
    (s.drainMissing p).power = s.power ∧
    (s.drainMissing p).cfg = s.cfg ∧
    (s.drainMissing p).tim = s.tim ∧
    (s.drainMissing p).pnl = s.pnl ∧
    (s.drainMissing p).mbx = s.mbx ∧
    (s.drainMissing p).hb.bothFailed = s.hb.bothFailed ∧
    (s.drainMissing p).pending = s.pending ∧
    (s.drainMissing p).now = s.now := by
  unfold State.drainMissing
  exact still_ite (State.drainList_still _ _ _) ⟨rfl, rfl, rfl, rfl, rfl, rfl, rfl, rfl⟩

theorem State.drainList_same (p : Port) (l : List Expect) (s : State) : Same (fun s => (s.tiu, s.sht, s.acq, s.permits, s.plk, s.lanes, s.mgmt, s.trigLevel, s.opt)) (State.drainList p l s) s := by
  induction l generalizing s with
  | nil => exact rfl
  | cons e t ih =>
    unfold State.drainList
    split
    · exact rfl
    · exact (ih _).trans (by simp [Same])

theorem State.drainMissing_same (s : State) (p : Port) :
    Same (fun s => (s.tiu, s.sht, s.acq, s.permits, s.plk, s.lanes, s.mgmt, s.trigLevel, s.opt)) (s.drainMissing p) s := by
  unfold State.drainMissing
  exact same_ite (State.drainList_same _ _ _) rfl

@[simp] theorem State.drainMissing_blocks (s : State) (p : Port) :
    (State.drainMissing s p).tiu = s.tiu ∧
    (State.drainMissing s p).sht = s.sht ∧
    (State.drainMissing s p).acq = s.acq ∧
    (State.drainMissing s p).permits = s.permits ∧
    (State.drainMissing s p).plk = s.plk ∧
    (State.drainMissing s p).lanes = s.lanes ∧
    (State.drainMissing s p).mgmt = s.mgmt ∧
    (State.drainMissing s p).trigLevel = s.trigLevel ∧
    (State.drainMissing s p).opt = s.opt := by
  simpa [Same] using State.drainMissing_same s p

@[simp] theorem State.expectGroup_keeps (s : State) (p : Port) (group : U48) (base : Int) (start : U64) :
    (State.expectGroup s p group base start).permits.asserted = s.permits.asserted ∧
    (State.expectGroup s p group base start).opt.ports = s.opt.ports ∧
    (State.expectGroup s p group base start).flash.cells = s.flash.cells ∧
    (State.expectGroup s p group base start).mem.cells = s.mem.cells ∧
    (State.expectGroup s p group base start).hb.doms = s.hb.doms ∧
    (State.expectGroup s p group base start).power = s.power ∧
    (State.expectGroup s p group base start).cfg = s.cfg ∧
    (State.expectGroup s p group base start).tim = s.tim ∧
    (State.expectGroup s p group base start).pnl = s.pnl ∧
    (State.expectGroup s p group base start).mbx = s.mbx ∧
    (State.expectGroup s p group base start).hb.bothFailed = s.hb.bothFailed ∧
    (State.expectGroup s p group base start).pending = s.pending ∧
    (State.expectGroup s p group base start).now = s.now ∧
    (State.expectGroup s p group base start).tiu = s.tiu ∧
    (State.expectGroup s p group base start).sht = s.sht ∧
    (State.expectGroup s p group base start).acq = s.acq ∧
    (State.expectGroup s p group base start).evt = s.evt ∧
    (State.expectGroup s p group base start).alarms = s.alarms ∧
    (State.expectGroup s p group base start).dts = s.dts ∧
    (State.expectGroup s p group base start).sup = s.sup ∧
    (State.expectGroup s p group base start).permits = s.permits ∧
    (State.expectGroup s p group base start).als = s.als ∧
    (State.expectGroup s p group base start).plk = s.plk ∧
    (State.expectGroup s p group base start).lanes = s.lanes ∧
    (State.expectGroup s p group base start).mgmt = s.mgmt ∧
    (State.expectGroup s p group base start).trigLevel = s.trigLevel ∧
    (State.expectGroup s p group base start).opt = s.opt := by
  simp [State.expectGroup]

@[simp] theorem State.timeExpect_keeps (s : State) (p : Port) (tag : ShotTag) :
    (State.timeExpect s p tag).permits.asserted = s.permits.asserted ∧
    (State.timeExpect s p tag).opt.ports = s.opt.ports ∧
    (State.timeExpect s p tag).flash.cells = s.flash.cells ∧
    (State.timeExpect s p tag).mem.cells = s.mem.cells ∧
    (State.timeExpect s p tag).hb.doms = s.hb.doms ∧
    (State.timeExpect s p tag).power = s.power ∧
    (State.timeExpect s p tag).cfg = s.cfg ∧
    (State.timeExpect s p tag).tim = s.tim ∧
    (State.timeExpect s p tag).pnl = s.pnl ∧
    (State.timeExpect s p tag).mbx = s.mbx ∧
    (State.timeExpect s p tag).hb.bothFailed = s.hb.bothFailed ∧
    (State.timeExpect s p tag).pending = s.pending ∧
    (State.timeExpect s p tag).now = s.now ∧
    (State.timeExpect s p tag).tiu = s.tiu ∧
    (State.timeExpect s p tag).sht = s.sht ∧
    (State.timeExpect s p tag).acq = s.acq ∧
    (State.timeExpect s p tag).evt = s.evt ∧
    (State.timeExpect s p tag).alarms = s.alarms ∧
    (State.timeExpect s p tag).dts = s.dts ∧
    (State.timeExpect s p tag).sup = s.sup ∧
    (State.timeExpect s p tag).permits = s.permits ∧
    (State.timeExpect s p tag).als = s.als ∧
    (State.timeExpect s p tag).plk = s.plk ∧
    (State.timeExpect s p tag).lanes = s.lanes ∧
    (State.timeExpect s p tag).mgmt = s.mgmt ∧
    (State.timeExpect s p tag).trigLevel = s.trigLevel ∧
    (State.timeExpect s p tag).opt = s.opt := by
  simp [State.timeExpect]

@[simp] theorem State.emitDts_keeps (s : State) (p : Port) (typ product w : Nat) (h : DtsHead) (values : List (List Byte))
    (codes : List Nat) :
    (s.emitDts p typ product w h values codes).permits.asserted = s.permits.asserted ∧
    (s.emitDts p typ product w h values codes).opt.ports = s.opt.ports ∧
    (s.emitDts p typ product w h values codes).flash.cells = s.flash.cells ∧
    (s.emitDts p typ product w h values codes).mem.cells = s.mem.cells ∧
    (s.emitDts p typ product w h values codes).hb.doms = s.hb.doms := by
  have h1 : ∀ s : State, Keeps (allRoutes.foldl (fun s r =>
      if s.routeTakes r typ p.val then
        let first := if product = 2 then s.routeFirst r else 0
        let n := if product = 2 then takeCount codes.length first (s.routeCount r) else codes.length
        (s.dtsRecords (s.recordLimit r) p typ product w h first ((values.drop first).take n) ((codes.drop first).take n)).foldl
          (fun s q => s.toRoute r q) s
      else s) s) s :=
    fun s => keeps_foldl _ (fun s r => keeps_ite (keeps_foldl _ (fun _ _ => by simp [Keeps]) _ _) ⟨rfl, rfl, rfl, rfl, rfl⟩) _ _
  unfold State.emitDts
  exact keeps_ite ((keeps_foldl _ (fun _ _ => by simp [Keeps]) _ _).trans (h1 s)) (h1 s)

@[simp] theorem State.emitDts_still (s : State) (p : Port) (typ product w : Nat) (h : DtsHead) (values : List (List Byte))
    (codes : List Nat) :
    (s.emitDts p typ product w h values codes).power = s.power ∧
    (s.emitDts p typ product w h values codes).cfg = s.cfg ∧
    (s.emitDts p typ product w h values codes).tim = s.tim ∧
    (s.emitDts p typ product w h values codes).pnl = s.pnl ∧
    (s.emitDts p typ product w h values codes).mbx = s.mbx ∧
    (s.emitDts p typ product w h values codes).hb.bothFailed = s.hb.bothFailed ∧
    (s.emitDts p typ product w h values codes).pending = s.pending ∧
    (s.emitDts p typ product w h values codes).now = s.now := by
  have h1 : ∀ s : State, Still (allRoutes.foldl (fun s r =>
      if s.routeTakes r typ p.val then
        let first := if product = 2 then s.routeFirst r else 0
        let n := if product = 2 then takeCount codes.length first (s.routeCount r) else codes.length
        (s.dtsRecords (s.recordLimit r) p typ product w h first ((values.drop first).take n) ((codes.drop first).take n)).foldl
          (fun s q => s.toRoute r q) s
      else s) s) s :=
    fun s => still_foldl _ (fun s r => still_ite (still_foldl _ (fun _ _ => by simp [Still]) _ _) ⟨rfl, rfl, rfl, rfl, rfl, rfl, rfl, rfl⟩) _ _
  unfold State.emitDts
  exact still_ite ((still_foldl _ (fun _ _ => by simp [Still]) _ _).trans (h1 s)) (h1 s)

theorem State.emitDts_same (s : State) (p : Port) (typ product w : Nat) (h : DtsHead) (values : List (List Byte))
    (codes : List Nat) :
    Same (fun s => (s.tiu, s.sht, s.acq, s.phs, s.evt, s.alarms, s.dts, s.sup, s.permits, s.als, s.plk, s.lanes, s.mgmt, s.trigLevel, s.opt)) (s.emitDts p typ product w h values codes) s := by
  have h1 : ∀ s : State, Same (fun s => (s.tiu, s.sht, s.acq, s.phs, s.evt, s.alarms, s.dts, s.sup, s.permits, s.als, s.plk, s.lanes, s.mgmt, s.trigLevel, s.opt)) (allRoutes.foldl (fun s r =>
      if s.routeTakes r typ p.val then
        let first := if product = 2 then s.routeFirst r else 0
        let n := if product = 2 then takeCount codes.length first (s.routeCount r) else codes.length
        (s.dtsRecords (s.recordLimit r) p typ product w h first ((values.drop first).take n) ((codes.drop first).take n)).foldl
          (fun s q => s.toRoute r q) s
      else s) s) s :=
    fun s => same_foldl _ (fun s r => same_ite (same_foldl _ (fun _ _ => by simp [Same]) _ _) rfl) _ _
  unfold State.emitDts
  exact same_ite ((same_foldl _ (fun _ _ => by simp [Same]) _ _).trans (h1 s)) (h1 s)

@[simp] theorem State.emitDts_blocks (s : State) (p : Port) (typ product w : Nat) (h : DtsHead) (values : List (List Byte)) (codes : List Nat) :
    (State.emitDts s p typ product w h values codes).tiu = s.tiu ∧
    (State.emitDts s p typ product w h values codes).sht = s.sht ∧
    (State.emitDts s p typ product w h values codes).acq = s.acq ∧
    (State.emitDts s p typ product w h values codes).phs = s.phs ∧
    (State.emitDts s p typ product w h values codes).evt = s.evt ∧
    (State.emitDts s p typ product w h values codes).alarms = s.alarms ∧
    (State.emitDts s p typ product w h values codes).dts = s.dts ∧
    (State.emitDts s p typ product w h values codes).sup = s.sup ∧
    (State.emitDts s p typ product w h values codes).permits = s.permits ∧
    (State.emitDts s p typ product w h values codes).als = s.als ∧
    (State.emitDts s p typ product w h values codes).plk = s.plk ∧
    (State.emitDts s p typ product w h values codes).lanes = s.lanes ∧
    (State.emitDts s p typ product w h values codes).mgmt = s.mgmt ∧
    (State.emitDts s p typ product w h values codes).trigLevel = s.trigLevel ∧
    (State.emitDts s p typ product w h values codes).opt = s.opt := by
  simpa [Same] using State.emitDts_same s p typ product w h values codes

@[simp] theorem State.emitLf_keeps (s : State) (p : Port) (h : DtsHead) (pts : List (Nat × Int)) :
    (State.emitLf s p h pts).permits.asserted = s.permits.asserted ∧
    (State.emitLf s p h pts).opt.ports = s.opt.ports ∧
    (State.emitLf s p h pts).flash.cells = s.flash.cells ∧
    (State.emitLf s p h pts).mem.cells = s.mem.cells ∧
    (State.emitLf s p h pts).hb.doms = s.hb.doms ∧
    (State.emitLf s p h pts).power = s.power ∧
    (State.emitLf s p h pts).cfg = s.cfg ∧
    (State.emitLf s p h pts).tim = s.tim ∧
    (State.emitLf s p h pts).pnl = s.pnl ∧
    (State.emitLf s p h pts).mbx = s.mbx ∧
    (State.emitLf s p h pts).hb.bothFailed = s.hb.bothFailed ∧
    (State.emitLf s p h pts).pending = s.pending ∧
    (State.emitLf s p h pts).now = s.now ∧
    (State.emitLf s p h pts).tiu = s.tiu ∧
    (State.emitLf s p h pts).sht = s.sht ∧
    (State.emitLf s p h pts).acq = s.acq ∧
    (State.emitLf s p h pts).phs = s.phs ∧
    (State.emitLf s p h pts).evt = s.evt ∧
    (State.emitLf s p h pts).alarms = s.alarms ∧
    (State.emitLf s p h pts).sup = s.sup ∧
    (State.emitLf s p h pts).permits = s.permits ∧
    (State.emitLf s p h pts).als = s.als ∧
    (State.emitLf s p h pts).plk = s.plk ∧
    (State.emitLf s p h pts).lanes = s.lanes ∧
    (State.emitLf s p h pts).mgmt = s.mgmt ∧
    (State.emitLf s p h pts).trigLevel = s.trigLevel ∧
    (State.emitLf s p h pts).opt = s.opt := by
  simp [State.emitLf]

@[simp] theorem State.seamExcursion_keeps (s : State) (k : Fin 13) :
    (State.seamExcursion s k).permits.asserted = s.permits.asserted ∧
    (State.seamExcursion s k).opt.ports = s.opt.ports ∧
    (State.seamExcursion s k).flash.cells = s.flash.cells ∧
    (State.seamExcursion s k).mem.cells = s.mem.cells ∧
    (State.seamExcursion s k).hb.doms = s.hb.doms ∧
    (State.seamExcursion s k).power = s.power ∧
    (State.seamExcursion s k).cfg = s.cfg ∧
    (State.seamExcursion s k).tim = s.tim ∧
    (State.seamExcursion s k).pnl = s.pnl ∧
    (State.seamExcursion s k).mbx = s.mbx ∧
    (State.seamExcursion s k).hb.bothFailed = s.hb.bothFailed ∧
    (State.seamExcursion s k).pending = s.pending ∧
    (State.seamExcursion s k).now = s.now ∧
    (State.seamExcursion s k).tiu = s.tiu ∧
    (State.seamExcursion s k).sht = s.sht ∧
    (State.seamExcursion s k).acq = s.acq ∧
    (State.seamExcursion s k).phs = s.phs ∧
    (State.seamExcursion s k).evt = s.evt ∧
    (State.seamExcursion s k).alarms = s.alarms ∧
    (State.seamExcursion s k).dts = s.dts ∧
    (State.seamExcursion s k).sup = s.sup ∧
    (State.seamExcursion s k).permits = s.permits ∧
    (State.seamExcursion s k).als = s.als ∧
    (State.seamExcursion s k).plk = s.plk ∧
    (State.seamExcursion s k).lanes = s.lanes ∧
    (State.seamExcursion s k).mgmt = s.mgmt ∧
    (State.seamExcursion s k).trigLevel = s.trigLevel ∧
    (State.seamExcursion s k).opt = s.opt := by
  simp [State.seamExcursion]

@[simp] theorem State.reportAll_keeps (s : State) (ds : List Domain) (code value : U32) :
    (State.reportAll s ds code value).permits.asserted = s.permits.asserted ∧
    (State.reportAll s ds code value).opt.ports = s.opt.ports ∧
    (State.reportAll s ds code value).flash.cells = s.flash.cells ∧
    (State.reportAll s ds code value).mem.cells = s.mem.cells ∧
    (State.reportAll s ds code value).hb.doms = s.hb.doms ∧
    (State.reportAll s ds code value).power = s.power ∧
    (State.reportAll s ds code value).cfg = s.cfg ∧
    (State.reportAll s ds code value).tim = s.tim ∧
    (State.reportAll s ds code value).pnl = s.pnl ∧
    (State.reportAll s ds code value).mbx = s.mbx ∧
    (State.reportAll s ds code value).hb.bothFailed = s.hb.bothFailed ∧
    (State.reportAll s ds code value).pending = s.pending ∧
    (State.reportAll s ds code value).now = s.now ∧
    (State.reportAll s ds code value).tiu = s.tiu ∧
    (State.reportAll s ds code value).sht = s.sht ∧
    (State.reportAll s ds code value).acq = s.acq ∧
    (State.reportAll s ds code value).phs = s.phs ∧
    (State.reportAll s ds code value).evt = s.evt ∧
    (State.reportAll s ds code value).alarms = s.alarms ∧
    (State.reportAll s ds code value).dts = s.dts ∧
    (State.reportAll s ds code value).sup = s.sup ∧
    (State.reportAll s ds code value).permits = s.permits ∧
    (State.reportAll s ds code value).als = s.als ∧
    (State.reportAll s ds code value).plk = s.plk ∧
    (State.reportAll s ds code value).lanes = s.lanes ∧
    (State.reportAll s ds code value).mgmt = s.mgmt ∧
    (State.reportAll s ds code value).trigLevel = s.trigLevel ∧
    (State.reportAll s ds code value).opt = s.opt := by
  simp [State.reportAll]

@[simp] theorem State.emitRaw_keeps (s : State) (p : Port) (e : Expect) (v : PointView) (codes : List Nat) (flags : Nat) :
    (s.emitRaw p e v codes flags).permits.asserted = s.permits.asserted ∧
    (s.emitRaw p e v codes flags).opt.ports = s.opt.ports ∧
    (s.emitRaw p e v codes flags).flash.cells = s.flash.cells ∧
    (s.emitRaw p e v codes flags).mem.cells = s.mem.cells ∧
    (s.emitRaw p e v codes flags).hb.doms = s.hb.doms := by
  unfold State.emitRaw
  exact keeps_ite ⟨rfl, rfl, rfl, rfl, rfl⟩ (keeps_foldl _ (fun s r => keeps_ite (keeps_foldl _ (fun _ _ => by simp [Keeps]) _ _) ⟨rfl, rfl, rfl, rfl, rfl⟩) _ _)

@[simp] theorem State.emitRaw_still (s : State) (p : Port) (e : Expect) (v : PointView) (codes : List Nat) (flags : Nat) :
    (s.emitRaw p e v codes flags).power = s.power ∧
    (s.emitRaw p e v codes flags).cfg = s.cfg ∧
    (s.emitRaw p e v codes flags).tim = s.tim ∧
    (s.emitRaw p e v codes flags).pnl = s.pnl ∧
    (s.emitRaw p e v codes flags).mbx = s.mbx ∧
    (s.emitRaw p e v codes flags).hb.bothFailed = s.hb.bothFailed ∧
    (s.emitRaw p e v codes flags).pending = s.pending ∧
    (s.emitRaw p e v codes flags).now = s.now := by
  unfold State.emitRaw
  exact still_ite ⟨rfl, rfl, rfl, rfl, rfl, rfl, rfl, rfl⟩ (still_foldl _ (fun s r => still_ite (still_foldl _ (fun _ _ => by simp [Still]) _ _) ⟨rfl, rfl, rfl, rfl, rfl, rfl, rfl, rfl⟩) _ _)

theorem State.emitRaw_same (s : State) (p : Port) (e : Expect) (v : PointView) (codes : List Nat) (flags : Nat) :
    Same (fun s => (s.tiu, s.sht, s.acq, s.phs, s.evt, s.alarms, s.dts, s.sup, s.permits, s.als, s.plk, s.lanes, s.mgmt, s.trigLevel, s.opt)) (s.emitRaw p e v codes flags) s := by
  unfold State.emitRaw
  exact same_ite rfl (same_foldl _ (fun s r => same_ite (same_foldl _ (fun _ _ => by simp [Same]) _ _) rfl) _ _)

@[simp] theorem State.emitRaw_blocks (s : State) (p : Port) (e : Expect) (v : PointView) (codes : List Nat) (flags : Nat) :
    (State.emitRaw s p e v codes flags).tiu = s.tiu ∧
    (State.emitRaw s p e v codes flags).sht = s.sht ∧
    (State.emitRaw s p e v codes flags).acq = s.acq ∧
    (State.emitRaw s p e v codes flags).phs = s.phs ∧
    (State.emitRaw s p e v codes flags).evt = s.evt ∧
    (State.emitRaw s p e v codes flags).alarms = s.alarms ∧
    (State.emitRaw s p e v codes flags).dts = s.dts ∧
    (State.emitRaw s p e v codes flags).sup = s.sup ∧
    (State.emitRaw s p e v codes flags).permits = s.permits ∧
    (State.emitRaw s p e v codes flags).als = s.als ∧
    (State.emitRaw s p e v codes flags).plk = s.plk ∧
    (State.emitRaw s p e v codes flags).lanes = s.lanes ∧
    (State.emitRaw s p e v codes flags).mgmt = s.mgmt ∧
    (State.emitRaw s p e v codes flags).trigLevel = s.trigLevel ∧
    (State.emitRaw s p e v codes flags).opt = s.opt := by
  simpa [Same] using State.emitRaw_same s p e v codes flags

@[simp] theorem State.processRecord_keeps (s : State) (p : Port) (r : AcqRec) (words : List U64) (lanes : List (List Int)) (e : Expect) :
    (State.processRecord s p r words lanes e).permits.asserted = s.permits.asserted ∧
    (State.processRecord s p r words lanes e).opt.ports = s.opt.ports ∧
    (State.processRecord s p r words lanes e).flash.cells = s.flash.cells ∧
    (State.processRecord s p r words lanes e).mem.cells = s.mem.cells ∧
    (State.processRecord s p r words lanes e).hb.doms = s.hb.doms ∧
    (State.processRecord s p r words lanes e).power = s.power ∧
    (State.processRecord s p r words lanes e).cfg = s.cfg ∧
    (State.processRecord s p r words lanes e).tim = s.tim ∧
    (State.processRecord s p r words lanes e).pnl = s.pnl ∧
    (State.processRecord s p r words lanes e).mbx = s.mbx ∧
    (State.processRecord s p r words lanes e).hb.bothFailed = s.hb.bothFailed ∧
    (State.processRecord s p r words lanes e).pending = s.pending ∧
    (State.processRecord s p r words lanes e).now = s.now ∧
    (State.processRecord s p r words lanes e).tiu = s.tiu ∧
    (State.processRecord s p r words lanes e).sht = s.sht ∧
    (State.processRecord s p r words lanes e).acq = s.acq ∧
    (State.processRecord s p r words lanes e).permits = s.permits ∧
    (State.processRecord s p r words lanes e).plk = s.plk ∧
    (State.processRecord s p r words lanes e).lanes = s.lanes ∧
    (State.processRecord s p r words lanes e).mgmt = s.mgmt ∧
    (State.processRecord s p r words lanes e).trigLevel = s.trigLevel ∧
    (State.processRecord s p r words lanes e).opt = s.opt := by
  simp [State.processRecord]

@[simp] theorem State.clearPhase_keeps (s : State) (p : Port) :
    (State.clearPhase s p).permits.asserted = s.permits.asserted ∧
    (State.clearPhase s p).opt.ports = s.opt.ports ∧
    (State.clearPhase s p).flash.cells = s.flash.cells ∧
    (State.clearPhase s p).mem.cells = s.mem.cells ∧
    (State.clearPhase s p).hb.doms = s.hb.doms ∧
    (State.clearPhase s p).power = s.power ∧
    (State.clearPhase s p).cfg = s.cfg ∧
    (State.clearPhase s p).tim = s.tim ∧
    (State.clearPhase s p).pnl = s.pnl ∧
    (State.clearPhase s p).mbx = s.mbx ∧
    (State.clearPhase s p).hb.bothFailed = s.hb.bothFailed ∧
    (State.clearPhase s p).pending = s.pending ∧
    (State.clearPhase s p).now = s.now ∧
    (State.clearPhase s p).tiu = s.tiu ∧
    (State.clearPhase s p).sht = s.sht ∧
    (State.clearPhase s p).acq = s.acq ∧
    (State.clearPhase s p).alarms = s.alarms ∧
    (State.clearPhase s p).dts = s.dts ∧
    (State.clearPhase s p).sup = s.sup ∧
    (State.clearPhase s p).permits = s.permits ∧
    (State.clearPhase s p).als = s.als ∧
    (State.clearPhase s p).plk = s.plk ∧
    (State.clearPhase s p).lanes = s.lanes ∧
    (State.clearPhase s p).mgmt = s.mgmt ∧
    (State.clearPhase s p).trigLevel = s.trigLevel ∧
    (State.clearPhase s p).opt = s.opt := by
  simp [State.clearPhase]

@[simp] theorem State.setInput_keeps (s : State) (i : Fin 4) (f : Thermistor → Thermistor) :
    (State.setInput s i f).permits.asserted = s.permits.asserted ∧
    (State.setInput s i f).opt.ports = s.opt.ports ∧
    (State.setInput s i f).flash.cells = s.flash.cells ∧
    (State.setInput s i f).mem.cells = s.mem.cells ∧
    (State.setInput s i f).hb.doms = s.hb.doms ∧
    (State.setInput s i f).power = s.power ∧
    (State.setInput s i f).cfg = s.cfg ∧
    (State.setInput s i f).tim = s.tim ∧
    (State.setInput s i f).pnl = s.pnl ∧
    (State.setInput s i f).mbx = s.mbx ∧
    (State.setInput s i f).hb.bothFailed = s.hb.bothFailed ∧
    (State.setInput s i f).pending = s.pending ∧
    (State.setInput s i f).now = s.now ∧
    (State.setInput s i f).tiu = s.tiu ∧
    (State.setInput s i f).sht = s.sht ∧
    (State.setInput s i f).acq = s.acq ∧
    (State.setInput s i f).phs = s.phs ∧
    (State.setInput s i f).evt = s.evt ∧
    (State.setInput s i f).alarms = s.alarms ∧
    (State.setInput s i f).dts = s.dts ∧
    (State.setInput s i f).permits = s.permits ∧
    (State.setInput s i f).als = s.als ∧
    (State.setInput s i f).plk = s.plk ∧
    (State.setInput s i f).lanes = s.lanes ∧
    (State.setInput s i f).mgmt = s.mgmt ∧
    (State.setInput s i f).trigLevel = s.trigLevel ∧
    (State.setInput s i f).opt = s.opt := by
  simp [State.setInput]

@[simp] theorem State.supBegin_keeps (s : State) (pos : Nat) (k : SupStep) :
    (State.supBegin s pos k).permits.asserted = s.permits.asserted ∧
    (State.supBegin s pos k).opt.ports = s.opt.ports ∧
    (State.supBegin s pos k).flash.cells = s.flash.cells ∧
    (State.supBegin s pos k).mem.cells = s.mem.cells ∧
    (State.supBegin s pos k).hb.doms = s.hb.doms ∧
    (State.supBegin s pos k).power = s.power ∧
    (State.supBegin s pos k).cfg = s.cfg ∧
    (State.supBegin s pos k).tim = s.tim ∧
    (State.supBegin s pos k).pnl = s.pnl ∧
    (State.supBegin s pos k).mbx = s.mbx ∧
    (State.supBegin s pos k).hb.bothFailed = s.hb.bothFailed ∧
    (State.supBegin s pos k).pending = s.pending ∧
    (State.supBegin s pos k).now = s.now ∧
    (State.supBegin s pos k).tiu = s.tiu ∧
    (State.supBegin s pos k).sht = s.sht ∧
    (State.supBegin s pos k).acq = s.acq ∧
    (State.supBegin s pos k).phs = s.phs ∧
    (State.supBegin s pos k).evt = s.evt ∧
    (State.supBegin s pos k).alarms = s.alarms ∧
    (State.supBegin s pos k).dts = s.dts ∧
    (State.supBegin s pos k).permits = s.permits ∧
    (State.supBegin s pos k).als = s.als ∧
    (State.supBegin s pos k).plk = s.plk ∧
    (State.supBegin s pos k).lanes = s.lanes ∧
    (State.supBegin s pos k).mgmt = s.mgmt ∧
    (State.supBegin s pos k).trigLevel = s.trigLevel ∧
    (State.supBegin s pos k).opt = s.opt := by
  simp [State.supBegin]

@[simp] theorem State.supDeliver_keeps (s : State) (flags : Nat) (v : Int) :
    (State.supDeliver s flags v).permits.asserted = s.permits.asserted ∧
    (State.supDeliver s flags v).opt.ports = s.opt.ports ∧
    (State.supDeliver s flags v).flash.cells = s.flash.cells ∧
    (State.supDeliver s flags v).mem.cells = s.mem.cells ∧
    (State.supDeliver s flags v).hb.doms = s.hb.doms ∧
    (State.supDeliver s flags v).power = s.power ∧
    (State.supDeliver s flags v).cfg = s.cfg ∧
    (State.supDeliver s flags v).tim = s.tim ∧
    (State.supDeliver s flags v).pnl = s.pnl ∧
    (State.supDeliver s flags v).mbx = s.mbx ∧
    (State.supDeliver s flags v).hb.bothFailed = s.hb.bothFailed ∧
    (State.supDeliver s flags v).pending = s.pending ∧
    (State.supDeliver s flags v).now = s.now ∧
    (State.supDeliver s flags v).tiu = s.tiu ∧
    (State.supDeliver s flags v).sht = s.sht ∧
    (State.supDeliver s flags v).acq = s.acq ∧
    (State.supDeliver s flags v).phs = s.phs ∧
    (State.supDeliver s flags v).evt = s.evt ∧
    (State.supDeliver s flags v).alarms = s.alarms ∧
    (State.supDeliver s flags v).dts = s.dts ∧
    (State.supDeliver s flags v).permits = s.permits ∧
    (State.supDeliver s flags v).als = s.als ∧
    (State.supDeliver s flags v).plk = s.plk ∧
    (State.supDeliver s flags v).lanes = s.lanes ∧
    (State.supDeliver s flags v).mgmt = s.mgmt ∧
    (State.supDeliver s flags v).trigLevel = s.trigLevel ∧
    (State.supDeliver s flags v).opt = s.opt := by
  simp [State.supDeliver]

@[simp] theorem State.supLast_keeps (s : State) (v : Int) :
    (State.supLast s v).permits.asserted = s.permits.asserted ∧
    (State.supLast s v).opt.ports = s.opt.ports ∧
    (State.supLast s v).flash.cells = s.flash.cells ∧
    (State.supLast s v).mem.cells = s.mem.cells ∧
    (State.supLast s v).hb.doms = s.hb.doms ∧
    (State.supLast s v).power = s.power ∧
    (State.supLast s v).cfg = s.cfg ∧
    (State.supLast s v).tim = s.tim ∧
    (State.supLast s v).pnl = s.pnl ∧
    (State.supLast s v).mbx = s.mbx ∧
    (State.supLast s v).hb.bothFailed = s.hb.bothFailed ∧
    (State.supLast s v).pending = s.pending ∧
    (State.supLast s v).now = s.now ∧
    (State.supLast s v).tiu = s.tiu ∧
    (State.supLast s v).sht = s.sht ∧
    (State.supLast s v).acq = s.acq ∧
    (State.supLast s v).phs = s.phs ∧
    (State.supLast s v).evt = s.evt ∧
    (State.supLast s v).alarms = s.alarms ∧
    (State.supLast s v).dts = s.dts ∧
    (State.supLast s v).permits = s.permits ∧
    (State.supLast s v).als = s.als ∧
    (State.supLast s v).plk = s.plk ∧
    (State.supLast s v).lanes = s.lanes ∧
    (State.supLast s v).mgmt = s.mgmt ∧
    (State.supLast s v).trigLevel = s.trigLevel ∧
    (State.supLast s v).opt = s.opt := by
  simp [State.supLast]

@[simp] theorem State.supNext_keeps (s : State) :
    (State.supNext s).permits.asserted = s.permits.asserted ∧
    (State.supNext s).opt.ports = s.opt.ports ∧
    (State.supNext s).flash.cells = s.flash.cells ∧
    (State.supNext s).mem.cells = s.mem.cells ∧
    (State.supNext s).hb.doms = s.hb.doms ∧
    (State.supNext s).power = s.power ∧
    (State.supNext s).cfg = s.cfg ∧
    (State.supNext s).tim = s.tim ∧
    (State.supNext s).pnl = s.pnl ∧
    (State.supNext s).mbx = s.mbx ∧
    (State.supNext s).hb.bothFailed = s.hb.bothFailed ∧
    (State.supNext s).pending = s.pending ∧
    (State.supNext s).now = s.now ∧
    (State.supNext s).tiu = s.tiu ∧
    (State.supNext s).sht = s.sht ∧
    (State.supNext s).acq = s.acq ∧
    (State.supNext s).phs = s.phs ∧
    (State.supNext s).evt = s.evt ∧
    (State.supNext s).alarms = s.alarms ∧
    (State.supNext s).dts = s.dts ∧
    (State.supNext s).permits = s.permits ∧
    (State.supNext s).als = s.als ∧
    (State.supNext s).plk = s.plk ∧
    (State.supNext s).lanes = s.lanes ∧
    (State.supNext s).mgmt = s.mgmt ∧
    (State.supNext s).trigLevel = s.trigLevel ∧
    (State.supNext s).opt = s.opt := by
  simp [State.supNext]

@[simp] theorem State.declareBreak_keeps (s : State) (how : Nat) :
    (State.declareBreak s how).permits.asserted = s.permits.asserted ∧
    (State.declareBreak s how).opt.ports = s.opt.ports ∧
    (State.declareBreak s how).flash.cells = s.flash.cells ∧
    (State.declareBreak s how).mem.cells = s.mem.cells ∧
    (State.declareBreak s how).hb.doms = s.hb.doms ∧
    (State.declareBreak s how).power = s.power ∧
    (State.declareBreak s how).cfg = s.cfg ∧
    (State.declareBreak s how).tim = s.tim ∧
    (State.declareBreak s how).pnl = s.pnl ∧
    (State.declareBreak s how).mbx = s.mbx ∧
    (State.declareBreak s how).hb.bothFailed = s.hb.bothFailed ∧
    (State.declareBreak s how).pending = s.pending ∧
    (State.declareBreak s how).now = s.now ∧
    (State.declareBreak s how).tiu = s.tiu ∧
    (State.declareBreak s how).sht = s.sht ∧
    (State.declareBreak s how).acq = s.acq ∧
    (State.declareBreak s how).phs = s.phs ∧
    (State.declareBreak s how).evt = s.evt ∧
    (State.declareBreak s how).alarms = s.alarms ∧
    (State.declareBreak s how).permits = s.permits ∧
    (State.declareBreak s how).als = s.als ∧
    (State.declareBreak s how).plk = s.plk ∧
    (State.declareBreak s how).lanes = s.lanes ∧
    (State.declareBreak s how).mgmt = s.mgmt ∧
    (State.declareBreak s how).trigLevel = s.trigLevel ∧
    (State.declareBreak s how).opt = s.opt := by
  simp only [State.declareBreak]
  (repeat' split) <;> simp

@[simp] theorem State.goodPair_keeps (s : State) (x : Int) :
    (State.goodPair s x).permits.asserted = s.permits.asserted ∧
    (State.goodPair s x).opt.ports = s.opt.ports ∧
    (State.goodPair s x).flash.cells = s.flash.cells ∧
    (State.goodPair s x).mem.cells = s.mem.cells ∧
    (State.goodPair s x).hb.doms = s.hb.doms ∧
    (State.goodPair s x).power = s.power ∧
    (State.goodPair s x).cfg = s.cfg ∧
    (State.goodPair s x).tim = s.tim ∧
    (State.goodPair s x).pnl = s.pnl ∧
    (State.goodPair s x).mbx = s.mbx ∧
    (State.goodPair s x).hb.bothFailed = s.hb.bothFailed ∧
    (State.goodPair s x).pending = s.pending ∧
    (State.goodPair s x).now = s.now ∧
    (State.goodPair s x).tiu = s.tiu ∧
    (State.goodPair s x).sht = s.sht ∧
    (State.goodPair s x).acq = s.acq ∧
    (State.goodPair s x).phs = s.phs ∧
    (State.goodPair s x).evt = s.evt ∧
    (State.goodPair s x).alarms = s.alarms ∧
    (State.goodPair s x).permits = s.permits ∧
    (State.goodPair s x).als = s.als ∧
    (State.goodPair s x).plk = s.plk ∧
    (State.goodPair s x).lanes = s.lanes ∧
    (State.goodPair s x).mgmt = s.mgmt ∧
    (State.goodPair s x).trigLevel = s.trigLevel ∧
    (State.goodPair s x).opt = s.opt := by
  simp only [State.goodPair]
  (repeat' split) <;> simp

@[simp] theorem State.supPair_keeps (s : State) (vPlus vMinus : Int) :
    (State.supPair s vPlus vMinus).permits.asserted = s.permits.asserted ∧
    (State.supPair s vPlus vMinus).opt.ports = s.opt.ports ∧
    (State.supPair s vPlus vMinus).flash.cells = s.flash.cells ∧
    (State.supPair s vPlus vMinus).mem.cells = s.mem.cells ∧
    (State.supPair s vPlus vMinus).hb.doms = s.hb.doms ∧
    (State.supPair s vPlus vMinus).power = s.power ∧
    (State.supPair s vPlus vMinus).cfg = s.cfg ∧
    (State.supPair s vPlus vMinus).tim = s.tim ∧
    (State.supPair s vPlus vMinus).pnl = s.pnl ∧
    (State.supPair s vPlus vMinus).mbx = s.mbx ∧
    (State.supPair s vPlus vMinus).hb.bothFailed = s.hb.bothFailed ∧
    (State.supPair s vPlus vMinus).pending = s.pending ∧
    (State.supPair s vPlus vMinus).now = s.now ∧
    (State.supPair s vPlus vMinus).tiu = s.tiu ∧
    (State.supPair s vPlus vMinus).sht = s.sht ∧
    (State.supPair s vPlus vMinus).acq = s.acq ∧
    (State.supPair s vPlus vMinus).phs = s.phs ∧
    (State.supPair s vPlus vMinus).evt = s.evt ∧
    (State.supPair s vPlus vMinus).alarms = s.alarms ∧
    (State.supPair s vPlus vMinus).permits = s.permits ∧
    (State.supPair s vPlus vMinus).als = s.als ∧
    (State.supPair s vPlus vMinus).plk = s.plk ∧
    (State.supPair s vPlus vMinus).lanes = s.lanes ∧
    (State.supPair s vPlus vMinus).mgmt = s.mgmt ∧
    (State.supPair s vPlus vMinus).trigLevel = s.trigLevel ∧
    (State.supPair s vPlus vMinus).opt = s.opt := by
  simp [State.supPair]

@[simp] theorem State.supSingle_keeps (s : State) (v : Int) :
    (State.supSingle s v).permits.asserted = s.permits.asserted ∧
    (State.supSingle s v).opt.ports = s.opt.ports ∧
    (State.supSingle s v).flash.cells = s.flash.cells ∧
    (State.supSingle s v).mem.cells = s.mem.cells ∧
    (State.supSingle s v).hb.doms = s.hb.doms ∧
    (State.supSingle s v).power = s.power ∧
    (State.supSingle s v).cfg = s.cfg ∧
    (State.supSingle s v).tim = s.tim ∧
    (State.supSingle s v).pnl = s.pnl ∧
    (State.supSingle s v).mbx = s.mbx ∧
    (State.supSingle s v).hb.bothFailed = s.hb.bothFailed ∧
    (State.supSingle s v).pending = s.pending ∧
    (State.supSingle s v).now = s.now ∧
    (State.supSingle s v).tiu = s.tiu ∧
    (State.supSingle s v).sht = s.sht ∧
    (State.supSingle s v).acq = s.acq ∧
    (State.supSingle s v).phs = s.phs ∧
    (State.supSingle s v).evt = s.evt ∧
    (State.supSingle s v).alarms = s.alarms ∧
    (State.supSingle s v).permits = s.permits ∧
    (State.supSingle s v).als = s.als ∧
    (State.supSingle s v).plk = s.plk ∧
    (State.supSingle s v).lanes = s.lanes ∧
    (State.supSingle s v).mgmt = s.mgmt ∧
    (State.supSingle s v).trigLevel = s.trigLevel ∧
    (State.supSingle s v).opt = s.opt := by
  simp only [State.supSingle]
  (repeat' split) <;> simp

@[simp] theorem State.supStart_keeps (s : State) :
    (State.supStart s).permits.asserted = s.permits.asserted ∧
    (State.supStart s).opt.ports = s.opt.ports ∧
    (State.supStart s).flash.cells = s.flash.cells ∧
    (State.supStart s).mem.cells = s.mem.cells ∧
    (State.supStart s).hb.doms = s.hb.doms ∧
    (State.supStart s).power = s.power ∧
    (State.supStart s).cfg = s.cfg ∧
    (State.supStart s).tim = s.tim ∧
    (State.supStart s).pnl = s.pnl ∧
    (State.supStart s).mbx = s.mbx ∧
    (State.supStart s).hb.bothFailed = s.hb.bothFailed ∧
    (State.supStart s).pending = s.pending ∧
    (State.supStart s).now = s.now ∧
    (State.supStart s).tiu = s.tiu ∧
    (State.supStart s).sht = s.sht ∧
    (State.supStart s).acq = s.acq ∧
    (State.supStart s).phs = s.phs ∧
    (State.supStart s).evt = s.evt ∧
    (State.supStart s).alarms = s.alarms ∧
    (State.supStart s).dts = s.dts ∧
    (State.supStart s).permits = s.permits ∧
    (State.supStart s).als = s.als ∧
    (State.supStart s).plk = s.plk ∧
    (State.supStart s).lanes = s.lanes ∧
    (State.supStart s).mgmt = s.mgmt ∧
    (State.supStart s).trigLevel = s.trigLevel ∧
    (State.supStart s).opt = s.opt := by
  simp [State.supStart]

@[simp] theorem State.recordRow_keeps (s : State) (k : Nat) (domain : Nat) (value : U32) :
    (State.recordRow s k domain value).permits.asserted = s.permits.asserted ∧
    (State.recordRow s k domain value).opt.ports = s.opt.ports ∧
    (State.recordRow s k domain value).flash.cells = s.flash.cells ∧
    (State.recordRow s k domain value).mem.cells = s.mem.cells ∧
    (State.recordRow s k domain value).hb.doms = s.hb.doms ∧
    (State.recordRow s k domain value).power = s.power ∧
    (State.recordRow s k domain value).cfg = s.cfg ∧
    (State.recordRow s k domain value).tim = s.tim ∧
    (State.recordRow s k domain value).pnl = s.pnl ∧
    (State.recordRow s k domain value).mbx = s.mbx ∧
    (State.recordRow s k domain value).hb.bothFailed = s.hb.bothFailed ∧
    (State.recordRow s k domain value).pending = s.pending ∧
    (State.recordRow s k domain value).now = s.now ∧
    (State.recordRow s k domain value).tiu = s.tiu ∧
    (State.recordRow s k domain value).sht = s.sht ∧
    (State.recordRow s k domain value).acq = s.acq ∧
    (State.recordRow s k domain value).phs = s.phs ∧
    (State.recordRow s k domain value).evt = s.evt ∧
    (State.recordRow s k domain value).alarms = s.alarms ∧
    (State.recordRow s k domain value).dts = s.dts ∧
    (State.recordRow s k domain value).sup = s.sup ∧
    (State.recordRow s k domain value).permits = s.permits ∧
    (State.recordRow s k domain value).als = s.als ∧
    (State.recordRow s k domain value).plk = s.plk ∧
    (State.recordRow s k domain value).lanes = s.lanes ∧
    (State.recordRow s k domain value).mgmt = s.mgmt ∧
    (State.recordRow s k domain value).trigLevel = s.trigLevel ∧
    (State.recordRow s k domain value).opt = s.opt := by
  simp [State.recordRow]

@[simp] theorem State.gatesOff_keeps (s : State) :
    (State.gatesOff s).permits.asserted = s.permits.asserted ∧
    (State.gatesOff s).flash.cells = s.flash.cells ∧
    (State.gatesOff s).mem.cells = s.mem.cells ∧
    (State.gatesOff s).hb.doms = s.hb.doms ∧
    (State.gatesOff s).power = s.power ∧
    (State.gatesOff s).cfg = s.cfg ∧
    (State.gatesOff s).tim = s.tim ∧
    (State.gatesOff s).pnl = s.pnl ∧
    (State.gatesOff s).mbx = s.mbx ∧
    (State.gatesOff s).hb.bothFailed = s.hb.bothFailed ∧
    (State.gatesOff s).pending = s.pending ∧
    (State.gatesOff s).now = s.now ∧
    (State.gatesOff s).tiu = s.tiu ∧
    (State.gatesOff s).phs = s.phs ∧
    (State.gatesOff s).evt = s.evt ∧
    (State.gatesOff s).alarms = s.alarms ∧
    (State.gatesOff s).sup = s.sup ∧
    (State.gatesOff s).permits = s.permits ∧
    (State.gatesOff s).als = s.als ∧
    (State.gatesOff s).plk = s.plk ∧
    (State.gatesOff s).lanes = s.lanes ∧
    (State.gatesOff s).mgmt = s.mgmt ∧
    (State.gatesOff s).trigLevel = s.trigLevel := by
  simp [State.gatesOff]

@[simp] theorem State.leaveReady_keeps (s : State) (next_ : LaserSt) :
    (State.leaveReady s next_).permits.asserted = s.permits.asserted ∧
    (State.leaveReady s next_).flash.cells = s.flash.cells ∧
    (State.leaveReady s next_).mem.cells = s.mem.cells ∧
    (State.leaveReady s next_).hb.doms = s.hb.doms ∧
    (State.leaveReady s next_).power = s.power ∧
    (State.leaveReady s next_).cfg = s.cfg ∧
    (State.leaveReady s next_).tim = s.tim ∧
    (State.leaveReady s next_).pnl = s.pnl ∧
    (State.leaveReady s next_).mbx = s.mbx ∧
    (State.leaveReady s next_).hb.bothFailed = s.hb.bothFailed ∧
    (State.leaveReady s next_).pending = s.pending ∧
    (State.leaveReady s next_).now = s.now ∧
    (State.leaveReady s next_).tiu = s.tiu ∧
    (State.leaveReady s next_).phs = s.phs ∧
    (State.leaveReady s next_).evt = s.evt ∧
    (State.leaveReady s next_).alarms = s.alarms ∧
    (State.leaveReady s next_).sup = s.sup ∧
    (State.leaveReady s next_).permits = s.permits ∧
    (State.leaveReady s next_).als = s.als ∧
    (State.leaveReady s next_).plk = s.plk ∧
    (State.leaveReady s next_).lanes = s.lanes ∧
    (State.leaveReady s next_).mgmt = s.mgmt ∧
    (State.leaveReady s next_).trigLevel = s.trigLevel := by
  simp [State.leaveReady]

@[simp] theorem State.laserReadyNow_keeps (s : State) :
    (State.laserReadyNow s).permits.asserted = s.permits.asserted ∧
    (State.laserReadyNow s).flash.cells = s.flash.cells ∧
    (State.laserReadyNow s).mem.cells = s.mem.cells ∧
    (State.laserReadyNow s).hb.doms = s.hb.doms ∧
    (State.laserReadyNow s).power = s.power ∧
    (State.laserReadyNow s).cfg = s.cfg ∧
    (State.laserReadyNow s).tim = s.tim ∧
    (State.laserReadyNow s).pnl = s.pnl ∧
    (State.laserReadyNow s).mbx = s.mbx ∧
    (State.laserReadyNow s).hb.bothFailed = s.hb.bothFailed ∧
    (State.laserReadyNow s).pending = s.pending ∧
    (State.laserReadyNow s).now = s.now ∧
    (State.laserReadyNow s).tiu = s.tiu ∧
    (State.laserReadyNow s).acq = s.acq ∧
    (State.laserReadyNow s).phs = s.phs ∧
    (State.laserReadyNow s).evt = s.evt ∧
    (State.laserReadyNow s).alarms = s.alarms ∧
    (State.laserReadyNow s).dts = s.dts ∧
    (State.laserReadyNow s).sup = s.sup ∧
    (State.laserReadyNow s).permits = s.permits ∧
    (State.laserReadyNow s).plk = s.plk ∧
    (State.laserReadyNow s).lanes = s.lanes ∧
    (State.laserReadyNow s).mgmt = s.mgmt ∧
    (State.laserReadyNow s).trigLevel = s.trigLevel := by
  simp [State.laserReadyNow]

@[simp] theorem State.skipGroup_keeps (s : State) (p : Port) :
    (State.skipGroup s p).permits.asserted = s.permits.asserted ∧
    (State.skipGroup s p).opt.ports = s.opt.ports ∧
    (State.skipGroup s p).flash.cells = s.flash.cells ∧
    (State.skipGroup s p).mem.cells = s.mem.cells ∧
    (State.skipGroup s p).hb.doms = s.hb.doms ∧
    (State.skipGroup s p).power = s.power ∧
    (State.skipGroup s p).cfg = s.cfg ∧
    (State.skipGroup s p).tim = s.tim ∧
    (State.skipGroup s p).pnl = s.pnl ∧
    (State.skipGroup s p).mbx = s.mbx ∧
    (State.skipGroup s p).hb.bothFailed = s.hb.bothFailed ∧
    (State.skipGroup s p).pending = s.pending ∧
    (State.skipGroup s p).now = s.now ∧
    (State.skipGroup s p).tiu = s.tiu ∧
    (State.skipGroup s p).acq = s.acq ∧
    (State.skipGroup s p).phs = s.phs ∧
    (State.skipGroup s p).evt = s.evt ∧
    (State.skipGroup s p).alarms = s.alarms ∧
    (State.skipGroup s p).dts = s.dts ∧
    (State.skipGroup s p).sup = s.sup ∧
    (State.skipGroup s p).permits = s.permits ∧
    (State.skipGroup s p).als = s.als ∧
    (State.skipGroup s p).plk = s.plk ∧
    (State.skipGroup s p).lanes = s.lanes ∧
    (State.skipGroup s p).mgmt = s.mgmt ∧
    (State.skipGroup s p).trigLevel = s.trigLevel ∧
    (State.skipGroup s p).opt = s.opt := by
  simp [State.skipGroup]

@[simp] theorem State.launchGroup_keeps (s : State) (p : Port) (triggered queued : Bool) (stamp : U64) :
    (State.launchGroup s p triggered queued stamp).permits.asserted = s.permits.asserted ∧
    (State.launchGroup s p triggered queued stamp).opt.ports = s.opt.ports ∧
    (State.launchGroup s p triggered queued stamp).flash.cells = s.flash.cells ∧
    (State.launchGroup s p triggered queued stamp).mem.cells = s.mem.cells ∧
    (State.launchGroup s p triggered queued stamp).hb.doms = s.hb.doms ∧
    (State.launchGroup s p triggered queued stamp).power = s.power ∧
    (State.launchGroup s p triggered queued stamp).cfg = s.cfg ∧
    (State.launchGroup s p triggered queued stamp).tim = s.tim ∧
    (State.launchGroup s p triggered queued stamp).pnl = s.pnl ∧
    (State.launchGroup s p triggered queued stamp).mbx = s.mbx ∧
    (State.launchGroup s p triggered queued stamp).hb.bothFailed = s.hb.bothFailed ∧
    (State.launchGroup s p triggered queued stamp).pending = s.pending ∧
    (State.launchGroup s p triggered queued stamp).now = s.now ∧
    (State.launchGroup s p triggered queued stamp).tiu = s.tiu ∧
    (State.launchGroup s p triggered queued stamp).phs = s.phs ∧
    (State.launchGroup s p triggered queued stamp).evt = s.evt ∧
    (State.launchGroup s p triggered queued stamp).alarms = s.alarms ∧
    (State.launchGroup s p triggered queued stamp).dts = s.dts ∧
    (State.launchGroup s p triggered queued stamp).sup = s.sup ∧
    (State.launchGroup s p triggered queued stamp).permits = s.permits ∧
    (State.launchGroup s p triggered queued stamp).plk = s.plk ∧
    (State.launchGroup s p triggered queued stamp).lanes = s.lanes ∧
    (State.launchGroup s p triggered queued stamp).mgmt = s.mgmt ∧
    (State.launchGroup s p triggered queued stamp).trigLevel = s.trigLevel ∧
    (State.launchGroup s p triggered queued stamp).opt = s.opt := by
  simp [State.launchGroup]

@[simp] theorem State.runGroup_keeps (s : State) (p : Port) (slot : Int) (triggered queued : Bool) (stamp : U64) :
    (State.runGroup s p slot triggered queued stamp).permits.asserted = s.permits.asserted ∧
    (State.runGroup s p slot triggered queued stamp).opt.ports = s.opt.ports ∧
    (State.runGroup s p slot triggered queued stamp).flash.cells = s.flash.cells ∧
    (State.runGroup s p slot triggered queued stamp).mem.cells = s.mem.cells ∧
    (State.runGroup s p slot triggered queued stamp).hb.doms = s.hb.doms ∧
    (State.runGroup s p slot triggered queued stamp).power = s.power ∧
    (State.runGroup s p slot triggered queued stamp).cfg = s.cfg ∧
    (State.runGroup s p slot triggered queued stamp).tim = s.tim ∧
    (State.runGroup s p slot triggered queued stamp).pnl = s.pnl ∧
    (State.runGroup s p slot triggered queued stamp).mbx = s.mbx ∧
    (State.runGroup s p slot triggered queued stamp).hb.bothFailed = s.hb.bothFailed ∧
    (State.runGroup s p slot triggered queued stamp).pending = s.pending ∧
    (State.runGroup s p slot triggered queued stamp).now = s.now ∧
    (State.runGroup s p slot triggered queued stamp).tiu = s.tiu ∧
    (State.runGroup s p slot triggered queued stamp).permits = s.permits ∧
    (State.runGroup s p slot triggered queued stamp).plk = s.plk ∧
    (State.runGroup s p slot triggered queued stamp).lanes = s.lanes ∧
    (State.runGroup s p slot triggered queued stamp).mgmt = s.mgmt ∧
    (State.runGroup s p slot triggered queued stamp).trigLevel = s.trigLevel ∧
    (State.runGroup s p slot triggered queued stamp).opt = s.opt := by
  simp [State.runGroup]

@[simp] theorem State.passOver_keeps (s : State) (p : Port) (passed : Nat) (slot : Int) :
    (State.passOver s p passed slot).permits.asserted = s.permits.asserted ∧
    (State.passOver s p passed slot).opt.ports = s.opt.ports ∧
    (State.passOver s p passed slot).flash.cells = s.flash.cells ∧
    (State.passOver s p passed slot).mem.cells = s.mem.cells ∧
    (State.passOver s p passed slot).hb.doms = s.hb.doms ∧
    (State.passOver s p passed slot).power = s.power ∧
    (State.passOver s p passed slot).cfg = s.cfg ∧
    (State.passOver s p passed slot).tim = s.tim ∧
    (State.passOver s p passed slot).pnl = s.pnl ∧
    (State.passOver s p passed slot).mbx = s.mbx ∧
    (State.passOver s p passed slot).hb.bothFailed = s.hb.bothFailed ∧
    (State.passOver s p passed slot).pending = s.pending ∧
    (State.passOver s p passed slot).now = s.now ∧
    (State.passOver s p passed slot).tiu = s.tiu ∧
    (State.passOver s p passed slot).acq = s.acq ∧
    (State.passOver s p passed slot).permits = s.permits ∧
    (State.passOver s p passed slot).plk = s.plk ∧
    (State.passOver s p passed slot).lanes = s.lanes ∧
    (State.passOver s p passed slot).mgmt = s.mgmt ∧
    (State.passOver s p passed slot).trigLevel = s.trigLevel ∧
    (State.passOver s p passed slot).opt = s.opt := by
  simp [State.passOver]

@[simp] theorem State.follow_keeps (s : State) (p : Port) (passed : Nat) (slot : Int) :
    (State.follow s p passed slot).permits.asserted = s.permits.asserted ∧
    (State.follow s p passed slot).opt.ports = s.opt.ports ∧
    (State.follow s p passed slot).flash.cells = s.flash.cells ∧
    (State.follow s p passed slot).mem.cells = s.mem.cells ∧
    (State.follow s p passed slot).hb.doms = s.hb.doms ∧
    (State.follow s p passed slot).power = s.power ∧
    (State.follow s p passed slot).cfg = s.cfg ∧
    (State.follow s p passed slot).tim = s.tim ∧
    (State.follow s p passed slot).pnl = s.pnl ∧
    (State.follow s p passed slot).mbx = s.mbx ∧
    (State.follow s p passed slot).hb.bothFailed = s.hb.bothFailed ∧
    (State.follow s p passed slot).pending = s.pending ∧
    (State.follow s p passed slot).now = s.now ∧
    (State.follow s p passed slot).tiu = s.tiu ∧
    (State.follow s p passed slot).acq = s.acq ∧
    (State.follow s p passed slot).permits = s.permits ∧
    (State.follow s p passed slot).plk = s.plk ∧
    (State.follow s p passed slot).lanes = s.lanes ∧
    (State.follow s p passed slot).mgmt = s.mgmt ∧
    (State.follow s p passed slot).trigLevel = s.trigLevel ∧
    (State.follow s p passed slot).opt = s.opt := by
  simp [State.follow]

@[simp] theorem State.correctDrive_keeps (s : State) (p : Port) (temperature : Bool) (peak : Int) :
    (State.correctDrive s p temperature peak).permits.asserted = s.permits.asserted ∧
    (State.correctDrive s p temperature peak).flash.cells = s.flash.cells ∧
    (State.correctDrive s p temperature peak).mem.cells = s.mem.cells ∧
    (State.correctDrive s p temperature peak).hb.doms = s.hb.doms ∧
    (State.correctDrive s p temperature peak).power = s.power ∧
    (State.correctDrive s p temperature peak).cfg = s.cfg ∧
    (State.correctDrive s p temperature peak).tim = s.tim ∧
    (State.correctDrive s p temperature peak).pnl = s.pnl ∧
    (State.correctDrive s p temperature peak).mbx = s.mbx ∧
    (State.correctDrive s p temperature peak).hb.bothFailed = s.hb.bothFailed ∧
    (State.correctDrive s p temperature peak).pending = s.pending ∧
    (State.correctDrive s p temperature peak).now = s.now ∧
    (State.correctDrive s p temperature peak).tiu = s.tiu ∧
    (State.correctDrive s p temperature peak).sht = s.sht ∧
    (State.correctDrive s p temperature peak).acq = s.acq ∧
    (State.correctDrive s p temperature peak).phs = s.phs ∧
    (State.correctDrive s p temperature peak).evt = s.evt ∧
    (State.correctDrive s p temperature peak).alarms = s.alarms ∧
    (State.correctDrive s p temperature peak).dts = s.dts ∧
    (State.correctDrive s p temperature peak).sup = s.sup ∧
    (State.correctDrive s p temperature peak).permits = s.permits ∧
    (State.correctDrive s p temperature peak).als = s.als ∧
    (State.correctDrive s p temperature peak).plk = s.plk ∧
    (State.correctDrive s p temperature peak).lanes = s.lanes ∧
    (State.correctDrive s p temperature peak).mgmt = s.mgmt ∧
    (State.correctDrive s p temperature peak).trigLevel = s.trigLevel := by
  simp [State.correctDrive]

@[simp] theorem State.launchShot_keeps (s : State) (p : Port) (g : Group) (pleat : Option Nat) :
    (State.launchShot s p g pleat).permits.asserted = s.permits.asserted ∧
    (State.launchShot s p g pleat).flash.cells = s.flash.cells ∧
    (State.launchShot s p g pleat).mem.cells = s.mem.cells ∧
    (State.launchShot s p g pleat).hb.doms = s.hb.doms ∧
    (State.launchShot s p g pleat).power = s.power ∧
    (State.launchShot s p g pleat).cfg = s.cfg ∧
    (State.launchShot s p g pleat).tim = s.tim ∧
    (State.launchShot s p g pleat).pnl = s.pnl ∧
    (State.launchShot s p g pleat).mbx = s.mbx ∧
    (State.launchShot s p g pleat).hb.bothFailed = s.hb.bothFailed ∧
    (State.launchShot s p g pleat).pending = s.pending ∧
    (State.launchShot s p g pleat).now = s.now ∧
    (State.launchShot s p g pleat).tiu = s.tiu ∧
    (State.launchShot s p g pleat).acq = s.acq ∧
    (State.launchShot s p g pleat).phs = s.phs ∧
    (State.launchShot s p g pleat).evt = s.evt ∧
    (State.launchShot s p g pleat).alarms = s.alarms ∧
    (State.launchShot s p g pleat).sup = s.sup ∧
    (State.launchShot s p g pleat).permits = s.permits ∧
    (State.launchShot s p g pleat).als = s.als ∧
    (State.launchShot s p g pleat).plk = s.plk ∧
    (State.launchShot s p g pleat).lanes = s.lanes ∧
    (State.launchShot s p g pleat).mgmt = s.mgmt ∧
    (State.launchShot s p g pleat).trigLevel = s.trigLevel := by
  simp [State.launchShot]

@[simp] theorem State.stampShot_keeps (s : State) (p : Port) (a : Awaiting) (time : U64) (source : Nat) :
    (State.stampShot s p a time source).permits.asserted = s.permits.asserted ∧
    (State.stampShot s p a time source).opt.ports = s.opt.ports ∧
    (State.stampShot s p a time source).flash.cells = s.flash.cells ∧
    (State.stampShot s p a time source).mem.cells = s.mem.cells ∧
    (State.stampShot s p a time source).hb.doms = s.hb.doms ∧
    (State.stampShot s p a time source).power = s.power ∧
    (State.stampShot s p a time source).cfg = s.cfg ∧
    (State.stampShot s p a time source).tim = s.tim ∧
    (State.stampShot s p a time source).pnl = s.pnl ∧
    (State.stampShot s p a time source).mbx = s.mbx ∧
    (State.stampShot s p a time source).hb.bothFailed = s.hb.bothFailed ∧
    (State.stampShot s p a time source).pending = s.pending ∧
    (State.stampShot s p a time source).now = s.now ∧
    (State.stampShot s p a time source).tiu = s.tiu ∧
    (State.stampShot s p a time source).permits = s.permits ∧
    (State.stampShot s p a time source).plk = s.plk ∧
    (State.stampShot s p a time source).lanes = s.lanes ∧
    (State.stampShot s p a time source).mgmt = s.mgmt ∧
    (State.stampShot s p a time source).trigLevel = s.trigLevel ∧
    (State.stampShot s p a time source).opt = s.opt := by
  simp [State.stampShot]

@[simp] theorem State.checkUnseen_keeps (s : State) (p : Port) :
    (State.checkUnseen s p).permits.asserted = s.permits.asserted ∧
    (State.checkUnseen s p).opt.ports = s.opt.ports ∧
    (State.checkUnseen s p).flash.cells = s.flash.cells ∧
    (State.checkUnseen s p).mem.cells = s.mem.cells ∧
    (State.checkUnseen s p).hb.doms = s.hb.doms ∧
    (State.checkUnseen s p).power = s.power ∧
    (State.checkUnseen s p).cfg = s.cfg ∧
    (State.checkUnseen s p).tim = s.tim ∧
    (State.checkUnseen s p).pnl = s.pnl ∧
    (State.checkUnseen s p).mbx = s.mbx ∧
    (State.checkUnseen s p).hb.bothFailed = s.hb.bothFailed ∧
    (State.checkUnseen s p).pending = s.pending ∧
    (State.checkUnseen s p).now = s.now ∧
    (State.checkUnseen s p).tiu = s.tiu ∧
    (State.checkUnseen s p).acq = s.acq ∧
    (State.checkUnseen s p).phs = s.phs ∧
    (State.checkUnseen s p).evt = s.evt ∧
    (State.checkUnseen s p).alarms = s.alarms ∧
    (State.checkUnseen s p).dts = s.dts ∧
    (State.checkUnseen s p).sup = s.sup ∧
    (State.checkUnseen s p).permits = s.permits ∧
    (State.checkUnseen s p).als = s.als ∧
    (State.checkUnseen s p).plk = s.plk ∧
    (State.checkUnseen s p).lanes = s.lanes ∧
    (State.checkUnseen s p).mgmt = s.mgmt ∧
    (State.checkUnseen s p).trigLevel = s.trigLevel := by
  unfold State.checkUnseen
  (repeat' split) <;> simp

@[simp] theorem State.callGroup_keeps (s : State) (p : Port) (stamp : U64) (edgeAt : Nat) :
    (State.callGroup s p stamp edgeAt).permits.asserted = s.permits.asserted ∧
    (State.callGroup s p stamp edgeAt).opt.ports = s.opt.ports ∧
    (State.callGroup s p stamp edgeAt).flash.cells = s.flash.cells ∧
    (State.callGroup s p stamp edgeAt).mem.cells = s.mem.cells ∧
    (State.callGroup s p stamp edgeAt).hb.doms = s.hb.doms ∧
    (State.callGroup s p stamp edgeAt).power = s.power ∧
    (State.callGroup s p stamp edgeAt).cfg = s.cfg ∧
    (State.callGroup s p stamp edgeAt).tim = s.tim ∧
    (State.callGroup s p stamp edgeAt).pnl = s.pnl ∧
    (State.callGroup s p stamp edgeAt).mbx = s.mbx ∧
    (State.callGroup s p stamp edgeAt).hb.bothFailed = s.hb.bothFailed ∧
    (State.callGroup s p stamp edgeAt).pending = s.pending ∧
    (State.callGroup s p stamp edgeAt).now = s.now ∧
    (State.callGroup s p stamp edgeAt).tiu = s.tiu ∧
    (State.callGroup s p stamp edgeAt).acq = s.acq ∧
    (State.callGroup s p stamp edgeAt).phs = s.phs ∧
    (State.callGroup s p stamp edgeAt).evt = s.evt ∧
    (State.callGroup s p stamp edgeAt).alarms = s.alarms ∧
    (State.callGroup s p stamp edgeAt).dts = s.dts ∧
    (State.callGroup s p stamp edgeAt).sup = s.sup ∧
    (State.callGroup s p stamp edgeAt).permits = s.permits ∧
    (State.callGroup s p stamp edgeAt).als = s.als ∧
    (State.callGroup s p stamp edgeAt).plk = s.plk ∧
    (State.callGroup s p stamp edgeAt).lanes = s.lanes ∧
    (State.callGroup s p stamp edgeAt).mgmt = s.mgmt ∧
    (State.callGroup s p stamp edgeAt).trigLevel = s.trigLevel ∧
    (State.callGroup s p stamp edgeAt).opt = s.opt := by
  simp [State.callGroup]

@[simp] theorem State.pressed_keeps (s : State) (k : Fin 8) :
    (State.pressed s k).permits.asserted = s.permits.asserted ∧
    (State.pressed s k).opt.ports = s.opt.ports ∧
    (State.pressed s k).flash.cells = s.flash.cells ∧
    (State.pressed s k).mem.cells = s.mem.cells ∧
    (State.pressed s k).hb.doms = s.hb.doms ∧
    (State.pressed s k).power = s.power ∧
    (State.pressed s k).cfg = s.cfg ∧
    (State.pressed s k).tim = s.tim ∧
    (State.pressed s k).mbx = s.mbx ∧
    (State.pressed s k).hb.bothFailed = s.hb.bothFailed ∧
    (State.pressed s k).pending = s.pending ∧
    (State.pressed s k).now = s.now ∧
    (State.pressed s k).tiu = s.tiu ∧
    (State.pressed s k).sht = s.sht ∧
    (State.pressed s k).acq = s.acq ∧
    (State.pressed s k).phs = s.phs ∧
    (State.pressed s k).evt = s.evt ∧
    (State.pressed s k).alarms = s.alarms ∧
    (State.pressed s k).dts = s.dts ∧
    (State.pressed s k).sup = s.sup ∧
    (State.pressed s k).permits = s.permits ∧
    (State.pressed s k).als = s.als ∧
    (State.pressed s k).plk = s.plk ∧
    (State.pressed s k).lanes = s.lanes ∧
    (State.pressed s k).mgmt = s.mgmt ∧
    (State.pressed s k).trigLevel = s.trigLevel ∧
    (State.pressed s k).opt = s.opt := by
  simp [State.pressed]

@[simp] theorem State.keyIgnored_keeps (s : State) :
    (State.keyIgnored s).permits.asserted = s.permits.asserted ∧
    (State.keyIgnored s).opt.ports = s.opt.ports ∧
    (State.keyIgnored s).flash.cells = s.flash.cells ∧
    (State.keyIgnored s).mem.cells = s.mem.cells ∧
    (State.keyIgnored s).hb.doms = s.hb.doms ∧
    (State.keyIgnored s).power = s.power ∧
    (State.keyIgnored s).cfg = s.cfg ∧
    (State.keyIgnored s).tim = s.tim ∧
    (State.keyIgnored s).mbx = s.mbx ∧
    (State.keyIgnored s).hb.bothFailed = s.hb.bothFailed ∧
    (State.keyIgnored s).pending = s.pending ∧
    (State.keyIgnored s).now = s.now ∧
    (State.keyIgnored s).tiu = s.tiu ∧
    (State.keyIgnored s).sht = s.sht ∧
    (State.keyIgnored s).acq = s.acq ∧
    (State.keyIgnored s).phs = s.phs ∧
    (State.keyIgnored s).evt = s.evt ∧
    (State.keyIgnored s).alarms = s.alarms ∧
    (State.keyIgnored s).dts = s.dts ∧
    (State.keyIgnored s).sup = s.sup ∧
    (State.keyIgnored s).permits = s.permits ∧
    (State.keyIgnored s).als = s.als ∧
    (State.keyIgnored s).plk = s.plk ∧
    (State.keyIgnored s).lanes = s.lanes ∧
    (State.keyIgnored s).mgmt = s.mgmt ∧
    (State.keyIgnored s).trigLevel = s.trigLevel ∧
    (State.keyIgnored s).opt = s.opt := by
  simp [State.keyIgnored]

@[simp] theorem State.lampEnd_keeps (s : State) :
    (State.lampEnd s).permits.asserted = s.permits.asserted ∧
    (State.lampEnd s).opt.ports = s.opt.ports ∧
    (State.lampEnd s).flash.cells = s.flash.cells ∧
    (State.lampEnd s).mem.cells = s.mem.cells ∧
    (State.lampEnd s).hb.doms = s.hb.doms ∧
    (State.lampEnd s).power = s.power ∧
    (State.lampEnd s).cfg = s.cfg ∧
    (State.lampEnd s).tim = s.tim ∧
    (State.lampEnd s).mbx = s.mbx ∧
    (State.lampEnd s).hb.bothFailed = s.hb.bothFailed ∧
    (State.lampEnd s).pending = s.pending ∧
    (State.lampEnd s).now = s.now ∧
    (State.lampEnd s).tiu = s.tiu ∧
    (State.lampEnd s).sht = s.sht ∧
    (State.lampEnd s).acq = s.acq ∧
    (State.lampEnd s).phs = s.phs ∧
    (State.lampEnd s).evt = s.evt ∧
    (State.lampEnd s).alarms = s.alarms ∧
    (State.lampEnd s).dts = s.dts ∧
    (State.lampEnd s).sup = s.sup ∧
    (State.lampEnd s).permits = s.permits ∧
    (State.lampEnd s).als = s.als ∧
    (State.lampEnd s).plk = s.plk ∧
    (State.lampEnd s).lanes = s.lanes ∧
    (State.lampEnd s).mgmt = s.mgmt ∧
    (State.lampEnd s).trigLevel = s.trigLevel ∧
    (State.lampEnd s).opt = s.opt := by
  simp [State.lampEnd]

@[simp] theorem State.sensorSetup_keeps (s : State) :
    s.sensorSetup.permits.asserted = s.permits.asserted ∧
    s.sensorSetup.opt.ports = s.opt.ports ∧
    s.sensorSetup.flash.cells = s.flash.cells ∧
    s.sensorSetup.mem.cells = s.mem.cells ∧
    s.sensorSetup.hb.doms = s.hb.doms := by
  unfold State.sensorSetup
  exact keeps_ite (keeps_foldl (fun s k => s.send (.sensorWrite s.sensorAddr (s.setupPair k).1 (s.setupPair k).2))
    (fun _ _ => by simp [Keeps]) _ _) ⟨rfl, rfl, rfl, rfl, rfl⟩

@[simp] theorem State.sensorSetup_still (s : State) :
    s.sensorSetup.power = s.power ∧
    s.sensorSetup.cfg = s.cfg ∧
    s.sensorSetup.tim = s.tim ∧
    s.sensorSetup.pnl = s.pnl ∧
    s.sensorSetup.mbx = s.mbx ∧
    s.sensorSetup.hb.bothFailed = s.hb.bothFailed ∧
    s.sensorSetup.pending = s.pending ∧
    s.sensorSetup.now = s.now := by
  unfold State.sensorSetup
  exact still_ite (still_foldl (fun s k => s.send (.sensorWrite s.sensorAddr (s.setupPair k).1 (s.setupPair k).2))
    (fun _ _ => by simp [Still]) _ _) ⟨rfl, rfl, rfl, rfl, rfl, rfl, rfl, rfl⟩

theorem State.sensorSetup_same (s : State) :
    Same (fun s => (s.tiu, s.sht, s.acq, s.phs, s.evt, s.alarms, s.dts, s.sup, s.permits, s.als, s.plk, s.lanes, s.mgmt, s.trigLevel, s.opt)) s.sensorSetup s := by
  unfold State.sensorSetup
  exact same_ite (same_foldl (fun s k => s.send (.sensorWrite s.sensorAddr (s.setupPair k).1 (s.setupPair k).2))
    (fun _ _ => by simp [Same]) _ _) rfl

@[simp] theorem State.sensorSetup_blocks (s : State) :
    (State.sensorSetup s).tiu = s.tiu ∧
    (State.sensorSetup s).sht = s.sht ∧
    (State.sensorSetup s).acq = s.acq ∧
    (State.sensorSetup s).phs = s.phs ∧
    (State.sensorSetup s).evt = s.evt ∧
    (State.sensorSetup s).alarms = s.alarms ∧
    (State.sensorSetup s).dts = s.dts ∧
    (State.sensorSetup s).sup = s.sup ∧
    (State.sensorSetup s).permits = s.permits ∧
    (State.sensorSetup s).als = s.als ∧
    (State.sensorSetup s).plk = s.plk ∧
    (State.sensorSetup s).lanes = s.lanes ∧
    (State.sensorSetup s).mgmt = s.mgmt ∧
    (State.sensorSetup s).trigLevel = s.trigLevel ∧
    (State.sensorSetup s).opt = s.opt := by
  simpa [Same] using State.sensorSetup_same s

@[simp] theorem State.colourEnd_keeps (s : State) (m : List Nat) (failed : Bool) :
    (State.colourEnd s m failed).permits.asserted = s.permits.asserted ∧
    (State.colourEnd s m failed).opt.ports = s.opt.ports ∧
    (State.colourEnd s m failed).flash.cells = s.flash.cells ∧
    (State.colourEnd s m failed).mem.cells = s.mem.cells ∧
    (State.colourEnd s m failed).hb.doms = s.hb.doms ∧
    (State.colourEnd s m failed).power = s.power ∧
    (State.colourEnd s m failed).cfg = s.cfg ∧
    (State.colourEnd s m failed).tim = s.tim ∧
    (State.colourEnd s m failed).mbx = s.mbx ∧
    (State.colourEnd s m failed).hb.bothFailed = s.hb.bothFailed ∧
    (State.colourEnd s m failed).pending = s.pending ∧
    (State.colourEnd s m failed).now = s.now ∧
    (State.colourEnd s m failed).tiu = s.tiu ∧
    (State.colourEnd s m failed).sht = s.sht ∧
    (State.colourEnd s m failed).acq = s.acq ∧
    (State.colourEnd s m failed).phs = s.phs ∧
    (State.colourEnd s m failed).evt = s.evt ∧
    (State.colourEnd s m failed).alarms = s.alarms ∧
    (State.colourEnd s m failed).dts = s.dts ∧
    (State.colourEnd s m failed).sup = s.sup ∧
    (State.colourEnd s m failed).permits = s.permits ∧
    (State.colourEnd s m failed).als = s.als ∧
    (State.colourEnd s m failed).plk = s.plk ∧
    (State.colourEnd s m failed).lanes = s.lanes ∧
    (State.colourEnd s m failed).mgmt = s.mgmt ∧
    (State.colourEnd s m failed).trigLevel = s.trigLevel ∧
    (State.colourEnd s m failed).opt = s.opt := by
  simp [State.colourEnd]

@[simp] theorem State.rtOverflow_keeps (s : State) (ring : Fin 3) (i : RtItem) :
    (State.rtOverflow s ring i).permits.asserted = s.permits.asserted ∧
    (State.rtOverflow s ring i).opt.ports = s.opt.ports ∧
    (State.rtOverflow s ring i).flash.cells = s.flash.cells ∧
    (State.rtOverflow s ring i).mem.cells = s.mem.cells ∧
    (State.rtOverflow s ring i).hb.doms = s.hb.doms ∧
    (State.rtOverflow s ring i).power = s.power ∧
    (State.rtOverflow s ring i).cfg = s.cfg ∧
    (State.rtOverflow s ring i).tim = s.tim ∧
    (State.rtOverflow s ring i).pnl = s.pnl ∧
    (State.rtOverflow s ring i).mbx = s.mbx ∧
    (State.rtOverflow s ring i).hb.bothFailed = s.hb.bothFailed ∧
    (State.rtOverflow s ring i).pending = s.pending ∧
    (State.rtOverflow s ring i).now = s.now ∧
    (State.rtOverflow s ring i).tiu = s.tiu ∧
    (State.rtOverflow s ring i).sht = s.sht ∧
    (State.rtOverflow s ring i).acq = s.acq ∧
    (State.rtOverflow s ring i).phs = s.phs ∧
    (State.rtOverflow s ring i).evt = s.evt ∧
    (State.rtOverflow s ring i).alarms = s.alarms ∧
    (State.rtOverflow s ring i).dts = s.dts ∧
    (State.rtOverflow s ring i).sup = s.sup ∧
    (State.rtOverflow s ring i).permits = s.permits ∧
    (State.rtOverflow s ring i).als = s.als ∧
    (State.rtOverflow s ring i).plk = s.plk ∧
    (State.rtOverflow s ring i).lanes = s.lanes ∧
    (State.rtOverflow s ring i).mgmt = s.mgmt ∧
    (State.rtOverflow s ring i).trigLevel = s.trigLevel ∧
    (State.rtOverflow s ring i).opt = s.opt := by
  simp [State.rtOverflow]

@[simp] theorem State.rtSkipped_keeps (s : State) (ring : Fin 3) (i : RtItem) :
    (State.rtSkipped s ring i).permits.asserted = s.permits.asserted ∧
    (State.rtSkipped s ring i).opt.ports = s.opt.ports ∧
    (State.rtSkipped s ring i).flash.cells = s.flash.cells ∧
    (State.rtSkipped s ring i).mem.cells = s.mem.cells ∧
    (State.rtSkipped s ring i).hb.doms = s.hb.doms ∧
    (State.rtSkipped s ring i).power = s.power ∧
    (State.rtSkipped s ring i).cfg = s.cfg ∧
    (State.rtSkipped s ring i).tim = s.tim ∧
    (State.rtSkipped s ring i).pnl = s.pnl ∧
    (State.rtSkipped s ring i).mbx = s.mbx ∧
    (State.rtSkipped s ring i).hb.bothFailed = s.hb.bothFailed ∧
    (State.rtSkipped s ring i).pending = s.pending ∧
    (State.rtSkipped s ring i).now = s.now ∧
    (State.rtSkipped s ring i).tiu = s.tiu ∧
    (State.rtSkipped s ring i).sht = s.sht ∧
    (State.rtSkipped s ring i).acq = s.acq ∧
    (State.rtSkipped s ring i).phs = s.phs ∧
    (State.rtSkipped s ring i).evt = s.evt ∧
    (State.rtSkipped s ring i).alarms = s.alarms ∧
    (State.rtSkipped s ring i).dts = s.dts ∧
    (State.rtSkipped s ring i).sup = s.sup ∧
    (State.rtSkipped s ring i).permits = s.permits ∧
    (State.rtSkipped s ring i).als = s.als ∧
    (State.rtSkipped s ring i).plk = s.plk ∧
    (State.rtSkipped s ring i).lanes = s.lanes ∧
    (State.rtSkipped s ring i).mgmt = s.mgmt ∧
    (State.rtSkipped s ring i).trigLevel = s.trigLevel ∧
    (State.rtSkipped s ring i).opt = s.opt := by
  simp [State.rtSkipped]

@[simp] theorem State.rtPiece_keeps (s : State) (ring : Fin 3) (i : RtItem) (rest : List RtItem) :
    (State.rtPiece s ring i rest).permits.asserted = s.permits.asserted ∧
    (State.rtPiece s ring i rest).opt.ports = s.opt.ports ∧
    (State.rtPiece s ring i rest).flash.cells = s.flash.cells ∧
    (State.rtPiece s ring i rest).mem.cells = s.mem.cells ∧
    (State.rtPiece s ring i rest).hb.doms = s.hb.doms ∧
    (State.rtPiece s ring i rest).power = s.power ∧
    (State.rtPiece s ring i rest).cfg = s.cfg ∧
    (State.rtPiece s ring i rest).tim = s.tim ∧
    (State.rtPiece s ring i rest).pnl = s.pnl ∧
    (State.rtPiece s ring i rest).mbx = s.mbx ∧
    (State.rtPiece s ring i rest).hb.bothFailed = s.hb.bothFailed ∧
    (State.rtPiece s ring i rest).pending = s.pending ∧
    (State.rtPiece s ring i rest).now = s.now ∧
    (State.rtPiece s ring i rest).tiu = s.tiu ∧
    (State.rtPiece s ring i rest).sht = s.sht ∧
    (State.rtPiece s ring i rest).acq = s.acq ∧
    (State.rtPiece s ring i rest).phs = s.phs ∧
    (State.rtPiece s ring i rest).evt = s.evt ∧
    (State.rtPiece s ring i rest).alarms = s.alarms ∧
    (State.rtPiece s ring i rest).dts = s.dts ∧
    (State.rtPiece s ring i rest).sup = s.sup ∧
    (State.rtPiece s ring i rest).permits = s.permits ∧
    (State.rtPiece s ring i rest).als = s.als ∧
    (State.rtPiece s ring i rest).plk = s.plk ∧
    (State.rtPiece s ring i rest).lanes = s.lanes ∧
    (State.rtPiece s ring i rest).mgmt = s.mgmt ∧
    (State.rtPiece s ring i rest).trigLevel = s.trigLevel ∧
    (State.rtPiece s ring i rest).opt = s.opt := by
  simp [State.rtPiece]

@[simp] theorem State.served_keeps (s : State) (port : Fin 4) :
    (State.served s port).permits.asserted = s.permits.asserted ∧
    (State.served s port).opt.ports = s.opt.ports ∧
    (State.served s port).flash.cells = s.flash.cells ∧
    (State.served s port).mem.cells = s.mem.cells ∧
    (State.served s port).hb.doms = s.hb.doms ∧
    (State.served s port).power = s.power ∧
    (State.served s port).cfg = s.cfg ∧
    (State.served s port).tim = s.tim ∧
    (State.served s port).pnl = s.pnl ∧
    (State.served s port).mbx = s.mbx ∧
    (State.served s port).hb.bothFailed = s.hb.bothFailed ∧
    (State.served s port).pending = s.pending ∧
    (State.served s port).now = s.now ∧
    (State.served s port).tiu = s.tiu ∧
    (State.served s port).sht = s.sht ∧
    (State.served s port).acq = s.acq ∧
    (State.served s port).phs = s.phs ∧
    (State.served s port).evt = s.evt ∧
    (State.served s port).alarms = s.alarms ∧
    (State.served s port).dts = s.dts ∧
    (State.served s port).sup = s.sup ∧
    (State.served s port).permits = s.permits ∧
    (State.served s port).als = s.als ∧
    (State.served s port).plk = s.plk ∧
    (State.served s port).lanes = s.lanes ∧
    (State.served s port).mgmt = s.mgmt ∧
    (State.served s port).trigLevel = s.trigLevel ∧
    (State.served s port).opt = s.opt := by
  simp [State.served]

@[simp] theorem State.accessed_keeps (s : State) (port : Fin 4) (addr : Nat) :
    (State.accessed s port addr).permits.asserted = s.permits.asserted ∧
    (State.accessed s port addr).opt.ports = s.opt.ports ∧
    (State.accessed s port addr).flash.cells = s.flash.cells ∧
    (State.accessed s port addr).mem.cells = s.mem.cells ∧
    (State.accessed s port addr).hb.doms = s.hb.doms ∧
    (State.accessed s port addr).power = s.power ∧
    (State.accessed s port addr).cfg = s.cfg ∧
    (State.accessed s port addr).tim = s.tim ∧
    (State.accessed s port addr).pnl = s.pnl ∧
    (State.accessed s port addr).mbx = s.mbx ∧
    (State.accessed s port addr).hb.bothFailed = s.hb.bothFailed ∧
    (State.accessed s port addr).pending = s.pending ∧
    (State.accessed s port addr).now = s.now ∧
    (State.accessed s port addr).tiu = s.tiu ∧
    (State.accessed s port addr).sht = s.sht ∧
    (State.accessed s port addr).acq = s.acq ∧
    (State.accessed s port addr).phs = s.phs ∧
    (State.accessed s port addr).evt = s.evt ∧
    (State.accessed s port addr).alarms = s.alarms ∧
    (State.accessed s port addr).dts = s.dts ∧
    (State.accessed s port addr).sup = s.sup ∧
    (State.accessed s port addr).permits = s.permits ∧
    (State.accessed s port addr).als = s.als ∧
    (State.accessed s port addr).plk = s.plk ∧
    (State.accessed s port addr).lanes = s.lanes ∧
    (State.accessed s port addr).mgmt = s.mgmt ∧
    (State.accessed s port addr).trigLevel = s.trigLevel ∧
    (State.accessed s port addr).opt = s.opt := by
  simp [State.accessed]

@[simp] theorem State.serveRt_keeps (s : State) :
    (State.serveRt s).permits.asserted = s.permits.asserted ∧
    (State.serveRt s).opt.ports = s.opt.ports ∧
    (State.serveRt s).flash.cells = s.flash.cells ∧
    (State.serveRt s).hb.doms = s.hb.doms ∧
    (State.serveRt s).power = s.power ∧
    (State.serveRt s).cfg = s.cfg ∧
    (State.serveRt s).tim = s.tim ∧
    (State.serveRt s).pnl = s.pnl ∧
    (State.serveRt s).mbx = s.mbx ∧
    (State.serveRt s).hb.bothFailed = s.hb.bothFailed ∧
    (State.serveRt s).pending = s.pending ∧
    (State.serveRt s).now = s.now ∧
    (State.serveRt s).tiu = s.tiu ∧
    (State.serveRt s).sht = s.sht ∧
    (State.serveRt s).acq = s.acq ∧
    (State.serveRt s).phs = s.phs ∧
    (State.serveRt s).evt = s.evt ∧
    (State.serveRt s).alarms = s.alarms ∧
    (State.serveRt s).dts = s.dts ∧
    (State.serveRt s).sup = s.sup ∧
    (State.serveRt s).permits = s.permits ∧
    (State.serveRt s).als = s.als ∧
    (State.serveRt s).plk = s.plk ∧
    (State.serveRt s).lanes = s.lanes ∧
    (State.serveRt s).mgmt = s.mgmt ∧
    (State.serveRt s).trigLevel = s.trigLevel ∧
    (State.serveRt s).opt = s.opt := by
  unfold State.serveRt
  (repeat' split) <;> simp

@[simp] theorem State.snapDone_keeps (s : State) :
    s.snapDone.permits.asserted = s.permits.asserted ∧
    s.snapDone.opt.ports = s.opt.ports ∧
    s.snapDone.flash.cells = s.flash.cells ∧
    s.snapDone.mem.cells = s.mem.cells ∧
    s.snapDone.hb.doms = s.hb.doms := by
  unfold State.snapDone
  split
  · exact ⟨rfl, rfl, rfl, rfl, rfl⟩
  · dsimp only
    split
    · exact Keeps.trans (keeps_foldl _ (fun s r => keeps_ite (keeps_foldl _ (fun _ _ => by simp [Keeps]) _ _) ⟨rfl, rfl, rfl, rfl, rfl⟩) _ _) (by simp [Keeps])
    · simp

@[simp] theorem State.snapDone_still (s : State) :
    s.snapDone.power = s.power ∧
    s.snapDone.cfg = s.cfg ∧
    s.snapDone.tim = s.tim ∧
    s.snapDone.pnl = s.pnl ∧
    s.snapDone.mbx = s.mbx ∧
    s.snapDone.hb.bothFailed = s.hb.bothFailed ∧
    s.snapDone.pending = s.pending ∧
    s.snapDone.now = s.now := by
  unfold State.snapDone
  split
  · exact ⟨rfl, rfl, rfl, rfl, rfl, rfl, rfl, rfl⟩
  · dsimp only
    split
    · exact Still.trans (still_foldl _ (fun s r => still_ite (still_foldl _ (fun _ _ => by simp [Still]) _ _) ⟨rfl, rfl, rfl, rfl, rfl, rfl, rfl, rfl⟩) _ _) (by simp [Still])
    · simp

theorem State.snapDone_same (s : State) :
    Same (fun s => (s.tiu, s.sht, s.acq, s.phs, s.evt, s.alarms, s.dts, s.sup, s.permits, s.als, s.plk, s.lanes, s.mgmt, s.trigLevel, s.opt)) s.snapDone s := by
  unfold State.snapDone
  split
  · exact rfl
  · dsimp only
    split
    · exact Same.trans (same_foldl _ (fun s r => same_ite (same_foldl _ (fun _ _ => by simp [Same]) _ _) rfl) _ _) (by simp [Same])
    · simp [Same]

@[simp] theorem State.snapDone_blocks (s : State) :
    (State.snapDone s).tiu = s.tiu ∧
    (State.snapDone s).sht = s.sht ∧
    (State.snapDone s).acq = s.acq ∧
    (State.snapDone s).phs = s.phs ∧
    (State.snapDone s).evt = s.evt ∧
    (State.snapDone s).alarms = s.alarms ∧
    (State.snapDone s).dts = s.dts ∧
    (State.snapDone s).sup = s.sup ∧
    (State.snapDone s).permits = s.permits ∧
    (State.snapDone s).als = s.als ∧
    (State.snapDone s).plk = s.plk ∧
    (State.snapDone s).lanes = s.lanes ∧
    (State.snapDone s).mgmt = s.mgmt ∧
    (State.snapDone s).trigLevel = s.trigLevel ∧
    (State.snapDone s).opt = s.opt := by
  simpa [Same] using State.snapDone_same s

@[simp] theorem State.serveSnap_keeps (s : State) (corrected : Nat) :
    (State.serveSnap s corrected).permits.asserted = s.permits.asserted ∧
    (State.serveSnap s corrected).opt.ports = s.opt.ports ∧
    (State.serveSnap s corrected).flash.cells = s.flash.cells ∧
    (State.serveSnap s corrected).hb.doms = s.hb.doms ∧
    (State.serveSnap s corrected).power = s.power ∧
    (State.serveSnap s corrected).cfg = s.cfg ∧
    (State.serveSnap s corrected).tim = s.tim ∧
    (State.serveSnap s corrected).pnl = s.pnl ∧
    (State.serveSnap s corrected).mbx = s.mbx ∧
    (State.serveSnap s corrected).hb.bothFailed = s.hb.bothFailed ∧
    (State.serveSnap s corrected).pending = s.pending ∧
    (State.serveSnap s corrected).now = s.now ∧
    (State.serveSnap s corrected).tiu = s.tiu ∧
    (State.serveSnap s corrected).sht = s.sht ∧
    (State.serveSnap s corrected).acq = s.acq ∧
    (State.serveSnap s corrected).phs = s.phs ∧
    (State.serveSnap s corrected).evt = s.evt ∧
    (State.serveSnap s corrected).alarms = s.alarms ∧
    (State.serveSnap s corrected).dts = s.dts ∧
    (State.serveSnap s corrected).sup = s.sup ∧
    (State.serveSnap s corrected).permits = s.permits ∧
    (State.serveSnap s corrected).als = s.als ∧
    (State.serveSnap s corrected).plk = s.plk ∧
    (State.serveSnap s corrected).lanes = s.lanes ∧
    (State.serveSnap s corrected).mgmt = s.mgmt ∧
    (State.serveSnap s corrected).trigLevel = s.trigLevel ∧
    (State.serveSnap s corrected).opt = s.opt := by
  unfold State.serveSnap
  (repeat' split) <;> simp

@[simp] theorem State.completeHost_keeps (s : State) (h : HostRead) :
    (State.completeHost s h).permits.asserted = s.permits.asserted ∧
    (State.completeHost s h).opt.ports = s.opt.ports ∧
    (State.completeHost s h).flash.cells = s.flash.cells ∧
    (State.completeHost s h).mem.cells = s.mem.cells ∧
    (State.completeHost s h).hb.doms = s.hb.doms ∧
    (State.completeHost s h).power = s.power ∧
    (State.completeHost s h).cfg = s.cfg ∧
    (State.completeHost s h).tim = s.tim ∧
    (State.completeHost s h).pnl = s.pnl ∧
    (State.completeHost s h).mbx = s.mbx ∧
    (State.completeHost s h).hb.bothFailed = s.hb.bothFailed ∧
    (State.completeHost s h).pending = s.pending ∧
    (State.completeHost s h).now = s.now ∧
    (State.completeHost s h).tiu = s.tiu ∧
    (State.completeHost s h).sht = s.sht ∧
    (State.completeHost s h).acq = s.acq ∧
    (State.completeHost s h).phs = s.phs ∧
    (State.completeHost s h).evt = s.evt ∧
    (State.completeHost s h).alarms = s.alarms ∧
    (State.completeHost s h).dts = s.dts ∧
    (State.completeHost s h).sup = s.sup ∧
    (State.completeHost s h).permits = s.permits ∧
    (State.completeHost s h).als = s.als ∧
    (State.completeHost s h).plk = s.plk ∧
    (State.completeHost s h).lanes = s.lanes ∧
    (State.completeHost s h).mgmt = s.mgmt ∧
    (State.completeHost s h).trigLevel = s.trigLevel ∧
    (State.completeHost s h).opt = s.opt := by
  simp [State.completeHost]

@[simp] theorem State.serveHost_keeps (s : State) (a : AccessMeet) :
    (State.serveHost s a).permits.asserted = s.permits.asserted ∧
    (State.serveHost s a).opt.ports = s.opt.ports ∧
    (State.serveHost s a).flash.cells = s.flash.cells ∧
    (State.serveHost s a).mem.cells = s.mem.cells ∧
    (State.serveHost s a).hb.doms = s.hb.doms ∧
    (State.serveHost s a).power = s.power ∧
    (State.serveHost s a).cfg = s.cfg ∧
    (State.serveHost s a).tim = s.tim ∧
    (State.serveHost s a).pnl = s.pnl ∧
    (State.serveHost s a).mbx = s.mbx ∧
    (State.serveHost s a).hb.bothFailed = s.hb.bothFailed ∧
    (State.serveHost s a).pending = s.pending ∧
    (State.serveHost s a).now = s.now ∧
    (State.serveHost s a).tiu = s.tiu ∧
    (State.serveHost s a).sht = s.sht ∧
    (State.serveHost s a).acq = s.acq ∧
    (State.serveHost s a).phs = s.phs ∧
    (State.serveHost s a).evt = s.evt ∧
    (State.serveHost s a).alarms = s.alarms ∧
    (State.serveHost s a).dts = s.dts ∧
    (State.serveHost s a).sup = s.sup ∧
    (State.serveHost s a).permits = s.permits ∧
    (State.serveHost s a).als = s.als ∧
    (State.serveHost s a).plk = s.plk ∧
    (State.serveHost s a).lanes = s.lanes ∧
    (State.serveHost s a).mgmt = s.mgmt ∧
    (State.serveHost s a).trigLevel = s.trigLevel ∧
    (State.serveHost s a).opt = s.opt := by
  unfold State.serveHost
  (repeat' split) <;> simp

@[simp] theorem State.serveScrub_keeps (s : State) (a : AccessMeet) :
    (State.serveScrub s a).permits.asserted = s.permits.asserted ∧
    (State.serveScrub s a).opt.ports = s.opt.ports ∧
    (State.serveScrub s a).flash.cells = s.flash.cells ∧
    (State.serveScrub s a).mem.cells = s.mem.cells ∧
    (State.serveScrub s a).hb.doms = s.hb.doms ∧
    (State.serveScrub s a).power = s.power ∧
    (State.serveScrub s a).cfg = s.cfg ∧
    (State.serveScrub s a).tim = s.tim ∧
    (State.serveScrub s a).pnl = s.pnl ∧
    (State.serveScrub s a).mbx = s.mbx ∧
    (State.serveScrub s a).hb.bothFailed = s.hb.bothFailed ∧
    (State.serveScrub s a).pending = s.pending ∧
    (State.serveScrub s a).now = s.now ∧
    (State.serveScrub s a).tiu = s.tiu ∧
    (State.serveScrub s a).sht = s.sht ∧
    (State.serveScrub s a).acq = s.acq ∧
    (State.serveScrub s a).phs = s.phs ∧
    (State.serveScrub s a).evt = s.evt ∧
    (State.serveScrub s a).alarms = s.alarms ∧
    (State.serveScrub s a).dts = s.dts ∧
    (State.serveScrub s a).sup = s.sup ∧
    (State.serveScrub s a).permits = s.permits ∧
    (State.serveScrub s a).als = s.als ∧
    (State.serveScrub s a).plk = s.plk ∧
    (State.serveScrub s a).lanes = s.lanes ∧
    (State.serveScrub s a).mgmt = s.mgmt ∧
    (State.serveScrub s a).trigLevel = s.trigLevel ∧
    (State.serveScrub s a).opt = s.opt := by
  unfold State.serveScrub
  (repeat' split) <;> simp

@[simp] theorem State.statusRead_keeps (s : State) (path : AccessPath) (offset length : Nat) :
    (State.statusRead s path offset length).2.permits.asserted = s.permits.asserted ∧
    (State.statusRead s path offset length).2.opt.ports = s.opt.ports ∧
    (State.statusRead s path offset length).2.flash.cells = s.flash.cells ∧
    (State.statusRead s path offset length).2.mem.cells = s.mem.cells ∧
    (State.statusRead s path offset length).2.hb.doms = s.hb.doms ∧
    (State.statusRead s path offset length).2.power = s.power ∧
    (State.statusRead s path offset length).2.cfg = s.cfg ∧
    (State.statusRead s path offset length).2.tim = s.tim ∧
    (State.statusRead s path offset length).2.pnl = s.pnl ∧
    (State.statusRead s path offset length).2.mbx = s.mbx ∧
    (State.statusRead s path offset length).2.hb.bothFailed = s.hb.bothFailed ∧
    (State.statusRead s path offset length).2.pending = s.pending ∧
    (State.statusRead s path offset length).2.now = s.now ∧
    (State.statusRead s path offset length).2.tiu = s.tiu ∧
    (State.statusRead s path offset length).2.sht = s.sht ∧
    (State.statusRead s path offset length).2.acq = s.acq ∧
    (State.statusRead s path offset length).2.phs = s.phs ∧
    (State.statusRead s path offset length).2.evt = s.evt ∧
    (State.statusRead s path offset length).2.alarms = s.alarms ∧
    (State.statusRead s path offset length).2.dts = s.dts ∧
    (State.statusRead s path offset length).2.sup = s.sup ∧
    (State.statusRead s path offset length).2.permits = s.permits ∧
    (State.statusRead s path offset length).2.als = s.als ∧
    (State.statusRead s path offset length).2.plk = s.plk ∧
    (State.statusRead s path offset length).2.lanes = s.lanes ∧
    (State.statusRead s path offset length).2.mgmt = s.mgmt ∧
    (State.statusRead s path offset length).2.trigLevel = s.trigLevel ∧
    (State.statusRead s path offset length).2.opt = s.opt := by
  simp [State.statusRead]

@[simp] theorem State.laserFault_keeps (s : State) :
    (State.laserFault s).permits.asserted = s.permits.asserted ∧
    (State.laserFault s).flash.cells = s.flash.cells ∧
    (State.laserFault s).mem.cells = s.mem.cells ∧
    (State.laserFault s).hb.doms = s.hb.doms ∧
    (State.laserFault s).power = s.power ∧
    (State.laserFault s).cfg = s.cfg ∧
    (State.laserFault s).tim = s.tim ∧
    (State.laserFault s).pnl = s.pnl ∧
    (State.laserFault s).mbx = s.mbx ∧
    (State.laserFault s).hb.bothFailed = s.hb.bothFailed ∧
    (State.laserFault s).pending = s.pending ∧
    (State.laserFault s).now = s.now ∧
    (State.laserFault s).tiu = s.tiu ∧
    (State.laserFault s).phs = s.phs ∧
    (State.laserFault s).evt = s.evt ∧
    (State.laserFault s).alarms = s.alarms ∧
    (State.laserFault s).sup = s.sup ∧
    (State.laserFault s).permits = s.permits ∧
    (State.laserFault s).als = s.als ∧
    (State.laserFault s).plk = s.plk ∧
    (State.laserFault s).lanes = s.lanes ∧
    (State.laserFault s).mgmt = s.mgmt ∧
    (State.laserFault s).trigLevel = s.trigLevel := by
  simp [State.laserFault]

@[simp] theorem State.acqFence_keeps (s : State) (p : Port) :
    (State.acqFence s p).permits.asserted = s.permits.asserted ∧
    (State.acqFence s p).opt.ports = s.opt.ports ∧
    (State.acqFence s p).flash.cells = s.flash.cells ∧
    (State.acqFence s p).mem.cells = s.mem.cells ∧
    (State.acqFence s p).hb.doms = s.hb.doms ∧
    (State.acqFence s p).power = s.power ∧
    (State.acqFence s p).cfg = s.cfg ∧
    (State.acqFence s p).tim = s.tim ∧
    (State.acqFence s p).pnl = s.pnl ∧
    (State.acqFence s p).mbx = s.mbx ∧
    (State.acqFence s p).hb.bothFailed = s.hb.bothFailed ∧
    (State.acqFence s p).pending = s.pending ∧
    (State.acqFence s p).now = s.now ∧
    (State.acqFence s p).tiu = s.tiu ∧
    (State.acqFence s p).phs = s.phs ∧
    (State.acqFence s p).evt = s.evt ∧
    (State.acqFence s p).alarms = s.alarms ∧
    (State.acqFence s p).dts = s.dts ∧
    (State.acqFence s p).sup = s.sup ∧
    (State.acqFence s p).permits = s.permits ∧
    (State.acqFence s p).als = s.als ∧
    (State.acqFence s p).plk = s.plk ∧
    (State.acqFence s p).lanes = s.lanes ∧
    (State.acqFence s p).mgmt = s.mgmt ∧
    (State.acqFence s p).trigLevel = s.trigLevel ∧
    (State.acqFence s p).opt = s.opt := by
  simp [State.acqFence]

@[simp] theorem State.stopAcquire_keeps (s : State) :
    (State.stopAcquire s).permits.asserted = s.permits.asserted ∧
    (State.stopAcquire s).opt.ports = s.opt.ports ∧
    (State.stopAcquire s).flash.cells = s.flash.cells ∧
    (State.stopAcquire s).mem.cells = s.mem.cells ∧
    (State.stopAcquire s).hb.doms = s.hb.doms ∧
    (State.stopAcquire s).power = s.power ∧
    (State.stopAcquire s).cfg = s.cfg ∧
    (State.stopAcquire s).pnl = s.pnl ∧
    (State.stopAcquire s).mbx = s.mbx ∧
    (State.stopAcquire s).hb.bothFailed = s.hb.bothFailed ∧
    (State.stopAcquire s).pending = s.pending ∧
    (State.stopAcquire s).now = s.now ∧
    (State.stopAcquire s).tiu = s.tiu ∧
    (State.stopAcquire s).sht = s.sht ∧
    (State.stopAcquire s).acq = s.acq ∧
    (State.stopAcquire s).phs = s.phs ∧
    (State.stopAcquire s).evt = s.evt ∧
    (State.stopAcquire s).alarms = s.alarms ∧
    (State.stopAcquire s).dts = s.dts ∧
    (State.stopAcquire s).sup = s.sup ∧
    (State.stopAcquire s).permits = s.permits ∧
    (State.stopAcquire s).als = s.als ∧
    (State.stopAcquire s).plk = s.plk ∧
    (State.stopAcquire s).lanes = s.lanes ∧
    (State.stopAcquire s).mgmt = s.mgmt ∧
    (State.stopAcquire s).trigLevel = s.trigLevel ∧
    (State.stopAcquire s).opt = s.opt := by
  simp [State.stopAcquire]

@[simp] theorem State.ramanOff_keeps (s : State) :
    (State.ramanOff s).permits.asserted = s.permits.asserted ∧
    (State.ramanOff s).opt.ports = s.opt.ports ∧
    (State.ramanOff s).flash.cells = s.flash.cells ∧
    (State.ramanOff s).mem.cells = s.mem.cells ∧
    (State.ramanOff s).hb.doms = s.hb.doms ∧
    (State.ramanOff s).power = s.power ∧
    (State.ramanOff s).cfg = s.cfg ∧
    (State.ramanOff s).tim = s.tim ∧
    (State.ramanOff s).pnl = s.pnl ∧
    (State.ramanOff s).mbx = s.mbx ∧
    (State.ramanOff s).hb.bothFailed = s.hb.bothFailed ∧
    (State.ramanOff s).pending = s.pending ∧
    (State.ramanOff s).now = s.now ∧
    (State.ramanOff s).tiu = s.tiu ∧
    (State.ramanOff s).phs = s.phs ∧
    (State.ramanOff s).evt = s.evt ∧
    (State.ramanOff s).alarms = s.alarms ∧
    (State.ramanOff s).sup = s.sup ∧
    (State.ramanOff s).permits = s.permits ∧
    (State.ramanOff s).als = s.als ∧
    (State.ramanOff s).plk = s.plk ∧
    (State.ramanOff s).lanes = s.lanes ∧
    (State.ramanOff s).mgmt = s.mgmt ∧
    (State.ramanOff s).trigLevel = s.trigLevel ∧
    (State.ramanOff s).opt = s.opt := by
  simp [State.ramanOff]

@[simp] theorem State.evtFence_keeps (s : State) :
    (State.evtFence s).permits.asserted = s.permits.asserted ∧
    (State.evtFence s).flash.cells = s.flash.cells ∧
    (State.evtFence s).mem.cells = s.mem.cells ∧
    (State.evtFence s).hb.doms = s.hb.doms ∧
    (State.evtFence s).power = s.power ∧
    (State.evtFence s).cfg = s.cfg ∧
    (State.evtFence s).tim = s.tim ∧
    (State.evtFence s).pnl = s.pnl ∧
    (State.evtFence s).mbx = s.mbx ∧
    (State.evtFence s).hb.bothFailed = s.hb.bothFailed ∧
    (State.evtFence s).pending = s.pending ∧
    (State.evtFence s).now = s.now ∧
    (State.evtFence s).tiu = s.tiu ∧
    (State.evtFence s).phs = s.phs ∧
    (State.evtFence s).sup = s.sup ∧
    (State.evtFence s).permits = s.permits ∧
    (State.evtFence s).plk = s.plk ∧
    (State.evtFence s).lanes = s.lanes ∧
    (State.evtFence s).mgmt = s.mgmt ∧
    (State.evtFence s).trigLevel = s.trigLevel := by
  simp [State.evtFence]

@[simp] theorem State.coderFence_keeps (s : State) :
    (State.coderFence s).permits.asserted = s.permits.asserted ∧
    (State.coderFence s).opt.ports = s.opt.ports ∧
    (State.coderFence s).flash.cells = s.flash.cells ∧
    (State.coderFence s).mem.cells = s.mem.cells ∧
    (State.coderFence s).hb.doms = s.hb.doms ∧
    (State.coderFence s).power = s.power ∧
    (State.coderFence s).cfg = s.cfg ∧
    (State.coderFence s).tim = s.tim ∧
    (State.coderFence s).pnl = s.pnl ∧
    (State.coderFence s).mbx = s.mbx ∧
    (State.coderFence s).hb.bothFailed = s.hb.bothFailed ∧
    (State.coderFence s).pending = s.pending ∧
    (State.coderFence s).now = s.now ∧
    (State.coderFence s).tiu = s.tiu ∧
    (State.coderFence s).sht = s.sht ∧
    (State.coderFence s).acq = s.acq ∧
    (State.coderFence s).phs = s.phs ∧
    (State.coderFence s).evt = s.evt ∧
    (State.coderFence s).alarms = s.alarms ∧
    (State.coderFence s).dts = s.dts ∧
    (State.coderFence s).sup = s.sup ∧
    (State.coderFence s).permits = s.permits ∧
    (State.coderFence s).als = s.als ∧
    (State.coderFence s).plk = s.plk ∧
    (State.coderFence s).lanes = s.lanes ∧
    (State.coderFence s).mgmt = s.mgmt ∧
    (State.coderFence s).trigLevel = s.trigLevel ∧
    (State.coderFence s).opt = s.opt := by
  simp [State.coderFence]

@[simp] theorem State.endHostReads_keeps (s : State) :
    (State.endHostReads s).permits.asserted = s.permits.asserted ∧
    (State.endHostReads s).opt.ports = s.opt.ports ∧
    (State.endHostReads s).flash.cells = s.flash.cells ∧
    (State.endHostReads s).mem.cells = s.mem.cells ∧
    (State.endHostReads s).hb.doms = s.hb.doms ∧
    (State.endHostReads s).power = s.power ∧
    (State.endHostReads s).cfg = s.cfg ∧
    (State.endHostReads s).tim = s.tim ∧
    (State.endHostReads s).pnl = s.pnl ∧
    (State.endHostReads s).mbx = s.mbx ∧
    (State.endHostReads s).hb.bothFailed = s.hb.bothFailed ∧
    (State.endHostReads s).pending = s.pending ∧
    (State.endHostReads s).now = s.now ∧
    (State.endHostReads s).tiu = s.tiu ∧
    (State.endHostReads s).sht = s.sht ∧
    (State.endHostReads s).acq = s.acq ∧
    (State.endHostReads s).phs = s.phs ∧
    (State.endHostReads s).evt = s.evt ∧
    (State.endHostReads s).alarms = s.alarms ∧
    (State.endHostReads s).dts = s.dts ∧
    (State.endHostReads s).sup = s.sup ∧
    (State.endHostReads s).permits = s.permits ∧
    (State.endHostReads s).als = s.als ∧
    (State.endHostReads s).plk = s.plk ∧
    (State.endHostReads s).lanes = s.lanes ∧
    (State.endHostReads s).mgmt = s.mgmt ∧
    (State.endHostReads s).trigLevel = s.trigLevel ∧
    (State.endHostReads s).opt = s.opt := by
  simp [State.endHostReads]

@[simp] theorem State.memFence_keeps (s : State) :
    (State.memFence s).permits.asserted = s.permits.asserted ∧
    (State.memFence s).opt.ports = s.opt.ports ∧
    (State.memFence s).flash.cells = s.flash.cells ∧
    (State.memFence s).mem.cells = s.mem.cells ∧
    (State.memFence s).hb.doms = s.hb.doms ∧
    (State.memFence s).power = s.power ∧
    (State.memFence s).cfg = s.cfg ∧
    (State.memFence s).tim = s.tim ∧
    (State.memFence s).pnl = s.pnl ∧
    (State.memFence s).mbx = s.mbx ∧
    (State.memFence s).hb.bothFailed = s.hb.bothFailed ∧
    (State.memFence s).pending = s.pending ∧
    (State.memFence s).now = s.now ∧
    (State.memFence s).tiu = s.tiu ∧
    (State.memFence s).sht = s.sht ∧
    (State.memFence s).acq = s.acq ∧
    (State.memFence s).phs = s.phs ∧
    (State.memFence s).evt = s.evt ∧
    (State.memFence s).alarms = s.alarms ∧
    (State.memFence s).dts = s.dts ∧
    (State.memFence s).sup = s.sup ∧
    (State.memFence s).permits = s.permits ∧
    (State.memFence s).als = s.als ∧
    (State.memFence s).plk = s.plk ∧
    (State.memFence s).lanes = s.lanes ∧
    (State.memFence s).mgmt = s.mgmt ∧
    (State.memFence s).trigLevel = s.trigLevel ∧
    (State.memFence s).opt = s.opt := by
  simp [State.memFence]

@[simp] theorem State.pcieFence_keeps (s : State) :
    (State.pcieFence s).permits.asserted = s.permits.asserted ∧
    (State.pcieFence s).opt.ports = s.opt.ports ∧
    (State.pcieFence s).mem.cells = s.mem.cells ∧
    (State.pcieFence s).hb.doms = s.hb.doms ∧
    (State.pcieFence s).power = s.power ∧
    (State.pcieFence s).tim = s.tim ∧
    (State.pcieFence s).pnl = s.pnl ∧
    (State.pcieFence s).hb.bothFailed = s.hb.bothFailed ∧
    (State.pcieFence s).pending = s.pending ∧
    (State.pcieFence s).now = s.now ∧
    (State.pcieFence s).tiu = s.tiu ∧
    (State.pcieFence s).sht = s.sht ∧
    (State.pcieFence s).acq = s.acq ∧
    (State.pcieFence s).phs = s.phs ∧
    (State.pcieFence s).evt = s.evt ∧
    (State.pcieFence s).alarms = s.alarms ∧
    (State.pcieFence s).dts = s.dts ∧
    (State.pcieFence s).sup = s.sup ∧
    (State.pcieFence s).permits = s.permits ∧
    (State.pcieFence s).als = s.als ∧
    (State.pcieFence s).lanes = s.lanes ∧
    (State.pcieFence s).mgmt = s.mgmt ∧
    (State.pcieFence s).trigLevel = s.trigLevel ∧
    (State.pcieFence s).opt = s.opt := by
  simp [State.pcieFence]

@[simp] theorem State.panelFence_keeps (s : State) :
    (State.panelFence s).permits.asserted = s.permits.asserted ∧
    (State.panelFence s).flash.cells = s.flash.cells ∧
    (State.panelFence s).mem.cells = s.mem.cells ∧
    (State.panelFence s).hb.doms = s.hb.doms ∧
    (State.panelFence s).power = s.power ∧
    (State.panelFence s).cfg = s.cfg ∧
    (State.panelFence s).tim = s.tim ∧
    (State.panelFence s).mbx = s.mbx ∧
    (State.panelFence s).hb.bothFailed = s.hb.bothFailed ∧
    (State.panelFence s).pending = s.pending ∧
    (State.panelFence s).now = s.now ∧
    (State.panelFence s).tiu = s.tiu ∧
    (State.panelFence s).phs = s.phs ∧
    (State.panelFence s).evt = s.evt ∧
    (State.panelFence s).alarms = s.alarms ∧
    (State.panelFence s).sup = s.sup ∧
    (State.panelFence s).permits = s.permits ∧
    (State.panelFence s).plk = s.plk ∧
    (State.panelFence s).lanes = s.lanes ∧
    (State.panelFence s).mgmt = s.mgmt ∧
    (State.panelFence s).trigLevel = s.trigLevel := by
  simp [State.panelFence]

@[simp] theorem State.boundary_keeps (s : State) (d : Domain) :
    (State.boundary s d).permits.asserted = s.permits.asserted ∧
    (State.boundary s d).mem.cells = s.mem.cells ∧
    (State.boundary s d).hb.doms = s.hb.doms ∧
    (State.boundary s d).power = s.power ∧
    (State.boundary s d).hb.bothFailed = s.hb.bothFailed ∧
    (State.boundary s d).pending = s.pending ∧
    (State.boundary s d).now = s.now ∧
    (State.boundary s d).tiu = s.tiu ∧
    (State.boundary s d).phs = s.phs ∧
    (State.boundary s d).permits = s.permits ∧
    (State.boundary s d).mgmt = s.mgmt ∧
    (State.boundary s d).trigLevel = s.trigLevel := by
  refine ⟨?_, ?_, ?_, ?_, ?_, ?_, ?_, ?_, ?_, ?_, ?_, ?_⟩ <;>
    (unfold State.boundary; split <;> first | (simp [bothPorts]; done) | rfl)

@[simp] theorem State.makePermanent_keeps (s : State) (d : Domain) :
    (State.makePermanent s d).permits.asserted = s.permits.asserted ∧
    (State.makePermanent s d).opt.ports = s.opt.ports ∧
    (State.makePermanent s d).flash.cells = s.flash.cells ∧
    (State.makePermanent s d).mem.cells = s.mem.cells ∧
    (State.makePermanent s d).power = s.power ∧
    (State.makePermanent s d).cfg = s.cfg ∧
    (State.makePermanent s d).tim = s.tim ∧
    (State.makePermanent s d).pnl = s.pnl ∧
    (State.makePermanent s d).mbx = s.mbx ∧
    (State.makePermanent s d).hb.bothFailed = s.hb.bothFailed ∧
    (State.makePermanent s d).pending = s.pending ∧
    (State.makePermanent s d).now = s.now ∧
    (State.makePermanent s d).tiu = s.tiu ∧
    (State.makePermanent s d).sht = s.sht ∧
    (State.makePermanent s d).acq = s.acq ∧
    (State.makePermanent s d).phs = s.phs ∧
    (State.makePermanent s d).evt = s.evt ∧
    (State.makePermanent s d).alarms = s.alarms ∧
    (State.makePermanent s d).dts = s.dts ∧
    (State.makePermanent s d).sup = s.sup ∧
    (State.makePermanent s d).permits = s.permits ∧
    (State.makePermanent s d).als = s.als ∧
    (State.makePermanent s d).plk = s.plk ∧
    (State.makePermanent s d).lanes = s.lanes ∧
    (State.makePermanent s d).mgmt = s.mgmt ∧
    (State.makePermanent s d).trigLevel = s.trigLevel ∧
    (State.makePermanent s d).opt = s.opt := by
  simp [State.makePermanent]

@[simp] theorem State.scheduleRecovery_keeps (s : State) (d : Domain) :
    (State.scheduleRecovery s d).permits.asserted = s.permits.asserted ∧
    (State.scheduleRecovery s d).mem.cells = s.mem.cells ∧
    (State.scheduleRecovery s d).power = s.power ∧
    (State.scheduleRecovery s d).hb.bothFailed = s.hb.bothFailed ∧
    (State.scheduleRecovery s d).pending = s.pending ∧
    (State.scheduleRecovery s d).now = s.now ∧
    (State.scheduleRecovery s d).tiu = s.tiu ∧
    (State.scheduleRecovery s d).phs = s.phs ∧
    (State.scheduleRecovery s d).permits = s.permits ∧
    (State.scheduleRecovery s d).mgmt = s.mgmt ∧
    (State.scheduleRecovery s d).trigLevel = s.trigLevel := by
  simp [State.scheduleRecovery]

@[simp] theorem State.handleReport_keeps (mask : Nat) (s : State) (f : FaultRep) :
    (State.handleReport mask s f).permits.asserted = s.permits.asserted ∧
    (State.handleReport mask s f).mem.cells = s.mem.cells ∧
    (State.handleReport mask s f).power = s.power ∧
    (State.handleReport mask s f).hb.bothFailed = s.hb.bothFailed ∧
    (State.handleReport mask s f).pending = s.pending ∧
    (State.handleReport mask s f).now = s.now ∧
    (State.handleReport mask s f).tiu = s.tiu ∧
    (State.handleReport mask s f).phs = s.phs ∧
    (State.handleReport mask s f).permits = s.permits ∧
    (State.handleReport mask s f).mgmt = s.mgmt ∧
    (State.handleReport mask s f).trigLevel = s.trigLevel := by
  simp only [State.handleReport]
  (repeat' split) <;> simp

@[simp] theorem State.hbNotice_keeps (s : State) :
    (State.hbNotice s).permits.asserted = s.permits.asserted ∧
    (State.hbNotice s).opt.ports = s.opt.ports ∧
    (State.hbNotice s).flash.cells = s.flash.cells ∧
    (State.hbNotice s).mem.cells = s.mem.cells ∧
    (State.hbNotice s).hb.doms = s.hb.doms ∧
    (State.hbNotice s).power = s.power ∧
    (State.hbNotice s).cfg = s.cfg ∧
    (State.hbNotice s).tim = s.tim ∧
    (State.hbNotice s).pnl = s.pnl ∧
    (State.hbNotice s).mbx = s.mbx ∧
    (State.hbNotice s).hb.bothFailed = s.hb.bothFailed ∧
    (State.hbNotice s).pending = s.pending ∧
    (State.hbNotice s).now = s.now ∧
    (State.hbNotice s).tiu = s.tiu ∧
    (State.hbNotice s).sht = s.sht ∧
    (State.hbNotice s).acq = s.acq ∧
    (State.hbNotice s).phs = s.phs ∧
    (State.hbNotice s).alarms = s.alarms ∧
    (State.hbNotice s).dts = s.dts ∧
    (State.hbNotice s).sup = s.sup ∧
    (State.hbNotice s).permits = s.permits ∧
    (State.hbNotice s).als = s.als ∧
    (State.hbNotice s).plk = s.plk ∧
    (State.hbNotice s).lanes = s.lanes ∧
    (State.hbNotice s).mgmt = s.mgmt ∧
    (State.hbNotice s).trigLevel = s.trigLevel ∧
    (State.hbNotice s).opt = s.opt := by
  simp [State.hbNotice]

@[simp] theorem State.fence_keeps (s : State) (d : Domain) :
    (State.fence s d).permits.asserted = s.permits.asserted ∧
    (State.fence s d).mem.cells = s.mem.cells ∧
    (State.fence s d).power = s.power ∧
    (State.fence s d).hb.bothFailed = s.hb.bothFailed ∧
    (State.fence s d).pending = s.pending ∧
    (State.fence s d).now = s.now ∧
    (State.fence s d).tiu = s.tiu ∧
    (State.fence s d).phs = s.phs ∧
    (State.fence s d).permits = s.permits ∧
    (State.fence s d).mgmt = s.mgmt ∧
    (State.fence s d).trigLevel = s.trigLevel := by
  simp [State.fence]

@[simp] theorem State.hbReaches_keeps (s : State) (n : HbNotice) :
    (State.hbReaches s n).permits.asserted = s.permits.asserted ∧
    (State.hbReaches s n).mem.cells = s.mem.cells ∧
    (State.hbReaches s n).power = s.power ∧
    (State.hbReaches s n).hb.bothFailed = s.hb.bothFailed ∧
    (State.hbReaches s n).pending = s.pending ∧
    (State.hbReaches s n).now = s.now ∧
    (State.hbReaches s n).tiu = s.tiu ∧
    (State.hbReaches s n).phs = s.phs ∧
    (State.hbReaches s n).permits = s.permits ∧
    (State.hbReaches s n).mgmt = s.mgmt ∧
    (State.hbReaches s n).trigLevel = s.trigLevel := by
  simp [State.hbReaches]

@[simp] theorem State.recoverBegin_keeps (s : State) (d : Domain) :
    (State.recoverBegin s d).permits.asserted = s.permits.asserted ∧
    (State.recoverBegin s d).opt.ports = s.opt.ports ∧
    (State.recoverBegin s d).flash.cells = s.flash.cells ∧
    (State.recoverBegin s d).mem.cells = s.mem.cells ∧
    (State.recoverBegin s d).hb.doms = s.hb.doms ∧
    (State.recoverBegin s d).power = s.power ∧
    (State.recoverBegin s d).cfg = s.cfg ∧
    (State.recoverBegin s d).pnl = s.pnl ∧
    (State.recoverBegin s d).mbx = s.mbx ∧
    (State.recoverBegin s d).hb.bothFailed = s.hb.bothFailed ∧
    (State.recoverBegin s d).pending = s.pending ∧
    (State.recoverBegin s d).now = s.now ∧
    (State.recoverBegin s d).tiu = s.tiu ∧
    (State.recoverBegin s d).sht = s.sht ∧
    (State.recoverBegin s d).acq = s.acq ∧
    (State.recoverBegin s d).phs = s.phs ∧
    (State.recoverBegin s d).evt = s.evt ∧
    (State.recoverBegin s d).alarms = s.alarms ∧
    (State.recoverBegin s d).sup = s.sup ∧
    (State.recoverBegin s d).permits = s.permits ∧
    (State.recoverBegin s d).als = s.als ∧
    (State.recoverBegin s d).plk = s.plk ∧
    (State.recoverBegin s d).lanes = s.lanes ∧
    (State.recoverBegin s d).mgmt = s.mgmt ∧
    (State.recoverBegin s d).trigLevel = s.trigLevel := by
  simp only [State.recoverBegin]
  (repeat' split) <;> simp

@[simp] theorem State.restartAttempts_keeps (s : State) :
    (State.restartAttempts s).permits.asserted = s.permits.asserted ∧
    (State.restartAttempts s).mem.cells = s.mem.cells ∧
    (State.restartAttempts s).power = s.power ∧
    (State.restartAttempts s).hb.bothFailed = s.hb.bothFailed ∧
    (State.restartAttempts s).pending = s.pending ∧
    (State.restartAttempts s).now = s.now ∧
    (State.restartAttempts s).tiu = s.tiu ∧
    (State.restartAttempts s).phs = s.phs ∧
    (State.restartAttempts s).permits = s.permits ∧
    (State.restartAttempts s).mgmt = s.mgmt ∧
    (State.restartAttempts s).trigLevel = s.trigLevel := by
  simp [State.restartAttempts]

@[simp] theorem State.ctlFailed_keeps (s : State) (c : Ctl) (reason : Nat) :
    (State.ctlFailed s c reason).permits.asserted = s.permits.asserted ∧
    (State.ctlFailed s c reason).mem.cells = s.mem.cells ∧
    (State.ctlFailed s c reason).power = s.power ∧
    (State.ctlFailed s c reason).hb.bothFailed = s.hb.bothFailed ∧
    (State.ctlFailed s c reason).pending = s.pending ∧
    (State.ctlFailed s c reason).now = s.now ∧
    (State.ctlFailed s c reason).tiu = s.tiu ∧
    (State.ctlFailed s c reason).phs = s.phs ∧
    (State.ctlFailed s c reason).permits = s.permits ∧
    (State.ctlFailed s c reason).mgmt = s.mgmt ∧
    (State.ctlFailed s c reason).trigLevel = s.trigLevel := by
  simp [State.ctlFailed]

@[simp] theorem State.launchRecover_keeps (s : State) (p : Port) :
    (State.launchRecover s p).permits.asserted = s.permits.asserted ∧
    (State.launchRecover s p).flash.cells = s.flash.cells ∧
    (State.launchRecover s p).mem.cells = s.mem.cells ∧
    (State.launchRecover s p).hb.doms = s.hb.doms ∧
    (State.launchRecover s p).power = s.power ∧
    (State.launchRecover s p).cfg = s.cfg ∧
    (State.launchRecover s p).tim = s.tim ∧
    (State.launchRecover s p).pnl = s.pnl ∧
    (State.launchRecover s p).mbx = s.mbx ∧
    (State.launchRecover s p).hb.bothFailed = s.hb.bothFailed ∧
    (State.launchRecover s p).pending = s.pending ∧
    (State.launchRecover s p).now = s.now ∧
    (State.launchRecover s p).tiu = s.tiu ∧
    (State.launchRecover s p).acq = s.acq ∧
    (State.launchRecover s p).phs = s.phs ∧
    (State.launchRecover s p).evt = s.evt ∧
    (State.launchRecover s p).alarms = s.alarms ∧
    (State.launchRecover s p).dts = s.dts ∧
    (State.launchRecover s p).sup = s.sup ∧
    (State.launchRecover s p).permits = s.permits ∧
    (State.launchRecover s p).als = s.als ∧
    (State.launchRecover s p).plk = s.plk ∧
    (State.launchRecover s p).lanes = s.lanes ∧
    (State.launchRecover s p).mgmt = s.mgmt ∧
    (State.launchRecover s p).trigLevel = s.trigLevel := by
  simp [State.launchRecover]

@[simp] theorem State.shtRecover_keeps (s : State) :
    s.shtRecover.permits.asserted = s.permits.asserted ∧
    s.shtRecover.opt.ports = s.opt.ports ∧
    s.shtRecover.flash.cells = s.flash.cells ∧
    s.shtRecover.mem.cells = s.mem.cells ∧
    s.shtRecover.hb.doms = s.hb.doms := by
  unfold State.shtRecover
  exact keeps_foldl _ (fun s p => by simp [Keeps]) _ _

@[simp] theorem State.shtRecover_still (s : State) :
    s.shtRecover.power = s.power ∧
    s.shtRecover.cfg = s.cfg ∧
    s.shtRecover.tim = s.tim ∧
    s.shtRecover.pnl = s.pnl ∧
    s.shtRecover.mbx = s.mbx ∧
    s.shtRecover.hb.bothFailed = s.hb.bothFailed ∧
    s.shtRecover.pending = s.pending ∧
    s.shtRecover.now = s.now := by
  unfold State.shtRecover
  exact still_foldl _ (fun s p => by simp [Still]) _ _

theorem State.shtRecover_same (s : State) :
    Same (fun s => (s.tiu, s.acq, s.phs, s.evt, s.alarms, s.dts, s.sup, s.permits, s.als, s.plk, s.lanes, s.mgmt, s.trigLevel, s.opt)) s.shtRecover s := by
  unfold State.shtRecover
  exact same_foldl _ (fun s p => by simp [Same]) _ _

@[simp] theorem State.shtRecover_blocks (s : State) :
    (State.shtRecover s).tiu = s.tiu ∧
    (State.shtRecover s).acq = s.acq ∧
    (State.shtRecover s).phs = s.phs ∧
    (State.shtRecover s).evt = s.evt ∧
    (State.shtRecover s).alarms = s.alarms ∧
    (State.shtRecover s).dts = s.dts ∧
    (State.shtRecover s).sup = s.sup ∧
    (State.shtRecover s).permits = s.permits ∧
    (State.shtRecover s).als = s.als ∧
    (State.shtRecover s).plk = s.plk ∧
    (State.shtRecover s).lanes = s.lanes ∧
    (State.shtRecover s).mgmt = s.mgmt ∧
    (State.shtRecover s).trigLevel = s.trigLevel ∧
    (State.shtRecover s).opt = s.opt := by
  simpa [Same] using State.shtRecover_same s

@[simp] theorem State.clearBaseline_keeps (s : State) (p : Port) :
    (State.clearBaseline s p).permits.asserted = s.permits.asserted ∧
    (State.clearBaseline s p).opt.ports = s.opt.ports ∧
    (State.clearBaseline s p).flash.cells = s.flash.cells ∧
    (State.clearBaseline s p).mem.cells = s.mem.cells ∧
    (State.clearBaseline s p).hb.doms = s.hb.doms ∧
    (State.clearBaseline s p).power = s.power ∧
    (State.clearBaseline s p).cfg = s.cfg ∧
    (State.clearBaseline s p).tim = s.tim ∧
    (State.clearBaseline s p).pnl = s.pnl ∧
    (State.clearBaseline s p).mbx = s.mbx ∧
    (State.clearBaseline s p).hb.bothFailed = s.hb.bothFailed ∧
    (State.clearBaseline s p).pending = s.pending ∧
    (State.clearBaseline s p).now = s.now ∧
    (State.clearBaseline s p).tiu = s.tiu ∧
    (State.clearBaseline s p).sht = s.sht ∧
    (State.clearBaseline s p).acq = s.acq ∧
    (State.clearBaseline s p).phs = s.phs ∧
    (State.clearBaseline s p).evt = s.evt ∧
    (State.clearBaseline s p).alarms = s.alarms ∧
    (State.clearBaseline s p).sup = s.sup ∧
    (State.clearBaseline s p).permits = s.permits ∧
    (State.clearBaseline s p).als = s.als ∧
    (State.clearBaseline s p).plk = s.plk ∧
    (State.clearBaseline s p).lanes = s.lanes ∧
    (State.clearBaseline s p).mgmt = s.mgmt ∧
    (State.clearBaseline s p).trigLevel = s.trigLevel ∧
    (State.clearBaseline s p).opt = s.opt := by
  simp [State.clearBaseline]

@[simp] theorem State.battRecover_keeps (s : State) (p : Port) :
    (State.battRecover s p).permits.asserted = s.permits.asserted ∧
    (State.battRecover s p).opt.ports = s.opt.ports ∧
    (State.battRecover s p).flash.cells = s.flash.cells ∧
    (State.battRecover s p).mem.cells = s.mem.cells ∧
    (State.battRecover s p).hb.doms = s.hb.doms ∧
    (State.battRecover s p).power = s.power ∧
    (State.battRecover s p).cfg = s.cfg ∧
    (State.battRecover s p).tim = s.tim ∧
    (State.battRecover s p).pnl = s.pnl ∧
    (State.battRecover s p).mbx = s.mbx ∧
    (State.battRecover s p).hb.bothFailed = s.hb.bothFailed ∧
    (State.battRecover s p).pending = s.pending ∧
    (State.battRecover s p).now = s.now ∧
    (State.battRecover s p).tiu = s.tiu ∧
    (State.battRecover s p).sht = s.sht ∧
    (State.battRecover s p).acq = s.acq ∧
    (State.battRecover s p).phs = s.phs ∧
    (State.battRecover s p).evt = s.evt ∧
    (State.battRecover s p).alarms = s.alarms ∧
    (State.battRecover s p).sup = s.sup ∧
    (State.battRecover s p).permits = s.permits ∧
    (State.battRecover s p).als = s.als ∧
    (State.battRecover s p).plk = s.plk ∧
    (State.battRecover s p).lanes = s.lanes ∧
    (State.battRecover s p).mgmt = s.mgmt ∧
    (State.battRecover s p).trigLevel = s.trigLevel ∧
    (State.battRecover s p).opt = s.opt := by
  simp [State.battRecover]

@[simp] theorem State.laneRecover_keeps (s : State) (l : Lane) :
    (State.laneRecover s l).permits.asserted = s.permits.asserted ∧
    (State.laneRecover s l).opt.ports = s.opt.ports ∧
    (State.laneRecover s l).flash.cells = s.flash.cells ∧
    (State.laneRecover s l).mem.cells = s.mem.cells ∧
    (State.laneRecover s l).hb.doms = s.hb.doms ∧
    (State.laneRecover s l).power = s.power ∧
    (State.laneRecover s l).cfg = s.cfg ∧
    (State.laneRecover s l).tim = s.tim ∧
    (State.laneRecover s l).pnl = s.pnl ∧
    (State.laneRecover s l).mbx = s.mbx ∧
    (State.laneRecover s l).hb.bothFailed = s.hb.bothFailed ∧
    (State.laneRecover s l).pending = s.pending ∧
    (State.laneRecover s l).now = s.now ∧
    (State.laneRecover s l).tiu = s.tiu ∧
    (State.laneRecover s l).sht = s.sht ∧
    (State.laneRecover s l).acq = s.acq ∧
    (State.laneRecover s l).phs = s.phs ∧
    (State.laneRecover s l).evt = s.evt ∧
    (State.laneRecover s l).alarms = s.alarms ∧
    (State.laneRecover s l).dts = s.dts ∧
    (State.laneRecover s l).sup = s.sup ∧
    (State.laneRecover s l).permits = s.permits ∧
    (State.laneRecover s l).als = s.als ∧
    (State.laneRecover s l).plk = s.plk ∧
    (State.laneRecover s l).mgmt = s.mgmt ∧
    (State.laneRecover s l).trigLevel = s.trigLevel ∧
    (State.laneRecover s l).opt = s.opt := by
  simp [State.laneRecover]

@[simp] theorem State.recovered_keeps (s : State) (d : Domain) :
    (s.recovered d).permits.asserted = s.permits.asserted ∧
    (s.recovered d).flash.cells = s.flash.cells ∧
    (s.recovered d).mem.cells = s.mem.cells ∧
    (s.recovered d).hb.doms = s.hb.doms := by
  unfold State.recovered
  split <;> first | (simp; done) | exact ⟨rfl, rfl, rfl, rfl⟩

@[simp] theorem State.recovered_still (s : State) (d : Domain) :
    (s.recovered d).power = s.power ∧
    (s.recovered d).cfg = s.cfg ∧
    (s.recovered d).tim = s.tim ∧
    (s.recovered d).mbx = s.mbx ∧
    (s.recovered d).hb.bothFailed = s.hb.bothFailed ∧
    (s.recovered d).pending = s.pending ∧
    (s.recovered d).now = s.now := by
  unfold State.recovered
  split <;> first | (simp; done) | exact ⟨rfl, rfl, rfl, rfl, rfl, rfl, rfl⟩

@[simp] theorem State.recovered_blocks (s : State) (d : Domain) :
    (s.recovered d).permits = s.permits ∧
    (s.recovered d).mgmt = s.mgmt ∧
    (s.recovered d).trigLevel = s.trigLevel := by
  unfold State.recovered
  split <;> first | (simp; done) | exact ⟨rfl, rfl, rfl⟩

@[simp] theorem State.unfence_keeps (s : State) (d : Domain) :
    (State.unfence s d).permits.asserted = s.permits.asserted ∧
    (State.unfence s d).flash.cells = s.flash.cells ∧
    (State.unfence s d).mem.cells = s.mem.cells ∧
    (State.unfence s d).power = s.power ∧
    (State.unfence s d).cfg = s.cfg ∧
    (State.unfence s d).tim = s.tim ∧
    (State.unfence s d).mbx = s.mbx ∧
    (State.unfence s d).hb.bothFailed = s.hb.bothFailed ∧
    (State.unfence s d).pending = s.pending ∧
    (State.unfence s d).now = s.now ∧
    (State.unfence s d).permits = s.permits ∧
    (State.unfence s d).mgmt = s.mgmt ∧
    (State.unfence s d).trigLevel = s.trigLevel := by
  simp [State.unfence]

@[simp] theorem State.evtRepeats_keeps (s : State) :
    (State.evtRepeats s).permits.asserted = s.permits.asserted ∧
    (State.evtRepeats s).opt.ports = s.opt.ports ∧
    (State.evtRepeats s).flash.cells = s.flash.cells ∧
    (State.evtRepeats s).mem.cells = s.mem.cells ∧
    (State.evtRepeats s).hb.doms = s.hb.doms ∧
    (State.evtRepeats s).power = s.power ∧
    (State.evtRepeats s).cfg = s.cfg ∧
    (State.evtRepeats s).tim = s.tim ∧
    (State.evtRepeats s).pnl = s.pnl ∧
    (State.evtRepeats s).mbx = s.mbx ∧
    (State.evtRepeats s).hb.bothFailed = s.hb.bothFailed ∧
    (State.evtRepeats s).pending = s.pending ∧
    (State.evtRepeats s).now = s.now ∧
    (State.evtRepeats s).tiu = s.tiu ∧
    (State.evtRepeats s).sht = s.sht ∧
    (State.evtRepeats s).acq = s.acq ∧
    (State.evtRepeats s).phs = s.phs ∧
    (State.evtRepeats s).dts = s.dts ∧
    (State.evtRepeats s).sup = s.sup ∧
    (State.evtRepeats s).permits = s.permits ∧
    (State.evtRepeats s).plk = s.plk ∧
    (State.evtRepeats s).lanes = s.lanes ∧
    (State.evtRepeats s).mgmt = s.mgmt ∧
    (State.evtRepeats s).trigLevel = s.trigLevel ∧
    (State.evtRepeats s).opt = s.opt := by
  refine ⟨?_, ?_, ?_, ?_, ?_, ?_, ?_, ?_, ?_, ?_, ?_, ?_, ?_, ?_, ?_, ?_, ?_, ?_, ?_, ?_, ?_, ?_, ?_, ?_, ?_⟩ <;>
    (simp only [State.evtRepeats]; (repeat' split) <;> simp [bothPorts] <;> (repeat' split) <;> simp)

@[simp] theorem State.hbRepeats_keeps (s : State) (k : USource) (c : CtlSt) :
    (State.hbRepeats s k c).permits.asserted = s.permits.asserted ∧
    (State.hbRepeats s k c).mem.cells = s.mem.cells ∧
    (State.hbRepeats s k c).power = s.power ∧
    (State.hbRepeats s k c).hb.bothFailed = s.hb.bothFailed ∧
    (State.hbRepeats s k c).pending = s.pending ∧
    (State.hbRepeats s k c).now = s.now ∧
    (State.hbRepeats s k c).tiu = s.tiu ∧
    (State.hbRepeats s k c).phs = s.phs ∧
    (State.hbRepeats s k c).permits = s.permits ∧
    (State.hbRepeats s k c).mgmt = s.mgmt ∧
    (State.hbRepeats s k c).trigLevel = s.trigLevel := by
  simp [State.hbRepeats]

@[simp] theorem State.sDiscard_keeps (s : State) (typ port seq : Nat) :
    (State.sDiscard s typ port seq).permits.asserted = s.permits.asserted ∧
    (State.sDiscard s typ port seq).opt.ports = s.opt.ports ∧
    (State.sDiscard s typ port seq).flash.cells = s.flash.cells ∧
    (State.sDiscard s typ port seq).mem.cells = s.mem.cells ∧
    (State.sDiscard s typ port seq).hb.doms = s.hb.doms ∧
    (State.sDiscard s typ port seq).power = s.power ∧
    (State.sDiscard s typ port seq).cfg = s.cfg ∧
    (State.sDiscard s typ port seq).tim = s.tim ∧
    (State.sDiscard s typ port seq).pnl = s.pnl ∧
    (State.sDiscard s typ port seq).mbx = s.mbx ∧
    (State.sDiscard s typ port seq).hb.bothFailed = s.hb.bothFailed ∧
    (State.sDiscard s typ port seq).pending = s.pending ∧
    (State.sDiscard s typ port seq).now = s.now ∧
    (State.sDiscard s typ port seq).tiu = s.tiu ∧
    (State.sDiscard s typ port seq).sht = s.sht ∧
    (State.sDiscard s typ port seq).acq = s.acq ∧
    (State.sDiscard s typ port seq).phs = s.phs ∧
    (State.sDiscard s typ port seq).evt = s.evt ∧
    (State.sDiscard s typ port seq).alarms = s.alarms ∧
    (State.sDiscard s typ port seq).dts = s.dts ∧
    (State.sDiscard s typ port seq).sup = s.sup ∧
    (State.sDiscard s typ port seq).permits = s.permits ∧
    (State.sDiscard s typ port seq).als = s.als ∧
    (State.sDiscard s typ port seq).plk = s.plk ∧
    (State.sDiscard s typ port seq).lanes = s.lanes ∧
    (State.sDiscard s typ port seq).mgmt = s.mgmt ∧
    (State.sDiscard s typ port seq).trigLevel = s.trigLevel ∧
    (State.sDiscard s typ port seq).opt = s.opt := by
  simp [State.sDiscard]

@[simp] theorem State.loseProduct_keeps (s : State) (r : RouteId) (q : PRec) (t : List PRec) :
    (State.loseProduct s r q t).permits.asserted = s.permits.asserted ∧
    (State.loseProduct s r q t).opt.ports = s.opt.ports ∧
    (State.loseProduct s r q t).flash.cells = s.flash.cells ∧
    (State.loseProduct s r q t).mem.cells = s.mem.cells ∧
    (State.loseProduct s r q t).hb.doms = s.hb.doms ∧
    (State.loseProduct s r q t).power = s.power ∧
    (State.loseProduct s r q t).cfg = s.cfg ∧
    (State.loseProduct s r q t).tim = s.tim ∧
    (State.loseProduct s r q t).pnl = s.pnl ∧
    (State.loseProduct s r q t).mbx = s.mbx ∧
    (State.loseProduct s r q t).hb.bothFailed = s.hb.bothFailed ∧
    (State.loseProduct s r q t).pending = s.pending ∧
    (State.loseProduct s r q t).now = s.now ∧
    (State.loseProduct s r q t).tiu = s.tiu ∧
    (State.loseProduct s r q t).sht = s.sht ∧
    (State.loseProduct s r q t).acq = s.acq ∧
    (State.loseProduct s r q t).phs = s.phs ∧
    (State.loseProduct s r q t).evt = s.evt ∧
    (State.loseProduct s r q t).alarms = s.alarms ∧
    (State.loseProduct s r q t).dts = s.dts ∧
    (State.loseProduct s r q t).sup = s.sup ∧
    (State.loseProduct s r q t).permits = s.permits ∧
    (State.loseProduct s r q t).als = s.als ∧
    (State.loseProduct s r q t).plk = s.plk ∧
    (State.loseProduct s r q t).lanes = s.lanes ∧
    (State.loseProduct s r q t).mgmt = s.mgmt ∧
    (State.loseProduct s r q t).trigLevel = s.trigLevel ∧
    (State.loseProduct s r q t).opt = s.opt := by
  simp [State.loseProduct]

@[simp] theorem State.loseItem_keeps (s : State) (k : Fin 3) (i : RtItem) :
    (State.loseItem s k i).permits.asserted = s.permits.asserted ∧
    (State.loseItem s k i).opt.ports = s.opt.ports ∧
    (State.loseItem s k i).flash.cells = s.flash.cells ∧
    (State.loseItem s k i).mem.cells = s.mem.cells ∧
    (State.loseItem s k i).hb.doms = s.hb.doms ∧
    (State.loseItem s k i).power = s.power ∧
    (State.loseItem s k i).cfg = s.cfg ∧
    (State.loseItem s k i).tim = s.tim ∧
    (State.loseItem s k i).pnl = s.pnl ∧
    (State.loseItem s k i).mbx = s.mbx ∧
    (State.loseItem s k i).hb.bothFailed = s.hb.bothFailed ∧
    (State.loseItem s k i).pending = s.pending ∧
    (State.loseItem s k i).now = s.now ∧
    (State.loseItem s k i).tiu = s.tiu ∧
    (State.loseItem s k i).sht = s.sht ∧
    (State.loseItem s k i).acq = s.acq ∧
    (State.loseItem s k i).phs = s.phs ∧
    (State.loseItem s k i).evt = s.evt ∧
    (State.loseItem s k i).alarms = s.alarms ∧
    (State.loseItem s k i).dts = s.dts ∧
    (State.loseItem s k i).sup = s.sup ∧
    (State.loseItem s k i).permits = s.permits ∧
    (State.loseItem s k i).als = s.als ∧
    (State.loseItem s k i).plk = s.plk ∧
    (State.loseItem s k i).lanes = s.lanes ∧
    (State.loseItem s k i).mgmt = s.mgmt ∧
    (State.loseItem s k i).trigLevel = s.trigLevel ∧
    (State.loseItem s k i).opt = s.opt := by
  simp [State.loseItem]

@[simp] theorem State.loseTransfer_keeps (s : State) (b : BTransfer) :
    (State.loseTransfer s b).permits.asserted = s.permits.asserted ∧
    (State.loseTransfer s b).opt.ports = s.opt.ports ∧
    (State.loseTransfer s b).flash.cells = s.flash.cells ∧
    (State.loseTransfer s b).mem.cells = s.mem.cells ∧
    (State.loseTransfer s b).hb.doms = s.hb.doms ∧
    (State.loseTransfer s b).power = s.power ∧
    (State.loseTransfer s b).cfg = s.cfg ∧
    (State.loseTransfer s b).tim = s.tim ∧
    (State.loseTransfer s b).pnl = s.pnl ∧
    (State.loseTransfer s b).mbx = s.mbx ∧
    (State.loseTransfer s b).hb.bothFailed = s.hb.bothFailed ∧
    (State.loseTransfer s b).pending = s.pending ∧
    (State.loseTransfer s b).now = s.now ∧
    (State.loseTransfer s b).tiu = s.tiu ∧
    (State.loseTransfer s b).sht = s.sht ∧
    (State.loseTransfer s b).phs = s.phs ∧
    (State.loseTransfer s b).evt = s.evt ∧
    (State.loseTransfer s b).alarms = s.alarms ∧
    (State.loseTransfer s b).dts = s.dts ∧
    (State.loseTransfer s b).sup = s.sup ∧
    (State.loseTransfer s b).permits = s.permits ∧
    (State.loseTransfer s b).als = s.als ∧
    (State.loseTransfer s b).plk = s.plk ∧
    (State.loseTransfer s b).lanes = s.lanes ∧
    (State.loseTransfer s b).mgmt = s.mgmt ∧
    (State.loseTransfer s b).trigLevel = s.trigLevel ∧
    (State.loseTransfer s b).opt = s.opt := by
  unfold State.loseTransfer
  (repeat' split) <;> simp

@[simp] theorem State.loseNotice_keeps (s : State) (k : USource) (node : Region) :
    (State.loseNotice s k node).permits.asserted = s.permits.asserted ∧
    (State.loseNotice s k node).opt.ports = s.opt.ports ∧
    (State.loseNotice s k node).flash.cells = s.flash.cells ∧
    (State.loseNotice s k node).mem.cells = s.mem.cells ∧
    (State.loseNotice s k node).hb.doms = s.hb.doms ∧
    (State.loseNotice s k node).power = s.power ∧
    (State.loseNotice s k node).cfg = s.cfg ∧
    (State.loseNotice s k node).tim = s.tim ∧
    (State.loseNotice s k node).pnl = s.pnl ∧
    (State.loseNotice s k node).mbx = s.mbx ∧
    (State.loseNotice s k node).hb.bothFailed = s.hb.bothFailed ∧
    (State.loseNotice s k node).pending = s.pending ∧
    (State.loseNotice s k node).now = s.now ∧
    (State.loseNotice s k node).tiu = s.tiu ∧
    (State.loseNotice s k node).sht = s.sht ∧
    (State.loseNotice s k node).acq = s.acq ∧
    (State.loseNotice s k node).phs = s.phs ∧
    (State.loseNotice s k node).alarms = s.alarms ∧
    (State.loseNotice s k node).dts = s.dts ∧
    (State.loseNotice s k node).sup = s.sup ∧
    (State.loseNotice s k node).plk = s.plk ∧
    (State.loseNotice s k node).lanes = s.lanes ∧
    (State.loseNotice s k node).mgmt = s.mgmt ∧
    (State.loseNotice s k node).trigLevel = s.trigLevel ∧
    (State.loseNotice s k node).opt = s.opt := by
  refine ⟨?_, ?_, ?_, ?_, ?_, ?_, ?_, ?_, ?_, ?_, ?_, ?_, ?_, ?_, ?_, ?_, ?_, ?_, ?_, ?_, ?_, ?_, ?_, ?_, ?_⟩ <;>
    (simp only [State.loseNotice]; (repeat' split) <;> first | (simp [bothPorts]; done) | rfl)

@[simp] theorem State.flitHit_keeps (s : State) (h : FlitHit) (node : Region) :
    (State.flitHit s h node).permits.asserted = s.permits.asserted ∧
    (State.flitHit s h node).opt.ports = s.opt.ports ∧
    (State.flitHit s h node).flash.cells = s.flash.cells ∧
    (State.flitHit s h node).mem.cells = s.mem.cells ∧
    (State.flitHit s h node).hb.doms = s.hb.doms ∧
    (State.flitHit s h node).power = s.power ∧
    (State.flitHit s h node).cfg = s.cfg ∧
    (State.flitHit s h node).tim = s.tim ∧
    (State.flitHit s h node).pnl = s.pnl ∧
    (State.flitHit s h node).mbx = s.mbx ∧
    (State.flitHit s h node).hb.bothFailed = s.hb.bothFailed ∧
    (State.flitHit s h node).pending = s.pending ∧
    (State.flitHit s h node).now = s.now ∧
    (State.flitHit s h node).tiu = s.tiu ∧
    (State.flitHit s h node).sht = s.sht ∧
    (State.flitHit s h node).alarms = s.alarms ∧
    (State.flitHit s h node).dts = s.dts ∧
    (State.flitHit s h node).sup = s.sup ∧
    (State.flitHit s h node).plk = s.plk ∧
    (State.flitHit s h node).lanes = s.lanes ∧
    (State.flitHit s h node).mgmt = s.mgmt ∧
    (State.flitHit s h node).trigLevel = s.trigLevel ∧
    (State.flitHit s h node).opt = s.opt := by
  unfold State.flitHit
  (repeat' split) <;> simp

theorem State.mgmtServe_keeps (s : State) (l : Lane) (r : MgmtReq) (op : Nat) (f : State → Served) (h : ∀ s, Keeps (f s).2.2 s) :
    Keeps (s.mgmtServe l r op f) s := by
  unfold State.mgmtServe
  refine keeps_ite ⟨rfl, rfl, rfl, rfl, rfl⟩ (keeps_ite ⟨rfl, rfl, rfl, rfl, rfl⟩ (keeps_ite ⟨rfl, rfl, rfl, rfl, rfl⟩
    (keeps_ite ⟨rfl, rfl, rfl, rfl, rfl⟩ ?_)))
  dsimp only
  generalize hx : f _ = x
  refine Keeps.trans (b := x.2.2) (by simp [Keeps]) (Keeps.trans (hx ▸ h _) (by simp [Keeps]))

theorem State.mgmtServe_still (s : State) (l : Lane) (r : MgmtReq) (op : Nat) (f : State → Served) (h : ∀ s, Still (f s).2.2 s) :
    Still (s.mgmtServe l r op f) s := by
  unfold State.mgmtServe
  refine still_ite ⟨rfl, rfl, rfl, rfl, rfl, rfl, rfl, rfl⟩ (still_ite ⟨rfl, rfl, rfl, rfl, rfl, rfl, rfl, rfl⟩ (still_ite ⟨rfl, rfl, rfl, rfl, rfl, rfl, rfl, rfl⟩
    (still_ite ⟨rfl, rfl, rfl, rfl, rfl, rfl, rfl, rfl⟩ ?_)))
  dsimp only
  generalize hx : f _ = x
  refine Still.trans (b := x.2.2) (by simp [Still]) (Still.trans (hx ▸ h _) (by simp [Still]))

theorem State.plkServe_keeps (s : State) (r : MgmtReq) (op : Nat) (f : State → Served) (h : ∀ s, Keeps (f s).2.2 s) :
    Keeps (s.plkServe r op f) s := by
  unfold State.plkServe
  refine keeps_ite ⟨rfl, rfl, rfl, rfl, rfl⟩ (keeps_ite ⟨rfl, rfl, rfl, rfl, rfl⟩ ?_)
  dsimp only
  generalize hx : f _ = x
  refine Keeps.trans (b := x.2.2) (by simp [Keeps]) (Keeps.trans (hx ▸ h _) (by simp [Keeps]))

theorem State.plkServe_still (s : State) (r : MgmtReq) (op : Nat) (f : State → Served) (h : ∀ s, Still (f s).2.2 s) :
    Still (s.plkServe r op f) s := by
  unfold State.plkServe
  refine still_ite ⟨rfl, rfl, rfl, rfl, rfl, rfl, rfl, rfl⟩ (still_ite ⟨rfl, rfl, rfl, rfl, rfl, rfl, rfl, rfl⟩ ?_)
  dsimp only
  generalize hx : f _ = x
  refine Still.trans (b := x.2.2) (by simp [Still]) (Still.trans (hx ▸ h _) (by simp [Still]))

@[simp] theorem State.hatbandStart_keeps (s : State) (aOk bOk : Bool) :
    (State.hatbandStart s aOk bOk).permits.asserted = s.permits.asserted ∧
    (State.hatbandStart s aOk bOk).mem.cells = s.mem.cells ∧
    (State.hatbandStart s aOk bOk).power = s.power ∧
    (State.hatbandStart s aOk bOk).pending = s.pending ∧
    (State.hatbandStart s aOk bOk).now = s.now ∧
    (State.hatbandStart s aOk bOk).tiu = s.tiu ∧
    (State.hatbandStart s aOk bOk).phs = s.phs ∧
    (State.hatbandStart s aOk bOk).permits = s.permits ∧
    (State.hatbandStart s aOk bOk).mgmt = s.mgmt ∧
    (State.hatbandStart s aOk bOk).trigLevel = s.trigLevel := by
  unfold State.hatbandStart
  (repeat' split) <;> simp

@[simp] theorem State.powerFail_keeps (s : State) (outMask : Nat) (undervoltage : Bool) :
    (s.powerFail outMask undervoltage).permits.asserted = s.permits.asserted ∧
    (s.powerFail outMask undervoltage).mem.cells = s.mem.cells ∧
    (s.powerFail outMask undervoltage).hb.doms = s.hb.doms := by
  refine ⟨?_, ?_, ?_⟩ <;> (unfold State.powerFail; dsimp only; simp only [State.powerFailRecords_keeps]; split <;> simp [bothPorts])

@[simp] theorem State.recognised_keeps (s : State) (lowNs never sure : Nat) :
    (State.recognised s lowNs never sure).2.permits.asserted = s.permits.asserted ∧
    (State.recognised s lowNs never sure).2.opt.ports = s.opt.ports ∧
    (State.recognised s lowNs never sure).2.flash.cells = s.flash.cells ∧
    (State.recognised s lowNs never sure).2.mem.cells = s.mem.cells ∧
    (State.recognised s lowNs never sure).2.hb.doms = s.hb.doms ∧
    (State.recognised s lowNs never sure).2.power = s.power ∧
    (State.recognised s lowNs never sure).2.cfg = s.cfg ∧
    (State.recognised s lowNs never sure).2.tim = s.tim ∧
    (State.recognised s lowNs never sure).2.pnl = s.pnl ∧
    (State.recognised s lowNs never sure).2.mbx = s.mbx ∧
    (State.recognised s lowNs never sure).2.hb.bothFailed = s.hb.bothFailed ∧
    (State.recognised s lowNs never sure).2.pending = s.pending ∧
    (State.recognised s lowNs never sure).2.now = s.now ∧
    (State.recognised s lowNs never sure).2.tiu = s.tiu ∧
    (State.recognised s lowNs never sure).2.sht = s.sht ∧
    (State.recognised s lowNs never sure).2.acq = s.acq ∧
    (State.recognised s lowNs never sure).2.phs = s.phs ∧
    (State.recognised s lowNs never sure).2.evt = s.evt ∧
    (State.recognised s lowNs never sure).2.alarms = s.alarms ∧
    (State.recognised s lowNs never sure).2.dts = s.dts ∧
    (State.recognised s lowNs never sure).2.sup = s.sup ∧
    (State.recognised s lowNs never sure).2.permits = s.permits ∧
    (State.recognised s lowNs never sure).2.als = s.als ∧
    (State.recognised s lowNs never sure).2.plk = s.plk ∧
    (State.recognised s lowNs never sure).2.lanes = s.lanes ∧
    (State.recognised s lowNs never sure).2.mgmt = s.mgmt ∧
    (State.recognised s lowNs never sure).2.trigLevel = s.trigLevel ∧
    (State.recognised s lowNs never sure).2.opt = s.opt := by
  unfold State.recognised
  (repeat' split) <;> simp

@[simp] theorem State.loadRecord_keeps (s : State) (slot generation : Nat) :
    (State.loadRecord s slot generation).permits.asserted = s.permits.asserted ∧
    (State.loadRecord s slot generation).opt.ports = s.opt.ports ∧
    (State.loadRecord s slot generation).flash.cells = s.flash.cells ∧
    (State.loadRecord s slot generation).mem.cells = s.mem.cells ∧
    (State.loadRecord s slot generation).hb.doms = s.hb.doms ∧
    (State.loadRecord s slot generation).power = s.power ∧
    (State.loadRecord s slot generation).cfg = s.cfg ∧
    (State.loadRecord s slot generation).tim = s.tim ∧
    (State.loadRecord s slot generation).pnl = s.pnl ∧
    (State.loadRecord s slot generation).mbx = s.mbx ∧
    (State.loadRecord s slot generation).hb.bothFailed = s.hb.bothFailed ∧
    (State.loadRecord s slot generation).pending = s.pending ∧
    (State.loadRecord s slot generation).now = s.now ∧
    (State.loadRecord s slot generation).tiu = s.tiu ∧
    (State.loadRecord s slot generation).sht = s.sht ∧
    (State.loadRecord s slot generation).acq = s.acq ∧
    (State.loadRecord s slot generation).phs = s.phs ∧
    (State.loadRecord s slot generation).evt = s.evt ∧
    (State.loadRecord s slot generation).alarms = s.alarms ∧
    (State.loadRecord s slot generation).dts = s.dts ∧
    (State.loadRecord s slot generation).sup = s.sup ∧
    (State.loadRecord s slot generation).permits = s.permits ∧
    (State.loadRecord s slot generation).als = s.als ∧
    (State.loadRecord s slot generation).plk = s.plk ∧
    (State.loadRecord s slot generation).lanes = s.lanes ∧
    (State.loadRecord s slot generation).mgmt = s.mgmt ∧
    (State.loadRecord s slot generation).trigLevel = s.trigLevel ∧
    (State.loadRecord s slot generation).opt = s.opt := by
  simp [State.loadRecord]

@[simp] theorem State.unconfigured_keeps (s : State) :
    (State.unconfigured s).permits.asserted = s.permits.asserted ∧
    (State.unconfigured s).opt.ports = s.opt.ports ∧
    (State.unconfigured s).flash.cells = s.flash.cells ∧
    (State.unconfigured s).mem.cells = s.mem.cells ∧
    (State.unconfigured s).power = s.power ∧
    (State.unconfigured s).tim = s.tim ∧
    (State.unconfigured s).pnl = s.pnl ∧
    (State.unconfigured s).mbx = s.mbx ∧
    (State.unconfigured s).hb.bothFailed = s.hb.bothFailed ∧
    (State.unconfigured s).pending = s.pending ∧
    (State.unconfigured s).now = s.now ∧
    (State.unconfigured s).tiu = s.tiu ∧
    (State.unconfigured s).sht = s.sht ∧
    (State.unconfigured s).acq = s.acq ∧
    (State.unconfigured s).phs = s.phs ∧
    (State.unconfigured s).evt = s.evt ∧
    (State.unconfigured s).alarms = s.alarms ∧
    (State.unconfigured s).dts = s.dts ∧
    (State.unconfigured s).sup = s.sup ∧
    (State.unconfigured s).permits = s.permits ∧
    (State.unconfigured s).als = s.als ∧
    (State.unconfigured s).plk = s.plk ∧
    (State.unconfigured s).lanes = s.lanes ∧
    (State.unconfigured s).mgmt = s.mgmt ∧
    (State.unconfigured s).trigLevel = s.trigLevel ∧
    (State.unconfigured s).opt = s.opt := by
  simp [State.unconfigured]

@[simp] theorem State.fuseRecord_keeps (s : State) (slot action : Nat) (differs : Bool) :
    (State.fuseRecord s slot action differs).permits.asserted = s.permits.asserted ∧
    (State.fuseRecord s slot action differs).opt.ports = s.opt.ports ∧
    (State.fuseRecord s slot action differs).flash.cells = s.flash.cells ∧
    (State.fuseRecord s slot action differs).mem.cells = s.mem.cells ∧
    (State.fuseRecord s slot action differs).hb.doms = s.hb.doms ∧
    (State.fuseRecord s slot action differs).power = s.power ∧
    (State.fuseRecord s slot action differs).cfg = s.cfg ∧
    (State.fuseRecord s slot action differs).tim = s.tim ∧
    (State.fuseRecord s slot action differs).pnl = s.pnl ∧
    (State.fuseRecord s slot action differs).mbx = s.mbx ∧
    (State.fuseRecord s slot action differs).hb.bothFailed = s.hb.bothFailed ∧
    (State.fuseRecord s slot action differs).pending = s.pending ∧
    (State.fuseRecord s slot action differs).now = s.now ∧
    (State.fuseRecord s slot action differs).tiu = s.tiu ∧
    (State.fuseRecord s slot action differs).sht = s.sht ∧
    (State.fuseRecord s slot action differs).acq = s.acq ∧
    (State.fuseRecord s slot action differs).phs = s.phs ∧
    (State.fuseRecord s slot action differs).evt = s.evt ∧
    (State.fuseRecord s slot action differs).alarms = s.alarms ∧
    (State.fuseRecord s slot action differs).dts = s.dts ∧
    (State.fuseRecord s slot action differs).sup = s.sup ∧
    (State.fuseRecord s slot action differs).permits = s.permits ∧
    (State.fuseRecord s slot action differs).als = s.als ∧
    (State.fuseRecord s slot action differs).plk = s.plk ∧
    (State.fuseRecord s slot action differs).lanes = s.lanes ∧
    (State.fuseRecord s slot action differs).mgmt = s.mgmt ∧
    (State.fuseRecord s slot action differs).trigLevel = s.trigLevel ∧
    (State.fuseRecord s slot action differs).opt = s.opt := by
  simp [State.fuseRecord]

@[simp] theorem State.setKeySlot_keeps (s : State) (k : Fin 4) (f : KeySlot → KeySlot) :
    (State.setKeySlot s k f).permits.asserted = s.permits.asserted ∧
    (State.setKeySlot s k f).opt.ports = s.opt.ports ∧
    (State.setKeySlot s k f).flash.cells = s.flash.cells ∧
    (State.setKeySlot s k f).mem.cells = s.mem.cells ∧
    (State.setKeySlot s k f).hb.doms = s.hb.doms ∧
    (State.setKeySlot s k f).power = s.power ∧
    (State.setKeySlot s k f).tim = s.tim ∧
    (State.setKeySlot s k f).pnl = s.pnl ∧
    (State.setKeySlot s k f).mbx = s.mbx ∧
    (State.setKeySlot s k f).hb.bothFailed = s.hb.bothFailed ∧
    (State.setKeySlot s k f).pending = s.pending ∧
    (State.setKeySlot s k f).now = s.now ∧
    (State.setKeySlot s k f).tiu = s.tiu ∧
    (State.setKeySlot s k f).sht = s.sht ∧
    (State.setKeySlot s k f).acq = s.acq ∧
    (State.setKeySlot s k f).phs = s.phs ∧
    (State.setKeySlot s k f).evt = s.evt ∧
    (State.setKeySlot s k f).alarms = s.alarms ∧
    (State.setKeySlot s k f).dts = s.dts ∧
    (State.setKeySlot s k f).sup = s.sup ∧
    (State.setKeySlot s k f).permits = s.permits ∧
    (State.setKeySlot s k f).als = s.als ∧
    (State.setKeySlot s k f).plk = s.plk ∧
    (State.setKeySlot s k f).lanes = s.lanes ∧
    (State.setKeySlot s k f).mgmt = s.mgmt ∧
    (State.setKeySlot s k f).trigLevel = s.trigLevel ∧
    (State.setKeySlot s k f).opt = s.opt := by
  simp [State.setKeySlot]

@[simp] theorem State.fuseKey_keeps (s : State) (hash : List Byte) :
    (State.fuseKey s hash).permits.asserted = s.permits.asserted ∧
    (State.fuseKey s hash).opt.ports = s.opt.ports ∧
    (State.fuseKey s hash).flash.cells = s.flash.cells ∧
    (State.fuseKey s hash).mem.cells = s.mem.cells ∧
    (State.fuseKey s hash).hb.doms = s.hb.doms ∧
    (State.fuseKey s hash).power = s.power ∧
    (State.fuseKey s hash).tim = s.tim ∧
    (State.fuseKey s hash).mbx = s.mbx ∧
    (State.fuseKey s hash).hb.bothFailed = s.hb.bothFailed ∧
    (State.fuseKey s hash).pending = s.pending ∧
    (State.fuseKey s hash).now = s.now ∧
    (State.fuseKey s hash).tiu = s.tiu ∧
    (State.fuseKey s hash).sht = s.sht ∧
    (State.fuseKey s hash).acq = s.acq ∧
    (State.fuseKey s hash).phs = s.phs ∧
    (State.fuseKey s hash).evt = s.evt ∧
    (State.fuseKey s hash).alarms = s.alarms ∧
    (State.fuseKey s hash).dts = s.dts ∧
    (State.fuseKey s hash).sup = s.sup ∧
    (State.fuseKey s hash).permits = s.permits ∧
    (State.fuseKey s hash).als = s.als ∧
    (State.fuseKey s hash).plk = s.plk ∧
    (State.fuseKey s hash).lanes = s.lanes ∧
    (State.fuseKey s hash).mgmt = s.mgmt ∧
    (State.fuseKey s hash).trigLevel = s.trigLevel ∧
    (State.fuseKey s hash).opt = s.opt := by
  unfold State.fuseKey
  (repeat' split) <;> simp

@[simp] theorem State.applyKeys_keeps (s : State) :
    (State.applyKeys s).permits.asserted = s.permits.asserted ∧
    (State.applyKeys s).opt.ports = s.opt.ports ∧
    (State.applyKeys s).flash.cells = s.flash.cells ∧
    (State.applyKeys s).mem.cells = s.mem.cells ∧
    (State.applyKeys s).hb.doms = s.hb.doms ∧
    (State.applyKeys s).power = s.power ∧
    (State.applyKeys s).tim = s.tim ∧
    (State.applyKeys s).mbx = s.mbx ∧
    (State.applyKeys s).hb.bothFailed = s.hb.bothFailed ∧
    (State.applyKeys s).pending = s.pending ∧
    (State.applyKeys s).now = s.now ∧
    (State.applyKeys s).tiu = s.tiu ∧
    (State.applyKeys s).sht = s.sht ∧
    (State.applyKeys s).acq = s.acq ∧
    (State.applyKeys s).phs = s.phs ∧
    (State.applyKeys s).evt = s.evt ∧
    (State.applyKeys s).alarms = s.alarms ∧
    (State.applyKeys s).dts = s.dts ∧
    (State.applyKeys s).sup = s.sup ∧
    (State.applyKeys s).permits = s.permits ∧
    (State.applyKeys s).als = s.als ∧
    (State.applyKeys s).plk = s.plk ∧
    (State.applyKeys s).lanes = s.lanes ∧
    (State.applyKeys s).mgmt = s.mgmt ∧
    (State.applyKeys s).trigLevel = s.trigLevel ∧
    (State.applyKeys s).opt = s.opt := by
  simp only [State.applyKeys]
  (repeat' split) <;> simp

@[simp] theorem State.startRoutes_keeps (s : State) :
    (State.startRoutes s).permits.asserted = s.permits.asserted ∧
    (State.startRoutes s).opt.ports = s.opt.ports ∧
    (State.startRoutes s).flash.cells = s.flash.cells ∧
    (State.startRoutes s).mem.cells = s.mem.cells ∧
    (State.startRoutes s).hb.doms = s.hb.doms ∧
    (State.startRoutes s).power = s.power ∧
    (State.startRoutes s).cfg = s.cfg ∧
    (State.startRoutes s).tim = s.tim ∧
    (State.startRoutes s).pnl = s.pnl ∧
    (State.startRoutes s).mbx = s.mbx ∧
    (State.startRoutes s).hb.bothFailed = s.hb.bothFailed ∧
    (State.startRoutes s).pending = s.pending ∧
    (State.startRoutes s).now = s.now ∧
    (State.startRoutes s).tiu = s.tiu ∧
    (State.startRoutes s).sht = s.sht ∧
    (State.startRoutes s).acq = s.acq ∧
    (State.startRoutes s).phs = s.phs ∧
    (State.startRoutes s).evt = s.evt ∧
    (State.startRoutes s).alarms = s.alarms ∧
    (State.startRoutes s).dts = s.dts ∧
    (State.startRoutes s).sup = s.sup ∧
    (State.startRoutes s).permits = s.permits ∧
    (State.startRoutes s).als = s.als ∧
    (State.startRoutes s).plk = s.plk ∧
    (State.startRoutes s).lanes = s.lanes ∧
    (State.startRoutes s).mgmt = s.mgmt ∧
    (State.startRoutes s).trigLevel = s.trigLevel ∧
    (State.startRoutes s).opt = s.opt := by
  simp [State.startRoutes]

@[simp] theorem State.startSync_keeps (s : State) :
    (State.startSync s).permits.asserted = s.permits.asserted ∧
    (State.startSync s).opt.ports = s.opt.ports ∧
    (State.startSync s).flash.cells = s.flash.cells ∧
    (State.startSync s).mem.cells = s.mem.cells ∧
    (State.startSync s).hb.doms = s.hb.doms ∧
    (State.startSync s).power = s.power ∧
    (State.startSync s).cfg = s.cfg ∧
    (State.startSync s).pnl = s.pnl ∧
    (State.startSync s).mbx = s.mbx ∧
    (State.startSync s).hb.bothFailed = s.hb.bothFailed ∧
    (State.startSync s).pending = s.pending ∧
    (State.startSync s).now = s.now ∧
    (State.startSync s).tiu = s.tiu ∧
    (State.startSync s).sht = s.sht ∧
    (State.startSync s).acq = s.acq ∧
    (State.startSync s).phs = s.phs ∧
    (State.startSync s).evt = s.evt ∧
    (State.startSync s).alarms = s.alarms ∧
    (State.startSync s).dts = s.dts ∧
    (State.startSync s).sup = s.sup ∧
    (State.startSync s).permits = s.permits ∧
    (State.startSync s).als = s.als ∧
    (State.startSync s).plk = s.plk ∧
    (State.startSync s).lanes = s.lanes ∧
    (State.startSync s).mgmt = s.mgmt ∧
    (State.startSync s).trigLevel = s.trigLevel ∧
    (State.startSync s).opt = s.opt := by
  simp [State.startSync]

@[simp] theorem State.startPanel_keeps (s : State) :
    (State.startPanel s).permits.asserted = s.permits.asserted ∧
    (State.startPanel s).opt.ports = s.opt.ports ∧
    (State.startPanel s).flash.cells = s.flash.cells ∧
    (State.startPanel s).mem.cells = s.mem.cells ∧
    (State.startPanel s).hb.doms = s.hb.doms ∧
    (State.startPanel s).power = s.power ∧
    (State.startPanel s).cfg = s.cfg ∧
    (State.startPanel s).tim = s.tim ∧
    (State.startPanel s).mbx = s.mbx ∧
    (State.startPanel s).hb.bothFailed = s.hb.bothFailed ∧
    (State.startPanel s).pending = s.pending ∧
    (State.startPanel s).now = s.now ∧
    (State.startPanel s).tiu = s.tiu ∧
    (State.startPanel s).acq = s.acq ∧
    (State.startPanel s).phs = s.phs ∧
    (State.startPanel s).evt = s.evt ∧
    (State.startPanel s).alarms = s.alarms ∧
    (State.startPanel s).dts = s.dts ∧
    (State.startPanel s).sup = s.sup ∧
    (State.startPanel s).permits = s.permits ∧
    (State.startPanel s).als = s.als ∧
    (State.startPanel s).plk = s.plk ∧
    (State.startPanel s).lanes = s.lanes ∧
    (State.startPanel s).mgmt = s.mgmt ∧
    (State.startPanel s).trigLevel = s.trigLevel ∧
    (State.startPanel s).opt = s.opt := by
  simp [State.startPanel]

@[simp] theorem State.distribute_keeps (s : State) :
    (State.distribute s).permits.asserted = s.permits.asserted ∧
    (State.distribute s).opt.ports = s.opt.ports ∧
    (State.distribute s).flash.cells = s.flash.cells ∧
    (State.distribute s).mem.cells = s.mem.cells ∧
    (State.distribute s).power = s.power ∧
    (State.distribute s).cfg = s.cfg ∧
    (State.distribute s).mbx = s.mbx ∧
    (State.distribute s).hb.bothFailed = s.hb.bothFailed ∧
    (State.distribute s).pending = s.pending ∧
    (State.distribute s).now = s.now ∧
    (State.distribute s).tiu = s.tiu ∧
    (State.distribute s).acq = s.acq ∧
    (State.distribute s).phs = s.phs ∧
    (State.distribute s).alarms = s.alarms ∧
    (State.distribute s).dts = s.dts ∧
    (State.distribute s).permits = s.permits ∧
    (State.distribute s).als = s.als ∧
    (State.distribute s).plk = s.plk ∧
    (State.distribute s).lanes = s.lanes ∧
    (State.distribute s).mgmt = s.mgmt ∧
    (State.distribute s).trigLevel = s.trigLevel ∧
    (State.distribute s).opt = s.opt := by
  simp [State.distribute]

@[simp] theorem State.loadImage_keeps (s : State) (slot : Fin 2) (m : Image) :
    (State.loadImage s slot m).permits.asserted = s.permits.asserted ∧
    (State.loadImage s slot m).opt.ports = s.opt.ports ∧
    (State.loadImage s slot m).flash.cells = s.flash.cells ∧
    (State.loadImage s slot m).mem.cells = s.mem.cells ∧
    (State.loadImage s slot m).power = s.power ∧
    (State.loadImage s slot m).mbx = s.mbx ∧
    (State.loadImage s slot m).hb.bothFailed = s.hb.bothFailed ∧
    (State.loadImage s slot m).pending = s.pending ∧
    (State.loadImage s slot m).now = s.now ∧
    (State.loadImage s slot m).tiu = s.tiu ∧
    (State.loadImage s slot m).acq = s.acq ∧
    (State.loadImage s slot m).phs = s.phs ∧
    (State.loadImage s slot m).alarms = s.alarms ∧
    (State.loadImage s slot m).dts = s.dts ∧
    (State.loadImage s slot m).permits = s.permits ∧
    (State.loadImage s slot m).als = s.als ∧
    (State.loadImage s slot m).plk = s.plk ∧
    (State.loadImage s slot m).lanes = s.lanes ∧
    (State.loadImage s slot m).mgmt = s.mgmt ∧
    (State.loadImage s slot m).trigLevel = s.trigLevel ∧
    (State.loadImage s slot m).opt = s.opt := by
  simp [State.loadImage]

@[simp] theorem State.fallBack_keeps (s : State) (slot : Nat) :
    (State.fallBack s slot).permits.asserted = s.permits.asserted ∧
    (State.fallBack s slot).opt.ports = s.opt.ports ∧
    (State.fallBack s slot).flash.cells = s.flash.cells ∧
    (State.fallBack s slot).mem.cells = s.mem.cells ∧
    (State.fallBack s slot).hb.doms = s.hb.doms ∧
    (State.fallBack s slot).power = s.power ∧
    (State.fallBack s slot).pnl = s.pnl ∧
    (State.fallBack s slot).mbx = s.mbx ∧
    (State.fallBack s slot).hb.bothFailed = s.hb.bothFailed ∧
    (State.fallBack s slot).pending = s.pending ∧
    (State.fallBack s slot).now = s.now ∧
    (State.fallBack s slot).tiu = s.tiu ∧
    (State.fallBack s slot).sht = s.sht ∧
    (State.fallBack s slot).acq = s.acq ∧
    (State.fallBack s slot).phs = s.phs ∧
    (State.fallBack s slot).evt = s.evt ∧
    (State.fallBack s slot).alarms = s.alarms ∧
    (State.fallBack s slot).dts = s.dts ∧
    (State.fallBack s slot).sup = s.sup ∧
    (State.fallBack s slot).permits = s.permits ∧
    (State.fallBack s slot).als = s.als ∧
    (State.fallBack s slot).plk = s.plk ∧
    (State.fallBack s slot).lanes = s.lanes ∧
    (State.fallBack s slot).mgmt = s.mgmt ∧
    (State.fallBack s slot).trigLevel = s.trigLevel ∧
    (State.fallBack s slot).opt = s.opt := by
  simp [State.fallBack]

@[simp] theorem State.startSlices_keeps (s : State) (p : Port) (failing : List (Port × Fin 4 × Fin 5)) :
    (State.startSlices s p failing).permits.asserted = s.permits.asserted ∧
    (State.startSlices s p failing).opt.ports = s.opt.ports ∧
    (State.startSlices s p failing).flash.cells = s.flash.cells ∧
    (State.startSlices s p failing).mem.cells = s.mem.cells ∧
    (State.startSlices s p failing).hb.doms = s.hb.doms ∧
    (State.startSlices s p failing).power = s.power ∧
    (State.startSlices s p failing).cfg = s.cfg ∧
    (State.startSlices s p failing).tim = s.tim ∧
    (State.startSlices s p failing).pnl = s.pnl ∧
    (State.startSlices s p failing).mbx = s.mbx ∧
    (State.startSlices s p failing).hb.bothFailed = s.hb.bothFailed ∧
    (State.startSlices s p failing).pending = s.pending ∧
    (State.startSlices s p failing).now = s.now ∧
    (State.startSlices s p failing).tiu = s.tiu ∧
    (State.startSlices s p failing).sht = s.sht ∧
    (State.startSlices s p failing).phs = s.phs ∧
    (State.startSlices s p failing).evt = s.evt ∧
    (State.startSlices s p failing).alarms = s.alarms ∧
    (State.startSlices s p failing).dts = s.dts ∧
    (State.startSlices s p failing).sup = s.sup ∧
    (State.startSlices s p failing).permits = s.permits ∧
    (State.startSlices s p failing).als = s.als ∧
    (State.startSlices s p failing).plk = s.plk ∧
    (State.startSlices s p failing).lanes = s.lanes ∧
    (State.startSlices s p failing).mgmt = s.mgmt ∧
    (State.startSlices s p failing).trigLevel = s.trigLevel ∧
    (State.startSlices s p failing).opt = s.opt := by
  simp [State.startSlices]

end Sys2Proof.Machine
end

