-- ==== Sys2Proof/Laws/Memory.lean ====
section
/-! SUPPORT. The addressed memories: every operation keeps the canonical form, a read finds what was last written, and a write or a
clear leaves every other address as it was. -/

namespace Sys2Proof.Machine

/-- Every address of a memory is at least `lo`. -/
def memAbove (lo : Nat) (m : List Host.Cell) : Prop := ∀ c ∈ m, lo ≤ c.1

theorem wf_cons (d : Byte) (c : Host.Cell) (t : List Host.Cell) :
    Memory.wf d (c :: t) = true ↔ c.2 ≠ d ∧ memAbove (c.1 + 1) t ∧ Memory.wf d t = true := by
  induction t generalizing c with
  | nil => simp [Memory.wf, memAbove]
  | cons e t ih =>
    simp only [Memory.wf, Bool.and_eq_true, decide_eq_true_eq, bne_iff_ne, ne_eq]
    constructor
    · rintro ⟨⟨h1, h2⟩, h3⟩
      refine ⟨h1, ?_, h3⟩
      intro x hx
      rcases List.mem_cons.mp hx with rfl | hx
      · omega
      · have := ((ih e).mp h3).2.1 x hx
        omega
    · rintro ⟨h1, h2, h3⟩
      exact ⟨⟨h1, h2 e List.mem_cons_self⟩, h3⟩

theorem memWrite_above (d : Byte) (m : List Host.Cell) (x lo : Nat) (v : Byte) (h : memAbove lo m) (hx : lo ≤ x) :
    memAbove lo (memWrite d m x v) := by
  induction m with
  | nil => unfold memWrite; split <;> simp [memAbove, hx]
  | cons c t ih =>
    have hc : lo ≤ c.1 := h c List.mem_cons_self
    have ht : memAbove lo t := fun y hy => h y (List.mem_cons_of_mem _ hy)
    have hi := ih ht
    unfold memWrite
    intro y hy
    split at hy
    · split at hy
      · exact h y hy
      · rcases List.mem_cons.mp hy with rfl | hy
        · exact hx
        · exact h y hy
    · split at hy
      · split at hy
        · exact ht y hy
        · rcases List.mem_cons.mp hy with rfl | hy
          · exact hx
          · exact ht y hy
      · rcases List.mem_cons.mp hy with rfl | hy
        · exact hc
        · exact hi y hy

/-- A write keeps the canonical form. -/
theorem memWrite_wf (d : Byte) (m : List Host.Cell) (x : Nat) (v : Byte) (h : Memory.wf d m = true) :
    Memory.wf d (memWrite d m x v) = true := by
  induction m with
  | nil => unfold memWrite; split <;> simp_all [Memory.wf]
  | cons c t ih =>
    obtain ⟨h1, h2, h3⟩ := (wf_cons d c t).mp h
    unfold memWrite
    split
    · rename_i hlt
      split
      · exact h
      · refine (wf_cons d _ _).mpr ⟨by assumption, ?_, h⟩
        intro y hy
        rcases List.mem_cons.mp hy with rfl | hy
        · exact Nat.succ_le_of_lt hlt
        · have : c.1 + 1 ≤ y.1 := h2 y hy
          exact Nat.le_trans (Nat.succ_le_of_lt hlt) (by omega)
    · split
      · rename_i hxe
        split
        · exact h3
        · exact (wf_cons d _ _).mpr ⟨by assumption, by simpa [hxe] using h2, h3⟩
      · exact (wf_cons d _ _).mpr ⟨h1, memWrite_above d t x _ v h2 (by omega), ih h3⟩

/-- Writing several bytes keeps the canonical form. -/
theorem memWriteAll_wf (d : Byte) (b : List Byte) (m : List Host.Cell) (x : Nat) (h : Memory.wf d m = true) :
    Memory.wf d (memWriteAll d m x b) = true := by
  induction b generalizing m x with
  | nil => exact h
  | cons v t ih => exact ih _ _ (memWrite_wf d m x v h)

theorem filter_above (lo : Nat) (m : List Host.Cell) (f : Host.Cell → Bool) (h : memAbove lo m) : memAbove lo (m.filter f) :=
  fun y hy => h y (List.mem_filter.mp hy).1

/-- Clearing a range keeps the canonical form. -/
theorem memClear_wf (d : Byte) (m : List Host.Cell) (lo hi : Nat) (h : Memory.wf d m = true) :
    Memory.wf d (memClear m lo hi) = true := by
  unfold memClear
  induction m with
  | nil => rfl
  | cons c t ih =>
    obtain ⟨h1, h2, h3⟩ := (wf_cons d c t).mp h
    rw [List.filter_cons]
    split
    · exact (wf_cons d _ _).mpr ⟨h1, filter_above _ _ _ h2, ih h3⟩
    · exact ih h3

theorem memRead_above (d : Byte) (m : List Host.Cell) (x : Nat) (h : memAbove (x + 1) m) : memRead d m x = d := by
  induction m with
  | nil => rfl
  | cons c t ih =>
    have hc := h c List.mem_cons_self
    have : ¬ c.1 = x := by omega
    simp only [memRead, this, if_false]
    exact ih fun y hy => h y (List.mem_cons_of_mem _ hy)

/-- A read at the written address finds the byte. -/
theorem memRead_write_same (d : Byte) (m : List Host.Cell) (x : Nat) (v : Byte) (h : Memory.wf d m = true) :
    memRead d (memWrite d m x v) x = v := by
  induction m with
  | nil => unfold memWrite; split <;> simp_all [memRead]
  | cons c t ih =>
    obtain ⟨h1, h2, h3⟩ := (wf_cons d c t).mp h
    unfold memWrite
    split
    · rename_i hlt
      split
      · rename_i hv
        rw [hv]
        apply memRead_above
        intro y hy
        rcases List.mem_cons.mp hy with rfl | hy
        · exact hlt
        · have := h2 y hy
          omega
      · simp [memRead]
    · split
      · rename_i hxe
        split
        · rename_i hv
          rw [hv]
          exact memRead_above d t x (by rw [hxe]; exact h2)
        · simp [memRead]
      · rename_i hxe
        have : ¬ c.1 = x := fun e => hxe e.symm
        simp only [memRead, this, if_false]
        exact ih h3

/-- A write leaves every other address as it was. -/
theorem memRead_write_other (d : Byte) (m : List Host.Cell) (x y : Nat) (v : Byte) (hy : y ≠ x) (h : Memory.wf d m = true) :
    memRead d (memWrite d m x v) y = memRead d m y := by
  have hyx : ¬ x = y := fun e => hy e.symm
  induction m with
  | nil => unfold memWrite; split <;> simp [memRead, hyx]
  | cons c t ih =>
    obtain ⟨h1, h2, h3⟩ := (wf_cons d c t).mp h
    unfold memWrite
    split
    · split
      · rfl
      · simp [memRead, hyx]
    · split
      · rename_i hxe
        have hc : ¬ c.1 = y := by omega
        split <;> simp [memRead, hyx, hc]
      · simp only [memRead, ih h3]

/-- A cleared range reads as an unlisted address does, and other addresses as before. -/
theorem memRead_clear (d : Byte) (m : List Host.Cell) (lo hi x : Nat) :
    memRead d (memClear m lo hi) x = if lo ≤ x ∧ x < hi then d else memRead d m x := by
  unfold memClear
  induction m with
  | nil => simp [memRead]
  | cons c t ih =>
    rw [List.filter_cons]
    split
    · rename_i hc
      simp only [Bool.or_eq_true, decide_eq_true_eq] at hc
      simp only [memRead, ih]
      split
      · have : ¬ (lo ≤ x ∧ x < hi) := by omega
        simp [this]
      · rfl
    · rename_i hc
      simp only [Bool.or_eq_true, decide_eq_true_eq, not_or, Nat.not_lt, Nat.not_le] at hc
      simp only [ih, memRead]
      split
      · rfl
      · rename_i hx
        have : ¬ c.1 = x := by omega
        simp [this]

end Sys2Proof.Machine
end

