-- ==== Sys2Proof/Laws/Optics.lean ====
section
/-! SUPPORT. What the optics' operations do to each port: gate, shutter and counters (R62, R64, R66). -/

namespace Sys2Proof.Machine

theorem upd_get {α : Type} {n : Nat} (v : Vector α n) (i j : Fin n) (f : α → α) :
    (upd v i f)[j] = if i = j then f v[j] else v[j] := by
  simp only [upd, Fin.getElem_fin, Vector.getElem_set]
  by_cases h : i = j
  · simp [h]
  · have : i.val ≠ j.val := fun e => h (Fin.ext e)
    simp [h, this]

/-- The gate of the port closes, a shot in flight is counted and how long it was open is kept; nothing else of the optics changes. -/
theorem State.closeGate_port (s : State) (p q : Port) : (s.closeGate p).opt.ports[q] =
    if p = q then
      { s.opt.ports[q] with
        gate := none
        openFor := (s.opt.ports[q].gate.map fun g => 2 * (s.now - g.openedAt)).getD s.opt.ports[q].openFor
        abortedShots := if s.opt.ports[q].gate.isSome then s.opt.ports[q].abortedShots + 1 else s.opt.ports[q].abortedShots }
    else s.opt.ports[q] := by
  unfold State.closeGate
  split
  · rename_i h
    simp only [State.setSht]
    split
    · rename_i e
      subst e
      simp only [Fin.getElem_fin] at h ⊢
      rw [h]
      simp
      rw [← h]
    · rfl
  · rename_i g h
    simp only [State.discardShot_keeps, foldl_opt, State.logDrop_keeps, implies_true, State.setSht, State.setOptPort, upd_get]
    by_cases e : p = q
    · subst e
      simp only [Fin.getElem_fin] at h ⊢
      simp [h]
    · simp [e]

/-- A call held for the port, if any, falls with it; the optics stay. -/
theorem State.gateOff_port (s : State) (p q : Port) :
    (if (s.closeGate p).leads p = true then s.closeGate p else (s.closeGate p).dropHeld p).opt.ports[q] =
      (s.closeGate p).opt.ports[q] := by
  split
  · rfl
  · simp

/-- Gate off and shutter closed. -/
theorem State.closePort_port (s : State) (p q : Port) : (s.closePort p).opt.ports[q] =
    if p = q then { (s.closeGate p).opt.ports[q] with shutter := false } else s.opt.ports[q] := by
  unfold State.closePort
  simp only [State.setOptPort, upd_get, State.gateOff_port]
  split
  · rfl
  · rename_i h
    rw [State.closeGate_port, if_neg h]

/-- Both gates are off, both shutters as they were. -/
theorem State.gatesOff_port (s : State) (q : Port) :
    (s.gatesOff).opt.ports[q].gate = none ∧ (s.gatesOff).opt.ports[q].shutter = s.opt.ports[q].shutter := by
  unfold State.gatesOff bothPorts
  simp only [List.foldl_cons, List.foldl_nil, State.dropHeld_keeps, State.closeGate_port]
  rcases q with ⟨_ | _ | _, h⟩ <;> first | omega | simp

/-- The shutter opens only with the hardwired permit. -/
theorem State.openShutter_port (s : State) (p q : Port) : (s.openShutter p).opt.ports[q] =
    if p = q ∧ s.hardPermit p = true ∧ s.isShut (if p = 0 then 0 else 1) = false ∧ s.live = true then
      { s.opt.ports[q] with shutter := true, openedAt := s.now }
    else s.opt.ports[q] := by
  unfold State.openShutter
  by_cases h : s.hardPermit p = true <;> by_cases k : s.isShut (if p = 0 then 0 else 1) = true <;>
    by_cases l : s.live = true <;> simp [h, k, l, State.setOptPort]
  exact upd_get _ _ _ _

end Sys2Proof.Machine
end

