-- ==== Sys2Proof/Laws/Reports.lean ====
section
/-! SUPPORT. Reporting operations change only what `State.hushed` blanks. -/

namespace Sys2Proof.Machine

variable (s : State)

theorem map_upd {α β : Type} {n : Nat} (v : Vector α n) (i : Fin n) (f : α → α) (g : α → β) (h : ∀ x, g (f x) = g x) :
    (upd v i f).map g = v.map g := by
  apply Vector.ext
  intro j hj
  simp only [upd, Vector.getElem_map, Vector.getElem_set]
  split
  · subst_vars; exact h _
  · rfl

theorem map_set {α β : Type} {n : Nat} (v : Vector α n) (i : Fin n) (x : α) (g : α → β) (h : g x = g v[i]) :
    (v.set i x).map g = v.map g := by
  apply Vector.ext
  intro j hj
  simp only [Vector.getElem_map, Vector.getElem_set]
  split
  · subst_vars; exact h
  · rfl

theorem hushed_foldl {α : Type} (f : State → α → State) (h : ∀ s a, (f s a).hushed = s.hushed) (l : List α) (s : State) :
    (l.foldl f s).hushed = s.hushed := by
  induction l generalizing s with
  | nil => rfl
  | cons x t ih => rw [List.foldl_cons, ih, h]

theorem hushed_ite (c : Prop) [Decidable c] (a b s : State) (ha : a.hushed = s.hushed) (hb : b.hushed = s.hushed) :
    (if c then a else b).hushed = s.hushed := by
  split <;> assumption

@[simp] theorem State.report_hushed (d : Domain) (code value : U32) : (s.report d code value).hushed = s.hushed := rfl

@[simp] theorem State.fencedFlits_hushed (n : Nat) : (s.fencedFlits n).hushed = s.hushed := rfl

@[simp] theorem State.toRoute_hushed (r : RouteId) (p : PRec) : (s.toRoute r p).hushed = s.hushed := by
  have h := map_upd s.routes r (fun x => { x with inflight := x.inflight ++ [p] }) (fun x => { x with inflight := [] })
    (fun _ => rfl)
  simp only [State.toRoute, State.hushed, h]

@[simp] theorem State.toRing_hushed (r : Fin 3) (i : RtItem) : (s.toRing r i).hushed = s.hushed := by
  unfold State.toRing
  refine hushed_ite _ _ _ _ rfl (hushed_ite _ _ _ _ rfl rfl)

@[simp] theorem State.emitRec_hushed (p : PRec) : (s.emitRec p).hushed = s.hushed := by
  unfold State.emitRec
  have h : (allRoutes.foldl (fun s r => if s.routeTakes r p.typ p.port then s.toRoute r p else s) s).hushed = s.hushed :=
    hushed_foldl _ (fun s r => hushed_ite _ _ _ _ (by simp) rfl) _ _
  exact hushed_ite _ _ _ _ (by simpa using h) h

@[simp] theorem State.msixSend_hushed (v : Fin 8) : (s.msixSend v).hushed = s.hushed := by
  have h := map_set s.pcie.msix v
    { s.pcie.msix[v] with
      sent := s.pcie.msix[v].sent + 1, merged := false, pending := false, holdUntil := s.now + s.msixHoldoff * usP }
    (fun e : MsixVec => { e with pending := false, holdUntil := 0, merged := false, sent := 0 }) rfl
  have e : (s.msixSend v).hushed = { s.hushed with pcie := (s.msixSend v).hushed.pcie } := rfl
  rw [e]
  show ({ s.hushed with pcie := { s.pcie with msix := _ } } : State) = _
  exact congrArg (fun m => ({ s.hushed with pcie := { s.pcie with msix := m } } : State)) h

@[simp] theorem State.msixEvent_hushed (v : Fin 8) : (s.msixEvent v).hushed = s.hushed := by
  have key : ∀ x : MsixVec, x.addr = s.pcie.msix[v].addr → x.data = s.pcie.msix[v].data → x.control = s.pcie.msix[v].control →
      ({ s with pcie := { s.pcie with msix := s.pcie.msix.set v x } } : State).hushed = s.hushed := by
    intro x h1 h2 h3
    have h := map_set s.pcie.msix v x
      (fun e : MsixVec => { e with pending := false, holdUntil := 0, merged := false, sent := 0 })
      (by simp [h1, h2, h3])
    exact congrArg (fun m => ({ s.hushed with pcie := { s.pcie with msix := m } } : State)) h
  unfold State.msixEvent
  refine hushed_ite _ _ _ _ ?_ rfl
  exact hushed_ite _ _ _ _ (key _ rfl rfl rfl) (hushed_ite _ _ _ _ (key _ rfl rfl rfl) (by simp))

@[simp] theorem State.healthRecord_hushed (kind domain : Nat) (code value : U32) :
    (s.healthRecord kind domain code value).hushed = s.hushed := by
  unfold State.healthRecord
  exact hushed_ite _ _ _ _ rfl ((State.emitRec_hushed _ _).trans rfl)

@[simp] theorem State.bbxEnqueue_hushed (r : BbxRec) : (s.bbxEnqueue r).hushed = s.hushed := by
  unfold State.bbxEnqueue
  exact hushed_ite _ _ _ _ rfl rfl

@[simp] theorem State.raise_hushed (code value : U32) (holds : Bool) : (s.raise code value holds).hushed = s.hushed := by
  unfold State.raise
  refine hushed_ite _ _ _ _ rfl (hushed_ite _ _ _ _ rfl ?_)
  simp only [State.msixEvent_hushed, State.bbxEnqueue_hushed, State.healthRecord_hushed]
  rfl

@[simp] theorem State.record_hushed (r : BbxRec) : (s.record r).hushed = s.hushed := by
  unfold State.record
  exact hushed_ite _ _ _ _ (by simp) (by simp)

@[simp] theorem State.warnEnded_hushed (code : U32) : (s.warnEnded code).hushed = s.hushed := rfl

@[simp] theorem State.warn_hushed (code value : U32) (holds : Bool) : (s.warn code value holds).hushed = s.hushed := by
  unfold State.warn
  exact hushed_ite _ _ _ _ (by simp) (by simp)

/-- A longer route to the same: what holds of a state up to reports holds of the reported state. -/
theorem OnlyReports.trans {a b c : State} (h : OnlyReports a b) (k : OnlyReports b c) : OnlyReports a c := Eq.trans h k

end Sys2Proof.Machine
end

