-- ==== Sys2Proof/WellFormed.lean ====
section
/-! DEFINITION. Well-formed commands: operands that the interface they arrive on can carry. The machine does not depend on it; a
statement may. -/

namespace Sys2Proof

/-- A vernier measurement: the count of two periods is not below that of one (R128). -/
def TiuMeas.wf (m : TiuMeas) : Bool := decide (m.v1 ≤ m.v2)

/-- A code of the 24-bit converter (R227). -/
def isCode24 (code : Int) : Bool := decide (-8388608 ≤ code) && decide (code ≤ 8388607)

/-- A verification outcome that MEM_VERIFY_RESULT can hold (Table 15.3). -/
def VerifyOutcome.wf (v : VerifyOutcome) : Bool :=
  decide (v.code ≤ 6) && decide (v.rank < 2) && decide (v.lane < 16) && decide (v.delay < 8)

/-- A poll reads at most two ranks (R301). -/
def TempPoll.wf (t : TempPoll) : Bool :=
  match t with
  | .unreadable => true
  | .ddr4 _ => true
  | .ddr5 rates => decide (rates.length ≤ 2)

/-- A consumer names a product of Table 11.21. -/
def Consumer.wf (c : Consumer) : Bool :=
  match c with
  | .ring _ => true
  | .route _ _ product => decide (product ≤ 3)

/-- A request whose fields have the widths of Table 11.15. -/
def MgmtReq.wf (r : MgmtReq) : Bool :=
  decide (r.op < 256) && decide (r.offset < 4294967296) && decide (r.length < 4294967296)

/-- The operands of a command fit their interface. Log entry 7, DESIGN CHOICE. -/
def Instr.wf (i : Instr) : Bool :=
  match i with
  | .powerGood .. => true
  | .resetNAsserted .. => true
  | .powerFailWarning .. => true
  | .supplyMonitorTrip .. => true
  | .pfailRestart .. => true
  | .requestedRestart .. => true
  | .cfgLoadStart .. => true
  | .imageReadDone .. => true
  | .lsrRelease .. => true
  | .laserDieInWindow .. => true
  | .injectionLockDetected .. => true
  | .wavelengthTuned .. => true
  | .laserReady .. => true
  | .injectionLockLost .. => true
  | .relockAttemptTimeout .. => true
  | .wavelengthOutOfWindow .. => true
  | .wavelengthRecoveryTimeout .. => true
  | .dieTempOutOfWindow .. => true
  | .dieTempFenceTimeout .. => true
  | .dieOverTemperature .. => true
  | .laserPowerLow .. => true
  | .tecSaturated .. => true
  | .launchPeakHigh .. => true
  | .launchPeakLow .. => true
  | .leakageBetweenPulses .. => true
  | .gateHeldTooLong .. => true
  | .loPowerOutOfRange .. => true
  | .photodiodeFault .. => true
  | .pllLockWindow .. => true
  | .pllAcquireTimeout .. => true
  | .pllRelockTimeout .. => true
  | .refclkLost .. => true
  | .pllCoastRelock .. => true
  | .pllCoastLimit .. => true
  | .syncInEdge _ m _ _ => m.wf
  | .syncWaitTimeout .. => true
  | .syncEdgeTimeout .. => true
  | .syncFrameReceived .. => true
  | .ppsInEdge _ m => m.wf
  | .ppsHoldoverTimeout .. => true
  | .deviceTimeWrap => true
  | .ppsOutEdge .. => true
  | .syncOutSend .. => true
  | .groupStart .. => true
  | .pleatShotLaunch .. => true
  | .temperatureShotLaunch .. => true
  | .shotGateClose .. => true
  | .launchMonitorEdge _ _ m _ _ => m.wf
  | .launchTimestampTimeout .. => true
  | .triggerEdge _ _ _ m => m.wf
  | .triggerEdgeAccepted .. => true
  | .triggerTimeout .. => true
  | .recordNotice .. => true
  | .calUpdate _ e => e.spareBad.all fun b => b.2 == 3 || b.2 == 4
  | .sliceSubstitution .. => true
  | .phaseRecordProcess .. => true
  | .ramanRecordClose .. => true
  | .ramanOffsetMeasure _ _ as_ st => as_.length == 3 && st.length == 3
  | .dtsUpdateBoundary .. => true
  | .battSwap .. => true
  | .dtsProfileDone .. => true
  | .refHoldExpiry .. => true
  | .supPassStart .. => true
  | .supConversionDone _ code => isCode24 code
  | .supCoarseValue _ code => isCode24 code
  | .snapshotCopy .. => true
  | .alarmDemandNotice .. => true
  | .alarmMinAssertExpiry .. => true
  | .operatorStateNotice .. => true
  | .uNoticeRepeat .. => true
  | .regionDeltaSample _ mv halfK => mv.length == 10 && halfK.length == 10
  | .warningClear .. => true
  | .marginMeasure _ capacities => capacities.length == 10
  | .linkWordError .. => true
  | .stallDetected .. => true
  | .memInitStart .. => true
  | .memVerifyDone _ v => v.wf
  | .memZeroFillDone .. => true
  | .memSweepDone .. => true
  | .refreshDue .. => true
  | .dramTempPoll _ t => t.wf
  | .selfRefreshEntry .. => true
  | .selfRefreshExit .. => true
  | .memAccessBoundary .. => true
  | .scrubRequest .. => true
  | .requestOverdue .. => true
  | .rtItemArrival .. => true
  | .ringFlush .. => true
  | .coderFlush _ c => c.wf
  | .outRecordEnqueue .. => true
  | .heartbeatTimer .. => true
  | .housekeepingTimer .. => true
  | .timingRecordClose .. => true
  | .arpRefresh .. => true
  | .arpRetryTimeout .. => true
  | .arpFrameReceived _ _ f => f.op == 1 || f.op == 2
  | .ethLinkUp .. => true
  | .ethLinkDown .. => true
  | .icmpEchoRequest .. => true
  | .ethFrameDiscarded .. => true
  | .mgmtStatusRead _ _ r _ => r.wf
  | .mgmtBlackBoxRead _ _ r => r.wf
  | .mgmtEcho _ _ r => r.wf
  | .mgmtUnknownOp _ _ r => r.wf
  | .pcieConfigRequest _ _ reg _ => decide (reg < 4096) && decide (reg % 4 = 0)
  | .pciePowerStateChange .. => true
  | .pcieFunctionLevelReset .. => true
  | .pcieLinkReset .. => true
  | .bar2Read _ _ length => decide (0 < length) && decide (length ≤ 4096)
  | .counterLowWordRead _ _ offset length _ => decide (offset % 4 = 0) && decide (length % 4 = 0)
  | .msixTableWrite _ offset _ => decide (0x1FF000 ≤ offset) && decide (offset < 0x200000) && decide (offset % 4 = 0)
  | .msixHoldoffExpiry .. => true
  | .registerWrite _ offset data => decide (0 < data.length) && decide (offset + data.length ≤ 0x1000000)
  | .mbxUnlockWrite .. => true
  | .mbxStageBegin .. => true
  | .mbxStageBlock .. => true
  | .mbxStageAbort .. => true
  | .mbxRestart .. => true
  | .mbxUnknownCommand .. => true
  | .mbxLockLapse .. => true
  | .flashEraseDone .. => true
  | .flashProgramDone .. => true
  | .flashOperationTimeout .. => true
  | .stagingCheckDone .. => true
  | .faultReport .. => true
  | .fenceCommand .. => true
  | .recoveryAttempt .. => true
  | .recoverySequenceEnd .. => true
  | .recoveryOverrun .. => true
  | .recoveryCleanTick .. => true
  | .hbAliveMissed .. => true
  | .hbDigestExchange .. => true
  | .hbSelfCheckFail .. => true
  | .bothFailedLatch .. => true
  | .bbxRecordWritten .. => true
  | .bbxMirrorStart .. => true
  | .bbxMirrorDone .. => true
  | .permitWithdrawn .. => true
  | .permitRestored .. => true
  | .alsShutdown .. => true
  | .alsProbeEntry .. => true
  | .alsProbeWindowEnd .. => true
  | .alsProbeJudged .. => true
  | .alsProbeNoLaunch .. => true
  | .keyAcknowledge .. => true
  | .keyManualRestart .. => true
  | .keyLampTest .. => true
  | .lampTestTimeout .. => true
  | .keyBrightness .. => true
  | .keyRelease .. => true
  | .panelCompose .. => true
  | .panelBufferSwap .. => true
  | .colourMeasurement .. => true
  | .colourPhaseEnd .. => true
  | .ledDiagPulse .. => true
  | .ledDiagExpiry .. => true
  | .placketAttach .. => true
  | .placketDetach .. => true
  | .dfuDnload _ block data => decide (block < 65536) && decide (data.length ≤ 4096)
  | .dfuGetstatus .. => true
  | .dfuClrstatus .. => true
  | .dfuGetstate .. => true
  | .dfuAbort .. => true
  | .dfuDetach .. => true
  | .dfuUpload .. => true
  | .placketStatusRead _ r _ => r.wf
  | .placketBlackBoxRead _ r => r.wf
  | .placketEcho _ r => r.wf
  | .placketBlackBoxDump _ r => r.wf
  | .placketRestart _ r => r.wf
  | .placketBadRequest _ r => r.wf
  | .apdBiasOutOfRange .. => true
  | .apdCurrentHigh .. => true
  | .hbSelfTestDone .. => true
  | .pcieLinkUp _ speed width => decide (1 ≤ speed) && decide (speed ≤ 4) && (width == 1 || width == 2 || width == 4)
  | .bar2Write .. => true
  | .placketConfigured .. => true
  | .ethFrameSent .. => true

end Sys2Proof
end

