-- ==== Sys2Proof/Tests/Slice0.lean ====
section
/-! SUPPORT. Tests: ill-formed operands are refused, small facts of the spec's worked examples and tables hold of the model, and
for every statement a state and operands that meet its hypotheses. -/

set_option Elab.async false

namespace Sys2Proof.Tests

open Sys2Proof.Machine

/-! ## Small states -/

/-- A payload of zeros with fields given as offset, bytes and value. -/
def pay (len : Nat) (fields : List (Nat × Nat × Nat)) : List Byte :=
  fields.foldl (fun b f => b.take f.1 ++ le f.2.1 f.2.2 ++ b.drop (f.1 + f.2.1)) (List.replicate len 0)

/-- A record of an image. -/
def rcd (typ len : Nat) (fields : List (Nat × Nat × Nat)) : ImgRec := { typ := typ, payload := pay len fields }

/-- A running device with an image of these records. -/
def on (records : List ImgRec) : State :=
  { State.reset with
    power := { phase := .up }
    cfg := { state := 1, image := some { records := records } }
    now := 10000000000000 }

/-- Hypotheses of a statement hold at the instant of a command that comes at once. -/
abbrev Meets (s : State) (h : State → Bool) : Prop := h (s.elapse 0) = true

/-- A state with one domain as given. -/
def withDom (s : State) (d : Domain) (x : Dom) : State := { s with hb := { s.hb with doms := s.hb.doms.set d x } }

/-! ## Operands -/

/-- One ill-formed operand for each check of WellFormed; every one is refused. -/
theorem test_wf_refuses_operands :
    ([.syncInEdge 0 ⟨2, 1, 0, false⟩ 64 0, .ppsInEdge 0 ⟨2, 1, 0, false⟩, .launchMonitorEdge 0 0 ⟨2, 1, 0, false⟩ 0 0,
      .triggerEdge 0 0 true ⟨2, 1, 0, false⟩, .ramanOffsetMeasure 0 0 [0] [0, 0, 0], .ramanOffsetMeasure 0 0 [0, 0, 0] [],
      .supConversionDone 0 8388608, .supCoarseValue 0 (-8388609), .regionDeltaSample 0 [] (List.replicate 10 0),
      .regionDeltaSample 0 (List.replicate 10 0) [], .marginMeasure 0 [], .memVerifyDone 0 ⟨7, 0, 0, 0, false⟩,
      .memVerifyDone 0 ⟨0, 2, 0, 0, false⟩, .memVerifyDone 0 ⟨0, 0, 16, 0, false⟩, .memVerifyDone 0 ⟨0, 0, 0, 8, false⟩,
      .dramTempPoll 0 (.ddr5 [1, 1, 1]), .coderFlush 0 (.route 0 0 4)] : List Instr).all (fun i => !i.wf) = true := by decide

/-- The same for the commands of hosts and lanes. -/
theorem test_wf_refuses_requests :
    ([.arpFrameReceived 0 0 ⟨3, 0, 0, 0⟩, .mgmtStatusRead 0 0 ⟨0, 256, 0, 0, 0, [], 0, 0, 0⟩ false,
      .mgmtBlackBoxRead 0 0 ⟨0, 2, 0, 4294967296, 0, [], 0, 0, 0⟩, .mgmtEcho 0 0 ⟨0, 3, 0, 0, 4294967296, [], 0, 0, 0⟩,
      .mgmtUnknownOp 0 0 ⟨0, 256, 0, 0, 0, [], 0, 0, 0⟩, .pcieConfigRequest 0 true 4096 0, .pcieConfigRequest 0 false 2 0,
      .bar2Read 0 0 0, .bar2Read 0 0 4097, .counterLowWordRead 0 .pcie 2 4 false, .counterLowWordRead 0 .pcie 4 2 false,
      .msixTableWrite 0 0x1FEFFC 0, .msixTableWrite 0 0x200000 0, .msixTableWrite 0 0x1FF002 0, .registerWrite 0 0 [],
      .registerWrite 0 0x1000000 [0], .dfuDnload 0 65536 [], .pcieLinkUp 0 5 1, .pcieLinkUp 0 0 1, .pcieLinkUp 0 1 9,
      .placketStatusRead 0 ⟨0, 256, 0, 0, 0, [], 0, 0, 0⟩ false, .placketBlackBoxRead 0 ⟨0, 256, 0, 0, 0, [], 0, 0, 0⟩,
      .placketEcho 0 ⟨0, 256, 0, 0, 0, [], 0, 0, 0⟩, .placketBlackBoxDump 0 ⟨0, 256, 0, 0, 0, [], 0, 0, 0⟩,
      .placketRestart 0 ⟨0, 256, 0, 0, 0, [], 0, 0, 0⟩, .placketBadRequest 0 ⟨0, 256, 0, 0, 0, [], 0, 0, 0⟩] :
      List Instr).all (fun i => !i.wf) = true := by decide

/-! ## Worked examples -/


/-- A framed record (R370). -/
def framed (typ len : Nat) (fields : List (Nat × Nat × Nat)) : List Byte :=
  let h := le 2 typ ++ le 2 1 ++ le 4 len ++ pay len fields
  h ++ le 4 (crc32c h).toNat

/-- A header (Table 12.3). -/
def header (length generation records body : Nat) : List Byte :=
  let h := pay 60 [(0, 4, 0x4643585A), (4, 2, 1), (6, 2, 64), (8, 4, length), (12, 4, generation), (16, 2, 0x4820), (20, 4, records),
    (24, 4, body)]
  h ++ le 4 (crc32c h).toNat

/-- The records of the small image of Table 12.13. -/
def smallRecords : List (Nat × Nat × List (Nat × Nat × Nat)) :=
  [(0x0010, 88, [(0, 2, 1), (22, 1, 0)]), (0x0030, 8, [(0, 1, 1), (1, 1, 2), (2, 2, 160), (4, 2, 10)]),
   (0x0020, 16, [(4, 4, 1000), (8, 2, 14682)]),
   (0x0080, 28, [(0, 1, 4), (2, 1, 1), (3, 1, 8), (4, 1, 8), (5, 1, 1), (7, 1, 85), (8, 1, 0x18), (13, 2, 100), (15, 2, 200), (17, 2, 20),
     (19, 1, 24), (21, 2, 100)]),
   (0x0081, 84, []), (0x0040, 24, [(1, 1, 1), (2, 1, 1), (4, 4, 50000), (8, 2, 500), (10, 1, 1)]),
   (0x0042, 8, [(2, 2, 1600), (4, 2, 380)]), (0x00A2, 12, [(0, 1, 3), (1, 1, 4), (4, 2, 100)])]

/-- The small image, its digest left to be computed. -/
def smallImage : List Byte :=
  let body := header 472 12 9 428 ++ smallRecords.flatMap fun r => framed r.1 r.2.1 r.2.2
  let e := le 2 0xFFFF ++ le 2 1 ++ le 4 32 ++ sha256 body
  body ++ e ++ le 4 (crc32c e).toNat

/-- Codes 1 to 3 pass for the header of the worked example (Table 12.13); one byte changed is code 2. -/
theorem test_small_header : checkHeader (smallImage.take 64) = 0 ∧ checkHeader ((smallImage.take 63).concat 0) = 2 := by
  decide +kernel

/-- Its records lie where Table 12.13 says, END included. -/
theorem test_small_framing :
    (match frames smallImage 472 40 64 with | .ok fs => fs.map (·.body.offset) | .error _ => []) =
      [64, 164, 184, 212, 252, 348, 384, 404, 428] := by decide +kernel

/-- Every record of it lies in its ranges. -/
theorem test_small_fields :
    (match frames smallImage 472 40 64 with | .ok fs => fs.all fun f => f.body.fields.all (·.2) | .error _ => false) = true := by
  decide +kernel

/-- SHA-256 of the three bytes abc. -/
theorem test_sha256 : beNat (sha256 [0x61, 0x62, 0x63]) =
    0xba7816bf8f01cfea414140de5dae2223b00361a396177a9cb410ff61f20015ad := by decide +kernel

/-- Setting B of the 12 km well is admitted, and with PERIOD 12,440 fails step 3 with code 3 (chapter 3). -/
def well (period : Nat) : State :=
  on [rcd 0x20 16 [(4, 4, 12200), (8, 2, 14682)],
    rcd 0x40 24 [(1, 1, 4), (2, 1, 1), (4, 4, period), (8, 2, 500), (10, 1, 1)], rcd 0x42 8 [(2, 2, 1600), (4, 2, 190)]]

theorem test_admit_well : (well 12500).admission 0 = 0 ∧ (well 12440).admission 0 = 3 := by decide +kernel

/-- The 1.0 km perimeter fibre at +16.0 dBm and +16.5 dBm: R50 rejects the second (chapter 2). -/
def perimeter (peak : Nat) : State :=
  on [rcd 0x20 16 [(4, 4, 1000), (8, 2, 14682)], rcd 0x21 12 [(3, 1, peak), (5, 1, 42)],
    rcd 0x40 24 [(1, 1, 1), (2, 1, 1), (4, 4, 1667), (8, 2, 500), (10, 1, 1)], rcd 0x42 8 [(2, 2, 3200), (4, 2, 380)]]

theorem test_admit_perimeter : (perimeter 32).admission 0 = 0 ∧ (perimeter 33).admission 0 ≠ 0 := by decide +kernel

/-- The 37 km cable (Table 3.2): two pleats of 2 µs in 400 µs, temperature shot at its automatic offset. -/
def cable : State :=
  on [rcd 0x20 16 [(4, 4, 37500), (8, 2, 14682)],
    rcd 0x40 24 [(1, 1, 2), (2, 1, 1), (4, 4, 40000), (8, 2, 500), (10, 1, 1)], rcd 0x42 8 [(2, 2, 1600), (4, 2, 380)]]

theorem test_cable_group :
    cable.admission 0 = 0 ∧ cable.tsAt 0 * 5 / 2 = 2200 ∧ cable.periodP 0 / cable.pleats 0 * 5 / 2 = 200000 ∧
      (cable.pulse125 0 + 1) / 2 * 5 / 2 = 2000 ∧ 369300 ≤ cable.listenP 0 * 5 / 2 ∧ cable.listenP 0 * 5 / 2 < 369310 := by
  decide +kernel

/-! ## Power and loader -/

def held : State := State.reset
def plain : State := on []

/-- PowerGoodStarts. -/
theorem witness_power_good :
    Meets held fun u => u.power.phase == .held && u.hb.ctlA == .active && u.hb.ctlB == .standby && !u.hb.bothFailed := by decide

def latched : State := withDom { plain with hb := { plain.hb with bothFailed := true } } 5 { st := .permanent, shut := true }

/-- FencingHoldsUntilRestart, and the premises of the other headline statements. -/
theorem witness_latched :
    latched.hb.bothFailed = true ∧ (latched.dom 5).st = .permanent ∧ isRestart (.lampTestTimeout 0) = false ∧
      (∀ d : Domain, latched.isShut d = true → (latched.dom d).fenced = true) ∧
      exec (.lampTestTimeout 0) latched = .next (latched.elapse 0) := by
  refine ⟨by decide, by decide, by decide, by decide, rfl⟩

/-- EmissionNeedsPermit, MemoriesStayCanonical, FencesStayInAgreement and the last clause of FencingHoldsUntilRestart. -/
theorem witness_invariants :
    held.EmissionSafe ∧ held.MemoryCanonical ∧ held.FencesAgree ∧ held.HeldWhole ∧ step held = .next held :=
  ⟨by unfold State.EmissionSafe; decide, by unfold State.MemoryCanonical; decide, by unfold State.FencesAgree; decide,
    fun _ => ⟨rfl, rfl, rfl⟩, rfl⟩

/-- EmissionNeedsPermit and PermitsGovern: an asserted input and a pulse of exactly 5 ns. -/
theorem witness_permit : plain.permits.asserted[inputIndex .conn1] = true ∧
    (Meets { plain with permits := { asserted := #v[false, true, true] } } fun u => !u.permits.asserted[inputIndex .ilock]) := by decide

/-- RestartsHoldReset: the power-fail restart and a requested restart are due at this instant. -/
theorem witness_restarts :
    (Meets { plain with power := { phase := .powerFail, failAt := plain.now - 100 * msP } } fun u =>
      u.power.phase == .powerFail && u.power.failAt + u.pfailRestartMs * msP == u.now) ∧
    (Meets { plain with power := { phase := .up, request := some (3, plain.now) } } fun u =>
      u.power.request == some (3, u.now) && u.power.phase == .up) := by decide

/-- PowerFailActs. -/
theorem witness_power_fail :
    (Meets plain fun u => u.power.phase == .up) ∧
      (Meets { plain with power := { phase := .powerFail } } fun u => u.power.phase == .powerFail) := by decide

/-- A flash whose slot B holds a candidate header. -/
def flashed : State := { held with power := { phase := .up }, flash := { cells := memWriteAll erased [] 0x200000 (smallImage.take 64) } }

/-- LoaderChoosesSlot: no candidate, and one in slot B. -/
theorem witness_loader :
    (Meets { held with power := { phase := .up } } fun u => u.power.phase == .up && u.cfg.state == 0 && !u.cfg.released &&
      !(headerResult (u.slotHeader 0)).candidate && !(headerResult (u.slotHeader 1)).candidate) := by decide

theorem witness_candidate : (headerResult (flashed.slotHeader 1)).candidate = true ∧ flashed.cfg.released = false := by decide +kernel

/-- An image with the mandatory records of the small image (Table 12.13), with their CRCs and the digest. -/
def leastImage : List Byte := le 364 0x766a6508a3dd793a61af568dfa39ed1ee700a9c92fa362d2d039f556e6113349e4f9887a000000200001ffff2fcc394c0000000000000000000000000000000000000000000000000000000000000000000000000000000000000000000000000000000000000000000000000000000000000000000000000000000000000000000000000000005400010081a5dd65b9000000000000640018001400c80064000000001855000108080100040000001c00010080eb9aa4970000000a00a002010000000800010030ad4815810000000000000000000000000000000000000000000000000000000000000000000000000000000000000000000000000000000000000000000000000000000000000000000000000000000000000000000000000000000100000058000100100ed4416500000000000000000000000000000000000000000000000000000000000000000000014000000005000048200000000c0000016c004000014643585a

/-- Its records as the loader frames them. -/
def least0 : Framed := ⟨{ typ := 0x10, offset := 64, payload := pay 88 [(0, 2, 1), (22, 1, 0)] }, fieldAt leastImage 160 4⟩
def least1 : Framed :=
  ⟨{ typ := 0x30, offset := 164, payload := pay 8 [(0, 1, 1), (1, 1, 2), (2, 2, 160), (4, 2, 10)] }, fieldAt leastImage 180 4⟩
def least2 : Framed := ⟨{ typ := 0x80, offset := 184, payload := slice leastImage 192 28 }, fieldAt leastImage 220 4⟩
def least3 : Framed := ⟨{ typ := 0x81, offset := 224, payload := pay 84 [] }, fieldAt leastImage 316 4⟩
def least4 : Framed := ⟨{ typ := 0xFFFF, offset := 320, payload := slice leastImage 328 32 }, fieldAt leastImage 360 4⟩

def leastFrames : List Framed := [least0, least1, least2, least3, least4]

def leastKnown : List ImgRec := (leastFrames.map (·.body)).filter (·.known)

def leastDigest : List Byte := slice leastImage 328 32

theorem least_frames : frames leastImage 364 30 64 = .ok leastFrames := by decide +kernel

theorem least_lengths : fieldAt leastImage 8 4 = 364 ∧ fieldAt leastImage 24 4 = 320 := by decide +kernel

theorem least_digest : sha256 (leastImage.take 320) = leastDigest := by decide +kernel

theorem least_stored : ((leastFrames.map (·.body)).getLast?.map (·.payload)).getD [] = leastDigest := by decide +kernel

/-- The bytes that a record's CRC covers. -/
def covered (f : Framed) : List Byte :=
  le 2 f.body.typ ++ le 1 f.body.version ++ le 1 f.body.flags ++ le 4 f.body.payload.length ++ f.body.payload

/-- A CRC taken in two parts. -/
theorem crc_in_parts (f : Framed) (n : Nat) (c : U32) (h : ((covered f).take n).foldl crcByte 0xFFFFFFFF#32 = c)
    (k : f.crc = (~~~ ((covered f).drop n).foldl crcByte c).toNat) : f.crcOk = true := by
  have e : crc32c (covered f) = ~~~ ((covered f).drop n).foldl crcByte c := by
    rw [← h, ← List.foldl_append, List.take_append_drop]; rfl
  show (f.crc == (crc32c (covered f)).toNat) = true
  rw [e, ← k, beq_self_eq_true]

theorem least_crc0 : ((covered least0).take 48).foldl crcByte 0xFFFFFFFF#32 = 4260695895#32 := by decide +kernel
theorem least_crc0' : least0.crc = (~~~ ((covered least0).drop 48).foldl crcByte 4260695895#32).toNat := by decide +kernel
theorem least_crc3 : ((covered least3).take 48).foldl crcByte 0xFFFFFFFF#32 = 1425079937#32 := by decide +kernel
theorem least_crc3' : least3.crc = (~~~ ((covered least3).drop 48).foldl crcByte 1425079937#32).toNat := by decide +kernel

theorem least_crc124 : least1.crcOk = true ∧ least2.crcOk = true ∧ least4.crcOk = true := by decide +kernel

theorem least_crc03 : least0.crcOk = true ∧ least3.crcOk = true :=
  ⟨crc_in_parts least0 48 _ least_crc0 least_crc0', crc_in_parts least3 48 _ least_crc3 least_crc3'⟩

theorem crcs_of_five (a b c d e : Framed) (h : a.crcOk = true ∧ d.crcOk = true) (k : b.crcOk = true ∧ c.crcOk = true ∧ e.crcOk = true) :
    ([a, b, c, d, e].find? fun f => !f.crcOk) = none := by
  simp only [List.find?_cons, List.find?_nil, h, k, Bool.not_true]

theorem least_crcs : (leastFrames.find? fun f => !f.crcOk) = none := crcs_of_five _ _ _ _ _ least_crc03 least_crc124

theorem least_header : headerAgrees leastImage (leastFrames.map (·.body)) = true := by decide +kernel

theorem least_keys : mandatory held.cfg.keys = false := by decide +kernel

theorem least_records :
    checkRecords held.cfg.keys (withCandidate 1 (fieldAt leastImage 12 4) leastDigest none leastKnown) leastDigest
      (leastFrames.map (·.body)) leastKnown = none := by decide +kernel

/-- Checks that an image passes one by one make it whole. -/
theorem image_loads (keys : Vector KeySlot 4) (slot : Nat) (b digest : List Byte) (fs : List Framed)
    (hf : frames b (fieldAt b 8 4) (fieldAt b 8 4 / 12) 64 = .ok fs) (hd : sha256 (b.take (fieldAt b 24 4)) = digest)
    (hs : ((fs.map (·.body)).getLast?.map (·.payload)).getD [] = digest) (hc : (fs.find? fun f => !f.crcOk) = none)
    (hh : headerAgrees b (fs.map (·.body)) = true) (hm : mandatory keys = false)
    (hr : checkRecords keys (withCandidate slot (fieldAt b 12 4) digest none ((fs.map (·.body)).filter (·.known))) digest
      (fs.map (·.body)) ((fs.map (·.body)).filter (·.known)) = none) : (checkImage keys slot b).image.isSome = true := by
  simp only [checkImage, hf, hd, hs, hc, hh, hm, Bool.false_eq_true, if_false, if_true, Option.map_none, beq_self_eq_true, hr,
    HOrElse.hOrElse, OrElse.orElse, Option.orElse]
  rfl

/-- It passes every check, so that its slot is loaded. -/
theorem witness_good_image : (checkImage held.cfg.keys 1 leastImage).image.isSome = true :=
  image_loads _ _ _ _ leastFrames (by rw [least_lengths.1]; exact least_frames) (by rw [least_lengths.2]; exact least_digest)
    least_stored least_crcs least_header least_keys least_records

/-- Both slots hold the header, with equal generations. -/
def flashedTwice : State :=
  { flashed with flash := { flashed.flash with cells := memWriteAll erased flashed.flash.cells 0x100000 (smallImage.take 64) } }

theorem witness_candidates :
    (headerResult (flashedTwice.slotHeader 0)).candidate = true ∧ (headerResult (flashedTwice.slotHeader 1)).candidate = true ∧
      (headerResult (flashedTwice.slotHeader 0)).generation = (headerResult (flashedTwice.slotHeader 1)).generation := by decide +kernel

/-- LoaderChecksImage: the slot that is read holds no image. -/
theorem witness_image :
    (Meets { held with power := { phase := .up }, cfg := { current := some 0 } } fun u =>
      u.power.phase == .up && u.cfg.state == 0 && u.cfg.current == some 0) := by decide

/-! ## Laser, ports and time -/

def laserIn (x : LaserSt) : State := { plain with opt := { plain.opt with laser := x, everReady := true } }

/-- LaserStartsInOrder, LaserLossTurnsGatesOff, LaserFaultsAndWarnings: the laser may act in each of its states. -/
theorem witness_laser : ([.warming, .locking, .relock, .tuning, .settling, .ready] : List LaserSt).all (fun x =>
    ((laserIn x).elapse 0).lsrOn && ((laserIn x).elapse 0).opt.laser == x && ((laserIn x).elapse 0).hatbandActs &&
      ((laserIn x).elapse 0).opt.everReady) = true := by decide +kernel

/-- The first READY, on a port that launches and on one that is not used. -/
theorem witness_first_ready :
    Meets { cable with opt := { cable.opt with laser := .settling } } fun u =>
      !u.opt.everReady && u.lsrOn && u.als[(0 : Port)].st == .idle && u.portLaunches 0 && !u.portLaunches 1 := by decide +kernel

/-- LSR_RELEASE. -/
theorem witness_release : Meets plain fun u => u.power.phase == .up && u.cfg.state == 1 && u.opt.laser == .off := by decide +kernel

/-- The times and errors of the clauses: a second of SETTLING, 300 ms of an attempt, windows met and left at their bounds, and a second
row of Table 2.10 at the instant of the first. -/
theorem witness_laser_times :
    (Meets { laserIn .settling with opt := { (laserIn .settling).opt with settlingAt := plain.now - secP, leftReadyAt := some plain.now } } fun u =>
      u.lsrOn && decide (u.opt.settlingAt + secP = u.now) && u.opt.leftReadyAt == some u.now) ∧
    (Meets { laserIn .tuning with opt := { (laserIn .tuning).opt with leftReadyAt := some plain.now } } fun u =>
      u.lsrOn && u.opt.laser == .tuning && u.opt.leftReadyAt == some u.now) ∧
    (Meets { laserIn .relock with opt := { (laserIn .relock).opt with attemptAt := plain.now - 300 * msP } } fun u =>
      decide (u.opt.attemptAt + 300 * msP = u.now)) ∧
    (1000 : Int).natAbs ≤ 1000 ∧ (200 : Int).natAbs ≤ 200 ∧ (-10 : Int).natAbs ≤ 10 ∧ (50 : Int).natAbs ≤ 50 ∧ 500 < (501 : Int).natAbs ∧
      (-500 : Int).natAbs ≤ 500 ∧ 100 < (-101 : Int).natAbs ∧ (100 : Int).natAbs ≤ 100 ∧ 1000 < (1001 : Int).natAbs := by decide +kernel

/-- Ten losses within 60 s, the oldest just short of it; no relock attempts allowed; and a limit that is reached. -/
theorem witness_lock_losses :
    (Meets { laserIn .ready with opt := { (laserIn .ready).opt with losses := List.replicate 10 (plain.now + 1 - 60 * secP) } } fun u =>
      decide (10 ≤ (u.opt.losses.filter fun x => decide (u.now < x + 60 * secP)).length)) ∧
    (Meets { laserIn .relock with opt := { (laserIn .relock).opt with attempts := 3 } } fun u =>
      u.relockLimit == 3 && decide (u.relockLimit ≤ u.opt.attempts)) ∧
    (Meets (laserIn .relock) fun u => decide (u.opt.attempts < u.relockLimit)) ∧
    (Meets (on [rcd 0x21 12 []]) fun u => u.relockLimit == 0) ∧
    (Meets { laserIn .tuning with opt := { (laserIn .tuning).opt with waveFault := some (plain.now - 5 * secP) } } fun u =>
      (u.opt.waveFault.map fun t => decide (t + 5 * secP ≤ u.now)) == some true) := by decide +kernel

def openPort (gate : Option ShotFlight) : State :=
  { laserIn .ready with opt := { (laserIn .ready).opt with ports := #v[{ gate := gate, shutter := true }, {}] } }

/-- PortFaultsReport: an open gate at its limit, an open shutter. -/
theorem witness_port_faults :
    (Meets (openPort (some ⟨none, plain.now - gateLimit, tsPulse⟩)) fun u =>
      u.launchOn 0 && u.opt.ports[(0 : Port)].gate.isSome && u.opt.ports[(0 : Port)].shutter && u.hatbandActs &&
        (u.opt.ports[(0 : Port)].gate.map fun g => decide (g.openedAt + gateLimit ≤ u.now)) == some true) := by decide +kernel

/-- A port whose SOA drives are at their limit. -/
theorem witness_soa (ts : Bool) :
    Config.soaLimit 0 ≤ ({ drive := Config.soaLimit 0, tsDrive := Config.soaLimit 0 } : OptPort).driveOf ts := by
  cases ts <;> exact Int.le_refl _

def timed (t : Tim) (records : List ImgRec) : State := { on records with tim := t }
def running : Tim := { runs := true, incr := 640 * 2 ^ 32, time := 25600 }

/-- DeviceTimeAdvances. -/
theorem witness_time : running.runs = true ∧ 0 < running.incr ∧ running.incr ≤ 2 ^ 96 := by decide +kernel

/-- A period of CK_LNC advances device time by 2.5 ns, 640 LSB of 2⁻⁸ ns (R115). -/
theorem test_one_period : ((timed running []).elapse 1).tim.time = 26240 := by decide +kernel

/-- A PLL at every state that a clause names; PLL-D at the other counts. -/
theorem witness_pll :
    ([.acquire, .relock, .locked] : List PllSt).all (fun x =>
      let u := (timed { running with a := { st := x, good := 2, since := plain.now - 50 * msP, attempts := 3 } } []).elapse 0
      (u.pll .a).st == x && (u.pll .a).good + 1 == 3 && windowGood 400002 (u.expectedCount .a) && windowGood 399998 (u.expectedCount .a) &&
        !windowGood 400003 (u.expectedCount .a) && u.coastLimit != 0 && (u.pll .a).since + 50 * msP == u.now) = true ∧
    (Meets (timed { d := { st := .coast, since := plain.now - 10 * msP, coastAt := plain.now - 10 * secP } } []) fun u =>
      (u.pll .d).st == .coast && (u.pll .d).since + 10 * msP == u.now && (u.pll .d).coastAt + u.coastLimit * secP == u.now) ∧
    (Meets (timed { a := { st := .locked } } [rcd 0x30 8 []]) fun u => (u.pll .a).st == .locked && u.coastLimit == 0) ∧
    (Meets (timed { a := { st := .acquire, good := 2 } } []) fun u => !u.tim.runs && (u.pll .a).st == .acquire) := by decide +kernel

def synced (w : SyncWait) : State :=
  timed { running with sync := w, syncAt := plain.now - 60 * secP, pps := .track, syncEdge := some (2 * secLsb) } [rcd 0x31 20 [(2, 1, 1), (3, 1, 2)]]

/-- SyncEdgesAct and SyncTimersAndFrames. -/
theorem witness_sync :
    ([.first, .realign, .none] : List SyncWait).all (fun w =>
      let u := (synced w).elapse 0
      u.power.phase == .up && u.tim.runs && u.syncMode == 2 && u.tim.sync == w && u.tim.syncAt + 60 * secP == u.now && !u.tim.syncWaiting &&
        u.hatbandActs && !u.shotInFlight 0 && !u.shotInFlight 1 && u.tim.pps == .track && !u.tim.secondsLoaded && u.stepPermits) = true ∧
    (Meets { synced .realign with opt := (openPort (some ⟨none, 0, tsPulse⟩)).opt } fun u => u.shotInFlight 0) := by decide +kernel

/-- A frame of second 2 with its CRC and VALID (R124). -/

def validFrame : List Bool :=
  let body := bitList 32 2 ++ [true]
  [true, true] ++ body ++ bitsMsb 8 (crc8 body)

theorem witness_frame :
    validFrame.length = 43 ∧ bitsMsb 8 (crc8 ((validFrame.drop 2).take 33)) = (validFrame.drop 35).take 8 ∧
      validFrame.getD 34 false = true ∧ nearestSecond (2 * secLsb : Int) % (2 ^ 32 : Nat) = (bitsOf ((validFrame.drop 2).take 32) : Int) ∧
      nearestSecond (3 * secLsb : Int) % (2 ^ 32 : Nat) ≠ (bitsOf ((validFrame.drop 2).take 32) : Int) := by decide +kernel

/-- SecondsInAndOut: HOLDOVER is due; a whole second has just been reached, in both modes of SYNC_OUT; PPS_IN is stamped. -/
def second (mode : Nat) : State :=
  timed { running with time := BitVec.ofNat 64 (3 * secLsb + 600), pps := .track, acceptedAt := plain.now - 3 * secP } [rcd 0x31 20 [(4, 1, mode), (8, 2, 100)]]

theorem witness_seconds :
    (Meets (second 1) fun u => u.atSecond u.tim.incr == some 3 && u.ppsOutWidth != 0 && u.syncOutMode == 1 && u.cfg.state == 1 &&
      u.tim.pps == .track && u.tim.acceptedAt + 3 * secP == u.now && u.tim.ppsOutSec != some 3 && u.tim.syncOutSec != some 3) ∧
    (Meets (second 2) fun u => u.syncOutMode == 2 && u.atSecond ((if u.cfg.refFreq = 0 then 41 else 9) * u.tim.incr) == some 3) ∧
    (((second 1).stampEdge 2 ⟨638, 1279, 901, false⟩).2.isSome = true) := by decide +kernel

/-- Whatever a channel's delay, a last edge exists from which this one is too far. -/
theorem witness_pps_late (x : Int) : ∃ l : Int, 100 * usLsb < (x - l - secLsb).natAbs :=
  ⟨x - secLsb - 100 * usLsb - 1, by unfold secLsb usLsb; omega⟩

/-! ## Shots -/

/-- A port that launches on its own schedule without reference to device time, and may emit. -/
def lit (records : List ImgRec) : State :=
  let s := on records
  { s with
    opt := { s.opt with laser := .ready, everReady := true, ports := #v[{ shutter := true }, { shutter := true }] }
    tim := running
    als := #v[{ st := .disabled }, { st := .disabled }]
    mem := { s.mem with st := .running } }

def shotRecords (mode : Nat) : List ImgRec :=
  [rcd 0x20 16 [(4, 4, 1000), (8, 2, 14682)], rcd 0x40 24 [(1, 1, 2), (2, 1, 1), (4, 4, 50000), (8, 2, 500)],
    rcd 0x42 8 [(2, 2, 1600), (4, 2, 380)], rcd 0x43 16 [(1, 1, mode), (3, 1, 1), (6, 2, 1), (12, 2, 1000)]]

def withSht (s : State) (x : Sht) : State := { s with sht := #v[x, {}] }

def calling (x : Call) : State := withSht (lit (shotRecords 1)) { calls := [x] }

/-- GroupsStart: the first scheduled start, one where the port may not launch, and calls. -/
theorem witness_groups :
    (Meets (lit (shotRecords 0)) fun u => u.power.phase == .up && u.portLaunches 0 && !u.isShut 4 && !u.linkedTo0 0 &&
      (match u.due 0 with | .scheduled 0 _ => true | _ => false) && u.mayLaunch 0) ∧
    (Meets (withSht { lit (shotRecords 0) with als := #v[{ st := .shutdown }, {}] } { lastStart := some (plain.now - 200000) }) fun u =>
      (match u.due 0 with | .scheduled 0 _ => true | _ => false) && !u.mayLaunch 0) ∧
    (Meets (calling ⟨plain.now, 7, true, false⟩) fun u =>
      (match u.due 0 with | .called c => c.queued | _ => false) && u.hears 0 && u.mayLaunch 0) ∧
    (Meets { calling ⟨plain.now, 7, true, false⟩ with als := #v[{ st := .shutdown }, {}] } fun u =>
      (match u.due 0 with | .called _ => true | _ => false) && !u.hears 0) := by decide +kernel

def linkedRecords : List ImgRec :=
  rcd 0x20 16 [(0, 1, 1), (4, 4, 1000), (8, 2, 14682)] ::
    rcd 0x40 24 [(0, 1, 1), (1, 1, 2), (2, 1, 1), (3, 1, 1), (4, 4, 50000), (8, 2, 500)] :: shotRecords 1

def linkedCall : State :=
  let s := withSht (lit linkedRecords) { calls := [⟨plain.now, 7, false, false⟩] }
  { s with als := #v[{ st := .shutdown }, {}] }

/-- A call that is heard on a port that may not launch, as a linked P1 lets it be (R97). -/
theorem witness_anchored :
    Meets linkedCall fun u =>
      (match u.due 0 with | .called _ => true | _ => false) && u.hears 0 && !u.mayLaunch 0 := by decide +kernel

/-- Groups that fell due while FD04 was fenced; and a P0 that is off and leads a linked P1. -/
theorem witness_missed_and_led :
    (Meets (withSht (lit (shotRecords 0)) { missed := true, lastStart := some (plain.now - 400000) }) fun u =>
      u.sht[(0 : Port)].missed && (match u.due 0 with | .scheduled 1 _ => true | _ => false)) ∧
    (Meets (lit (rcd 0x40 24 [(4, 4, 50000)] :: linkedRecords.take 2)) fun u => u.leads 0 && !u.portLaunches 0 && (match u.due 0 with | .scheduled 0 _ => true | _ => false)) := by
  decide +kernel

def inGroup (k : Nat) (late : Nat) : State :=
  withSht (lit (shotRecords 0)) { group := some { number := 5, start := plain.now - late, pleats := k, wantsTs := true } }

/-- ShotsOpenTheGate: pleat 1 of two at half the period, the temperature shot at its offset, a gate at its end; and a port that may
not emit. -/
theorem witness_shots :
    (Meets (inGroup 1 100000) fun u => u.mayIssue 0 && u.pleats 0 == 2 &&
      (u.sht[(0 : Port)].group.map fun g => !g.stopped && g.pleats == 1 && decide (u.now = g.start + 1 * (u.periodP 0 / u.pleats 0))) == some true) ∧
    (Meets (inGroup 0 880) fun u => (u.sht[(0 : Port)].group.map fun g => g.wantsTs && decide (u.now = g.start + u.tsAt 0)) == some true) ∧
    (Meets { inGroup 0 0 with opt := { (inGroup 0 0).opt with laser := .relock } } fun u => !u.mayIssue 0) ∧
    (Meets (openPort (some ⟨some 0, plain.now - 800, ⟨0, 0, 1600⟩⟩)) fun u =>
      (u.opt.ports[(0 : Port)].gate.map fun g => decide (g.endsAt ≤ u.now)) == some true) := by decide +kernel

def waiting : State :=
  let s := withSht (lit (shotRecords 0)) { unseen := 15, awaiting := [{ tag := { group := 5 }, openedAt := plain.now - 400, scheduled := 9 }] }
  { s with tiu := { s.tiu with ch := Vector.replicate 8 { measuredAt := some (plain.now - 24) } } }

/-- LaunchTimestamps: a measured edge, a missed one, and the stop timeout at its instant, the sixteenth in a row. -/
theorem witness_timestamps :
    (Meets waiting fun u => u.power.phase == .up && u.sht[(0 : Port)].awaiting.length == 1 && !u.isShut 19 &&
      decide (plain.now - 400 + u.tiuTimeout * usP ≤ u.now) && u.sht[(0 : Port)].unseen == 15 &&
      (u.measure 0 ⟨638, 1279, 901, false⟩).2.isSome && (u.measure 0 ⟨638, 1279, 901, true⟩).2.isNone) ∧
    (Meets (withDom waiting 19 { shut := true }) fun u => u.isShut 19) := by decide +kernel

def edged (since : Nat) (x : Sht) : State := withSht (lit (shotRecords 1)) { x with edge := some ⟨since, some 7⟩ }

/-- TriggersCallGroups: a level change, an edge held for its deglitch time with the prescaler at its end and before it, and a timeout. -/
theorem witness_triggers :
    (Meets (edged plain.now {}) fun u => u.power.phase == .up && !u.isShut 4 && u.trigLevel[(0 : Fin 2)] != true && u.trigInput 0 == some 0 &&
      u.deglitch 0 == 0 && u.prescale 0 == 1 && u.hears 0 && u.sht[(0 : Port)].calls.isEmpty && u.sht[(0 : Port)].lastStart.isNone &&
      u.trigInput 1 != some 0 && u.queueOne 0 == 1) ∧
    (Meets { edged plain.now {} with als := #v[{ st := .shutdown }, {}] } fun u => !u.hears 0) ∧
    (Meets (edged plain.now { lastStart := some (plain.now - 200000 + 64) }) fun u =>
      u.hears 0 && u.sht[(0 : Port)].lastStart == some (u.now + 64 - u.periodP 0)) ∧
    (Meets (edged plain.now { lastStart := some (plain.now - 200000 + 65) }) fun u =>
      u.hears 0 && u.sht[(0 : Port)].lastStart == some (u.now + 65 - u.periodP 0)) ∧
    (Meets (withSht (lit (rcd 0x43 16 [(1, 1, 1), (6, 2, 1)] :: shotRecords 0)) {}) fun u => u.queueOne 0 == 0) ∧
    (Meets (withSht (lit (rcd 0x43 16 [(1, 1, 1), (6, 2, 3)] :: shotRecords 0)) { edge := some ⟨plain.now, none⟩, prescaled := 1 }) fun u =>
      decide (u.sht[(0 : Port)].prescaled + 1 < u.prescale 0)) ∧
    (Meets (withSht (lit (shotRecords 1)) { callAt := plain.now - 1000 * msP }) fun u => u.portLaunches 0 && u.external 0 && u.trigTimeoutMs 0 != 0 &&
      u.hatbandActs && decide (u.sht[(0 : Port)].callAt + u.trigTimeoutMs 0 * msP = u.now)) := by decide +kernel

/-- The late trigger of chapter 3: an edge 339 µs after the last start of a 500 µs period is held to the start at 500 µs, a second
one is counted late. -/
def lateTrigger : State :=
  { (edged plain.now { lastStart := some (plain.now - 135600) }) with now := plain.now }

theorem test_late_trigger :
    (match exec (.triggerEdgeAccepted 0 0) lateTrigger with
     | .next t => t.sht[(0 : Port)].calls == [⟨plain.now - 135600 + 200000, 7, true, false⟩]
     | _ => false) = true ∧
    (match exec (.triggerEdgeAccepted 0 0) { lateTrigger with sht := #v[{ lateTrigger.sht[(0 : Port)] with calls := [⟨plain.now + 64400, 7, true, false⟩] }, {}] } with
     | .next t => t.sht[(0 : Port)].trigLate == 1 && t.sht[(0 : Port)].calls == [⟨plain.now + 64400, 7, true, false⟩]
     | _ => false) = true := by decide +kernel

/-- SHT_P1_TRIG_LATE lies at BAR0 0x07_0058 (chapter 15). -/
theorem test_trig_late_address :
    (State.statusRead { plain with sht := #v[{}, { trigLate := 3 }] } .pcie 0x070058 8).1 = [3, 0, 0, 0, 0, 0, 0, 0] := by decide +kernel

/-! ## Acquisition to alarms -/

def acquiring (x : Acq) : State := { lit (shotRecords 0) with acq := #v[x, {}] }

def oneRecord (noticed : Bool) : AcqRec :=
  { tag := { group := 5 }, openedAt := plain.now - 400, first := plain.now - 40, len := 20, slot0 := 0, calSet := 0
    serving := Vector.replicate 4 #v[0, 1, 2, 3]
    notice := if noticed then some { tag := { group := 5 }, start := 0, length := 20, offset := 0, calSet := 0, clipInstants := 0 } else none }

/-- RecordsAdmittedAndNoticed: a launch with FD05 running and fenced, and a record whose last instant has just been written. -/
theorem witness_records :
    (Meets (inGroup 1 100000) fun u => !u.isShut (acqDomain 0) && !u.selfSupplied 0 && u.mayIssue 0 &&
      decide (({ u.acq[(0 : Port)] with records := [{ oneRecord false with len := u.nSamples 0 }] } : Acq).level ≤ queueSize)) ∧
    (Meets (withDom (inGroup 1 100000) 5 { shut := true }) fun u => u.isShut (acqDomain 0) && u.mayIssue 0) ∧
    queueSize < ({ records := [{ oneRecord false with len := queueSize + 1 }] } : Acq).level ∧
    (Meets (acquiring { records := [oneRecord false] }) fun u => u.acqOn 0 &&
      ((u.acq[(0 : Port)].records.find? fun q => !q.noticed).map fun r => decide (r.first + 2 * r.len ≤ u.now) && !u.untimed 0 r.tag) == some true) := by
  decide +kernel

def updating (x : Acq) (min_ : Nat) : State :=
  { lit (rcd 0xD0 16 [(0, 1, 1), (4, 2, 10), (6, 2, min_)] :: shotRecords 0) with acq := #v[x, {}] }

/-- CalibrationUpdates: due at this instant with a substitution pending, short for the sixteenth time, and with enough of both;
a substitution that takes effect at the last group start. -/
theorem witness_calibration :
    (Meets (updating { pendingSubst := [(0, 1)], cal := { due := some plain.now } } 0) fun u =>
      u.acq[(0 : Port)].cal.due == some u.now && u.calOn 0 && u.acq[(0 : Port)].pendingSubst != []) ∧
    (Meets (updating { cal := { due := some plain.now, shortRun := 15 } } 32) fun u => u.calShort 0 && u.calOn 0 && u.hatbandActs) ∧
    (Meets (updating { cal := { due := some plain.now } } 0) fun u => !u.calShort 0 && u.calOn 0 && u.acq[(0 : Port)].pendingSubst == []) ∧
    (Meets { updating { pendingSubst := [(0, 1)], pendingAt := plain.now } 0 with sht := #v[{ lastStart := some plain.now }, {}] } fun u =>
      u.acqOn 0 && u.sht[(0 : Port)].lastStart == some u.acq[(0 : Port)].pendingAt) := by decide +kernel

/-- An update that is not due; one whose only bad slice is a shadowing spare, and one that finds a serving slice at its limit; a single
slice to be substituted. -/
theorem witness_slices :
    (Meets (updating { cal := { due := some (plain.now + 1) } } 0) fun u => (u.acq[(0 : Port)].cal.due.map fun d => decide (u.now < d)) == some true) ∧
    (Meets (updating { spare := #v[1, 0, 0, 0], cal := { due := some plain.now } } 0) fun u =>
      (u.badSlices 0 [] false [(0, 3)]).map (·.2.1) == [4] && (u.acq[(0 : Port)].slotOf 0 4).isNone) ∧
    (Meets (updating { cal := { due := some plain.now } } 0) fun u =>
      (u.badSlices 0 (15 :: 16 :: List.replicate 58 0) false []).any fun b => (u.acq[(0 : Port)].slotOf b.1 b.2.1.val).isSome) ∧
    (Meets (updating { pendingSubst := [(0, 1)] } 0) fun u => u.acq[(0 : Port)].slotOf 0 1 == some 1) := by decide +kernel

/-- PhaseRecordsProcessed. -/
theorem witness_phase :
    Meets (acquiring { records := [oneRecord true] }) fun u => u.decOn 0 && (u.acq[(0 : Port)].records.all fun r => r.noticed) := by
  decide +kernel

/-- GaugeAccumulates: wrapping to (−π, +π] (R174), and WRAP_GUARD at its default. -/
theorem witness_gauge : plain.wrapGuard 0 = 14336 ∧ wrapPhase 14336 = 14336 ∧ wrapPhase 16384 = 16384 ∧ wrapPhase (-16384) = 16384 ∧ wrapPhase 16385 = -16383 := by
  decide +kernel

def sensing (d : Dts) : State := { lit (shotRecords 0) with dts := #v[d, {}] }

def openRaman : RamanRec := { tag := { group := 5, temperature := true }, openedAt := plain.now - 4000, closesAt := plain.now, gains := #v[1, 0] }

/-- RamanFrontEnd: a record that closes now, before the boundary; offsets before the first launch; an APD that is biased. -/
theorem witness_raman :
    (Meets (sensing { recs := [openRaman], boundary := some 100 }) fun u => u.ramanOn 0 && u.slotsKnown 0 openRaman && !u.dts[(0 : Port)].closing) ∧
    (Meets (sensing { biasOff := false }) fun u => u.power.phase == .up && u.hasRaman 0 && u.runs 7 && !u.sht[(0 : Port)].launched &&
      u.hatbandActs && !u.dts[(0 : Port)].biasOff && decide (3 * u.biasSet 0 .as < 100 * ((0 : Int) - u.biasSet 0 .as).natAbs)) ∧
    (Meets { lit (shotRecords 0) with sht := #v[{ launched := true }, {}], als := #v[{}, {}], darkFrom := #v[some (plain.now - 10 * msP), none] }
      fun u => !u.mayEmit 0 && u.darkFrom[(0 : Port)] == some (u.now - 10 * msP)) ∧
    (Meets (withDom (lit (shotRecords 0)) 7 { st := .attempt, shut := true }) fun u => u.hasRaman 0 && (u.dom 7).st == .attempt) ∧
    (512 < (-513 : Int).natAbs ∧ (512 : Int).natAbs ≤ 512) := by
  decide +kernel

/-- While an update closes, a record that came before its boundary. -/
theorem witness_raman_closing :
    Meets (sensing { recs := [openRaman], boundary := some 100, closing := true }) fun u =>
      u.ramanOn 0 && decide (u.extOf openRaman.tag.launchTime < 100) := by decide +kernel

/-- DtsUpdatesClose: an unanchored boundary that is due, the first boundary of an anchored port, a swap with nothing open, and the
third in a row with too many errors. -/
theorem witness_dts :
    (Meets (sensing { next := some 25600 }) fun u => u.ramanOn 0 && u.dts[(0 : Port)].next == some (u.extTime : Int) && !u.dtsAnchored 0 &&
      !u.dts[(0 : Port)].closing && u.dts[(0 : Port)].proc.isNone) ∧
    (Meets { lit (rcd 0x40 24 [(1, 1, 2), (2, 1, 1), (4, 4, 50000), (10, 1, 1)] :: shotRecords 0) with tim := { running with time := 641 } } fun u =>
      u.dtsAnchored 0 && u.ramanOn 0 && u.tim.runs && u.dts[(0 : Port)].next.isNone && decide ((u.extTime : Int) % u.updateLsb 0 ≤ 641)) ∧
    (Meets (sensing { closing := true, boundary := some 100, battRun := 2, acc := { records := 1 } }) fun u => u.ramanOn 0 && u.dts[(0 : Port)].closing &&
      (u.dts[(0 : Port)].recs.all fun r => !u.untimed 0 r.tag) && u.dts[(0 : Port)].acc.records != 0) := by decide +kernel

/-- ProfilesAndHolds: an update to process, and a reading whose hold ends now. -/
theorem witness_profile :
    (Meets (sensing { proc := some {}, boundary := some 100 }) fun u => u.ramanOn 0 && u.dts[(0 : Port)].proc.isSome && u.phs[(0 : Port)].expect.isEmpty) ∧
    (Meets (sensing { near := { lostAt := some (plain.now - 300 * secP) } }) fun u => u.holdOver 0 u.dts[(0 : Port)].near) := by decide +kernel

def supplying (records : List ImgRec) (x : Sup) : State := { on (rcd 0x62 24 [] :: records) with sup := x, tim := { running with a := { controlled := true } } }

/-- SupConverts: passes that are continuous or timed, halves in range and beyond, a burn-out test, a coarse value, each at the end
of its settling; and the last channel of a pass. -/
theorem witness_sup :
    (Meets (supplying [] {}) fun u => u.supOn && u.supSequence == [0, 4, 5, 6, 7, 8, 9, 10] && u.supPeriod == 0 && !u.sup.converting) ∧
    (Meets (supplying [rcd 0xC1 32 [(5, 1, 1), (8, 4, 1)]] { converting := true }) fun u => u.supPeriod != 0 &&
      ((u.extTime : Int) - (u.supDelay * 256000000 : Nat)) / ((u.supPeriod * 256000000 : Nat) : Int) != u.sup.timer) ∧
    (([.plus, .minus 5, .burnOut true] : List SupStep).all fun x =>
      let u := (supplying [] { converting := true, step := x, beganAt := plain.now - 32400000 }).elapse 0
      u.supOn && u.sup.step == x && decide (u.sup.beganAt + u.supRestart u.sup.step + u.supSettle ≤ u.now) && u.sup.pos + 1 < u.supSequence.length) = true ∧
    (Meets (supplying [] { converting := true, pos := 7, beganAt := plain.now - 32040000 }) fun u =>
      decide (u.sup.beganAt + u.supRestart u.sup.step + u.supSettle = u.now) && decide (u.supSequence.length ≤ u.sup.pos + 1)) ∧
    supOver 8220837 = true ∧ supOver 8220835 = false ∧ supOver (code24 8388607) = true ∧
    (Meets (supplying [rcd 0xC1 32 [(3, 1, 1), (5, 1, 1)]] { converting := true, beganAt := plain.now - 3 * msP - 400000 }) fun u =>
      u.supCoarse == 1 && !u.sup.coarseDone && decide (u.sup.beganAt + u.supRestart u.sup.step + 3 * msP ≤ u.now)) := by decide +kernel

/-- A notice that demands output 0, on its way to one node. -/
def demanding (sink : Region) : EvtFlit :=
  { tells := { demand := 1, breaks := Vector.replicate 2 (false, 0), ends := Vector.replicate 2 none }, sinks := [sink] }

def alarmed (mode : Nat) (x : AlarmOut) : State :=
  { on [rcd 0x72 16 [(1, 1, mode), (4, 2, 100), (6, 2, 1)]] with alarms := #v[x, {}, {}, {}], evt := { running := true, notice := some (demanding 9) } }

/-- AlarmsFollowDemand: both modes, a fenced output, and an output asserted for MIN_ASSERT. -/
theorem witness_alarms :
    (Meets (alarmed 0 { asserted := true, since := plain.now - 100 * msP }) fun u => u.live && u.mayInject .evt && u.evt.notice == some (demanding 9) && !u.alarms[(0 : Fin 4)].fenced &&
      !u.alarms[(0 : Fin 4)].waits && u.alarmEntries 0 != [] && u.alarmMode 0 == 0 && u.alarms[(0 : Fin 4)].asserted && !u.alarms[(0 : Fin 4)].demanded &&
      decide (u.alarms[(0 : Fin 4)].since + u.minAssert 0 * msP = u.now) && u.alarmEntries 1 == []) ∧
    (Meets (alarmed 1 {}) fun u => u.alarmMode 0 == 1) ∧
    (Meets { alarmed 0 {} with evt := { running := true, notice := some (demanding 6) } } fun u =>
      (u.evt.notice.map fun f => !f.sinks.contains 9) == some true) := by decide +kernel

def warned (code : U32) (holders : List Nat) : State :=
  { plain with hb := { plain.hb with warnings := [⟨code, 0, plain.now - secP, holders⟩] }, evt := { running := true } }

/-- NoticesAndWarnings: a warning absent for 1 s, a sticky one, one that holds; a source that may inject and one that may not, states
that were told and not, and a repetition that is due. -/
theorem witness_warnings :
    (Meets (warned 0x000F0001#32 []) fun u => u.live && u.hatbandActs && u.evtOn && !stickyWarning 0x000F0001#32 && u.bbx.queue.length < 64 &&
      (u.hb.warnings.all fun w => w.code == 0x000F0001#32 && w.holders.isEmpty && decide (w.seenAt + secP = u.now))) ∧
    stickyWarning 0x00030001#32 = true ∧ (Meets (warned 0x000F0001#32 [0]) fun u => u.hb.warnings.all (!·.holders.isEmpty)) ∧
    (Meets plain fun u => !u.evtOn && u.mayInject .operator && u.permits.sent != some u.operatorTells) ∧
    (Meets { plain with permits := { plain.permits with sent := some plain.operatorTells } } fun u => u.permits.sent == some u.operatorTells) ∧
    (let s := { plain with fab := { plain.fab with u := { plain.fab.u with sentAt := Vector.replicate 4 (some (plain.now - 3)), repeatedAt := plain.now - usP } } }
     Meets s fun u => !u.mayInject .operator && u.fab.u.repeatedAt + usP == u.now && u.hb.ctlA == .active) := by decide +kernel

/-- RegionsSampled: seams whose difference is exactly at a bound, and one that came within its bound 1 ms ago. -/
theorem witness_regions :
    (Meets { plain with fab := { plain.fab with seams := Vector.replicate 13 { beyond := true, outAt := plain.now - msP } } } fun u =>
      u.live && u.hatbandActs && (u.fab.seams.toList.all fun x => decide (x.outAt + msP = u.now) && x.beyond)) := by decide +kernel

def linkErrors : State :=
  { plain with
    fab := { plain.fab with
      nodes := Vector.replicate 10 { recent := List.replicate 64 (plain.now + 1 - secP) }
      regions := Vector.replicate 10 { margin := 300 } } }

/-- MarginsLinksAndStalls: the 65th error of a second, a region with a required rate; a domain in service in it. -/
theorem witness_links :
    (Meets (withDom linkErrors 5 { st := .running }) fun u => u.live && u.hatbandActs && u.bbx.queue.length < 64 &&
      decide (64 ≤ (u.fab.nodes[(3 : Region)].recent.filter fun x => decide (u.now < x + secP)).length) &&
      u.fab.regions[(0 : Region)].margin != 0xFFFF && (u.dom 5).st != .idle && (regionDomains 0).contains 5) ∧
    (Meets linkErrors fun u => u.passes (.coherent 0 [0]) 2 && !u.passes (.coherent 0 [0]) 3 && u.passes (.phase 0) 4 && u.passes (.urgent .evt) 9 &&
      u.passes (.urgent .hbA) 4 && u.passes (.urgent .operator) 8 && u.passes (.background .status true) 3) := by decide +kernel

/-! ## Memory -/

def memoryRecord (verify : Nat) : ImgRec :=
  rcd 0x80 28 [(0, 1, 4), (2, 1, 1), (3, 1, 8), (4, 1, 8), (5, 1, verify), (7, 1, 85), (13, 2, 100), (15, 2, 200), (17, 2, 20), (19, 1, 24), (21, 2, 100)]

def withMem (x : Mem) (verify : Nat := 1) : State :=
  { on [memoryRecord verify, rcd 0x82 28 [(16, 4, 16)]] with mem := x, tim := { running with d := { st := .locked } } }

/-- MemoryStarts: VDDQ at both its bounds, a verification, a fill, a sweep. -/
theorem witness_memory_start :
    (Meets (withMem {}) fun u => u.memStarts && u.mem.st == .off && u.tim.d.st == .locked && u.vddqOk 1140 && u.vddqOk 1260 && !u.vddqOk 1139) ∧
    (Meets (withMem { st := .starting }) fun u => u.memStarts && u.mem.st == .starting && u.memVerify == 1 && !u.mem.verified) ∧
    (Meets (withMem { st := .starting, verified := true }) fun u => u.mem.verified && u.memVerify != 2 && u.ringBytes 0 == 16777216) ∧
    (Meets (withMem { st := .starting } 2) fun u => u.memVerify == 2 && u.memForm == 0 && u.verifyMargin == 0) := by decide +kernel

/-- MemoryRefreshes: in a segment and outside one, with three and four postponed; both generations; self-refresh in and out. -/
theorem witness_refresh :
    (Meets (withMem { st := .running, rtMid := true, postponed := 3 }) fun u => u.live && !u.isShut 13 && u.mem.rtMid && u.mem.postponed < 4 && u.memGeneration == 4 && u.hatbandActs &&
      decide (u.mem.refreshAt + u.refreshInterval ≤ u.now) && decide (u.mem.polledAt + 32 * msP ≤ u.now)) ∧
    (Meets (withMem { st := .running, refreshAt := plain.now, polledAt := plain.now }) fun u => u.now < u.mem.refreshAt + u.refreshInterval && !u.mem.rtMid &&
      u.now < u.mem.polledAt + 32 * msP) ∧
    (Meets (withMem { st := .running, rtMid := true, postponed := 4 }) fun u => decide (4 ≤ u.mem.postponed)) ∧
    (Meets { withMem { st := .running } with cfg := { state := 1, image := some { records := [rcd 0x80 28 [(0, 1, 5)]] } } } fun u => u.memGeneration == 5) ∧
    ([1, 2].foldl max (0 : Nat) = 2 ∧ [1, 3].foldl max (0 : Nat) = 3) ∧
    (Meets (withMem { st := .running, requestAt := plain.now - 100 * msP }) fun u => u.srIdle != 0 && !u.mem.waits && u.mem.srNotBefore ≤ u.now &&
      decide (u.mem.requestAt + u.srIdle * msP = u.now)) ∧
    (Meets (withMem { st := .selfRefresh, scrub := some (0, false) }) fun u => u.mem.st == .selfRefresh) ∧
    (Meets (withMem { st := .selfRefresh, host := [⟨0, 4, 0, [], false, false⟩] }) fun u => u.mem.waits) := by decide +kernel

def anAccess : Access := { addr := 64, ring := 0, write := some [1, 2], arrived := plain.now - 80000 }

/-- MemoryPortsServe: a request at each port in turn, postponed refreshes, and a scrub that is due at this instant. -/
theorem witness_ports :
    (Meets (withMem { st := .running, rt := [anAccess] }) fun u => u.memServes && Memory.wf 0 u.mem.cells && u.mem.postponed == 0 && u.choosePort == some 0) ∧
    (Meets (withMem { st := .running, snap := [anAccess] }) fun u => u.choosePort == some 1) ∧
    (Meets (withMem { st := .running, host := [⟨0, 4, plain.now, [], false, false⟩] }) fun u => u.choosePort == some 2 &&
      (u.mem.host.all fun h => h.accesses == 1 && decide (h.offset / 64 * 64 < u.capacity))) ∧
    (Meets (withMem { st := .running, host := [⟨8589934592, 4, plain.now, [], false, false⟩] }) fun u => decide (u.capacity ≤ 8589934592)) ∧
    (Meets (withMem { st := .running, scrub := some (plain.now, false), scrubAddr := 8589934528 }) fun u => u.choosePort == some 3 && !decide (u.mem.scrubAddr + 64 < u.capacity)) ∧
    (Meets (withMem { st := .running, postponed := 1 }) fun u => u.mem.postponed != 0 && !u.mem.rtMid) ∧
    (Meets (withMem { st := .running }) fun u => u.scrubHours != 0 && u.mem.scrub.isNone &&
      decide (u.scrubHours * 3600 * secP * 64 ≤ (u.now - u.mem.scrubAt) * u.capacity)) := by decide +kernel

/-- UrgencyFollowsAge: ages at half, three quarters and the whole of a deadline, an overdue request behind a counted one. -/
theorem witness_urgency :
    (Meets (withMem { st := .running, snap := [anAccess] }) fun u => u.portDeadline 1 == 80000 && u.oldestRequest 1 == some (u.now - 80000) && !u.mem.snapOverdue) ∧
    (Meets (withMem { st := .running, snap := [{ anAccess with arrived := plain.now - 40000 }] }) fun u => u.portUrgency 1 == some 1) ∧
    (Meets (withMem { st := .running, snap := [{ anAccess with arrived := plain.now - 60000 }] }) fun u => u.portUrgency 1 == some 2) ∧
    (Meets (withMem { st := .running, host := [⟨0, 4, 0, [], false, true⟩, ⟨0, 4, plain.now - 8000, [], false, false⟩] }) fun u =>
      u.portDeadline 2 == 8000 && (u.mem.host.head?.map (·.overdue)) == some true) ∧
    (Meets (withMem { st := .running, scrub := some (plain.now - 400000, false) }) fun u => u.portDeadline 3 == 400000) := by decide +kernel

def ringed (x : Ring) (items : List RtItem) : State :=
  withMem { st := .running, rings := #v[x, {}, {}], items := #v[items, [], []] }

def anItem : RtItem := { bytes := [1, 2, 3, 4] }

/-- RingsAndSnapshots: an item at a fenced writer, in an abandoned segment, at a full queue, and one that is queued; a segment to
flush now. -/
theorem witness_rings :
    (Meets (withDom (ringed {} [anItem]) 13 { shut := true }) fun u => u.isShut 13 && u.mem.items[(0 : Fin 3)].length == 1) ∧
    (Meets (ringed { size := 4096, skip := 1 } [anItem]) fun u => u.ringsOpen && u.mem.rings[(0 : Fin 3)].skip != 0 && (u.mem.items[(0 : Fin 3)].all fun i => !i.begun)) ∧
    (Meets (ringed { size := 8192 } [anItem]) fun u => decide (u.mem.queueLevel + min anItem.size pieceBytes ≤ queueBytes) && decide (anItem.bytes.length ≤ pieceBytes)) ∧
    (Meets (ringed { size := 8192, openSeg := some { seq := 3, payload := [1] }, lastAt := plain.now - 100 * msP } []) fun u =>
      u.ringsOpen && u.memFlushMs != 0 && decide (u.mem.rings[(0 : Fin 3)].lastAt + u.memFlushMs * msP = u.now)) := by decide +kernel

theorem queue_level (l : List Access) : ({ rt := l } : Mem).queueLevel = 64 * l.length := by
  have h : ((Vector.replicate 3 ({} : Ring)).toList.map fun r => (r.openSeg.map fun x => x.payload.length % 64).getD 0).sum = 0 := by decide
  show 64 * l.length + _ = _
  exact (congrArg (64 * l.length + ·) h).trans rfl

/-- The writer queue is full with 8,192 accesses. -/
theorem witness_full_queue : queueBytes < ({ rt := List.replicate 8192 anAccess } : Mem).queueLevel + min anItem.size pieceBytes := by
  rw [queue_level, List.length_replicate]
  decide

def aRequest : SnapReq :=
  { id := 1, sequence := 1, port := 0, detector := 0, zone := 0, fromJ := 0, toJ := 0, first := 0, count := 1, segs := 1, ringSeq := 1 }

/-- A snapshot whose last sample lies in a closed segment. -/
theorem witness_snapshot :
    Meets (withMem { st := .running, requests := [aRequest], rings := #v[{ size := 8192, seq := 2, closed := 1, items := [⟨0, 0, 1, 0, 4, [⟨5, 0, 0, 0, 0, [], []⟩]⟩] }, {}, {}] }) fun u =>
      (u.mem.requests.find? u.snapReady) == some aRequest && u.memServes && u.ringsOpen && u.mem.copying.isNone := by decide +kernel

/-! ## Lanes and PCI Express -/

def laneRecords : List ImgRec :=
  [rcd 0xA0 28 [(10, 1, 1), (12, 1, 10), (15, 1, 1), (16, 3, 0xFFFFFF), (24, 2, 4820), (26, 2, 60)],
    rcd 0xA1 32 [(20, 1, 10), (23, 1, 2), (8, 1, 1), (10, 2, 100), (28, 2, 1000), (30, 2, 100)]]

def lane (x : LaneSt) : State := { on laneRecords with lanes := #v[x, {}] }

def resolved : LaneSt := { up := true, arp := [{ ip := 0x0A000002#32, mac := some 7, refreshedAt := plain.now }] }

def withRoute (s : State) (x : RouteSt) : State := { s with routes := s.routes.set 0 x }

def aRecord : PRec := { typ := 0x10, port := 0, payload := [0, 0, 0, 0] }

/-- RecordsReachTheLine: a lane that is down, a full buffer, a free line, and a line in use. -/
theorem witness_line :
    (Meets (withRoute (lane {}) { inflight := [aRecord] }) fun u => !u.routeSends 0) ∧
    (Meets (withRoute (lane resolved) { inflight := [aRecord] }) fun u => u.routeSends 0 && decide (u.lanes[u.routeLane 0].used + aRecord.size ≤ 4194304) &&
      u.lanes[u.routeLane 0].sending.isNone && u.routeMac 0 == some 7) ∧
    (Meets (withRoute (lane { resolved with sending := some ⟨0, 7, [0]⟩, normal := [⟨0, aRecord⟩] }) { inflight := [aRecord] }) fun u =>
      u.lanes[u.routeLane 0].sending.isSome && u.laneUp 0 && u.lanes[(0 : Lane)].urgent.isEmpty) := by decide +kernel

theorem sending_used (l : List Byte) : ({ sending := some ⟨0, 7, l⟩ } : LaneSt).used = l.length := by
  simp [LaneSt.used]

/-- A transmit buffer that a record would overflow. -/
theorem witness_full_buffer : 4194304 < ({ sending := some ⟨0, 7, List.replicate 4194304 0⟩ } : LaneSt).used + aRecord.size := by
  have h : 0 < aRecord.size := by decide +kernel
  rw [sending_used, List.length_replicate]
  omega

/-- TimersFormRecords: a heartbeat and housekeeping due now, shot tags whose oldest is 10 ms old, and a coder of the route. -/
theorem witness_timers :
    (Meets (withRoute (lane resolved) { sentAt := plain.now - 1000 * msP, housekeptAt := plain.now - 100 * msP }) fun u => u.live && (u.routeRec 0).isSome &&
      u.heartbeatMs 0 != 0 && u.routeSends 0 && decide (u.routes[(0 : RouteId)].sentAt + u.heartbeatMs 0 * msP = u.now) && u.housekeepingMs 0 != 0 &&
      decide (u.routes[(0 : RouteId)].housekeptAt + u.housekeepingMs 0 * msP = u.now) && !u.ring2Takes 0x31 && !u.isShut 12 && u.routeCoding 0 != 0 &&
      u.routeFlushMs 0 != 0 && !u.routeSends 1) ∧
    (Meets (withRoute plain { tags := #v[{ entries := [[0]], firstAt := plain.now - 10 * msP }, {}] }) fun u =>
      decide (u.routes[(0 : RouteId)].tags[(0 : Port)].firstAt + 10 * msP = u.now)) ∧
    (Meets { on [rcd 0x80 28 [(21, 2, 100)], rcd 0x82 28 [(3, 1, 1)]] with ringCoders := #v[{ port := 0, product := 0, coarse := false, lastAt := plain.now - 100 * msP }, { port := 1, product := 0, coarse := false }] } fun u =>
      u.histCoding 0 != 0 && u.memFlushMs != 0 && decide (u.ringCoders[(0 : Port)].lastAt + u.memFlushMs * msP = u.now)) := by decide +kernel

/-- LanesResolve: up, with a next hop unknown, stale, or asked for the third time; down, and to go up; and to go down. -/
theorem witness_lanes :
    (Meets (lane { resolved with arp := [] }) fun u => u.laneUp 0 && u.laneHops 0 == [0x0A000002#32] && u.icmpEcho 0 == 1 && u.ethIp 0 == 0x0A000001#32) ∧
    (Meets (lane { resolved with arp := [{ ip := 0x0A000002#32, mac := some 7, refreshedAt := plain.now - 60 * secP }] }) fun u =>
      u.lanes[(0 : Lane)].arp.all fun e => e.unanswered == 0 && decide (e.refreshedAt + u.arpRefreshS 0 * secP = u.now)) ∧
    (Meets (lane { resolved with arp := [{ ip := 0x0A000002#32, mac := none, unanswered := 3, askedAt := plain.now - secP }] }) fun u =>
      u.lanes[(0 : Lane)].arp.all fun e => decide (e.askedAt + secP = u.now)) ∧
    (Meets (lane {}) fun u => u.laneOn 0 && !u.lanes[(0 : Lane)].up) := by decide +kernel

def aReq (sync : U16) (op offset length : Nat) : MgmtReq := ⟨sync, op, 1, offset, length, [1, 2, 3, 4], 0x0A000002#32, 5000, 7⟩

/-- ManagementAnswers: a lane with a port and one without, and requests at the end of the readable space. -/
theorem witness_management :
    (Meets (lane resolved) fun u => u.laneUp 0 && u.mgmtPort 0 != 0 && u.mgmtPort 0 == 4820) ∧
    (Meets { on [rcd 0xA0 28 [(12, 1, 10)]] with lanes := #v[{ up := true }, {}] } fun u => u.laneUp 0 && u.mgmtPort 0 == 0) ∧
    (aReq mgmtSync 1 (statusEnd - 1024) 1024).offset + 1024 = statusEnd ∧ (aReq mgmtSync 1 (statusEnd - 1020) 1024).offset + 1024 = statusEnd + 4 ∧
    (aReq mgmtSync 1 0 1024).sync = mgmtSync ∧ (aReq 0 1 0 4).sync ≠ mgmtSync ∧ (aReq mgmtSync 4 0 0).op ≠ 3 := by decide +kernel

/-- A lane that holds sixteen requests of this instant, and one that held them at another. -/
theorem witness_management_full :
    (Meets (lane { resolved with asked := 16, askedAt := plain.now }) fun u => 16 ≤ u.lanes[(0 : Lane)].heldAt u.now) ∧
    (Meets (lane { resolved with asked := 16, askedAt := plain.now - 1 }) fun u => u.lanes[(0 : Lane)].heldAt u.now < 16) := by decide +kernel

def hosted (x : Pcie) (m : Mailbox) : State := { on [memoryRecord 1, rcd 0xA2 12 [(4, 2, 100)]] with pcie := x, mbx := m, mem := { st := .running } }
def linkUp : Pcie := { link := .up }

/-- PcieRequestsComplete: a function that serves, one in D3hot, one still loading, one without a record in UNCONFIGURED; BAR2 at its
end and behind the capacity; a staging on the mailbox. -/
theorem witness_pcie :
    (Meets (hosted linkUp {}) fun u => u.live && u.pciePresent && u.pcieServes && u.pcie.link == .up && u.cfg.state != 0 && u.mbxStaging.isNone &&
      u.bar2Bytes == 8589934592 && u.capacity == 8589934592 && u.mem.host.isEmpty && !u.isShut 13) ∧
    (Meets (hosted { linkUp with d3hot := true } {}) fun u => u.pciePresent && u.pcie.link == .up && !u.pcieServes) ∧
    (Meets { plain with cfg := {} } fun u => u.live && u.cfg.state == 0) ∧ (Meets { plain with cfg := { state := 2 } } fun u => u.pciePresent) ∧
    (Meets { plain with cfg := { state := 2 }, pcie := linkUp } fun u => decide (u.capacity ≤ 0) && u.pcieServes) ∧
    (Meets { hosted linkUp {} with cfg := { (hosted linkUp {}).cfg with staging := some { feeder := .mailbox } } } fun u => u.mbxStaging.isSome) := by
  decide +kernel

/-- HostWritesAct: mailbox unlocked and locked; a vector pending and one whose hold-off ends now, masked or not. -/
theorem witness_host_writes :
    (Meets (hosted linkUp { unlocked := true }) fun u => u.pcieServes && u.mbx.unlocked && !u.mbx.busy) ∧ (Meets (hosted linkUp {}) fun u => !u.mbx.unlocked) ∧
    (Meets (hosted { linkUp with msix := Vector.replicate 8 { pending := true, merged := true, holdUntil := plain.now, control := 0 } } {}) fun u =>
      u.pcie.msix[(0 : Fin 8)].pending && u.pcie.msix[(0 : Fin 8)].merged && decide (u.pcie.msix[(0 : Fin 8)].holdUntil = u.now) &&
        !((u.pcie.msix[(0 : Fin 8)].writeWord 3 0).control.getLsbD 0) && !(u.pcie.msix[(0 : Fin 8)].control.getLsbD 0)) ∧
    (Meets (hosted { linkUp with msix := Vector.replicate 8 { merged := true } } {}) fun u => u.pcie.msix[(0 : Fin 8)].control.getLsbD 0) := by decide +kernel

/-! ## Staging, containment and the operator side -/

/-- MailboxActs: the first key 10 ms ago, a busy, a locked and an unlocked mailbox, a staging on it, a lapse that is due. -/
theorem witness_mailbox :
    (Meets (hosted linkUp { firstKey := some (plain.now - 10 * msP) }) fun u => u.pcieServes && !u.mbx.busy && !u.mbx.unlocked &&
      (u.mbx.firstKey.map fun k => decide (u.now = k + 10 * msP)) == some true) ∧
    (Meets (hosted linkUp { busy := true }) fun u => u.mbx.busy) ∧
    (Meets (hosted linkUp { unlocked := true, arg := 0x52535452#32, idleFrom := plain.now - 10 * secP }) fun u => u.mbx.unlocked && !u.mbx.busy &&
      u.stageRefusal.isNone && u.cfg.staging.isNone && decide (u.mbx.idleFrom + 10 * secP = u.now)) ∧
    (Meets { hosted linkUp { unlocked := true, arg := 4096 } with cfg := { (hosted linkUp {}).cfg with staging := some { feeder := .mailbox } } } fun u =>
      u.mbxStaging.isSome && u.mbx.block == u.mbx.nextBlock && u.mbx.arg.toNat % 4 == 0 && u.mbx.arg.toNat ≤ 4096 && u.stageRefusal == some 1) := by decide +kernel

def stagingAt (ph : StagePhase) (t : Nat) : State :=
  { plain with cfg := { plain.cfg with staging := some { feeder := .mailbox, phase := ph, bytes := smallImage, length := 472, target := 1, since := t } } }

/-- StagingProgramsFlash: every phase, and the timeouts at their instants. -/
theorem witness_staging :
    ([.erasing, .programming, .header, .checking] : List StagePhase).all (fun ph =>
      let u := (stagingAt ph (plain.now - 4000 * msP)).elapse 0
      u.live && (u.cfg.staging.map fun g => g.phase == ph && 0 < g.length && !g.ended &&
        decide (g.since + u.eraseSpan g.length / u.eraseUnit * u.unitEraseMs * msP = u.now)) == some true && Memory.wf erased u.flash.cells &&
        u.bbx.mirror.isNone) = true ∧
    (Meets (stagingAt .header (plain.now - 10 * msP)) fun u => (u.cfg.staging.map fun g => decide (g.since + u.pageProgramMs * msP = u.now)) == some true) := by
  decide +kernel

def plugged (x : Placket) (g : Option Staging) : State := { plain with plk := { x with vbus := true, attached := true }, cfg := { plain.cfg with staging := g } }

/-- DfuTransfers: each DFU state with what its clauses add; a bus without the placket attached. -/
theorem witness_dfu :
    (Meets plain fun u => u.live && !u.plk.attached && !u.isShut 16) ∧
    ([.idle, .dnloadSync, .dnloadIdle, .manifestSync, .error] : List DfuSt).all (fun x =>
      let u := (plugged { dfu := x } none).elapse 0
      u.plkOn && u.plk.dfu == x && u.stageRefusal.isNone && u.plkStaging.isNone) = true ∧
    (Meets (plugged { dfu := .dnloadSync } (some { feeder := .placket, phase := .erasing })) fun u => (u.plkStaging.map fun g => g.phase != .receiving) == some true &&
      u.stageRefusal == some 1) := by decide +kernel

/-- PlacketAnswersRequests: a configured placket, with a staging and without; the longest read. -/
theorem witness_placket :
    (Meets (plugged { configured := true } none) fun u => u.plkOn && u.plk.configured && u.cfg.staging.isNone) ∧
    (Meets (plugged { configured := true } (some { feeder := .placket })) fun u => u.cfg.staging.isSome) ∧
    (aReq plkSync 5 0x52535452 0).offset = 0x52535452 ∧ (aReq plkSync 1 (statusEnd - 65536) 65536).length = 65536 ∧ (aReq 0 1 0 4).sync ≠ plkSync := by
  decide +kernel

def contained (d : Domain) (x : Dom) : State := withDom plain d x

/-- FaultsAreFenced: a domain that is running, one that is fenced and one at its limit; a fence command for a fenced domain. -/
theorem witness_faults :
    (Meets (contained 8 { st := .running }) fun u => u.live && u.hatbandActs && u.hb.reports.isEmpty && !(u.dom 8).fenced) ∧
    (Meets (contained 8 { st := .running, attempts := 3 }) fun u => decide (u.recoveryLimit ≤ (u.dom 8).attempts)) ∧
    (Meets latched fun u => u.hb.bothFailed && u.live) ∧
    (let s := contained 13 { st := .waiting }
     Meets { s with hb := { s.hb with notice := some ⟨1#20 <<< 13, Vector.replicate 4 none, some .a⟩ } } fun u => (u.dom 13).fenced && !u.isShut 13 && u.hb.notice.isSome && u.mayInject u.hbSource) := by decide +kernel

/-- DomainsRecover: an attempt that may begin, one that ends at its Max, and a domain clean for RECOVERY_CLEAN. -/
theorem witness_recovery :
    (Meets (contained 8 { st := .waiting, shut := true, readyAt := plain.now }) fun u => u.hatbandActs && (u.dom 8).st == .waiting && u.isShut 8 && (u.dom 8).readyAt == u.now &&
      u.clockRuns 8 && u.bbx.queue.length < 64) ∧
    (Meets (contained 8 { st := .attempt, shut := true, begun := plain.now - 1 * msP }) fun u => (u.dom 8).st == .attempt && decide (u.now = (u.dom 8).begun + recoveryMax 8 * msP) &&
      u.recoveryReady 8 && u.hb.reports.all fun r => r.domain != 8) ∧
    (Meets (contained 8 { st := .running, attempts := 2, cleanSince := plain.now - 3600 * secP - 1 }) fun u => u.recoveryClean != 0 &&
      decide ((u.dom 8).cleanSince + u.recoveryClean * secP ≤ u.now)) ∧
    ([2, 3, 13] : List Domain).all (fun d => let u := (withDom { plain with tim := { a := { controlled := true } } } d { st := .waiting, shut := true }).elapse 0
      u.clockRuns d && (u.dom d).st == .waiting) = true := by decide +kernel

/-- ControllersFail: both working, one failed, both failed, and a self-test under way. -/
theorem witness_controllers :
    (Meets plain fun u => u.live && !u.hb.bothFailed && u.hb.ctlA == .active && u.hb.ctlB == .standby) ∧
    (Meets { plain with hb := { ctlB := .failed, ctlA := .active } } fun u => u.hb.ctlA != .failed && u.hb.ctlB == .failed) ∧
    (Meets { plain with hb := { ctlB := .failed, ctlA := .failed } } fun u => !u.hb.bothFailed && u.hb.ctlA == .failed && u.hb.ctlB == .failed) ∧
    (Meets { plain with hb := { selfTest := true } } fun u => u.hb.selfTest) := by decide +kernel

/-- BlackBoxKeeps: a record that waits, a mirror to begin and one under way. -/
theorem witness_black_box :
    (Meets { plain with bbx := { queue := [{ kind := 0x10 }] } } fun u => u.bbx.queue.length == 1 && Memory.wf erased u.flash.cells) ∧
    (Meets plain fun u => u.live && u.cfg.state == 1 && u.mirrorOn == 1 && !u.bbx.mirrorBegun) ∧
    (Meets { plain with bbx := { mirror := some ([], 0, 0) } } fun u => u.bbx.mirror.isSome && u.hatbandActs) := by decide +kernel

def alsIn (x : Als) : State := { lit (shotRecords 0) with als := #v[x, {}] }

def ends (near : Bool) : List ProbeGroup := List.replicate 16 { group := 1, near := some near }

/-- PermitsGovern and AlsProtects: a held port, a near end in SENSING, a probe that is due, its window's end, its two judgements and
its wait for a launch. -/
theorem witness_als :
    (Meets { alsIn { st := .held } with permits := { asserted := #v[true, false, true] } } fun u => u.als[(0 : Port)].st == .held && !u.permits.asserted[inputIndex .conn0] &&
      u.alsDistance 0 == 100 && !u.alsBlind && u.live && !u.isShut (portDomain 0)) ∧
    (Meets (alsIn { st := .sensing, nearNotice := some 12 }) fun u => u.als[(0 : Port)].nearNotice.isSome && u.als[(0 : Port)].st == .sensing) ∧
    (Meets (alsIn { st := .shutdown, periodFrom := plain.now - 100 * secP }) fun u => u.live && u.probePeriod != 0 && u.hardPermit 0 &&
      decide (u.als[(0 : Port)].periodFrom + u.probePeriod * secP = u.now)) ∧
    (Meets (alsIn { st := .probe, windowFrom := some (plain.now - 2000 * msP), groups := ends false, launchedAt := plain.now - 2000 * msP }) fun u =>
      u.als[(0 : Port)].st == .probe && (u.als[(0 : Port)].windowFrom.map fun w => decide (w + u.probeTime * msP = u.now)) == some true &&
      decide (16 ≤ u.als[(0 : Port)].groups.length) && decide (u.als[(0 : Port)].launchedAt + u.probeTime * msP = u.now)) ∧
    (Meets (alsIn { st := .probe, windowEnded := true, groups := ends false }) fun u => u.als[(0 : Port)].passes && u.als[(0 : Port)].groups.all fun g => g.near != none) ∧
    (Meets (alsIn { st := .probe, windowEnded := true, groups := ends true }) fun u => !u.als[(0 : Port)].passes) := by decide +kernel

/-- An input released 100 ms ago, and one just before; a probe that is due without its permit, and with its domain fenced. -/
theorem witness_permit_times :
    (Meets { plain with permits := { asserted := #v[false, true, true], risenAt := #v[plain.now - 100 * msP, 0, 0] } } fun u =>
      !u.permits.asserted[inputIndex .ilock] && u.permits.risenAt[inputIndex .ilock] + 100 * msP == u.now) ∧
    (Meets { plain with permits := { asserted := #v[false, true, true], risenAt := #v[plain.now + 1 - 100 * msP, 0, 0] } } fun u =>
      u.now < u.permits.risenAt[inputIndex .ilock] + 100 * msP) ∧
    (Meets { alsIn { st := .shutdown } with permits := { asserted := #v[true, false, true] } } fun u => !u.hardPermit 0 && u.als[(0 : Port)].st == .shutdown) ∧
    (Meets (withDom (alsIn { st := .shutdown }) 0 { shut := true }) fun u => u.isShut (portDomain 0)) := by decide +kernel

def panelRecord : ImgRec :=
  rcd 0xB0 1126 [(0, 2, 100), (12, 1, 1), (13, 1, 2), (14, 1, 3), (15, 1, 4), (28, 3, 0x646464), (32, 1, 0x29), (33, 1, 0), (34, 1, 100), (46, 2, 60)]

def panel (x : Panel) : State := { on [rcd 0x20 16 [(4, 4, 1000), (8, 2, 14682)], panelRecord] with
    pnl := { x with running := true }
    tim := { a := { controlled := true } } }

/-- PanelServes: keys of each function not pressed; a lamp test at its end; a composed buffer; a colour measurement due, and one at the
end of its last phase; an LED that is on. -/
theorem witness_panel :
    (Meets (panel {}) fun u => u.panelOn && u.keyFunc 0 == 1 && u.keyFunc 1 == 2 && u.keyFunc 2 == 3 && u.keyFunc 3 == 4 && !u.pnl.keys[(0 : Fin 8)].pressed &&
      u.colourOn && u.pnl.colourPhase.isNone && u.pnl.lampTest.isNone && decide (u.pnl.colourAt + u.colourPeriod * secP ≤ u.now)) ∧
    (Meets (panel { lampTest := some (2, plain.now - 10 * secP), composed := true }) fun u => u.pnl.composed &&
      (u.pnl.lampTest.map fun k => decide (k.2 + 10 * secP = u.now)) == some true) ∧
    (Meets (panel { colourPhase := some 3, colourAt := plain.now - 400 * msP }) fun u => decide (u.pnl.colourAt + (3 + 1) * u.senseTime * msP = u.now)) ∧
    (Meets (panel { swapped := true, front := List.replicate 384 255 }) fun u => decide (16 ≤ u.ledTicks 5) && decide (5 ≤ u.sinkCurrent 5) &&
      u.pnl.leds[(5 : Fin 384)].state != 2) ∧
    (Meets { panel {} with als := #v[{ st := .shutdown }, {}] } fun u => u.inUse 0 && u.als[(0 : Port)].st == .shutdown && !u.inUse 1) ∧
    (Meets { panel {} with alarms := #v[{ latched := true, asserted := true }, {}, {}, {}] } fun u => !u.isShut 11 && u.keyArg 0 == 0 &&
      u.alarms[(0 : Fin 4)].latched && !u.alarms[(0 : Fin 4)].demanded && !u.demandOf 0) := by decide +kernel

/-- An LED found open twice running, and one that failed 16 s ago. -/
theorem witness_leds :
    (Meets (panel { swapped := true, leds := Vector.replicate 384 { opens := 2, diagAt := plain.now - 16 * secP } }) fun u => u.pnl.leds[(5 : Fin 384)].opens == 2) := by decide +kernel

/-- Keys that have been settled long enough, a composition that is due, a frame that has begun since it, and an LED whose result expires. -/
theorem witness_panel_times :
    (Meets (panel { keys := Vector.replicate 8 { changedAt := plain.now - 3000 * msP } }) fun u =>
      !u.pnl.keys[(1 : Fin 8)].acted && u.pnl.keys[(1 : Fin 8)].changedAt + (u.debounceMs + u.restartHold) * msP ≤ u.now) ∧
    (Meets (panel { composed := true, composedAt := plain.now - 10 * msP }) fun u => u.pnl.composedAt + 10 * msP == u.now &&
      decide (u.frameIndex u.pnl.composedAt < u.frameIndex u.now)) ∧
    (Meets (panel { leds := Vector.replicate 384 { state := 1, diagAt := plain.now - 16 * secP } }) fun u =>
      u.pnl.leds[(5 : Fin 384)].state == 1 && u.pnl.leds[(5 : Fin 384)].diagAt + 16 * secP == u.now) ∧
    (Meets (panel { lampTest := some (2, plain.now - secP), colourPhase := some 1 }) fun u => u.pnl.lampTest == some (2, u.now - secP) &&
      u.pnl.colourPhase.isSome) := by decide +kernel

end Sys2Proof.Tests
end

/-! SUPPORT. Emission against the hardwired path (R62, R66). An operation of the optics opens a gate or shutter only of a port that
has its hardwired permit, a withdrawal closes what it governs, and every other command leaves inputs and ports alone. -/

namespace Sys2Proof.Machine

section

variable {s t u : State} {i : PermitInput}

/-! ## The ports stand, or the invariant is kept -/

/-- The hardwired inputs and the optics of the ports stand as in `s`. -/
def State.PortsStand (t s : State) : Prop := t.permits.asserted = s.permits.asserted ∧ t.opt.ports = s.opt.ports

@[simp] theorem State.portsStand_iff :
    t.PortsStand s ↔ t.permits.asserted = s.permits.asserted ∧ t.opt.ports = s.opt.ports := Iff.rfl

theorem State.hardPermit_congr (h : t.permits.asserted = s.permits.asserted) (p : Port) : t.hardPermit p = s.hardPermit p := by
  rw [State.hardPermit, State.hardPermit, h]

/-- With the same inputs, what is open afterwards was open before or has its permit. -/
theorem State.EmissionSafe.of_ports (h : s.EmissionSafe) (ha : t.permits.asserted = s.permits.asserted)
    (hg : ∀ p : Port, t.opt.ports[p].gate.isSome = true → s.opt.ports[p].gate.isSome = true ∨ s.hardPermit p = true)
    (hs : ∀ p : Port, t.opt.ports[p].shutter = true → s.opt.ports[p].shutter = true ∨ s.hardPermit p = true) :
    t.EmissionSafe := by
  intro p
  rw [State.hardPermit_congr ha]
  exact ⟨fun k => (hg p k).elim (h p).1 id, fun k => (hs p k).elim (h p).2 id⟩

theorem State.EmissionSafe.of_portsStand (h : s.EmissionSafe) (k : t.PortsStand s) : t.EmissionSafe :=
  h.of_ports k.1 (fun _ e => .inl (k.2 ▸ e)) (fun _ e => .inl (k.2 ▸ e))

theorem State.PortsStand.trans (h : t.PortsStand u) (k : u.PortsStand s) : t.PortsStand s := ⟨h.1.trans k.1, h.2.trans k.2⟩

theorem State.PortsStand.foldl {α : Type} {f : State → α → State} (hf : ∀ s a, (f s a).PortsStand s) (l : List α) (s : State) :
    (l.foldl f s).PortsStand s :=
  List.foldlRecOn (motive := fun u => State.PortsStand u s) l f ⟨rfl, rfl⟩ fun u k a _ => (hf u a).trans k

theorem State.PortsStand.ite {c : Prop} [Decidable c] (ht : c → t.PortsStand s) (hu : ¬c → u.PortsStand s) :
    (if c then t else u).PortsStand s :=
  iteInduction (motive := fun v => State.PortsStand v s) ht hu

theorem Keeps.portsStand (h : Keeps t s) : t.PortsStand s := ⟨h.1, h.2.1⟩

/-! ## Outcomes of commands -/

/-- Whatever state the outcome leads to has the property. -/
def Ensures (P : State → Prop) : Host.Outcome State Fault Refusal → Prop
  | .next t => P t
  | .fault _ | .refused _ => True

theorem Ensures.ite {P : State → Prop} {c : Prop} [Decidable c] {a b : Host.Outcome State Fault Refusal}
    (ha : c → Ensures P a) (hb : ¬c → Ensures P b) : Ensures P (if c then a else b) :=
  iteInduction (motive := Ensures P) ha hb

/-- The outcome leaves the hardwired inputs and the optics of the ports as they stand in `s`. -/
def LeavesPorts (s : State) (o : Host.Outcome State Fault Refusal) : Prop := Ensures (·.PortsStand s) o

@[simp] theorem leavesPorts_next : LeavesPorts s (.next t) ↔ t.PortsStand s := Iff.rfl

@[simp] theorem leavesPorts_fault {f : Fault} : LeavesPorts s (.fault f) := trivial

@[simp] theorem leavesPorts_ite {c : Prop} [Decidable c] {a b : Host.Outcome State Fault Refusal} :
    LeavesPorts s (if c then a else b) ↔ if c then LeavesPorts s a else LeavesPorts s b := by
  split <;> rfl

theorem State.EmissionSafe.of_leavesPorts (h : s.EmissionSafe) {o : Host.Outcome State Fault Refusal} (k : LeavesPorts s o) :
    Ensures State.EmissionSafe o := by
  cases o with
  | next t => exact h.of_portsStand k
  | fault _ => trivial
  | refused _ => trivial

theorem State.EmissionSafe.ite {c : Prop} [Decidable c] (hs : c → s.EmissionSafe) (ht : ¬c → t.EmissionSafe) :
    (if c then s else t).EmissionSafe :=
  iteInduction (motive := State.EmissionSafe) hs ht

theorem State.EmissionSafe.foldl {α : Type} {f : State → α → State} (hf : ∀ s a, s.EmissionSafe → (f s a).EmissionSafe)
    (l : List α) (h : s.EmissionSafe) : (l.foldl f s).EmissionSafe :=
  List.foldlRecOn l f h fun s k a _ => hf s a k

/-! ## Operations that leave the ports -/

theorem State.EmissionSafe.setSht (h : s.EmissionSafe) (p : Port) (f : Sht → Sht) : (s.setSht p f).EmissionSafe :=
  h.of_portsStand ⟨rfl, rfl⟩

theorem State.EmissionSafe.report (h : s.EmissionSafe) (d : Domain) (code value : U32) : (s.report d code value).EmissionSafe :=
  h.of_portsStand ⟨rfl, rfl⟩

theorem State.EmissionSafe.record (h : s.EmissionSafe) (r : BbxRec) : (s.record r).EmissionSafe := h.of_portsStand (by simp)

theorem State.EmissionSafe.healthRecord (h : s.EmissionSafe) (kind domain : Nat) (code value : U32) :
    (s.healthRecord kind domain code value).EmissionSafe := h.of_portsStand (by simp)

theorem State.EmissionSafe.warn (h : s.EmissionSafe) (code value : U32) (holds : Bool) (place : Nat) :
    (s.warn code value holds place).EmissionSafe := h.of_portsStand (by simp)

theorem State.EmissionSafe.elapse (h : s.EmissionSafe) (dt : Nat) : (s.elapse dt).EmissionSafe := h.of_portsStand ⟨rfl, rfl⟩

theorem State.EmissionSafe.countRow (h : s.EmissionSafe) (k : Fin 12) : (s.countRow k).EmissionSafe := h.of_portsStand ⟨rfl, rfl⟩

theorem State.EmissionSafe.recordRow (h : s.EmissionSafe) (k : Nat) (domain : Nat) (value : U32) :
    (s.recordRow k domain value).EmissionSafe := h.of_portsStand (by simp)

theorem State.EmissionSafe.openRaman (h : s.EmissionSafe) (p : Port) (tag : ShotTag) : (s.openRaman p tag).EmissionSafe :=
  h.of_portsStand (by simp)

theorem State.EmissionSafe.drainMissing (h : s.EmissionSafe) (p : Port) : (s.drainMissing p).EmissionSafe :=
  h.of_portsStand (by simp)

theorem State.EmissionSafe.admitRecord (h : s.EmissionSafe) (p : Port) (tag : ShotTag) : (s.admitRecord p tag).EmissionSafe :=
  h.of_portsStand (by simp)

/-! ## Gates and shutters -/

/-- Another value for one port's optics, which opens neither gate nor shutter without the permit. -/
theorem State.EmissionSafe.setOptPort (h : s.EmissionSafe) (p : Port) (f : OptPort → OptPort)
    (hg : (f s.opt.ports[p]).gate.isSome = true → s.opt.ports[p].gate.isSome = true ∨ s.hardPermit p = true)
    (hs : (f s.opt.ports[p]).shutter = true → s.opt.ports[p].shutter = true ∨ s.hardPermit p = true) :
    (s.setOptPort p f).EmissionSafe := by
  have port (q : Port) : (s.setOptPort p f).opt.ports[q] = if p = q then f s.opt.ports[q] else s.opt.ports[q] :=
    upd_get _ _ _ _
  refine h.of_ports rfl (fun q e => ?_) (fun q e => ?_) <;> rw [port] at e <;> split at e
  · subst q; exact hg e
  · exact .inl e
  · subst q; exact hs e
  · exact .inl e

theorem State.EmissionSafe.closeGate (h : s.EmissionSafe) (p : Port) : (s.closeGate p).EmissionSafe := by
  refine h.of_ports (by simp) (fun q e => ?_) (fun q e => ?_) <;> rw [State.closeGate_port] at e <;> split at e
  · cases e
  all_goals exact .inl e

theorem State.EmissionSafe.closePort (h : s.EmissionSafe) (p : Port) : (s.closePort p).EmissionSafe := by
  refine h.of_ports (by simp) (fun q e => ?_) (fun q e => ?_) <;> rw [State.closePort_port] at e <;> split at e
  · rw [State.closeGate_port, if_pos ‹_›] at e
    cases e
  · exact .inl e
  · cases e
  · exact .inl e

theorem State.EmissionSafe.gatesOff (h : s.EmissionSafe) : s.gatesOff.EmissionSafe :=
  h.of_ports (by simp) (fun q e => by rw [(s.gatesOff_port q).1] at e; cases e) (fun q e => .inl ((s.gatesOff_port q).2 ▸ e))

/-- R62: a shutter opens only with the hardwired permit. -/
theorem State.EmissionSafe.openShutter (h : s.EmissionSafe) (p : Port) : (s.openShutter p).EmissionSafe := by
  refine .ite (fun c => h.setOptPort p _ .inl fun _ => .inr ?_) (fun _ => h)
  simp only [Bool.and_eq_true] at c
  exact c.1.1

/-- A shot opens the gate of a port that R62 lets emit. -/
theorem State.EmissionSafe.launchShot (h : s.EmissionSafe) (p : Port) (hp : s.hardPermit p = true) (g : Group)
    (pleat : Option Nat) : (s.launchShot p g pleat).EmissionSafe :=
  (h.setOptPort p _ (fun _ => .inr hp) .inl).of_portsStand ⟨by simp, rfl⟩

/-- A corrected drive level leaves gate and shutter alone. -/
theorem State.EmissionSafe.correctDrive (h : s.EmissionSafe) (p : Port) (temperature : Bool) (peak : Int) :
    (s.correctDrive p temperature peak).EmissionSafe :=
  h.setOptPort p _ (fun e => .inl (by split at e <;> exact e)) (fun e => .inl (by split at e <;> exact e))

/-- R62: a port may issue a shot only with its hardwired permit. -/
theorem State.hardPermit_of_mayIssue {p : Port} (h : s.mayIssue p = true) : s.hardPermit p = true := by
  simp only [State.mayIssue, State.mayEmit, Bool.and_eq_true] at h
  exact h.1.1.1.1.2

/-! ## Automatic laser shutdown (R430 to R434) -/

theorem State.EmissionSafe.setAls (h : s.EmissionSafe) (p : Port) (f : Als → Als) : (s.setAls p f).EmissionSafe :=
  h.of_portsStand ⟨rfl, rfl⟩

theorem State.EmissionSafe.requestRebase (h : s.EmissionSafe) (p : Port) : (s.requestRebase p).EmissionSafe :=
  h.of_portsStand ⟨rfl, rfl⟩

theorem State.EmissionSafe.enterProbe (h : s.EmissionSafe) (p : Port) : (s.enterProbe p).EmissionSafe :=
  ((h.setAls p _).openShutter p).requestRebase p

theorem State.EmissionSafe.enterShutdown (h : s.EmissionSafe) (p : Port) (point : U32) : (s.enterShutdown p point).EmissionSafe :=
  (h.setAls p _).closePort p

theorem State.EmissionSafe.alsResume (h : s.EmissionSafe) (p : Port) : (s.alsResume p).EmissionSafe :=
  .ite (fun _ => (h.setAls p _).openShutter p) (fun _ => .ite (fun _ => h.setAls p _) (fun _ => h.enterProbe p))

theorem State.EmissionSafe.alsLeaveIdle (h : s.EmissionSafe) (p : Port) : (s.alsLeaveIdle p).EmissionSafe :=
  .ite (fun _ => .ite (fun _ => h.alsResume p) (fun _ => h.setAls p _)) (fun _ => h)

theorem State.EmissionSafe.alsSuspend (h : s.EmissionSafe) (p : Port) : (s.alsSuspend p).EmissionSafe := by
  refine .ite (fun _ => ?_) (fun _ => h)
  split
  case h_4 => exact h
  all_goals exact (h.setAls p _).closePort p

theorem State.EmissionSafe.alsUnsuspend (h : s.EmissionSafe) (p : Port) : (s.alsUnsuspend p).EmissionSafe :=
  .ite (fun _ => h.enterProbe p) (fun _ => h)

/-! ## The laser -/

theorem State.EmissionSafe.setOpt (h : s.EmissionSafe) (f : Opt → Opt) (hf : (f s.opt).ports = s.opt.ports := by rfl) :
    (s.setOpt f).EmissionSafe := h.of_portsStand ⟨rfl, hf⟩

theorem State.EmissionSafe.leaveReady (h : s.EmissionSafe) (next_ : LaserSt) : (s.leaveReady next_).EmissionSafe :=
  h.gatesOff.of_portsStand ⟨rfl, rfl⟩

theorem State.EmissionSafe.laserReadyNow (h : s.EmissionSafe) : s.laserReadyNow.EmissionSafe := by
  have hl (f : Opt → Opt) (hf : (f s.opt).ports = s.opt.ports) := h.setOpt f hf
  exact .ite (fun _ => .foldl (fun _ p k => k.alsLeaveIdle p) _ (hl _ rfl)) (fun _ => hl _ rfl)

/-! ## Fences and recovery (Tables 13.4 and 13.5) -/

theorem State.EmissionSafe.boundary (h : s.EmissionSafe) (d : Domain) : (s.boundary d).EmissionSafe := by
  unfold State.boundary
  split
  · exact h.closePort 0
  · exact h.closePort 1
  · exact h.gatesOff.of_portsStand ⟨rfl, rfl⟩
  · exact h.gatesOff.of_portsStand (by simp)
  · exact h.gatesOff.of_portsStand ⟨rfl, rfl⟩
  case h_12 | h_18 => exact .foldl (fun _ p k => k.alsSuspend p) _ (h.of_portsStand (by simp))
  all_goals exact h.of_portsStand (by simp [bothPorts])

theorem State.EmissionSafe.setDom (h : s.EmissionSafe) (d : Domain) (f : Dom → Dom) : (s.setDom d f).EmissionSafe :=
  h.of_portsStand ⟨rfl, rfl⟩

theorem State.EmissionSafe.scheduleRecovery (h : s.EmissionSafe) (d : Domain) : (s.scheduleRecovery d).EmissionSafe := by
  have hb : (if (s.dom d).st = .attempt then s.boundary d else s).EmissionSafe := .ite (fun _ => h.boundary d) (fun _ => h)
  exact .ite (fun _ => hb.of_portsStand (by simp)) (fun _ => hb.of_portsStand ⟨rfl, rfl⟩)

theorem State.EmissionSafe.handleReport (h : s.EmissionSafe) (mask : Nat) (f : FaultRep) : (s.handleReport mask f).EmissionSafe := by
  unfold State.handleReport
  dsimp only
  split
  case h_3 | h_4 | h_5 => exact .scheduleRecovery (h.of_portsStand (by simp)) _
  all_goals exact h.of_portsStand (by simp)

theorem State.EmissionSafe.fence (h : s.EmissionSafe) (d : Domain) : (s.fence d).EmissionSafe := by
  refine .ite (fun _ => ?_) (fun _ => h)
  have hb : ((s.setDom d fun x => { x with shut := true }).boundary d).EmissionSafe := (h.setDom d _).boundary d
  exact .ite (fun _ => hb.of_portsStand ⟨rfl, rfl⟩) (fun _ => hb)

theorem State.EmissionSafe.hbReaches (h : s.EmissionSafe) (n : HbNotice) : (s.hbReaches n).EmissionSafe :=
  .foldl (fun _ d k => .ite (fun _ => k.fence d) (fun _ => k)) _ (h.of_portsStand ⟨rfl, rfl⟩)

theorem State.EmissionSafe.recoverBegin (h : s.EmissionSafe) (d : Domain) : (s.recoverBegin d).EmissionSafe :=
  h.of_portsStand (by simp)

theorem State.EmissionSafe.hbNotice (h : s.EmissionSafe) : s.hbNotice.EmissionSafe := h.of_portsStand (by simp)

theorem State.EmissionSafe.restartAttempts (h : s.EmissionSafe) : s.restartAttempts.EmissionSafe :=
  .foldl (fun _ d k => .ite (fun _ => ((k.setDom d _).boundary d).recoverBegin d) (fun _ => k)) _ h

theorem State.EmissionSafe.ctlFailed (h : s.EmissionSafe) (c : Ctl) (reason : Nat) : (s.ctlFailed c reason).EmissionSafe := by
  refine .ite (fun _ => h) fun _ => .ite (fun _ => h.of_portsStand (by simp)) fun _ => ?_
  refine (((State.EmissionSafe.ite (fun _ => .restartAttempts ?_) (fun _ => ?_)).record _).healthRecord _ _ _ _).warn _ _ _ _
  all_goals exact h.of_portsStand (by simp)

theorem State.EmissionSafe.launchRecover (h : s.EmissionSafe) (p : Port) : (s.launchRecover p).EmissionSafe :=
  .requestRebase (.ite (fun _ => h.openShutter p) (fun _ => h)) p

theorem State.EmissionSafe.recovered (h : s.EmissionSafe) (d : Domain) : (s.recovered d).EmissionSafe := by
  unfold State.recovered
  split
  · exact h.launchRecover 0
  · exact h.launchRecover 1
  case h_10 | h_13 => exact .foldl (fun _ p k => k.alsUnsuspend p) _ (h.of_portsStand (by simp))
  all_goals exact h.of_portsStand (by simp [bothPorts])

theorem State.EmissionSafe.unfence (h : s.EmissionSafe) (d : Domain) : (s.unfence d).EmissionSafe :=
  .recovered (h.of_portsStand (by simp)) d

theorem State.EmissionSafe.hbRepeats (h : s.EmissionSafe) (k : USource) (c : CtlSt) : (s.hbRepeats k c).EmissionSafe :=
  .ite (fun _ => h) fun _ => .ite (fun _ => .hbReaches (h.of_portsStand (by simp)) _) (fun _ => h.of_portsStand (by simp))

theorem State.EmissionSafe.hatbandStart (h : s.EmissionSafe) (aOk bOk : Bool) : (s.hatbandStart aOk bOk).EmissionSafe := by
  unfold State.hatbandStart
  split
  · exact h
  · exact h.ctlFailed .a 2
  · exact h.ctlFailed .b 2
  · exact h.of_portsStand (by simp)

theorem State.EmissionSafe.powerFail (h : s.EmissionSafe) (outMask : Nat) (undervoltage : Bool) :
    (s.powerFail outMask undervoltage).EmissionSafe := by
  have hc : (bothPorts.foldl (fun s p => s.closePort p) s).EmissionSafe := .foldl (fun _ p k => k.closePort p) _ h
  refine hc.of_portsStand ?_
  simp [State.powerFail, bothPorts]

/-! ## Restarts -/

theorem State.EmissionSafe.recognised (h : s.EmissionSafe) (lowNs never sure : Nat) : (s.recognised lowNs never sure).2.EmissionSafe :=
  h.of_portsStand (by simp)

/-- After a restart every gate and shutter is closed. -/
theorem State.holdReset_emissionSafe (s : State) (power : Power) : (s.holdReset power).EmissionSafe := by
  intro p
  constructor <;> intro e <;> fin_cases p <;> cases e

/-! ## The hardwired inputs (R427, R435) -/

/-- An input bears on the permits of its own ports only. -/
theorem State.hardPermit_of_set_other {b : Bool} (ht : t.permits.asserted = s.permits.asserted.set (inputIndex i) b) {q : Port}
    (hq : q ∉ inputPorts i) : t.hardPermit q = s.hardPermit q := by
  rw [State.hardPermit, State.hardPermit, ht]
  cases i <;> fin_cases q <;> simp_all [inputPorts, inputIndex]

/-- An input asserted again takes no permit away. -/
theorem State.hardPermit_of_set_true (ht : t.permits.asserted = s.permits.asserted.set (inputIndex i) true) {q : Port}
    (h : s.hardPermit q = true) : t.hardPermit q = true := by
  simp only [State.hardPermit, ht, Bool.and_eq_true, Fin.getElem_fin, Vector.getElem_set] at h ⊢
  exact ⟨by rw [h.1, ite_self], by rw [h.2, ite_self]⟩

theorem State.closePort_closed (s : State) (p : Port) :
    (s.closePort p).opt.ports[p].gate = none ∧ (s.closePort p).opt.ports[p].shutter = false := by
  rw [State.closePort_port, if_pos rfl, State.closeGate_port, if_pos rfl]
  exact ⟨rfl, rfl⟩

theorem State.closePort_other (s : State) {p q : Port} (h : p ≠ q) : (s.closePort p).opt.ports[q] = s.opt.ports[q] := by
  rw [State.closePort_port, if_neg h]

theorem State.holdPorts_other (l : List Port) {q : Port} (hq : q ∉ l) :
    (l.foldl State.holdPort s).opt.ports[q] = s.opt.ports[q] := by
  induction l generalizing s with
  | nil => rfl
  | cons p l ih =>
    obtain ⟨hp, hl⟩ := not_or.mp (mt List.mem_cons.mpr hq)
    exact (ih hl).trans (s.closePort_other (Ne.symm hp))

theorem State.holdPorts_closed (l : List Port) {q : Port} (hq : q ∈ l) :
    (l.foldl State.holdPort s).opt.ports[q].gate = none ∧ (l.foldl State.holdPort s).opt.ports[q].shutter = false := by
  induction l generalizing s with
  | nil => cases hq
  | cons p l ih =>
    by_cases hl : q ∈ l
    · exact ih hl
    · obtain rfl : q = p := (List.mem_cons.mp hq).resolve_right hl
      rw [List.foldl_cons, State.holdPorts_other l hl]
      exact s.closePort_closed q

/-- `t` is `s` with an input withdrawn: not asserted, its ports closed, the others as they were. -/
def State.Withdrawn (t s : State) (i : PermitInput) : Prop :=
  t.permits.asserted = s.permits.asserted.set (inputIndex i) false ∧
    (∀ q ∈ inputPorts i, t.opt.ports[q].gate = none ∧ t.opt.ports[q].shutter = false) ∧
    ∀ q ∉ inputPorts i, t.opt.ports[q] = s.opt.ports[q]

theorem State.holdPorts_withdrawn (ha : t.permits.asserted = s.permits.asserted.set (inputIndex i) false)
    (hp : t.opt.ports = s.opt.ports) : ((inputPorts i).foldl State.holdPort t).Withdrawn s i :=
  ⟨by simp [ha], fun _ => State.holdPorts_closed _, fun _ hq => hp ▸ State.holdPorts_other _ hq⟩

theorem State.EmissionSafe.withdrawn (h : s.EmissionSafe) (k : t.Withdrawn s i) : t.EmissionSafe := by
  obtain ⟨ha, hc, ho⟩ := k
  intro q
  by_cases hq : q ∈ inputPorts i
  · rw [(hc q hq).1, (hc q hq).2]
    exact ⟨nofun, nofun⟩
  · rw [ho q hq, State.hardPermit_of_set_other ha hq]
    exact h q

/-! ## Commands that leave the ports -/

/-! ### Coherent acquisition and calibration -/

@[simp] theorem execRecordNotice_leavesPorts (dt : Nat) (p : Port) (words : List U64) (lags : List SeamLag) :
    LeavesPorts s (execRecordNotice dt p words lags s) := by
  simp only [execRecordNotice]
  split <;> simp

@[simp] theorem execSliceSubstitution_leavesPorts (dt : Nat) (p : Port) : LeavesPorts s (execSliceSubstitution dt p s) := by
  simp only [execSliceSubstitution]
  split <;> simp

@[simp] theorem execCalUpdate_leavesPorts (dt : Nat) (e : UpdateEnd) : LeavesPorts s (execCalUpdate dt e s) := by
  simp only [execCalUpdate]
  split <;> simp

/-! ### Probe windows and the operator state -/

@[simp] theorem execAlsProbeWindowEnd_leavesPorts (dt : Nat) (p : Port) : LeavesPorts s (execAlsProbeWindowEnd dt p s) := by
  simp [execAlsProbeWindowEnd]

@[simp] theorem execOperatorStateNotice_leavesPorts (dt : Nat) : LeavesPorts s (execOperatorStateNotice dt s) := by
  simp [execOperatorStateNotice]

/-! ### The black box -/

@[simp] theorem execBbxRecordWritten_leavesPorts (dt : Nat) : LeavesPorts s (execBbxRecordWritten dt s) := by
  simp only [execBbxRecordWritten]
  (repeat' split) <;> simp

@[simp] theorem execBbxMirrorStart_leavesPorts (dt : Nat) : LeavesPorts s (execBbxMirrorStart dt s) := by
  simp [execBbxMirrorStart]

@[simp] theorem execBbxMirrorDone_leavesPorts (dt : Nat) (ok : Bool) : LeavesPorts s (execBbxMirrorDone dt ok s) := by
  simp only [execBbxMirrorDone]
  split <;> simp

/-! ### Routes and lanes -/

@[simp] theorem execOutRecordEnqueue_leavesPorts (dt : Nat) (r : RouteId) : LeavesPorts s (execOutRecordEnqueue dt r s) := by
  simp only [execOutRecordEnqueue]
  split <;> simp

@[simp] theorem execEthFrameSent_leavesPorts (dt : Nat) (l : Lane) : LeavesPorts s (execEthFrameSent dt l s) := by
  unfold execEthFrameSent
  dsimp only
  split
  · exact ⟨rfl, rfl⟩
  · exact (State.startNext_keeps ..).portsStand.trans ⟨rfl, rfl⟩

@[simp] theorem execHeartbeatTimer_leavesPorts (dt : Nat) (r : RouteId) : LeavesPorts s (execHeartbeatTimer dt r s) := by
  simp [execHeartbeatTimer]

@[simp] theorem execTimingRecordClose_leavesPorts (dt : Nat) (p : Port) : LeavesPorts s (execTimingRecordClose dt p s) := by
  have hr (n : Nat) : (allRoutes.foldl
      (fun s r => if decide (s.routes[r].tags[p].firstAt + 10 * msP ≤ n) then s.closeTags r p else s) (s.elapse dt)).PortsStand s :=
    .trans (.foldl (fun s r => by simp) _ _) ⟨rfl, rfl⟩
  have hc (u : State) : (u.closeRingTags p).PortsStand u := by simp
  exact State.PortsStand.ite (fun _ => (hc _).trans (hr _)) (fun _ => hr _)

@[simp] theorem execArpRefresh_leavesPorts (dt : Nat) (l : Lane) : LeavesPorts s (execArpRefresh dt l s) := by
  simp [execArpRefresh]

@[simp] theorem execArpRetryTimeout_leavesPorts (dt : Nat) (l : Lane) : LeavesPorts s (execArpRetryTimeout dt l s) := by
  simp [execArpRetryTimeout]

@[simp] theorem execArpFrameReceived_leavesPorts (dt : Nat) (l : Lane) (f : ArpFrame) :
    LeavesPorts s (execArpFrameReceived dt l f s) := by
  simp only [execArpFrameReceived]
  (repeat' split) <;> simp

@[simp] theorem execEthLinkUp_leavesPorts (dt : Nat) (l : Lane) : LeavesPorts s (execEthLinkUp dt l s) := by
  simp [execEthLinkUp]

@[simp] theorem execEthLinkDown_leavesPorts (dt : Nat) (l : Lane) : LeavesPorts s (execEthLinkDown dt l s) := by
  simp only [execEthLinkDown]
  split <;> simp

@[simp] theorem execIcmpEchoRequest_leavesPorts (dt : Nat) (l : Lane) (srcMac : U48) (srcIp dstIp : U32) (data : List Byte) :
    LeavesPorts s (execIcmpEchoRequest dt l srcMac srcIp dstIp data s) := by
  simp [execIcmpEchoRequest]

@[simp] theorem execEthFrameDiscarded_leavesPorts (dt : Nat) (l : Lane) : LeavesPorts s (execEthFrameDiscarded dt l s) := by
  simp [execEthFrameDiscarded]

/-! ### The coders -/

@[simp] theorem execCoderFlush_leavesPorts (dt : Nat) (c : Consumer) : LeavesPorts s (execCoderFlush dt c s) := by
  simp only [execCoderFlush]
  split <;> simp

/-! ### Staging, mailbox and placket -/

@[simp] theorem execFlashEraseDone_leavesPorts (dt : Nat) (ok : Bool) : LeavesPorts s (execFlashEraseDone dt ok s) := by
  simp only [execFlashEraseDone]
  split <;> simp

@[simp] theorem execFlashProgramDone_leavesPorts (dt : Nat) (ok : Bool) : LeavesPorts s (execFlashProgramDone dt ok s) := by
  simp only [execFlashProgramDone]
  split <;> simp

@[simp] theorem execFlashOperationTimeout_leavesPorts (dt : Nat) : LeavesPorts s (execFlashOperationTimeout dt s) := by
  simp only [execFlashOperationTimeout]
  (repeat' split) <;> simp

@[simp] theorem execStagingCheckDone_leavesPorts (dt : Nat) : LeavesPorts s (execStagingCheckDone dt s) := by
  simp only [execStagingCheckDone]
  (repeat' split) <;> simp

@[simp] theorem execMbxUnlockWrite_leavesPorts (dt : Nat) (word : U32) : LeavesPorts s (execMbxUnlockWrite dt word s) := by
  simp [execMbxUnlockWrite]

@[simp] theorem execMbxStageBegin_leavesPorts (dt : Nat) : LeavesPorts s (execMbxStageBegin dt s) := by
  simp [execMbxStageBegin, State.mbxCommand]

@[simp] theorem execMbxStageBlock_leavesPorts (dt : Nat) : LeavesPorts s (execMbxStageBlock dt s) := by
  simp [execMbxStageBlock, State.mbxCommand]

@[simp] theorem execMbxStageAbort_leavesPorts (dt : Nat) : LeavesPorts s (execMbxStageAbort dt s) := by
  simp [execMbxStageAbort, State.mbxCommand]

@[simp] theorem execMbxRestart_leavesPorts (dt : Nat) : LeavesPorts s (execMbxRestart dt s) := by
  simp [execMbxRestart, State.mbxCommand]

@[simp] theorem execMbxUnknownCommand_leavesPorts (dt : Nat) (word : U32) : LeavesPorts s (execMbxUnknownCommand dt word s) := by
  simp [execMbxUnknownCommand, State.mbxCommand]

@[simp] theorem execMbxLockLapse_leavesPorts (dt : Nat) : LeavesPorts s (execMbxLockLapse dt s) := by
  simp [execMbxLockLapse]

@[simp] theorem execDfuDnload_leavesPorts (dt : Nat) (block : Nat) (data : List Byte) :
    LeavesPorts s (execDfuDnload dt block data s) := by
  simp only [execDfuDnload]
  (repeat' split) <;> simp

@[simp] theorem execDfuGetstatus_leavesPorts (dt : Nat) : LeavesPorts s (execDfuGetstatus dt s) := by
  simp only [execDfuGetstatus]
  (repeat' split) <;> simp

@[simp] theorem execDfuClrstatus_leavesPorts (dt : Nat) : LeavesPorts s (execDfuClrstatus dt s) := by
  simp only [execDfuClrstatus]
  (repeat' split) <;> simp

@[simp] theorem execDfuGetstate_leavesPorts (dt : Nat) : LeavesPorts s (execDfuGetstate dt s) := by
  simp [execDfuGetstate]

@[simp] theorem execDfuAbort_leavesPorts (dt : Nat) : LeavesPorts s (execDfuAbort dt s) := by
  simp only [execDfuAbort]
  (repeat' split) <;> simp

@[simp] theorem execDfuDetach_leavesPorts (dt : Nat) : LeavesPorts s (execDfuDetach dt s) := by
  simp [execDfuDetach]

@[simp] theorem execDfuUpload_leavesPorts (dt : Nat) : LeavesPorts s (execDfuUpload dt s) := by
  simp [execDfuUpload]

@[simp] theorem execPlacketAttach_leavesPorts (dt : Nat) : LeavesPorts s (execPlacketAttach dt s) := by
  simp only [execPlacketAttach]
  (repeat' split) <;> simp

@[simp] theorem execPlacketDetach_leavesPorts (dt : Nat) : LeavesPorts s (execPlacketDetach dt s) := by
  simp only [execPlacketDetach]
  split <;> simp

@[simp] theorem execPlacketConfigured_leavesPorts (dt : Nat) (highSpeed : Bool) :
    LeavesPorts s (execPlacketConfigured dt highSpeed s) := by
  simp [execPlacketConfigured]

/-! ### The PCI Express endpoint -/

@[simp] theorem execPcieConfigRequest_leavesPorts (dt : Nat) (isWrite : Bool) (reg : Nat) (value : U32) :
    LeavesPorts s (execPcieConfigRequest dt isWrite reg value s) := by
  simp [execPcieConfigRequest]

@[simp] theorem execPciePowerStateChange_leavesPorts (dt : Nat) (d3hot : Bool) :
    LeavesPorts s (execPciePowerStateChange dt d3hot s) := by
  simp [execPciePowerStateChange]

@[simp] theorem execPcieFunctionLevelReset_leavesPorts (dt : Nat) : LeavesPorts s (execPcieFunctionLevelReset dt s) := by
  simp [execPcieFunctionLevelReset]

@[simp] theorem execPcieLinkReset_leavesPorts (dt : Nat) (kind : LinkReset) : LeavesPorts s (execPcieLinkReset dt kind s) := by
  simp [execPcieLinkReset]

@[simp] theorem execPcieLinkUp_leavesPorts (dt : Nat) (speed width : Nat) : LeavesPorts s (execPcieLinkUp dt speed width s) := by
  simp [execPcieLinkUp]

@[simp] theorem execMsixTableWrite_leavesPorts (dt : Nat) (offset : Nat) (value : U32) :
    LeavesPorts s (execMsixTableWrite dt offset value s) := by
  simp [execMsixTableWrite]

@[simp] theorem execMsixHoldoffExpiry_leavesPorts (dt : Nat) (v : Fin 8) : LeavesPorts s (execMsixHoldoffExpiry dt v s) := by
  simp [execMsixHoldoffExpiry]

@[simp] theorem execRegisterWrite_leavesPorts (dt offset : Nat) (data : List Byte) :
    LeavesPorts s (execRegisterWrite dt offset data s) := by
  simp [execRegisterWrite, State.mbxCommand, mbxAction, ite_apply]

/-! ### The DRAM -/

@[simp] theorem execMemInitStart_leavesPorts (dt : Nat) (vddqMv : Nat) : LeavesPorts s (execMemInitStart dt vddqMv s) := by
  simp [execMemInitStart]

@[simp] theorem execMemVerifyDone_leavesPorts (dt : Nat) (v : VerifyOutcome) : LeavesPorts s (execMemVerifyDone dt v s) := by
  simp [execMemVerifyDone]

@[simp] theorem execMemZeroFillDone_leavesPorts (dt : Nat) : LeavesPorts s (execMemZeroFillDone dt s) := by
  simp [execMemZeroFillDone]

@[simp] theorem execMemSweepDone_leavesPorts (dt : Nat) (entries : List (Nat × Nat)) :
    LeavesPorts s (execMemSweepDone dt entries s) := by
  simp [execMemSweepDone]

@[simp] theorem execRefreshDue_leavesPorts (dt : Nat) : LeavesPorts s (execRefreshDue dt s) := by
  simp only [execRefreshDue]
  (repeat' split) <;> simp

@[simp] theorem execDramTempPoll_leavesPorts (dt : Nat) (t : TempPoll) : LeavesPorts s (execDramTempPoll dt t s) := by
  simp only [execDramTempPoll]
  (repeat' split) <;> simp

@[simp] theorem execSelfRefreshEntry_leavesPorts (dt : Nat) (abandoned : Bool) :
    LeavesPorts s (execSelfRefreshEntry dt abandoned s) := by
  simp [execSelfRefreshEntry]

@[simp] theorem execSelfRefreshExit_leavesPorts (dt : Nat) : LeavesPorts s (execSelfRefreshExit dt s) := by
  simp [execSelfRefreshExit]

/-! ### Alarm outputs -/

@[simp] theorem execAlarmMinAssertExpiry_leavesPorts (dt : Nat) (o : Fin 4) :
    LeavesPorts s (execAlarmMinAssertExpiry dt o s) := by
  simp [execAlarmMinAssertExpiry]

@[simp] theorem execAlarmDemandNotice_leavesPorts (dt : Nat) : LeavesPorts s (execAlarmDemandNotice dt s) := by
  simp only [execAlarmDemandNotice]
  split <;> simp

/-! ### Synthesis and time -/

@[simp] theorem execPllLockWindow_leavesPorts (dt : Nat) (k : Pll) (count : Nat) :
    LeavesPorts s (execPllLockWindow dt k count s) := by
  simp only [execPllLockWindow]
  (repeat' split) <;> simp

@[simp] theorem execPllAcquireTimeout_leavesPorts (dt : Nat) (k : Pll) : LeavesPorts s (execPllAcquireTimeout dt k s) := by
  simp [execPllAcquireTimeout]

@[simp] theorem execPllRelockTimeout_leavesPorts (dt : Nat) (k : Pll) : LeavesPorts s (execPllRelockTimeout dt k s) := by
  simp only [execPllRelockTimeout]
  split <;> simp

@[simp] theorem execRefclkLost_leavesPorts (dt : Nat) : LeavesPorts s (execRefclkLost dt s) := by
  simp [execRefclkLost]

@[simp] theorem execPllCoastRelock_leavesPorts (dt : Nat) (k : Pll) : LeavesPorts s (execPllCoastRelock dt k s) := by
  simp only [execPllCoastRelock]
  split <;> simp

@[simp] theorem execPllCoastLimit_leavesPorts (dt : Nat) (k : Pll) : LeavesPorts s (execPllCoastLimit dt k s) := by
  simp only [execPllCoastLimit]
  split <;> simp

@[simp] theorem execSyncInEdge_leavesPorts (dt : Nat) (m : TiuMeas) (lowPeriods : Nat) (offset : Int) :
    LeavesPorts s (execSyncInEdge dt m lowPeriods offset s) := by
  simp only [execSyncInEdge]
  (repeat' split) <;> simp

@[simp] theorem execSyncWaitTimeout_leavesPorts (dt : Nat) : LeavesPorts s (execSyncWaitTimeout dt s) := by
  simp [execSyncWaitTimeout]

@[simp] theorem execSyncEdgeTimeout_leavesPorts (dt : Nat) : LeavesPorts s (execSyncEdgeTimeout dt s) := by
  simp [execSyncEdgeTimeout]

@[simp] theorem execSyncFrameReceived_leavesPorts (dt : Nat) (slots : List Bool) :
    LeavesPorts s (execSyncFrameReceived dt slots s) := by
  simp only [execSyncFrameReceived]
  (repeat' split) <;> simp

@[simp] theorem execPpsInEdge_leavesPorts (dt : Nat) (m : TiuMeas) : LeavesPorts s (execPpsInEdge dt m s) := by
  simp only [execPpsInEdge]
  (repeat' split) <;> simp

@[simp] theorem execPpsHoldoverTimeout_leavesPorts (dt : Nat) : LeavesPorts s (execPpsHoldoverTimeout dt s) := by
  simp [execPpsHoldoverTimeout]

/-- The field lemmas of `elapse` keep the number of periods up to the wrap folded. -/
@[simp] theorem execDeviceTimeWrap_leavesPorts : LeavesPorts s (execDeviceTimeWrap s) := by
  unfold execDeviceTimeWrap
  split
  · exact ⟨congrArg Permits.asserted (s.elapse_permits _), congrArg Opt.ports (s.elapse_opt _)⟩
  · exact ⟨rfl, rfl⟩

@[simp] theorem execPpsOutEdge_leavesPorts (dt : Nat) : LeavesPorts s (execPpsOutEdge dt s) := by
  simp only [execPpsOutEdge]
  split <;> simp

@[simp] theorem execSyncOutSend_leavesPorts (dt : Nat) : LeavesPorts s (execSyncOutSend dt s) := by
  simp only [execSyncOutSend]
  split <;> simp

/-! ### The Raman receiver -/

@[simp] theorem execRamanRecordClose_leavesPorts (dt : Nat) (p : Port) (as st : List RamanSample) :
    LeavesPorts s (execRamanRecordClose dt p as st s) := by
  have he (u : State) (group time e) : (u.evtEnd p 2 group 0 1 0 time e).PortsStand u := by simp
  unfold execRamanRecordClose
  extract_lets
  split
  · exact ⟨rfl, rfl⟩
  · exact .ite (fun _ => ⟨rfl, rfl⟩) fun _ =>
      State.PortsStand.ite (fun _ => ⟨rfl, rfl⟩) (fun _ => (he _ _ _ _).trans ⟨rfl, rfl⟩)

@[simp] theorem execRamanOffsetMeasure_leavesPorts (dt : Nat) (p : Port) (as st : List Int) :
    LeavesPorts s (execRamanOffsetMeasure dt p as st s) := by
  simp only [execRamanOffsetMeasure]
  (repeat' split) <;> simp

@[simp] theorem execApdBiasOutOfRange_leavesPorts (dt : Nat) (p : Port) (b : Band) (mv : Nat) :
    LeavesPorts s (execApdBiasOutOfRange dt p b mv s) := by
  simp [execApdBiasOutOfRange]

@[simp] theorem execApdCurrentHigh_leavesPorts (dt : Nat) (p : Port) (b : Band) (microA : Nat) :
    LeavesPorts s (execApdCurrentHigh dt p b microA s) := by
  simp [execApdCurrentHigh]

@[simp] theorem execDtsUpdateBoundary_leavesPorts (dt : Nat) (p : Port) : LeavesPorts s (execDtsUpdateBoundary dt p s) := by
  simp only [execDtsUpdateBoundary]
  split <;> simp

@[simp] theorem execBattSwap_leavesPorts (dt : Nat) (p : Port) (corrected uncorrectable : Nat) :
    LeavesPorts s (execBattSwap dt p corrected uncorrectable s) := by
  simp only [execBattSwap]
  split <;> simp

@[simp] theorem execRefHoldExpiry_leavesPorts (dt : Nat) (p : Port) : LeavesPorts s (execRefHoldExpiry dt p s) := by
  simp [execRefHoldExpiry]

/-! ### Temperature profiles -/

@[simp] theorem execDtsProfileDone_leavesPorts (dt : Nat) (p : Port) : LeavesPorts s (execDtsProfileDone dt p s) := by
  simp only [execDtsProfileDone]
  split <;> simp

/-! ### The regions -/

@[simp] theorem execRegionDeltaSample_leavesPorts (dt : Nat) (mv : List Nat) (halfK : List Int) :
    LeavesPorts s (execRegionDeltaSample dt mv halfK s) := by
  simp [execRegionDeltaSample]

@[simp] theorem execMarginMeasure_leavesPorts (dt : Nat) (capacities : List (List Nat)) :
    LeavesPorts s (execMarginMeasure dt capacities s) := by
  simp only [execMarginMeasure]
  (repeat' split) <;> simp

@[simp] theorem execStallDetected_leavesPorts (dt : Nat) (region : Region) (stage : Nat) :
    LeavesPorts s (execStallDetected dt region stage s) := by
  simp [execStallDetected]

/-! ### The hatband -/

@[simp] theorem execHbDigestExchange_leavesPorts (dt : Nat) (equal : Bool) : LeavesPorts s (execHbDigestExchange dt equal s) := by
  simp [execHbDigestExchange]

@[simp] theorem execBothFailedLatch_leavesPorts (dt : Nat) : LeavesPorts s (execBothFailedLatch dt s) := by
  simp [execBothFailedLatch]

@[simp] theorem execRecoveryCleanTick_leavesPorts (dt : Nat) : LeavesPorts s (execRecoveryCleanTick dt s) := by
  simp [execRecoveryCleanTick]

/-! ### The real-time writer -/

@[simp] theorem execRtItemArrival_leavesPorts (dt : Nat) (ring : Fin 3) : LeavesPorts s (execRtItemArrival dt ring s) := by
  simp only [execRtItemArrival]
  split <;> simp

@[simp] theorem execRingFlush_leavesPorts (dt : Nat) (ring : Fin 3) : LeavesPorts s (execRingFlush dt ring s) := by
  simp only [execRingFlush]
  split <;> simp

/-! ### Snapshots -/

@[simp] theorem execSnapshotCopy_leavesPorts (dt : Nat) (poisoned : List Nat) :
    LeavesPorts s (execSnapshotCopy dt poisoned s) := by
  simp only [execSnapshotCopy]
  (repeat' split) <;> simp

/-! ### The memory ports -/

@[simp] theorem execMemAccessBoundary_leavesPorts (dt : Nat) (a : AccessMeet) : LeavesPorts s (execMemAccessBoundary dt a s) := by
  simp only [execMemAccessBoundary]
  (repeat' split) <;> simp

@[simp] theorem execScrubRequest_leavesPorts (dt : Nat) : LeavesPorts s (execScrubRequest dt s) := by
  simp [execScrubRequest]

@[simp] theorem execRequestOverdue_leavesPorts (dt : Nat) (port : Fin 4) : LeavesPorts s (execRequestOverdue dt port s) := by
  simp only [execRequestOverdue]
  split
  · exact ⟨rfl, rfl⟩
  · rename_i v e
    obtain ⟨f, rfl⟩ : ∃ f, v = (s.elapse dt).setMem f := by
      split at e
      · cases e
      · split at e
        · obtain ⟨-, ⟨⟩⟩ := Option.ite_none_right_eq_some.mp e
          exact ⟨_, rfl⟩
        · cases e
      · obtain ⟨_, _, rfl⟩ := Option.map_eq_some_iff.mp e
        exact ⟨_, rfl⟩
      · split at e
        · obtain ⟨-, ⟨⟩⟩ := Option.ite_none_right_eq_some.mp e
          exact ⟨_, rfl⟩
        · cases e
    exact ⟨rfl, rfl⟩

@[simp] theorem execBar2Read_leavesPorts (dt : Nat) (offset length : Nat) : LeavesPorts s (execBar2Read dt offset length s) := by
  simp [execBar2Read]

@[simp] theorem execBar2Write_leavesPorts (dt : Nat) (offset : Nat) : LeavesPorts s (execBar2Write dt offset s) := by
  simp [execBar2Write]

/-! ### The operator panel -/

@[simp] theorem execKeyAcknowledge_leavesPorts (dt : Nat) (k : Fin 8) : LeavesPorts s (execKeyAcknowledge dt k s) := by
  simp only [execKeyAcknowledge]
  (repeat' split) <;> simp

@[simp] theorem execKeyLampTest_leavesPorts (dt : Nat) (k : Fin 8) : LeavesPorts s (execKeyLampTest dt k s) := by
  simp [execKeyLampTest]

@[simp] theorem execLampTestTimeout_leavesPorts (dt : Nat) : LeavesPorts s (execLampTestTimeout dt s) := by
  simp only [execLampTestTimeout]
  (repeat' split) <;> simp

@[simp] theorem execKeyBrightness_leavesPorts (dt : Nat) (k : Fin 8) : LeavesPorts s (execKeyBrightness dt k s) := by
  simp [execKeyBrightness]

@[simp] theorem execKeyRelease_leavesPorts (dt : Nat) (k : Fin 8) : LeavesPorts s (execKeyRelease dt k s) := by
  simp only [execKeyRelease]
  (repeat' split) <;> simp

@[simp] theorem execPanelCompose_leavesPorts (dt : Nat) : LeavesPorts s (execPanelCompose dt s) := by
  simp [execPanelCompose]

@[simp] theorem execPanelBufferSwap_leavesPorts (dt : Nat) : LeavesPorts s (execPanelBufferSwap dt s) := by
  simp [execPanelBufferSwap]

@[simp] theorem execLedDiagPulse_leavesPorts (dt : Nat) (led : Fin 384) (isOpen : Bool) :
    LeavesPorts s (execLedDiagPulse dt led isOpen s) := by
  simp [execLedDiagPulse]

@[simp] theorem execLedDiagExpiry_leavesPorts (dt : Nat) (led : Fin 384) : LeavesPorts s (execLedDiagExpiry dt led s) := by
  simp [execLedDiagExpiry]

@[simp] theorem execColourMeasurement_leavesPorts (dt : Nat) : LeavesPorts s (execColourMeasurement dt s) := by
  simp [execColourMeasurement]

@[simp] theorem execColourPhaseEnd_leavesPorts (dt : Nat) (counts : Option (Nat × Nat × Nat)) :
    LeavesPorts s (execColourPhaseEnd dt counts s) := by
  simp only [execColourPhaseEnd]
  split <;> simp

/-! ### The phase engine -/

@[simp] theorem execPhaseRecordProcess_leavesPorts (dt : Nat) (p : Port) (q : QueueRead) :
    LeavesPorts s (execPhaseRecordProcess dt p q s) := by
  simp only [execPhaseRecordProcess]
  split <;> simp

/-! ### The laser -/

@[simp] theorem execLaserDieInWindow_leavesPorts (x : Timed Int) : LeavesPorts s (execLaserDieInWindow x s) := by
  simp [execLaserDieInWindow]

@[simp] theorem execInjectionLockDetected_leavesPorts (dt : Nat) : LeavesPorts s (execInjectionLockDetected dt s) := by
  simp only [execInjectionLockDetected]
  (repeat' split) <;> simp

@[simp] theorem execWavelengthTuned_leavesPorts (x : Timed Int) : LeavesPorts s (execWavelengthTuned x s) := by
  simp [execWavelengthTuned]

@[simp] theorem execRelockAttemptTimeout_leavesPorts (dt : Nat) : LeavesPorts s (execRelockAttemptTimeout dt s) := by
  simp [execRelockAttemptTimeout]

@[simp] theorem execWavelengthRecoveryTimeout_leavesPorts (dt : Nat) : LeavesPorts s (execWavelengthRecoveryTimeout dt s) := by
  simp only [execWavelengthRecoveryTimeout]
  split <;> simp

@[simp] theorem execDieTempFenceTimeout_leavesPorts (x : Timed DieError) : LeavesPorts s (execDieTempFenceTimeout x s) := by
  simp [execDieTempFenceTimeout]

@[simp] theorem execLaserPowerLow_leavesPorts (dt : Nat) (permille : Nat) : LeavesPorts s (execLaserPowerLow dt permille s) := by
  simp [execLaserPowerLow]

@[simp] theorem execTecSaturated_leavesPorts (x : Timed Nat) : LeavesPorts s (execTecSaturated x s) := by
  simp [execTecSaturated]

@[simp] theorem execLaunchPeakLow_leavesPorts (dt : Nat) (p : Port) (k : PeakBelow) :
    LeavesPorts s (execLaunchPeakLow dt p k s) := by
  simp [execLaunchPeakLow]

@[simp] theorem execPhotodiodeFault_leavesPorts (dt : Nat) (p : Port) (percent : Nat) :
    LeavesPorts s (execPhotodiodeFault dt p percent s) := by
  simp [execPhotodiodeFault]

/-! ### The shot sequencer -/

@[simp] theorem execGroupStart_leavesPorts (dt : Nat) (p : Port) : LeavesPorts s (execGroupStart dt p s) := by
  simp only [execGroupStart]
  (repeat' split) <;> simp

@[simp] theorem execLaunchTimestampTimeout_leavesPorts (dt : Nat) (p : Port) :
    LeavesPorts s (execLaunchTimestampTimeout dt p s) := by
  simp only [execLaunchTimestampTimeout]
  split <;> simp

@[simp] theorem execTriggerEdge_leavesPorts (dt : Nat) (input : Fin 2) (level : Bool) (m : TiuMeas) :
    LeavesPorts s (execTriggerEdge dt input level m s) := by
  simp only [execTriggerEdge]
  (repeat' split) <;> simp

@[simp] theorem execTriggerEdgeAccepted_leavesPorts (dt : Nat) (p : Port) : LeavesPorts s (execTriggerEdgeAccepted dt p s) := by
  simp only [execTriggerEdgeAccepted]
  (repeat' split) <;> simp

@[simp] theorem execTriggerTimeout_leavesPorts (dt : Nat) (p : Port) : LeavesPorts s (execTriggerTimeout dt p s) := by
  simp [execTriggerTimeout]

/-! ### The supervisory converter -/

@[simp] theorem execSupPassStart_leavesPorts (dt : Nat) (selfTestOk : Bool) :
    LeavesPorts s (execSupPassStart dt selfTestOk s) := by
  simp [execSupPassStart]

@[simp] theorem execSupConversionDone_leavesPorts (dt : Nat) (code : Int) : LeavesPorts s (execSupConversionDone dt code s) := by
  simp only [execSupConversionDone]
  (repeat' split) <;> simp

@[simp] theorem execSupCoarseValue_leavesPorts (dt : Nat) (code : Int) : LeavesPorts s (execSupCoarseValue dt code s) := by
  simp [execSupCoarseValue]

/-! ### The status space -/

@[simp] theorem execCounterLowWordRead_leavesPorts (dt : Nat) (path : AccessPath) (offset length : Nat) (failed : Bool) :
    LeavesPorts s (execCounterLowWordRead dt path offset length failed s) := by
  simp only [execCounterLowWordRead]
  split <;> simp

/-! ### Recovery attempts and warnings -/

@[simp] theorem execRecoveryAttempt_leavesPorts (dt : Nat) (d : Domain) : LeavesPorts s (execRecoveryAttempt dt d s) := by
  simp [execRecoveryAttempt]

@[simp] theorem execWarningClear_leavesPorts (dt : Nat) (code : U32) : LeavesPorts s (execWarningClear dt code s) := by
  simp only [execWarningClear]
  split <;> simp

/-! ### The stitch network -/

@[simp] theorem execLinkWordError_leavesPorts (dt : Nat) (node : Region) (uncorrectable : Bool) (hit : FlitHit) :
    LeavesPorts s (execLinkWordError dt node uncorrectable hit s) := by
  simp [execLinkWordError]

/-! ### Housekeeping, and requests on the lanes and the placket -/

@[simp] theorem execHousekeepingTimer_leavesPorts (dt : Nat) (r : RouteId) : LeavesPorts s (execHousekeepingTimer dt r s) := by
  simp only [execHousekeepingTimer]
  (repeat' split) <;> simp

theorem State.serveStatus_keeps (path : AccessPath) (most : Nat) (r : MgmtReq) (failed : Bool) (s : State) :
    Keeps (s.serveStatus path most r failed).2.2 s := by
  unfold State.serveStatus
  split_ifs <;> simp [Keeps]

theorem State.serveBlackBox_keeps (most : Nat) (r : MgmtReq) (s : State) : Keeps (s.serveBlackBox most r).2.2 s := by
  unfold State.serveBlackBox
  split_ifs <;> simp [Keeps]

theorem State.serveEcho_keeps (r : MgmtReq) (s : State) : Keeps (s.serveEcho r).2.2 s := by
  unfold State.serveEcho
  split_ifs <;> simp [Keeps]

theorem State.serveDump_keeps (r : MgmtReq) (s : State) : Keeps (s.serveDump r).2.2 s := by
  unfold State.serveDump
  split_ifs <;> simp [Keeps]

theorem State.serveRestart_keeps (r : MgmtReq) (s : State) : Keeps (s.serveRestart r).2.2 s := by
  unfold State.serveRestart
  dsimp only
  split_ifs <;> simp [Keeps]

theorem mgmtServe_leavesPorts (dt : Nat) (l : Lane) (r : MgmtReq) (op : Nat) {f : State → Served} (hf : ∀ s, Keeps (f s).2.2 s) :
    LeavesPorts s (.next ((s.elapse dt).mgmtServe l r op f)) :=
  (State.mgmtServe_keeps _ l r op f hf).portsStand.trans ⟨rfl, rfl⟩

theorem plkServe_leavesPorts (dt : Nat) (r : MgmtReq) (op : Nat) {f : State → Served} (hf : ∀ s, Keeps (f s).2.2 s) :
    LeavesPorts s (.next ((s.elapse dt).plkServe r op f)) :=
  (State.plkServe_keeps _ r op f hf).portsStand.trans ⟨rfl, rfl⟩

@[simp] theorem execMgmtStatusRead_leavesPorts (dt : Nat) (l : Lane) (r : MgmtReq) (failed : Bool) :
    LeavesPorts s (execMgmtStatusRead dt l r failed s) :=
  mgmtServe_leavesPorts dt l r 1 (State.serveStatus_keeps _ 1024 r failed)

@[simp] theorem execMgmtBlackBoxRead_leavesPorts (dt : Nat) (l : Lane) (r : MgmtReq) :
    LeavesPorts s (execMgmtBlackBoxRead dt l r s) :=
  mgmtServe_leavesPorts dt l r 2 (State.serveBlackBox_keeps 1024 r)

@[simp] theorem execMgmtEcho_leavesPorts (dt : Nat) (l : Lane) (r : MgmtReq) : LeavesPorts s (execMgmtEcho dt l r s) :=
  mgmtServe_leavesPorts dt l r 3 (State.serveEcho_keeps r)

@[simp] theorem execMgmtUnknownOp_leavesPorts (dt : Nat) (l : Lane) (r : MgmtReq) : LeavesPorts s (execMgmtUnknownOp dt l r s) := by
  refine mgmtServe_leavesPorts dt l r _ fun s => ?_
  split_ifs
  · exact s.serveStatus_keeps _ 1024 r false
  · exact s.serveBlackBox_keeps 1024 r
  · exact s.serveEcho_keeps r
  · exact ⟨rfl, rfl, rfl, rfl, rfl⟩

@[simp] theorem execPlacketStatusRead_leavesPorts (dt : Nat) (r : MgmtReq) (failed : Bool) :
    LeavesPorts s (execPlacketStatusRead dt r failed s) :=
  plkServe_leavesPorts dt r 1 (State.serveStatus_keeps _ plkMost r failed)

@[simp] theorem execPlacketBlackBoxRead_leavesPorts (dt : Nat) (r : MgmtReq) : LeavesPorts s (execPlacketBlackBoxRead dt r s) :=
  plkServe_leavesPorts dt r 2 (State.serveBlackBox_keeps plkMost r)

@[simp] theorem execPlacketEcho_leavesPorts (dt : Nat) (r : MgmtReq) : LeavesPorts s (execPlacketEcho dt r s) :=
  plkServe_leavesPorts dt r 3 (State.serveEcho_keeps r)

@[simp] theorem execPlacketBlackBoxDump_leavesPorts (dt : Nat) (r : MgmtReq) : LeavesPorts s (execPlacketBlackBoxDump dt r s) :=
  plkServe_leavesPorts dt r 4 (State.serveDump_keeps r)

@[simp] theorem execPlacketRestart_leavesPorts (dt : Nat) (r : MgmtReq) : LeavesPorts s (execPlacketRestart dt r s) :=
  plkServe_leavesPorts dt r 5 (State.serveRestart_keeps r)

@[simp] theorem execPlacketBadRequest_leavesPorts (dt : Nat) (r : MgmtReq) : LeavesPorts s (execPlacketBadRequest dt r s) := by
  refine plkServe_leavesPorts dt r _ fun s => ?_
  split_ifs
  · exact s.serveStatus_keeps _ plkMost r false
  · exact s.serveBlackBox_keeps plkMost r
  · exact s.serveEcho_keeps r
  · exact s.serveDump_keeps r
  · exact s.serveRestart_keeps r
  · exact ⟨rfl, rfl, rfl, rfl, rfl⟩

/-! ### The start -/

@[simp] theorem execCfgLoadStart_leavesPorts (dt : Nat) : LeavesPorts s (execCfgLoadStart dt s) := by
  simp only [execCfgLoadStart]
  (repeat' split) <;> simp

@[simp] theorem execImageReadDone_leavesPorts (dt : Nat) : LeavesPorts s (execImageReadDone dt s) := by
  simp only [execImageReadDone]
  (repeat' split) <;> simp

@[simp] theorem execLsrRelease_leavesPorts (dt : Nat) (c : StartChecks) : LeavesPorts s (execLsrRelease dt c s) := by
  refine .ite (fun _ => ?_) (fun _ => ⟨rfl, rfl⟩)
  have hd (u : State) : (bothPorts.foldl (fun s p => s.dtsStart p false) u).PortsStand u := by simp [bothPorts]
  have ho (u : State) : (c.other.foldl (fun s d => s.report d 0x00028001#32 0) u).PortsStand u :=
    .foldl (fun s d => by simp) _ _
  have hb (u : State) : (bothPorts.foldl (fun s p => s.startSlices p c.slices) u).PortsStand u := by simp [bothPorts]
  have hr {b : Prop} [Decidable b] (u : State) (d : Domain) (code : U32) : (if b then u else u.report d code 0).PortsStand u :=
    .ite (fun _ => ⟨rfl, rfl⟩) (fun _ => ⟨rfl, rfl⟩)
  have hw (u : State) : (u.setOpt fun o => { o with laser := .warming }).PortsStand u := ⟨rfl, rfl⟩
  exact (hd _).trans ((hw _).trans ((ho _).trans ((hr _ _ _).trans ((hr _ _ _).trans ((hb _).trans ⟨rfl, rfl⟩)))))

/-! ## Commands that act on the ports -/

/-! ### The hardwired inputs -/

/-- R427: a rise of 5 ns or more withdraws an asserted input, in every state. -/
theorem execPermitWithdrawn_withdrawn (s : State) (dt : Nat) {ns : Nat} (hns : 5 ≤ ns)
    (hi : s.permits.asserted[inputIndex i] = true) :
    ∃ t, execPermitWithdrawn dt i ns s = .next t ∧ t.Withdrawn s i := by
  refine ⟨_, if_pos ?_, State.holdPorts_withdrawn ?_ ?_⟩
  · simpa [hns] using hi
  · simp [hns]
  · simp [hns]

theorem execPermitWithdrawn_emissionSafe (h : s.EmissionSafe) (dt ns : Nat) (i : PermitInput) :
    Ensures State.EmissionSafe (execPermitWithdrawn dt i ns s) := by
  refine .ite (fun _ => h.withdrawn (i := i) (State.holdPorts_withdrawn ?_ ?_)) (fun _ => h.of_portsStand ?_)
  · split_ifs <;> rfl
  · split_ifs <;> rfl
  · constructor <;> split_ifs <;> rfl

theorem execPermitRestored_emissionSafe (h : s.EmissionSafe) (dt : Nat) (i : PermitInput) :
    Ensures State.EmissionSafe (execPermitRestored dt i s) := by
  refine .ite (fun _ => h.elapse dt) fun _ => ?_
  refine State.EmissionSafe.foldl (fun _ p k => .ite (fun _ => k.alsResume p) (fun _ => k)) _ fun q => ?_
  exact ⟨fun e => State.hardPermit_of_set_true rfl ((h q).1 e), fun e => State.hardPermit_of_set_true rfl ((h q).2 e)⟩

/-! ### Automatic laser shutdown and the panel's restart key -/

theorem execAlsShutdown_emissionSafe (h : s.EmissionSafe) (dt : Nat) (p : Port) :
    Ensures State.EmissionSafe (execAlsShutdown dt p s) := by
  unfold execAlsShutdown
  dsimp only
  split
  · exact h.elapse dt
  · exact .ite (fun _ => ((h.elapse dt).enterShutdown p _).setAls p _) (fun _ => (h.elapse dt).setAls p _)

theorem execAlsProbeEntry_emissionSafe (h : s.EmissionSafe) (dt : Nat) (p : Port) :
    Ensures State.EmissionSafe (execAlsProbeEntry dt p s) :=
  .ite (fun _ => (h.elapse dt).enterProbe p) (fun _ => h.elapse dt)

theorem execAlsProbeJudged_emissionSafe (h : s.EmissionSafe) (dt : Nat) (p : Port) :
    Ensures State.EmissionSafe (execAlsProbeJudged dt p s) :=
  .ite (fun _ => .ite (fun _ => (h.elapse dt).setAls p _) (fun _ => ((h.elapse dt).setAls p _).enterShutdown p _))
    (fun _ => h.elapse dt)

theorem execAlsProbeNoLaunch_emissionSafe (h : s.EmissionSafe) (dt : Nat) (p : Port) :
    Ensures State.EmissionSafe (execAlsProbeNoLaunch dt p s) :=
  .ite (fun _ => ((h.elapse dt).setAls p _).enterShutdown p _) (fun _ => h.elapse dt)

theorem execKeyManualRestart_emissionSafe (h : s.EmissionSafe) (dt : Nat) (k : Fin 8) :
    Ensures State.EmissionSafe (execKeyManualRestart dt k s) := by
  have hp : ((s.elapse dt).pressed k).EmissionSafe := (h.elapse dt).of_portsStand (by simp)
  exact .ite (fun _ => .ite (fun _ => hp.enterProbe _) (fun _ => hp.of_portsStand (by simp))) (fun _ => h.elapse dt)

/-! ### The laser -/

theorem execLaserReady_emissionSafe (h : s.EmissionSafe) (x : Timed (Int × Int)) :
    Ensures State.EmissionSafe (execLaserReady x s) :=
  .ite (fun _ => ((h.elapse _).setOpt _).laserReadyNow) (fun _ => h.elapse _)

theorem execInjectionLockLost_emissionSafe (h : s.EmissionSafe) (dt : Nat) :
    Ensures State.EmissionSafe (execInjectionLockLost dt s) :=
  have hl := ((h.elapse dt).leaveReady .relock).countRow 0
  .ite (fun _ => .ite (fun _ => (hl.setOpt _).report _ _ _) (fun _ => (hl.setOpt _).recordRow _ _ _)) (fun _ => h.elapse dt)

theorem execWavelengthOutOfWindow_emissionSafe (h : s.EmissionSafe) (dt : Nat) (err : Int) :
    Ensures State.EmissionSafe (execWavelengthOutOfWindow dt err s) :=
  .ite (fun _ => h.elapse dt) fun _ =>
    .ite (fun _ => (((((h.elapse dt).setOpt _).leaveReady .tuning).countRow 1).setOpt _).recordRow _ _ _)
      (fun _ => (h.elapse dt).setOpt _)

theorem execDieTempOutOfWindow_emissionSafe (h : s.EmissionSafe) (dt : Nat) (e : DieError) :
    Ensures State.EmissionSafe (execDieTempOutOfWindow dt e s) :=
  .ite (fun _ => h.elapse dt) fun _ =>
    .ite (fun _ => (((((h.elapse dt).setOpt _).leaveReady .settling).countRow 2).setOpt _).recordRow _ _ _)
      (fun _ => (h.elapse dt).setOpt _)

theorem execDieOverTemperature_emissionSafe (h : s.EmissionSafe) (dt : Nat) :
    Ensures State.EmissionSafe (execDieOverTemperature dt s) :=
  .ite (fun _ => (((h.elapse dt).gatesOff.setOpt _).countRow 3).report _ _ _) (fun _ => (h.elapse dt).gatesOff)

/-! ### The ports' optics -/

theorem execLaunchPeakHigh_emissionSafe (h : s.EmissionSafe) (dt : Nat) (p : Port) :
    Ensures State.EmissionSafe (execLaunchPeakHigh dt p s) :=
  .ite (fun _ => (((h.elapse dt).closePort p).countRow 5).report _ _ _) (fun _ => h.elapse dt)

theorem execLeakageBetweenPulses_emissionSafe (h : s.EmissionSafe) (dt : Nat) (p : Port) :
    Ensures State.EmissionSafe (execLeakageBetweenPulses dt p s) :=
  .ite (fun _ => (((h.elapse dt).closePort p).countRow 7).report _ _ _) (fun _ => h.elapse dt)

theorem execGateHeldTooLong_emissionSafe (h : s.EmissionSafe) (dt : Nat) (p : Port) :
    Ensures State.EmissionSafe (execGateHeldTooLong dt p s) := by
  unfold execGateHeldTooLong
  dsimp only
  split
  · exact .ite (fun _ => ((((h.elapse dt).closeGate p).setOptPort p _ .inl .inl).countRow 8).report _ _ _) (fun _ => h.elapse dt)
  · exact h.elapse dt

theorem execLoPowerOutOfRange_emissionSafe (h : s.EmissionSafe) (dt : Nat) (p : Port) (permille : Nat) :
    Ensures State.EmissionSafe (execLoPowerOutOfRange dt p permille s) :=
  .ite (fun _ => (((h.elapse dt).setOptPort p _ .inl .inl).countRow 10).report _ _ _) (fun _ => h.elapse dt)

theorem execShotGateClose_emissionSafe (h : s.EmissionSafe) (dt : Nat) (p : Port) :
    Ensures State.EmissionSafe (execShotGateClose dt p s) := by
  unfold execShotGateClose
  dsimp only
  split
  · exact .ite (fun _ => (h.elapse dt).setOptPort p _ (fun e => by cases e) .inl) (fun _ => h.elapse dt)
  · exact h.elapse dt

/-! ### Shots -/

theorem execPleatShotLaunch_emissionSafe (h : s.EmissionSafe) (dt : Nat) (p : Port) (k : Pleat) :
    Ensures State.EmissionSafe (execPleatShotLaunch dt p k s) := by
  unfold execPleatShotLaunch
  dsimp only
  split
  · refine .ite (fun _ => .ite (fun hp => ?_) (fun _ => ((h.elapse dt).setSht p _).drainMissing p)) (fun _ => h.elapse dt)
    have hl (f g pleat tag) := (((h.elapse dt).setSht p f).launchShot p (State.hardPermit_of_mayIssue hp) g pleat)
      |>.admitRecord p tag
    exact (State.EmissionSafe.ite (fun _ => (hl _ _ _ _).openRaman p _) (fun _ => hl _ _ _ _)).drainMissing p
  · exact h.elapse dt

theorem execTemperatureShotLaunch_emissionSafe (h : s.EmissionSafe) (dt : Nat) (p : Port) :
    Ensures State.EmissionSafe (execTemperatureShotLaunch dt p s) := by
  unfold execTemperatureShotLaunch
  dsimp only
  split
  · exact .ite (fun _ => .ite
      (fun hp => (((h.elapse dt).setSht p _).launchShot p (State.hardPermit_of_mayIssue hp) _ none).openRaman p _)
      (fun _ => (h.elapse dt).setSht p _)) (fun _ => h.elapse dt)
  · exact h.elapse dt

theorem execLaunchMonitorEdge_emissionSafe (h : s.EmissionSafe) (dt : Nat) (p : Port) (m : TiuMeas) (peak : Int) (energy : Nat) :
    Ensures State.EmissionSafe (execLaunchMonitorEdge dt p m peak energy s) := by
  unfold execLaunchMonitorEdge
  dsimp only
  split
  case h_1 => exact h.elapse dt
  case h_2 a _ _ =>
    refine .ite (fun _ => h.elapse dt) fun _ => ?_
    have hd := (h.elapse dt).correctDrive p a.tag.temperature peak
    split
    · exact hd.of_portsStand (by simp)
    · exact hd.of_portsStand (by simp)

/-! ### Fences and the hatband -/

theorem execFaultReport_emissionSafe (h : s.EmissionSafe) (dt : Nat) (extra : List FaultRep) :
    Ensures State.EmissionSafe (execFaultReport dt extra s) := by
  refine .ite (fun _ => h.elapse dt) fun _ => .ite (fun _ => h.of_portsStand ⟨rfl, rfl⟩) fun _ =>
    .ite (fun _ => ?_) (fun _ => h.of_portsStand ⟨rfl, rfl⟩)
  have hr (mask : Nat) (l : List FaultRep) : (l.foldl (State.handleReport mask)
      { s.elapse dt with hb := { (s.elapse dt).hb with reports := [] } }).EmissionSafe :=
    .foldl (fun _ f k => k.handleReport mask f) l (h.of_portsStand ⟨rfl, rfl⟩)
  exact State.EmissionSafe.ite (fun _ => hr _ _) (fun _ => (hr _ _).hbNotice)

theorem execRecoveryOverrun_emissionSafe (h : s.EmissionSafe) (dt : Nat) (d : Domain) :
    Ensures State.EmissionSafe (execRecoveryOverrun dt d s) :=
  .ite (fun _ => (h.elapse dt).scheduleRecovery d) (fun _ => h.elapse dt)

theorem execFenceCommand_emissionSafe (h : s.EmissionSafe) (dt : Nat) : Ensures State.EmissionSafe (execFenceCommand dt s) := by
  unfold execFenceCommand
  dsimp only
  split
  · exact h.elapse dt
  · exact .ite (fun _ => State.EmissionSafe.hbReaches (h.of_portsStand (by simp)) _) (fun _ => h.elapse dt)

theorem execHbAliveMissed_emissionSafe (h : s.EmissionSafe) (dt : Nat) (c : Ctl) :
    Ensures State.EmissionSafe (execHbAliveMissed dt c s) :=
  .ite (fun _ => (h.elapse dt).ctlFailed c 0) (fun _ => h.elapse dt)

theorem execHbSelfCheckFail_emissionSafe (h : s.EmissionSafe) (dt : Nat) (c : Ctl) :
    Ensures State.EmissionSafe (execHbSelfCheckFail dt c s) :=
  .ite (fun _ => (h.elapse dt).ctlFailed c 1) (fun _ => h.elapse dt)

theorem execHbSelfTestDone_emissionSafe (h : s.EmissionSafe) (dt : Nat) (aOk bOk : Bool) :
    Ensures State.EmissionSafe (execHbSelfTestDone dt aOk bOk s) := by
  refine .ite (fun _ => ?_) (fun _ => h.elapse dt)
  have hu : ({ s.elapse dt with hb := { (s.elapse dt).hb with selfTest := false } } : State).EmissionSafe :=
    h.of_portsStand ⟨rfl, rfl⟩
  split
  · exact hu.of_portsStand ⟨rfl, rfl⟩
  · exact hu.ctlFailed .a 2
  · exact hu.ctlFailed .b 2
  · exact hu.of_portsStand ⟨rfl, rfl⟩

theorem execRecoverySequenceEnd_emissionSafe (h : s.EmissionSafe) (dt : Nat) (d : Domain) (failing : List (Fin 4 × Fin 5)) :
    Ensures State.EmissionSafe (execRecoverySequenceEnd dt d failing s) := by
  have ht (p : Port) : ((s.elapse dt).selfTestSlices p failing).1.EmissionSafe := (h.elapse dt).of_portsStand (by simp)
  exact .ite (fun _ => .ite (fun _ => .ite (fun _ => (ht _).unfence d) (fun _ => (ht _).report _ _ _))
    (fun _ => (h.elapse dt).unfence d)) (fun _ => h.elapse dt)

theorem execUNoticeRepeat_emissionSafe (h : s.EmissionSafe) (dt : Nat) : Ensures State.EmissionSafe (execUNoticeRepeat dt s) := by
  refine .ite (fun _ => ?_) (fun _ => h.elapse dt)
  have hn : (((s.elapse dt).operatorReaches.injected .operator).evtRepeats).EmissionSafe := h.of_portsStand (by simp)
  exact ((hn.hbRepeats .hbA (s.elapse dt).hb.ctlA).hbRepeats .hbB (s.elapse dt).hb.ctlB).of_portsStand (by simp)

/-! ### Power and restarts -/

theorem execPowerGood_emissionSafe (h : s.EmissionSafe) (dt : Nat) (hbaOk hbbOk : Bool) :
    Ensures State.EmissionSafe (execPowerGood dt hbaOk hbbOk s) :=
  .ite (fun _ => State.EmissionSafe.hatbandStart (h.of_portsStand (by simp)) _ _) (fun _ => h.elapse dt)

theorem execPowerFailWarning_emissionSafe (h : s.EmissionSafe) (dt : Nat) (lowNs : Nat) (outMask : BitVec 8) :
    Ensures State.EmissionSafe (execPowerFailWarning dt lowNs outMask s) := by
  have hr := (h.elapse dt).recognised lowNs 20 100
  refine .ite (fun _ => ?_) (fun _ => hr)
  split
  · exact hr
  · exact (hr.powerFail outMask.toNat false).of_portsStand ⟨rfl, rfl⟩
  · exact hr.of_portsStand ⟨rfl, rfl⟩

theorem execSupplyMonitorTrip_emissionSafe (h : s.EmissionSafe) (dt : Nat) (outMask : BitVec 8) (low belowThreshold : Bool) :
    Ensures State.EmissionSafe (execSupplyMonitorTrip dt outMask low belowThreshold s) := by
  unfold execSupplyMonitorTrip
  dsimp only
  split
  · exact ((h.elapse dt).powerFail outMask.toNat low).of_portsStand ⟨rfl, rfl⟩
  all_goals exact (h.elapse dt).of_portsStand ⟨rfl, rfl⟩

theorem execResetNAsserted_emissionSafe (h : s.EmissionSafe) (dt : Nat) (lowNs : Nat) :
    Ensures State.EmissionSafe (execResetNAsserted dt lowNs s) :=
  .ite (fun _ => State.holdReset_emissionSafe _ _) (fun _ => (h.elapse dt).recognised lowNs 100 1000)

theorem execPfailRestart_emissionSafe (h : s.EmissionSafe) (dt : Nat) : Ensures State.EmissionSafe (execPfailRestart dt s) :=
  .ite (fun _ => State.holdReset_emissionSafe _ _) (fun _ => h.elapse dt)

theorem execRequestedRestart_emissionSafe (h : s.EmissionSafe) (dt : Nat) : Ensures State.EmissionSafe (execRequestedRestart dt s) := by
  unfold execRequestedRestart
  dsimp only
  split
  · exact .ite (fun _ => State.holdReset_emissionSafe _ _) (fun _ => h.elapse dt)
  · exact h.elapse dt

/-! ## Every command -/

/-- No command opens a gate or shutter without its port's hardwired permit. -/
theorem exec_emissionSafe (h : s.EmissionSafe) (c : Instr) : Ensures State.EmissionSafe (exec c s) := by
  cases c with
  | permitWithdrawn => exact execPermitWithdrawn_emissionSafe h ..
  | permitRestored => exact execPermitRestored_emissionSafe h ..
  | alsShutdown => exact execAlsShutdown_emissionSafe h ..
  | alsProbeEntry => exact execAlsProbeEntry_emissionSafe h ..
  | alsProbeJudged => exact execAlsProbeJudged_emissionSafe h ..
  | alsProbeNoLaunch => exact execAlsProbeNoLaunch_emissionSafe h ..
  | keyManualRestart => exact execKeyManualRestart_emissionSafe h ..
  | laserReady => exact execLaserReady_emissionSafe h ..
  | injectionLockLost => exact execInjectionLockLost_emissionSafe h ..
  | wavelengthOutOfWindow => exact execWavelengthOutOfWindow_emissionSafe h ..
  | dieTempOutOfWindow => exact execDieTempOutOfWindow_emissionSafe h ..
  | dieOverTemperature => exact execDieOverTemperature_emissionSafe h ..
  | launchPeakHigh => exact execLaunchPeakHigh_emissionSafe h ..
  | leakageBetweenPulses => exact execLeakageBetweenPulses_emissionSafe h ..
  | gateHeldTooLong => exact execGateHeldTooLong_emissionSafe h ..
  | loPowerOutOfRange => exact execLoPowerOutOfRange_emissionSafe h ..
  | pleatShotLaunch => exact execPleatShotLaunch_emissionSafe h ..
  | temperatureShotLaunch => exact execTemperatureShotLaunch_emissionSafe h ..
  | shotGateClose => exact execShotGateClose_emissionSafe h ..
  | launchMonitorEdge => exact execLaunchMonitorEdge_emissionSafe h ..
  | faultReport => exact execFaultReport_emissionSafe h ..
  | recoveryOverrun => exact execRecoveryOverrun_emissionSafe h ..
  | fenceCommand => exact execFenceCommand_emissionSafe h ..
  | hbAliveMissed => exact execHbAliveMissed_emissionSafe h ..
  | hbSelfCheckFail => exact execHbSelfCheckFail_emissionSafe h ..
  | hbSelfTestDone => exact execHbSelfTestDone_emissionSafe h ..
  | recoverySequenceEnd => exact execRecoverySequenceEnd_emissionSafe h ..
  | uNoticeRepeat => exact execUNoticeRepeat_emissionSafe h ..
  | powerGood => exact execPowerGood_emissionSafe h ..
  | powerFailWarning => exact execPowerFailWarning_emissionSafe h ..
  | supplyMonitorTrip => exact execSupplyMonitorTrip_emissionSafe h ..
  | resetNAsserted => exact execResetNAsserted_emissionSafe h ..
  | pfailRestart => exact execPfailRestart_emissionSafe h ..
  | requestedRestart => exact execRequestedRestart_emissionSafe h ..
  | _ => exact h.of_leavesPorts (by simp [exec])

theorem step_emissionSafe (h : s.EmissionSafe) : Ensures State.EmissionSafe (step s) := by
  have hq (rest : List Instr) : ({ s with pending := rest } : State).EmissionSafe := h.of_portsStand ⟨rfl, rfl⟩
  unfold step
  split
  · exact h
  · exact exec_emissionSafe (hq _) _

end

/-- Settles O3: every command keeps the invariant (`step_emissionSafe`), and a withdrawal closes whatever it governs
(`execPermitWithdrawn_withdrawn`). -/
theorem emissionNeedsPermit : Obligations.EmissionNeedsPermit := by
  refine ⟨fun s t h e => ?_, fun s dt ns i hns hi => ?_⟩
  · have k := step_emissionSafe h
    rwa [e] at k
  · obtain ⟨t, e, ha, hc, -⟩ := execPermitWithdrawn_withdrawn s dt hns hi
    exact ⟨t, e, by simp [ha], hc⟩

end Sys2Proof.Machine

/-! SUPPORT. The timers that form records (R333, R334, R336, R351). A record joins its route in one equation; a fold over routes whose
step changes its own route only is computed route by route; an item on its way to a ring changes only what reports may; and a flush
empties the gathers it is given and touches no other route and no other port's coder. -/

namespace Sys2Proof.Machine

section

variable {s t u : State}

/-! ## One element of a vector, and a fold over elements -/

theorem upd_upd {α : Type} {n : Nat} (v : Vector α n) (i : Fin n) (f g : α → α) :
    upd (upd v i f) i g = upd v i fun x => g (f x) := by
  simp [upd]

theorem upd_of_fixed {α : Type} {n : Nat} {v : Vector α n} {i : Fin n} {f : α → α} (h : f v[i] = v[i]) : upd v i f = v := by
  rw [upd, h]
  exact Vector.set_getElem_self _

theorem upd_get_same {α : Type} {n : Nat} (v : Vector α n) (i : Fin n) (f : α → α) : (upd v i f)[i] = f v[i] := by
  rw [upd_get, if_pos rfl]

theorem upd_get_other {α : Type} {n : Nat} (v : Vector α n) {i j : Fin n} (f : α → α) (h : j ≠ i) : (upd v i f)[j] = v[j] := by
  rw [upd_get, if_neg h.symm]

/-- Every element of a vector, changed one by one. -/
theorem foldl_upd_finRange {α : Type} {n : Nat} (f : α → α) (v : Vector α n) :
    (List.finRange n).foldl (fun v i => upd v i f) v = v.map f := by
  have h (l : List (Fin n)) (hl : l.Nodup) (v : Vector α n) (k : Fin n) :
      (l.foldl (fun v i => upd v i f) v)[k] = if k ∈ l then f v[k] else v[k] := by
    induction l generalizing v with
    | nil => simp
    | cons i l ih =>
      obtain ⟨hi, hl⟩ := List.nodup_cons.mp hl
      rw [List.foldl_cons, ih hl, upd_get]
      by_cases hk : i = k
      · subst hk
        simp [hi]
      · simp [hk, Ne.symm hk]
  ext k hk
  simpa using h _ (List.nodup_finRange n) v ⟨k, hk⟩

/-! ## Records on their way to a route or a ring -/

/-- A route changes and takes a record: one update of the route. -/
theorem State.setRoute_toRoute (s : State) (r : RouteId) (f : RouteSt → RouteSt) (q : PRec) : (s.setRoute r f).toRoute r q =
    { s with routes := upd s.routes r fun x => { f x with inflight := (f x).inflight ++ [q] } } := by
  simp only [State.toRoute, State.setRoute, upd_upd]

/-- Records one after another: one update of the route. -/
theorem State.foldl_toRoute (s : State) (r : RouteId) (l : List PRec) : l.foldl (fun s q => s.toRoute r q) s =
    { s with routes := upd s.routes r fun x => { x with inflight := x.inflight ++ l } } := by
  induction l generalizing s with
  | nil => simp [upd_of_fixed]
  | cons q l ih =>
    rw [List.foldl_cons, ih]
    simp [State.toRoute, upd_upd]

/-- R271, R310: an item waits for the ring's writer, or its flits are counted, or it is gone. -/
theorem State.toRing_eq (s : State) (k : Fin 3) (i : RtItem) : ∃ items discards,
    s.toRing k i = { s with mem := { s.mem with items := items }, fab := { s.fab with fencedDiscards := discards } } := by
  unfold State.toRing
  split
  · exact ⟨_, _, rfl⟩
  · split
    · exact ⟨_, _, rfl⟩
    · exact ⟨_, _, rfl⟩

/-- Items one after another leave the coders and their counters, and change only what reports may. -/
theorem State.foldl_toRing_keeps {α : Type} (s : State) (k : Fin 3) (item : α → RtItem) (l : List α) :
    (l.foldl (fun s a => s.toRing k (item a)) s).ringCoders = s.ringCoders ∧
      (l.foldl (fun s a => s.toRing k (item a)) s).cmp = s.cmp ∧
      (l.foldl (fun s a => s.toRing k (item a)) s).hushed = s.hushed := by
  have h := same_foldl (π := fun s => (s.ringCoders, s.cmp, s.hushed)) (fun s a => s.toRing k (item a))
    (fun s a => by obtain ⟨_, _, e⟩ := s.toRing_eq k (item a); rw [e]; rfl) l s
  simpa only [Same, Prod.mk.injEq] using h

/-! ## HEARTBEAT and HOUSEKEEPING (R351, R333) -/

theorem execHeartbeatTimer_due (dt : Nat) (r : RouteId) (hu : u = s.elapse dt) (hr : (u.routeRec r).isSome = true)
    (hm : u.heartbeatMs r ≠ 0) (hs : u.routeSends r = true) (hd : u.routes[r].sentAt + u.heartbeatMs r * msP ≤ u.now) :
    execHeartbeatTimer dt r s = .next { u with
      routes := upd u.routes r fun x => { x with sentAt := u.now, inflight := x.inflight ++ [u.newRec 0x7F 0xFF []] } } := by
  simp only [execHeartbeatTimer, ← hu]
  rw [if_pos (by simp only [hr, bne_iff_ne.mpr hm, hs, decide_eq_true hd, Bool.and_self]), State.setRoute_toRoute]

theorem execHeartbeatTimer_idle (dt : Nat) (r : RouteId) (hu : u = s.elapse dt)
    (h : u.routeSends r = false ∨ u.heartbeatMs r = 0 ∨ u.now < u.routes[r].sentAt + u.heartbeatMs r * msP) :
    execHeartbeatTimer dt r s = .next u := by
  simp only [execHeartbeatTimer, ← hu]
  refine if_neg fun c => ?_
  simp only [Bool.and_eq_true, decide_eq_true_eq, bne_iff_ne] at c
  obtain ⟨⟨⟨-, hm⟩, hs⟩, hd⟩ := c
  rcases h with h | h | h
  · exact absurd hs (by simp [h])
  · exact hm h
  · omega

theorem execHousekeepingTimer_due (dt : Nat) (r : RouteId) (hu : u = s.elapse dt) (hl : u.live = true)
    (hr : (u.routeRec r).isSome = true) (hm : u.housekeepingMs r ≠ 0)
    (hd : u.routes[r].housekeptAt + u.housekeepingMs r * msP ≤ u.now) :
    ∃ t, execHousekeepingTimer dt r s = .next t ∧
      t.routes = (upd u.routes r fun x =>
        { x with housekeptAt := u.now, inflight := x.inflight ++ [u.newRec 0x31 0xFF u.housekeeping] }) ∧
      OnlyReports t { u with routes := t.routes } ∧ (u.ring2Takes 0x31 = false → t = { u with routes := t.routes }) := by
  simp only [execHousekeepingTimer, ← hu]
  rw [if_pos (by simp only [hl, hr, bne_iff_ne.mpr hm, decide_eq_true hd, Bool.and_self]), State.setRoute_toRoute]
  refine ⟨_, rfl, ?_⟩
  split
  case isTrue h =>
    obtain ⟨_, _, e⟩ := State.toRing_eq _ 2 _
    rw [e]
    exact ⟨rfl, rfl, fun k => absurd (h.symm.trans k) (by decide)⟩
  case isFalse => exact ⟨rfl, rfl, fun _ => rfl⟩

/-! ## TIMING records (R334) -/

/-- A gather of shot tags has stood for 10 ms. -/
def State.tagsDue (u : State) (g : TagGather) : Bool := decide (g.firstAt + 10 * msP ≤ u.now)

theorem State.tagsDue_eq (u : State) (g : TagGather) : u.tagsDue g = decide (g.firstAt + 10 * msP ≤ u.now) := rfl

/-- A route whose gather of a port's tags, if due and not empty, has closed into a record. -/
def State.tagsClosed (u : State) (p : Port) (x : RouteSt) : RouteSt :=
  if u.tagsDue x.tags[p] then
    if x.tags[p].entries.isEmpty then x
    else
      { x with
        tags := x.tags.set p {}
        inflight := x.inflight ++ [u.newRec 0x40 p.val (timingPayload 2 x.tags[p].entries)] }
  else x

theorem State.tagsClosed_of_early {p : Port} {x : RouteSt} (h : u.tagsDue x.tags[p] = false) : u.tagsClosed p x = x :=
  if_neg (by simp only [h, Bool.false_eq_true, not_false_eq_true])

theorem State.tagsClosed_of_due {p : Port} {x : RouteSt} (hd : u.tagsDue x.tags[p] = true) (he : x.tags[p].entries ≠ []) :
    u.tagsClosed p x = { x with
      tags := x.tags.set p {}
      inflight := x.inflight ++ [u.newRec 0x40 p.val (timingPayload 2 x.tags[p].entries)] } :=
  (if_pos hd).trans (if_neg (mt List.isEmpty_iff.mp he))

/-- The state with its routes replaced. -/
def State.withRoutes (u : State) (v : Vector RouteSt 16) : State := { u with routes := v }

/-- What the timer does at one route, whatever it has done at others. -/
theorem State.closeTags_of_due (u : State) (p : Port) (v : Vector RouteSt 16) (r : RouteId) :
    (if u.tagsDue v[r].tags[p] then (u.withRoutes v).closeTags r p else u.withRoutes v) =
      u.withRoutes (upd v r (u.tagsClosed p)) := by
  split
  case isFalse hd => rw [upd_of_fixed (State.tagsClosed_of_early (Bool.not_eq_true _ ▸ hd))]
  case isTrue hd =>
    unfold State.closeTags
    dsimp only
    split
    case isTrue he =>
      have e : u.tagsClosed p v[r] = v[r] := (if_pos hd).trans (if_pos he)
      rw [upd_of_fixed e]
    case isFalse he =>
      rw [State.setRoute_toRoute]
      have e := State.tagsClosed_of_due hd (mt List.isEmpty_iff.mpr he)
      exact congrArg (fun x => u.withRoutes (v.set r x)) e.symm

/-- The timer closes what is due at every route. -/
theorem State.foldl_closeTags (u : State) (p : Port) :
    allRoutes.foldl (fun s r => if u.tagsDue s.routes[r].tags[p] then s.closeTags r p else s) u =
      u.withRoutes (u.routes.map (u.tagsClosed p)) := by
  have h (l : List RouteId) (v : Vector RouteSt 16) :
      l.foldl (fun s r => if u.tagsDue s.routes[r].tags[p] then s.closeTags r p else s) (u.withRoutes v) =
        u.withRoutes (l.foldl (fun v r => upd v r (u.tagsClosed p)) v) := by
    induction l generalizing v with
    | nil => rfl
    | cons r l ih => rw [List.foldl_cons, List.foldl_cons, ← ih, ← u.closeTags_of_due p v r]; rfl
  rw [← foldl_upd_finRange]
  exact h allRoutes u.routes

/-- Ring 2's gather of a port closes into an item for the ring, unless it is empty. -/
theorem State.closeRingTags_eq (s : State) (p : Port) : ∃ mem discards,
    s.closeRingTags p = { s with mem := mem, fab := { s.fab with fencedDiscards := discards } } ∧
      (s.mem.tags[p].entries ≠ [] → mem.tags = s.mem.tags.set p {}) := by
  unfold State.closeRingTags
  dsimp only
  split
  case isTrue h => exact ⟨_, _, rfl, fun k => absurd (List.isEmpty_iff.mp h) k⟩
  case isFalse =>
    obtain ⟨_, _, e⟩ := State.toRing_eq _ 2 _
    exact ⟨_, _, e, fun _ => rfl⟩

theorem execTimingRecordClose_eq (dt : Nat) (p : Port) (hu : u = s.elapse dt) :
    ∃ t, execTimingRecordClose dt p s = .next t ∧ t.routes = u.routes.map (u.tagsClosed p) ∧
      OnlyReports t { u with routes := t.routes, mem := t.mem } ∧
      (u.tagsDue u.mem.tags[p] = true → u.mem.tags[p].entries ≠ [] → t.mem.tags = u.mem.tags.set p {}) ∧
      (u.tagsDue u.mem.tags[p] = false → t.mem = u.mem) := by
  have e : execTimingRecordClose dt p s = .next (if u.tagsDue u.mem.tags[p] then
      (u.withRoutes (u.routes.map (u.tagsClosed p))).closeRingTags p else u.withRoutes (u.routes.map (u.tagsClosed p))) := by
    simp only [execTimingRecordClose, ← hu, ← State.tagsDue_eq, State.foldl_closeTags]
    rfl
  refine ⟨_, e, ?_⟩
  split
  case isTrue hd =>
    obtain ⟨mem, discards, e, ht⟩ := (u.withRoutes (u.routes.map (u.tagsClosed p))).closeRingTags_eq p
    rw [e]
    exact ⟨rfl, rfl, fun _ => ht, fun k => absurd (hd.symm.trans k) (by decide)⟩
  case isFalse hd => exact ⟨rfl, rfl, fun k => absurd k hd, fun _ => rfl⟩

/-! ## Coders (R336) -/

/-- `t` is `s` with a port's open ring blocks gone; beyond reports at most that port's ring coder and counters changed. -/
def State.RingFlushed (t s : State) (p : Port) : Prop :=
  OnlyReports t { s with ringCoders := t.ringCoders, cmp := t.cmp } ∧ t.ringCoders[p].rows = [] ∧
    ∀ q, q ≠ p → t.ringCoders[q] = s.ringCoders[q] ∧ t.cmp[q] = s.cmp[q]

theorem State.closeRing_ringFlushed (s : State) (p : Port) (flushed : Bool) : (s.closeRing p flushed).RingFlushed s p := by
  unfold State.closeRing
  dsimp only
  split
  case h_1 h => exact ⟨rfl, h, fun _ _ => ⟨rfl, rfl⟩⟩
  case h_2 =>
    simp only [State.RingFlushed, OnlyReports, State.foldl_toRing_keeps]
    exact ⟨rfl, congrArg Gather.rows (Vector.getElem_set_self p.isLt),
      fun q hq => ⟨Vector.getElem_set_ne p.isLt q.isLt (Fin.val_ne_of_ne hq.symm), upd_get_other _ _ hq⟩⟩

theorem execCoderFlush_ring_due (dt : Nat) (p : Port) (hu : u = s.elapse dt) (hl : u.live = true) (hf : u.isShut 12 = false)
    (hc : u.histCoding p.val ≠ 0) (hm : u.memFlushMs ≠ 0) (hd : u.ringCoders[p].lastAt + u.memFlushMs * msP ≤ u.now) :
    execCoderFlush dt (.ring p) s = .next (u.closeRing p true) := by
  simp only [execCoderFlush, ← hu]
  exact if_pos (by simp only [hl, hf, bne_iff_ne.mpr hc, bne_iff_ne.mpr hm, decide_eq_true hd, Bool.not_false, Bool.and_self])

/-- `t` is `s` with at most a route and the counters of a port's coder changed. -/
def State.RouteCoded (t s : State) (r : RouteId) (p : Port) : Prop :=
  t = { s with routes := t.routes, cmp := t.cmp } ∧ (∀ k, k ≠ r → t.routes[k] = s.routes[k]) ∧ ∀ q, q ≠ p → t.cmp[q] = s.cmp[q]

variable {r : RouteId} {p : Port}

theorem State.RouteCoded.refl (s : State) : s.RouteCoded s r p := ⟨rfl, fun _ _ => rfl, fun _ _ => rfl⟩

theorem State.RouteCoded.trans (h : t.RouteCoded u r p) (k : u.RouteCoded s r p) : t.RouteCoded s r p := by
  obtain ⟨ht, hr, hc⟩ := h
  obtain ⟨hu, kr, kc⟩ := k
  refine ⟨?_, fun i hi => (hr i hi).trans (kr i hi), fun q hq => (hc q hq).trans (kc q hq)⟩
  rw [hu] at ht
  exact ht

theorem State.RouteCoded.foldl {α : Type} {f : State → α → State} (hf : ∀ s a, (f s a).RouteCoded s r p) (l : List α) (s : State) :
    (l.foldl f s).RouteCoded s r p :=
  List.foldlRecOn l f (.refl s) fun t h a _ => (hf t a).trans h

theorem State.setRoute_routeCoded (s : State) (f : RouteSt → RouteSt) : (s.setRoute r f).RouteCoded s r p :=
  ⟨rfl, fun _ hk => upd_get_other _ _ hk, fun _ _ => rfl⟩

theorem State.countBlocks_routeCoded (s : State) (coding : Nat) (flushed : Bool) (bs : List (Nat × CodedBlock)) :
    (s.countBlocks p coding flushed bs).RouteCoded s r p :=
  ⟨rfl, fun _ _ => rfl, fun _ hq => upd_get_other _ _ hq⟩

theorem State.closeGather_routeCoded (s : State) (g : Gather) (flushed : Bool) : (s.closeGather r p g flushed).RouteCoded s r p := by
  have records (u : State) (l : List PRec) : (l.foldl (fun s q => s.toRoute r q) u).RouteCoded u r p :=
    .foldl (fun s _ => s.setRoute_routeCoded _) l u
  have emptied := s.setRoute_routeCoded (r := r) (p := p) fun x => x.setGather { g with rows := [], lost := false }
  unfold State.closeGather
  split
  · exact .refl s
  · split
    · exact (records _ _).trans emptied
    · exact ((records _ _).trans (State.countBlocks_routeCoded ..)).trans emptied

/-- A gather that closes is emptied in its place. -/
theorem State.closeGather_das (s : State) (g : Gather) (flushed : Bool) : (s.closeGather r p g flushed).routes[r].das =
    if g.rows.isEmpty then s.routes[r].das else (s.routes[r].setGather { g with rows := [], lost := false }).das := by
  have das (u : State) (l : List PRec) : (l.foldl (fun s q => s.toRoute r q) u).routes[r].das = u.routes[r].das := by
    rw [State.foldl_toRoute, upd_get_same]
  unfold State.closeGather
  dsimp only
  split
  · rfl
  · have e := congrArg RouteSt.das (upd_get_same s.routes r fun x => x.setGather { g with rows := [], lost := false })
    split
    · exact (das _ _).trans e
    · exact (das _ _).trans e

theorem RouteSt.mem_setGather {x : RouteSt} {g h : Gather} (m : h ∈ (x.setGather g).das) :
    h = g ∨ h ∈ x.das ∧ ¬(h.port = g.port ∧ h.product = g.product ∧ h.coarse = g.coarse) := by
  simp only [RouteSt.setGather, List.mem_append, List.mem_filter, List.mem_singleton] at m
  rcases m with ⟨hm, hk⟩ | hm
  · exact .inr ⟨hm, fun ⟨hp, hd, hc⟩ => by simp [hp, hd, hc] at hk⟩
  · exact .inl hm

/-- What stands at a route after a gather has closed is empty, or stood there before and is not that gather. -/
theorem State.mem_closeGather {s : State} {g h : Gather} {flushed : Bool} (m : h ∈ (s.closeGather r p g flushed).routes[r].das) :
    h.rows = [] ∨ h ∈ s.routes[r].das ∧ h ≠ g := by
  rw [State.closeGather_das] at m
  split at m
  case isTrue hg =>
    by_cases e : h = g
    · exact .inl (e ▸ List.isEmpty_iff.mp hg)
    · exact .inr ⟨m, e⟩
  case isFalse =>
    rcases RouteSt.mem_setGather m with rfl | ⟨hm, hk⟩
    · exact .inl rfl
    · exact .inr ⟨hm, fun e => hk (e ▸ ⟨rfl, rfl, rfl⟩)⟩

theorem State.mem_foldl_closeGather {flushed : Bool} {h : Gather} (l : List Gather) (s : State)
    (m : h ∈ (l.foldl (fun s g => s.closeGather r p g flushed) s).routes[r].das) : h.rows = [] ∨ h ∈ s.routes[r].das ∧ h ∉ l := by
  induction l generalizing s with
  | nil => exact .inr ⟨m, List.not_mem_nil⟩
  | cons g l ih =>
    rcases ih _ m with he | ⟨hm, hl⟩
    · exact .inl he
    · refine (State.mem_closeGather hm).imp_right fun ⟨hs, hg⟩ => ⟨hs, ?_⟩
      simp [hg, hl]

theorem execCoderFlush_route (dt : Nat) (r : RouteId) (p : Port) (product : Nat) (hu : u = s.elapse dt) (hl : u.live = true)
    (hf : u.isShut 12 = false) (hc : u.routeCoding r ≠ 0) (hm : u.routeFlushMs r ≠ 0) :
    ∃ t, execCoderFlush dt (.route r p product) s = .next t ∧ t.RouteCoded u r p ∧
      ∀ g ∈ t.routes[r].das, g.port = p.val → g.product = product → g.lastAt + u.routeFlushMs r * msP ≤ u.now → g.rows = [] := by
  simp only [execCoderFlush, ← hu]
  refine ⟨_, if_pos (by simp only [hl, hf, bne_iff_ne.mpr hc, bne_iff_ne.mpr hm, Bool.not_false, Bool.and_self]),
    .foldl (fun s g => s.closeGather_routeCoded g true) _ u, fun g hg hp hr hd => ?_⟩
  refine (State.mem_foldl_closeGather _ u hg).resolve_right fun ⟨hm, hn⟩ => hn ?_
  exact List.mem_filter.mpr ⟨hm, by simp [hp, hr, hd]⟩

end

/-- Settles O45: each timer's row at its own lemma, for TIMING records route by route (`State.tagsClosed`), for a route's coder by what
stands in its gathers after the flush (`State.mem_foldl_closeGather`). -/
theorem timersFormRecords : Obligations.TimersFormRecords := by
  intro s u dt hu
  refine ⟨fun r => execHeartbeatTimer_due dt r hu, fun r => execHeartbeatTimer_idle dt r hu,
    fun r => execHousekeepingTimer_due dt r hu, fun p => ?_, fun p hl hf hc hm hd => ?_, fun r p product hl hf hc hm => ?_⟩
  · obtain ⟨t, e, hr, ho, hdue, hearly⟩ := execTimingRecordClose_eq dt p hu
    have route (r : RouteId) : t.routes[r] = u.tagsClosed p u.routes[r] := by rw [hr]; exact Vector.getElem_map ..
    refine ⟨t, e, ho, fun r hd he => ?_, fun r hd => ?_, fun hd => hdue (decide_eq_true hd),
      fun hd => hearly (decide_eq_false (Nat.not_le.mpr hd))⟩
    · exact (route r).trans (State.tagsClosed_of_due (decide_eq_true hd) he)
    · exact (route r).trans (State.tagsClosed_of_early (decide_eq_false (Nat.not_le.mpr hd)))
  · exact ⟨_, execCoderFlush_ring_due dt p hu hl hf hc hm hd, u.closeRing_ringFlushed p true⟩
  · obtain ⟨t, e, ⟨ht, hr, hq⟩, hg⟩ := execCoderFlush_route dt r p product hu hl hf hc hm
    exact ⟨t, e, ht, hr, hq, hg⟩

end Sys2Proof.Machine

/-! SUPPORT. What the commands leave of the memories and of containment (R406, R412, R413): contents of flash and DRAM, fence
domains, the both-failed latch and the phase of the supplies. A command that changes one of them is not named here. -/

namespace Sys2Proof.Machine

section

variable {s t u : State}

/-- Contents of flash and DRAM, the fence domains, the both-failed latch and the phase of the supplies stand as in `s`. -/
def State.CoreStands (t s : State) : Prop :=
  t.flash.cells = s.flash.cells ∧ t.mem.cells = s.mem.cells ∧ t.hb.doms = s.hb.doms ∧ t.hb.bothFailed = s.hb.bothFailed ∧
    t.power.phase = s.power.phase

@[simp] theorem State.coreStands_iff : t.CoreStands s ↔ t.flash.cells = s.flash.cells ∧ t.mem.cells = s.mem.cells ∧
    t.hb.doms = s.hb.doms ∧ t.hb.bothFailed = s.hb.bothFailed ∧ t.power.phase = s.power.phase := Iff.rfl

theorem State.CoreStands.trans (h : t.CoreStands u) (k : u.CoreStands s) : t.CoreStands s :=
  ⟨h.1.trans k.1, h.2.1.trans k.2.1, h.2.2.1.trans k.2.2.1, h.2.2.2.1.trans k.2.2.2.1, h.2.2.2.2.trans k.2.2.2.2⟩

theorem State.CoreStands.foldl {α : Type} {f : State → α → State} (hf : ∀ s a, (f s a).CoreStands s) (l : List α) (s : State) :
    (l.foldl f s).CoreStands s :=
  List.foldlRecOn (motive := fun u => State.CoreStands u s) l f ⟨rfl, rfl, rfl, rfl, rfl⟩ fun u k a _ => (hf u a).trans k

theorem State.CoreStands.ite {c : Prop} [Decidable c] (ht : c → t.CoreStands s) (hu : ¬c → u.CoreStands s) :
    (if c then t else u).CoreStands s :=
  iteInduction (motive := fun v => State.CoreStands v s) ht hu

/-- The outcome leaves the core as it stands in `s`. -/
def LeavesCore (s : State) (o : Host.Outcome State Fault Refusal) : Prop := Ensures (·.CoreStands s) o

@[simp] theorem leavesCore_next : LeavesCore s (.next t) ↔ t.CoreStands s := Iff.rfl

@[simp] theorem leavesCore_fault {f : Fault} : LeavesCore s (.fault f) := trivial

@[simp] theorem leavesCore_ite {c : Prop} [Decidable c] {a b : Host.Outcome State Fault Refusal} :
    LeavesCore s (if c then a else b) ↔ if c then LeavesCore s a else LeavesCore s b := by
  split <;> rfl

/-! ## Operations that are used by several commands -/

@[simp] theorem Mem.refreshed_cells (m : Mem) : m.refreshed.cells = m.cells := rfl

/-- R464: a command word changes the mailbox, and where it is begun its action follows. -/
theorem State.mbxCommand_cases (s : State) (word : U32) (act : State → State) : ∃ m : Mailbox,
    s.mbxCommand word act = { s with mbx := m } ∨ s.mbxCommand word act = act { s with mbx := m } := by
  unfold State.mbxCommand
  dsimp only
  split
  · exact ⟨_, .inl rfl⟩
  · split
    · exact ⟨_, .inl rfl⟩
    · exact ⟨_, .inr rfl⟩

theorem State.mbxCommand_coreStands (word : U32) {act : State → State} (h : ∀ s, (act s).CoreStands s) (s : State) :
    (s.mbxCommand word act).CoreStands s := by
  obtain ⟨m, e | e⟩ := s.mbxCommand_cases word act <;> rw [e]
  · exact ⟨rfl, rfl, rfl, rfl, rfl⟩
  · exact h _

@[simp] theorem State.serveStatus_coreStands (path : AccessPath) (most : Nat) (r : MgmtReq) (failed : Bool) (s : State) :
    (s.serveStatus path most r failed).2.2.CoreStands s := by
  unfold State.serveStatus
  split_ifs <;> simp

@[simp] theorem State.serveBlackBox_coreStands (most : Nat) (r : MgmtReq) (s : State) :
    (s.serveBlackBox most r).2.2.CoreStands s := by
  unfold State.serveBlackBox
  split_ifs <;> simp

@[simp] theorem State.serveEcho_coreStands (r : MgmtReq) (s : State) : (s.serveEcho r).2.2.CoreStands s := by
  unfold State.serveEcho
  split_ifs <;> simp

@[simp] theorem State.serveDump_coreStands (r : MgmtReq) (s : State) : (s.serveDump r).2.2.CoreStands s := by
  unfold State.serveDump
  split_ifs <;> simp

@[simp] theorem State.serveRestart_coreStands (r : MgmtReq) (s : State) : (s.serveRestart r).2.2.CoreStands s := by
  unfold State.serveRestart
  dsimp only
  split_ifs <;> simp

theorem mgmtServe_leavesCore (dt : Nat) (l : Lane) (r : MgmtReq) (op : Nat) {f : State → Served}
    (hf : ∀ s, (f s).2.2.CoreStands s) : LeavesCore s (.next ((s.elapse dt).mgmtServe l r op f)) := by
  refine leavesCore_next.mpr (State.CoreStands.trans (u := s.elapse dt) ?_ ⟨rfl, rfl, rfl, rfl, rfl⟩)
  unfold State.mgmtServe
  refine .ite (fun _ => ⟨rfl, rfl, rfl, rfl, rfl⟩) fun _ => .ite (fun _ => ⟨rfl, rfl, rfl, rfl, rfl⟩) fun _ =>
    .ite (fun _ => ⟨rfl, rfl, rfl, rfl, rfl⟩) fun _ => .ite (fun _ => ⟨rfl, rfl, rfl, rfl, rfl⟩) fun _ => ?_
  exact (hf _).trans ⟨rfl, rfl, rfl, rfl, rfl⟩

theorem plkServe_leavesCore (dt : Nat) (r : MgmtReq) (op : Nat) {f : State → Served} (hf : ∀ s, (f s).2.2.CoreStands s) :
    LeavesCore s (.next ((s.elapse dt).plkServe r op f)) := by
  refine leavesCore_next.mpr (State.CoreStands.trans (u := s.elapse dt) ?_ ⟨rfl, rfl, rfl, rfl, rfl⟩)
  unfold State.plkServe
  refine .ite (fun _ => ⟨rfl, rfl, rfl, rfl, rfl⟩) fun _ => .ite (fun _ => ⟨rfl, rfl, rfl, rfl, rfl⟩) fun _ => ?_
  exact (hf _).trans ⟨rfl, rfl, rfl, rfl, rfl⟩

/-! ## Commands -/

@[simp] theorem execLsrRelease_leavesCore (dt : Nat) (c : StartChecks) : LeavesCore s (execLsrRelease dt c s) := by
  have hr (s : State) (l : List Domain) : (l.foldl (fun s d => s.report d 0x00028001#32 0) s).CoreStands s :=
    .foldl (f := fun s d => s.report d 0x00028001#32 0) (fun _ _ => ⟨rfl, rfl, rfl, rfl, rfl⟩) l s
  have hd (s : State) : (bothPorts.foldl (fun s p => s.dtsStart p false) s).CoreStands s := .foldl (fun _ _ => by simp) _ s
  have hs (s : State) : (bothPorts.foldl (fun s p => s.startSlices p c.slices) s).CoreStands s := .foldl (fun _ _ => by simp) _ s
  refine .ite (fun _ => ?_) (fun _ => ⟨rfl, rfl, rfl, rfl, rfl⟩)
  refine (hd _).trans (State.CoreStands.trans ⟨rfl, rfl, rfl, rfl, rfl⟩ ((hr _ _).trans ?_))
  refine State.CoreStands.trans (u := bothPorts.foldl (fun s p => s.startSlices p c.slices) (s.elapse dt)) ?_ (hs _)
  split <;> split <;> exact ⟨rfl, rfl, rfl, rfl, rfl⟩

@[simp] theorem execLaserDieInWindow_leavesCore (x : Timed Int) : LeavesCore s (execLaserDieInWindow x s) := by
  simp [execLaserDieInWindow]

@[simp] theorem execInjectionLockDetected_leavesCore (dt : Nat) : LeavesCore s (execInjectionLockDetected dt s) := by
  simp only [execInjectionLockDetected]
  (repeat' split) <;> simp

@[simp] theorem execWavelengthTuned_leavesCore (x : Timed Int) : LeavesCore s (execWavelengthTuned x s) := by
  simp [execWavelengthTuned]

@[simp] theorem execLaserReady_leavesCore (x : Timed (Int × Int)) : LeavesCore s (execLaserReady x s) := by
  simp [execLaserReady]

@[simp] theorem execInjectionLockLost_leavesCore (dt : Nat) : LeavesCore s (execInjectionLockLost dt s) := by
  simp [execInjectionLockLost]

@[simp] theorem execRelockAttemptTimeout_leavesCore (dt : Nat) : LeavesCore s (execRelockAttemptTimeout dt s) := by
  simp [execRelockAttemptTimeout]

@[simp] theorem execWavelengthOutOfWindow_leavesCore (dt : Nat) (err : Int) :
    LeavesCore s (execWavelengthOutOfWindow dt err s) := by
  simp [execWavelengthOutOfWindow]

@[simp] theorem execWavelengthRecoveryTimeout_leavesCore (dt : Nat) : LeavesCore s (execWavelengthRecoveryTimeout dt s) := by
  simp only [execWavelengthRecoveryTimeout]
  (repeat' split) <;> simp

@[simp] theorem execDieTempOutOfWindow_leavesCore (dt : Nat) (e : DieError) : LeavesCore s (execDieTempOutOfWindow dt e s) := by
  simp [execDieTempOutOfWindow]

@[simp] theorem execDieTempFenceTimeout_leavesCore (x : Timed DieError) : LeavesCore s (execDieTempFenceTimeout x s) := by
  simp [execDieTempFenceTimeout]

@[simp] theorem execDieOverTemperature_leavesCore (dt : Nat) : LeavesCore s (execDieOverTemperature dt s) := by
  simp [execDieOverTemperature]

@[simp] theorem execLaserPowerLow_leavesCore (dt : Nat) (permille : Nat) : LeavesCore s (execLaserPowerLow dt permille s) := by
  simp [execLaserPowerLow]

@[simp] theorem execTecSaturated_leavesCore (x : Timed Nat) : LeavesCore s (execTecSaturated x s) := by
  simp [execTecSaturated]

@[simp] theorem execLaunchPeakHigh_leavesCore (dt : Nat) (p : Port) : LeavesCore s (execLaunchPeakHigh dt p s) := by
  simp [execLaunchPeakHigh]

@[simp] theorem execLaunchPeakLow_leavesCore (dt : Nat) (p : Port) (k : PeakBelow) :
    LeavesCore s (execLaunchPeakLow dt p k s) := by
  simp [execLaunchPeakLow]

@[simp] theorem execLeakageBetweenPulses_leavesCore (dt : Nat) (p : Port) : LeavesCore s (execLeakageBetweenPulses dt p s) := by
  simp [execLeakageBetweenPulses]

@[simp] theorem execGateHeldTooLong_leavesCore (dt : Nat) (p : Port) : LeavesCore s (execGateHeldTooLong dt p s) := by
  simp only [execGateHeldTooLong]
  (repeat' split) <;> simp

@[simp] theorem execLoPowerOutOfRange_leavesCore (dt : Nat) (p : Port) (permille : Nat) :
    LeavesCore s (execLoPowerOutOfRange dt p permille s) := by
  simp [execLoPowerOutOfRange]

@[simp] theorem execPhotodiodeFault_leavesCore (dt : Nat) (p : Port) (percent : Nat) :
    LeavesCore s (execPhotodiodeFault dt p percent s) := by
  simp [execPhotodiodeFault]

@[simp] theorem execPllLockWindow_leavesCore (dt : Nat) (k : Pll) (count : Nat) :
    LeavesCore s (execPllLockWindow dt k count s) := by
  simp only [execPllLockWindow]
  (repeat' split) <;> simp

@[simp] theorem execPllAcquireTimeout_leavesCore (dt : Nat) (k : Pll) : LeavesCore s (execPllAcquireTimeout dt k s) := by
  simp [execPllAcquireTimeout]

@[simp] theorem execPllRelockTimeout_leavesCore (dt : Nat) (k : Pll) : LeavesCore s (execPllRelockTimeout dt k s) := by
  simp only [execPllRelockTimeout]
  (repeat' split) <;> simp

@[simp] theorem execRefclkLost_leavesCore (dt : Nat) : LeavesCore s (execRefclkLost dt s) := by
  simp [execRefclkLost]

@[simp] theorem execPllCoastRelock_leavesCore (dt : Nat) (k : Pll) : LeavesCore s (execPllCoastRelock dt k s) := by
  simp only [execPllCoastRelock]
  (repeat' split) <;> simp

@[simp] theorem execPllCoastLimit_leavesCore (dt : Nat) (k : Pll) : LeavesCore s (execPllCoastLimit dt k s) := by
  simp only [execPllCoastLimit]
  (repeat' split) <;> simp

@[simp] theorem execSyncInEdge_leavesCore (dt : Nat) (m : TiuMeas) (lowPeriods : Nat) (offset : Int) :
    LeavesCore s (execSyncInEdge dt m lowPeriods offset s) := by
  simp only [execSyncInEdge]
  (repeat' split) <;> simp

@[simp] theorem execSyncWaitTimeout_leavesCore (dt : Nat) : LeavesCore s (execSyncWaitTimeout dt s) := by
  simp [execSyncWaitTimeout]

@[simp] theorem execSyncEdgeTimeout_leavesCore (dt : Nat) : LeavesCore s (execSyncEdgeTimeout dt s) := by
  simp [execSyncEdgeTimeout]

@[simp] theorem execSyncFrameReceived_leavesCore (dt : Nat) (slots : List Bool) :
    LeavesCore s (execSyncFrameReceived dt slots s) := by
  simp only [execSyncFrameReceived]
  (repeat' split) <;> simp

@[simp] theorem execPpsInEdge_leavesCore (dt : Nat) (m : TiuMeas) : LeavesCore s (execPpsInEdge dt m s) := by
  simp only [execPpsInEdge]
  (repeat' split) <;> simp

@[simp] theorem execPpsHoldoverTimeout_leavesCore (dt : Nat) : LeavesCore s (execPpsHoldoverTimeout dt s) := by
  simp [execPpsHoldoverTimeout]

/-- The field lemmas of `elapse` keep the number of periods up to the wrap folded. -/
@[simp] theorem execDeviceTimeWrap_leavesCore : LeavesCore s (execDeviceTimeWrap s) := by
  unfold execDeviceTimeWrap
  split
  · exact ⟨congrArg Flash.cells (s.elapse_flash _), congrArg Mem.cells (s.elapse_mem _), congrArg Hatband.doms (s.elapse_hb _),
      congrArg Hatband.bothFailed (s.elapse_hb _), congrArg Power.phase (s.elapse_power _)⟩
  · exact ⟨rfl, rfl, rfl, rfl, rfl⟩

@[simp] theorem execPpsOutEdge_leavesCore (dt : Nat) : LeavesCore s (execPpsOutEdge dt s) := by
  simp only [execPpsOutEdge]
  (repeat' split) <;> simp

@[simp] theorem execSyncOutSend_leavesCore (dt : Nat) : LeavesCore s (execSyncOutSend dt s) := by
  simp only [execSyncOutSend]
  (repeat' split) <;> simp

@[simp] theorem execGroupStart_leavesCore (dt : Nat) (p : Port) : LeavesCore s (execGroupStart dt p s) := by
  simp only [execGroupStart]
  (repeat' split) <;> simp

@[simp] theorem execPleatShotLaunch_leavesCore (dt : Nat) (p : Port) (k : Pleat) :
    LeavesCore s (execPleatShotLaunch dt p k s) := by
  simp only [execPleatShotLaunch]
  (repeat' split) <;> simp

@[simp] theorem execTemperatureShotLaunch_leavesCore (dt : Nat) (p : Port) : LeavesCore s (execTemperatureShotLaunch dt p s) := by
  simp only [execTemperatureShotLaunch]
  (repeat' split) <;> simp

@[simp] theorem execShotGateClose_leavesCore (dt : Nat) (p : Port) : LeavesCore s (execShotGateClose dt p s) := by
  simp only [execShotGateClose]
  (repeat' split) <;> simp

@[simp] theorem execLaunchMonitorEdge_leavesCore (dt : Nat) (p : Port) (m : TiuMeas) (peak : Int) (energy : Nat) :
    LeavesCore s (execLaunchMonitorEdge dt p m peak energy s) := by
  simp only [execLaunchMonitorEdge]
  (repeat' split) <;> simp

@[simp] theorem execLaunchTimestampTimeout_leavesCore (dt : Nat) (p : Port) :
    LeavesCore s (execLaunchTimestampTimeout dt p s) := by
  simp only [execLaunchTimestampTimeout]
  (repeat' split) <;> simp

@[simp] theorem execTriggerEdge_leavesCore (dt : Nat) (input : Fin 2) (level : Bool) (m : TiuMeas) :
    LeavesCore s (execTriggerEdge dt input level m s) := by
  simp only [execTriggerEdge]
  (repeat' split) <;> simp

@[simp] theorem execTriggerEdgeAccepted_leavesCore (dt : Nat) (p : Port) : LeavesCore s (execTriggerEdgeAccepted dt p s) := by
  simp only [execTriggerEdgeAccepted]
  (repeat' split) <;> simp

@[simp] theorem execTriggerTimeout_leavesCore (dt : Nat) (p : Port) : LeavesCore s (execTriggerTimeout dt p s) := by
  simp [execTriggerTimeout]

@[simp] theorem execRecordNotice_leavesCore (dt : Nat) (p : Port) (words : List U64) (lags : List SeamLag) :
    LeavesCore s (execRecordNotice dt p words lags s) := by
  simp only [execRecordNotice]
  (repeat' split) <;> simp

@[simp] theorem execCalUpdate_leavesCore (dt : Nat) (e : UpdateEnd) : LeavesCore s (execCalUpdate dt e s) := by
  simp only [execCalUpdate]
  (repeat' split) <;> simp

@[simp] theorem execSliceSubstitution_leavesCore (dt : Nat) (p : Port) : LeavesCore s (execSliceSubstitution dt p s) := by
  simp only [execSliceSubstitution]
  (repeat' split) <;> simp

@[simp] theorem execPhaseRecordProcess_leavesCore (dt : Nat) (p : Port) (q : QueueRead) :
    LeavesCore s (execPhaseRecordProcess dt p q s) := by
  simp only [execPhaseRecordProcess]
  (repeat' split) <;> simp

@[simp] theorem execRamanRecordClose_leavesCore (dt : Nat) (p : Port) (as st : List RamanSample) :
    LeavesCore s (execRamanRecordClose dt p as st s) := by
  have he (u : State) (group time e) : (u.evtEnd p 2 group 0 1 0 time e).CoreStands u := by simp
  unfold execRamanRecordClose
  extract_lets
  split
  · exact ⟨rfl, rfl, rfl, rfl, rfl⟩
  · exact .ite (fun _ => ⟨rfl, rfl, rfl, rfl, rfl⟩) fun _ =>
      State.CoreStands.ite (fun _ => ⟨rfl, rfl, rfl, rfl, rfl⟩) (fun _ => (he _ _ _ _).trans ⟨rfl, rfl, rfl, rfl, rfl⟩)

@[simp] theorem execRamanOffsetMeasure_leavesCore (dt : Nat) (p : Port) (as st : List Int) :
    LeavesCore s (execRamanOffsetMeasure dt p as st s) := by
  simp only [execRamanOffsetMeasure]
  (repeat' split) <;> simp

@[simp] theorem execDtsUpdateBoundary_leavesCore (dt : Nat) (p : Port) : LeavesCore s (execDtsUpdateBoundary dt p s) := by
  simp only [execDtsUpdateBoundary]
  (repeat' split) <;> simp

@[simp] theorem execBattSwap_leavesCore (dt : Nat) (p : Port) (corrected uncorrectable : Nat) :
    LeavesCore s (execBattSwap dt p corrected uncorrectable s) := by
  simp only [execBattSwap]
  (repeat' split) <;> simp

@[simp] theorem execDtsProfileDone_leavesCore (dt : Nat) (p : Port) : LeavesCore s (execDtsProfileDone dt p s) := by
  simp only [execDtsProfileDone]
  (repeat' split) <;> simp

@[simp] theorem execRefHoldExpiry_leavesCore (dt : Nat) (p : Port) : LeavesCore s (execRefHoldExpiry dt p s) := by
  simp [execRefHoldExpiry]

@[simp] theorem execSupPassStart_leavesCore (dt : Nat) (selfTestOk : Bool) : LeavesCore s (execSupPassStart dt selfTestOk s) := by
  simp [execSupPassStart]

@[simp] theorem execSupConversionDone_leavesCore (dt : Nat) (code : Int) : LeavesCore s (execSupConversionDone dt code s) := by
  simp only [execSupConversionDone]
  (repeat' split) <;> simp

@[simp] theorem execSupCoarseValue_leavesCore (dt : Nat) (code : Int) : LeavesCore s (execSupCoarseValue dt code s) := by
  simp [execSupCoarseValue]

@[simp] theorem execSnapshotCopy_leavesCore (dt : Nat) (poisoned : List Nat) : LeavesCore s (execSnapshotCopy dt poisoned s) := by
  simp only [execSnapshotCopy]
  (repeat' split) <;> simp

@[simp] theorem execAlarmDemandNotice_leavesCore (dt : Nat) : LeavesCore s (execAlarmDemandNotice dt s) := by
  simp only [execAlarmDemandNotice]
  (repeat' split) <;> simp

@[simp] theorem execAlarmMinAssertExpiry_leavesCore (dt : Nat) (o : Fin 4) : LeavesCore s (execAlarmMinAssertExpiry dt o s) := by
  simp [execAlarmMinAssertExpiry]

@[simp] theorem execOperatorStateNotice_leavesCore (dt : Nat) : LeavesCore s (execOperatorStateNotice dt s) := by
  simp [execOperatorStateNotice]

@[simp] theorem execRegionDeltaSample_leavesCore (dt : Nat) (mv : List Nat) (halfK : List Int) :
    LeavesCore s (execRegionDeltaSample dt mv halfK s) := by
  simp [execRegionDeltaSample]

@[simp] theorem execWarningClear_leavesCore (dt : Nat) (code : U32) : LeavesCore s (execWarningClear dt code s) := by
  simp only [execWarningClear]
  (repeat' split) <;> simp

@[simp] theorem execMarginMeasure_leavesCore (dt : Nat) (capacities : List (List Nat)) :
    LeavesCore s (execMarginMeasure dt capacities s) := by
  simp only [execMarginMeasure]
  (repeat' split) <;> simp

@[simp] theorem execLinkWordError_leavesCore (dt : Nat) (node : Region) (uncorrectable : Bool) (hit : FlitHit) :
    LeavesCore s (execLinkWordError dt node uncorrectable hit s) := by
  simp [execLinkWordError]

@[simp] theorem execStallDetected_leavesCore (dt : Nat) (region : Region) (stage : Nat) :
    LeavesCore s (execStallDetected dt region stage s) := by
  simp [execStallDetected]

@[simp] theorem execMemInitStart_leavesCore (dt : Nat) (vddqMv : Nat) : LeavesCore s (execMemInitStart dt vddqMv s) := by
  simp [execMemInitStart]

@[simp] theorem execMemVerifyDone_leavesCore (dt : Nat) (v : VerifyOutcome) : LeavesCore s (execMemVerifyDone dt v s) := by
  simp [execMemVerifyDone]

@[simp] theorem execMemSweepDone_leavesCore (dt : Nat) (entries : List (Nat × Nat)) :
    LeavesCore s (execMemSweepDone dt entries s) := by
  simp [execMemSweepDone]

@[simp] theorem execRefreshDue_leavesCore (dt : Nat) : LeavesCore s (execRefreshDue dt s) := by
  simp only [execRefreshDue]
  (repeat' split) <;> simp

@[simp] theorem execDramTempPoll_leavesCore (dt : Nat) (t : TempPoll) : LeavesCore s (execDramTempPoll dt t s) := by
  simp only [execDramTempPoll]
  (repeat' split) <;> simp

@[simp] theorem execSelfRefreshEntry_leavesCore (dt : Nat) (abandoned : Bool) :
    LeavesCore s (execSelfRefreshEntry dt abandoned s) := by
  simp [execSelfRefreshEntry]

@[simp] theorem execSelfRefreshExit_leavesCore (dt : Nat) : LeavesCore s (execSelfRefreshExit dt s) := by
  simp [execSelfRefreshExit]

@[simp] theorem execScrubRequest_leavesCore (dt : Nat) : LeavesCore s (execScrubRequest dt s) := by
  simp [execScrubRequest]

@[simp] theorem execRequestOverdue_leavesCore (dt : Nat) (port : Fin 4) : LeavesCore s (execRequestOverdue dt port s) := by
  simp only [execRequestOverdue]
  split
  · exact ⟨rfl, rfl, rfl, rfl, rfl⟩
  · rename_i v e
    suffices h : v.CoreStands s from State.CoreStands.trans ⟨rfl, rfl, rfl, rfl, rfl⟩ h
    split at e
    · cases e
    · split at e
      · obtain ⟨-, ⟨⟩⟩ := Option.ite_none_right_eq_some.mp e
        exact ⟨rfl, rfl, rfl, rfl, rfl⟩
      · cases e
    · obtain ⟨_, _, rfl⟩ := Option.map_eq_some_iff.mp e
      exact ⟨rfl, rfl, rfl, rfl, rfl⟩
    · split at e
      · obtain ⟨-, ⟨⟩⟩ := Option.ite_none_right_eq_some.mp e
        exact ⟨rfl, rfl, rfl, rfl, rfl⟩
      · cases e

@[simp] theorem execRtItemArrival_leavesCore (dt : Nat) (ring : Fin 3) : LeavesCore s (execRtItemArrival dt ring s) := by
  simp only [execRtItemArrival]
  (repeat' split) <;> simp

@[simp] theorem execRingFlush_leavesCore (dt : Nat) (ring : Fin 3) : LeavesCore s (execRingFlush dt ring s) := by
  simp only [execRingFlush]
  (repeat' split) <;> simp

@[simp] theorem execCoderFlush_leavesCore (dt : Nat) (c : Consumer) : LeavesCore s (execCoderFlush dt c s) := by
  simp only [execCoderFlush]
  (repeat' split) <;> simp

@[simp] theorem execOutRecordEnqueue_leavesCore (dt : Nat) (r : RouteId) : LeavesCore s (execOutRecordEnqueue dt r s) := by
  simp only [execOutRecordEnqueue]
  (repeat' split) <;> simp

@[simp] theorem execHeartbeatTimer_leavesCore (dt : Nat) (r : RouteId) : LeavesCore s (execHeartbeatTimer dt r s) := by
  simp [execHeartbeatTimer]

@[simp] theorem execHousekeepingTimer_leavesCore (dt : Nat) (r : RouteId) : LeavesCore s (execHousekeepingTimer dt r s) := by
  simp only [execHousekeepingTimer]
  (repeat' split) <;> simp

@[simp] theorem execTimingRecordClose_leavesCore (dt : Nat) (p : Port) : LeavesCore s (execTimingRecordClose dt p s) := by
  have hr (n : Nat) : (allRoutes.foldl
      (fun s r => if decide (s.routes[r].tags[p].firstAt + 10 * msP ≤ n) then s.closeTags r p else s) (s.elapse dt)).CoreStands s :=
    .trans (.foldl (fun s r => by simp) _ _) ⟨rfl, rfl, rfl, rfl, rfl⟩
  have hc (u : State) : (u.closeRingTags p).CoreStands u := by simp
  exact State.CoreStands.ite (fun _ => (hc _).trans (hr _)) (fun _ => hr _)

@[simp] theorem execArpRefresh_leavesCore (dt : Nat) (l : Lane) : LeavesCore s (execArpRefresh dt l s) := by
  simp [execArpRefresh]

@[simp] theorem execArpRetryTimeout_leavesCore (dt : Nat) (l : Lane) : LeavesCore s (execArpRetryTimeout dt l s) := by
  simp [execArpRetryTimeout]

@[simp] theorem execArpFrameReceived_leavesCore (dt : Nat) (l : Lane) (f : ArpFrame) :
    LeavesCore s (execArpFrameReceived dt l f s) := by
  simp only [execArpFrameReceived]
  (repeat' split) <;> simp

@[simp] theorem execEthLinkUp_leavesCore (dt : Nat) (l : Lane) : LeavesCore s (execEthLinkUp dt l s) := by
  simp [execEthLinkUp]

@[simp] theorem execEthLinkDown_leavesCore (dt : Nat) (l : Lane) : LeavesCore s (execEthLinkDown dt l s) := by
  simp only [execEthLinkDown]
  (repeat' split) <;> simp

@[simp] theorem execIcmpEchoRequest_leavesCore (dt : Nat) (l : Lane) (srcMac : U48) (srcIp dstIp : U32) (data : List Byte) :
    LeavesCore s (execIcmpEchoRequest dt l srcMac srcIp dstIp data s) := by
  simp [execIcmpEchoRequest]

@[simp] theorem execEthFrameDiscarded_leavesCore (dt : Nat) (l : Lane) : LeavesCore s (execEthFrameDiscarded dt l s) := by
  simp [execEthFrameDiscarded]

@[simp] theorem execMgmtStatusRead_leavesCore (dt : Nat) (l : Lane) (r : MgmtReq) (failed : Bool) :
    LeavesCore s (execMgmtStatusRead dt l r failed s) :=
  mgmtServe_leavesCore dt l r 1 (State.serveStatus_coreStands _ 1024 r failed)

@[simp] theorem execMgmtBlackBoxRead_leavesCore (dt : Nat) (l : Lane) (r : MgmtReq) :
    LeavesCore s (execMgmtBlackBoxRead dt l r s) :=
  mgmtServe_leavesCore dt l r 2 (State.serveBlackBox_coreStands 1024 r)

@[simp] theorem execMgmtEcho_leavesCore (dt : Nat) (l : Lane) (r : MgmtReq) : LeavesCore s (execMgmtEcho dt l r s) :=
  mgmtServe_leavesCore dt l r 3 (State.serveEcho_coreStands r)

@[simp] theorem execMgmtUnknownOp_leavesCore (dt : Nat) (l : Lane) (r : MgmtReq) : LeavesCore s (execMgmtUnknownOp dt l r s) := by
  refine mgmtServe_leavesCore dt l r _ fun s => ?_
  split_ifs
  · exact s.serveStatus_coreStands _ 1024 r false
  · exact s.serveBlackBox_coreStands 1024 r
  · exact s.serveEcho_coreStands r
  · exact ⟨rfl, rfl, rfl, rfl, rfl⟩

@[simp] theorem execPcieConfigRequest_leavesCore (dt : Nat) (isWrite : Bool) (reg : Nat) (value : U32) :
    LeavesCore s (execPcieConfigRequest dt isWrite reg value s) := by
  simp [execPcieConfigRequest]

@[simp] theorem execPciePowerStateChange_leavesCore (dt : Nat) (d3hot : Bool) :
    LeavesCore s (execPciePowerStateChange dt d3hot s) := by
  simp [execPciePowerStateChange]

@[simp] theorem execBar2Read_leavesCore (dt : Nat) (offset length : Nat) : LeavesCore s (execBar2Read dt offset length s) := by
  simp [execBar2Read]

@[simp] theorem execCounterLowWordRead_leavesCore (dt : Nat) (path : AccessPath) (offset length : Nat) (failed : Bool) :
    LeavesCore s (execCounterLowWordRead dt path offset length failed s) := by
  simp only [execCounterLowWordRead]
  (repeat' split) <;> simp

@[simp] theorem execMsixTableWrite_leavesCore (dt : Nat) (offset : Nat) (value : U32) :
    LeavesCore s (execMsixTableWrite dt offset value s) := by
  simp [execMsixTableWrite]

@[simp] theorem execMsixHoldoffExpiry_leavesCore (dt : Nat) (v : Fin 8) : LeavesCore s (execMsixHoldoffExpiry dt v s) := by
  simp [execMsixHoldoffExpiry]

@[simp] theorem execMbxUnlockWrite_leavesCore (dt : Nat) (word : U32) : LeavesCore s (execMbxUnlockWrite dt word s) := by
  simp [execMbxUnlockWrite]

@[simp] theorem execMbxStageBegin_leavesCore (dt : Nat) : LeavesCore s (execMbxStageBegin dt s) :=
  .ite (fun _ => State.mbxCommand_coreStands _ (by simp) _) (fun _ => leavesCore_next.mpr (by simp))

@[simp] theorem execMbxRestart_leavesCore (dt : Nat) : LeavesCore s (execMbxRestart dt s) := by
  refine .ite (fun _ => State.mbxCommand_coreStands _ (fun s => ?_) _) (fun _ => leavesCore_next.mpr (by simp))
  unfold State.actRestart
  split_ifs <;> simp

@[simp] theorem execMbxUnknownCommand_leavesCore (dt : Nat) (word : U32) : LeavesCore s (execMbxUnknownCommand dt word s) :=
  .ite (fun _ => State.mbxCommand_coreStands _ (by simp) _) (fun _ => leavesCore_next.mpr (by simp))

@[simp] theorem execHbDigestExchange_leavesCore (dt : Nat) (equal : Bool) : LeavesCore s (execHbDigestExchange dt equal s) := by
  simp [execHbDigestExchange]

@[simp] theorem execBbxRecordWritten_leavesCore (dt : Nat) : LeavesCore s (execBbxRecordWritten dt s) := by
  simp only [execBbxRecordWritten]
  (repeat' split) <;> simp

@[simp] theorem execPermitWithdrawn_leavesCore (dt : Nat) (i : PermitInput) (highNs : Nat) :
    LeavesCore s (execPermitWithdrawn dt i highNs s) := by
  simp [execPermitWithdrawn]

@[simp] theorem execPermitRestored_leavesCore (dt : Nat) (i : PermitInput) : LeavesCore s (execPermitRestored dt i s) := by
  simp [execPermitRestored]

@[simp] theorem execAlsShutdown_leavesCore (dt : Nat) (p : Port) : LeavesCore s (execAlsShutdown dt p s) := by
  simp only [execAlsShutdown]
  (repeat' split) <;> simp

@[simp] theorem execAlsProbeEntry_leavesCore (dt : Nat) (p : Port) : LeavesCore s (execAlsProbeEntry dt p s) := by
  simp [execAlsProbeEntry]

@[simp] theorem execAlsProbeWindowEnd_leavesCore (dt : Nat) (p : Port) : LeavesCore s (execAlsProbeWindowEnd dt p s) := by
  simp [execAlsProbeWindowEnd]

@[simp] theorem execAlsProbeJudged_leavesCore (dt : Nat) (p : Port) : LeavesCore s (execAlsProbeJudged dt p s) := by
  simp only [execAlsProbeJudged]
  (repeat' split) <;> simp

@[simp] theorem execAlsProbeNoLaunch_leavesCore (dt : Nat) (p : Port) : LeavesCore s (execAlsProbeNoLaunch dt p s) := by
  simp [execAlsProbeNoLaunch]

@[simp] theorem execKeyAcknowledge_leavesCore (dt : Nat) (k : Fin 8) : LeavesCore s (execKeyAcknowledge dt k s) := by
  simp only [execKeyAcknowledge]
  (repeat' split) <;> simp

@[simp] theorem execKeyManualRestart_leavesCore (dt : Nat) (k : Fin 8) : LeavesCore s (execKeyManualRestart dt k s) := by
  simp [execKeyManualRestart]

@[simp] theorem execKeyLampTest_leavesCore (dt : Nat) (k : Fin 8) : LeavesCore s (execKeyLampTest dt k s) := by
  simp [execKeyLampTest]

@[simp] theorem execLampTestTimeout_leavesCore (dt : Nat) : LeavesCore s (execLampTestTimeout dt s) := by
  simp only [execLampTestTimeout]
  (repeat' split) <;> simp

@[simp] theorem execKeyBrightness_leavesCore (dt : Nat) (k : Fin 8) : LeavesCore s (execKeyBrightness dt k s) := by
  simp [execKeyBrightness]

@[simp] theorem execKeyRelease_leavesCore (dt : Nat) (k : Fin 8) : LeavesCore s (execKeyRelease dt k s) := by
  simp only [execKeyRelease]
  (repeat' split) <;> simp

@[simp] theorem execPanelCompose_leavesCore (dt : Nat) : LeavesCore s (execPanelCompose dt s) := by
  simp [execPanelCompose]

@[simp] theorem execPanelBufferSwap_leavesCore (dt : Nat) : LeavesCore s (execPanelBufferSwap dt s) := by
  simp [execPanelBufferSwap]

@[simp] theorem execColourMeasurement_leavesCore (dt : Nat) : LeavesCore s (execColourMeasurement dt s) := by
  simp [execColourMeasurement]

@[simp] theorem execColourPhaseEnd_leavesCore (dt : Nat) (counts : Option (Nat × Nat × Nat)) :
    LeavesCore s (execColourPhaseEnd dt counts s) := by
  simp only [execColourPhaseEnd]
  (repeat' split) <;> simp

@[simp] theorem execLedDiagPulse_leavesCore (dt : Nat) (led : Fin 384) (isOpen : Bool) :
    LeavesCore s (execLedDiagPulse dt led isOpen s) := by
  simp [execLedDiagPulse]

@[simp] theorem execLedDiagExpiry_leavesCore (dt : Nat) (led : Fin 384) : LeavesCore s (execLedDiagExpiry dt led s) := by
  simp [execLedDiagExpiry]

@[simp] theorem execPlacketAttach_leavesCore (dt : Nat) : LeavesCore s (execPlacketAttach dt s) := by
  simp only [execPlacketAttach]
  (repeat' split) <;> simp

@[simp] theorem execDfuGetstatus_leavesCore (dt : Nat) : LeavesCore s (execDfuGetstatus dt s) := by
  simp only [execDfuGetstatus]
  (repeat' split) <;> simp

@[simp] theorem execDfuClrstatus_leavesCore (dt : Nat) : LeavesCore s (execDfuClrstatus dt s) := by
  simp only [execDfuClrstatus]
  (repeat' split) <;> simp

@[simp] theorem execDfuGetstate_leavesCore (dt : Nat) : LeavesCore s (execDfuGetstate dt s) := by
  simp [execDfuGetstate]

@[simp] theorem execDfuDetach_leavesCore (dt : Nat) : LeavesCore s (execDfuDetach dt s) := by
  simp [execDfuDetach]

@[simp] theorem execDfuUpload_leavesCore (dt : Nat) : LeavesCore s (execDfuUpload dt s) := by
  simp [execDfuUpload]

@[simp] theorem execPlacketStatusRead_leavesCore (dt : Nat) (r : MgmtReq) (failed : Bool) :
    LeavesCore s (execPlacketStatusRead dt r failed s) :=
  plkServe_leavesCore dt r 1 (State.serveStatus_coreStands _ plkMost r failed)

@[simp] theorem execPlacketBlackBoxRead_leavesCore (dt : Nat) (r : MgmtReq) : LeavesCore s (execPlacketBlackBoxRead dt r s) :=
  plkServe_leavesCore dt r 2 (State.serveBlackBox_coreStands plkMost r)

@[simp] theorem execPlacketEcho_leavesCore (dt : Nat) (r : MgmtReq) : LeavesCore s (execPlacketEcho dt r s) :=
  plkServe_leavesCore dt r 3 (State.serveEcho_coreStands r)

@[simp] theorem execPlacketBlackBoxDump_leavesCore (dt : Nat) (r : MgmtReq) : LeavesCore s (execPlacketBlackBoxDump dt r s) :=
  plkServe_leavesCore dt r 4 (State.serveDump_coreStands r)

@[simp] theorem execPlacketRestart_leavesCore (dt : Nat) (r : MgmtReq) : LeavesCore s (execPlacketRestart dt r s) :=
  plkServe_leavesCore dt r 5 (State.serveRestart_coreStands r)

@[simp] theorem execPlacketBadRequest_leavesCore (dt : Nat) (r : MgmtReq) : LeavesCore s (execPlacketBadRequest dt r s) := by
  refine plkServe_leavesCore dt r _ fun s => ?_
  split_ifs
  · exact s.serveStatus_coreStands _ plkMost r false
  · exact s.serveBlackBox_coreStands plkMost r
  · exact s.serveEcho_coreStands r
  · exact s.serveDump_coreStands r
  · exact s.serveRestart_coreStands r
  · exact ⟨rfl, rfl, rfl, rfl, rfl⟩

@[simp] theorem execApdBiasOutOfRange_leavesCore (dt : Nat) (p : Port) (b : Band) (mv : Nat) :
    LeavesCore s (execApdBiasOutOfRange dt p b mv s) := by
  simp [execApdBiasOutOfRange]

@[simp] theorem execApdCurrentHigh_leavesCore (dt : Nat) (p : Port) (b : Band) (microA : Nat) :
    LeavesCore s (execApdCurrentHigh dt p b microA s) := by
  simp [execApdCurrentHigh]

@[simp] theorem execPcieLinkUp_leavesCore (dt : Nat) (speed width : Nat) : LeavesCore s (execPcieLinkUp dt speed width s) := by
  simp [execPcieLinkUp]

@[simp] theorem execBar2Write_leavesCore (dt : Nat) (offset : Nat) : LeavesCore s (execBar2Write dt offset s) := by
  simp [execBar2Write]

@[simp] theorem execPlacketConfigured_leavesCore (dt : Nat) (highSpeed : Bool) :
    LeavesCore s (execPlacketConfigured dt highSpeed s) := by
  simp [execPlacketConfigured]

/-! ## Flash and DRAM in their canonical form -/

theorem State.MemoryCanonical.of_cells (h : s.MemoryCanonical) (hf : t.flash.cells = s.flash.cells)
    (hm : t.mem.cells = s.mem.cells) : t.MemoryCanonical := by
  rwa [State.MemoryCanonical, hf, hm]

theorem State.MemoryCanonical.of_coreStands (h : s.MemoryCanonical) (k : t.CoreStands s) : t.MemoryCanonical :=
  h.of_cells k.1 k.2.1

theorem State.MemoryCanonical.of_leavesCore (h : s.MemoryCanonical) {o : Host.Outcome State Fault Refusal}
    (k : LeavesCore s o) : Ensures State.MemoryCanonical o := by
  cases o with
  | next t => exact h.of_coreStands k
  | fault _ => trivial
  | refused _ => trivial

theorem State.MemoryCanonical.ite {c : Prop} [Decidable c] (hs : c → s.MemoryCanonical) (ht : ¬c → t.MemoryCanonical) :
    (if c then s else t).MemoryCanonical :=
  iteInduction (motive := State.MemoryCanonical) hs ht

theorem State.MemoryCanonical.foldl {α : Type} {f : State → α → State} (hf : ∀ s a, s.MemoryCanonical → (f s a).MemoryCanonical)
    (l : List α) (h : s.MemoryCanonical) : (l.foldl f s).MemoryCanonical :=
  List.foldlRecOn l f h fun s k a _ => hf s a k

theorem State.MemoryCanonical.elapse (h : s.MemoryCanonical) (dt : Nat) : (s.elapse dt).MemoryCanonical := h.of_cells rfl rfl

theorem State.MemoryCanonical.clearFlash (h : s.MemoryCanonical) (lo hi : Nat)
    (hf : t.flash.cells = memClear s.flash.cells lo hi) (hm : t.mem.cells = s.mem.cells) : t.MemoryCanonical := by
  rw [State.MemoryCanonical, hf, hm]
  exact ⟨memClear_wf _ _ _ _ h.1, h.2⟩

theorem State.MemoryCanonical.writeFlash (h : s.MemoryCanonical) (a : Nat) (b : List Byte)
    (hf : t.flash.cells = memWriteAll erased s.flash.cells a b) (hm : t.mem.cells = s.mem.cells) : t.MemoryCanonical := by
  rw [State.MemoryCanonical, hf, hm]
  exact ⟨memWriteAll_wf _ _ _ _ h.1, h.2⟩

/-! ### Staging -/

theorem State.MemoryCanonical.stageClear (h : s.MemoryCanonical) (g : Staging) : (s.stageClear g).MemoryCanonical :=
  .ite (fun _ => h.clearFlash _ _ rfl rfl) (fun _ => h)

theorem State.MemoryCanonical.mbxComplete (h : s.MemoryCanonical) (result : Nat) : (s.mbxComplete result).MemoryCanonical :=
  h.of_cells (by simp) (by simp)

theorem State.MemoryCanonical.stageEnd (h : s.MemoryCanonical) (code detail : Nat) : (s.stageEnd code detail).MemoryCanonical := by
  unfold State.stageEnd
  split
  case h_1 => exact h
  case h_2 g _ =>
    have hr : (({ s with cfg := { s.cfg with staging := none } } : State).stageReport code detail).MemoryCanonical :=
      h.of_cells rfl rfl
    have hc := State.MemoryCanonical.ite (c := code ≠ 0) (fun _ => hr.stageClear g) (fun _ => hr)
    dsimp only
    split
    · exact (State.MemoryCanonical.ite (fun _ => hc.mbxComplete code) (fun _ => hc)).of_cells rfl rfl
    · exact .ite (fun _ => hc) (fun _ => hc.of_cells rfl rfl)

theorem State.MemoryCanonical.stageAbort (h : s.MemoryCanonical) (f : Feeder) : (s.stageAbort f).MemoryCanonical := by
  unfold State.stageAbort
  split
  · exact .ite (fun _ => h.stageEnd 7 0) (fun _ => h)
  · exact h

theorem State.MemoryCanonical.stageNext (h : s.MemoryCanonical) : s.stageNext.MemoryCanonical := by
  have hs (g : Staging) : (s.setStaging g).MemoryCanonical := h.of_cells rfl rfl
  unfold State.stageNext
  split
  · exact h
  · refine .ite (fun _ => .ite (fun _ => ?_) (fun _ => ?_)) (fun _ => .ite (fun _ => h) (fun _ => ?_))
    · exact .ite (fun _ => h.stageEnd 2 0) (fun _ => .ite (fun _ => h.mbxComplete 0) (fun _ => h))
    · exact .ite (fun _ => h.stageEnd 2 0) (fun _ => .ite (fun _ => h.stageEnd 3 0) (fun _ => h.of_cells rfl rfl))
    · refine .ite (fun _ => hs _) (fun _ => .ite (fun _ => .ite (fun _ => h.stageEnd 2 0) (fun _ => hs _)) (fun _ => ?_))
      exact State.MemoryCanonical.ite (fun _ => (hs _).mbxComplete 0) (fun _ => hs _)

theorem State.MemoryCanonical.stageData (h : s.MemoryCanonical) (bytes : List Byte) : (s.stageData bytes).MemoryCanonical := by
  unfold State.stageData
  split
  · exact h
  · exact State.MemoryCanonical.stageNext (h.of_cells (by rfl) (by rfl))

theorem State.MemoryCanonical.stageFinish (h : s.MemoryCanonical) : s.stageFinish.MemoryCanonical := by
  unfold State.stageFinish
  split
  · exact h
  · exact State.MemoryCanonical.stageNext (h.of_cells (by rfl) (by rfl))

theorem State.MemoryCanonical.dfuAccept (h : s.MemoryCanonical) (block : Nat) (data : List Byte) :
    (s.dfuAccept block data).MemoryCanonical := State.MemoryCanonical.stageData (h.of_cells (by rfl) (by rfl)) data

theorem State.MemoryCanonical.plkDetach (h : s.MemoryCanonical) : s.plkDetach.MemoryCanonical :=
  (h.stageAbort .placket).of_cells rfl rfl

theorem State.MemoryCanonical.actStageBlock (h : s.MemoryCanonical) : s.actStageBlock.MemoryCanonical := by
  unfold State.actStageBlock
  split
  · exact h.mbxComplete 0x12
  · refine .ite (fun _ => h.stageEnd 7 0) (fun _ => .ite (fun _ => ?_) (fun _ => ?_))
    · exact State.MemoryCanonical.stageFinish (h.of_cells (by rfl) (by rfl))
    · exact State.MemoryCanonical.stageData (h.of_cells (by rfl) (by rfl)) _

theorem State.MemoryCanonical.actStageAbort (h : s.MemoryCanonical) : s.actStageAbort.MemoryCanonical := by
  unfold State.actStageAbort
  split
  · exact h.mbxComplete 0x12
  · exact h.stageEnd 7 0

theorem State.MemoryCanonical.mbxCommand (h : s.MemoryCanonical) (word : U32) {act : State → State}
    (ha : ∀ s, s.MemoryCanonical → (act s).MemoryCanonical) : (s.mbxCommand word act).MemoryCanonical := by
  obtain ⟨m, e | e⟩ := s.mbxCommand_cases word act <;> rw [e]
  · exact h.of_cells rfl rfl
  · exact ha _ (h.of_cells rfl rfl)

theorem State.MemoryCanonical.mbxAction (h : s.MemoryCanonical) (word : U32) : (mbxAction word s).MemoryCanonical := by
  unfold Machine.mbxAction
  split_ifs
  · exact h.of_cells (by simp) (by simp)
  · exact h.actStageBlock
  · exact h.actStageAbort
  · exact h.of_cells (by simp) (by simp)
  · exact h.mbxComplete 0x11

/-! ### Reports -/

theorem State.MemoryCanonical.record (h : s.MemoryCanonical) (r : BbxRec) : (s.record r).MemoryCanonical :=
  h.of_cells (by simp) (by simp)

theorem State.MemoryCanonical.healthRecord (h : s.MemoryCanonical) (kind domain : Nat) (code value : U32) :
    (s.healthRecord kind domain code value).MemoryCanonical := h.of_cells (by simp) (by simp)

theorem State.MemoryCanonical.warn (h : s.MemoryCanonical) (code value : U32) (holds : Bool) (place : Nat) :
    (s.warn code value holds place).MemoryCanonical := h.of_cells (by simp) (by simp)

theorem State.MemoryCanonical.postedUr (h : s.MemoryCanonical) : s.postedUr.MemoryCanonical := h.of_cells (by simp) (by simp)

/-! ### Fences and controllers -/

theorem State.MemoryCanonical.pcieFence (h : s.MemoryCanonical) : s.pcieFence.MemoryCanonical :=
  (State.MemoryCanonical.stageAbort (h.of_cells (by simp) (by simp)) .mailbox).of_cells rfl rfl

theorem State.MemoryCanonical.boundary (h : s.MemoryCanonical) (d : Domain) : (s.boundary d).MemoryCanonical := by
  unfold State.boundary
  split
  case h_15 => exact h.pcieFence
  case h_17 => exact h.plkDetach
  all_goals exact h.of_cells (by simp [bothPorts, State.laserFault]) (by simp [bothPorts, State.laserFault])

theorem State.MemoryCanonical.scheduleRecovery (h : s.MemoryCanonical) (d : Domain) : (s.scheduleRecovery d).MemoryCanonical := by
  have hb := State.MemoryCanonical.ite (c := (s.dom d).st = .attempt) (fun _ => h.boundary d) (fun _ => h)
  exact .ite (fun _ => hb.of_cells (by simp) (by simp)) (fun _ => hb.of_cells rfl rfl)

theorem State.MemoryCanonical.handleReport (h : s.MemoryCanonical) (mask : Nat) (f : FaultRep) :
    (s.handleReport mask f).MemoryCanonical := by
  unfold State.handleReport
  dsimp only
  split
  · exact h.of_cells (by simp) (by simp)
  · exact h.of_cells (by simp) (by simp)
  · exact State.MemoryCanonical.scheduleRecovery (h.of_cells (by simp) (by simp)) _
  all_goals exact State.MemoryCanonical.scheduleRecovery (h.of_cells (by simp) (by simp)) _

theorem State.MemoryCanonical.fence (h : s.MemoryCanonical) (d : Domain) : (s.fence d).MemoryCanonical := by
  have hb (f : Dom → Dom) : ((s.setDom d f).boundary d).MemoryCanonical := State.MemoryCanonical.boundary (h.of_cells (by rfl) (by rfl)) d
  exact .ite (fun _ => .ite (fun _ => (hb _).of_cells rfl rfl) (fun _ => hb _)) (fun _ => h)

theorem State.MemoryCanonical.hbReaches (h : s.MemoryCanonical) (n : HbNotice) : (s.hbReaches n).MemoryCanonical :=
  .foldl (fun _ d k => .ite (fun _ => k.fence d) (fun _ => k)) _ (h.of_cells rfl rfl)

theorem State.MemoryCanonical.hbRepeats (h : s.MemoryCanonical) (k : USource) (c : CtlSt) : (s.hbRepeats k c).MemoryCanonical :=
  .ite (fun _ => h) fun _ => .ite (fun _ => State.MemoryCanonical.hbReaches (h.of_cells (by simp) (by simp)) _)
    (fun _ => h.of_cells (by simp) (by simp))

/-- The states of both controllers set. -/
def State.withCtls (s : State) (a b : CtlSt) : State := { s with hb := { s.hb with ctlA := a, ctlB := b } }

theorem State.MemoryCanonical.restartAttempts (h : s.MemoryCanonical) : s.restartAttempts.MemoryCanonical := by
  refine .foldl (fun s d k => .ite (fun _ => ?_) (fun _ => k)) _ h
  have hb (f : Dom → Dom) : ((s.setDom d f).boundary d).MemoryCanonical := State.MemoryCanonical.boundary (k.of_cells (by rfl) (by rfl)) d
  exact (hb fun x => { x with begun := s.now }).of_cells (by simp) (by simp)

/-- R411: a controller declared failed has failed already, leaves none, or is replaced by the other with its reports. -/
theorem State.ctlFailed_cases (s : State) (c : Ctl) (reason : Nat) : s.ctlFailed c reason = s ∨
    (∃ a b, s.ctlFailed c reason = s.withCtls a b) ∨ ∃ a b x r v, (x = s.withCtls a b ∨ x = (s.withCtls a b).hbNotice.restartAttempts) ∧
      s.ctlFailed c reason = ((x.record r).healthRecord 5 0xFF 0x00020001#32 v).warn 0x00020001#32 v true := by
  cases c <;> unfold State.ctlFailed <;> simp only [beq_self_eq_true, reduceIte, reduceCtorEq, beq_iff_eq]
  · split
    · exact .inl rfl
    · split
      · exact .inr (.inl ⟨.failed, s.hb.ctlB, rfl⟩)
      · refine .inr (.inr ⟨.failed, .active, _, _, _, ?_, rfl⟩)
        split
        · exact .inr rfl
        · exact .inl rfl
  · split
    · exact .inl rfl
    · split
      · exact .inr (.inl ⟨s.hb.ctlA, .failed, rfl⟩)
      · refine .inr (.inr ⟨.active, .failed, _, _, _, ?_, rfl⟩)
        split
        · exact .inr rfl
        · exact .inl rfl

theorem State.MemoryCanonical.ctlFailed (h : s.MemoryCanonical) (c : Ctl) (reason : Nat) : (s.ctlFailed c reason).MemoryCanonical := by
  have hw (a b : CtlSt) : (s.withCtls a b).MemoryCanonical := h.of_cells rfl rfl
  rcases s.ctlFailed_cases c reason with e | ⟨a, b, e⟩ | ⟨a, b, x, r, v, hx, e⟩ <;> rw [e]
  · exact h
  · exact hw a b
  · have hk : x.MemoryCanonical := by
      rcases hx with hx | hx <;> rw [hx]
      · exact hw a b
      · exact State.MemoryCanonical.restartAttempts ((hw a b).of_cells (by rfl) (by rfl))
    exact ((hk.record r).healthRecord _ _ _ _).warn _ _ _ _

theorem State.MemoryCanonical.hatbandStart (h : s.MemoryCanonical) (aOk bOk : Bool) : (s.hatbandStart aOk bOk).MemoryCanonical := by
  unfold State.hatbandStart
  split
  · exact h
  · exact h.ctlFailed .a 2
  · exact h.ctlFailed .b 2
  · exact h.of_cells (by simp) (by simp)

/-! ### Power and restarts -/

theorem State.MemoryCanonical.powerFail (h : s.MemoryCanonical) (outMask : Nat) (undervoltage : Bool) :
    (s.powerFail outMask undervoltage).MemoryCanonical := by
  unfold State.powerFail
  extract_lets closed off biased locked box ended written
  have hc : closed.MemoryCanonical := .foldl (f := fun s p => s.closePort p) (fun _ _ k => k.of_cells (by simp) (by simp)) _ h
  have hb : biased.MemoryCanonical := .foldl (f := fun s p => s.biasOff p) (fun _ _ k => k.of_cells rfl rfl) _ (hc.of_cells rfl rfl)
  have hl : locked.MemoryCanonical := ((hb.stageAbort _).stageAbort _).of_cells rfl rfl
  have he : ended.MemoryCanonical := .ite (fun _ => hl.of_cells rfl rfl) (fun _ => hl)
  exact he.of_cells rfl rfl

theorem State.reset_memoryCanonical : State.reset.MemoryCanonical := ⟨rfl, rfl⟩

theorem State.MemoryCanonical.holdReset (h : s.MemoryCanonical) (power : Power) : (s.holdReset power).MemoryCanonical := by
  have hk : ((s.cfg.staging.map fun g => s.stageClear g).getD s).MemoryCanonical := by
    cases s.cfg.staging with
    | none => exact h
    | some g => exact h.stageClear g
  exact ⟨hk.1, rfl⟩

/-! ### Commands that write flash or DRAM -/

@[simp] theorem Mem.setRing_cells (m : Mem) (k : Nat) (f : Ring → Ring) : (m.setRing k f).cells = m.cells := by
  unfold Mem.setRing
  split <;> rfl

theorem Mem.store_wf (m : Mem) (a : Access) (h : Memory.wf 0 m.cells = true) : Memory.wf 0 (m.store a).cells = true := by
  unfold Mem.store
  split
  · exact memWriteAll_wf _ _ _ _ h
  · exact h

theorem State.MemoryCanonical.of_mem (h : s.MemoryCanonical) (hf : t.flash.cells = s.flash.cells)
    (hm : Memory.wf 0 t.mem.cells = true) : t.MemoryCanonical := by
  rw [State.MemoryCanonical, hf]
  exact ⟨h.1, hm⟩

theorem State.MemoryCanonical.stored (h : s.MemoryCanonical) (a : Access) (f : Mem → Mem)
    (hf : (f s.mem).cells = (s.mem.store a).cells) : (s.setMem f).MemoryCanonical :=
  h.of_mem rfl (hf ▸ s.mem.store_wf a h.2)

theorem State.MemoryCanonical.accessed (h : s.MemoryCanonical) (port : Fin 4) (addr : Nat) :
    ((s.served port).accessed port addr).MemoryCanonical := h.of_cells (by simp) (by simp)

theorem State.MemoryCanonical.memErrors (h : s.MemoryCanonical) (corrected : Nat) (bad : List Nat) :
    (s.memErrors corrected bad).MemoryCanonical := h.of_cells (by simp) (by simp)

theorem State.MemoryCanonical.serveRt (h : s.MemoryCanonical) : s.serveRt.MemoryCanonical := by
  unfold State.serveRt
  split
  · exact h
  · rename_i a t _
    have hs := (h.stored a (fun m => { m.store a with rt := t, rtMid := !a.last && !t.isEmpty }) rfl).accessed 0 a.addr
    exact .ite (fun _ => hs.of_cells (by simp) (by simp)) (fun _ => hs)

theorem State.MemoryCanonical.serveSnap (h : s.MemoryCanonical) (corrected : Nat) : (s.serveSnap corrected).MemoryCanonical := by
  unfold State.serveSnap
  split
  · exact h
  · rename_i a t _
    extract_lets queue served touched told
    have hs : touched.MemoryCanonical :=
      (h.stored a (fun m => { m.store a with snap := queue, snapOverdue := false, requestAt := s.now }) rfl).accessed 1 a.addr
    have ht : told.MemoryCanonical := .ite (fun _ => hs.memErrors corrected []) (fun _ => hs)
    exact .ite (fun _ => ht.of_cells (by simp) (by simp)) (fun _ => ht)

/-! ### Commands -/

theorem execFlashEraseDone_memoryCanonical (h : s.MemoryCanonical) (dt : Nat) (ok : Bool) :
    Ensures State.MemoryCanonical (execFlashEraseDone dt ok s) := by
  unfold execFlashEraseDone
  dsimp only
  split
  · refine .ite (fun _ => .ite (fun _ => ?_) (fun _ => (h.elapse dt).stageEnd 4 0)) (fun _ => h.elapse dt)
    exact State.MemoryCanonical.stageNext ((h.elapse dt).clearFlash _ _ (by rfl) (by rfl))
  · exact h.elapse dt

theorem execFlashProgramDone_memoryCanonical (h : s.MemoryCanonical) (dt : Nat) (ok : Bool) :
    Ensures State.MemoryCanonical (execFlashProgramDone dt ok s) := by
  have hu := h.elapse dt
  unfold execFlashProgramDone
  dsimp only
  split
  · refine .ite (fun _ => .ite (fun _ => ?_) (fun _ => hu.stageEnd 5 0)) fun _ =>
      .ite (fun _ => .ite (fun _ => ?_) (fun _ => hu.stageEnd 5 0)) (fun _ => hu)
    · exact State.MemoryCanonical.stageNext (hu.writeFlash _ _ (by rfl) (by rfl))
    · exact State.MemoryCanonical.stageEnd (hu.writeFlash _ _ (by rfl) (by rfl)) 0 0
  · exact hu

theorem execFlashOperationTimeout_memoryCanonical (h : s.MemoryCanonical) (dt : Nat) :
    Ensures State.MemoryCanonical (execFlashOperationTimeout dt s) := by
  have he (code : Nat) : Ensures State.MemoryCanonical (.next ((s.elapse dt).stageEnd code 0)) := (h.elapse dt).stageEnd code 0
  unfold execFlashOperationTimeout
  dsimp only
  split
  · split
    · exact .ite (fun _ => he 4) (fun _ => h.elapse dt)
    · exact .ite (fun _ => he 5) (fun _ => h.elapse dt)
    · exact .ite (fun _ => he 5) (fun _ => h.elapse dt)
    all_goals exact h.elapse dt
  · exact h.elapse dt

theorem execStagingCheckDone_memoryCanonical (h : s.MemoryCanonical) (dt : Nat) :
    Ensures State.MemoryCanonical (execStagingCheckDone dt s) := by
  unfold execStagingCheckDone
  dsimp only
  split
  · exact .ite (fun _ => .ite (fun _ => h.of_cells rfl rfl) (fun _ => (h.elapse dt).stageEnd 6 _)) (fun _ => h.elapse dt)
  · exact h.elapse dt

theorem execMbxStageBlock_memoryCanonical (h : s.MemoryCanonical) (dt : Nat) :
    Ensures State.MemoryCanonical (execMbxStageBlock dt s) :=
  .ite (fun _ => (h.elapse dt).mbxCommand 2 fun _ k => k.actStageBlock) (fun _ => (h.elapse dt).postedUr)

theorem execMbxStageAbort_memoryCanonical (h : s.MemoryCanonical) (dt : Nat) :
    Ensures State.MemoryCanonical (execMbxStageAbort dt s) :=
  .ite (fun _ => (h.elapse dt).mbxCommand 3 fun _ k => k.actStageAbort) (fun _ => (h.elapse dt).postedUr)

theorem execMbxLockLapse_memoryCanonical (h : s.MemoryCanonical) (dt : Nat) :
    Ensures State.MemoryCanonical (execMbxLockLapse dt s) :=
  .ite (fun _ => ((h.elapse dt).stageAbort .mailbox).of_cells rfl rfl) (fun _ => h.elapse dt)

theorem execRegisterWrite_memoryCanonical (h : s.MemoryCanonical) (dt offset : Nat) (data : List Byte) :
    Ensures State.MemoryCanonical (execRegisterWrite dt offset data s) := by
  have hu := h.elapse dt
  refine .ite (fun _ => trivial) fun _ => .ite (fun _ => hu.postedUr) fun _ => .ite (fun _ => hu.of_cells (by simp) (by simp)) fun _ =>
    .ite (fun _ => hu.of_cells (by simp) (by simp)) fun _ => .ite (fun _ => ?_) fun _ =>
    .ite (fun _ => .ite (fun _ => hu.of_cells (by simp) (by simp)) (fun _ => hu)) (fun _ => hu.of_cells (by simp) (by simp))
  exact hu.mbxCommand _ fun _ k => k.mbxAction _

theorem State.MemoryCanonical.endMailboxStaging (h : s.MemoryCanonical) :
    (if s.mbxStaging.isSome then (s.stageAbort .mailbox).mbxLock else s).MemoryCanonical :=
  .ite (fun _ => (h.stageAbort .mailbox).of_cells rfl rfl) (fun _ => h)

theorem execPcieFunctionLevelReset_memoryCanonical (h : s.MemoryCanonical) (dt : Nat) :
    Ensures State.MemoryCanonical (execPcieFunctionLevelReset dt s) :=
  .ite (fun _ => (h.elapse dt).endMailboxStaging.of_cells rfl rfl) (fun _ => h.elapse dt)

theorem execPcieLinkReset_memoryCanonical (h : s.MemoryCanonical) (dt : Nat) (kind : LinkReset) :
    Ensures State.MemoryCanonical (execPcieLinkReset dt kind s) :=
  .ite (fun _ => (h.elapse dt).endMailboxStaging.of_cells rfl rfl) (fun _ => h.elapse dt)

theorem execDfuDnload_memoryCanonical (h : s.MemoryCanonical) (dt block : Nat) (data : List Byte) :
    Ensures State.MemoryCanonical (execDfuDnload dt block data s) := by
  have hu := h.elapse dt
  have hd {t : State} (k : t.MemoryCanonical) (d : DfuSt) (n : Nat) : Ensures State.MemoryCanonical (.next (t.setDfu d n)) :=
    k.of_cells rfl rfl
  refine .ite (fun _ => hu) fun _ => ?_
  split
  · refine .ite (fun _ => hu.of_cells rfl rfl) fun _ => .ite (fun _ => hd hu _ _) fun _ => ?_
    split
    · exact hu.of_cells rfl rfl
    · exact State.MemoryCanonical.dfuAccept (hu.of_cells (by rfl) (by rfl)) block data
  · refine .ite (fun _ => hd (hu.stageAbort _) _ _) fun _ => .ite (fun _ => ?_) fun _ => hu.dfuAccept block data
    exact State.MemoryCanonical.stageFinish (hu.of_cells (by rfl) (by rfl))
  all_goals exact hu.of_cells rfl rfl

theorem execDfuAbort_memoryCanonical (h : s.MemoryCanonical) (dt : Nat) : Ensures State.MemoryCanonical (execDfuAbort dt s) := by
  refine .ite (fun _ => h.elapse dt) fun _ => ?_
  split
  · exact h.of_cells rfl rfl
  · exact ((h.elapse dt).stageAbort .placket).of_cells rfl rfl

theorem execPlacketDetach_memoryCanonical (h : s.MemoryCanonical) (dt : Nat) :
    Ensures State.MemoryCanonical (execPlacketDetach dt s) :=
  .ite (fun _ => State.MemoryCanonical.plkDetach (h.of_cells (by rfl) (by rfl))) (fun _ => h.of_cells rfl rfl)

theorem execBbxMirrorStart_memoryCanonical (h : s.MemoryCanonical) (dt : Nat) :
    Ensures State.MemoryCanonical (execBbxMirrorStart dt s) :=
  .ite (fun _ => h.clearFlash _ _ rfl rfl) (fun _ => h.elapse dt)

theorem execBbxMirrorDone_memoryCanonical (h : s.MemoryCanonical) (dt : Nat) (ok : Bool) :
    Ensures State.MemoryCanonical (execBbxMirrorDone dt ok s) := by
  unfold execBbxMirrorDone
  dsimp only
  split
  · exact h.elapse dt
  · refine .ite (fun _ => h.elapse dt) fun _ => .ite (fun _ => ?_) fun _ => ?_
    · generalize storeBytes _ _ = body, mirrorHeader _ _ _ _ _ = head
      exact ⟨memWriteAll_wf _ _ _ _ (memWriteAll_wf _ _ _ _ h.1), h.2⟩
    · exact State.MemoryCanonical.warn (h.of_cells (by rfl) (by rfl)) _ _ _ _

theorem execMemZeroFillDone_memoryCanonical (h : s.MemoryCanonical) (dt : Nat) :
    Ensures State.MemoryCanonical (execMemZeroFillDone dt s) :=
  .ite (fun _ => h.of_mem rfl rfl) (fun _ => h.elapse dt)

theorem execMemAccessBoundary_memoryCanonical (h : s.MemoryCanonical) (dt : Nat) (a : AccessMeet) :
    Ensures State.MemoryCanonical (execMemAccessBoundary dt a s) := by
  have hu := h.elapse dt
  refine .ite (fun _ => .ite (fun _ => h.of_cells rfl rfl) fun _ => ?_) (fun _ => hu)
  split
  · exact hu
  · exact hu.serveRt
  · exact hu.serveSnap a.corrected
  · exact hu.of_cells (by simp) (by simp)
  · exact hu.of_cells (by simp) (by simp)

theorem execEthFrameSent_memoryCanonical (h : s.MemoryCanonical) (dt : Nat) (l : Lane) :
    Ensures State.MemoryCanonical (execEthFrameSent dt l s) := by
  unfold execEthFrameSent
  dsimp only
  split
  · exact h.elapse dt
  · exact State.MemoryCanonical.of_cells (s := s) h (State.startNext_keeps _ _ _).2.2.1 (State.startNext_keeps _ _ _).2.2.2.1

theorem execCfgLoadStart_memoryCanonical (h : s.MemoryCanonical) (dt : Nat) :
    Ensures State.MemoryCanonical (execCfgLoadStart dt s) := by
  refine .ite (fun _ => ?_) (fun _ => h.elapse dt)
  split
  · exact h.of_cells (by simp) (by simp)
  · exact h.of_cells (by simp) (by simp)

theorem execImageReadDone_memoryCanonical (h : s.MemoryCanonical) (dt : Nat) :
    Ensures State.MemoryCanonical (execImageReadDone dt s) := by
  unfold execImageReadDone
  dsimp only
  split
  · exact h.elapse dt
  · refine .ite (fun _ => ?_) (fun _ => h.elapse dt)
    split
    · exact h.of_cells (by simp) (by simp)
    · exact .ite (fun _ => h.of_cells (by simp) (by simp)) (fun _ => h.of_cells (by simp) (by simp))

theorem execFaultReport_memoryCanonical (h : s.MemoryCanonical) (dt : Nat) (extra : List FaultRep) :
    Ensures State.MemoryCanonical (execFaultReport dt extra s) := by
  refine .ite (fun _ => h.elapse dt) fun _ => .ite (fun _ => h.of_cells rfl rfl) fun _ =>
    .ite (fun _ => ?_) (fun _ => h.of_cells rfl rfl)
  have hr (mask : Nat) (l : List FaultRep) : (l.foldl (State.handleReport mask)
      { s.elapse dt with hb := { (s.elapse dt).hb with reports := [] } }).MemoryCanonical :=
    .foldl (fun _ f k => k.handleReport mask f) l (h.of_cells rfl rfl)
  exact State.MemoryCanonical.ite (fun _ => hr _ _) (fun _ => (hr _ _).of_cells rfl rfl)

theorem execFenceCommand_memoryCanonical (h : s.MemoryCanonical) (dt : Nat) :
    Ensures State.MemoryCanonical (execFenceCommand dt s) := by
  unfold execFenceCommand
  dsimp only
  split
  · exact h.elapse dt
  · exact .ite (fun _ => State.MemoryCanonical.hbReaches (h.of_cells (by simp) (by simp)) _) (fun _ => h.elapse dt)

theorem execRecoveryAttempt_memoryCanonical (h : s.MemoryCanonical) (dt : Nat) (d : Domain) :
    Ensures State.MemoryCanonical (execRecoveryAttempt dt d s) :=
  .ite (fun _ => h.of_cells (by simp) (by simp)) (fun _ => h.elapse dt)

theorem execRecoverySequenceEnd_memoryCanonical (h : s.MemoryCanonical) (dt : Nat) (d : Domain)
    (failing : List (Fin 4 × Fin 5)) : Ensures State.MemoryCanonical (execRecoverySequenceEnd dt d failing s) :=
  .ite (fun _ => .ite (fun _ => .ite (fun _ => h.of_cells (by simp) (by simp)) (fun _ => h.of_cells (by simp) (by simp)))
    (fun _ => h.of_cells (by simp) (by simp))) (fun _ => h.elapse dt)

theorem execRecoveryOverrun_memoryCanonical (h : s.MemoryCanonical) (dt : Nat) (d : Domain) :
    Ensures State.MemoryCanonical (execRecoveryOverrun dt d s) :=
  .ite (fun _ => (h.elapse dt).scheduleRecovery d) (fun _ => h.elapse dt)

theorem execRecoveryCleanTick_memoryCanonical (h : s.MemoryCanonical) (dt : Nat) :
    Ensures State.MemoryCanonical (execRecoveryCleanTick dt s) :=
  .ite (fun _ => h.of_cells rfl rfl) (fun _ => h.elapse dt)

theorem execHbAliveMissed_memoryCanonical (h : s.MemoryCanonical) (dt : Nat) (c : Ctl) :
    Ensures State.MemoryCanonical (execHbAliveMissed dt c s) :=
  .ite (fun _ => (h.elapse dt).ctlFailed c 0) (fun _ => h.elapse dt)

theorem execHbSelfCheckFail_memoryCanonical (h : s.MemoryCanonical) (dt : Nat) (c : Ctl) :
    Ensures State.MemoryCanonical (execHbSelfCheckFail dt c s) :=
  .ite (fun _ => (h.elapse dt).ctlFailed c 1) (fun _ => h.elapse dt)

theorem execHbSelfTestDone_memoryCanonical (h : s.MemoryCanonical) (dt : Nat) (aOk bOk : Bool) :
    Ensures State.MemoryCanonical (execHbSelfTestDone dt aOk bOk s) := by
  refine .ite (fun _ => ?_) (fun _ => h.elapse dt)
  have hu : ({ s.elapse dt with hb := { (s.elapse dt).hb with selfTest := false } } : State).MemoryCanonical := h.of_cells rfl rfl
  split
  · exact h.of_cells rfl rfl
  · exact hu.ctlFailed .a 2
  · exact hu.ctlFailed .b 2
  · exact h.of_cells rfl rfl

theorem execBothFailedLatch_memoryCanonical (h : s.MemoryCanonical) (dt : Nat) :
    Ensures State.MemoryCanonical (execBothFailedLatch dt s) :=
  .ite (fun _ => h.of_cells (by simp) (by simp)) (fun _ => h.elapse dt)

theorem execUNoticeRepeat_memoryCanonical (h : s.MemoryCanonical) (dt : Nat) :
    Ensures State.MemoryCanonical (execUNoticeRepeat dt s) := by
  refine .ite (fun _ => ?_) (fun _ => h.elapse dt)
  have hn : (((s.elapse dt).operatorReaches.injected .operator).evtRepeats).MemoryCanonical := h.of_cells (by simp) (by simp)
  exact ((hn.hbRepeats .hbA (s.elapse dt).hb.ctlA).hbRepeats .hbB (s.elapse dt).hb.ctlB).of_cells (by simp) (by simp)

theorem execPowerGood_memoryCanonical (h : s.MemoryCanonical) (dt : Nat) (hbaOk hbbOk : Bool) :
    Ensures State.MemoryCanonical (execPowerGood dt hbaOk hbbOk s) :=
  .ite (fun _ => State.MemoryCanonical.hatbandStart (h.of_cells (by simp) (by simp)) _ _) (fun _ => h.elapse dt)

theorem execPowerFailWarning_memoryCanonical (h : s.MemoryCanonical) (dt lowNs : Nat) (outMask : BitVec 8) :
    Ensures State.MemoryCanonical (execPowerFailWarning dt lowNs outMask s) := by
  have hr : ((s.elapse dt).recognised lowNs 20 100).2.MemoryCanonical := h.of_cells (by simp) (by simp)
  refine .ite (fun _ => ?_) (fun _ => hr)
  split
  · exact hr
  · exact (hr.powerFail outMask.toNat false).of_cells rfl rfl
  · exact hr.of_cells rfl rfl

theorem execSupplyMonitorTrip_memoryCanonical (h : s.MemoryCanonical) (dt : Nat) (outMask : BitVec 8) (low belowThreshold : Bool) :
    Ensures State.MemoryCanonical (execSupplyMonitorTrip dt outMask low belowThreshold s) := by
  unfold execSupplyMonitorTrip
  dsimp only
  split
  · exact ((h.elapse dt).powerFail outMask.toNat low).of_cells rfl rfl
  all_goals exact h.of_cells rfl rfl

theorem execResetNAsserted_memoryCanonical (h : s.MemoryCanonical) (dt lowNs : Nat) :
    Ensures State.MemoryCanonical (execResetNAsserted dt lowNs s) := by
  have hr : ((s.elapse dt).recognised lowNs 100 1000).2.MemoryCanonical := h.of_cells (by simp) (by simp)
  exact .ite (fun _ => hr.holdReset _) (fun _ => hr)

theorem execPfailRestart_memoryCanonical (h : s.MemoryCanonical) (dt : Nat) :
    Ensures State.MemoryCanonical (execPfailRestart dt s) :=
  .ite (fun _ => (h.elapse dt).holdReset _) (fun _ => h.elapse dt)

theorem execRequestedRestart_memoryCanonical (h : s.MemoryCanonical) (dt : Nat) :
    Ensures State.MemoryCanonical (execRequestedRestart dt s) := by
  unfold execRequestedRestart
  dsimp only
  split
  · exact .ite (fun _ => (h.elapse dt).holdReset _) (fun _ => h.elapse dt)
  · exact h.elapse dt

/-! ### Every command -/

theorem exec_memoryCanonical (h : s.MemoryCanonical) (c : Instr) : Ensures State.MemoryCanonical (exec c s) := by
  cases c with
  | flashEraseDone => exact execFlashEraseDone_memoryCanonical h ..
  | flashProgramDone => exact execFlashProgramDone_memoryCanonical h ..
  | flashOperationTimeout => exact execFlashOperationTimeout_memoryCanonical h ..
  | stagingCheckDone => exact execStagingCheckDone_memoryCanonical h ..
  | mbxStageBlock => exact execMbxStageBlock_memoryCanonical h ..
  | mbxStageAbort => exact execMbxStageAbort_memoryCanonical h ..
  | mbxLockLapse => exact execMbxLockLapse_memoryCanonical h ..
  | registerWrite => exact execRegisterWrite_memoryCanonical h ..
  | pcieFunctionLevelReset => exact execPcieFunctionLevelReset_memoryCanonical h ..
  | pcieLinkReset => exact execPcieLinkReset_memoryCanonical h ..
  | dfuDnload => exact execDfuDnload_memoryCanonical h ..
  | dfuAbort => exact execDfuAbort_memoryCanonical h ..
  | placketDetach => exact execPlacketDetach_memoryCanonical h ..
  | bbxMirrorStart => exact execBbxMirrorStart_memoryCanonical h ..
  | bbxMirrorDone => exact execBbxMirrorDone_memoryCanonical h ..
  | memZeroFillDone => exact execMemZeroFillDone_memoryCanonical h ..
  | memAccessBoundary => exact execMemAccessBoundary_memoryCanonical h ..
  | ethFrameSent => exact execEthFrameSent_memoryCanonical h ..
  | cfgLoadStart => exact execCfgLoadStart_memoryCanonical h ..
  | imageReadDone => exact execImageReadDone_memoryCanonical h ..
  | faultReport => exact execFaultReport_memoryCanonical h ..
  | fenceCommand => exact execFenceCommand_memoryCanonical h ..
  | recoveryAttempt => exact execRecoveryAttempt_memoryCanonical h ..
  | recoverySequenceEnd => exact execRecoverySequenceEnd_memoryCanonical h ..
  | recoveryOverrun => exact execRecoveryOverrun_memoryCanonical h ..
  | recoveryCleanTick => exact execRecoveryCleanTick_memoryCanonical h ..
  | hbAliveMissed => exact execHbAliveMissed_memoryCanonical h ..
  | hbSelfCheckFail => exact execHbSelfCheckFail_memoryCanonical h ..
  | hbSelfTestDone => exact execHbSelfTestDone_memoryCanonical h ..
  | bothFailedLatch => exact execBothFailedLatch_memoryCanonical h ..
  | uNoticeRepeat => exact execUNoticeRepeat_memoryCanonical h ..
  | powerGood => exact execPowerGood_memoryCanonical h ..
  | powerFailWarning => exact execPowerFailWarning_memoryCanonical h ..
  | supplyMonitorTrip => exact execSupplyMonitorTrip_memoryCanonical h ..
  | resetNAsserted => exact execResetNAsserted_memoryCanonical h ..
  | pfailRestart => exact execPfailRestart_memoryCanonical h ..
  | requestedRestart => exact execRequestedRestart_memoryCanonical h ..
  | _ => exact h.of_leavesCore (by simp [exec])

theorem step_memoryCanonical (h : s.MemoryCanonical) : Ensures State.MemoryCanonical (step s) := by
  unfold step
  split
  · exact h
  · exact exec_memoryCanonical (h.of_cells (by rfl) (by rfl)) _

end

/-- Settles O4: a command writes flash or DRAM only by the operations that keep the canonical form (`exec_memoryCanonical`). -/
theorem memoriesStayCanonical : Obligations.MemoriesStayCanonical := by
  intro s t h e
  have k := step_memoryCanonical h
  rwa [e] at k

end Sys2Proof.Machine

/-! SUPPORT. Containment along every command (R406, R411 to R413): how the entries of the fence domains may move, and what a device
held in reset keeps of its controllers. -/

namespace Sys2Proof.Machine

section

variable {s t u : State}

/-! ## How a domain's entry may move -/

/-- A domain fenced permanently stays so, and a fence closed only on a fenced domain stays one (R406, R413). -/
def Dom.Follows (y x : Dom) : Prop :=
  (x.st = .permanent → y.st = .permanent) ∧ ((x.shut = true → x.fenced = true) → y.shut = true → y.fenced = true)

theorem Dom.Follows.rfl {x : Dom} : x.Follows x := ⟨id, id⟩

theorem Dom.Follows.trans {x y z : Dom} (h : z.Follows y) (k : y.Follows x) : z.Follows x :=
  ⟨fun e => h.1 (k.1 e), fun e => h.2 (k.2 e)⟩

/-- The state of the domain and its fence stand; its counters and times may change. -/
theorem Dom.Follows.of_eq {x y : Dom} (hs : y.st = x.st) (hc : y.shut = x.shut) : y.Follows x := by
  have hf : y.fenced = x.fenced := by unfold Dom.fenced; rw [hs]
  exact ⟨fun e => hs.trans e, fun k e => hf.trans (k (hc.symm.trans e))⟩

theorem Dom.Follows.of_fenced {x y : Dom} (hx : x.st ≠ .permanent) (hy : y.fenced = true) : y.Follows x :=
  ⟨fun e => absurd e hx, fun _ _ => hy⟩

theorem Dom.Follows.of_open {x y : Dom} (hx : x.st ≠ .permanent) (hy : y.shut = false) : y.Follows x :=
  ⟨fun e => absurd e hx, fun _ e => absurd (hy.symm.trans e) (by decide)⟩

/-- Every domain's entry has moved as it may. -/
def State.DomsFollow (t s : State) : Prop := ∀ d : Domain, (t.dom d).Follows (s.dom d)

theorem State.DomsFollow.of_doms (h : t.hb.doms = s.hb.doms) : t.DomsFollow s := fun d => by
  rw [State.dom, State.dom, h]
  exact .rfl

theorem State.DomsFollow.trans (h : t.DomsFollow u) (k : u.DomsFollow s) : t.DomsFollow s := fun d => (h d).trans (k d)

theorem State.DomsFollow.ite {c : Prop} [Decidable c] (ht : c → t.DomsFollow s) (hu : ¬c → u.DomsFollow s) :
    (if c then t else u).DomsFollow s :=
  iteInduction (motive := fun v => State.DomsFollow v s) ht hu

theorem State.DomsFollow.foldl {α : Type} {f : State → α → State} (hf : ∀ s a, (f s a).DomsFollow s) (l : List α) (s : State) :
    (l.foldl f s).DomsFollow s :=
  List.foldlRecOn (motive := fun u => State.DomsFollow u s) l f (.of_doms rfl) fun u k a _ => (hf u a).trans k

@[simp] theorem State.setDom_dom (s : State) (d e : Domain) (f : Dom → Dom) :
    (s.setDom d f).dom e = if d = e then f (s.dom e) else s.dom e := upd_get _ _ _ _

theorem State.DomsFollow.setDom {d : Domain} {f : Dom → Dom} (h : (f (s.dom d)).Follows (s.dom d)) : (s.setDom d f).DomsFollow s := by
  intro e
  rw [State.setDom_dom]
  split
  · subst d; exact h
  · exact .rfl

/-- What comes after leaves the domains. -/
theorem State.DomsFollow.of_doms_eq (h : u.DomsFollow s) (k : t.hb.doms = u.hb.doms) : t.DomsFollow s :=
  (State.DomsFollow.of_doms k).trans h

/-! ## Fences, recovery and controllers -/

theorem State.makePermanent_domsFollow (s : State) (d : Domain) : (s.makePermanent d).DomsFollow s :=
  State.DomsFollow.of_doms_eq (u := s.setDom d fun x => { x with st := .permanent })
    (.setDom ⟨fun _ => rfl, fun _ _ => rfl⟩) (by simp [State.makePermanent])

theorem State.scheduleRecovery_domsFollow {d : Domain} (h : (s.dom d).st ≠ .permanent) : (s.scheduleRecovery d).DomsFollow s := by
  unfold State.scheduleRecovery
  extract_lets x driven
  have hb : driven.hb.doms = s.hb.doms := by simp only [driven]; split <;> simp
  have hd : driven.dom d = s.dom d := congrArg (fun v : Vector Dom 20 => v[d]) hb
  refine .ite (fun _ => (State.makePermanent_domsFollow _ d).trans (.of_doms hb)) fun _ => ?_
  exact (State.DomsFollow.setDom (.of_fenced (hd.symm ▸ h) rfl)).trans (.of_doms hb)

theorem State.handleReport_domsFollow (mask : Nat) (s : State) (f : FaultRep) : (s.handleReport mask f).DomsFollow s := by
  unfold State.handleReport
  extract_lets d x fenced recorded counted told
  have hc : counted.DomsFollow s := .trans (.setDom (.of_eq rfl rfl)) (.of_doms (by simp [recorded]))
  have hs (h : x.st ≠ .permanent) : (counted.dom d).st ≠ .permanent := by
    have e : recorded.dom d = s.dom d := congrArg (fun v : Vector Dom 20 => v[d]) (s.record_keeps _).2.2.2.2.1
    rw [State.setDom_dom, if_pos rfl]
    exact e ▸ h
  split
  case h_1 | h_2 => exact hc
  case h_3 e => exact (State.scheduleRecovery_domsFollow (hs (by simp [e]))).trans hc
  all_goals
    rename_i e
    have hh : told.hb.doms = counted.hb.doms := by simp [told]
    refine State.DomsFollow.trans (State.scheduleRecovery_domsFollow ?_) (hc.of_doms_eq hh)
    have e' : told.dom d = counted.dom d := congrArg (fun v : Vector Dom 20 => v[d]) hh
    exact e' ▸ hs (by simp [e])

/-- R406: a fence closes on a domain that is held fenced. -/
theorem State.fence_domsFollow (s : State) (d : Domain) : (s.fence d).DomsFollow s := by
  refine .ite (fun h => ?_) (fun _ => .of_doms rfl)
  have hf : (s.dom d).fenced = true := (Bool.and_eq_true_iff.mp h).1
  have hb : ((s.setDom d fun x => { x with shut := true }).boundary d).DomsFollow s :=
    State.DomsFollow.of_doms_eq (.setDom ⟨id, fun _ _ => hf⟩) (State.boundary_keeps _ d).2.2.1
  exact .ite (fun _ => hb.of_doms_eq rfl) (fun _ => hb)

theorem State.hbReaches_domsFollow (s : State) (n : HbNotice) : (s.hbReaches n).DomsFollow s := by
  have hf (s : State) (d : Domain) : (if n.mask.getLsbD d.val then s.fence d else s).DomsFollow s := by
    split
    · exact s.fence_domsFollow d
    · exact .of_doms rfl
  unfold State.hbReaches
  refine State.DomsFollow.trans (State.DomsFollow.foldl hf allDomains _) (.of_doms ?_)
  rfl

theorem State.hbRepeats_domsFollow (s : State) (k : USource) (c : CtlSt) : (s.hbRepeats k c).DomsFollow s :=
  .ite (fun _ => .of_doms rfl) fun _ => .ite
    (fun _ => (State.hbReaches_domsFollow _ _).trans (.of_doms (by simp))) (fun _ => .of_doms (by simp))

theorem State.restartAttempts_domsFollow (s : State) : s.restartAttempts.DomsFollow s := by
  refine .foldl (fun s d => .ite (fun _ => ?_) (fun _ => .of_doms rfl)) _ s
  exact State.DomsFollow.of_doms_eq (u := s.setDom d fun x => { x with begun := s.now }) (.setDom (.of_eq rfl rfl)) (by simp)

theorem State.ctlFailed_domsFollow (s : State) (c : Ctl) (reason : Nat) : (s.ctlFailed c reason).DomsFollow s := by
  rcases s.ctlFailed_cases c reason with e | ⟨a, b, e⟩ | ⟨a, b, x, r, v, hx, e⟩ <;> rw [e]
  · exact .of_doms rfl
  · exact .of_doms rfl
  · have hk : x.DomsFollow s := by
      rcases hx with hx | hx <;> rw [hx]
      · exact .of_doms rfl
      · exact (State.restartAttempts_domsFollow _).trans (.of_doms rfl)
    exact hk.of_doms_eq (by simp)

theorem State.unfence_domsFollow {d : Domain} (h : (s.dom d).st ≠ .permanent) : (s.unfence d).DomsFollow s := by
  have hk : (s.unfence d).hb.doms = (s.setDom d fun x => { x with st := .running, shut := false, cleanSince := s.now }).hb.doms := by
    simp [State.unfence, State.hbNotice]
  exact State.DomsFollow.of_doms_eq (.setDom (.of_open h rfl)) hk

theorem Dom.serve_follows (x : Dom) : x.serve.Follows x := by
  unfold Dom.serve
  split
  case isTrue h =>
    have hf : x.fenced = false := by simp [Dom.fenced, h]
    exact ⟨fun e => by simp [h] at e, fun k e => absurd (hf.symm.trans (k e)) (by decide)⟩
  case isFalse => exact .rfl

/-! ## Outcomes -/

/-- Domains have moved as they may, the both-failed latch has not opened, and the device is not newly held in reset. -/
def State.Contains (t s : State) : Prop :=
  t.DomsFollow s ∧ (s.hb.bothFailed = true → t.hb.bothFailed = true) ∧ (t.power.phase = .held → s.power.phase = .held)

theorem State.Contains.of_eq (hd : t.DomsFollow s) (hb : t.hb.bothFailed = s.hb.bothFailed) (hp : t.power.phase = s.power.phase) :
    t.Contains s := ⟨hd, fun e => hb.trans e, fun e => hp.symm.trans e⟩

theorem State.CoreStands.contains (h : t.CoreStands s) : t.Contains s := by
  obtain ⟨-, -, hd, hb, hp⟩ := h
  exact .of_eq (.of_doms hd) hb hp

/-- The outcome is contained as `State.Contains` says. -/
def ContainsAll (s : State) (o : Host.Outcome State Fault Refusal) : Prop := Ensures (·.Contains s) o

theorem LeavesCore.containsAll {o : Host.Outcome State Fault Refusal} (h : LeavesCore s o) : ContainsAll s o := by
  cases o with
  | next t => exact State.CoreStands.contains h
  | fault _ => trivial
  | refused _ => trivial

theorem State.elapse_contains (dt : Nat) : (s.elapse dt).Contains s := .of_eq (.of_doms rfl) rfl rfl

/-! ### Commands that write flash or DRAM leave containment -/

/-- Fence domains, the both-failed latch and the phase of the supplies stand. -/
def State.GuardStands (t s : State) : Prop :=
  t.hb.doms = s.hb.doms ∧ t.hb.bothFailed = s.hb.bothFailed ∧ t.power.phase = s.power.phase

@[simp] theorem State.guardStands_iff : t.GuardStands s ↔
    t.hb.doms = s.hb.doms ∧ t.hb.bothFailed = s.hb.bothFailed ∧ t.power.phase = s.power.phase := Iff.rfl

theorem State.GuardStands.contains (h : t.GuardStands s) : t.Contains s := .of_eq (.of_doms h.1) h.2.1 h.2.2

theorem State.mbxCommand_guardStands (word : U32) {act : State → State} (ha : ∀ s, (act s).GuardStands s) (s : State) :
    (s.mbxCommand word act).GuardStands s := by
  obtain ⟨m, e | e⟩ := s.mbxCommand_cases word act <;> rw [e]
  · exact ⟨rfl, rfl, rfl⟩
  · exact ha _

theorem execMemZeroFillDone_contains (dt : Nat) : ContainsAll s (execMemZeroFillDone dt s) := by
  simp only [execMemZeroFillDone]
  (repeat' split) <;> exact State.GuardStands.contains (by simp)

theorem execMemAccessBoundary_contains (dt : Nat) (a : AccessMeet) : ContainsAll s (execMemAccessBoundary dt a s) := by
  simp only [execMemAccessBoundary]
  (repeat' split) <;> exact State.GuardStands.contains (by simp)

theorem execPcieFunctionLevelReset_contains (dt : Nat) : ContainsAll s (execPcieFunctionLevelReset dt s) := by
  simp only [execPcieFunctionLevelReset]
  (repeat' split) <;> exact State.GuardStands.contains (by simp)

theorem execPcieLinkReset_contains (dt : Nat) (kind : LinkReset) : ContainsAll s (execPcieLinkReset dt kind s) := by
  simp only [execPcieLinkReset]
  (repeat' split) <;> exact State.GuardStands.contains (by simp)

theorem execMbxLockLapse_contains (dt : Nat) : ContainsAll s (execMbxLockLapse dt s) := by
  simp only [execMbxLockLapse]
  (repeat' split) <;> exact State.GuardStands.contains (by simp)

theorem execFlashEraseDone_contains (dt : Nat) (ok : Bool) : ContainsAll s (execFlashEraseDone dt ok s) := by
  simp only [execFlashEraseDone]
  (repeat' split) <;> exact State.GuardStands.contains (by simp)

theorem execFlashProgramDone_contains (dt : Nat) (ok : Bool) : ContainsAll s (execFlashProgramDone dt ok s) := by
  simp only [execFlashProgramDone]
  (repeat' split) <;> exact State.GuardStands.contains (by simp)

theorem execFlashOperationTimeout_contains (dt : Nat) : ContainsAll s (execFlashOperationTimeout dt s) := by
  simp only [execFlashOperationTimeout]
  (repeat' split) <;> exact State.GuardStands.contains (by simp)

theorem execStagingCheckDone_contains (dt : Nat) : ContainsAll s (execStagingCheckDone dt s) := by
  simp only [execStagingCheckDone]
  (repeat' split) <;> exact State.GuardStands.contains (by simp)

theorem execBbxMirrorStart_contains (dt : Nat) : ContainsAll s (execBbxMirrorStart dt s) := by
  simp only [execBbxMirrorStart]
  (repeat' split) <;> exact State.GuardStands.contains (by simp)

theorem execBbxMirrorDone_contains (dt : Nat) (ok : Bool) : ContainsAll s (execBbxMirrorDone dt ok s) := by
  simp only [execBbxMirrorDone]
  (repeat' split) <;> exact State.GuardStands.contains (by simp)

theorem execPlacketDetach_contains (dt : Nat) : ContainsAll s (execPlacketDetach dt s) := by
  simp only [execPlacketDetach]
  (repeat' split) <;> exact State.GuardStands.contains (by simp)

theorem execDfuDnload_contains (dt : Nat) (block : Nat) (data : List Byte) : ContainsAll s (execDfuDnload dt block data s) := by
  simp only [execDfuDnload]
  (repeat' split) <;> exact State.GuardStands.contains (by simp)

theorem execDfuAbort_contains (dt : Nat) : ContainsAll s (execDfuAbort dt s) := by
  simp only [execDfuAbort]
  (repeat' split) <;> exact State.GuardStands.contains (by simp)

theorem execMbxStageBlock_contains (dt : Nat) : ContainsAll s (execMbxStageBlock dt s) :=
  .ite (fun _ => (State.mbxCommand_guardStands _ (by simp) _).contains) (fun _ => State.GuardStands.contains (by simp))

theorem execMbxStageAbort_contains (dt : Nat) : ContainsAll s (execMbxStageAbort dt s) :=
  .ite (fun _ => (State.mbxCommand_guardStands _ (by simp) _).contains) (fun _ => State.GuardStands.contains (by simp))

theorem mbxAction_guardStands (word : U32) (s : State) : (mbxAction word s).GuardStands s := by
  unfold mbxAction
  split_ifs
  case pos | pos | pos => simp
  · unfold State.actRestart
    split_ifs <;> simp
  · simp

theorem execRegisterWrite_contains (dt offset : Nat) (data : List Byte) : ContainsAll s (execRegisterWrite dt offset data s) := by
  have hs {t : State} (h : t.GuardStands s) : ContainsAll s (.next t) := h.contains
  refine .ite (fun _ => trivial) fun _ => .ite (fun _ => hs (by simp)) fun _ => .ite (fun _ => hs (by simp)) fun _ =>
    .ite (fun _ => hs (by simp)) fun _ => .ite (fun _ => ?_) fun _ =>
    .ite (fun _ => .ite (fun _ => hs (by simp)) (fun _ => hs (by simp))) (fun _ => hs (by simp))
  exact (State.mbxCommand_guardStands (s := s.elapse dt) _ (mbxAction_guardStands _)).contains

theorem execEthFrameSent_contains (dt : Nat) (l : Lane) : ContainsAll s (execEthFrameSent dt l s) := by
  unfold execEthFrameSent
  dsimp only
  split
  · exact State.elapse_contains dt
  · obtain ⟨-, -, -, -, hd⟩ := State.startNext_keeps l _ _
    obtain ⟨hp, -, -, -, -, hb, -, -⟩ := State.startNext_still l _ _
    exact .of_eq (.of_doms hd) hb (congrArg Power.phase hp)

/-! ### Faults, fences and recovery -/

theorem execCfgLoadStart_contains (dt : Nat) : ContainsAll s (execCfgLoadStart dt s) := by
  refine .ite (fun _ => ?_) (fun _ => State.elapse_contains dt)
  split
  · have hs (u : State) : u.unconfigured.DomsFollow u :=
      State.DomsFollow.trans (.setDom (Dom.serve_follows _)) (.trans (.setDom (Dom.serve_follows _)) (.of_doms (by simp)))
    exact .of_eq ((hs _).trans (.of_doms rfl)) (by simp) (by simp)
  · exact State.GuardStands.contains (by simp)

theorem State.distribute_domsFollow (s : State) : s.distribute.DomsFollow s := by
  have hd : s.distribute.hb.doms = Vector.ofFn fun d => if s.domConfigured d then (s.dom d).serve else s.dom d := by
    simp [State.distribute]
  intro d
  have he : s.distribute.dom d = if s.domConfigured d then (s.dom d).serve else s.dom d := by
    simp only [State.dom, hd]
    exact Vector.getElem_ofFn ..
  rw [he]
  split
  · exact Dom.serve_follows _
  · exact .rfl

theorem State.loadImage_domsFollow (s : State) (slot : Fin 2) (m : Image) : (s.loadImage slot m).DomsFollow s := by
  unfold State.loadImage
  extract_lets gen failed fell cfg loaded logged told
  have ht : told.hb.doms = s.hb.doms := by
    unfold told
    split <;> simp [logged, loaded]
  exact (State.distribute_domsFollow _).trans (.of_doms (by simp [ht]))

theorem execImageReadDone_contains (dt : Nat) : ContainsAll s (execImageReadDone dt s) := by
  unfold execImageReadDone
  dsimp only
  split
  · exact State.elapse_contains dt
  · refine .ite (fun _ => ?_) (fun _ => State.elapse_contains dt)
    split
    · exact .of_eq ((State.loadImage_domsFollow _ _ _).trans (.of_doms rfl)) (by simp) (by simp)
    · refine .ite (fun _ => State.GuardStands.contains (by simp)) (fun _ => ?_)
      have hs (u : State) : u.unconfigured.DomsFollow u :=
        State.DomsFollow.trans (.setDom (Dom.serve_follows _)) (.trans (.setDom (Dom.serve_follows _)) (.of_doms (by simp)))
      exact .of_eq ((hs _).trans (.of_doms rfl)) (by simp) (by simp)

theorem execFaultReport_contains (dt : Nat) (extra : List FaultRep) : ContainsAll s (execFaultReport dt extra s) := by
  refine .ite (fun _ => State.elapse_contains dt) fun _ => .ite (fun _ => State.GuardStands.contains ⟨rfl, rfl, rfl⟩) fun _ =>
    .ite (fun _ => ?_) (fun _ => State.GuardStands.contains ⟨rfl, rfl, rfl⟩)
  have hr (mask : Nat) (l : List FaultRep) : (l.foldl (State.handleReport mask)
      { s.elapse dt with hb := { (s.elapse dt).hb with reports := [] } }).Contains s := by
    refine .of_eq (.trans (.foldl (State.handleReport_domsFollow mask) l _) (.of_doms rfl)) (by simp) ?_
    exact congrArg Power.phase (same_foldl (π := State.power) (State.handleReport mask) (fun s f => by simp [Same]) l _)
  exact iteInduction (motive := fun v => State.Contains v s) (fun _ => hr _ _) (fun _ => hr _ _)

theorem execFenceCommand_contains (dt : Nat) : ContainsAll s (execFenceCommand dt s) := by
  unfold execFenceCommand
  dsimp only
  split
  · exact State.elapse_contains dt
  · exact .ite (fun _ => .of_eq ((State.hbReaches_domsFollow _ _).trans (.of_doms (by simp))) (by simp) (by simp))
      (fun _ => State.elapse_contains dt)

theorem execRecoveryAttempt_contains (dt : Nat) (d : Domain) : ContainsAll s (execRecoveryAttempt dt d s) := by
  refine .ite (fun h => ?_) (fun _ => State.elapse_contains dt)
  simp only [Bool.and_eq_true, beq_iff_eq] at h
  obtain ⟨⟨⟨⟨-, hw⟩, -⟩, -⟩, -⟩ := h
  have hd : ((s.elapse dt).setDom d fun x => { x with st := .attempt, attempts := x.attempts + 1, begun := (s.elapse dt).now }).DomsFollow s :=
    State.DomsFollow.trans (.setDom (.of_fenced (by simp [hw]) rfl)) (.of_doms rfl)
  exact .of_eq (hd.of_doms_eq (by simp)) (by simp) (by simp)

theorem execRecoverySequenceEnd_contains (dt : Nat) (d : Domain) (failing : List (Fin 4 × Fin 5)) :
    ContainsAll s (execRecoverySequenceEnd dt d failing s) := by
  have hu {t : State} (ht : t.GuardStands s) (h : (s.dom d).st = .attempt) : (t.unfence d).Contains s := by
    have hd : t.dom d = s.dom d := congrArg (fun v : Vector Dom 20 => v[d]) ht.1
    exact .of_eq ((State.unfence_domsFollow (by simp [hd, h])).trans (.of_doms ht.1)) (by simpa using ht.2.1) (by simpa using ht.2.2)
  refine .ite (fun h => ?_) (fun _ => State.elapse_contains dt)
  simp only [Bool.and_eq_true, beq_iff_eq] at h
  obtain ⟨⟨⟨⟨-, ha⟩, -⟩, -⟩, -⟩ := h
  exact .ite (fun _ => .ite (fun _ => hu (by simp) ha) (fun _ => State.GuardStands.contains (by simp)))
    (fun _ => hu ⟨rfl, rfl, rfl⟩ ha)

theorem execRecoveryOverrun_contains (dt : Nat) (d : Domain) : ContainsAll s (execRecoveryOverrun dt d s) := by
  refine .ite (fun h => ?_) (fun _ => State.elapse_contains dt)
  simp only [Bool.and_eq_true, beq_iff_eq] at h
  obtain ⟨⟨-, ha⟩, -⟩ := h
  exact .of_eq ((State.scheduleRecovery_domsFollow (by simp [ha])).trans (.of_doms rfl)) (by simp) (by simp)

theorem execRecoveryCleanTick_contains (dt : Nat) : ContainsAll s (execRecoveryCleanTick dt s) := by
  refine .ite (fun _ => .of_eq (fun d => ?_) rfl rfl) (fun _ => State.elapse_contains dt)
  simp only [State.dom, Fin.getElem_fin, Vector.getElem_map]
  split
  · exact .of_eq rfl rfl
  · exact .rfl

theorem execHbAliveMissed_contains (dt : Nat) (c : Ctl) : ContainsAll s (execHbAliveMissed dt c s) :=
  .ite (fun _ => .of_eq ((State.ctlFailed_domsFollow _ c 0).trans (.of_doms rfl)) (by simp) (by simp))
    (fun _ => State.elapse_contains dt)

theorem execHbSelfCheckFail_contains (dt : Nat) (c : Ctl) : ContainsAll s (execHbSelfCheckFail dt c s) :=
  .ite (fun _ => .of_eq ((State.ctlFailed_domsFollow _ c 1).trans (.of_doms rfl)) (by simp) (by simp))
    (fun _ => State.elapse_contains dt)

theorem execHbSelfTestDone_contains (dt : Nat) (aOk bOk : Bool) : ContainsAll s (execHbSelfTestDone dt aOk bOk s) := by
  refine .ite (fun _ => ?_) (fun _ => State.elapse_contains dt)
  split
  case h_1 | h_4 => exact State.GuardStands.contains ⟨rfl, rfl, rfl⟩
  all_goals exact .of_eq ((State.ctlFailed_domsFollow _ _ 2).trans (.of_doms rfl)) (by simp) (by simp)

theorem execBothFailedLatch_contains (dt : Nat) : ContainsAll s (execBothFailedLatch dt s) :=
  .ite (fun _ => ⟨.of_doms (by simp), fun _ => by simp, fun e => by simpa using e⟩) (fun _ => State.elapse_contains dt)

theorem execUNoticeRepeat_contains (dt : Nat) : ContainsAll s (execUNoticeRepeat dt s) := by
  refine .ite (fun _ => .of_eq ?_ (by simp) (by simp)) (fun _ => State.elapse_contains dt)
  have hn : (((s.elapse dt).operatorReaches.injected .operator).evtRepeats).DomsFollow s := .of_doms (by simp)
  exact State.DomsFollow.of_doms_eq
    ((State.hbRepeats_domsFollow _ .hbB (s.elapse dt).hb.ctlB).trans ((State.hbRepeats_domsFollow _ .hbA (s.elapse dt).hb.ctlA).trans hn))
    (by simp)

/-! ### Power fail -/

theorem State.powerFail_bothFailed (s : State) (outMask : Nat) (undervoltage : Bool) :
    (s.powerFail outMask undervoltage).hb.bothFailed = s.hb.bothFailed := by
  unfold State.powerFail
  dsimp only
  simp only [State.powerFailRecords_keeps]
  split <;> simp [bothPorts]

theorem State.powerFail_contains (s : State) (outMask : Nat) (undervoltage : Bool) (power : Power)
    (hp : power.phase ≠ .held) : ({ s.powerFail outMask undervoltage with power := power } : State).Contains s :=
  ⟨.of_doms (by simp), fun e => (s.powerFail_bothFailed outMask undervoltage).trans e, fun e => absurd e hp⟩

theorem State.Contains.trans (h : t.Contains u) (k : u.Contains s) : t.Contains s :=
  ⟨h.1.trans k.1, fun e => h.2.1 (k.2.1 e), fun e => k.2.2 (h.2.2 e)⟩

theorem execPowerFailWarning_contains (dt lowNs : Nat) (outMask : BitVec 8) :
    ContainsAll s (execPowerFailWarning dt lowNs outMask s) := by
  have hr : ((s.elapse dt).recognised lowNs 20 100).2.Contains s := State.GuardStands.contains (by simp)
  refine .ite (fun _ => ?_) (fun _ => hr)
  split
  · exact hr
  · refine (State.powerFail_contains _ outMask.toNat false _ ?_).trans hr
    exact Phase.noConfusion
  · rename_i e
    exact ⟨hr.1, hr.2.1, fun k => by cases e.symm.trans k⟩

theorem execSupplyMonitorTrip_contains (dt : Nat) (outMask : BitVec 8) (low belowThreshold : Bool) :
    ContainsAll s (execSupplyMonitorTrip dt outMask low belowThreshold s) := by
  unfold execSupplyMonitorTrip
  dsimp only
  split
  · refine (State.powerFail_contains _ outMask.toNat low _ ?_).trans (State.elapse_contains dt)
    exact Phase.noConfusion
  all_goals exact State.GuardStands.contains ⟨rfl, rfl, rfl⟩

theorem State.hatbandStart_domsFollow (s : State) (aOk bOk : Bool) : (s.hatbandStart aOk bOk).DomsFollow s := by
  unfold State.hatbandStart
  split
  · exact .of_doms rfl
  · exact s.ctlFailed_domsFollow .a 2
  · exact s.ctlFailed_domsFollow .b 2
  · exact .of_doms (by simp)

/-! ### Every command -/

/-- A command that is no restart opens nothing that the hatband holds closed. -/
theorem exec_contains {c : Instr} (hc : isRestart c = false) : ContainsAll s (exec c s) := by
  cases c with
  | powerGood | resetNAsserted | pfailRestart | requestedRestart => cases hc
  | memZeroFillDone => exact execMemZeroFillDone_contains ..
  | memAccessBoundary => exact execMemAccessBoundary_contains ..
  | pcieFunctionLevelReset => exact execPcieFunctionLevelReset_contains ..
  | pcieLinkReset => exact execPcieLinkReset_contains ..
  | mbxLockLapse => exact execMbxLockLapse_contains ..
  | flashEraseDone => exact execFlashEraseDone_contains ..
  | flashProgramDone => exact execFlashProgramDone_contains ..
  | flashOperationTimeout => exact execFlashOperationTimeout_contains ..
  | stagingCheckDone => exact execStagingCheckDone_contains ..
  | bbxMirrorStart => exact execBbxMirrorStart_contains ..
  | bbxMirrorDone => exact execBbxMirrorDone_contains ..
  | placketDetach => exact execPlacketDetach_contains ..
  | dfuDnload => exact execDfuDnload_contains ..
  | dfuAbort => exact execDfuAbort_contains ..
  | mbxStageBlock => exact execMbxStageBlock_contains ..
  | mbxStageAbort => exact execMbxStageAbort_contains ..
  | registerWrite => exact execRegisterWrite_contains ..
  | ethFrameSent => exact execEthFrameSent_contains ..
  | cfgLoadStart => exact execCfgLoadStart_contains ..
  | imageReadDone => exact execImageReadDone_contains ..
  | faultReport => exact execFaultReport_contains ..
  | fenceCommand => exact execFenceCommand_contains ..
  | recoveryAttempt => exact execRecoveryAttempt_contains ..
  | recoverySequenceEnd => exact execRecoverySequenceEnd_contains ..
  | recoveryOverrun => exact execRecoveryOverrun_contains ..
  | recoveryCleanTick => exact execRecoveryCleanTick_contains ..
  | hbAliveMissed => exact execHbAliveMissed_contains ..
  | hbSelfCheckFail => exact execHbSelfCheckFail_contains ..
  | hbSelfTestDone => exact execHbSelfTestDone_contains ..
  | bothFailedLatch => exact execBothFailedLatch_contains ..
  | uNoticeRepeat => exact execUNoticeRepeat_contains ..
  | powerFailWarning => exact execPowerFailWarning_contains ..
  | supplyMonitorTrip => exact execSupplyMonitorTrip_contains ..
  | _ => exact LeavesCore.containsAll (by simp [exec])

/-! ## Fences in agreement -/

theorem State.FencesAgree.of_domsFollow (h : s.FencesAgree) (k : t.DomsFollow s) : t.FencesAgree := fun d => (k d).2 (h d)

theorem State.reset_fencesAgree : State.reset.FencesAgree := by
  intro d e
  have hd : State.reset.dom d = {} := Vector.getElem_replicate ..
  rw [State.isShut, hd] at e
  cases e

theorem State.holdReset_fencesAgree (s : State) (power : Power) : (s.holdReset power).FencesAgree := State.reset_fencesAgree

theorem exec_fencesAgree_of_restart (h : s.FencesAgree) {c : Instr} (hc : isRestart c = true) :
    Ensures State.FencesAgree (exec c s) := by
  have hu (dt : Nat) : (s.elapse dt).FencesAgree := h.of_domsFollow (.of_doms rfl)
  cases c with
  | powerGood dt hbaOk hbbOk =>
    exact .ite (fun _ => (hu dt).of_domsFollow ((State.hatbandStart_domsFollow _ _ _).trans (.of_doms (by simp)))) (fun _ => hu dt)
  | resetNAsserted dt lowNs =>
    exact .ite (fun _ => State.holdReset_fencesAgree _ _) (fun _ => h.of_domsFollow (.of_doms (by simp)))
  | pfailRestart dt => exact .ite (fun _ => State.holdReset_fencesAgree _ _) (fun _ => hu dt)
  | requestedRestart dt =>
    simp only [exec, execRequestedRestart]
    split
    · exact .ite (fun _ => State.holdReset_fencesAgree _ _) (fun _ => hu dt)
    · exact hu dt
  | _ => cases hc

theorem exec_fencesAgree (h : s.FencesAgree) (c : Instr) : Ensures State.FencesAgree (exec c s) := by
  cases hc : isRestart c with
  | true => exact exec_fencesAgree_of_restart h hc
  | false =>
    have k := exec_contains (s := s) hc
    cases e : exec c s with
    | next t => exact h.of_domsFollow (e ▸ k).1
    | fault _ => trivial
    | refused _ => trivial


theorem step_fencesAgree (h : s.FencesAgree) : Ensures State.FencesAgree (step s) := by
  unfold step
  split
  · exact h
  · exact exec_fencesAgree (h.of_domsFollow (.of_doms (by rfl))) _

end

/-- Settles O5: a restart opens every fence, and along any other command the entry of a domain moves only by `Dom.Follows`. -/
theorem fencesStayInAgreement : Obligations.FencesStayInAgreement := by
  intro s t h e
  have k := step_fencesAgree h
  rwa [e] at k

end Sys2Proof.Machine

/-! SUPPORT. What a device that is not running keeps of its hatband controllers (R397, R411, R412), command by command. -/

namespace Sys2Proof.Machine

section

variable {s t u : State}

/-! ## A device that is not running keeps its controllers -/

/-- The states of the controllers and the both-failed latch stand as in `s`. -/
def State.CtlStands (t s : State) : Prop :=
  t.hb.ctlA = s.hb.ctlA ∧ t.hb.ctlB = s.hb.ctlB ∧ t.hb.bothFailed = s.hb.bothFailed

@[simp] theorem State.ctlStands_iff :
    t.CtlStands s ↔ t.hb.ctlA = s.hb.ctlA ∧ t.hb.ctlB = s.hb.ctlB ∧ t.hb.bothFailed = s.hb.bothFailed := Iff.rfl

theorem State.CtlStands.trans (h : t.CtlStands u) (k : u.CtlStands s) : t.CtlStands s :=
  ⟨h.1.trans k.1, h.2.1.trans k.2.1, h.2.2.trans k.2.2⟩

theorem State.CtlStands.ite {c : Prop} [Decidable c] (ht : c → t.CtlStands s) (hu : ¬c → u.CtlStands s) :
    (if c then t else u).CtlStands s :=
  iteInduction (motive := fun v => State.CtlStands v s) ht hu

theorem State.CtlStands.foldl {α : Type} {f : State → α → State} (hf : ∀ s a, (f s a).CtlStands s) (l : List α) (s : State) :
    (l.foldl f s).CtlStands s :=
  List.foldlRecOn (motive := fun u => State.CtlStands u s) l f ⟨rfl, rfl, rfl⟩ fun u k a _ => (hf u a).trans k

/-- Reports leave the controllers. -/
theorem State.CtlStands.of_hushed (h : t.hushed = s.hushed) : t.CtlStands s :=
  have k : t.hushed.CtlStands s.hushed := h ▸ ⟨rfl, rfl, rfl⟩
  k

/-- The outcome leaves the controllers. -/
def LeavesCtl (s : State) (o : Host.Outcome State Fault Refusal) : Prop := Ensures (·.CtlStands s) o

@[simp] theorem leavesCtl_next : LeavesCtl s (.next t) ↔ t.CtlStands s := Iff.rfl

@[simp] theorem leavesCtl_fault {f : Fault} : LeavesCtl s (.fault f) := trivial

@[simp] theorem leavesCtl_ite {c : Prop} [Decidable c] {a b : Host.Outcome State Fault Refusal} :
    LeavesCtl s (if c then a else b) ↔ if c then LeavesCtl s a else LeavesCtl s b := by
  split <;> rfl

/-! ### Operations -/

@[simp] theorem State.record_ctlStands (r : BbxRec) : (s.record r).CtlStands s := .of_hushed (s.record_hushed r)

theorem State.raise_ctlStands (code value : U32) (holds : Bool) (place : Nat) : (s.raise code value holds place).CtlStands s := by
  unfold State.raise
  refine .ite (fun _ => ⟨rfl, rfl, rfl⟩) fun _ => .ite (fun _ => ⟨rfl, rfl, rfl⟩) fun _ => .of_hushed ?_
  rw [State.msixEvent_hushed, State.bbxEnqueue_hushed, State.healthRecord_hushed]
  rfl

@[simp] theorem State.warn_ctlStands (code value : U32) (holds : Bool) (place : Nat) : (s.warn code value holds place).CtlStands s := by
  unfold State.warn
  exact .ite (fun _ => (State.raise_ctlStands ..).trans (State.raise_ctlStands ..)) (fun _ => State.raise_ctlStands ..)

@[simp] theorem State.logDrop_ctlStands (s : State) (p : Port) (tag : ShotTag) (cause : Nat) : (s.logDrop p tag cause).CtlStands s := by
  refine .ite (fun _ => State.CtlStands.trans (.of_hushed (State.record_hushed _ _)) ⟨rfl, rfl, rfl⟩) (fun _ => ⟨rfl, rfl, rfl⟩)

theorem State.closeGate_ctlStands (s : State) (p : Port) : (s.closeGate p).CtlStands s := by
  unfold State.closeGate
  split
  · exact ⟨rfl, rfl, rfl⟩
  · refine State.CtlStands.trans ⟨rfl, rfl, rfl⟩ (State.CtlStands.trans (.foldl (fun s a => ?_) _ _) ⟨rfl, rfl, rfl⟩)
    exact .foldl (fun s c => s.logDrop_ctlStands p _ c) a.drops s

theorem State.closePort_ctlStands (s : State) (p : Port) : (s.closePort p).CtlStands s :=
  State.CtlStands.trans (.ite (fun _ => ⟨rfl, rfl, rfl⟩) (fun _ => ⟨rfl, rfl, rfl⟩)) (s.closeGate_ctlStands p)

theorem State.gatesOff_ctlStands (s : State) : s.gatesOff.CtlStands s :=
  .foldl (f := fun s p => (s.closeGate p).dropHeld p) (fun s p => .trans ⟨rfl, rfl, rfl⟩ (s.closeGate_ctlStands p)) bothPorts s

@[simp] theorem State.elapse_live (s : State) (dt : Nat) : (s.elapse dt).live = s.live := rfl

theorem State.elapse_ctlStands (s : State) (dt : Nat) : (s.elapse dt).CtlStands s := ⟨rfl, rfl, rfl⟩

theorem State.enterShutdown_ctlStands (p : Port) (point : U32) : (s.enterShutdown p point).CtlStands s :=
  (State.closePort_ctlStands _ p).trans ⟨rfl, rfl, rfl⟩

theorem State.openShutter_ctlStands (p : Port) : (s.openShutter p).CtlStands s :=
  .ite (fun _ => ⟨rfl, rfl, rfl⟩) (fun _ => ⟨rfl, rfl, rfl⟩)

theorem State.alsResume_ctlStands (p : Port) : (s.alsResume p).CtlStands s :=
  .ite (fun _ => (State.openShutter_ctlStands p).trans ⟨rfl, rfl, rfl⟩) fun _ =>
    .ite (fun _ => ⟨rfl, rfl, rfl⟩) fun _ => State.CtlStands.trans (u := State.openShutter _ p) ⟨rfl, rfl, rfl⟩
      ((State.openShutter_ctlStands p).trans ⟨rfl, rfl, rfl⟩)

theorem State.holdPort_ctlStands (p : Port) : (s.holdPort p).CtlStands s :=
  State.CtlStands.trans ⟨rfl, rfl, rfl⟩ (s.closePort_ctlStands p)

theorem State.discardRec_ctlStands (r : RouteId) (p : PRec) : (s.discardRec r p).CtlStands s := by
  refine State.CtlStands.trans (u := s.discardNumbered r) ⟨rfl, rfl, rfl⟩ ?_
  exact ⟨rfl, rfl, rfl⟩

theorem State.startNext_ctlStands (l : Lane) (n : Nat) (s : State) : (State.startNext l n s).CtlStands s := by
  induction n generalizing s with
  | zero => exact ⟨rfl, rfl, rfl⟩
  | succ n ih =>
    unfold State.startNext
    split
    · exact ⟨rfl, rfl, rfl⟩
    · dsimp only
      split
      · exact ⟨rfl, rfl, rfl⟩
      · next t v e =>
        have hv : v.CtlStands s := by
          split at e <;> simp only [Option.some.injEq, Prod.mk.injEq, reduceCtorEq] at e
          all_goals exact e.2 ▸ ⟨rfl, rfl, rfl⟩
        split
        · exact (ih _).trans ((State.discardRec_ctlStands ..).trans hv)
        · exact State.CtlStands.trans ⟨rfl, rfl, rfl⟩ hv

theorem State.enqueueRec_ctlStands (r : RouteId) (p : PRec) : (s.enqueueRec r p).CtlStands s := by
  unfold State.enqueueRec
  extract_lets l s' s1 s2
  have h' : s'.CtlStands s := .ite (fun _ => ⟨rfl, rfl, rfl⟩) (fun _ => ⟨rfl, rfl, rfl⟩)
  exact .ite (fun _ => (State.discardRec_ctlStands ..).trans h') fun _ =>
    .ite (fun _ => (State.discardRec_ctlStands ..).trans h') fun _ =>
      (State.startNext_ctlStands ..).trans (State.CtlStands.trans ⟨rfl, rfl, rfl⟩ h')

theorem State.dropLane_ctlStands (l : Lane) : (s.dropLane l).CtlStands s := by
  refine (State.CtlStands.foldl (f := fun s (t : TxItem) => s.discardRec t.route t.prec) (fun _ t => State.discardRec_ctlStands t.route t.prec) _ _).trans ?_
  refine State.CtlStands.trans ⟨rfl, rfl, rfl⟩ (?_ : State.CtlStands (match s.lanes[l].sending with | some f => _ | none => s) s)
  split <;> exact ⟨rfl, rfl, rfl⟩

theorem State.acknowledge_ctlStands (mask : Nat) : (s.acknowledge mask).CtlStands s :=
  .ite (fun _ => ⟨rfl, rfl, rfl⟩) (fun _ => ⟨rfl, rfl, rfl⟩)

theorem State.stageClear_ctlStands (g : Staging) : (s.stageClear g).CtlStands s := by
  unfold State.stageClear
  exact .ite (fun _ => ⟨rfl, rfl, rfl⟩) (fun _ => ⟨rfl, rfl, rfl⟩)

theorem State.mbxComplete_ctlStands (result : Nat) : (s.mbxComplete result).CtlStands s :=
  .trans (.of_hushed (State.msixEvent_hushed ..)) ⟨rfl, rfl, rfl⟩

theorem State.stageEnd_ctlStands (code detail : Nat) : (s.stageEnd code detail).CtlStands s := by
  unfold State.stageEnd
  split
  · exact ⟨rfl, rfl, rfl⟩
  · next g _ =>
    extract_lets src s1 s2 s3 s4 st
    have h3 : s3.CtlStands s :=
      .ite (fun _ => (State.stageClear_ctlStands g).trans ⟨rfl, rfl, rfl⟩) (fun _ => ⟨rfl, rfl, rfl⟩)
    split
    · have h4 : s4.CtlStands s3 := .ite (fun _ => State.mbxComplete_ctlStands code) (fun _ => ⟨rfl, rfl, rfl⟩)
      exact State.CtlStands.trans ⟨rfl, rfl, rfl⟩ (h4.trans h3)
    · exact .ite (fun _ => h3) (fun _ => State.CtlStands.trans ⟨rfl, rfl, rfl⟩ h3)

theorem State.stageAbort_ctlStands (f : Feeder) : (s.stageAbort f).CtlStands s := by
  unfold State.stageAbort
  split
  · exact .ite (fun _ => State.stageEnd_ctlStands ..) (fun _ => ⟨rfl, rfl, rfl⟩)
  · exact ⟨rfl, rfl, rfl⟩

theorem State.rtOverflow_ctlStands (ring : Fin 3) (i : RtItem) : (s.rtOverflow ring i).CtlStands s :=
  .ite (fun _ => ⟨rfl, rfl, rfl⟩) (fun _ => (State.record_ctlStands _).trans ⟨rfl, rfl, rfl⟩)

theorem State.closeTags_ctlStands (r : RouteId) (p : Port) : (s.closeTags r p).CtlStands s :=
  .ite (fun _ => ⟨rfl, rfl, rfl⟩) (fun _ => ⟨rfl, rfl, rfl⟩)

theorem State.closeRingTags_ctlStands (p : Port) : (s.closeRingTags p).CtlStands s :=
  .ite (fun _ => ⟨rfl, rfl, rfl⟩) (fun _ => .trans (.of_hushed (State.toRing_hushed ..)) ⟨rfl, rfl, rfl⟩)

theorem State.setPll_ctlStands (k : Pll) (f : PllUnit → PllUnit) : (s.setPll k f).CtlStands s := by
  cases k <;> exact ⟨rfl, rfl, rfl⟩

theorem State.pllFailed_ctlStands (k : Pll) : (s.pllFailed k).CtlStands s :=
  State.CtlStands.trans ⟨rfl, rfl, rfl⟩ ((State.setPll_ctlStands k _).trans (.ite (fun _ => ⟨rfl, rfl, rfl⟩) (fun _ => ⟨rfl, rfl, rfl⟩)))

theorem State.pllCoast_ctlStands (k : Pll) : (s.pllCoast k).CtlStands s := by
  have hk (f : PllUnit → PllUnit) : (s.setPll k f).CtlStands s := State.setPll_ctlStands k f
  unfold State.pllCoast
  split
  · exact .ite (fun _ => (State.pllFailed_ctlStands k).trans (hk _)) (fun _ => hk _)
  · exact hk _
  · exact hk _
  all_goals exact ⟨rfl, rfl, rfl⟩

theorem State.bothCoast_ctlStands : s.bothCoast.CtlStands s := (State.pllCoast_ctlStands _).trans (State.pllCoast_ctlStands _)

theorem mgmtServe_leavesCtl (dt : Nat) (l : Lane) (r : MgmtReq) (op : Nat) (f : State → Served) (h : s.live = false) :
    LeavesCtl s (.next ((s.elapse dt).mgmtServe l r op f)) := by
  have hl : (s.elapse dt).laneUp l = false := by simp [State.laneUp, State.laneOn, State.elapse_live, h]
  rw [State.mgmtServe, hl]
  exact ⟨rfl, rfl, rfl⟩

theorem plkServe_leavesCtl (dt : Nat) (r : MgmtReq) (op : Nat) (f : State → Served) (h : s.live = false) :
    LeavesCtl s (.next ((s.elapse dt).plkServe r op f)) := by
  have hl : (s.elapse dt).plkOn = false := by simp [State.plkOn, State.elapse_live, h]
  rw [State.plkServe, hl]
  exact ⟨rfl, rfl, rfl⟩

theorem State.firstLock_ctlStands : s.firstLock.CtlStands s := by
  unfold State.firstLock
  exact .ite (fun _ => ⟨rfl, rfl, rfl⟩) (fun _ => ⟨rfl, rfl, rfl⟩)

theorem State.afterLockA_ctlStands (was : PllSt) : (s.afterLockA was).CtlStands s := by
  unfold State.afterLockA
  exact .ite (fun _ => ⟨rfl, rfl, rfl⟩) fun _ => .ite (fun _ => ⟨rfl, rfl, rfl⟩) fun _ =>
    .ite (fun _ => ⟨rfl, rfl, rfl⟩) (fun _ => ⟨rfl, rfl, rfl⟩)

theorem State.recognised_ctlStands (lowNs never sure : Nat) :
    (s.recognised lowNs never sure).2.CtlStands s ∧ (s.recognised lowNs never sure).2.power = s.power := by
  unfold State.recognised
  split_ifs <;> exact ⟨⟨rfl, rfl, rfl⟩, rfl⟩

/-! ### Commands -/

@[simp] theorem execPowerFailWarning_leavesCtl (dt : Nat) (lowNs : Nat) (outMask : BitVec 8) (h : s.live = false) :
    LeavesCtl s (execPowerFailWarning dt lowNs outMask s) := by
  obtain ⟨hc, hp⟩ := State.recognised_ctlStands (s := s.elapse dt) lowNs 20 100
  have hup : s.power.phase ≠ .up := by simpa [State.live] using h
  unfold execPowerFailWarning
  dsimp only
  rw [hp]
  split
  · split
    · exact hc
    · next e => exact absurd e hup
    · exact hc
  · exact hc

@[simp] theorem execSupplyMonitorTrip_leavesCtl (dt : Nat) (outMask : BitVec 8) (low belowThreshold : Bool) (h : s.live = false) :
    LeavesCtl s (execSupplyMonitorTrip dt outMask low belowThreshold s) := by
  have hp : (s.elapse dt).power.phase ≠ .up := by simpa [State.live] using h
  unfold execSupplyMonitorTrip
  dsimp only
  split
  · next e => exact absurd e hp
  all_goals exact ⟨rfl, rfl, rfl⟩

@[simp] theorem execCfgLoadStart_leavesCtl (dt : Nat) (h : s.live = false) : LeavesCtl s (execCfgLoadStart dt s) := by
  simp [execCfgLoadStart, h]

@[simp] theorem execImageReadDone_leavesCtl (dt : Nat) (h : s.live = false) : LeavesCtl s (execImageReadDone dt s) := by
  simp only [execImageReadDone]
  (repeat' split) <;> simp_all

@[simp] theorem execLsrRelease_leavesCtl (dt : Nat) (c : StartChecks) (h : s.live = false) :
    LeavesCtl s (execLsrRelease dt c s) := by
  simp [execLsrRelease, h]

@[simp] theorem execLaserDieInWindow_leavesCtl (x : Timed Int) (h : s.live = false) :
    LeavesCtl s (execLaserDieInWindow x s) := by
  simp [execLaserDieInWindow, h, State.lsrOn]

@[simp] theorem execInjectionLockDetected_leavesCtl (dt : Nat) (h : s.live = false) :
    LeavesCtl s (execInjectionLockDetected dt s) := by
  simp [execInjectionLockDetected, h, State.lsrOn]

@[simp] theorem execWavelengthTuned_leavesCtl (x : Timed Int) (h : s.live = false) : LeavesCtl s (execWavelengthTuned x s) := by
  simp [execWavelengthTuned, h, State.lsrOn]

@[simp] theorem execLaserReady_leavesCtl (x : Timed (Int × Int)) (h : s.live = false) : LeavesCtl s (execLaserReady x s) := by
  simp [execLaserReady, h, State.lsrOn]

@[simp] theorem execInjectionLockLost_leavesCtl (dt : Nat) (h : s.live = false) : LeavesCtl s (execInjectionLockLost dt s) := by
  simp [execInjectionLockLost, h, State.lsrOn]

@[simp] theorem execRelockAttemptTimeout_leavesCtl (dt : Nat) (h : s.live = false) :
    LeavesCtl s (execRelockAttemptTimeout dt s) := by
  simp [execRelockAttemptTimeout, h, State.lsrOn]

@[simp] theorem execWavelengthOutOfWindow_leavesCtl (dt : Nat) (err : Int) (h : s.live = false) :
    LeavesCtl s (execWavelengthOutOfWindow dt err s) := by
  simp [execWavelengthOutOfWindow, h, State.lsrOn]

@[simp] theorem execWavelengthRecoveryTimeout_leavesCtl (dt : Nat) : LeavesCtl s (execWavelengthRecoveryTimeout dt s) := by
  simp only [execWavelengthRecoveryTimeout]
  (repeat' split) <;> simp_all [State.lsrOn]

@[simp] theorem execDieTempOutOfWindow_leavesCtl (dt : Nat) (e : DieError) (h : s.live = false) :
    LeavesCtl s (execDieTempOutOfWindow dt e s) := by
  simp [execDieTempOutOfWindow, h, State.lsrOn]

@[simp] theorem execDieTempFenceTimeout_leavesCtl (x : Timed DieError) (h : s.live = false) :
    LeavesCtl s (execDieTempFenceTimeout x s) := by
  simp [execDieTempFenceTimeout, h, State.lsrOn]

@[simp] theorem execDieOverTemperature_leavesCtl (dt : Nat) : LeavesCtl s (execDieOverTemperature dt s) := by
  unfold execDieOverTemperature
  dsimp only
  have hg : (s.elapse dt).gatesOff.CtlStands s := (State.gatesOff_ctlStands _).trans ⟨rfl, rfl, rfl⟩
  generalize (s.elapse dt).gatesOff = v at hg ⊢
  exact .ite (fun _ => State.CtlStands.trans (u := v) ⟨rfl, rfl, rfl⟩ hg) (fun _ => hg)

@[simp] theorem execLaserPowerLow_leavesCtl (dt : Nat) (permille : Nat) (h : s.live = false) :
    LeavesCtl s (execLaserPowerLow dt permille s) := by
  simp [execLaserPowerLow, h, State.lsrOn]

@[simp] theorem execTecSaturated_leavesCtl (x : Timed Nat) : LeavesCtl s (execTecSaturated x s) := by
  unfold execTecSaturated
  dsimp only
  exact .ite (fun _ => (State.warn_ctlStands ..).trans ⟨rfl, rfl, rfl⟩) fun _ => .ite (fun _ => ⟨rfl, rfl, rfl⟩) (fun _ => ⟨rfl, rfl, rfl⟩)

@[simp] theorem execLaunchPeakHigh_leavesCtl (dt : Nat) (p : Port) (h : s.live = false) :
    LeavesCtl s (execLaunchPeakHigh dt p s) := by
  simp [execLaunchPeakHigh, h, State.launchOn]

@[simp] theorem execLaunchPeakLow_leavesCtl (dt : Nat) (p : Port) (k : PeakBelow) (h : s.live = false) :
    LeavesCtl s (execLaunchPeakLow dt p k s) := by
  simp [execLaunchPeakLow, h, State.launchOn]

@[simp] theorem execLeakageBetweenPulses_leavesCtl (dt : Nat) (p : Port) (h : s.live = false) :
    LeavesCtl s (execLeakageBetweenPulses dt p s) := by
  simp [execLeakageBetweenPulses, h, State.launchOn]

@[simp] theorem execGateHeldTooLong_leavesCtl (dt : Nat) (p : Port) : LeavesCtl s (execGateHeldTooLong dt p s) := by
  unfold execGateHeldTooLong
  dsimp only
  have hg : ((s.elapse dt).closeGate p).CtlStands s := (State.closeGate_ctlStands _ p).trans ⟨rfl, rfl, rfl⟩
  generalize (s.elapse dt).closeGate p = v at hg
  split
  · exact .ite (fun _ => State.CtlStands.trans (u := v) ⟨rfl, rfl, rfl⟩ hg) (fun _ => ⟨rfl, rfl, rfl⟩)
  · exact ⟨rfl, rfl, rfl⟩

@[simp] theorem execLoPowerOutOfRange_leavesCtl (dt : Nat) (p : Port) (permille : Nat) (h : s.live = false) :
    LeavesCtl s (execLoPowerOutOfRange dt p permille s) := by
  simp [execLoPowerOutOfRange, h, State.launchOn]

@[simp] theorem execPhotodiodeFault_leavesCtl (dt : Nat) (p : Port) (percent : Nat) (h : s.live = false) :
    LeavesCtl s (execPhotodiodeFault dt p percent s) := by
  simp [execPhotodiodeFault, h, State.launchOn]

@[simp] theorem execPllLockWindow_leavesCtl (dt : Nat) (k : Pll) (count : Nat) : LeavesCtl s (execPllLockWindow dt k count s) := by
  have hk (v : State) (hv : v.CtlStands s) (f : PllUnit → PllUnit) : (v.setPll k f).CtlStands s :=
    (State.setPll_ctlStands k f).trans hv
  unfold execPllLockWindow
  extract_lets u good x u1 u2 u3
  have h1 : u1.CtlStands s := .ite (fun _ => ⟨rfl, rfl, rfl⟩) (fun _ => ⟨rfl, rfl, rfl⟩)
  have h3 : u3.CtlStands s := by
    refine hk u2 ?_ _
    cases k with
    | a => exact State.firstLock_ctlStands.trans h1
    | d => exact h1
  have hu : u.CtlStands s := ⟨rfl, rfl, rfl⟩
  split
  iterate 2
    · split
      · split
        · cases k with
          | a => exact (State.afterLockA_ctlStands _).trans h3
          | d => exact h3
        · exact hk u hu _
      · exact hk u hu _
  · split
    · exact hu
    · exact State.bothCoast_ctlStands.trans hu
  all_goals exact hu

@[simp] theorem execPllAcquireTimeout_leavesCtl (dt : Nat) (k : Pll) : LeavesCtl s (execPllAcquireTimeout dt k s) := by
  unfold execPllAcquireTimeout
  dsimp only
  exact .ite (fun _ => .ite (fun _ => (State.pllFailed_ctlStands k).trans ⟨rfl, rfl, rfl⟩)
    (fun _ => (State.setPll_ctlStands k _).trans ⟨rfl, rfl, rfl⟩)) (fun _ => ⟨rfl, rfl, rfl⟩)

@[simp] theorem execPllRelockTimeout_leavesCtl (dt : Nat) (k : Pll) : LeavesCtl s (execPllRelockTimeout dt k s) := by
  unfold execPllRelockTimeout
  dsimp only
  exact .ite (fun _ => (State.pllCoast_ctlStands k).trans ⟨rfl, rfl, rfl⟩) (fun _ => ⟨rfl, rfl, rfl⟩)

@[simp] theorem execRefclkLost_leavesCtl (dt : Nat) : LeavesCtl s (execRefclkLost dt s) := by
  unfold execRefclkLost
  dsimp only
  exact State.CtlStands.trans State.bothCoast_ctlStands ⟨rfl, rfl, rfl⟩

@[simp] theorem execPllCoastRelock_leavesCtl (dt : Nat) (k : Pll) : LeavesCtl s (execPllCoastRelock dt k s) := by
  unfold execPllCoastRelock
  dsimp only
  exact .ite (fun _ => (State.setPll_ctlStands k _).trans ⟨rfl, rfl, rfl⟩) (fun _ => ⟨rfl, rfl, rfl⟩)

@[simp] theorem execPllCoastLimit_leavesCtl (dt : Nat) (k : Pll) : LeavesCtl s (execPllCoastLimit dt k s) := by
  unfold execPllCoastLimit
  dsimp only
  exact .ite (fun _ => (State.pllFailed_ctlStands k).trans ⟨rfl, rfl, rfl⟩) (fun _ => ⟨rfl, rfl, rfl⟩)

@[simp] theorem execSyncInEdge_leavesCtl (dt : Nat) (m : TiuMeas) (lowPeriods : Nat) (offset : Int) (h : s.live = false) :
    LeavesCtl s (execSyncInEdge dt m lowPeriods offset s) := by
  simp [execSyncInEdge, h]

@[simp] theorem execSyncWaitTimeout_leavesCtl (dt : Nat) (h : s.live = false) : LeavesCtl s (execSyncWaitTimeout dt s) := by
  simp [execSyncWaitTimeout, h]

@[simp] theorem execSyncEdgeTimeout_leavesCtl (dt : Nat) (h : s.live = false) : LeavesCtl s (execSyncEdgeTimeout dt s) := by
  simp [execSyncEdgeTimeout, h]

@[simp] theorem execSyncFrameReceived_leavesCtl (dt : Nat) (slots : List Bool) (h : s.live = false) :
    LeavesCtl s (execSyncFrameReceived dt slots s) := by
  simp [execSyncFrameReceived, h]

@[simp] theorem execPpsInEdge_leavesCtl (dt : Nat) (m : TiuMeas) (h : s.live = false) : LeavesCtl s (execPpsInEdge dt m s) := by
  simp [execPpsInEdge, h]

@[simp] theorem execPpsHoldoverTimeout_leavesCtl (dt : Nat) (h : s.live = false) :
    LeavesCtl s (execPpsHoldoverTimeout dt s) := by
  simp [execPpsHoldoverTimeout, h]

@[simp] theorem execDeviceTimeWrap_leavesCtl : LeavesCtl s (execDeviceTimeWrap s) := by
  unfold execDeviceTimeWrap
  split
  · exact s.elapse_ctlStands _
  · exact ⟨rfl, rfl, rfl⟩

@[simp] theorem execPpsOutEdge_leavesCtl (dt : Nat) : LeavesCtl s (execPpsOutEdge dt s) := by
  simp only [execPpsOutEdge]
  (repeat' split) <;> simp_all

@[simp] theorem execSyncOutSend_leavesCtl (dt : Nat) : LeavesCtl s (execSyncOutSend dt s) := by
  simp only [execSyncOutSend]
  (repeat' split) <;> simp_all

@[simp] theorem execGroupStart_leavesCtl (dt : Nat) (p : Port) (h : s.live = false) : LeavesCtl s (execGroupStart dt p s) := by
  simp [execGroupStart, h]

@[simp] theorem execPleatShotLaunch_leavesCtl (dt : Nat) (p : Port) (k : Pleat) (h : s.live = false) :
    LeavesCtl s (execPleatShotLaunch dt p k s) := by
  have hm : (s.elapse dt).mayIssue p = false := by
    simp [State.mayIssue, State.mayEmit, State.commonMayEmit, State.elapse_live, h]
  have hd (f : Sht → Sht) : ((s.elapse dt).setSht p f).decOn p = false := by
    have hl : ((s.elapse dt).setSht p f).live = false := h
    simp [State.decOn, hl]
  unfold execPleatShotLaunch
  dsimp only
  rw [hm]
  split
  · refine .ite (fun _ => ?_) (fun _ => ⟨rfl, rfl, rfl⟩)
    simp only [State.drainMissing, hd]
    exact ⟨rfl, rfl, rfl⟩
  · exact ⟨rfl, rfl, rfl⟩

@[simp] theorem execTemperatureShotLaunch_leavesCtl (dt : Nat) (p : Port) (h : s.live = false) :
    LeavesCtl s (execTemperatureShotLaunch dt p s) := by
  have hm : (s.elapse dt).mayIssue p = false := by
    simp [State.mayIssue, State.mayEmit, State.commonMayEmit, State.elapse_live, h]
  unfold execTemperatureShotLaunch
  dsimp only
  rw [hm]
  split
  · exact .ite (fun _ => ⟨rfl, rfl, rfl⟩) (fun _ => ⟨rfl, rfl, rfl⟩)
  · exact ⟨rfl, rfl, rfl⟩

@[simp] theorem execShotGateClose_leavesCtl (dt : Nat) (p : Port) : LeavesCtl s (execShotGateClose dt p s) := by
  simp only [execShotGateClose]
  (repeat' split) <;> simp_all

@[simp] theorem execLaunchMonitorEdge_leavesCtl (dt : Nat) (p : Port) (m : TiuMeas) (peak : Int) (energy : Nat) (h : s.live = false) :
    LeavesCtl s (execLaunchMonitorEdge dt p m peak energy s) := by
  simp only [execLaunchMonitorEdge]
  (repeat' split) <;> simp_all

@[simp] theorem execLaunchTimestampTimeout_leavesCtl (dt : Nat) (p : Port) (h : s.live = false) :
    LeavesCtl s (execLaunchTimestampTimeout dt p s) := by
  simp only [execLaunchTimestampTimeout]
  (repeat' split) <;> simp_all

@[simp] theorem execTriggerEdge_leavesCtl (dt : Nat) (input : Fin 2) (level : Bool) (m : TiuMeas) (h : s.live = false) :
    LeavesCtl s (execTriggerEdge dt input level m s) := by
  have hl (x : Vector Bool 2) : { s.elapse dt with trigLevel := x }.live = false := h
  unfold execTriggerEdge
  dsimp only
  rw [hl]
  exact .ite (fun _ => ⟨rfl, rfl, rfl⟩) (fun _ => ⟨rfl, rfl, rfl⟩)

@[simp] theorem execTriggerEdgeAccepted_leavesCtl (dt : Nat) (p : Port) (h : s.live = false) :
    LeavesCtl s (execTriggerEdgeAccepted dt p s) := by
  simp only [execTriggerEdgeAccepted]
  (repeat' split) <;> simp_all

@[simp] theorem execTriggerTimeout_leavesCtl (dt : Nat) (p : Port) (h : s.live = false) :
    LeavesCtl s (execTriggerTimeout dt p s) := by
  simp [execTriggerTimeout, h]

@[simp] theorem execRecordNotice_leavesCtl (dt : Nat) (p : Port) (words : List U64) (lags : List SeamLag) :
    LeavesCtl s (execRecordNotice dt p words lags s) := by
  simp only [execRecordNotice]
  (repeat' split) <;> simp_all [State.acqOn]

@[simp] theorem execCalUpdate_leavesCtl (dt : Nat) (e : UpdateEnd) (h : s.live = false) : LeavesCtl s (execCalUpdate dt e s) := by
  have hc : (s.elapse dt).calOn e.port = false := by simp [State.calOn, State.acqOn, State.elapse_live, h]
  unfold execCalUpdate
  dsimp only
  split
  · exact ⟨rfl, rfl, rfl⟩
  · rw [hc]
    exact .ite (fun _ => ⟨rfl, rfl, rfl⟩) (fun _ => ⟨rfl, rfl, rfl⟩)

@[simp] theorem execSliceSubstitution_leavesCtl (dt : Nat) (p : Port) (h : s.live = false) :
    LeavesCtl s (execSliceSubstitution dt p s) := by
  simp only [execSliceSubstitution]
  (repeat' split) <;> simp_all [State.acqOn]

@[simp] theorem execPhaseRecordProcess_leavesCtl (dt : Nat) (p : Port) (q : QueueRead) (h : s.live = false) :
    LeavesCtl s (execPhaseRecordProcess dt p q s) := by
  simp only [execPhaseRecordProcess]
  (repeat' split) <;> simp_all [State.decOn]

@[simp] theorem execRamanRecordClose_leavesCtl (dt : Nat) (p : Port) (as st : List RamanSample) (h : s.live = false) :
    LeavesCtl s (execRamanRecordClose dt p as st s) := by
  simp only [execRamanRecordClose]
  (repeat' split) <;> simp_all [State.ramanOn]

@[simp] theorem execRamanOffsetMeasure_leavesCtl (dt : Nat) (p : Port) (as st : List Int) (h : s.live = false) :
    LeavesCtl s (execRamanOffsetMeasure dt p as st s) := by
  simp [execRamanOffsetMeasure, h]

@[simp] theorem execDtsUpdateBoundary_leavesCtl (dt : Nat) (p : Port) : LeavesCtl s (execDtsUpdateBoundary dt p s) := by
  simp only [execDtsUpdateBoundary]
  (repeat' split) <;> simp_all [State.ramanOn]

@[simp] theorem execBattSwap_leavesCtl (dt : Nat) (p : Port) (corrected uncorrectable : Nat) (h : s.live = false) :
    LeavesCtl s (execBattSwap dt p corrected uncorrectable s) := by
  simp only [execBattSwap]
  (repeat' split) <;> simp_all [State.ramanOn]

@[simp] theorem execDtsProfileDone_leavesCtl (dt : Nat) (p : Port) (h : s.live = false) :
    LeavesCtl s (execDtsProfileDone dt p s) := by
  simp only [execDtsProfileDone]
  (repeat' split) <;> simp_all [State.ramanOn]

@[simp] theorem execRefHoldExpiry_leavesCtl (dt : Nat) (p : Port) (h : s.live = false) :
    LeavesCtl s (execRefHoldExpiry dt p s) := by
  simp [execRefHoldExpiry, h]

@[simp] theorem execSupPassStart_leavesCtl (dt : Nat) (selfTestOk : Bool) (h : s.live = false) :
    LeavesCtl s (execSupPassStart dt selfTestOk s) := by
  simp [execSupPassStart, h, State.supOn]

@[simp] theorem execSupConversionDone_leavesCtl (dt : Nat) (code : Int) (h : s.live = false) :
    LeavesCtl s (execSupConversionDone dt code s) := by
  simp [execSupConversionDone, h, State.supOn]

@[simp] theorem execSupCoarseValue_leavesCtl (dt : Nat) (code : Int) (h : s.live = false) :
    LeavesCtl s (execSupCoarseValue dt code s) := by
  simp [execSupCoarseValue, h, State.supOn]

@[simp] theorem execSnapshotCopy_leavesCtl (dt : Nat) (poisoned : List Nat) (h : s.live = false) :
    LeavesCtl s (execSnapshotCopy dt poisoned s) := by
  simp only [execSnapshotCopy]
  (repeat' split) <;> simp_all [State.memServes]

@[simp] theorem execAlarmDemandNotice_leavesCtl (dt : Nat) (h : s.live = false) : LeavesCtl s (execAlarmDemandNotice dt s) := by
  simp only [execAlarmDemandNotice]
  (repeat' split) <;> simp_all

@[simp] theorem execAlarmMinAssertExpiry_leavesCtl (dt : Nat) (o : Fin 4) (h : s.live = false) :
    LeavesCtl s (execAlarmMinAssertExpiry dt o s) := by
  simp [execAlarmMinAssertExpiry, h]

@[simp] theorem execOperatorStateNotice_leavesCtl (dt : Nat) (h : s.live = false) :
    LeavesCtl s (execOperatorStateNotice dt s) := by
  simp [execOperatorStateNotice, h]

@[simp] theorem execUNoticeRepeat_leavesCtl (dt : Nat) (h : s.live = false) : LeavesCtl s (execUNoticeRepeat dt s) := by
  simp [execUNoticeRepeat, h]

@[simp] theorem execRegionDeltaSample_leavesCtl (dt : Nat) (mv : List Nat) (halfK : List Int) (h : s.live = false) :
    LeavesCtl s (execRegionDeltaSample dt mv halfK s) := by
  simp [execRegionDeltaSample, h]

@[simp] theorem execWarningClear_leavesCtl (dt : Nat) (code : U32) (h : s.live = false) :
    LeavesCtl s (execWarningClear dt code s) := by
  simp only [execWarningClear]
  (repeat' split) <;> simp_all

@[simp] theorem execMarginMeasure_leavesCtl (dt : Nat) (capacities : List (List Nat)) (h : s.live = false) :
    LeavesCtl s (execMarginMeasure dt capacities s) := by
  simp [execMarginMeasure, h]

@[simp] theorem execLinkWordError_leavesCtl (dt : Nat) (node : Region) (uncorrectable : Bool) (hit : FlitHit) (h : s.live = false) :
    LeavesCtl s (execLinkWordError dt node uncorrectable hit s) := by
  simp [execLinkWordError, h]

@[simp] theorem execStallDetected_leavesCtl (dt : Nat) (region : Region) (stage : Nat) (h : s.live = false) :
    LeavesCtl s (execStallDetected dt region stage s) := by
  simp [execStallDetected, h]

@[simp] theorem execMemInitStart_leavesCtl (dt : Nat) (vddqMv : Nat) (h : s.live = false) :
    LeavesCtl s (execMemInitStart dt vddqMv s) := by
  simp [execMemInitStart, h, State.memStarts]

@[simp] theorem execMemVerifyDone_leavesCtl (dt : Nat) (v : VerifyOutcome) (h : s.live = false) :
    LeavesCtl s (execMemVerifyDone dt v s) := by
  simp [execMemVerifyDone, h, State.memStarts]

@[simp] theorem execMemZeroFillDone_leavesCtl (dt : Nat) (h : s.live = false) : LeavesCtl s (execMemZeroFillDone dt s) := by
  simp [execMemZeroFillDone, h, State.memStarts]

@[simp] theorem execMemSweepDone_leavesCtl (dt : Nat) (entries : List (Nat × Nat)) (h : s.live = false) :
    LeavesCtl s (execMemSweepDone dt entries s) := by
  simp [execMemSweepDone, h, State.memStarts]

@[simp] theorem execRefreshDue_leavesCtl (dt : Nat) (h : s.live = false) : LeavesCtl s (execRefreshDue dt s) := by
  simp [execRefreshDue, h, State.memServes]

@[simp] theorem execDramTempPoll_leavesCtl (dt : Nat) (t : TempPoll) (h : s.live = false) :
    LeavesCtl s (execDramTempPoll dt t s) := by
  simp [execDramTempPoll, h]

@[simp] theorem execSelfRefreshEntry_leavesCtl (dt : Nat) (abandoned : Bool) (h : s.live = false) :
    LeavesCtl s (execSelfRefreshEntry dt abandoned s) := by
  simp [execSelfRefreshEntry, h]

@[simp] theorem execSelfRefreshExit_leavesCtl (dt : Nat) (h : s.live = false) : LeavesCtl s (execSelfRefreshExit dt s) := by
  simp [execSelfRefreshExit, h]

@[simp] theorem execMemAccessBoundary_leavesCtl (dt : Nat) (a : AccessMeet) (h : s.live = false) :
    LeavesCtl s (execMemAccessBoundary dt a s) := by
  simp [execMemAccessBoundary, h, State.memServes]

@[simp] theorem execScrubRequest_leavesCtl (dt : Nat) (h : s.live = false) : LeavesCtl s (execScrubRequest dt s) := by
  simp [execScrubRequest, h, State.memServes]

@[simp] theorem execRequestOverdue_leavesCtl (dt : Nat) (port : Fin 4) : LeavesCtl s (execRequestOverdue dt port s) := by
  simp only [execRequestOverdue]
  split
  · exact ⟨rfl, rfl, rfl⟩
  · rename_i v e
    obtain ⟨f, rfl⟩ : ∃ f, v = (s.elapse dt).setMem f := by
      split at e
      · cases e
      · split at e
        · obtain ⟨-, ⟨⟩⟩ := Option.ite_none_right_eq_some.mp e
          exact ⟨_, rfl⟩
        · cases e
      · obtain ⟨_, _, rfl⟩ := Option.map_eq_some_iff.mp e
        exact ⟨_, rfl⟩
      · split at e
        · obtain ⟨-, ⟨⟩⟩ := Option.ite_none_right_eq_some.mp e
          exact ⟨_, rfl⟩
        · cases e
    exact ⟨rfl, rfl, rfl⟩

@[simp] theorem execRtItemArrival_leavesCtl (dt : Nat) (ring : Fin 3) : LeavesCtl s (execRtItemArrival dt ring s) := by
  unfold execRtItemArrival
  dsimp only
  split
  · exact ⟨rfl, rfl, rfl⟩
  · exact .ite (fun _ => ⟨rfl, rfl, rfl⟩) fun _ => .ite (fun _ => ⟨rfl, rfl, rfl⟩) fun _ => .ite (fun _ => ⟨rfl, rfl, rfl⟩) fun _ =>
      .ite (fun _ => (State.rtOverflow_ctlStands ..).trans ⟨rfl, rfl, rfl⟩) (fun _ => ⟨rfl, rfl, rfl⟩)

@[simp] theorem execRingFlush_leavesCtl (dt : Nat) (ring : Fin 3) : LeavesCtl s (execRingFlush dt ring s) := by
  simp only [execRingFlush]
  (repeat' split) <;> simp_all

@[simp] theorem execCoderFlush_leavesCtl (dt : Nat) (c : Consumer) (h : s.live = false) :
    LeavesCtl s (execCoderFlush dt c s) := by
  simp only [execCoderFlush]
  (repeat' split) <;> simp_all

@[simp] theorem execOutRecordEnqueue_leavesCtl (dt : Nat) (r : RouteId) : LeavesCtl s (execOutRecordEnqueue dt r s) := by
  unfold execOutRecordEnqueue
  dsimp only
  split
  · exact ⟨rfl, rfl, rfl⟩
  · exact (State.enqueueRec_ctlStands ..).trans ⟨rfl, rfl, rfl⟩

@[simp] theorem execHeartbeatTimer_leavesCtl (dt : Nat) (r : RouteId) : LeavesCtl s (execHeartbeatTimer dt r s) := by
  simp [execHeartbeatTimer]

@[simp] theorem execHousekeepingTimer_leavesCtl (dt : Nat) (r : RouteId) (h : s.live = false) :
    LeavesCtl s (execHousekeepingTimer dt r s) := by
  simp [execHousekeepingTimer, h]

@[simp] theorem execTimingRecordClose_leavesCtl (dt : Nat) (p : Port) : LeavesCtl s (execTimingRecordClose dt p s) := by
  unfold execTimingRecordClose
  extract_lets u due v
  have hv : v.CtlStands s := (State.CtlStands.foldl (fun v r => .ite (fun _ => v.closeTags_ctlStands r p) (fun _ => ⟨rfl, rfl, rfl⟩)) _ _).trans ⟨rfl, rfl, rfl⟩
  split
  · exact (State.closeRingTags_ctlStands p).trans hv
  · exact hv

@[simp] theorem execArpRefresh_leavesCtl (dt : Nat) (l : Lane) (h : s.live = false) : LeavesCtl s (execArpRefresh dt l s) := by
  simp [execArpRefresh, h, State.laneOn, State.laneUp]

@[simp] theorem execArpRetryTimeout_leavesCtl (dt : Nat) (l : Lane) (h : s.live = false) :
    LeavesCtl s (execArpRetryTimeout dt l s) := by
  simp [execArpRetryTimeout, h, State.laneOn, State.laneUp]

@[simp] theorem execArpFrameReceived_leavesCtl (dt : Nat) (l : Lane) (f : ArpFrame) (h : s.live = false) :
    LeavesCtl s (execArpFrameReceived dt l f s) := by
  simp [execArpFrameReceived, h, State.laneOn, State.laneUp]

@[simp] theorem execEthLinkUp_leavesCtl (dt : Nat) (l : Lane) (h : s.live = false) : LeavesCtl s (execEthLinkUp dt l s) := by
  simp [execEthLinkUp, h, State.laneOn]

@[simp] theorem execEthLinkDown_leavesCtl (dt : Nat) (l : Lane) : LeavesCtl s (execEthLinkDown dt l s) := by
  unfold execEthLinkDown
  dsimp only
  exact .ite (fun _ => State.CtlStands.trans ⟨rfl, rfl, rfl⟩ ((State.dropLane_ctlStands l).trans ⟨rfl, rfl, rfl⟩)) (fun _ => ⟨rfl, rfl, rfl⟩)

@[simp] theorem execIcmpEchoRequest_leavesCtl (dt : Nat) (l : Lane) (srcMac : U48) (srcIp dstIp : U32) (data : List Byte) (h : s.live = false) :
    LeavesCtl s (execIcmpEchoRequest dt l srcMac srcIp dstIp data s) := by
  simp [execIcmpEchoRequest, h, State.laneOn, State.laneUp]

@[simp] theorem execEthFrameDiscarded_leavesCtl (dt : Nat) (l : Lane) (h : s.live = false) :
    LeavesCtl s (execEthFrameDiscarded dt l s) := by
  simp [execEthFrameDiscarded, h, State.laneOn, State.laneUp]

@[simp] theorem execMgmtStatusRead_leavesCtl (dt : Nat) (l : Lane) (r : MgmtReq) (failed : Bool) (h : s.live = false) :
    LeavesCtl s (execMgmtStatusRead dt l r failed s) :=
  mgmtServe_leavesCtl dt l r 1 _ h

@[simp] theorem execMgmtBlackBoxRead_leavesCtl (dt : Nat) (l : Lane) (r : MgmtReq) (h : s.live = false) :
    LeavesCtl s (execMgmtBlackBoxRead dt l r s) :=
  mgmtServe_leavesCtl dt l r 2 _ h

@[simp] theorem execMgmtEcho_leavesCtl (dt : Nat) (l : Lane) (r : MgmtReq) (h : s.live = false) :
    LeavesCtl s (execMgmtEcho dt l r s) :=
  mgmtServe_leavesCtl dt l r 3 _ h

@[simp] theorem execMgmtUnknownOp_leavesCtl (dt : Nat) (l : Lane) (r : MgmtReq) (h : s.live = false) :
    LeavesCtl s (execMgmtUnknownOp dt l r s) :=
  mgmtServe_leavesCtl dt l r _ _ h

@[simp] theorem execPcieConfigRequest_leavesCtl (dt : Nat) (isWrite : Bool) (reg : Nat) (value : U32) (h : s.live = false) :
    LeavesCtl s (execPcieConfigRequest dt isWrite reg value s) := by
  simp [execPcieConfigRequest, h]

@[simp] theorem execPciePowerStateChange_leavesCtl (dt : Nat) (d3hot : Bool) (h : s.live = false) :
    LeavesCtl s (execPciePowerStateChange dt d3hot s) := by
  simp [execPciePowerStateChange, h, State.pciePresent]

@[simp] theorem execPcieFunctionLevelReset_leavesCtl (dt : Nat) (h : s.live = false) :
    LeavesCtl s (execPcieFunctionLevelReset dt s) := by
  simp [execPcieFunctionLevelReset, h, State.pciePresent]

@[simp] theorem execPcieLinkReset_leavesCtl (dt : Nat) (kind : LinkReset) (h : s.live = false) :
    LeavesCtl s (execPcieLinkReset dt kind s) := by
  simp [execPcieLinkReset, h, State.pciePresent]

@[simp] theorem execBar2Read_leavesCtl (dt : Nat) (offset length : Nat) (h : s.live = false) :
    LeavesCtl s (execBar2Read dt offset length s) := by
  simp [execBar2Read, h, State.pciePresent]

@[simp] theorem execCounterLowWordRead_leavesCtl (dt : Nat) (path : AccessPath) (offset length : Nat) (failed : Bool) (h : s.live = false) :
    LeavesCtl s (execCounterLowWordRead dt path offset length failed s) := by
  simp only [execCounterLowWordRead]
  (repeat' split) <;> simp_all [State.pciePresent]

@[simp] theorem execMsixTableWrite_leavesCtl (dt : Nat) (offset : Nat) (value : U32) (h : s.live = false) :
    LeavesCtl s (execMsixTableWrite dt offset value s) := by
  simp [execMsixTableWrite, h, State.pciePresent, State.pcieServes, State.postedUr]

@[simp] theorem execMsixHoldoffExpiry_leavesCtl (dt : Nat) (v : Fin 8) : LeavesCtl s (execMsixHoldoffExpiry dt v s) := by
  unfold execMsixHoldoffExpiry
  dsimp only
  exact .ite (fun _ => .trans (.of_hushed (State.msixEvent_hushed ..)) ⟨rfl, rfl, rfl⟩) (fun _ => ⟨rfl, rfl, rfl⟩)

@[simp] theorem execRegisterWrite_leavesCtl (dt : Nat) (offset : Nat) (data : List Byte) (h : s.live = false) :
    LeavesCtl s (execRegisterWrite dt offset data s) := by
  simp [execRegisterWrite, h, State.pciePresent, State.pcieServes, State.postedUr]

@[simp] theorem execMbxUnlockWrite_leavesCtl (dt : Nat) (word : U32) (h : s.live = false) :
    LeavesCtl s (execMbxUnlockWrite dt word s) := by
  simp [execMbxUnlockWrite, h, State.pciePresent, State.pcieServes, State.postedUr]

@[simp] theorem execMbxStageBegin_leavesCtl (dt : Nat) (h : s.live = false) : LeavesCtl s (execMbxStageBegin dt s) := by
  simp [execMbxStageBegin, h, State.pciePresent, State.pcieServes, State.postedUr]

@[simp] theorem execMbxStageBlock_leavesCtl (dt : Nat) (h : s.live = false) : LeavesCtl s (execMbxStageBlock dt s) := by
  simp [execMbxStageBlock, h, State.pciePresent, State.pcieServes, State.postedUr]

@[simp] theorem execMbxStageAbort_leavesCtl (dt : Nat) (h : s.live = false) : LeavesCtl s (execMbxStageAbort dt s) := by
  simp [execMbxStageAbort, h, State.pciePresent, State.pcieServes, State.postedUr]

@[simp] theorem execMbxRestart_leavesCtl (dt : Nat) (h : s.live = false) : LeavesCtl s (execMbxRestart dt s) := by
  simp [execMbxRestart, h, State.pciePresent, State.pcieServes, State.postedUr]

@[simp] theorem execMbxUnknownCommand_leavesCtl (dt : Nat) (word : U32) (h : s.live = false) :
    LeavesCtl s (execMbxUnknownCommand dt word s) := by
  simp [execMbxUnknownCommand, h, State.pciePresent, State.pcieServes, State.postedUr]

@[simp] theorem execMbxLockLapse_leavesCtl (dt : Nat) (h : s.live = false) : LeavesCtl s (execMbxLockLapse dt s) := by
  simp [execMbxLockLapse, h]

@[simp] theorem execFlashEraseDone_leavesCtl (dt : Nat) (ok : Bool) (h : s.live = false) :
    LeavesCtl s (execFlashEraseDone dt ok s) := by
  simp only [execFlashEraseDone]
  (repeat' split) <;> simp_all

@[simp] theorem execFlashProgramDone_leavesCtl (dt : Nat) (ok : Bool) (h : s.live = false) :
    LeavesCtl s (execFlashProgramDone dt ok s) := by
  simp only [execFlashProgramDone]
  (repeat' split) <;> simp_all

@[simp] theorem execFlashOperationTimeout_leavesCtl (dt : Nat) (h : s.live = false) :
    LeavesCtl s (execFlashOperationTimeout dt s) := by
  simp only [execFlashOperationTimeout]
  (repeat' split) <;> simp_all

@[simp] theorem execStagingCheckDone_leavesCtl (dt : Nat) (h : s.live = false) : LeavesCtl s (execStagingCheckDone dt s) := by
  simp only [execStagingCheckDone]
  (repeat' split) <;> simp_all

@[simp] theorem execFaultReport_leavesCtl (dt : Nat) (extra : List FaultRep) (h : s.live = false) :
    LeavesCtl s (execFaultReport dt extra s) := by
  simp [execFaultReport, h]

@[simp] theorem execFenceCommand_leavesCtl (dt : Nat) (h : s.live = false) : LeavesCtl s (execFenceCommand dt s) := by
  simp only [execFenceCommand]
  (repeat' split) <;> simp_all

@[simp] theorem execRecoveryAttempt_leavesCtl (dt : Nat) (d : Domain) (h : s.live = false) :
    LeavesCtl s (execRecoveryAttempt dt d s) := by
  simp [execRecoveryAttempt, h]

@[simp] theorem execRecoverySequenceEnd_leavesCtl (dt : Nat) (d : Domain) (failing : List (Fin 4 × Fin 5)) (h : s.live = false) :
    LeavesCtl s (execRecoverySequenceEnd dt d failing s) := by
  simp [execRecoverySequenceEnd, h]

@[simp] theorem execRecoveryOverrun_leavesCtl (dt : Nat) (d : Domain) (h : s.live = false) :
    LeavesCtl s (execRecoveryOverrun dt d s) := by
  simp [execRecoveryOverrun, h]

@[simp] theorem execRecoveryCleanTick_leavesCtl (dt : Nat) (h : s.live = false) : LeavesCtl s (execRecoveryCleanTick dt s) := by
  simp [execRecoveryCleanTick, h]

@[simp] theorem execHbAliveMissed_leavesCtl (dt : Nat) (c : Ctl) (h : s.live = false) :
    LeavesCtl s (execHbAliveMissed dt c s) := by
  simp [execHbAliveMissed, h]

@[simp] theorem execHbDigestExchange_leavesCtl (dt : Nat) (equal : Bool) (h : s.live = false) :
    LeavesCtl s (execHbDigestExchange dt equal s) := by
  simp [execHbDigestExchange, h]

@[simp] theorem execHbSelfCheckFail_leavesCtl (dt : Nat) (c : Ctl) (h : s.live = false) :
    LeavesCtl s (execHbSelfCheckFail dt c s) := by
  simp [execHbSelfCheckFail, h]

@[simp] theorem execBothFailedLatch_leavesCtl (dt : Nat) (h : s.live = false) : LeavesCtl s (execBothFailedLatch dt s) := by
  simp [execBothFailedLatch, h]

@[simp] theorem execBbxRecordWritten_leavesCtl (dt : Nat) (h : s.live = false) : LeavesCtl s (execBbxRecordWritten dt s) := by
  simp [execBbxRecordWritten, h]

@[simp] theorem execBbxMirrorStart_leavesCtl (dt : Nat) (h : s.live = false) : LeavesCtl s (execBbxMirrorStart dt s) := by
  simp [execBbxMirrorStart, h]

@[simp] theorem execBbxMirrorDone_leavesCtl (dt : Nat) (ok : Bool) (h : s.live = false) :
    LeavesCtl s (execBbxMirrorDone dt ok s) := by
  simp only [execBbxMirrorDone]
  (repeat' split) <;> simp_all

@[simp] theorem execPermitWithdrawn_leavesCtl (dt : Nat) (i : PermitInput) (highNs : Nat) :
    LeavesCtl s (execPermitWithdrawn dt i highNs s) := by
  have hf {v : State} (i : PermitInput) (hv : v.CtlStands s) : ((inputPorts i).foldl State.holdPort v).CtlStands s :=
    (State.CtlStands.foldl (fun v p => v.holdPort_ctlStands p) _ _).trans hv
  unfold execPermitWithdrawn
  extract_lets u acts u1 src u2
  have h1 : u1.CtlStands s := .ite (fun _ => ⟨rfl, rfl, rfl⟩) (fun _ => ⟨rfl, rfl, rfl⟩)
  have h2 : u2.CtlStands s := .ite (fun _ => State.CtlStands.trans (u := u1) ⟨rfl, rfl, rfl⟩ h1) (fun _ => h1)
  split
  · exact hf i (State.CtlStands.trans (u := u2) ⟨rfl, rfl, rfl⟩ h2)
  · exact h2

@[simp] theorem execPermitRestored_leavesCtl (dt : Nat) (i : PermitInput) : LeavesCtl s (execPermitRestored dt i s) := by
  unfold execPermitRestored
  dsimp only
  exact .ite (fun _ => ⟨rfl, rfl, rfl⟩) fun _ => State.CtlStands.trans (.foldl (fun s p => .ite (fun _ => s.alsResume_ctlStands p)
    (fun _ => ⟨rfl, rfl, rfl⟩)) _ _) ⟨rfl, rfl, rfl⟩

@[simp] theorem execAlsShutdown_leavesCtl (dt : Nat) (p : Port) : LeavesCtl s (execAlsShutdown dt p s) := by
  unfold execAlsShutdown
  dsimp only
  split
  · exact ⟨rfl, rfl, rfl⟩
  · exact .ite (fun _ => State.CtlStands.trans ⟨rfl, rfl, rfl⟩ ((State.enterShutdown_ctlStands ..).trans ⟨rfl, rfl, rfl⟩))
      (fun _ => ⟨rfl, rfl, rfl⟩)

@[simp] theorem execAlsProbeEntry_leavesCtl (dt : Nat) (p : Port) (h : s.live = false) :
    LeavesCtl s (execAlsProbeEntry dt p s) := by
  simp [execAlsProbeEntry, h]

@[simp] theorem execAlsProbeWindowEnd_leavesCtl (dt : Nat) (p : Port) : LeavesCtl s (execAlsProbeWindowEnd dt p s) := by
  simp [execAlsProbeWindowEnd]

@[simp] theorem execAlsProbeJudged_leavesCtl (dt : Nat) (p : Port) : LeavesCtl s (execAlsProbeJudged dt p s) := by
  have hp (f : Als → Als) (point : U32) : (((s.elapse dt).setAls p f).enterShutdown p point).CtlStands s :=
    (State.enterShutdown_ctlStands p point).trans ⟨rfl, rfl, rfl⟩
  unfold execAlsProbeJudged
  dsimp only
  split
  · split
    · exact ⟨rfl, rfl, rfl⟩
    · exact hp _ _
  · exact ⟨rfl, rfl, rfl⟩

@[simp] theorem execAlsProbeNoLaunch_leavesCtl (dt : Nat) (p : Port) : LeavesCtl s (execAlsProbeNoLaunch dt p s) := by
  have hp (f : Als → Als) (point : U32) : (((s.elapse dt).setAls p f).enterShutdown p point).CtlStands s :=
    (State.enterShutdown_ctlStands p point).trans ⟨rfl, rfl, rfl⟩
  unfold execAlsProbeNoLaunch
  dsimp only
  split
  · exact hp _ _
  · exact ⟨rfl, rfl, rfl⟩

@[simp] theorem execKeyAcknowledge_leavesCtl (dt : Nat) (k : Fin 8) : LeavesCtl s (execKeyAcknowledge dt k s) := by
  unfold execKeyAcknowledge
  dsimp only
  have ha (m : Nat) : (((s.elapse dt).pressed k).acknowledge m).CtlStands s :=
    (State.acknowledge_ctlStands m).trans ⟨rfl, rfl, rfl⟩
  refine .ite (fun _ => leavesCtl_next.mpr ?_) (fun _ => ⟨rfl, rfl, rfl⟩)
  exact State.CtlStands.ite (fun _ => State.CtlStands.trans ⟨rfl, rfl, rfl⟩ (ha _)) (fun _ => ha _)

@[simp] theorem execKeyManualRestart_leavesCtl (dt : Nat) (k : Fin 8) (h : s.live = false) :
    LeavesCtl s (execKeyManualRestart dt k s) := by
  simp [execKeyManualRestart, h, State.panelOn]

@[simp] theorem execKeyLampTest_leavesCtl (dt : Nat) (k : Fin 8) : LeavesCtl s (execKeyLampTest dt k s) := by
  unfold execKeyLampTest
  dsimp only
  exact .ite (fun _ => ⟨rfl, rfl, rfl⟩) (fun _ => ⟨rfl, rfl, rfl⟩)

@[simp] theorem execLampTestTimeout_leavesCtl (dt : Nat) : LeavesCtl s (execLampTestTimeout dt s) := by
  unfold execLampTestTimeout
  dsimp only
  split
  · exact .ite (fun _ => ⟨rfl, rfl, rfl⟩) (fun _ => ⟨rfl, rfl, rfl⟩)
  · exact ⟨rfl, rfl, rfl⟩

@[simp] theorem execKeyBrightness_leavesCtl (dt : Nat) (k : Fin 8) : LeavesCtl s (execKeyBrightness dt k s) := by
  unfold execKeyBrightness
  dsimp only
  exact .ite (fun _ => ⟨rfl, rfl, rfl⟩) (fun _ => ⟨rfl, rfl, rfl⟩)

@[simp] theorem execKeyRelease_leavesCtl (dt : Nat) (k : Fin 8) : LeavesCtl s (execKeyRelease dt k s) := by
  unfold execKeyRelease
  dsimp only
  refine .ite (fun _ => ?_) (fun _ => ⟨rfl, rfl, rfl⟩)
  split
  · exact .ite (fun _ => ⟨rfl, rfl, rfl⟩) (fun _ => ⟨rfl, rfl, rfl⟩)
  · exact ⟨rfl, rfl, rfl⟩

@[simp] theorem execPanelCompose_leavesCtl (dt : Nat) (h : s.live = false) : LeavesCtl s (execPanelCompose dt s) := by
  simp [execPanelCompose, h, State.panelOn]

@[simp] theorem execPanelBufferSwap_leavesCtl (dt : Nat) (h : s.live = false) : LeavesCtl s (execPanelBufferSwap dt s) := by
  simp [execPanelBufferSwap, h, State.panelOn]

@[simp] theorem execColourMeasurement_leavesCtl (dt : Nat) : LeavesCtl s (execColourMeasurement dt s) := by
  simp [execColourMeasurement]

@[simp] theorem execColourPhaseEnd_leavesCtl (dt : Nat) (counts : Option (Nat × Nat × Nat)) (h : s.live = false) :
    LeavesCtl s (execColourPhaseEnd dt counts s) := by
  simp only [execColourPhaseEnd]
  (repeat' split) <;> simp_all [State.panelOn]

@[simp] theorem execLedDiagPulse_leavesCtl (dt : Nat) (led : Fin 384) (isOpen : Bool) (h : s.live = false) :
    LeavesCtl s (execLedDiagPulse dt led isOpen s) := by
  simp [execLedDiagPulse, h, State.panelOn]

@[simp] theorem execLedDiagExpiry_leavesCtl (dt : Nat) (led : Fin 384) (h : s.live = false) :
    LeavesCtl s (execLedDiagExpiry dt led s) := by
  simp [execLedDiagExpiry, h, State.panelOn]

@[simp] theorem execPlacketAttach_leavesCtl (dt : Nat) (h : s.live = false) : LeavesCtl s (execPlacketAttach dt s) := by
  simp [execPlacketAttach, h]

@[simp] theorem execPlacketDetach_leavesCtl (dt : Nat) : LeavesCtl s (execPlacketDetach dt s) := by
  unfold execPlacketDetach
  dsimp only
  exact .ite (fun _ => State.CtlStands.trans ⟨rfl, rfl, rfl⟩ ((State.stageAbort_ctlStands .placket).trans ⟨rfl, rfl, rfl⟩)) (fun _ => ⟨rfl, rfl, rfl⟩)

@[simp] theorem execDfuDnload_leavesCtl (dt : Nat) (block : Nat) (data : List Byte) (h : s.live = false) :
    LeavesCtl s (execDfuDnload dt block data s) := by
  simp [execDfuDnload, h, State.plkOn]

@[simp] theorem execDfuGetstatus_leavesCtl (dt : Nat) (h : s.live = false) : LeavesCtl s (execDfuGetstatus dt s) := by
  simp [execDfuGetstatus, h, State.plkOn]

@[simp] theorem execDfuClrstatus_leavesCtl (dt : Nat) (h : s.live = false) : LeavesCtl s (execDfuClrstatus dt s) := by
  simp [execDfuClrstatus, h, State.plkOn]

@[simp] theorem execDfuGetstate_leavesCtl (dt : Nat) (h : s.live = false) : LeavesCtl s (execDfuGetstate dt s) := by
  simp [execDfuGetstate, h, State.plkOn]

@[simp] theorem execDfuAbort_leavesCtl (dt : Nat) (h : s.live = false) : LeavesCtl s (execDfuAbort dt s) := by
  simp [execDfuAbort, h, State.plkOn]

@[simp] theorem execDfuDetach_leavesCtl (dt : Nat) (h : s.live = false) : LeavesCtl s (execDfuDetach dt s) := by
  simp [execDfuDetach, h, State.plkOn]

@[simp] theorem execDfuUpload_leavesCtl (dt : Nat) (h : s.live = false) : LeavesCtl s (execDfuUpload dt s) := by
  simp [execDfuUpload, h, State.plkOn]

@[simp] theorem execPlacketStatusRead_leavesCtl (dt : Nat) (r : MgmtReq) (failed : Bool) (h : s.live = false) :
    LeavesCtl s (execPlacketStatusRead dt r failed s) :=
  plkServe_leavesCtl dt r 1 _ h

@[simp] theorem execPlacketBlackBoxRead_leavesCtl (dt : Nat) (r : MgmtReq) (h : s.live = false) :
    LeavesCtl s (execPlacketBlackBoxRead dt r s) :=
  plkServe_leavesCtl dt r 2 _ h

@[simp] theorem execPlacketEcho_leavesCtl (dt : Nat) (r : MgmtReq) (h : s.live = false) :
    LeavesCtl s (execPlacketEcho dt r s) :=
  plkServe_leavesCtl dt r 3 _ h

@[simp] theorem execPlacketBlackBoxDump_leavesCtl (dt : Nat) (r : MgmtReq) (h : s.live = false) :
    LeavesCtl s (execPlacketBlackBoxDump dt r s) :=
  plkServe_leavesCtl dt r 4 _ h

@[simp] theorem execPlacketRestart_leavesCtl (dt : Nat) (r : MgmtReq) (h : s.live = false) :
    LeavesCtl s (execPlacketRestart dt r s) :=
  plkServe_leavesCtl dt r 5 _ h

@[simp] theorem execPlacketBadRequest_leavesCtl (dt : Nat) (r : MgmtReq) (h : s.live = false) :
    LeavesCtl s (execPlacketBadRequest dt r s) :=
  plkServe_leavesCtl dt r _ _ h

@[simp] theorem execApdBiasOutOfRange_leavesCtl (dt : Nat) (p : Port) (b : Band) (mv : Nat) (h : s.live = false) :
    LeavesCtl s (execApdBiasOutOfRange dt p b mv s) := by
  simp [execApdBiasOutOfRange, h]

@[simp] theorem execApdCurrentHigh_leavesCtl (dt : Nat) (p : Port) (b : Band) (microA : Nat) (h : s.live = false) :
    LeavesCtl s (execApdCurrentHigh dt p b microA s) := by
  simp [execApdCurrentHigh, h]

@[simp] theorem execHbSelfTestDone_leavesCtl (dt : Nat) (aOk bOk : Bool) (h : s.live = false) :
    LeavesCtl s (execHbSelfTestDone dt aOk bOk s) := by
  simp [execHbSelfTestDone, h]

@[simp] theorem execPcieLinkUp_leavesCtl (dt : Nat) (speed width : Nat) (h : s.live = false) :
    LeavesCtl s (execPcieLinkUp dt speed width s) := by
  simp [execPcieLinkUp, h, State.pciePresent]

@[simp] theorem execBar2Write_leavesCtl (dt : Nat) (offset : Nat) (h : s.live = false) :
    LeavesCtl s (execBar2Write dt offset s) := by
  simp [execBar2Write, h, State.pciePresent]

@[simp] theorem execPlacketConfigured_leavesCtl (dt : Nat) (highSpeed : Bool) (h : s.live = false) :
    LeavesCtl s (execPlacketConfigured dt highSpeed s) := by
  simp [execPlacketConfigured, h, State.plkOn]

@[simp] theorem execEthFrameSent_leavesCtl (dt : Nat) (l : Lane) : LeavesCtl s (execEthFrameSent dt l s) := by
  unfold execEthFrameSent
  dsimp only
  split
  · exact ⟨rfl, rfl, rfl⟩
  · exact (State.startNext_ctlStands ..).trans ⟨rfl, rfl, rfl⟩

/-- A command that is no restart leaves the controllers of a device that is not running. -/
theorem exec_leavesCtl (h : s.live = false) {c : Instr} (hc : isRestart c = false) : LeavesCtl s (exec c s) := by
  cases c with
  | powerGood | resetNAsserted | pfailRestart | requestedRestart => cases hc
  | _ => simp [exec, h]

/-! ## Held in reset -/

theorem State.holdReset_heldWhole (s : State) (power : Power) : (s.holdReset power).HeldWhole := fun _ => ⟨rfl, rfl, rfl⟩

theorem State.HeldWhole.of_ctlStands (h : s.HeldWhole) (hp : t.power.phase = .held → s.power.phase = .held)
    (k : t.power.phase = .held → t.CtlStands s) : t.HeldWhole := by
  intro e
  obtain ⟨ha, hb, hf⟩ := k e
  rw [ha, hb, hf]
  exact h (hp e)

theorem exec_heldWhole_of_restart (h : s.HeldWhole) {c : Instr} (hc : isRestart c = true) : Ensures State.HeldWhole (exec c s) := by
  have hu (dt : Nat) : (s.elapse dt).HeldWhole := h.of_ctlStands id fun _ => ⟨rfl, rfl, rfl⟩
  cases c with
  | powerGood dt hbaOk hbbOk =>
    refine .ite (fun _ e => ?_) (fun _ => hu dt)
    simp at e
  | resetNAsserted dt lowNs =>
    obtain ⟨hc, hp⟩ := State.recognised_ctlStands (s := s.elapse dt) lowNs 100 1000
    exact .ite (fun _ => State.holdReset_heldWhole _ _) fun _ => (hu dt).of_ctlStands (fun e => hp ▸ e) fun _ => hc
  | pfailRestart dt => exact .ite (fun _ => State.holdReset_heldWhole _ _) (fun _ => hu dt)
  | requestedRestart dt =>
    simp only [exec, execRequestedRestart]
    split
    · exact .ite (fun _ => State.holdReset_heldWhole _ _) (fun _ => hu dt)
    · exact hu dt
  | _ => cases hc

theorem exec_heldWhole (h : s.HeldWhole) (c : Instr) : Ensures State.HeldWhole (exec c s) := by
  cases hc : isRestart c with
  | true => exact exec_heldWhole_of_restart h hc
  | false =>
    have k := exec_contains (s := s) hc
    have l := fun hl => exec_leavesCtl (s := s) hl hc
    cases e : exec c s with
    | next t =>
      rw [e] at k l
      have hp : t.power.phase = .held → s.power.phase = .held := k.2.2
      exact h.of_ctlStands hp fun ht => l (by simp [State.live, hp ht])
    | fault _ => trivial
    | refused _ => trivial

theorem step_heldWhole (h : s.HeldWhole) : Ensures State.HeldWhole (step s) := by
  unfold step
  split
  · exact h
  · next c rest _ =>
    have hq : { s with pending := rest }.HeldWhole := h
    exact exec_heldWhole hq c

end

/-- Settles O6: the latch and the permanent fences by `exec_contains`; for a held device, no command but a restart touches the
controllers of a device that is not running (`exec_leavesCtl`). -/
theorem fencingHoldsUntilRestart : Obligations.FencingHoldsUntilRestart := by
  refine ⟨fun c s t h e hc => ?_, fun c s t d h e hc => ?_, fun s t h e => ?_⟩
  · have k := exec_contains (s := s) hc
    rw [e] at k
    exact k.2.1 h
  · have k := exec_contains (s := s) hc
    rw [e] at k
    exact (k.1 d).1 h
  · have k := step_heldWhole h
    rwa [e] at k

end Sys2Proof.Machine

/-! SUPPORT. The queue, reset, power good, power fail and the restarts (R397, R398, R403, R464, R473 to R475). -/

namespace Sys2Proof.Machine

/-- Settles O1: by the definition of a step. -/
theorem stepRunsFront : Obligations.StepRunsFront := by
  refine ⟨fun c rest s => rfl, fun s h => ?_⟩
  rw [step, h]

/-- A port's optics at reset: gate and shutter closed. -/
theorem State.reset_optPort (p : Port) : State.reset.opt.ports[p] = {} := Vector.getElem_replicate ..

theorem State.reset_emissionSafe : State.reset.EmissionSafe := by
  intro p
  rw [State.reset_optPort]
  exact ⟨fun h => absurd h (by decide), fun h => absurd h (by decide)⟩

/-- Settles O7: each field by its value at reset, the invariants from gates, fences and memories that are all closed and empty. -/
theorem resetLeaves : Obligations.ResetLeaves := by
  refine ⟨⟨rfl, rfl, fun p => ?_, rfl, rfl, rfl, rfl, rfl, rfl, fun k => ?_, rfl, rfl, rfl, fun d => ?_, rfl, fun r => ?_, fun c => ?_, rfl, rfl⟩,
    State.reset_emissionSafe, State.reset_memoryCanonical, State.reset_fencesAgree, fun _ => ⟨rfl, rfl, rfl⟩⟩
  · rw [State.reset_optPort]
    exact ⟨rfl, rfl⟩
  · exact congrArg SlotResult.code (Vector.getElem_replicate ..)
  · exact Vector.getElem_replicate ..
  · exact congrArg RegionSt.margin (Vector.getElem_replicate ..)
  · exact Vector.getElem_replicate ..

section

variable {s t u : State}

/-- Clearing the slot of a staging touches flash alone (R464). -/
theorem State.stageClear_eq (g : Staging) : s.stageClear g = { s with flash := (s.stageClear g).flash } := by
  unfold State.stageClear
  split <;> rfl

theorem State.holdReset_eq (power : Power) : u.holdReset power =
    { State.reset with
      pending := u.pending, now := u.now, free := u.free, outputs := u.outputs, power := power
      flash := ((u.cfg.staging.map fun g => u.stageClear g).getD u).flash
      bbx := { slots := u.bbx.slots, next := u.bbx.next, lastSeq := u.bbx.lastSeq, boot := u.bbx.boot }
      cfg := { keys := u.cfg.keys }, permits := { asserted := u.permits.asserted, risenAt := u.permits.risenAt }
      trigLevel := u.trigLevel
      pnl := { keys := u.pnl.keys.map fun k => { pressed := k.pressed, acted := k.pressed, changedAt := k.changedAt } }
      plk := { vbus := u.plk.vbus } } := by
  unfold State.holdReset
  have h : ((u.cfg.staging.map fun g => u.stageClear g).getD u) =
      { u with flash := ((u.cfg.staging.map fun g => u.stageClear g).getD u).flash } := by
    cases u.cfg.staging with
    | none => rfl
    | some g => exact u.stageClear_eq g
  rw [h]
  rfl

theorem State.recognised_sure {lowNs never sure : Nat} (h : sure ≤ lowNs) : s.recognised lowNs never sure = (true, s) := if_pos h

theorem State.recognised_never {lowNs never sure : Nat} (h : lowNs < never) (hs : never ≤ sure) :
    s.recognised lowNs never sure = (false, s) := by
  rw [State.recognised, if_neg (by omega), if_pos h]

theorem State.recognised_between {lowNs never sure : Nat} (h : never ≤ lowNs) (hs : lowNs < sure) :
    s.recognised lowNs never sure = (Config.shortPulse s.free, s.takeFree) := by
  rw [State.recognised, if_neg (by omega), if_neg (by omega)]

end

/-- Settles O9: each restart is `State.holdReset` of the state at its instant. -/
theorem restartsHoldReset : Obligations.RestartsHoldReset := by
  intro s u dt hu
  subst hu
  refine ⟨fun lowNs h => ?_, fun hp hf => ?_, fun cause due hr hp hd => ?_⟩
  · simp only [exec, execResetNAsserted, State.recognised_sure h, if_true, State.holdReset_eq]
  · simp only [exec, execPfailRestart, hp, hf, and_self, if_true, State.holdReset_eq]
  · simp only [exec, execRequestedRestart, hr, State.live, hp, hd, beq_self_eq_true, decide_true, Bool.and_self, if_true, State.holdReset_eq]

/-- A device held in reset whose hatband still lists an attempt of the laser's domain; HB-B, taking over, begins it anew (R409). -/
def heldMidAttempt : State := { hb := { doms := (Vector.replicate 20 {}).set 2 { st := .attempt } } }

theorem heldMidAttempt_laserWarms :
    (match exec (.powerGood 0 false true) heldMidAttempt with | .next t => t.opt.laser | _ => .off) = .warming := by
  decide +kernel

/-- Refutes O8: where HB-A fails its self-test, the takeover begins an attempt of FD02 anew and the laser warms up, so that the optics
do not stand; nothing in the premises keeps a held device from listing such an attempt. -/
theorem not_powerGoodStarts : ¬ Obligations.PowerGoodStarts := by
  intro h
  obtain ⟨t, e, -, -, -, -, -, -, -, -, -, -, -, ho, -⟩ := h heldMidAttempt _ 0 false true rfl rfl rfl rfl rfl
  have k := heldMidAttempt_laserWarms
  rw [e] at k
  exact absurd (k.symm.trans (congrArg Opt.laser ho)) (by decide)

section

variable {s t u : State}

/-! ### The end of a staging -/

/-- A staging that ends leaves image and fuses, and none stands. -/
theorem State.stageEnd_cfg (code detail : Nat) : (s.stageEnd code detail).cfg.image = s.cfg.image ∧
    (s.stageEnd code detail).cfg.keys = s.cfg.keys ∧ (s.stageEnd code detail).cfg.staging = none := by
  unfold State.stageEnd
  split
  · next e => exact ⟨rfl, rfl, e⟩
  · next g _ =>
    extract_lets src s1 s2 s3 s4 st
    have h3 : s3.cfg = s2.cfg := by
      simp only [s3]
      split_ifs <;> simp
    have h4 : s4.cfg = s2.cfg := by
      simp only [s4]
      split_ifs <;> simp [h3]
    have key {t : State} (h : t.cfg = s2.cfg) : t.cfg.image = s.cfg.image ∧ t.cfg.keys = s.cfg.keys ∧ t.cfg.staging = none := by
      rw [h]
      exact ⟨rfl, rfl, rfl⟩
    split
    · exact key h4
    · split
      · exact key h3
      · exact key h3

theorem State.stageAbort_cfg (f : Feeder) : (s.stageAbort f).cfg.image = s.cfg.image ∧ (s.stageAbort f).cfg.keys = s.cfg.keys := by
  unfold State.stageAbort
  split
  · split_ifs
    · exact ⟨(State.stageEnd_cfg ..).1, (State.stageEnd_cfg ..).2.1⟩
    · exact ⟨rfl, rfl⟩
  · exact ⟨rfl, rfl⟩

theorem State.stageAbort_staging (f : Feeder) :
    (s.stageAbort f).cfg.staging = if (s.cfg.staging.map Staging.feeder) = some f then none else s.cfg.staging := by
  unfold State.stageAbort
  cases e : s.cfg.staging with
  | none => simp [e]
  | some g =>
    by_cases hf : g.feeder = f
    · simp [hf, State.stageEnd_cfg]
    · simp [hf, e]

/-- Both feeders' aborts leave no staging. -/
theorem State.stageAborts_staging : ((s.stageAbort .mailbox).stageAbort .placket).cfg.staging = none := by
  simp only [State.stageAbort_staging]
  cases s.cfg.staging with
  | none => rfl
  | some g => cases e : g.feeder <;> simp [e]

/-! ### The power-fail sequence (R403) -/

theorem BlackBox.foldl_write_mirror (l : List BbxRec) (b : BlackBox) :
    (l.foldl (fun b r => b.write { r with flags := r.flags ||| 2 }) b).mirror = b.mirror := by
  induction l generalizing b with
  | nil => rfl
  | cons r l ih => exact ih _

theorem State.powerFailRecords_bbx (m : Nat) (uv : Bool) : (s.powerFailRecords m uv).bbx.queue = [] ∧
    (s.powerFailRecords m uv).bbx.mirror = s.bbx.mirror ∧
    ∃ r, (s.powerFailRecords m uv).bbx.slots.head? = some (some r) ∧ r.kind = 0x0003 :=
  ⟨rfl, BlackBox.foldl_write_mirror .., _, rfl, rfl⟩

theorem port_ne_iff (p : Port) : ¬(1 : Port) = p ↔ 0 = p := by
  revert p
  decide

/-- Both ports closed, one after the other. -/
theorem State.closePorts_port (p : Port) : (bothPorts.foldl (fun s p => s.closePort p) s).opt.ports[p].gate = none ∧
    (bothPorts.foldl (fun s p => s.closePort p) s).opt.ports[p].shutter = false := by
  change ((s.closePort 0).closePort 1).opt.ports[p].gate = none ∧ ((s.closePort 0).closePort 1).opt.ports[p].shutter = false
  by_cases h : (1 : Port) = p
  · simp only [State.closePort_port, State.closeGate_port, if_pos h, and_self]
  · simp only [State.closePort_port, State.closeGate_port, if_neg h, if_pos ((port_ne_iff p).mp h), and_self]

theorem State.biasesOff_dts (p : Port) : (bothPorts.foldl (fun s p => s.biasOff p) s).dts[p].biasOff = true := by
  simp only [bothPorts, List.foldl_cons, List.foldl_nil, State.biasOff, State.setDts, upd_get]
  by_cases h : (1 : Port) = p
  · simp only [if_pos h]
  · simp only [if_neg h, if_pos ((port_ne_iff p).mp h)]

theorem State.powerFail_poweredDown (m : Nat) (uv : Bool) : (s.powerFail m uv).PoweredDown s := by
  unfold State.powerFail
  extract_lets s1 s2 s3 s4 src s5 s6 src'
  obtain ⟨hq, hm, hr⟩ := State.powerFailRecords_bbx (s := s5) m uv
  have hopt : s6.opt = s2.opt := by
    simp only [s6, s5]
    split_ifs <;> simp [s4, s3, bothPorts]
  have hdts : s6.dts = s3.dts := by
    simp only [s6, s5]
    split_ifs <;> simp [s4]
  have hmir : s5.bbx.mirror = none := by
    simp only [s5]
    split_ifs with h
    · rfl
    · simpa using h
  have hcfg : s6.cfg = ((s3.stageAbort .mailbox).stageAbort .placket).cfg := by
    simp only [s6, s5, State.powerFailRecords_keeps]
    split_ifs <;> rfl
  have h3 : s3.cfg = s.cfg := by simp [s3, s2, s1, bothPorts]
  have himg : s6.cfg.image = s.cfg.image := by
    rw [hcfg, (State.stageAbort_cfg _).1, (State.stageAbort_cfg _).1, h3]
  have hkeys : s6.cfg.keys = s.cfg.keys := by
    rw [hcfg, (State.stageAbort_cfg _).2, (State.stageAbort_cfg _).2, h3]
  have hst : s6.cfg.staging = none := by
    rw [hcfg]
    exact State.stageAborts_staging
  have hrest : s6.now = s.now ∧ s6.mem.cells = s.mem.cells ∧ s6.permits = s.permits ∧ s6.tim = s.tim ∧ s6.hb.doms = s.hb.doms := by
    simp only [s6, s5, State.powerFailRecords_keeps]
    split_ifs <;> simp [s4, s3, s2, s1, bothPorts]
  obtain ⟨hnow, hmem, hperm, htim, hdoms⟩ := hrest
  have hports (p : Port) : s6.opt.ports[p].gate = none ∧ s6.opt.ports[p].shutter = false := by
    rw [hopt]
    exact State.closePorts_port p
  have hbias (p : Port) : s6.dts[p].biasOff = true := by
    rw [hdts]
    exact State.biasesOff_dts p
  obtain ⟨hl, hk, ht⟩ : s6.opt.laser = .off ∧ s6.opt.lockDetected = false ∧ s6.opt.tecCurrent = 0 := by
    rw [hopt]
    exact ⟨rfl, rfl, rfl⟩
  exact ⟨rfl, rfl, hnow, fun p => ⟨(hports p).1, (hports p).2, hbias p⟩, hl, hk, ht, hst, hm.trans hmir, hq, hr, himg, hkeys, hmem, hperm,
    htim, hdoms⟩

/-- The power-fail sequence stands whatever is noted of the supplies for the cause of the next start. -/
theorem State.PoweredDown.withPower (h : t.PoweredDown u) {x : Power} (hp : x.phase = .powerFail) (hr : x.request = none)
    (hf : x.failAt = u.now) : ({ t with power := x } : State).PoweredDown u := by
  obtain ⟨-, -, -, h⟩ := h
  exact ⟨hp, hr, hf, h⟩

theorem State.powerFail_power (m : Nat) (uv : Bool) : (s.powerFail m uv).power.tripSeen = s.power.tripSeen ∧
    (s.powerFail m uv).power.belowThreshold = s.power.belowThreshold ∧ (s.powerFail m uv).now = s.now := by
  unfold State.powerFail
  extract_lets s1 s2 s3 s4 src s5 s6 src'
  have h5 : s5.power = s.power ∧ s5.now = s.now := by
    simp only [s5]
    split_ifs <;> simp [s4, s3, s2, s1, bothPorts]
  obtain ⟨hp, hn⟩ := h5
  obtain ⟨h6, h6n⟩ : s6.power = s.power ∧ s6.now = s.now := by
    simp [s6, hp, hn]
  have ht : s6.power.tripSeen = s.power.tripSeen := congrArg Power.tripSeen h6
  have hb : s6.power.belowThreshold = s.power.belowThreshold := congrArg Power.belowThreshold h6
  exact ⟨ht, hb, h6n⟩

theorem State.powerFail_noted (x : BitVec 8) (m : Nat) (uv below : Bool) :
    ({ s.powerFail m uv with power := (s.powerFail m uv).power.note x below } : State).PoweredDown s := by
  have h := State.powerFail_poweredDown (s := s) m uv
  exact h.withPower h.1 h.2.1 h.2.2.1

end

/-- Settles O10: the sequence by `State.powerFail_poweredDown`, the bounds of recognition by the three cases of `State.recognised`. -/
theorem powerFailActs : Obligations.PowerFailActs := by
  refine ⟨fun s u dt m hu hp => ⟨fun lowNs h => ?_, fun low below => ?_⟩, fun s dt lowNs m => ⟨fun h => ?_, fun h => ?_, fun h h' => ?_, fun h => ?_,
    fun h hp => ?_⟩⟩
  · obtain ⟨ht, -, -⟩ := State.powerFail_power (s := u) m.toNat false
    refine ⟨_, ?_, State.powerFail_noted m m.toNat false false, congrArg (· || m != 0) ht⟩
    simp only [exec, execPowerFailWarning, ← hu, State.recognised_sure h, hp, if_true]
  · obtain ⟨-, hb, hn⟩ := State.powerFail_power (s := u) m.toNat low
    have k := State.powerFail_poweredDown (s := u) m.toNat low
    have e : exec (.supplyMonitorTrip dt m low below) s = .next { u.powerFail m.toNat low with
        power := { (u.powerFail m.toNat low).power.note m below with tripSeen := true, failAt := (u.powerFail m.toNat low).now } } := by
      simp only [exec, execSupplyMonitorTrip, ← hu, hp]
    exact ⟨_, e, k.withPower k.1 k.2.1 hn, rfl, congrArg (· || below) hb⟩
  · simp only [exec, execResetNAsserted, State.recognised_never h (by decide : 100 ≤ 1000), Bool.false_eq_true, if_false]
  · refine ⟨(s.elapse dt).holdReset
      { (s.elapse dt).power with phase := .held, resetSeen := true, request := none, requested := none }, ?_, rfl, rfl⟩
    simp only [exec, execResetNAsserted, State.recognised_sure h, if_true]
  · simp only [exec, execResetNAsserted, State.recognised_between h h']
    cases Config.shortPulse (s.elapse dt).free with
    | true => exact ⟨_, rfl, .inl ⟨rfl, rfl⟩⟩
    | false => exact ⟨_, rfl, .inr rfl⟩
  · simp only [exec, execPowerFailWarning, State.recognised_never h (by decide : 20 ≤ 100), Bool.false_eq_true, if_false]
  · refine ⟨{ s.elapse dt with power := { (s.elapse dt).power.note m false with failAt := (s.elapse dt).now } }, ?_, rfl⟩
    simp only [exec, execPowerFailWarning, State.recognised_sure h, if_true, hp]

end Sys2Proof.Machine

/-! SUPPORT. The loader: the slot that CFG_LOAD_START chooses and the image that IMAGE_READ_DONE checks (R380 to R386). -/

namespace Sys2Proof.Machine

section

variable {s t u : State}

/-! ## Reports and what they leave -/

/-- A record for a black box with room joins its queue. -/
theorem State.record_of_room (r : BbxRec) (h : s.bbx.queue.length < 64) :
    s.record r = { s with bbx := { s.bbx with queue := s.bbx.queue ++ [r] } } := by
  rw [State.record, if_pos h, State.bbxEnqueue, if_pos h]

theorem State.record_outputs_of_room (r : BbxRec) (h : s.bbx.queue.length < 64) : (s.record r).outputs = s.outputs := by
  rw [State.record_of_room r h]

theorem State.record_logged (r : BbxRec) (h : s.bbx.queue.length < 64) : (s.record r).Logged r.kind r.code := by
  rw [State.record_of_room r h]
  exact ⟨r, List.mem_append_right _ (List.mem_singleton_self r), rfl, rfl⟩

theorem OnlyReports.flash (h : OnlyReports t s) : t.flash = s.flash := (congrArg State.flash h :)

@[simp] theorem State.record_flash (r : BbxRec) : (s.record r).flash = s.flash := OnlyReports.flash (s.record_hushed r)

/-! ## The loader -/

/-- What CFG_LOAD_START takes from flash before a slot is chosen: both headers, the SFDP tables, the quad-enable bit (R367, R380). -/
def State.headersRead (s : State) : State :=
  { s with
    cfg := { s.cfg with
      released := true, releasedAt := s.now, slots := #v[headerResult (s.slotHeader 0), headerResult (s.slotHeader 1)]
      flashId := s.flash.jedec, flashMode := BitVec.ofNat 32 s.flashModeWord }
    flash := { s.flash with quadEnabled := s.flash.quadEnabled || s.readsQuad } }

theorem State.headersRead_slot (k : Fin 2) : s.headersRead.cfg.slots[k] = headerResult (s.slotHeader k.val) := by
  have hk : k = 0 ∨ k = 1 := by omega
  rcases hk with rfl | rfl <;> rfl

/-- The choice among the candidates (R380). -/
def State.slotChosen (s : State) : Option Nat := 
  firstSlot (headerResult (s.slotHeader 0)) (headerResult (s.slotHeader 1))

/-- A slot is read, and PLL-A enters its first attempt (Table 12.10 step 4). -/
def State.slotRead (s : State) (k : Nat) : State :=
  ({ s with cfg := { s.cfg with
    current := some k, refFreq := (earlyClocks (s.slotImage k)).1, qspiDiv := (earlyClocks (s.slotImage k)).2 } }).pllRelease .a

theorem execCfgLoadStart_eq (dt : Nat) (hu : u = s.elapse dt) (hp : u.power.phase = .up) (h0 : u.cfg.state = 0)
    (hr : u.cfg.released = false) : exec (.cfgLoadStart dt) s = .next (match u.slotChosen with
      | none => u.headersRead.unconfigured
      | some k => u.headersRead.slotRead k) := by
  subst hu
  have hc : ((s.elapse dt).live && (s.elapse dt).cfg.state == 0 && !(s.elapse dt).cfg.released) = true := by
    rw [State.live, hp, h0, hr]
    rfl
  change execCfgLoadStart dt s = _
  unfold execCfgLoadStart
  extract_lets u a b src s1 src' s2
  rw [if_pos hc]
  have hs : (s.elapse dt).slotChosen = firstSlot a b := rfl
  have h2 : (s.elapse dt).headersRead = s2 := rfl
  rw [hs, h2]
  cases firstSlot a b with
  | none => rfl
  | some k => rfl

theorem firstSlot_eq_none {a b : SlotResult} : firstSlot a b = none ↔ a.candidate = false ∧ b.candidate = false := by
  unfold firstSlot
  cases a.candidate <;> cases b.candidate <;> simp
  split <;> simp

theorem firstSlot_of_newer_a {a b : SlotResult} (ha : a.candidate = true)
    (h : b.candidate = true → b.generation.toNat ≤ a.generation.toNat) : firstSlot a b = some 0 := by
  unfold firstSlot
  cases hb : b.candidate with
  | true => simp [ha, h hb]
  | false => simp [ha]

theorem firstSlot_of_newer_b {a b : SlotResult} (hb : b.candidate = true)
    (h : a.candidate = true → a.generation.toNat < b.generation.toNat) : firstSlot a b = some 1 := by
  unfold firstSlot
  cases ha : a.candidate with
  | true => simp [hb, h ha]
  | false => simp [hb]

theorem State.unconfigured_cfg : s.unconfigured.cfg = { s.cfg with state := 2, current := none } := by
  simp [State.unconfigured, State.loadRecord]

theorem State.unconfigured_flash : s.unconfigured.flash = s.flash :=
  State.record_flash (s := { s with cfg := { s.cfg with state := 2, current := none } }) _

theorem State.unconfigured_logged (h : s.bbx.queue.length < 64) :
    s.unconfigured.Logged 0x0002 0 ∧ s.unconfigured.outputs = s.outputs := by
  refine ⟨State.record_logged (s := { s with cfg := { s.cfg with state := 2, current := none } }) _ h, ?_⟩
  exact State.record_outputs_of_room (s := { s with cfg := { s.cfg with state := 2, current := none } }) _ h

/-- The endpoint and the placket come into service (R386). -/
theorem State.unconfigured_doms : s.unconfigured.dom 14 = (s.dom 14).serve ∧ s.unconfigured.dom 16 = (s.dom 16).serve := by
  have h (v : State) : ((v.setDom 14 Dom.serve).setDom 16 Dom.serve).dom 14 = (v.dom 14).serve ∧
      ((v.setDom 14 Dom.serve).setDom 16 Dom.serve).dom 16 = (v.dom 16).serve := by
    constructor <;> simp only [State.setDom_dom, if_true] <;> rw [if_neg (by decide)]
  have hd (d : Domain) : (State.loadRecord { s with cfg := { s.cfg with state := 2, current := none } } 0xFF 0).dom d = s.dom d := by
    simp [State.loadRecord, State.dom]
  rw [State.unconfigured]
  simp only [h, hd, and_self]

end

/-- Settles O11: the two outcomes of `execCfgLoadStart_eq`, by the candidates of `firstSlot`. -/
theorem loaderChoosesSlot : Obligations.LoaderChoosesSlot := by
  intro s u dt hu hp h0 hr
  refine ⟨_, execCfgLoadStart_eq dt hu hp h0 hr, ?_⟩
  have hslot := fun k => State.headersRead_slot (s := u) k
  cases e : u.slotChosen with
  | none =>
    obtain ⟨ha, hb⟩ := firstSlot_eq_none.mp e
    have hcfg := State.unconfigured_cfg (s := u.headersRead)
    have hl := fun h => State.unconfigured_logged (s := u.headersRead) h
    obtain ⟨h14, h16⟩ := State.unconfigured_doms (s := u.headersRead)
    have hslots : u.headersRead.unconfigured.cfg.slots = u.headersRead.cfg.slots := by rw [hcfg]
    simp only [hslots, hslot]
    refine ⟨by rw [hcfg]; rfl, by rw [hcfg]; rfl, fun _ => trivial, ⟨fun _ _ => ?_, fun h => ?_, fun h => ?_, fun h => ?_⟩,
      State.unconfigured_flash, by rw [hcfg]; rfl, by rw [hcfg]; rfl, by simp [State.headersRead], by simp [State.headersRead],
      by simp [State.headersRead]⟩
    · exact ⟨by rw [hcfg], by rw [hcfg], by simp [State.headersRead], hl, congrArg Dom.st h14, congrArg Dom.st h16⟩
    · exact absurd (ha.symm.trans h) (by decide)
    · exact absurd (hb.symm.trans h) (by decide)
    · rcases h with h | h
      · exact absurd (ha.symm.trans h) (by decide)
      · exact absurd (hb.symm.trans h) (by decide)
  | some k =>
    have hn : ¬(headerResult (u.slotHeader 0)).candidate = false ∨ ¬(headerResult (u.slotHeader 1)).candidate = false := by
      rw [← not_and_or, ← firstSlot_eq_none]
      exact fun h => absurd (e.symm.trans h) (by simp)
    have hslots : (u.headersRead.slotRead k).cfg.slots = u.headersRead.cfg.slots := rfl
    simp only [hslots, hslot]
    refine ⟨rfl, rfl, fun _ => trivial, ⟨fun ha hb => ?_, fun ha h => ?_, fun hb h => ?_, fun _ => ?_⟩, rfl, rfl, rfl, rfl, rfl, rfl⟩
    · rcases hn with hn | hn
      · exact absurd ha hn
      · exact absurd hb hn
    · exact e.symm.trans (firstSlot_of_newer_a ha h)
    · exact e.symm.trans (firstSlot_of_newer_b hb h)
    · exact ⟨h0, rfl, rfl, rfl, rfl, rfl, rfl⟩

section

variable {s t u : State}

/-! ## The image that passed every check -/

@[simp] theorem State.warn_flash (code value : U32) (holds : Bool) : (s.warn code value holds).flash = s.flash :=
  OnlyReports.flash (s.warn_hushed code value holds)

/-- Flash stands, and of the loader's registers the key fuses alone may change (R379). -/
def State.FusesOnly (t s : State) : Prop := t.flash = s.flash ∧ t.cfg = { s.cfg with keys := t.cfg.keys, keyFull := t.cfg.keyFull }

theorem State.FusesOnly.trans (h : t.FusesOnly u) (k : u.FusesOnly s) : t.FusesOnly s := by
  refine ⟨h.1.trans k.1, ?_⟩
  rw [h.2, k.2]

theorem State.FusesOnly.of_cfg (hf : t.flash = s.flash) (hc : t.cfg = s.cfg) : t.FusesOnly s := ⟨hf, by rw [hc]⟩

theorem State.fuseKey_fusesOnly (hash : List Byte) : (s.fuseKey hash).FusesOnly s := by
  unfold State.fuseKey
  split
  · exact ⟨rfl, rfl⟩
  · split
    · exact ⟨by simp, by simp⟩
    · dsimp only
      split
      · exact ⟨by simp [State.fuseRecord, State.setKeySlot], by simp [State.setKeySlot]⟩
      · exact ⟨by simp [State.fuseRecord, State.setKeySlot, State.takeFree], by simp [State.setKeySlot]⟩

theorem State.applyKeys_fusesOnly : s.applyKeys.FusesOnly s := by
  unfold State.applyKeys
  extract_lets info s1
  have h1 : s1.FusesOnly s := by
    simp only [s1]
    split
    · exact State.fuseKey_fusesOnly _
    · exact ⟨rfl, rfl⟩
  split
  · exact h1
  · refine State.FusesOnly.trans ?_ h1
    refine List.foldlRecOn (motive := fun v => State.FusesOnly v s1) _ _ ⟨rfl, rfl⟩ fun v hv k _ => ?_
    split
    · refine State.FusesOnly.trans ?_ hv
      exact ⟨by simp [State.fuseRecord, State.setKeySlot], by simp [State.setKeySlot]⟩
    · exact hv

theorem State.sensorSetup_flash : s.sensorSetup.flash = s.flash := by
  unfold State.sensorSetup
  split
  · exact List.foldlRecOn (motive := fun v : State => v.flash = s.flash) _ _ rfl fun v h k _ => h
  · rfl

theorem State.evtStart_flash (recovered : Bool) : (s.evtStart recovered).flash = s.flash := by
  unfold State.evtStart
  exact List.foldlRecOn (motive := fun v : State => v.flash = s.flash) _ _ rfl fun v h p _ => h

theorem State.distribute_flash : s.distribute.flash = s.flash := by
  have hs (v : State) : v.supStart.flash = v.flash := rfl
  have hl (v : State) : v.layRings.flash = v.flash := rfl
  have hp (v : State) : v.startSync.startPanel.flash = v.flash := rfl
  have hr (v : State) : v.startRoutes.flash = v.flash := by rw [State.startRoutes]
  have hb (x : Hatband) : (({ s with hb := x } : State).pllRelease .d).flash = s.flash := rfl
  exact (hs _).trans ((State.evtStart_flash _).trans ((hl _).trans (State.sensorSetup_flash.trans ((hp _).trans ((hr _).trans (hb _))))))

/-- PLL-D is released and the panel runs (Table 12.10 step 9). -/
theorem State.distribute_starts : s.distribute.tim.d.st = .acquire ∧ s.distribute.pnl.running = true := by
  simp [State.distribute, State.startSync, State.setTim, State.pllRelease, State.setPll, State.startPanel]

/-- A full check that failed, in its slot's registers (R381). -/
def State.slotFailed (s : State) (slot : Fin 2) (r : LoadResult) : State :=
  { s with cfg := { s.cfg with slots := upd s.cfg.slots slot fun x => x.failed r } }

theorem State.fallBack_cfg (k : Nat) : (s.fallBack k).flash = s.flash ∧ (s.fallBack k).cfg = { s.cfg with
    current := some k, fellBack := true, refFreq := (earlyClocks (s.slotImage k)).1, qspiDiv := (earlyClocks (s.slotImage k)).2 } := by
  unfold State.fallBack
  extract_lets c changed src s1
  split
  · exact ⟨rfl, rfl⟩
  · exact ⟨rfl, rfl⟩

theorem slot_other (k : Fin 2) : 1 - k ≠ k := by
  revert k
  decide

/-- The registers of the loader once an image is loaded (R380, R385). -/
theorem State.loadImage_fusesOnly (slot : Fin 2) (m : Image) : ∃ n, (s.loadImage slot m).FusesOnly { s with cfg := { s.cfg with
    state := 1, current := none, image := some m, fallback := s.cfg.fellBack, loadTime := n
    slots := upd s.cfg.slots slot fun x => { x with code := 0 } } } := by
  unfold State.loadImage
  extract_lets gen failed fell src s1 s2 s3
  have h3 : s3.FusesOnly s2 := by
    simp only [s3]
    split
    · exact .of_cfg (by simp) (by simp)
    · exact ⟨rfl, rfl⟩
  have h2 : s2.FusesOnly s1 := .of_cfg (by simp [s2, State.loadRecord]) (by simp [s2, State.loadRecord])
  have hd : s3.applyKeys.distribute.FusesOnly s3.applyKeys := .of_cfg State.distribute_flash (by simp)
  exact ⟨_, hd.trans (State.applyKeys_fusesOnly.trans (h3.trans h2))⟩

end

/-- Settles O12: the three outcomes of a full check (`State.loadImage`, `State.fallBack`, `State.unconfigured`) and what each leaves. -/
theorem loaderChecksImage : Obligations.LoaderChecksImage := by
  intro s u dt k slot r hu hp h0 hc hs hr
  have hl : (u.live && u.cfg.state == 0) = true := by
    rw [State.live, hp, h0]
    rfl
  cases hi : r.image with
  | some m =>
    have e : exec (.imageReadDone dt) s = .next (u.loadImage slot m) := by
      simp only [exec, execImageReadDone, ← hu, hc, if_pos hl, ← hs, ← hr, hi]
    refine ⟨_, e, ?_⟩
    obtain ⟨n, hf, hcfg⟩ := State.loadImage_fusesOnly (s := u) slot m
    have hstart : (u.loadImage slot m).tim.d.st = .acquire ∧ (u.loadImage slot m).pnl.running = true := State.distribute_starts
    refine ⟨hf, by simp [State.loadImage], by simp [State.loadImage], by simp [State.loadImage], by simp [State.loadImage], fun m' hm => ?_,
      fun h => absurd h (by simp)⟩
    cases hm
    rw [hcfg]
    refine ⟨rfl, rfl, ?_, ?_, rfl, hstart⟩
    · exact congrArg SlotResult.code (upd_get_same ..)
    · exact upd_get_other _ _ (slot_other slot)
  | none =>
    have hc' : (u.slotFailed slot r).cfg.slots[1 - slot] = u.cfg.slots[1 - slot] := upd_get_other _ _ (slot_other slot)
    have hslot : (u.slotFailed slot r).cfg.slots[slot] = u.cfg.slots[slot].failed r := upd_get_same ..
    by_cases hfb : u.cfg.slots[1 - slot].candidate = true ∧ u.cfg.fellBack = false
    · obtain ⟨hcand, hfell⟩ := hfb
      have e : exec (.imageReadDone dt) s = .next ((u.slotFailed slot r).fallBack (1 - k)) := by
        have h : ((u.slotFailed slot r).cfg.slots[1 - slot].candidate && !(u.slotFailed slot r).cfg.fellBack) = true := by
          rw [hc', hcand]
          exact congrArg (!·) hfell
        simp only [exec, execImageReadDone, ← hu, hc, if_pos hl, ← hs, ← hr, hi]
        exact if_pos h
      obtain ⟨hf, hcfg⟩ := State.fallBack_cfg (s := u.slotFailed slot r) (1 - k)
      refine ⟨_, e, hf, by simp [State.slotFailed], by simp [State.slotFailed], by simp [State.slotFailed], by simp [State.slotFailed],
        fun m hm => absurd hm (by simp), fun _ => ?_⟩
      rw [hcfg, if_pos ⟨hcand, hfell⟩]
      exact ⟨hslot, hc', rfl, h0, rfl, rfl⟩
    · have e : exec (.imageReadDone dt) s = .next (u.slotFailed slot r).unconfigured := by
        have h : ¬((u.slotFailed slot r).cfg.slots[1 - slot].candidate && !(u.slotFailed slot r).cfg.fellBack) = true := by
          rw [hc']
          simpa [State.slotFailed] using hfb
        simp only [exec, execImageReadDone, ← hu, hc, if_pos hl, ← hs, ← hr, hi]
        exact if_neg h
      refine ⟨_, e, State.unconfigured_flash, by simp [State.slotFailed], by simp [State.slotFailed], by simp [State.slotFailed],
        by simp [State.slotFailed], fun m hm => absurd hm (by simp), fun _ => ?_⟩
      rw [State.unconfigured_cfg, if_neg hfb]
      exact ⟨hslot, hc', rfl, rfl, rfl⟩

end Sys2Proof.Machine

/-! SUPPORT. The laser and the optical faults (R59 to R68, Tables 2.8 to 2.10): which rows turn the gates off, fence, warn or only report. -/

namespace Sys2Proof.Machine

section

variable {s t u : State}

/-! ## Reports -/

theorem State.raise_hushed_at (code value : U32) (holds : Bool) (place : Nat) : (s.raise code value holds place).hushed = s.hushed := by
  unfold State.raise
  refine hushed_ite _ _ _ _ rfl (hushed_ite _ _ _ _ rfl ?_)
  simp only [State.msixEvent_hushed, State.bbxEnqueue_hushed, State.healthRecord_hushed]
  rfl

/-- A warning of any place only reports. -/
theorem State.warn_hushed_at (code value : U32) (holds : Bool) (place : Nat) : (s.warn code value holds place).hushed = s.hushed := by
  unfold State.warn
  exact hushed_ite _ _ _ _ ((State.raise_hushed_at ..).trans (State.raise_hushed_at ..)) (State.raise_hushed_at ..)

theorem State.hatbandActs_of_ctlStands (h : t.CtlStands s) : t.hatbandActs = s.hatbandActs := by
  obtain ⟨ha, hb, hf⟩ := h
  simp only [State.hatbandActs, ha, hb, hf]

/-- What a report adds stays: the warnings after the operation are those before it. -/
theorem State.emitRec_hb (p : PRec) : (s.emitRec p).hb = s.hb := by
  unfold State.emitRec
  have hr : (allRoutes.foldl (fun s r => if s.routeTakes r p.typ p.port then s.toRoute r p else s) s).hb = s.hb := by
    refine List.foldlRecOn (motive := fun v : State => v.hb = s.hb) _ _ rfl fun v h r _ => ?_
    split
    · exact h
    · exact h
  dsimp only
  split
  · unfold State.toRing
    dsimp only
    split
    · exact hr
    · split
      · exact hr
      · exact hr
  · exact hr

theorem State.msixEvent_hb (v : Fin 8) : (s.msixEvent v).hb = s.hb := by
  unfold State.msixEvent
  dsimp only
  split_ifs <;> rfl

theorem State.healthRecord_warnings (kind domain : Nat) (code value : U32) :
    (s.healthRecord kind domain code value).hb.warnings = s.hb.warnings := by
  unfold State.healthRecord
  split
  · rfl
  · dsimp only
    rw [State.emitRec_hb]

theorem State.bbxEnqueue_hb (r : BbxRec) : (s.bbxEnqueue r).hb = s.hb := by
  unfold State.bbxEnqueue
  split <;> rfl

/-- Marking a warning that stands leaves the codes that stand. -/
theorem warned_map (l : List Warn) (code c : U32) (f : Warn → Warn) (hf : ∀ w, (f w).code = w.code) :
    ((l.map fun w => if w.code = code then f w else w).any fun w => w.code == c) = l.any fun w => w.code == c := by
  rw [List.any_map]
  congr 1
  funext w
  simp only [Function.comp_apply]
  split <;> simp [hf]

/-- A warning stands once raised while a controller acts, and every other one as it did. -/
theorem State.raise_warned (code value c : U32) (holds : Bool) (place : Nat) (ha : s.hatbandActs = true) :
    (s.raise code value holds place).warned c = (s.warned c || c == code) := by
  unfold State.raise
  rw [ha]
  simp only [Bool.not_true, Bool.false_eq_true, if_false]
  split
  · next h =>
    have hc : (c == code) = true → s.warned c = true := fun e => by rwa [beq_iff_eq.mp e]
    refine (warned_map s.hb.warnings code c (fun w => { w with seenAt := s.now, holders := _ }) fun _ => rfl).trans ?_
    cases e : c == code with
    | true => rw [Bool.or_true, ← hc e]; rfl
    | false => rw [Bool.or_false]; rfl
  · simp only [State.warned, State.msixEvent_hb, State.bbxEnqueue_hb, State.healthRecord_warnings, List.any_append, List.any_cons, List.any_nil, Bool.or_false]
    rw [BEq.comm (a := code) (b := c)]

theorem State.warn_warned (code value : U32) (holds : Bool) (place : Nat) (ha : s.hatbandActs = true) :
    (s.warn code value holds place).warned code = true := by
  have hr : (s.raise code value holds place).warned code = true := by simp [State.raise_warned, ha]
  unfold State.warn
  dsimp only
  split
  · have hk : (s.raise code value holds place).hatbandActs = true := by
      rw [State.hatbandActs_of_ctlStands (State.raise_ctlStands ..), ha]
    rw [State.raise_warned _ _ _ _ _ hk, hr, Bool.true_or]
  · exact hr

end

section

variable {s t u : State}

/-! ## Gates, shutters and what they leave -/

/-- All that the optics' commands leave, one after the other. -/
theorem State.ElseKept.trans (h : t.ElseKept u) (k : u.ElseKept s) : t.ElseKept s := by
  unfold State.ElseKept State.ControlKept at *
  grind

/-- Reports leave all that the optics' commands leave. -/
theorem OnlyReports.elseKept (h : OnlyReports t s) : t.ElseKept s := by
  have k : t.hushed.ElseKept s.hushed := by
    rw [h]
    exact ⟨⟨rfl, rfl, rfl, rfl, rfl, rfl, rfl, rfl, rfl, rfl, rfl, rfl, rfl, rfl, rfl⟩, rfl, rfl, rfl, rfl⟩
  exact k

theorem OnlyReports.opt (h : OnlyReports t s) : t.opt = s.opt := (congrArg State.opt h :)

theorem OnlyReports.als (h : OnlyReports t s) : t.als = s.als := (congrArg State.als h :)

theorem State.closeGate_elseKept (p : Port) : (s.closeGate p).ElseKept s := by
  simp [State.ElseKept, State.ControlKept]

theorem State.closePort_elseKept (p : Port) : (s.closePort p).ElseKept s := by
  simp [State.ElseKept, State.ControlKept]

theorem State.gatesOff_elseKept : s.gatesOff.ElseKept s := by
  simp [State.ElseKept, State.ControlKept]

/-- Apart from the ports' entries the optics stand. -/
def State.PortsOnly (t s : State) : Prop := t.opt = { s.opt with ports := t.opt.ports }

theorem State.PortsOnly.trans (h : t.PortsOnly u) (k : u.PortsOnly s) : t.PortsOnly s := by
  rw [State.PortsOnly, h, k]

theorem State.closeGate_portsOnly (p : Port) : (s.closeGate p).PortsOnly s := by
  unfold State.PortsOnly State.closeGate
  split
  · rfl
  · simp [State.setSht, State.setOptPort]

theorem State.closePort_portsOnly (p : Port) : (s.closePort p).PortsOnly s := by
  refine State.PortsOnly.trans (u := s.closeGate p) ?_ (State.closeGate_portsOnly p)
  unfold State.closePort State.PortsOnly
  dsimp only
  split <;> simp [State.setOptPort]

theorem State.gatesOff_portsOnly : s.gatesOff.PortsOnly s := by
  unfold State.gatesOff
  refine List.foldlRecOn (motive := fun v => State.PortsOnly v s) _ _ rfl fun v h p _ => State.PortsOnly.trans ?_ h
  refine State.PortsOnly.trans ?_ (State.closeGate_portsOnly p)
  simp [State.PortsOnly]

theorem State.gatesOff_gatesClosed (h : t.opt.ports = s.gatesOff.opt.ports) (ha : t.als = s.gatesOff.als) (he : t.ElseKept s.gatesOff) :
    t.GatesClosed s := by
  refine ⟨fun p => ?_, by rw [ha]; simp, he.trans State.gatesOff_elseKept⟩
  rw [h]
  exact s.gatesOff_port p

end

section

variable {s t u : State}

/-! ## Rows that end READY (Table 2.10 rows 1 to 3) -/

theorem State.leaveReady_of_ready (h : s.opt.laser = .ready) (next_ : LaserSt) : (s.leaveReady next_).opt.laser = next_ := by
  have hl : s.gatesOff.opt.laser = .ready := by rw [s.gatesOff_portsOnly, h]
  simp [State.leaveReady, State.setOpt, hl]

theorem State.leaveReady_of_settling (h : s.opt.laser = .settling) (next_ : LaserSt) : (s.leaveReady next_).opt.laser = next_ := by
  have hl : s.gatesOff.opt.laser = .settling := by rw [s.gatesOff_portsOnly, h]
  simp only [State.leaveReady, State.setOpt, hl]
  split
  · next e => exact e.symm
  · rfl

theorem State.leaveReady_of_tuning (h : s.opt.laser = .tuning) (next_ : LaserSt) :
    (s.leaveReady next_).opt.laser = if next_ = .relock then .relock else .tuning := by
  have hl : s.gatesOff.opt.laser = .tuning := by rw [s.gatesOff_portsOnly, h]
  simp [State.leaveReady, State.setOpt, hl]

theorem State.leaveReady_rows (next_ : LaserSt) : (s.leaveReady next_).opt.rows = s.opt.rows := by
  have h : s.gatesOff.opt.rows = s.opt.rows := by rw [s.gatesOff_portsOnly]
  exact h

theorem State.leaveReady_counts (next_ : LaserSt) : (s.leaveReady next_).opt.lockLosses = s.opt.lockLosses ∧
    (s.leaveReady next_).opt.waveError = s.opt.waveError ∧ (s.leaveReady next_).opt.dieError = s.opt.dieError := by
  have h := s.gatesOff_portsOnly
  have hl : s.gatesOff.opt.lockLosses = s.opt.lockLosses := by rw [h]
  have hw : s.gatesOff.opt.waveError = s.opt.waveError := by rw [h]
  have hd : s.gatesOff.opt.dieError = s.opt.dieError := by rw [h]
  exact ⟨hl, hw, hd⟩

theorem State.leaveReady_now (next_ : LaserSt) : (s.leaveReady next_).now = s.now := by
  have h : s.gatesOff.now = s.now := by simp
  exact h

theorem State.setOpt_elseKept (f : Opt → Opt) : (s.setOpt f).ElseKept s :=
  ⟨⟨rfl, rfl, rfl, rfl, rfl, rfl, rfl, rfl, rfl, rfl, rfl, rfl, rfl, rfl, rfl⟩, rfl, rfl, rfl, rfl⟩

theorem State.report_elseKept (d : Domain) (code value : U32) : (s.report d code value).ElseKept s :=
  ⟨⟨rfl, rfl, rfl, rfl, rfl, rfl, rfl, rfl, rfl, rfl, rfl, rfl, rfl, rfl, rfl⟩, rfl, rfl, rfl, rfl⟩

theorem State.leaveReady_gatesClosed (next_ : LaserSt) : (s.leaveReady next_).GatesClosed s :=
  State.gatesOff_gatesClosed rfl rfl (State.setOpt_elseKept _)

/-- What GatesClosed says stands when nothing it names changes. -/
theorem State.GatesClosed.of_kept (h : u.GatesClosed s) (hp : t.opt.ports = u.opt.ports) (ha : t.als = u.als) (he : t.ElseKept u) :
    t.GatesClosed s := by
  obtain ⟨hg, hs, hk⟩ := h
  refine ⟨fun p => ?_, ha.trans hs, he.trans hk⟩
  rw [hp]
  exact hg p

theorem State.GatesClosed.setOpt (h : s.GatesClosed u) {f : Opt → Opt} (hf : ∀ o, (f o).ports = o.ports) : (s.setOpt f).GatesClosed u :=
  h.of_kept (hf _) rfl (State.setOpt_elseKept f)

theorem State.GatesClosed.countRow (h : s.GatesClosed u) (k : Fin 12) : (s.countRow k).GatesClosed u := h.setOpt fun _ => rfl

theorem State.recordRow_opt (k domain : Nat) (value : U32) : (s.recordRow k domain value).opt = s.opt :=
  OnlyReports.opt (s.record_hushed _)

theorem State.GatesClosed.record (h : s.GatesClosed u) (r : BbxRec) : (s.record r).GatesClosed u :=
  h.of_kept (congrArg Opt.ports (OnlyReports.opt (s.record_hushed r))) (OnlyReports.als (s.record_hushed r))
    (OnlyReports.elseKept (s.record_hushed r))

/-- Operands depend on the loaded image alone. -/
theorem State.relockLimit_of_cfg (h : t.cfg = u.cfg) : t.relockLimit = u.relockLimit := by
  simp only [State.relockLimit, State.optical, State.rec?, h]

/-- The wavelength row (R67, R68) while the laser is READY or another row has ended READY at this instant. -/
theorem execWavelengthOutOfWindow_leaves (dt : Nat) {err : Int} (hu : u = s.elapse dt) (hl : u.lsrOn = true) (he : 500 < err.natAbs)
    (hr : u.inReady = true) : ∃ t, exec (.wavelengthOutOfWindow dt err) s = .next t ∧ t.GatesClosed u ∧
      (u.opt.laser = .ready ∨ u.opt.laser = .settling → t.opt.laser = .tuning) ∧ t.opt.waveClose = false ∧ t.opt.waveError = err ∧
      t.opt.waveFault = some u.now ∧ t.opt.rows = upd u.opt.rows 1 (· + 1) := by
  obtain ⟨v, hv⟩ : ∃ v, v = u.setOpt fun o => { o with waveError := err } := ⟨_, rfl⟩
  obtain ⟨x, hx⟩ : ∃ x, x = (v.leaveReady .tuning).countRow 1 := ⟨_, rfl⟩
  obtain ⟨w, hw⟩ : ∃ w, w = x.setOpt fun o => { o with waveClose := false, waveFault := some x.now } := ⟨_, rfl⟩
  have e : exec (.wavelengthOutOfWindow dt err) s = .next (w.recordRow 2 2 (BitVec.ofInt 32 err)) := by
    simp only [exec, execWavelengthOutOfWindow, ← hu, hl, Bool.not_true, Bool.false_eq_true, if_false, hw, hx, hv]
    exact if_pos (by rw [decide_eq_true he, Bool.and_true]; exact hr)
  have hlaser : u.opt.laser = .ready ∨ u.opt.laser = .settling → (v.leaveReady .tuning).opt.laser = .tuning := by
    have hl' : v.opt.laser = u.opt.laser := by rw [hv]; rfl
    rintro (h | h)
    · exact State.leaveReady_of_ready (hl'.trans h) _
    · exact State.leaveReady_of_settling (hl'.trans h) _
  have hg : w.GatesClosed u := by
    have h := v.leaveReady_gatesClosed .tuning
    rw [hw, hx]
    rw [hv] at h ⊢
    exact State.GatesClosed.setOpt (State.GatesClosed.countRow h 1) fun _ => rfl
  refine ⟨_, e, hg.record _, ?_⟩
  rw [State.recordRow_opt, hw, hx]
  refine ⟨hlaser, rfl, ?_, ?_, ?_⟩
  · exact (v.leaveReady_counts .tuning).2.1.trans (by rw [hv]; rfl)
  · exact congrArg some ((v.leaveReady_now .tuning).trans (by rw [hv]; rfl))
  · exact congrArg (upd · 1 (· + 1)) ((v.leaveReady_rows .tuning).trans (by rw [hv]; rfl))

/-- The die row (R67, R68) likewise. -/
theorem execDieTempOutOfWindow_leaves (dt : Nat) {err : Int} {ms : Nat} (hu : u = s.elapse dt) (hl : u.lsrOn = true)
    (he : 100 < err.natAbs) (hm : 1000 ≤ ms) (hr : u.inReady = true) : ∃ t, exec (.dieTempOutOfWindow dt ⟨err, ms⟩) s = .next t ∧
      t.GatesClosed u ∧ (u.opt.laser = .ready → t.opt.laser = .settling) ∧ (u.opt.laser = .tuning → t.opt.laser = .tuning) ∧
      t.opt.dieClose = false ∧ t.opt.dieError = err ∧ t.opt.rows = upd u.opt.rows 2 (· + 1) := by
  obtain ⟨v, hv⟩ : ∃ v, v = u.setOpt fun o => { o with dieError := err } := ⟨_, rfl⟩
  obtain ⟨x, hx⟩ : ∃ x, x = (v.leaveReady .settling).countRow 2 := ⟨_, rfl⟩
  obtain ⟨w, hw⟩ : ∃ w, w = x.setOpt fun o => { o with dieClose := false } := ⟨_, rfl⟩
  have e : exec (.dieTempOutOfWindow dt ⟨err, ms⟩) s = .next (w.recordRow 3 2 (BitVec.ofInt 32 err)) := by
    simp only [exec, execDieTempOutOfWindow, ← hu, hl, Bool.not_true, Bool.false_eq_true, if_false, hw, hx, hv]
    exact if_pos (by rw [decide_eq_true he, decide_eq_true hm, Bool.and_true, Bool.and_true]; exact hr)
  have hl' : v.opt.laser = u.opt.laser := by rw [hv]; rfl
  have hready : u.opt.laser = .ready → (v.leaveReady .settling).opt.laser = .settling := fun h =>
    State.leaveReady_of_ready (hl'.trans h) _
  have htuning : u.opt.laser = .tuning → (v.leaveReady .settling).opt.laser = .tuning := fun h =>
    State.leaveReady_of_tuning (hl'.trans h) _
  have hg : w.GatesClosed u := by
    have h := v.leaveReady_gatesClosed .settling
    rw [hw, hx]
    rw [hv] at h ⊢
    exact State.GatesClosed.setOpt (State.GatesClosed.countRow h 2) fun _ => rfl
  refine ⟨_, e, hg.record _, ?_⟩
  rw [State.recordRow_opt, hw, hx]
  refine ⟨hready, htuning, rfl, ?_, ?_⟩
  · exact (v.leaveReady_counts .settling).2.2.trans (by rw [hv]; rfl)
  · exact congrArg (upd · 2 (· + 1)) ((v.leaveReady_rows .settling).trans (by rw [hv]; rfl))

/-- The lock row (R67): RELOCK with its first attempt. -/
theorem execInjectionLockLost_leaves (dt : Nat) (hu : u = s.elapse dt) (hl : u.lsrOn = true)
    (h : u.opt.laser = .ready ∨ u.opt.laser = .settling ∨ u.opt.laser = .tuning) : ∃ t, exec (.injectionLockLost dt) s = .next t ∧
      t.GatesClosed u ∧ t.opt.laser = .relock ∧ t.opt.lockDetected = false ∧ t.opt.lockLosses = u.opt.lockLosses + 1 ∧
      t.opt.rows = upd u.opt.rows 0 (· + 1) ∧ t.opt.attempts = 1 ∧
      (u.relockLimit = 0 ∨ 10 ≤ (u.opt.losses.filter fun x => decide (u.now < x + 60 * secP)).length → ∃ v, t.Reported 2 0x00068001#32 v) := by
  obtain ⟨recent, hrec⟩ : ∃ l, l = u.now :: u.opt.losses.filter fun t => decide (u.now < t + 60 * secP) := ⟨_, rfl⟩
  obtain ⟨x, hx⟩ : ∃ x, x = (u.leaveReady .relock).countRow 0 := ⟨_, rfl⟩
  obtain ⟨w, hw⟩ : ∃ w, w = x.setOpt fun o =>
    { o with lockDetected := false, lockLosses := o.lockLosses + 1, losses := recent, attempts := 1, attemptAt := x.now } := ⟨_, rfl⟩
  have hg : w.GatesClosed u := by
    rw [hw, hx]
    exact ((u.leaveReady_gatesClosed .relock).countRow 0).setOpt fun _ => rfl
  have hlaser : (u.leaveReady .relock).opt.laser = .relock := by
    rcases h with h | h | h
    · exact State.leaveReady_of_ready h _
    · exact State.leaveReady_of_settling h _
    · exact State.leaveReady_of_tuning h _
  have hlim : w.relockLimit = u.relockLimit := State.relockLimit_of_cfg hg.2.2.1.2.1
  have hw' : w.opt.laser = .relock ∧ w.opt.lockDetected = false ∧ w.opt.lockLosses = u.opt.lockLosses + 1 ∧
      w.opt.rows = upd u.opt.rows 0 (· + 1) ∧ w.opt.attempts = 1 := by
    rw [hw, hx]
    exact ⟨hlaser, rfl, congrArg (· + 1) (u.leaveReady_counts .relock).1, congrArg (upd · 0 (· + 1)) (u.leaveReady_rows .relock), rfl⟩
  have hcond : (u.lsrOn && (u.opt.laser == .ready || u.opt.laser == .settling || u.opt.laser == .tuning)) = true := by
    rcases h with h | h | h <;> rw [hl, h] <;> rfl
  have e : exec (.injectionLockLost dt) s = if w.relockLimit = 0 ∨ recent.length > 10 then
      .next (w.report 2 (optFault 1) (BitVec.ofNat 32 recent.length)) else .next (w.recordRow 1 2 (BitVec.ofNat 32 recent.length)) := by
    simp only [exec, execInjectionLockLost, ← hu, if_pos hcond, hw, hx, hrec]
  obtain ⟨h1, h2, h3, h4, h5⟩ := hw'
  by_cases hf : w.relockLimit = 0 ∨ recent.length > 10
  · rw [if_pos hf] at e
    refine ⟨_, e, hg.of_kept rfl rfl (State.report_elseKept ..), h1, h2, h3, h4, h5, fun _ => ⟨BitVec.ofNat 32 recent.length, ?_⟩⟩
    exact List.getLast?_concat
  · rw [if_neg hf] at e
    refine ⟨_, e, hg.record _, ?_⟩
    rw [State.recordRow_opt]
    refine ⟨h1, h2, h3, h4, h5, fun hn => absurd (hn.imp (fun k => hlim.trans k) fun k => ?_) hf⟩
    rw [hrec]
    exact Nat.lt_succ_of_le k

end

/-- Settles O14: the three rows that end READY go through `State.leaveReady`, which turns both gates off (`State.leaveReady_gatesClosed`). -/
theorem laserLossTurnsGatesOff : Obligations.LaserLossTurnsGatesOff := by
  intro s u dt err hu hl
  have hin : u.opt.laser = .ready → u.inReady = true := fun h => by rw [State.inReady, h]; rfl
  have hat : u.opt.leftReadyAt = some u.now → u.inReady = true := fun h => by
    rw [State.inReady, h, beq_self_eq_true, Bool.or_true]
  refine ⟨fun h => execInjectionLockLost_leaves dt hu hl h, fun he hr => ?_, fun he ms hm hr => ?_, fun he => ?_, fun ms he => ?_,
    fun he hr ha => ?_, fun he ms hm hr ha => ?_⟩
  · obtain ⟨t, e, hg, hlaser, k⟩ := execWavelengthOutOfWindow_leaves dt hu hl he (hin hr)
    exact ⟨t, e, hg, hlaser (.inl hr), k⟩
  · obtain ⟨t, e, hg, hlaser, -, k⟩ := execDieTempOutOfWindow_leaves dt hu hl he hm (hin hr)
    exact ⟨t, e, hg, hlaser hr, k⟩
  · simp only [exec, execWavelengthOutOfWindow, ← hu, hl, Bool.not_true, Bool.false_eq_true, if_false]
    exact if_neg (by simp [he])
  · simp only [exec, execDieTempOutOfWindow, ← hu, hl, Bool.not_true, Bool.false_eq_true, if_false]
    refine if_neg ?_
    rcases he with he | he <;> simp [he]
  · obtain ⟨t, e, hg, hlaser, -, -, hf, hrows⟩ := execWavelengthOutOfWindow_leaves dt hu hl he (hat ha)
    exact ⟨t, e, hg, hlaser (.inr hr), hf, hrows⟩
  · obtain ⟨t, e, hg, -, hlaser, hd, -, hrows⟩ := execDieTempOutOfWindow_leaves dt hu hl he hm (hat ha)
    exact ⟨t, e, hg, hlaser hr, hd, hrows⟩

section

variable {s t u : State}

/-! ## Rows that fence or warn (Table 2.10 rows 1 to 5) -/

theorem State.report_reported (d : Domain) (code value : U32) : (s.report d code value).Reported d code value := List.getLast?_concat

theorem State.report_onlyReports (h : OnlyReports s u) (d : Domain) (code value : U32) : OnlyReports (s.report d code value) u :=
  (s.report_hushed d code value).trans h

theorem State.report_warned (d : Domain) (code value c : U32) : (s.report d code value).warned c = s.warned c := rfl

theorem State.record_hatbandActs (r : BbxRec) : (s.record r).hatbandActs = s.hatbandActs :=
  State.hatbandActs_of_ctlStands (s.record_ctlStands r)

theorem execDieOverTemperature_cuts (dt : Nat) (hu : u = s.elapse dt) (hp : u.power.phase = .up) :
    ∃ t, exec (.dieOverTemperature dt) s = .next t ∧ t.GatesClosed u ∧ t.opt.laser = .fault ∧
       t.opt.lockDetected = false ∧ t.opt.tecCurrent = 0 ∧ t.opt.rows = upd u.opt.rows 3 (· + 1) ∧ t.Reported 2 0x00068004#32 0 := by
  obtain ⟨v, hv⟩ : ∃ v, v = u.gatesOff := ⟨_, rfl⟩
  have hlive : v.live = true := by
    have h : v.power = u.power := by simp [hv]
    rw [State.live, h, hp]
    rfl
  have hrows : v.opt.rows = u.opt.rows := by rw [hv, u.gatesOff_portsOnly]
  have hg : v.GatesClosed u := by
    rw [hv]
    exact State.gatesOff_gatesClosed rfl rfl (State.setOpt_elseKept id)
  obtain ⟨w, hw⟩ : ∃ w, w = v.setOpt fun o =>
      { o with
        leftReadyAt := if o.laser = .ready then some v.now else o.leftReadyAt
        laser := .fault, lockDetected := false, tecCurrent := 0, dieClose := false, waveClose := false, waveFault := none } := ⟨_, rfl⟩
  have e : exec (.dieOverTemperature dt) s = .next ((w.countRow 3).report 2 (optFault 4) 0) := by
    simp only [exec, execDieOverTemperature, ← hu, ← hv, hlive, if_true, hw]
  have hwg : (w.countRow 3).GatesClosed u := by
    rw [hw]
    exact (hg.setOpt fun _ => rfl).countRow 3
  refine ⟨_, e, hwg.of_kept rfl rfl (State.report_elseKept ..), ?_, ?_, ?_, ?_, State.report_reported ..⟩ <;> rw [hw]
  · rfl
  · rfl
  · rfl
  · exact congrArg (upd · 3 (· + 1)) hrows

theorem execLaserPowerLow_warns (dt : Nat) {n : Nat} (hu : u = s.elapse dt) (hl : u.lsrOn = true) (ha : u.hatbandActs = true)
    (hr : u.opt.everReady = true) (hn : n < 700) : ∃ t, exec (.laserPowerLow dt n) s = .next t ∧
      OnlyReports t { u with opt := { u.opt with rows := upd u.opt.rows 4 (· + 1), laserPower := BitVec.ofNat 32 n } } ∧
      t.warned 0x00060002#32 = true ∧ (n < 500 → t.Reported 2 0x00068005#32 (BitVec.ofNat 32 n)) := by
  obtain ⟨v, hv⟩ : ∃ v, v = (u.setOpt fun o => { o with laserPower := BitVec.ofNat 32 n }).countRow 4 := ⟨_, rfl⟩
  obtain ⟨w, hw⟩ : ∃ w, w = (v.recordRow 5 2 (BitVec.ofNat 32 n)).warn 0x00060002#32 (BitVec.ofNat 32 (n / 10)) true := ⟨_, rfl⟩
  have e : exec (.laserPowerLow dt n) s = if n < 500 then .next (w.report 2 (optFault 5) (BitVec.ofNat 32 n)) else .next w := by
    simp only [exec, execLaserPowerLow, ← hu, hl, hr, Bool.and_self, if_true, if_pos hn, hw, hv]
  have hact : (v.recordRow 5 2 (BitVec.ofNat 32 n)).hatbandActs = true := by
    rw [State.recordRow, State.record_hatbandActs, hv]
    exact ha
  have hwarn : w.warned 0x00060002#32 = true := by
    rw [hw]
    exact State.warn_warned _ _ _ _ hact
  have ho : OnlyReports w { u with opt := { u.opt with rows := upd u.opt.rows 4 (· + 1), laserPower := BitVec.ofNat 32 n } } := by
    rw [hw]
    refine ((State.warn_hushed ..).trans (State.record_hushed ..)).trans ?_
    rw [hv]
    rfl
  by_cases h5 : n < 500
  · rw [if_pos h5] at e
    exact ⟨_, e, State.report_onlyReports ho .., hwarn, fun _ => State.report_reported ..⟩
  · rw [if_neg h5] at e
    exact ⟨_, e, ho, hwarn, fun h => absurd h h5⟩

end

/-- Settles O15: row by row of Table 2.10; what warns or reports beside its counter leaves the rest (`OnlyReports`). -/
theorem laserFaultsAndWarnings : Obligations.LaserFaultsAndWarnings := by
  refine ⟨fun s u dt hu => ⟨fun hl hr ht hn => ?_, fun hl hr ht hn => ?_, fun t0 hf hl hr ht => ?_, fun err ms hl hr he hm => ?_,
    execDieOverTemperature_cuts dt hu⟩, fun s u dt n hu hl ha => ⟨execLaserPowerLow_warns dt hu hl ha, fun ms ho hf hm => ?_⟩⟩
  · have hc : (u.lsrOn && u.opt.laser == .relock && decide (u.opt.attemptAt + 300 * msP ≤ u.now)) = true := by
      rw [hl, hr, decide_eq_true ht]
      rfl
    simp only [exec, execRelockAttemptTimeout, ← hu, if_pos hc]
    exact if_neg (Nat.not_le.mpr hn)
  · have hc : (u.lsrOn && u.opt.laser == .relock && decide (u.opt.attemptAt + 300 * msP ≤ u.now)) = true := by
      rw [hl, hr, decide_eq_true ht]
      rfl
    simp only [exec, execRelockAttemptTimeout, ← hu, if_pos hc]
    exact if_pos hn
  · simp only [exec, execWavelengthRecoveryTimeout, ← hu, hf, hl, bne_iff_ne.mpr hr, decide_eq_true ht, Bool.and_self, if_true]
    rfl
  · simp only [exec, execDieTempFenceTimeout, ← hu, hl, Bool.not_true, Bool.false_eq_true, if_false]
    refine if_pos ?_
    rw [decide_eq_true he, decide_eq_true hm, Bool.and_true, Bool.and_true]
    rcases hr with h | h | h | h <;> simp [State.setOpt, h]
  · refine ⟨(u.setOpt fun o => { o with tecSaturated := true }).warn 0x00060001#32 0 true, ?_, ?_, ?_⟩
    · simp only [exec, execTecSaturated, ← hu, hl, bne_iff_ne.mpr ho, bne_iff_ne.mpr hf, decide_eq_true hm, Bool.and_self, if_true]
    · exact State.warn_hushed ..
    · exact State.warn_warned _ _ _ _ ha

section

variable {s t u : State} {p : Port}

/-! ## The ports' rows (Table 2.10 rows 6 to 9, 11 and 12) -/

/-- Gate and shutter of a port close, and nothing of the other one changes (R67). -/
theorem State.closePort_shuts (p : Port) : (s.closePort p).opt.ports[p].gate = none ∧ (s.closePort p).opt.ports[p].shutter = false ∧
    ∀ q, q ≠ p → (s.closePort p).opt.ports[q] = s.opt.ports[q] := by
  refine ⟨?_, ?_, fun q h => ?_⟩
  · rw [State.closePort_port, if_pos rfl, State.closeGate_port, if_pos rfl]
  · rw [State.closePort_port, if_pos rfl]
  · rw [State.closePort_port, if_neg h.symm]

/-- A port closed, its row counted and its launch domain reported. -/
theorem State.closePort_reported (p : Port) (k : Fin 12) (code value : U32) :
    let t := ((u.closePort p).countRow k).report (portDomain p) code value
    t.opt.ports[p].gate = none ∧ t.opt.ports[p].shutter = false ∧ t.opt.rows = upd u.opt.rows k (· + 1) ∧
      (∀ q, q ≠ p → t.opt.ports[q] = u.opt.ports[q]) ∧ t.als = u.als ∧ t.ElseKept u ∧ t.Reported (portDomain p) code value := by
  obtain ⟨hg, hs, hq⟩ := u.closePort_shuts p
  have hr : (u.closePort p).opt.rows = u.opt.rows := by rw [u.closePort_portsOnly p]
  have ha : (u.closePort p).als = u.als := by simp
  exact ⟨hg, hs, congrArg (upd · k (· + 1)) hr, hq, ha,
    (State.report_elseKept ..).trans ((State.setOpt_elseKept _).trans (u.closePort_elseKept p)), State.report_reported ..⟩

theorem execGateHeldTooLong_cuts (dt : Nat) (hu : u = s.elapse dt) {g : ShotFlight} (hg : u.opt.ports[p].gate = some g)
    (ht : g.openedAt + gateLimit ≤ u.now) : ∃ t, exec (.gateHeldTooLong dt p) s = .next t ∧
      t.opt.ports[p].gate = none ∧ t.opt.ports[p].shutter = u.opt.ports[p].shutter ∧
      t.opt.ports[p].gateCuts = u.opt.ports[p].gateCuts + 1 ∧ t.opt.rows = upd u.opt.rows 8 (· + 1) ∧
      (∀ q, q ≠ p → t.opt.ports[q] = u.opt.ports[q]) ∧ t.als = u.als ∧ t.ElseKept u ∧
      t.Reported (portDomain p) 0x00068009#32 (BitVec.ofNat 32 p.val) := by
  obtain ⟨v, hv⟩ : ∃ v, v = (u.closeGate p).setOpt fun o => { o with ports := upd o.ports p fun x => { x with gateCuts := x.gateCuts + 1 } } :=
    ⟨_, rfl⟩
  have e : exec (.gateHeldTooLong dt p) s = .next ((v.countRow 8).report (portDomain p) (optFault 9) (BitVec.ofNat 32 p.val)) := by
    simp only [exec, execGateHeldTooLong, ← hu, hg, hv]
    exact if_pos ht
  have hrows : v.opt.rows = u.opt.rows := by
    rw [hv]
    have h : (u.closeGate p).opt.rows = u.opt.rows := by rw [u.closeGate_portsOnly p]
    exact h
  have hp : v.opt.ports[p] = { (u.closeGate p).opt.ports[p] with gateCuts := (u.closeGate p).opt.ports[p].gateCuts + 1 } := by
    rw [hv]
    exact upd_get_same ..
  have hq (q : Port) (h : q ≠ p) : v.opt.ports[q] = u.opt.ports[q] := by
    rw [hv]
    exact (upd_get_other _ _ h).trans (by rw [State.closeGate_port, if_neg h.symm])
  have hk : v.als = u.als ∧ v.ElseKept u := by
    rw [hv]
    exact ⟨by simp [State.setOpt], (State.setOpt_elseKept _).trans (u.closeGate_elseKept p)⟩
  have h : ((v.countRow 8).report (portDomain p) (optFault 9) (BitVec.ofNat 32 p.val)).opt.ports = v.opt.ports := rfl
  refine ⟨_, e, ?_, ?_, ?_, congrArg (upd · 8 (· + 1)) hrows, hq, hk.1, (State.report_elseKept ..).trans ((State.setOpt_elseKept _).trans hk.2),
    State.report_reported ..⟩
  all_goals rw [h, hp, State.closeGate_port, if_pos rfl]

theorem execLaunchPeakLow_warns (dt : Nat) {n : Nat} {ts : Bool} (hu : u = s.elapse dt) (hl : u.launchOn p = true) (ha : u.hatbandActs = true)
    (hn : 100 < n) (hd : Config.soaLimit p ≤ u.opt.ports[p].driveOf ts) : ∃ t, exec (.launchPeakLow dt p ⟨ts, n⟩) s = .next t ∧
      OnlyReports t { u with opt := { u.opt with rows := upd u.opt.rows 6 (· + 1) } } ∧ t.warned 0x00060003#32 = true ∧
      (300 < n → t.Reported (portDomain p) 0x00068007#32 (BitVec.ofNat 32 n)) := by
  obtain ⟨v, hv⟩ : ∃ v, v = (u.countRow 6).recordRow 7 (portDomain p).val (BitVec.ofNat 32 p.val) := ⟨_, rfl⟩
  obtain ⟨w, hw⟩ : ∃ w, w = v.warn 0x00060003#32 (BitVec.ofNat 32 p.val) true (2 * p.val + if ts then 1 else 0) := ⟨_, rfl⟩
  have e : exec (.launchPeakLow dt p ⟨ts, n⟩) s =
      if n > 300 then .next (w.report (portDomain p) (optFault 7) (BitVec.ofNat 32 n)) else .next w := by
    simp only [exec, execLaunchPeakLow, ← hu, hl, Bool.not_true, Bool.false_eq_true, if_false, hw, hv]
    exact if_pos ⟨hn, hd⟩
  have hact : v.hatbandActs = true := by
    rw [hv, State.recordRow, State.record_hatbandActs]
    exact ha
  have hwarn : w.warned 0x00060003#32 = true := by
    rw [hw]
    exact State.warn_warned _ _ _ _ hact
  have ho : OnlyReports w { u with opt := { u.opt with rows := upd u.opt.rows 6 (· + 1) } } := by
    rw [hw]
    refine (State.warn_hushed_at ..).trans ?_
    rw [hv]
    exact State.record_hushed ..
  by_cases h3 : n > 300
  · rw [if_pos h3] at e
    exact ⟨_, e, State.report_onlyReports ho .., hwarn, fun _ => State.report_reported ..⟩
  · rw [if_neg h3] at e
    exact ⟨_, e, ho, hwarn, fun h => absurd h h3⟩

end

/-- Settles O16: the rows that close a port by `State.closePort_reported`, the gate held too long by what `State.closeGate` leaves of its port. -/
theorem portFaultsReport : Obligations.PortFaultsReport := by
  intro s u dt n p hu
  refine ⟨fun hl hg => ?_, fun hl hs => ?_, fun g hg ht => execGateHeldTooLong_cuts dt hu hg ht, fun hl hr hn => ?_, fun hl hr hn => ?_,
    fun ts hl ha hn hd => execLaunchPeakLow_warns dt hu hl ha hn hd⟩
  · refine ⟨_, ?_, u.closePort_reported p 5 _ _⟩
    simp only [exec, execLaunchPeakHigh, ← hu, hl, Option.isSome_iff_ne_none.mpr hg, Bool.and_self, if_true]
    rfl
  · refine ⟨_, ?_, u.closePort_reported p 7 _ _⟩
    simp only [exec, execLeakageBetweenPulses, ← hu, hl, hs, Bool.and_self, if_true]
    rfl
  · have hc : (u.launchOn p && u.opt.everReady && (n < 500 || n > 2000)) = true := by
      rw [hl, hr]
      simpa using hn
    simp only [exec, execLoPowerOutOfRange, ← hu, if_pos hc]
    rfl
  · have hc : (u.launchOn p && u.opt.everReady && (n < 25 || n > 400)) = true := by
      rw [hl, hr]
      simpa using hn
    simp only [exec, execPhotodiodeFault, ← hu, if_pos hc]
    rfl

section

variable {s t u : State} {p : Port}

/-! ## The first READY (Table 14.2) -/

theorem State.setAls_als_same (p : Port) (f : Als → Als) : (s.setAls p f).als[p] = f s.als[p] := upd_get_same ..

theorem State.setAls_als_other {q : Port} (h : q ≠ p) (f : Als → Als) : (s.setAls p f).als[q] = s.als[q] := upd_get_other _ _ h

theorem State.openShutter_portsOnly (p : Port) : (s.openShutter p).PortsOnly s := by
  unfold State.openShutter
  exact iteInduction (motive := fun v => State.PortsOnly v s) (fun _ => rfl) (fun _ => rfl)

theorem State.openShutter_als (p : Port) : (s.openShutter p).als = s.als := by simp

theorem State.openShutter_port_other {q : Port} (h : q ≠ p) : (s.openShutter p).opt.ports[q] = s.opt.ports[q] := by
  rw [State.openShutter_port, if_neg fun k => h k.1.symm]

/-- One port's automatic shutdown and shutter may change, nothing else of the optical engine or of the other port. -/
def State.PortMoves (t s : State) (p : Port) : Prop :=
  t.PortsOnly s ∧ t.ElseKept s ∧ ∀ q, q ≠ p → t.als[q] = s.als[q] ∧ t.opt.ports[q] = s.opt.ports[q]

theorem State.PortMoves.trans (h : t.PortMoves u p) (k : u.PortMoves s p) : t.PortMoves s p := by
  obtain ⟨ho, he, hq⟩ := h
  obtain ⟨ho', he', hq'⟩ := k
  exact ⟨ho.trans ho', he.trans he', fun q h => ⟨(hq q h).1.trans (hq' q h).1, (hq q h).2.trans (hq' q h).2⟩⟩

theorem State.PortMoves.of_rest (ho : t.opt = s.opt) (he : t.ElseKept s) (ha : ∀ q, q ≠ p → t.als[q] = s.als[q]) :
    t.PortMoves s p := ⟨by rw [State.PortsOnly, ho], he, fun q h => ⟨ha q h, by rw [ho]⟩⟩

theorem State.ElseKept.rfl : s.ElseKept s := State.setOpt_elseKept id

theorem State.setAls_portMoves (p : Port) (f : Als → Als) : (s.setAls p f).PortMoves s p :=
  .of_rest (by rfl) (State.setOpt_elseKept id) fun _ h => State.setAls_als_other h f

theorem State.openShutter_portMoves (p : Port) : (s.openShutter p).PortMoves s p :=
  ⟨State.openShutter_portsOnly p, by simp [State.ElseKept, State.ControlKept], fun q h =>
    ⟨by rw [State.openShutter_als], State.openShutter_port_other h⟩⟩

theorem State.requestRebase_portMoves (p : Port) : (s.requestRebase p).PortMoves s p :=
  .of_rest (by rfl) (State.setOpt_elseKept id) fun _ _ => by rfl

/-- A port whose permit is present returns to its ALS state (R431). -/
theorem State.alsResume_moves (p : Port) : (s.alsResume p).PortMoves s p ∧ (s.alsResume p).als[p].st =
    if s.alsDistance p = 0 then .disabled else if s.alsBlind then .suspended else .probe := by
  unfold State.alsResume
  split
  · refine ⟨(State.openShutter_portMoves p).trans (State.setAls_portMoves p _), ?_⟩
    simp only [State.openShutter_als, State.setAls_als_same]
  · split
    · exact ⟨State.setAls_portMoves p _, congrArg Als.st (State.setAls_als_same p _)⟩
    · refine ⟨(State.requestRebase_portMoves p).trans ((State.openShutter_portMoves p).trans (State.setAls_portMoves p _)), ?_⟩
      have h (v : State) : (v.requestRebase p).als = v.als := rfl
      simp only [State.enterProbe, h, State.openShutter_als, State.setAls_als_same]

theorem State.alsLeaveIdle_moves (p : Port) : (s.alsLeaveIdle p).PortMoves s p := by
  unfold State.alsLeaveIdle
  split
  · split
    · exact (State.alsResume_moves p).1
    · exact State.setAls_portMoves p _
  · exact .of_rest rfl State.ElseKept.rfl fun _ _ => rfl

theorem State.alsLeaveIdle_st (h : s.als[p].st = .idle) (hl : s.portLaunches p = true) : (s.alsLeaveIdle p).als[p].st =
    if s.hardPermit p = false then .held else if s.alsDistance p = 0 then .disabled else if s.alsBlind then .suspended else .probe := by
  unfold State.alsLeaveIdle
  rw [if_pos ⟨h, hl⟩]
  cases hp : s.hardPermit p with
  | true => simpa using (State.alsResume_moves p).2
  | false => exact congrArg Als.st (State.setAls_als_same p _)

theorem State.alsLeaveIdle_of_stays (h : s.als[p].st ≠ .idle ∨ s.portLaunches p = false) : s.alsLeaveIdle p = s := by
  unfold State.alsLeaveIdle
  rw [if_neg]
  rintro ⟨h1, h2⟩
  rcases h with h | h
  · exact h h1
  · exact absurd (h2.symm.trans h) (by decide)

/-! Operands depend on the loaded image alone, the permit and what blinds a probe on the levels at lands and the fences. -/

theorem State.rec?_of_cfg (h : t.cfg = u.cfg) (typ : Nat) (key : List Byte) : t.rec? typ key = u.rec? typ key := by
  rw [State.rec?, h, State.rec?]

theorem State.portLaunches_of_cfg (h : t.cfg = u.cfg) (p : Port) : t.portLaunches p = u.portLaunches p := by
  simp only [State.portLaunches, State.inUse, State.fibre, State.shotRec, State.pleats, State.tsEvery, State.rec?_of_cfg h]

theorem State.alsDistance_of_cfg (h : t.cfg = u.cfg) (p : Port) : t.alsDistance p = u.alsDistance p := by
  simp only [State.alsDistance, State.panelRec, State.rec?_of_cfg h]

theorem State.hardPermit_of_permits (h : t.permits = u.permits) (p : Port) : t.hardPermit p = u.hardPermit p := by
  simp only [State.hardPermit, h]

theorem State.isShut_of_doms (h : t.hb.doms = u.hb.doms) (d : Domain) : t.isShut d = u.isShut d := by
  simp only [State.isShut, State.dom, h]

theorem State.alsBlind_of_doms (h : t.hb.doms = u.hb.doms) : t.alsBlind = u.alsBlind := by
  simp only [State.alsBlind, State.isShut_of_doms h]

/-- The ports' shutdown at READY, port by port (Table 14.2). -/
theorem State.alsLeaveIdles_moves : (bothPorts.foldl State.alsLeaveIdle s).PortsOnly s ∧ (bothPorts.foldl State.alsLeaveIdle s).ElseKept s ∧
    (∀ p : Port, s.als[p].st = .idle → s.portLaunches p = true → (bothPorts.foldl State.alsLeaveIdle s).als[p].st =
      if s.hardPermit p = false then .held else if s.alsDistance p = 0 then .disabled else if s.alsBlind then .suspended else .probe) ∧
    ∀ p : Port, s.als[p].st ≠ .idle ∨ s.portLaunches p = false → (bothPorts.foldl State.alsLeaveIdle s).als[p] = s.als[p] ∧
      (bothPorts.foldl State.alsLeaveIdle s).opt.ports[p] = s.opt.ports[p] := by
  have hf : bothPorts.foldl State.alsLeaveIdle s = (s.alsLeaveIdle 0).alsLeaveIdle 1 := rfl
  rw [hf]
  obtain ⟨ho0, he0, hq0⟩ := s.alsLeaveIdle_moves 0
  obtain ⟨ho1, he1, hq1⟩ := (s.alsLeaveIdle 0).alsLeaveIdle_moves 1
  obtain ⟨ha, hp⟩ := hq0 1 (by decide)
  obtain ⟨⟨-, hc, -, -, -, hpm, hd, -⟩, -⟩ := id he0
  have hlaunch : (s.alsLeaveIdle 0).portLaunches 1 = s.portLaunches 1 := State.portLaunches_of_cfg hc 1
  refine ⟨ho1.trans ho0, he1.trans he0, fun p h hl => ?_, fun p h => ?_⟩
  · by_cases hp1 : (1 : Port) = p
    · subst hp1
      have k := State.alsLeaveIdle_st (s := s.alsLeaveIdle 0) (p := 1) ((congrArg Als.st ha).trans h) (hlaunch.trans hl)
      rwa [State.hardPermit_of_permits hpm, State.alsDistance_of_cfg hc, State.alsBlind_of_doms hd] at k
    · rw [(hq1 p (Ne.symm hp1)).1]
      have hp0 := (port_ne_iff p).mp hp1
      subst hp0
      exact State.alsLeaveIdle_st h hl
  · by_cases hp1 : (1 : Port) = p
    · subst hp1
      have h' : (s.alsLeaveIdle 0).als[(1 : Port)].st ≠ .idle ∨ (s.alsLeaveIdle 0).portLaunches 1 = false :=
        h.imp (fun k e => k ((congrArg Als.st ha).symm.trans e)) hlaunch.trans
      rw [State.alsLeaveIdle_of_stays h']
      exact ⟨ha, hp⟩
    · obtain ⟨h1, h2⟩ := hq1 p (Ne.symm hp1)
      have hp0 := (port_ne_iff p).mp hp1
      subst hp0
      rw [h1, h2, State.alsLeaveIdle_of_stays h]
      exact ⟨rfl, rfl⟩

end

section

variable {s t u : State} {p : Port}

/-- The laser's own registers at READY. -/
def State.readyNow (s : State) (de we : Int) : State :=
  s.setOpt fun o => { o with dieError := de, waveError := we, laser := .ready, everReady := true, waveFault := none, dieClose := true,
                             waveClose := true }

theorem execLaserReady_eq (dt : Nat) {de we : Int} (hu : u = s.elapse dt) (hl : u.lsrOn = true) (hs : u.opt.laser = .settling)
    (hd : de.natAbs ≤ 10) (hw : we.natAbs ≤ 50) (ht : u.opt.settlingAt + secP ≤ u.now) : exec (.laserReady ⟨dt, (de, we)⟩) s =
      .next (if u.opt.everReady = true then u.readyNow de we else bothPorts.foldl State.alsLeaveIdle (u.readyNow de we)) := by
  have hc : (u.lsrOn && u.opt.laser == .settling && decide (de.natAbs ≤ 10) && decide (we.natAbs ≤ 50) &&
      decide (u.opt.settlingAt + secP ≤ u.now)) = true := by
    rw [hl, hs, decide_eq_true hd, decide_eq_true hw, decide_eq_true ht]
    rfl
  simp only [exec, execLaserReady, ← hu, if_pos hc, State.laserReadyNow]
  cases he : u.opt.everReady <;> simp only [State.setOpt, he, Bool.not_false, Bool.not_true, Bool.false_eq_true, if_true, if_false] <;> rfl

theorem execLaserReady_ready (dt : Nat) {de we : Int} (hu : u = s.elapse dt) (hl : u.lsrOn = true) (hs : u.opt.laser = .settling)
    (hd : de.natAbs ≤ 10) (hw : we.natAbs ≤ 50) (ht : u.opt.settlingAt + secP ≤ u.now) :
    ∃ t, exec (.laserReady ⟨dt, (de, we)⟩) s = .next t ∧ t.opt.laser = .ready ∧ t.opt.everReady = true ∧
       t.opt.dieError = de ∧ t.opt.waveError = we ∧
       t.opt.waveFault = none ∧ t.opt.dieClose = true ∧ t.opt.waveClose = true ∧ t.ElseKept u ∧
       (u.opt.everReady = true →
         t = { u with opt := { u.opt with dieError := de, waveError := we, laser := .ready, everReady := true, waveFault := none,
                                          dieClose := true, waveClose := true } }) ∧
       (∀ p : Port, u.opt.everReady = false → u.als[p].st = .idle → u.portLaunches p = true → t.als[p].st =
         (if u.hardPermit p = false then .held else if u.alsDistance p = 0 then .disabled
           else if u.alsBlind then .suspended else .probe)) ∧
       (∀ p : Port, (u.als[p].st ≠ .idle ∨ u.portLaunches p = false) → t.als[p] = u.als[p] ∧ t.opt.ports[p] = u.opt.ports[p]) := by
  have hk : (u.readyNow de we).ElseKept u := State.setOpt_elseKept _
  refine ⟨_, execLaserReady_eq dt hu hl hs hd hw ht, ?_⟩
  cases he : u.opt.everReady with
  | true => exact ⟨rfl, rfl, rfl, rfl, rfl, rfl, rfl, hk, fun _ => rfl, fun _ h => absurd h (by decide), fun _ _ => ⟨rfl, rfl⟩⟩
  | false =>
    obtain ⟨ho, hek, hidle, hstay⟩ := State.alsLeaveIdles_moves (s := u.readyNow de we)
    rw [if_neg Bool.false_ne_true]
    refine ⟨?_, ?_, ?_, ?_, ?_, ?_, ?_, hek.trans hk, fun h => absurd h (by decide), fun p _ h hl => hidle p h hl, fun p h => hstay p h⟩
    all_goals rw [ho]; rfl

/-! ## LSR_RELEASE (R400 step 7) -/

/-- What a start check leaves: reports are only added, and flash and the rest of the device's state but the slices stand. -/
def State.Checked (t s : State) : Prop :=
  (∀ f ∈ s.hb.reports, f ∈ t.hb.reports) ∧ t.opt = s.opt ∧ t.cfg = s.cfg ∧ t.tim = s.tim ∧ t.mem.cells = s.mem.cells ∧ t.flash = s.flash ∧
    t.permits = s.permits ∧ t.hb.doms = s.hb.doms ∧ t.als = s.als ∧ t.sht = s.sht

theorem State.Checked.trans (h : t.Checked u) (k : u.Checked s) : t.Checked s := by
  unfold State.Checked at *
  grind

theorem State.Checked.refl : s.Checked s := ⟨fun _ h => h, rfl, rfl, rfl, rfl, rfl, rfl, rfl, rfl, rfl⟩

theorem State.report_checked (d : Domain) (code value : U32) : (s.report d code value).Checked s :=
  ⟨fun _ h => List.mem_append_left _ h, rfl, rfl, rfl, rfl, rfl, rfl, rfl, rfl, rfl⟩

theorem State.mem_report_reports (d : Domain) (code value : U32) : ⟨d, code, value⟩ ∈ (s.report d code value).hb.reports :=
  List.mem_append_right _ (List.mem_singleton_self _)

theorem State.setAcq_checked (p : Port) (f : Acq → Acq) : (s.setAcq p f).Checked s :=
  ⟨fun _ h => h, rfl, rfl, rfl, rfl, rfl, rfl, rfl, rfl, rfl⟩

theorem State.healthRecord_reports (kind domain : Nat) (code value : U32) :
    (s.healthRecord kind domain code value).hb.reports = s.hb.reports := by
  unfold State.healthRecord
  split
  · rfl
  · dsimp only
    rw [State.emitRec_hb]

theorem State.raise_reports (code value : U32) (holds : Bool) (place : Nat) :
    (s.raise code value holds place).hb.reports = s.hb.reports := by
  unfold State.raise
  dsimp only
  split
  · rfl
  · split
    · rfl
    · rw [State.msixEvent_hb, State.bbxEnqueue_hb, State.healthRecord_reports]

theorem State.record_reports (r : BbxRec) : (s.record r).hb.reports = s.hb.reports := by
  unfold State.record
  split
  · rw [State.bbxEnqueue_hb]
  · dsimp only
    rw [State.raise_reports, State.bbxEnqueue_hb]

theorem State.record_checked (r : BbxRec) : (s.record r).Checked s :=
  ⟨fun f h => by rwa [State.record_reports], by simp, by simp, by simp, by simp, by simp, by simp, by simp, by simp, by simp⟩

theorem State.markRetired_checked (p : Port) (l : Fin 4) (slice : Fin 5) (k : Nat) : (s.markRetired p l slice k).Checked s :=
  (State.record_checked _).trans (State.setAcq_checked p _)

theorem State.selfTestSlices_checked (p : Port) (failing : List (Fin 4 × Fin 5)) : (s.selfTestSlices p failing).1.Checked s := by
  unfold State.selfTestSlices
  refine List.foldlRecOn (motive := fun r : State × Bool => r.1.Checked s) _ _ State.Checked.refl fun r h f _ => ?_
  dsimp only
  split
  · split
    · exact (State.setAcq_checked p _).trans ((State.markRetired_checked ..).trans h)
    · exact (State.markRetired_checked ..).trans h
  · split
    · exact (State.markRetired_checked ..).trans h
    · exact h

theorem State.startSlices_checked (p : Port) (failing : List (Port × Fin 4 × Fin 5)) : (s.startSlices p failing).Checked s := by
  unfold State.startSlices
  split
  · extract_lets v r
    have hv : v.Checked s := by
      simp only [v]
      split
      · exact State.setAcq_checked p _
      · exact .refl
    have hr : r.1.Checked s := (State.selfTestSlices_checked p _).trans hv
    split
    · exact hr
    · exact (State.report_checked ..).trans hr
  · exact .refl

theorem State.dtsStarts_checked : (bothPorts.foldl (fun s p => s.dtsStart p false) s).Checked s :=
  List.foldlRecOn (motive := fun v => State.Checked v s) _ _ State.Checked.refl fun v h p _ =>
    State.Checked.trans ⟨fun _ h => h, by simp, by simp, by simp, by simp, by rfl, by simp, by simp, by simp, by simp⟩ h

theorem State.otherChecks_checked (l : List Domain) (s : State) : (l.foldl (fun s d => s.report d 0x00028001#32 0) s).Checked s ∧
    ∀ d ∈ l, ⟨d, 0x00028001#32, 0⟩ ∈ (l.foldl (fun s d => s.report d 0x00028001#32 0) s).hb.reports := by
  induction l generalizing s with
  | nil => exact ⟨.refl, fun d h => absurd h List.not_mem_nil⟩
  | cons d l ih =>
    obtain ⟨hk, hm⟩ := ih (s.report d 0x00028001#32 0)
    refine ⟨hk.trans (State.report_checked ..), fun e h => ?_⟩
    rcases List.mem_cons.mp h with rfl | h
    · exact hk.1 _ (State.mem_report_reports ..)
    · exact hm e h

theorem execLsrRelease_warms (dt : Nat) (c : StartChecks) (hu : u = s.elapse dt) (hp : u.power.phase = .up) (hc : u.cfg.state = 1)
    (ho : u.opt.laser = .off) : ∃ t, exec (.lsrRelease dt c) s = .next t ∧ t.opt = { u.opt with laser := .warming } ∧
       (c.supOk = false → ∃ f ∈ t.hb.reports, f.domain = 18) ∧ (c.tiuOk = false → ∃ f ∈ t.hb.reports, f.domain = 19) ∧
       (∀ d ∈ c.other, ⟨d, 0x00028001#32, 0⟩ ∈ t.hb.reports) ∧ t.cfg = u.cfg ∧ t.tim = u.tim ∧ t.mem.cells = u.mem.cells ∧
       t.flash = u.flash ∧ t.permits = u.permits ∧ t.hb.doms = u.hb.doms ∧ t.als = u.als ∧ t.sht = u.sht := by
  obtain ⟨v, hv⟩ : ∃ v, v = bothPorts.foldl (fun s p => s.startSlices p c.slices) u := ⟨_, rfl⟩
  obtain ⟨x, hx⟩ : ∃ x, x = if c.supOk then v else v.report 18 (supFault 9) 0 := ⟨_, rfl⟩
  obtain ⟨y, hy⟩ : ∃ y, y = if c.tiuOk then x else x.report 19 0x00058001#32 0 := ⟨_, rfl⟩
  obtain ⟨z, hz⟩ : ∃ z, z = c.other.foldl (fun s d => s.report d 0x00028001#32 0) y := ⟨_, rfl⟩
  have hcond : (u.live && u.cfg.state == 1 && u.opt.laser == .off) = true := by
    rw [State.live, hp, hc, ho]
    rfl
  have e : exec (.lsrRelease dt c) s =
      .next (bothPorts.foldl (fun s p => s.dtsStart p false) (z.setOpt fun o => { o with laser := .warming })) := by
    simp only [exec, execLsrRelease, ← hu, if_pos hcond, hz, hy, hx, hv]
  have kv : v.Checked u := by
    rw [hv]
    exact List.foldlRecOn (motive := fun v => State.Checked v u) _ _ .refl fun v h p _ => (State.startSlices_checked p _).trans h
  have kx : x.Checked v := by
    rw [hx]
    split
    · exact .refl
    · exact State.report_checked ..
  have ky : y.Checked x := by
    rw [hy]
    split
    · exact .refl
    · exact State.report_checked ..
  have kz : z.Checked y ∧ ∀ d ∈ c.other, ⟨d, 0x00028001#32, 0⟩ ∈ z.hb.reports := by
    rw [hz]
    exact State.otherChecks_checked c.other y
  obtain ⟨kz, hother⟩ := kz
  have hsup : c.supOk = false → ∃ f ∈ z.hb.reports, f.domain = 18 := fun h => by
    rw [h, if_neg Bool.false_ne_true] at hx
    exact ⟨⟨18, supFault 9, 0⟩, kz.1 _ (ky.1 _ (by rw [hx]; exact State.mem_report_reports ..)), rfl⟩
  have htiu : c.tiuOk = false → ∃ f ∈ z.hb.reports, f.domain = 19 := fun h => by
    rw [h, if_neg Bool.false_ne_true] at hy
    exact ⟨⟨19, 0x00058001#32, 0⟩, kz.1 _ (by rw [hy]; exact State.mem_report_reports ..), rfl⟩
  obtain ⟨hr, hopt, hcfg, htim, hmem, hfl, hpm, hd, ha, hsh⟩ :=
    State.dtsStarts_checked (s := z.setOpt fun o => { o with laser := .warming })
  obtain ⟨-, hopt', hcfg', htim', hmem', hfl', hpm', hd', ha', hsh'⟩ := kz.trans (ky.trans (kx.trans kv))
  refine ⟨_, e, ?_, fun h => ?_, fun h => ?_, fun d h => hr _ (hother d h), hcfg.trans hcfg', htim.trans htim', hmem.trans hmem',
    hfl.trans hfl', hpm.trans hpm', hd.trans hd', ha.trans ha', hsh.trans hsh'⟩
  · rw [hopt, ← hopt']
    rfl
  · obtain ⟨f, hf, hd⟩ := hsup h
    exact ⟨f, hr f hf, hd⟩
  · obtain ⟨f, hf, hd⟩ := htiu h
    exact ⟨f, hr f hf, hd⟩

end

/-- Settles O13: state by state; at the first READY the ports leave IDLE one after the other (`State.alsLeaveIdles_moves`), and at
LSR_RELEASE the checks only add reports (`State.Checked`). -/
theorem laserStartsInOrder : Obligations.LaserStartsInOrder := by
  refine ⟨fun s u dt hu hl => ⟨fun err hw => ?_, fun hk => ?_, fun hr => ?_, fun err ht => ?_,
    fun de we hs hd hw ht => execLaserReady_ready dt hu hl hs hd hw ht⟩, fun s u dt c hu hp hc ho => ?_⟩
  · by_cases he : err.natAbs ≤ 1000
    · have hc : (u.lsrOn && u.opt.laser == .warming && decide (err.natAbs ≤ 1000)) = true := by
        rw [hl, hw, decide_eq_true he]
        rfl
      simp only [exec, execLaserDieInWindow, ← hu, if_pos hc, if_pos he]
      rfl
    · simp only [exec, execLaserDieInWindow, ← hu, if_neg he, decide_eq_false he, Bool.and_false, Bool.false_eq_true, if_false]
  · simp only [exec, execInjectionLockDetected, ← hu, hl, hk, Bool.not_true, Bool.false_eq_true, if_false]
    rfl
  · simp only [exec, execInjectionLockDetected, ← hu, hl, hr, Bool.not_true, Bool.false_eq_true, if_false]
    rfl
  · by_cases he : err.natAbs ≤ 200
    · have hc : (u.lsrOn && u.opt.laser == .tuning && decide (err.natAbs ≤ 200)) = true := by
        rw [hl, ht, decide_eq_true he]
        rfl
      simp only [exec, execWavelengthTuned, ← hu, if_pos hc, if_pos he]
      rfl
    · simp only [exec, execWavelengthTuned, ← hu, if_neg he, decide_eq_false he, Bool.and_false, Bool.false_eq_true, if_false]
  · exact execLsrRelease_warms dt c hu hp hc ho

end Sys2Proof.Machine

/-! SUPPORT. Device time, the lock machine of the PLLs, sync edges and frames, and the discipline from PPS_IN: each operation's effect, and what an edge may change. -/

namespace Sys2Proof.Machine

section

variable {s t u : State}

/-! ## Device time (R115, R116) -/

/-- Device time with its fraction is below a wrap. -/
theorem Tim.full_lt (t : Tim) : t.full < 2 ^ 96 := by
  have ht := t.time.isLt
  have hf := t.frac.isLt
  unfold Tim.full
  omega

/-- A count of 2⁻³² LSB in the registers of device time. -/
theorem full_of_count (f : Nat) : (BitVec.ofNat 64 (f / 2 ^ 32)).toNat * 2 ^ 32 + (BitVec.ofNat 32 f).toNat = f % 2 ^ 96 := by
  simp only [BitVec.toNat_ofNat]
  omega

theorem Tim.advance_full {t : Tim} (h : t.runs = true) (dt : Nat) : (t.advance dt).full = (t.full + dt * t.incr) % 2 ^ 96 := by
  rw [Tim.advance, if_pos h]
  exact full_of_count _

theorem Tim.advance_wraps {t : Tim} (h : t.runs = true) (dt : Nat) :
    (t.advance dt).wraps = t.wraps + BitVec.ofNat 32 ((t.full + dt * t.incr) / 2 ^ 96) := by
  rw [Tim.advance, if_pos h]

/-- Extended device time moves by the increment for every period, as one number of 128 bits. -/
theorem Tim.advance_extended {t : Tim} (h : t.runs = true) (dt : Nat) :
    (t.advance dt).wraps.toNat * 2 ^ 96 + (t.advance dt).full = (t.wraps.toNat * 2 ^ 96 + t.full + dt * t.incr) % 2 ^ 128 := by
  rw [Tim.advance_full h, Tim.advance_wraps h, BitVec.toNat_add, BitVec.toNat_ofNat, Nat.add_assoc]
  generalize t.full + dt * t.incr = f
  have hw := t.wraps.isLt
  omega

/-- The periods to the next wrap take device time past it by less than one increment. -/
theorem Tim.toWrap_spec {t : Tim} (h : 0 < t.incr) : 2 ^ 96 ≤ t.full + t.toWrap * t.incr ∧ t.full + t.toWrap * t.incr < 2 ^ 96 + t.incr := by
  have hf := t.full_lt
  have hd := Nat.div_add_mod (2 ^ 96 - t.full + t.incr - 1) t.incr
  have hm := Nat.mod_lt (2 ^ 96 - t.full + t.incr - 1) h
  have hc : t.toWrap * t.incr = t.incr * ((2 ^ 96 - t.full + t.incr - 1) / t.incr) := Nat.mul_comm ..
  omega

end

/-- Settles O17: device time and its wraps are one number of 128 bits (`Tim.advance_extended`), and `Tim.toWrap` is the least count of
periods that wraps it. -/
theorem deviceTimeAdvances : Obligations.DeviceTimeAdvances := by
  refine ⟨fun s hr h0 h1 => ?_, fun s dt => ⟨fun h => if_neg (by simp [h]), fun h => Tim.advance_extended h dt⟩⟩
  obtain ⟨hlo, hhi⟩ := Tim.toWrap_spec h0
  have hfull : (s.tim.advance s.tim.toWrap).full = s.tim.full + s.tim.toWrap * s.tim.incr - 2 ^ 96 := by
    rw [Tim.advance_full hr]
    omega
  have hwraps : (s.tim.advance s.tim.toWrap).wraps = s.tim.wraps + 1 := by
    have h : (s.tim.full + s.tim.toWrap * s.tim.incr) / 2 ^ 96 = 1 := by omega
    rw [Tim.advance_wraps hr, h]
    rfl
  refine ⟨s.tim.toWrap, s.elapse s.tim.toWrap, if_pos hr, rfl, ?_, ?_, ?_⟩
  · rw [← hwraps]
    simp only [State.elapse, Tim.advance, if_pos hr]
  · exact hfull.trans_lt (by omega)
  · exact (congrArg (· + 2 ^ 96) hfull).trans (by omega)

section

variable {s t u : State} {k j : Pll}

/-! ## The lock machine (R107, R108, R110) -/

theorem State.setPll_pll (k : Pll) (f : PllUnit → PllUnit) : (s.setPll k f).pll k = f (s.pll k) := by
  cases k <;> rfl

theorem State.setPll_pll_other (h : j ≠ k) (f : PllUnit → PllUnit) : (s.setPll k f).pll j = s.pll j := by
  cases k <;> cases j
  case a.a | d.d => exact absurd rfl h
  all_goals rfl

theorem State.setPll_eq (k : Pll) (f : PllUnit → PllUnit) : s.setPll k f = { s with tim := (s.setPll k f).tim } := by
  cases k <;> rfl

theorem State.setPll_now (k : Pll) (f : PllUnit → PllUnit) : (s.setPll k f).now = s.now := by
  cases k <;> rfl

/-- Time and reports may change, nothing else. -/
def State.TimeReports (t s : State) : Prop := OnlyReports t { s with tim := t.tim }

theorem State.TimeReports.trans (h : t.TimeReports u) (k : u.TimeReports s) : t.TimeReports s := by
  have k' : ({ u with tim := t.tim } : State).hushed = ({ s with tim := t.tim } : State).hushed :=
    congrArg (fun x : State => { x with tim := t.tim }) k
  exact Eq.trans h k'

theorem State.TimeReports.of_eq (h : t = { s with tim := t.tim }) : t.TimeReports s := congrArg State.hushed h

theorem State.setPll_timeReports (k : Pll) (f : PllUnit → PllUnit) : (s.setPll k f).TimeReports s := .of_eq (s.setPll_eq k f)

theorem State.pllFailed_timeReports (k : Pll) : (s.pllFailed k).TimeReports s := by
  unfold State.pllFailed
  extract_lets x v
  have hv : v.TimeReports s := by
    simp only [v]
    split
    · exact .of_eq rfl
    · exact .of_eq rfl
  exact (State.report_hushed ..).trans ((State.setPll_timeReports k _).trans hv)

theorem State.pllCoast_timeReports (k : Pll) : (s.pllCoast k).TimeReports s := by
  have hk (f : PllUnit → PllUnit) : (s.setPll k f).TimeReports s := State.setPll_timeReports k f
  unfold State.pllCoast
  split
  · dsimp only
    split
    · exact (State.pllFailed_timeReports k).trans (hk _)
    · exact hk _
  · exact hk _
  · exact hk _
  all_goals exact .of_eq rfl

theorem State.bothCoast_timeReports : s.bothCoast.TimeReports s := (State.pllCoast_timeReports .d).trans (State.pllCoast_timeReports .a)

theorem State.pllFailed_st (k : Pll) : ((s.pllFailed k).pll k).st = .failed := by
  cases k <;> rfl

theorem State.pllFailed_other (h : j ≠ k) : (s.pllFailed k).pll j = s.pll j := by
  unfold State.pllFailed
  cases k <;> cases j
  · exact absurd rfl h
  · dsimp only
    split <;> rfl
  · dsimp only
    split <;> rfl
  · exact absurd rfl h

theorem State.pllFailed_reported (k : Pll) : ∃ v, (s.pllFailed k).Reported (match k with | .a => 3 | .d => 13) 0x00048001#32 v := by
  cases k
  · exact ⟨0, State.report_reported ..⟩
  · exact ⟨1, State.report_reported ..⟩

theorem State.pllCoast_other (h : j ≠ k) : (s.pllCoast k).pll j = s.pll j := by
  have hk (f : PllUnit → PllUnit) : (s.setPll k f).pll j = s.pll j := State.setPll_pll_other h f
  unfold State.pllCoast
  split
  · dsimp only
    split
    · exact (State.pllFailed_other h).trans (hk _)
    · exact hk _
  · exact hk _
  · exact hk _
  all_goals rfl

theorem State.coastLimit_of_cfg (h : t.cfg = u.cfg) : t.coastLimit = u.coastLimit := by
  simp only [State.coastLimit, State.clocks, State.rec?_of_cfg h]

theorem State.setPll_coastLimit (k : Pll) (f : PllUnit → PllUnit) : (s.setPll k f).coastLimit = s.coastLimit :=
  State.coastLimit_of_cfg (by cases k <;> rfl)

/-- A locked PLL coasts, and with COAST_LIMIT zero it has failed. -/
theorem State.pllCoast_of_locked (h : (s.pll k).st = .locked) (hl : s.coastLimit ≠ 0) :
    s.pllCoast k = s.setPll k fun x => { x with st := .coast, losses := x.losses + 1, since := s.now, coastAt := s.now } := by
  unfold State.pllCoast
  rw [h]
  dsimp only
  rw [State.setPll_coastLimit, if_neg hl]

theorem State.pllCoast_fails (h : (s.pll k).st = .locked) (hl : s.coastLimit = 0) : ((s.pllCoast k).pll k).st = .failed := by
  unfold State.pllCoast
  rw [h]
  dsimp only
  rw [State.setPll_coastLimit, if_pos hl]
  exact State.pllFailed_st k

theorem State.pllCoast_of_relock (h : (s.pll k).st = .relock) :
    s.pllCoast k = s.setPll k fun x => { x with st := .coast, losses := x.losses + 1, since := s.now } := by
  rw [State.pllCoast, h]

theorem State.pllCoast_of_coast (h : (s.pll k).st = .coast) : s.pllCoast k = s.setPll k fun x => { x with since := s.now } := by
  rw [State.pllCoast, h]

theorem State.TimeReports.now_cfg (h : t.TimeReports s) : t.now = s.now ∧ t.cfg = s.cfg :=
  ⟨(congrArg State.now h :), (congrArg State.cfg h :)⟩

/-- Of both PLLs each coasts as it would alone. -/
theorem State.bothCoast_pll (k : Pll) : ∃ v : State, v.pll k = s.pll k ∧ v.now = s.now ∧ v.coastLimit = s.coastLimit ∧
    s.bothCoast.pll k = (v.pllCoast k).pll k := by
  cases k with
  | a => exact ⟨s, rfl, rfl, rfl, State.pllCoast_other (by decide)⟩
  | d =>
    obtain ⟨hn, hc⟩ := (s.pllCoast_timeReports .a).now_cfg
    exact ⟨s.pllCoast .a, State.pllCoast_other (by decide), hn, State.coastLimit_of_cfg hc, rfl⟩

theorem State.bothCoast_of_locked (h : (s.pll k).st = .locked) (hl : s.coastLimit ≠ 0) :
    s.bothCoast.pll k = { s.pll k with st := .coast, losses := (s.pll k).losses + 1, since := s.now, coastAt := s.now } := by
  obtain ⟨v, hp, hn, hc, e⟩ := s.bothCoast_pll k
  rw [e, State.pllCoast_of_locked (by rw [hp, h]) (by rwa [hc]), State.setPll_pll, hp, hn]

theorem State.bothCoast_fails (h : (s.pll k).st = .locked) (hl : s.coastLimit = 0) : (s.bothCoast.pll k).st = .failed := by
  obtain ⟨v, hp, -, hc, e⟩ := s.bothCoast_pll k
  rw [e, State.pllCoast_fails (by rw [hp, h]) (by rwa [hc])]

theorem State.bothCoast_of_coast (h : (s.pll k).st = .coast) : s.bothCoast.pll k = { s.pll k with since := s.now } := by
  obtain ⟨v, hp, hn, -, e⟩ := s.bothCoast_pll k
  rw [e, State.pllCoast_of_coast (by rw [hp, h]), State.setPll_pll, hp, hn]

/-- With a COAST_LIMIT no PLL fails: time alone changes, and device time itself stands. -/
theorem State.pllCoast_eq (hl : s.coastLimit ≠ 0) (k : Pll) : ∃ f, s.pllCoast k = s.setPll k f := by
  unfold State.pllCoast
  split
  · dsimp only
    rw [State.setPll_coastLimit, if_neg hl]
    exact ⟨_, rfl⟩
  · exact ⟨_, rfl⟩
  · exact ⟨_, rfl⟩
  all_goals exact ⟨id, by cases k <;> rfl⟩

theorem State.bothCoast_eq (hl : s.coastLimit ≠ 0) : s.bothCoast = { s with tim := s.bothCoast.tim } ∧ s.bothCoast.tim.time = s.tim.time := by
  obtain ⟨f, hf⟩ := s.pllCoast_eq hl .a
  obtain ⟨g, hg⟩ := (s.setPll .a f).pllCoast_eq (by rwa [State.setPll_coastLimit]) .d
  have e : s.bothCoast = (s.setPll .a f).setPll .d g := by rw [State.bothCoast, hf, hg]
  rw [e]
  exact ⟨rfl, rfl⟩

end

/-- Settles O19: the timers by their conditions, the lost reference by what `State.bothCoast` makes of each PLL alone. -/
theorem pllTimersAct : Obligations.PllTimersAct := by
  intro s u dt k hu
  refine ⟨fun hs ht => ⟨fun h => ?_, fun h => ?_⟩, fun hs ht => ?_, fun hs ht => ?_, fun hs ht => ?_, fun hs => ?_, fun hs hl => ?_⟩
  · simp only [exec, execPllAcquireTimeout, ← hu, if_pos (And.intro hs ht)]
    exact if_neg (Nat.not_le.mpr h)
  · refine ⟨u.pllFailed k, ?_, State.pllFailed_st k, State.pllFailed_timeReports k, State.pllFailed_reported k⟩
    simp only [exec, execPllAcquireTimeout, ← hu, if_pos (And.intro hs ht)]
    exact if_pos h
  · simp only [exec, execPllRelockTimeout, ← hu, if_pos (And.intro hs ht), State.pllCoast_of_relock hs]
  · simp only [exec, execPllCoastRelock, ← hu, if_pos (And.intro hs ht)]
  · refine ⟨u.pllFailed k, ?_, State.pllFailed_st k, State.pllFailed_timeReports k, State.pllFailed_reported k⟩
    simp only [exec, execPllCoastLimit, ← hu, if_pos (And.intro hs ht)]
  · exact ⟨u.bothCoast, by simp only [exec, execRefclkLost, ← hu], State.bothCoast_of_coast hs, State.bothCoast_timeReports⟩
  · exact ⟨u.bothCoast, by simp only [exec, execRefclkLost, ← hu], State.bothCoast_of_locked hs hl, State.bothCoast_timeReports⟩

section

variable {s t u : State} {k j : Pll}

/-! ## The third good window (R104, R107, R112, R114) -/

theorem State.firstLock_eq : s.firstLock =
    { s with pnl := if s.tim.a.controlled = false then { s.pnl with scanFrom := s.now, colourAt := s.now } else s.pnl } := by
  unfold State.firstLock
  cases s.tim.a.controlled <;> rfl

theorem State.afterLockA_eq (was : PllSt) : s.afterLockA was = { s with tim := (s.afterLockA was).tim } := by
  unfold State.afterLockA
  split
  · rfl
  split
  · rfl
  split <;> rfl

theorem State.afterLockA_a (was : PllSt) : (s.afterLockA was).tim.a = s.tim.a := by
  unfold State.afterLockA
  split
  · rfl
  split
  · rfl
  split <;> rfl

theorem State.afterLockA_runs (was : PllSt) : (s.afterLockA was).tim.runs = true := by
  unfold State.afterLockA
  split
  · rfl
  have hr : s.tim.runs = true := by simp_all
  split
  · exact hr
  split <;> exact hr

theorem State.afterLockA_of_stopped (h : s.tim.runs = false) (was : PllSt) : s.afterLockA was = s.restartDividers.startTime := by
  simp [State.afterLockA, h]

/-- A later lock keeps device time as it runs (R114). -/
theorem State.afterLockA_kept (h : s.tim.runs = true) (was : PllSt) :
    (s.afterLockA was).tim.time = s.tim.time ∧ (s.afterLockA was).tim.wraps = s.tim.wraps ∧ (s.afterLockA was).tim.incr = s.tim.incr := by
  unfold State.afterLockA
  rw [if_neg (by simp [h])]
  split
  · exact ⟨rfl, rfl, rfl⟩
  split <;> exact ⟨rfl, rfl, rfl⟩

theorem State.afterLockA_restarts (h : s.tim.runs = true) (hm : s.syncMode = 0) (was : PllSt) :
    s.afterLockA was = s.restartDividers := by
  rw [State.afterLockA, if_neg (by simp [h]), if_pos (.inl hm)]

theorem State.afterLockA_realigns (h : s.tim.runs = true) (hm : s.syncMode ≠ 0) (hs : s.tim.sync ≠ .first) :
    s.afterLockA .relock = s.setTim fun t => { t with sync := .realign, syncAt := s.now } := by
  rw [State.afterLockA, if_neg (by simp [h]), if_neg (by simp [hm]), if_neg hs]

theorem State.syncMode_of_cfg (h : t.cfg = u.cfg) : t.syncMode = u.syncMode := by
  simp only [State.syncMode, State.timebase, State.rec?_of_cfg h]

/-- A PLL has locked: its unit, the coast time of a relock, and for PLL-A the panel's scan (R104, R107). -/
def State.pllLocked (s : State) (k : Pll) : State :=
  let x := s.pll k
  let s := if x.st = .relock then s.setTim fun t => { t with coastMs := s.coastFrom x.coastAt } else s
  let s := match k with | .a => s.firstLock | .d => s
  s.setPll k fun x => { x with st := .locked, good := 0, attempts := 0, controlled := true }

theorem State.coastTold_eq (b : Prop) [Decidable b] (n : U32) : (if b then s.setTim fun t => { t with coastMs := n } else s) =
    { s with tim := { s.tim with coastMs := if b then n else s.tim.coastMs } } := by
  split <;> rfl

theorem State.pllLocked_eq : s.pllLocked k = { s with tim := (s.pllLocked k).tim, pnl := (s.pllLocked k).pnl } := by
  unfold State.pllLocked
  simp only [State.coastTold_eq, State.firstLock_eq]
  cases k <;> rfl

theorem State.pllLocked_pnl : (s.pllLocked k).pnl =
    (if k = .a ∧ s.tim.a.controlled = false then { s.pnl with scanFrom := s.now, colourAt := s.now } else s.pnl) := by
  unfold State.pllLocked
  simp only [State.coastTold_eq, State.firstLock_eq]
  cases k with
  | a =>
    simp only [true_and]
    rfl
  | d => rfl

theorem State.pllLocked_pll : ((s.pllLocked k).pll k).st = .locked ∧ ((s.pllLocked k).pll k).controlled = true := by
  unfold State.pllLocked
  extract_lets
  rw [State.setPll_pll]
  exact ⟨rfl, rfl⟩

/-- With PLL-A's lock device time stands as it was. -/
theorem State.pllLocked_a_time : (s.pllLocked .a).tim.runs = s.tim.runs ∧ (s.pllLocked .a).tim.time = s.tim.time ∧
    (s.pllLocked .a).tim.wraps = s.tim.wraps ∧ (s.pllLocked .a).tim.incr = s.tim.incr ∧ (s.pllLocked .a).tim.sync = s.tim.sync ∧
    (s.pllLocked .a).tim.applied = s.tim.applied ∧ (s.pllLocked .a).now = s.now ∧ (s.pllLocked .a).cfg = s.cfg := by
  unfold State.pllLocked
  simp only [State.coastTold_eq, State.firstLock_eq]
  exact ⟨rfl, rfl, rfl, rfl, rfl, rfl, rfl, rfl⟩

/-- The third good window of a PLL that acquires (R107). -/
theorem exec_pllLockWindow_third {dt n : Nat} (hu : u = s.elapse dt) (hs : (u.pll k).st = .acquire ∨ (u.pll k).st = .relock)
    (hg : windowGood n (u.expectedCount k) = true) (h3 : 3 ≤ (u.pll k).good + 1) : exec (.pllLockWindow dt k n) s =
      .next (if k = .a then (u.pllLocked .a).afterLockA (u.pll .a).st else u.pllLocked k) := by
  have h3' : (u.pll k).good + 1 ≥ 3 := h3
  simp only [exec, execPllLockWindow, ← hu]
  cases k <;> rcases hs with hs | hs <;> rw [hs] <;> dsimp only <;> rw [if_pos hg, if_pos h3'] <;>
    simp only [State.pllLocked, hs, reduceCtorEq, if_true, if_false]

end

/-- Settles O18: the third good window by what `State.pllLocked` and `State.afterLockA` leave, a bad one by `State.bothCoast`. -/
theorem pllLocksAfterThree : Obligations.PllLocksAfterThree := by
  refine ⟨fun s u dt n k hu => ⟨fun hs => ⟨fun hb => ?_, fun hg h3 => ?_, fun hg h3 => ?_⟩, fun hs hg => ?_, fun hs hb hl => ?_,
    fun hs hb hl => ?_⟩, fun s u dt n hu hs hg h3 => ?_⟩
  · rcases hs with hs | hs <;> simp [exec, execPllLockWindow, ← hu, hs, hb]
  · have h3' : ¬ (u.pll k).good + 1 ≥ 3 := by omega
    rcases hs with hs | hs <;> simp only [exec, execPllLockWindow, ← hu, hs, hg, if_true, if_neg h3']
  · refine ⟨_, exec_pllLockWindow_third hu hs hg h3, ?_⟩
    obtain ⟨hl, hc⟩ := u.pllLocked_pll (k := k)
    have he := u.pllLocked_eq (k := k)
    have hp := u.pllLocked_pnl (k := k)
    cases k with
    | d => exact ⟨hl, hc, he, hp⟩
    | a =>
      simp only [if_true]
      have ha := (u.pllLocked .a).afterLockA_a (u.pll .a).st
      have he' := (u.pllLocked .a).afterLockA_eq (u.pll .a).st
      refine ⟨(congrArg PllUnit.st ha).trans hl, (congrArg PllUnit.controlled ha).trans hc, ?_, ?_⟩
      · rw [he', he]
      · refine (congrArg State.pnl he' :).trans (hp.trans ?_)
        simp only [true_and]
  · simp only [exec, execPllLockWindow, ← hu, hs, hg, if_true]
  · obtain ⟨he, ht⟩ := u.bothCoast_eq hl
    have hk := State.bothCoast_of_locked hs hl
    refine ⟨u.bothCoast, by simp [exec, execPllLockWindow, ← hu, hs, hb], ?_, ?_, ?_, he, fun j hj => ?_, ht⟩
    · rw [hk]
    · rw [hk]
    · rw [hk]
    · rw [State.bothCoast_of_locked hj hl]
  · exact ⟨u.bothCoast, by simp [exec, execPllLockWindow, ← hu, hs, hb], State.bothCoast_fails hs hl, State.bothCoast_timeReports⟩
  · refine ⟨_, exec_pllLockWindow_third hu hs hg h3, ?_⟩
    obtain ⟨hr, ht, hw, hi, hy, ha, hn, hc⟩ := u.pllLocked_a_time
    obtain ⟨v, hv⟩ : ∃ v, v = u.pllLocked .a := ⟨_, rfl⟩
    rw [← hv] at hr ht hw hi hy ha hn hc ⊢
    have hm := State.syncMode_of_cfg hc
    simp only [if_true]
    refine ⟨State.afterLockA_runs _, fun h0 => ?_, fun h1 => ?_, fun h1 h0 => ?_, fun h1 h0 h2 h4 => ?_⟩
    · rw [State.afterLockA_of_stopped (hr.trans h0), ← hm, ← ha]
      exact ⟨rfl, rfl, rfl, rfl, rfl, rfl⟩
    · obtain ⟨h5, h6, h7⟩ := State.afterLockA_kept (hr.trans h1) (u.pll .a).st
      exact ⟨h5.trans ht, h6.trans hw, h7.trans hi⟩
    · rw [State.afterLockA_restarts (hr.trans h1) (hm.trans h0), ← ha, ← hn]
      exact ⟨rfl, rfl⟩
    · have h2' : (u.pll .a).st = .relock := h2
      rw [h2', State.afterLockA_realigns (hr.trans h1) (by rwa [hm]) (by rwa [hy]), ← ha, ← hn]
      exact ⟨rfl, rfl, rfl⟩

section

variable {s t u : State} {c : U32}

/-! ## What an edge may change: time, its measurement, the schedules, and reports -/

theorem State.warned_of_raise (h : s.warned c = true) (code value : U32) (holds : Bool) (place : Nat) :
    (s.raise code value holds place).warned c = true := by
  cases ha : s.hatbandActs with
  | true => simp [State.raise_warned, ha, h]
  | false => simpa [State.raise, ha] using h

theorem State.warned_of_hb (e : t.hb = s.hb) (h : s.warned c = true) : t.warned c = true := by
  rwa [State.warned, e]

theorem State.warned_of_record (h : s.warned c = true) (r : BbxRec) : (s.record r).warned c = true := by
  unfold State.record
  split
  · exact State.warned_of_hb (State.bbxEnqueue_hb r) h
  · exact State.warned_of_raise (State.warned_of_hb (State.bbxEnqueue_hb r) h) ..

/-- Time, its measurement, the schedules, the free values and reports may change. -/
def State.TimeMoves (t s : State) : Prop := OnlyReports t { s with tim := t.tim, tiu := t.tiu, free := t.free, sht := t.sht }

theorem State.TimeMoves.trans (h : t.TimeMoves u) (k : u.TimeMoves s) : t.TimeMoves s := by
  have k' : ({ u with tim := t.tim, tiu := t.tiu, free := t.free, sht := t.sht } : State).hushed =
      ({ s with tim := t.tim, tiu := t.tiu, free := t.free, sht := t.sht } : State).hushed :=
    congrArg (fun x : State => { x with tim := t.tim, tiu := t.tiu, free := t.free, sht := t.sht }) k
  exact Eq.trans h k'

theorem State.TimeMoves.of_eq (h : t = { s with tim := t.tim, tiu := t.tiu, free := t.free, sht := t.sht }) : t.TimeMoves s :=
  congrArg State.hushed h

theorem OnlyReports.timeMoves (h : OnlyReports t s) : t.TimeMoves s := by
  have ht : t.tim = s.tim := (congrArg State.tim h :)
  have hi : t.tiu = s.tiu := (congrArg State.tiu h :)
  have hf : t.free = s.free := (congrArg State.free h :)
  have hs : t.sht = s.sht := (congrArg State.sht h :)
  unfold State.TimeMoves
  rw [ht, hi, hf, hs]
  exact h

theorem State.TimeMoves.cfg (h : t.TimeMoves s) : t.cfg = s.cfg := (congrArg State.cfg h :)
theorem State.TimeMoves.now (h : t.TimeMoves s) : t.now = s.now := (congrArg State.now h :)
theorem State.TimeMoves.ctlStands (h : t.TimeMoves s) : t.CtlStands s := (State.CtlStands.of_hushed h : t.CtlStands _)
theorem State.TimeMoves.hatbandActs (h : t.TimeMoves s) : t.hatbandActs = s.hatbandActs := State.hatbandActs_of_ctlStands h.ctlStands
theorem State.setTim_timeMoves (f : Tim → Tim) : (s.setTim f).TimeMoves s := .of_eq rfl
theorem State.record_timeMoves (r : BbxRec) : (s.record r).TimeMoves s := OnlyReports.timeMoves (State.record_hushed s r)
theorem State.warn_timeMoves (code value : U32) (holds : Bool) (place : Nat) : (s.warn code value holds place).TimeMoves s :=
  OnlyReports.timeMoves (State.warn_hushed_at ..)
theorem State.emitEdge_onlyReports (kind : Nat) (entry : List Byte) : OnlyReports (s.emitEdge kind entry) s :=
  State.emitRec_hushed s _
theorem State.emitEdge_hb (kind : Nat) (entry : List Byte) : (s.emitEdge kind entry).hb = s.hb := State.emitRec_hb _

/-- The time-interval unit and reports may change. -/
def State.Measured (t s : State) : Prop := OnlyReports t { s with tiu := t.tiu }

theorem State.Measured.timeMoves (h : t.Measured s) : t.TimeMoves s := by
  have ht : t.tim = s.tim := (congrArg State.tim h :)
  have hf : t.free = s.free := (congrArg State.free h :)
  have hs : t.sht = s.sht := (congrArg State.sht h :)
  unfold State.TimeMoves
  rw [ht, hf, hs]
  exact h

theorem State.Measured.trans (h : t.Measured u) (k : u.Measured s) : t.Measured s := by
  have k' : ({ u with tiu := t.tiu } : State).hushed = ({ s with tiu := t.tiu } : State).hushed :=
    congrArg (fun x : State => { x with tiu := t.tiu }) k
  exact Eq.trans h k'

theorem State.Measured.of_eq (h : t = { s with tiu := t.tiu }) : t.Measured s := congrArg State.hushed h

theorem OnlyReports.measured (h : OnlyReports t s) : t.Measured s := by
  have hi : t.tiu = s.tiu := (congrArg State.tiu h :)
  unfold State.Measured
  rw [hi]
  exact h

theorem State.retireChannel_measured (k : Fin 8) : (s.retireChannel k).Measured s := by
  unfold State.retireChannel
  extract_lets
  split
  · exact (OnlyReports.measured (State.record_hushed ..)).trans (.of_eq rfl)
  · exact OnlyReports.measured (State.report_hushed ..)

theorem State.Measured.ite {c : Prop} [Decidable c] (h : t.Measured s) (k : u.Measured s) : (if c then t else u).Measured s := by
  split
  · exact h
  · exact k

theorem State.tiu_measured (x : Tiu) : ({ s with tiu := x } : State).Measured s := rfl

theorem State.measure_measured (input : Nat) (m : TiuMeas) : (s.measure input m).1.Measured s := by
  unfold State.measure
  split
  · exact .of_eq rfl
  split
  · exact .of_eq rfl
  split
  · exact State.tiu_measured _
  extract_lets ok src w v time x
  have hw : w.Measured s := State.tiu_measured _
  have hx : x.Measured s := .ite ((State.retireChannel_measured _).trans hw) hw
  exact hx

/-- The stamp of an edge (R132): of time only the mark of a coarse time. -/
theorem State.stampEdge_timeMoves (input : Nat) (m : TiuMeas) : (s.stampEdge input m).1.TimeMoves s ∧
    (s.stampEdge input m).1.free = s.free ∧ (s.stampEdge input m).1.sht = s.sht ∧
    ∃ b, (s.stampEdge input m).1.tim = { s.tim with coarse := b } ∧
      ∀ e, (s.stampEdge input m).2 = some e → e.2 = b := by
  have hm := s.measure_measured input m
  have ht : (s.measure input m).1.tim = s.tim := (congrArg State.tim hm :)
  have hf : (s.measure input m).1.free = s.free := (congrArg State.free hm :)
  have hs : (s.measure input m).1.sht = s.sht := (congrArg State.sht hm :)
  unfold State.stampEdge
  split
  · exact ⟨.of_eq rfl, rfl, rfl, true, rfl, fun e h => by rw [← Option.some.inj h]⟩
  dsimp only
  split
  · refine ⟨(State.setTim_timeMoves _).trans hm.timeMoves, hf, hs, false, congrArg (fun x : Tim => { x with coarse := false }) ht, fun e h => ?_⟩
    obtain ⟨x, -, rfl⟩ := Option.map_eq_some_iff.mp h
    rfl
  · next hn =>
    refine ⟨hm.timeMoves, hf, hs, s.tim.coarse, ht, fun e h => ?_⟩
    simp_all

/-! ## Steps of device time (R87, R117) -/

theorem State.rebaseSlots_eq (old : Tim) (p : Port) : State.rebaseSlots old s p = { s with sht := (State.rebaseSlots old s p).sht } := by
  unfold State.rebaseSlots
  split
  · rfl
  extract_lets
  split <;> rfl

theorem State.moveTime_eq (d : Int) : s.moveTime d = { s with tim := s.tim.shift d, sht := (s.moveTime d).sht } := by
  have h (old : Tim) (l : List Port) (v : State) : l.foldl (State.rebaseSlots old) v =
      { v with sht := (l.foldl (State.rebaseSlots old) v).sht } := by
    refine List.foldlRecOn (motive := fun w : State => w = { v with sht := w.sht }) _ _ rfl fun w hw p _ => ?_
    exact (State.rebaseSlots_eq old p).trans (congrArg (fun x : State => { x with sht := (State.rebaseSlots old w p).sht }) hw)
  exact h ..

theorem State.moveTime_tim (d : Int) : (s.moveTime d).tim = s.tim.shift d := by rw [State.moveTime_eq]

theorem State.moveTime_timeMoves (d : Int) : (s.moveTime d).TimeMoves s := by
  refine .of_eq ?_
  have h := s.moveTime_eq d
  have ht : (s.moveTime d).tiu = s.tiu := (congrArg State.tiu h :)
  have hf : (s.moveTime d).free = s.free := (congrArg State.free h :)
  rw [ht, hf, State.moveTime_tim]
  exact h

theorem State.stepTime_tim (d : Int) : (s.stepTime d).tim = { s.tim.shift d with steps := s.tim.steps + 1 } := by
  simp only [State.stepTime, State.record_keeps, State.setTim, State.moveTime_tim]
  rfl

theorem State.stepTime_timeMoves (d : Int) : (s.stepTime d).TimeMoves s :=
  (State.record_timeMoves _).trans ((State.setTim_timeMoves _).trans (State.moveTime_timeMoves d))

theorem State.stepTime_free (d : Int) : (s.stepTime d).free = s.free := by
  have h := s.moveTime_eq d
  have hr (v : State) (r : BbxRec) : (v.record r).free = v.free := (congrArg State.free (State.record_hushed v r) :)
  exact (hr _ _).trans (congrArg State.free h :)

theorem State.stepTime_warned (h : s.warned c = true) (d : Int) : (s.stepTime d).warned c = true := by
  have e : (s.moveTime d).hb = s.hb := (congrArg State.hb (s.moveTime_eq d) :)
  exact State.warned_of_record (State.warned_of_hb (show ((s.moveTime d).setTim _).hb = _ from e) h) _

/-- A shift moves extended device time, as one number of 128 bits (R117). -/
theorem Tim.shift_extended (x : Tim) (d : Int) : ((x.shift d).extended : Int) = (x.extended + d * 2 ^ 32) % (2 ^ 128 : Nat) := by
  have h : ((x.shift d).extended : Int) = ((((x.extended : Int) + d * 2 ^ 32) % (2 ^ 128 : Nat)).toNat % 2 ^ 128 : Nat) := by
    unfold Tim.shift Tim.extended Tim.full
    simp only [BitVec.toNat_ofNat]
    omega
  rw [h]
  omega

end

section

variable {s t u v : State}

/-! ## SYNC_IN (R112, R113) -/

theorem State.live_of_up (h : u.power.phase = .up) : u.live = true := by rw [State.live, h]; rfl

theorem OnlyReports.tim (h : OnlyReports t s) : t.tim = s.tim := (congrArg State.tim h :)

theorem State.shotInFlight_of_eq (ho : t.opt = u.opt) (ha : t.acq = u.acq) (hd : t.dts = u.dts) (hn : t.now = u.now) (p : Port) :
    t.shotInFlight p = u.shotInFlight p := by
  simp only [State.shotInFlight, ho, ha, hd, hn]

theorem State.TimeMoves.shotInFlight (h : t.TimeMoves u) (p : Port) : t.shotInFlight p = u.shotInFlight p :=
  State.shotInFlight_of_eq (congrArg State.opt h :) (congrArg State.acq h :) (congrArg State.dts h :) h.now p

/-- What a SYNC_IN edge that acts makes of the stamped state, up to its TIMING record. -/
theorem exec_syncInEdge (dt low : Nat) (m : TiuMeas) (offset : Int) (hu : u = s.elapse dt) (hp : u.power.phase = .up)
    (hr : u.tim.runs = true) (hm : u.syncMode ≠ 0) (hl : u.syncMode = 2 → 64 ≤ low) :
    ∃ t v : State, exec (.syncInEdge dt m low offset) s = .next t ∧ OnlyReports t (v.syncEdge offset).1 ∧ t.hb = (v.syncEdge offset).1.hb ∧
      v.TimeMoves u ∧ v.free = u.free ∧ v.sht = u.sht ∧ ∃ b x, v.tim = { u.tim with coarse := b, syncEdge := x } := by
  obtain ⟨hv, hf, hs, b, ht, -⟩ := u.stampEdge_timeMoves 3 m
  obtain ⟨x, hx⟩ : ∃ x, x = (u.stampEdge 3 m).2.map fun e => (u.stampEdge 3 m).1.extOf e.1 := ⟨_, rfl⟩
  obtain ⟨v, hv'⟩ : ∃ v, v = (u.stampEdge 3 m).1.setTim fun t => { t with syncEdge := x } := ⟨_, rfl⟩
  have hc : (!u.live || !u.tim.runs || u.syncMode == 0 || (u.syncMode == 2 && decide (low < 64))) = false := by
    rw [State.live_of_up hp, hr]
    simp only [Bool.not_true, Bool.false_or, Bool.or_eq_false_iff, beq_eq_false_iff_ne, Bool.and_eq_false_imp, beq_iff_eq,
      decide_eq_false_iff_not, Nat.not_lt]
    exact ⟨hm, hl⟩
  have hw : v.TimeMoves u := by rw [hv']; exact (State.setTim_timeMoves _).trans hv
  have hrest : v.free = u.free ∧ v.sht = u.sht ∧ ∃ b x, v.tim = { u.tim with coarse := b, syncEdge := x } := by
    rw [hv']
    exact ⟨hf, hs, b, x, congrArg (fun t : Tim => { t with syncEdge := x }) ht⟩
  cases he : (u.stampEdge 3 m).2 with
  | none =>
    refine ⟨(v.syncEdge offset).1, v, ?_, rfl, rfl, hw, hrest⟩
    simp only [exec, execSyncInEdge, ← hu]
    rw [if_neg (by simp [hc])]
    simp only [he] at hx ⊢
    rw [hv', hx]
  | some e =>
    obtain ⟨k, hk⟩ : ∃ k, exec (.syncInEdge dt m low offset) s = .next ((v.syncEdge offset).1.emitEdge 1 k) := by
      simp only [exec, execSyncInEdge, ← hu]
      rw [if_neg (by simp [hc])]
      simp only [he] at hx ⊢
      rw [hv', hx]
      exact ⟨_, rfl⟩
    exact ⟨_, v, hk, State.emitEdge_onlyReports .., State.emitEdge_hb .., hw, hrest⟩

theorem State.syncEdge_first (h : s.tim.sync = .first) (offset : Int) : (s.syncEdge offset).1 =
    (s.restartDividers.moveTime (-(s.extTime : Int))).setTim fun t => { t with frac := 0, sync := .none } := by
  rw [State.syncEdge, h]
  rfl

theorem State.syncEdge_waits (h : s.tim.sync = .realign) (hs : s.shotInFlight 0 = true ∨ s.shotInFlight 1 = true) (offset : Int) :
    (s.syncEdge offset).1 = s := by
  rw [State.syncEdge, h]
  exact congrArg Prod.fst (if_pos (by simpa using hs))

theorem State.syncEdge_realigns (h : s.tim.sync = .realign) (h0 : s.shotInFlight 0 = false) (h1 : s.shotInFlight 1 = false)
    (offset : Int) : (s.syncEdge offset).1 = s.restartDividers.setTim fun t => { t with sync := .none } := by
  rw [State.syncEdge, h]
  exact congrArg Prod.fst (if_neg (by simp [h0, h1]))

theorem State.syncEdge_confirms (h : s.tim.sync = .none) : (s.syncEdge 0).1 = s.setTim fun t => { t with confirmed := t.confirmed + 1 } := by
  rw [State.syncEdge, h]
  rfl

theorem State.syncEdge_mismatches (h : s.tim.sync = .none) {offset : Int} (ho : offset ≠ 0) : (s.syncEdge offset).1 =
    (s.setTim fun t => { t with mismatch := t.mismatch + 1, sync := .realign, syncAt := s.now }).warn 0x00040002#32 (BitVec.ofInt 32 offset) := by
  rw [State.syncEdge, h]
  exact congrArg Prod.fst (if_neg ho)

/-- Taken back by itself, extended device time is zero. -/
theorem State.shift_back : (s.tim.shift (-(s.extTime : Int))).time = 0 ∧ (s.tim.shift (-(s.extTime : Int))).wraps = 0 := by
  have h : (((s.tim.wraps.toNat * 2 ^ 96 + s.tim.full : Nat) : Int) + -(s.extTime : Int) * 2 ^ 32) % (2 ^ 128 : Nat) = s.tim.frac.toNat := by
    have := s.tim.frac.isLt
    unfold Tim.full State.extTime
    omega
  have hf := s.tim.frac.isLt
  unfold Tim.shift
  simp only [h]
  constructor
  · apply BitVec.eq_of_toNat_eq
    simp only [BitVec.toNat_ofNat, BitVec.ofNat_eq_ofNat]
    omega
  · apply BitVec.eq_of_toNat_eq
    simp only [BitVec.toNat_ofNat, BitVec.ofNat_eq_ofNat]
    omega

theorem State.syncEdge_timeMoves (offset : Int) : (s.syncEdge offset).1.TimeMoves s ∧ (s.syncEdge offset).1.free = s.free := by
  unfold State.syncEdge
  split
  · refine ⟨(State.setTim_timeMoves _).trans ((State.moveTime_timeMoves _).trans (.of_eq rfl)), ?_⟩
    exact (congrArg State.free (State.moveTime_eq _) :)
  · split
    · exact ⟨.of_eq rfl, rfl⟩
    · exact ⟨.of_eq rfl, rfl⟩
  · split
    · exact ⟨.of_eq rfl, rfl⟩
    · exact ⟨(State.warn_timeMoves ..).trans (State.setTim_timeMoves _), (congrArg State.free (State.warn_hushed_at ..) :)⟩

/-- Only the first edge moves the schedules. -/
theorem State.syncEdge_sht (h : s.tim.sync ≠ .first) (offset : Int) : (s.syncEdge offset).1.sht = s.sht := by
  unfold State.syncEdge
  split
  · next e => exact absurd e h
  · split <;> rfl
  · split
    · rfl
    · exact (congrArg State.sht (State.warn_hushed_at ..) :)

end

/-- Settles O20: the stamped state, then `State.syncEdge` by what is awaited. -/
theorem syncEdgesAct : Obligations.SyncEdgesAct := by
  intro s u dt low m offset hu hp hr hm hl
  obtain ⟨t, v, e, ho, hb, hv, hf, hs, b, x, ht⟩ := exec_syncInEdge dt low m offset hu hp hr hm hl
  obtain ⟨hy, hyf⟩ := v.syncEdge_timeMoves offset
  have htt := ho.tim
  have hsync : v.tim.sync = u.tim.sync := (congrArg Tim.sync ht :)
  have happ : v.tim.applied = u.tim.applied := (congrArg Tim.applied ht :)
  have htime : v.tim.time = u.tim.time := (congrArg Tim.time ht :)
  have hcon : v.tim.confirmed = u.tim.confirmed := (congrArg Tim.confirmed ht :)
  have hmis : v.tim.mismatch = u.tim.mismatch := (congrArg Tim.mismatch ht :)
  have hnow := hv.now
  refine ⟨t, e, ?_, fun h => ?_, fun h => ?_, fun h h0 h1 => ?_, fun h h0 => ?_, fun h h0 => ?_, fun h h0 => ?_⟩
  · have hfree : t.free = u.free := ((congrArg State.free ho :).trans hyf).trans hf
    have h := ho.timeMoves.trans (hy.trans hv)
    unfold State.TimeMoves at h
    rwa [hfree] at h
  · exact ((congrArg State.sht ho :).trans (State.syncEdge_sht (by rwa [hsync]) offset)).trans hs
  · rw [htt, State.syncEdge_first (hsync.trans h)]
    obtain ⟨h1, h2⟩ := v.shift_back
    have hmv : (v.restartDividers.moveTime (-(v.extTime : Int))).tim = v.restartDividers.tim.shift (-(v.extTime : Int)) := State.moveTime_tim _
    simp only [State.setTim, hmv]
    exact ⟨h1, h2, trivial, trivial, congrArg (· + 1) happ, hnow⟩
  · rw [htt, State.syncEdge_realigns (hsync.trans h) ((hv.shotInFlight 0).trans h0) ((hv.shotInFlight 1).trans h1)]
    exact ⟨htime, rfl, congrArg (· + 1) happ, hnow⟩
  · rw [htt, State.syncEdge_waits (hsync.trans h) (by rwa [hv.shotInFlight, hv.shotInFlight])]
    exact ⟨hsync.trans h, happ, htime⟩
  · subst h0
    rw [htt, State.syncEdge_confirms (hsync.trans h)]
    exact ⟨congrArg (· + 1) hcon, hsync.trans h, htime⟩
  · rw [htt, State.syncEdge_mismatches (hsync.trans h) h0]
    simp only [State.warn_keeps]
    refine ⟨congrArg (· + 1) hmis, rfl, hnow, htime, fun ha => ?_⟩
    refine State.warned_of_hb hb ?_
    rw [State.syncEdge_mismatches (hsync.trans h) h0]
    exact State.warn_warned _ _ _ _ (hv.hatbandActs.trans ha)

section

variable {s t u v : State}

theorem State.stepPermits_of_kept (hc : t.cfg = u.cfg) (hs : t.sht = u.sht) : t.stepPermits = u.stepPermits := by
  simp only [State.stepPermits, State.stepMode, State.timebase, State.rec?_of_cfg hc, hs]

theorem State.stepTime_onlyReports (d : Int) : OnlyReports (s.stepTime d) { s with tim := (s.stepTime d).tim, sht := (s.stepTime d).sht } := by
  have h : (s.stepTime d).TimeMoves s := State.stepTime_timeMoves _
  have hf : (s.stepTime d).free = s.free := State.stepTime_free _
  have ht : (s.stepTime d).tiu = s.tiu := by simp
  unfold State.TimeMoves at h
  rwa [hf, ht] at h

theorem Tim.extended_congr {x y : Tim} (hw : x.wraps = y.wraps) (ht : x.time = y.time) (hf : x.frac = y.frac) :
    x.extended = y.extended := by
  simp only [Tim.extended, Tim.full, hw, ht, hf]

theorem State.stepTime_steps (d : Int) : (s.stepTime d).tim.steps = s.tim.steps + 1 := by rw [State.stepTime_tim]

theorem State.stepTime_extended (d : Int) : ((s.stepTime d).tim.extended : Int) = (s.tim.extended + d * 2 ^ 32) % (2 ^ 128 : Nat) := by
  have h : (s.stepTime d).tim.extended = (s.tim.shift d).extended := by
    rw [State.stepTime_tim]
    exact Tim.extended_congr rfl rfl rfl
  rw [h, Tim.shift_extended]

theorem OnlyReports.setTim_schedules (h : OnlyReports t { u with tim := t.tim, sht := t.sht }) (f : Tim → Tim) :
    OnlyReports (t.setTim f) { u with tim := (t.setTim f).tim, sht := (t.setTim f).sht } :=
  (congrArg (fun x : State => { x with tim := f t.tim }) h :)

theorem OnlyReports.ite_schedules {c : Prop} [Decidable c] (h : OnlyReports t { u with tim := t.tim, sht := t.sht })
    (k : OnlyReports v { u with tim := v.tim, sht := v.sht }) :
    OnlyReports (if c then t else v) { u with tim := (if c then t else v).tim, sht := (if c then t else v).sht } := by
  split
  · exact h
  · exact k

/-- A valid frame's seconds, `d` ahead of its edge's (R124). -/
def State.secondsJudged (v : State) (d : Int) : Host.Outcome State Fault Refusal :=
  if !v.tim.secondsLoaded then
    if v.tim.pps == .track && v.stepPermits then
      .next ((if d = 0 then v else v.stepTime (d * secLsb)).setTim fun t => { t with secondsLoaded := true })
    else .next v
  else if d = 0 then .next v
  else
    let s := (v.setTim fun t => { t with secondsMismatch := true }).warn 0x00040005#32 0 true
    if s.stepPermits then .next (s.stepTime (d * secLsb)) else .next s

theorem exec_syncFrameReceived_valid (dt : Nat) {slots : List Bool} {edge : Int} (hu : u = s.elapse dt) (hp : u.power.phase = .up)
    (hm : u.syncMode = 2) (hn : slots.length = 43) (hc : bitsMsb 8 (crc8 ((slots.drop 2).take 33)) = (slots.drop 35).take 8)
    (hv : slots.getD 34 false = true) (he : u.tim.syncEdge = some edge) : exec (.syncFrameReceived dt slots) s =
      (u.setTim fun t => { t with syncEdge := none }).secondsJudged
        ((bitsOf ((slots.drop 2).take 32) : Int) - nearestSecond edge % (2 ^ 32 : Nat)) := by
  have hbad : ¬ (slots.length ≠ 43 ∨ bitsMsb 8 (crc8 ((slots.drop 2).take 33)) ≠ (slots.drop 35).take 8) := by simp [hn, hc]
  simp only [exec, execSyncFrameReceived, ← hu]
  rw [if_neg (by simp [State.live_of_up hp, hm]), if_neg hbad, he]
  dsimp only
  rw [if_neg (by rw [hv]; decide)]
  rfl

/-- The first valid frame is loaded (R124). -/
theorem State.secondsJudged_loads (d : Int) (hn : v.tim.secondsLoaded = false) (hp : v.tim.pps = .track) (hs : v.stepPermits = true) :
    ∃ t, v.secondsJudged d = .next t ∧ t.tim.secondsLoaded = true ∧ (v.tim.syncEdge = none → t.tim.syncEdge = none) ∧
      OnlyReports t { v with tim := t.tim, sht := t.sht } ∧
      (d = 0 → t.tim = { v.tim with secondsLoaded := true } ∧ t.sht = v.sht) ∧
      (d ≠ 0 → t.tim.steps = v.tim.steps + 1 ∧ (t.tim.extended : Int) = (v.tim.extended + d * secLsb * 2 ^ 32) % (2 ^ 128 : Nat)) := by
  rw [State.secondsJudged, if_pos (by rw [hn]; rfl), if_pos (by rw [hp, hs]; rfl)]
  refine ⟨_, rfl, rfl, fun hx => ?_, ?_, fun h => ?_, fun h => ?_⟩
  · have hy : (v.stepTime (d * secLsb)).tim.syncEdge = none := by
      rw [State.stepTime_tim]
      exact congrArg (Option.map _) hx
    split
    · exact hx
    · exact hy
  · exact OnlyReports.setTim_schedules (OnlyReports.ite_schedules rfl (State.stepTime_onlyReports _)) _
  · rw [if_pos h]
    exact ⟨rfl, rfl⟩
  · rw [if_neg h]
    have he := v.stepTime_extended (d * secLsb)
    have hs := v.stepTime_steps (d * secLsb)
    generalize v.stepTime (d * secLsb) = w at he hs ⊢
    have hx : (w.setTim fun t => { t with secondsLoaded := true }).tim.extended = w.tim.extended := Tim.extended_congr rfl rfl rfl
    rw [hx]
    exact ⟨hs, he⟩

/-- A later valid frame that differs (R124). -/
theorem State.secondsJudged_differs {d : Int} (hn : v.tim.secondsLoaded = true) (hd : d ≠ 0) :
    ∃ t, v.secondsJudged d = .next t ∧ t.tim.secondsMismatch = true ∧ (v.hatbandActs = true → t.warned 0x00040005#32 = true) ∧
      OnlyReports t { v with tim := t.tim, sht := t.sht } ∧
      (v.stepPermits = false → t.tim = { v.tim with secondsMismatch := true } ∧ t.sht = v.sht) ∧
      (v.stepPermits = true → t.tim.steps = v.tim.steps + 1 ∧
        (t.tim.extended : Int) = (v.tim.extended + d * secLsb * 2 ^ 32) % (2 ^ 128 : Nat)) := by
  obtain ⟨w, hw⟩ : ∃ w, w = (v.setTim fun t => { t with secondsMismatch := true }).warn 0x00040005#32 0 true := ⟨_, rfl⟩
  have ho : OnlyReports w (v.setTim fun t => { t with secondsMismatch := true }) := by rw [hw]; exact State.warn_hushed ..
  have hwp : w.stepPermits = v.stepPermits := State.stepPermits_of_kept (congrArg State.cfg ho :) (congrArg State.sht ho :)
  have hww (ha : v.hatbandActs = true) : w.warned 0x00040005#32 = true := by
    rw [hw]
    exact State.warn_warned _ _ _ _ ha
  have hwt : w.tim = { v.tim with secondsMismatch := true } := ho.tim
  have hws : w.sht = v.sht := (congrArg State.sht ho :)
  have hwo : OnlyReports w { v with tim := w.tim, sht := w.sht } := by rw [hwt, hws]; exact ho
  have e : v.secondsJudged d = if w.stepPermits then .next (w.stepTime (d * secLsb)) else .next w := by
    rw [State.secondsJudged, if_neg (by rw [hn]; decide), if_neg hd, hw]
  cases hp : v.stepPermits with
  | true =>
    refine ⟨w.stepTime (d * secLsb), by rw [e, if_pos (hwp.trans hp)], ?_, fun ha => State.stepTime_warned (hww ha) _, ?_,
      fun h => absurd h (by decide), fun _ => ⟨?_, ?_⟩⟩
    · rw [State.stepTime_tim, hwt]
      rfl
    · exact (State.stepTime_onlyReports _).trans
        (congrArg (fun x : State => { x with tim := (w.stepTime (d * secLsb)).tim, sht := (w.stepTime (d * secLsb)).sht }) hwo :)
    · rw [State.stepTime_steps, hwt]
    · have hx : ({ v.tim with secondsMismatch := true } : Tim).extended = v.tim.extended := Tim.extended_congr rfl rfl rfl
      rw [State.stepTime_extended, hwt, hx]
  | false =>
    exact ⟨w, by rw [e, if_neg (by rw [hwp, hp]; decide)], by rw [hwt], hww, hwo, fun _ => ⟨hwt, hws⟩, fun h => absurd h (by decide)⟩

end

/-- Settles O21: the two waits by their conditions, a frame by `State.secondsJudged`. -/
theorem syncTimersAndFrames : Obligations.SyncTimersAndFrames := by
  intro s u dt slots hu hp
  have hl := State.live_of_up hp
  refine ⟨fun h hw ht => ?_, fun h ht => ?_, fun hm hb => ?_, fun edge hm h43 hcrc h34 he => ?_⟩
  · have hk : OnlyReports ((u.setTim fun t => { t with syncWaiting := true }).warn 0x00040001#32 0 true)
        (u.setTim fun t => { t with syncWaiting := true }) := State.warn_hushed ..
    refine ⟨_, ?_, hk.tim, fun ha => State.warn_warned _ _ _ _ ha, by rw [hk.tim]; exact hk⟩
    simp only [exec, execSyncWaitTimeout, ← hu]
    exact if_pos (by simp [hl, h, hw, ht])
  · have hk : OnlyReports ((u.setTim fun t => { t with sync := .none, syncUnaligned := true }).warn 0x00040003#32 0 true)
        (u.setTim fun t => { t with sync := .none, syncUnaligned := true }) := State.warn_hushed ..
    refine ⟨_, ?_, hk.tim, fun ha => State.warn_warned _ _ _ _ ha, by rw [hk.tim]; exact hk⟩
    simp only [exec, execSyncEdgeTimeout, ← hu]
    exact if_pos (by simp [hl, h, ht])
  · simp only [exec, execSyncFrameReceived, ← hu]
    rw [if_neg (by simp [hl, hm]), if_pos hb]
    rfl
  · intro d
    obtain ⟨v, hv⟩ : ∃ v, v = u.setTim fun t => { t with syncEdge := none } := ⟨_, rfl⟩
    have hexec : exec (.syncFrameReceived dt slots) s = v.secondsJudged d := by
      rw [hv]
      exact exec_syncFrameReceived_valid dt hu hp hm h43 hcrc h34 he
    clear_value d
    have hperm : v.stepPermits = u.stepPermits := by rw [hv]; exact State.stepPermits_of_kept rfl rfl
    have hload : v.tim.secondsLoaded = u.tim.secondsLoaded := by rw [hv]; rfl
    have hpps : v.tim.pps = u.tim.pps := by rw [hv]; rfl
    refine ⟨fun h0 h1 h2 => ?_, fun h0 h1 => ?_, fun h0 h1 => ?_, fun h0 h1 => ?_⟩
    · obtain ⟨t, e, h3, h4, h5, h6, h7⟩ := v.secondsJudged_loads d (hload.trans h0) (hpps.trans h1) (hperm.trans h2)
      rw [hv] at h4 h5 h6 h7
      exact ⟨t, hexec.trans e, h3, h4 rfl, h5, h6, h7⟩
    · rw [hexec, State.secondsJudged, if_pos (by rw [hload, h0]; rfl), if_neg, hv]
      · rfl
      · rw [hpps, hperm]
        rcases h1 with h1 | h1 <;> simp [h1]
    · rw [hexec, State.secondsJudged, if_neg (by rw [hload, h0]; decide), if_pos h1, hv]
      rfl
    · obtain ⟨t, e, h3, h4, h5, h6, h7⟩ := State.secondsJudged_differs (hload.trans h0) h1
      rw [hperm] at h6 h7
      rw [hv] at h4 h5 h6 h7
      exact ⟨t, hexec.trans e, h3, h4, h5, h6, h7⟩

section

variable {s t u v w : State} {x y : Tim}

/-! ## PPS_IN (R118, R119) -/

theorem Tim.ppsNext_eq (x : Tim) (e : Int) : x.ppsNext e =
    { x with pps := (x.ppsNext e).pps, inside := (x.ppsNext e).inside, outside := (x.ppsNext e).outside } := by
  unfold Tim.ppsNext
  extract_lets ok y
  split
  · split <;> rfl
  · split
    · rfl
    · split <;> rfl
  · rfl
  · rfl

/-- The next state of the discipline comes from its state and its two counts alone (Table 4.8). -/
theorem Tim.ppsNext_congr (hp : x.pps = y.pps) (hi : x.inside = y.inside) (ho : x.outside = y.outside) (e : Int) :
    (x.ppsNext e).pps = (y.ppsNext e).pps ∧ (x.ppsNext e).inside = (y.ppsNext e).inside ∧ (x.ppsNext e).outside = (y.ppsNext e).outside := by
  unfold Tim.ppsNext
  simp only [hp, hi, ho]
  cases y.pps <;> dsimp only <;> split_ifs <;> exact ⟨rfl, rfl, rfl⟩

/-- An accepted edge of error `e` steers device time: what stands of `s` on the way to `w`. -/
structure State.Steered (w s : State) (e : Int) : Prop where
  moves : w.TimeMoves s
  pps : w.tim.pps = s.tim.pps
  inside : w.tim.inside = s.tim.inside
  outside : w.tim.outside = s.tim.outside
  error : w.tim.ppsError = e
  accepted : w.tim.acceptedAt = s.now
  rejected : w.tim.ppsRejected = s.tim.ppsRejected
  schedules : w.tim.steps = s.tim.steps → w.sht = s.sht

theorem State.Steered.stepTime {e d : Int} (h : w.Steered s e) (hs : w.tim.steps = s.tim.steps) : (w.stepTime d).Steered s e := by
  have ht := w.stepTime_tim d
  obtain ⟨h1, h2, h3, h4, h5, h6, h7, -⟩ := h
  refine ⟨(State.stepTime_timeMoves d).trans h1, ?_, ?_, ?_, ?_, ?_, ?_, fun hk => ?_⟩
  · rw [ht]; exact h2
  · rw [ht]; exact h3
  · rw [ht]; exact h4
  · rw [ht]; exact h5
  · rw [ht]; exact h6
  · rw [ht]; exact h7
  · rw [State.stepTime_steps, hs] at hk
    exact absurd (BitVec.add_right_eq_self.mp hk) (by decide)

theorem State.Steered.warn {e : Int} (h : w.Steered s e) (code value : U32) (holds : Bool) : (w.warn code value holds).Steered s e := by
  have hw : OnlyReports (w.warn code value holds) w := State.warn_hushed ..
  have ht := hw.tim
  obtain ⟨h1, h2, h3, h4, h5, h6, h7, h8⟩ := h
  exact ⟨hw.timeMoves.trans h1, by rw [ht, h2], by rw [ht, h3], by rw [ht, h4], by rw [ht, h5], by rw [ht, h6], by rw [ht, h7],
    fun hk => (congrArg State.sht hw :).trans (h8 (by rwa [ht] at hk))⟩

theorem State.Steered.ite {c : Prop} [Decidable c] {e : Int} (h : c → w.Steered s e) (k : ¬ c → v.Steered s e) :
    (if c then w else v).Steered s e := by
  split
  · next hc => exact h hc
  · next hc => exact k hc

theorem State.Steered.setIncr {e : Int} (h : w.Steered s e) (b : Nat) (n : Int) : (w.setTim fun x => x.setIncr b n).Steered s e := by
  obtain ⟨h1, h2, h3, h4, h5, h6, h7, h8⟩ := h
  exact ⟨(State.setTim_timeMoves _).trans h1, h2, h3, h4, h5, h6, h7, h8⟩

theorem State.Steered.setRefRange {e : Int} (h : w.Steered s e) : (w.setTim fun x => { x with refRange := true }).Steered s e := by
  obtain ⟨h1, h2, h3, h4, h5, h6, h7, h8⟩ := h
  exact ⟨(State.setTim_timeMoves _).trans h1, h2, h3, h4, h5, h6, h7, h8⟩

theorem State.ppsSteer_steered (t e : Int) : ∃ w : State, s.ppsSteer t e = (w.setTim fun x => x.ppsNext e) ∧ w.Steered s e := by
  unfold State.ppsSteer
  extract_lets base interval wanted acts far step slew beyond s1 s2 s3 s4 s5
  have h2 : s2.Steered s e := ⟨.of_eq rfl, rfl, rfl, rfl, rfl, rfl, rfl, fun _ => rfl⟩
  have h3 : s3.Steered s e := .ite (fun _ => h2.setIncr _ _) fun _ => h2
  have k3 : s3.tim.steps = s.tim.steps := by
    simp only [s3]
    split <;> rfl
  have h4 : s4.Steered s e := .ite (fun _ => h3.stepTime k3) fun _ => h3
  have h5 : s5.Steered s e := .ite (fun _ => (h4.setRefRange).warn _ _ _) fun _ => h4
  exact ⟨s5, rfl, h5⟩

theorem State.ppsSteer_timeMoves (t e : Int) : (s.ppsSteer t e).TimeMoves s := by
  obtain ⟨w, hw, h⟩ := s.ppsSteer_steered t e
  rw [hw]
  exact (State.setTim_timeMoves _).trans h.moves

theorem State.ppsSteer_sht {t e : Int} (hk : (s.ppsSteer t e).tim.steps = s.tim.steps) : (s.ppsSteer t e).sht = s.sht := by
  obtain ⟨w, hw, h⟩ := s.ppsSteer_steered t e
  have hn := Tim.ppsNext_eq w.tim e
  have hs : (w.tim.ppsNext e).steps = w.tim.steps := by rw [hn]
  rw [hw] at hk ⊢
  exact h.schedules (hs.symm.trans hk)

/-- What becomes of an edge: none with the discipline off, accepted, or rejected. -/
theorem State.ppsTaken_timeMoves {t e : Int} {ok : Bool} : (if v.tim.pps = .off then v else if ok then v.ppsSteer t e
    else v.setTim fun x => { x with ppsRejected := x.ppsRejected + 1 }).TimeMoves v := by
  split
  · exact .of_eq rfl
  · split
    · exact State.ppsSteer_timeMoves t e
    · exact State.setTim_timeMoves _

theorem State.ppsTaken_sht {t e : Int} {ok : Bool} (hw : w = (if v.tim.pps = .off then v else if ok then v.ppsSteer t e
    else v.setTim fun x => { x with ppsRejected := x.ppsRejected + 1 })) (hk : w.tim.steps = v.tim.steps) : w.sht = v.sht := by
  split at hw
  · rw [hw]
  · split at hw
    · subst hw
      exact State.ppsSteer_sht hk
    · rw [hw]
      rfl

/-- A measured edge of PPS_IN: the state that its TIMING record leaves (R118). -/
theorem exec_ppsInEdge (dt : Nat) (m : TiuMeas) {stamp : U64} {coarse : Bool} (hu : u = s.elapse dt) (hp : u.power.phase = .up)
    (hr : u.tim.runs = true) (he : (u.stampEdge 2 m).2 = some (stamp, coarse)) :
    ∃ t w v : State, ∃ ok, exec (.ppsInEdge dt m) s = .next t ∧ OnlyReports t w ∧
      w = (if v.tim.pps = .off then v else if ok then v.ppsSteer (u.extOf stamp) (u.ppsErrorOf (u.extOf stamp))
        else v.setTim fun x => { x with ppsRejected := x.ppsRejected + 1 }) ∧
      (ok = true ↔ ∀ l, u.tim.lastPps = some l → (u.extOf stamp - l - secLsb).natAbs ≤ 100 * usLsb) ∧
      v.TimeMoves u ∧ v.sht = u.sht ∧ v.tim = { u.tim with coarse := coarse } := by
  obtain ⟨hv, -, hs, b, ht, hb⟩ := u.stampEdge_timeMoves 2 m
  have hb' := hb _ he
  subst hb'
  have hx : (u.stampEdge 2 m).1.extOf stamp = u.extOf stamp := by
    simp only [State.extOf, State.extTime, State.devTime, ht]
  have hy (n : Int) : (u.stampEdge 2 m).1.ppsErrorOf n = u.ppsErrorOf n := by
    simp only [State.ppsErrorOf, State.ppsInDelay, State.timebase, State.rec?_of_cfg hv.cfg]
  have hl : (u.stampEdge 2 m).1.tim.lastPps = u.tim.lastPps := by rw [ht]
  simp only [exec, execPpsInEdge, ← hu]
  rw [if_neg (by simp [State.live_of_up hp, hr])]
  simp only [he]
  rw [hx, hy, hl]
  generalize (u.stampEdge 2 m).1 = v at hv hs ht ⊢
  obtain ⟨x, hx⟩ : ∃ x, x = ({ u.tim with coarse := coarse } : Tim) := ⟨_, rfl⟩
  have ht' : v.tim = x := ht.trans hx.symm
  rw [← hx]
  cases h : u.tim.lastPps with
  | none => exact ⟨_, _, v, true, rfl, State.emitEdge_onlyReports .., rfl, by simp, hv, hs, ht'⟩
  | some l => exact ⟨_, _, v, _, rfl, State.emitEdge_onlyReports .., rfl, by simp, hv, hs, ht'⟩

end

/-- Settles O22: an accepted edge by what steering keeps of the discipline, the outputs by their conditions. -/
theorem secondsInAndOut : Obligations.SecondsInAndOut := by
  refine ⟨fun s u dt m stamp coarse hu hp => ⟨fun hr he => ?_, fun h ht => ?_⟩, fun s u dt n hu hp hc => ⟨fun ha hw hn => ?_, fun ha hn =>
    ⟨fun hm => ?_, fun hm => ?_⟩⟩⟩
  · intro x
    obtain ⟨t, w, v, ok, e, ho, hw, hok, hv, hs, ht⟩ := exec_ppsInEdge dt m hu hp hr he
    have hpps : v.tim.pps = u.tim.pps := (congrArg Tim.pps ht :)
    have htw := ho.tim
    refine ⟨t, e, ?_, fun hk => ?_, fun h => ?_, fun h hok' => ?_, fun l h hl hk => ?_⟩
    · exact ho.timeMoves.trans (State.TimeMoves.trans (hw ▸ State.ppsTaken_timeMoves ..) hv)
    · have hto : t.sht = w.sht := (congrArg State.sht ho :)
      exact (hto.trans (State.ppsTaken_sht hw (by rw [← htw, hk, ht]))).trans hs
    · rw [htw, hw, if_pos (hpps.trans h), ht]
    · rw [if_neg (by rwa [hpps]), if_pos (hok.mpr hok')] at hw
      obtain ⟨y, hy, h1⟩ := v.ppsSteer_steered x (u.ppsErrorOf x)
      obtain ⟨k1, k2, k3⟩ := Tim.ppsNext_congr (h1.pps.trans hpps) (h1.inside.trans (congrArg Tim.inside ht :))
        (h1.outside.trans (congrArg Tim.outside ht :)) (u.ppsErrorOf x)
      have hn := Tim.ppsNext_eq y.tim (u.ppsErrorOf x)
      have hwt : w.tim = y.tim.ppsNext (u.ppsErrorOf x) := by rw [hw, hy]; rfl
      rw [htw, hwt]
      refine ⟨?_, ?_, k1, k2, k3, ?_⟩
      · rw [hn]; exact h1.error
      · rw [hn]; exact h1.accepted.trans hv.now
      · rw [hn]; exact h1.rejected.trans (congrArg Tim.ppsRejected ht :)
    · have hno : ¬ ok = true := fun h' => absurd (hok.mp h' l hl) (Nat.not_le.mpr hk)
      rw [htw, hw, if_neg (by rwa [hpps]), if_neg hno]
      exact congrArg (fun y : Tim => { y with ppsRejected := y.ppsRejected + 1 }) ht
  · simp only [exec, execPpsHoldoverTimeout, ← hu]
    exact if_pos (by simp [State.live_of_up hp, h, ht])
  · simp only [exec, execPpsOutEdge, ← hu, ha]
    exact if_pos (by simp [State.live_of_up hp, hc, hw, hn])
  · simp only [exec, execSyncOutSend, ← hu, ha]
    rw [if_pos (by simp [State.live_of_up hp, hc, hm, hn])]
    rw [hm]
    rfl
  · simp only [exec, execSyncOutSend, ← hu, ha]
    rw [if_pos (by simp [State.live_of_up hp, hc, hm, hn])]
    rw [hm]
    rfl

end Sys2Proof.Machine

/-! SUPPORT. The shot sequencer: DEC's samples and the admission of records leave control, optics and sequencers; group starts, shots, launch timestamps and calls. -/

namespace Sys2Proof.Machine

section

variable {s t u v : State} {p : Port}

/-! ## Samples on their way from DEC (R187 to R198, R243 to R257): phase, events, codings, routes and rings, and nothing of control -/

/-- `s` with what samples move of it taken from `t`. -/
def State.withSamples (s t : State) : State :=
  { s with
    phs := t.phs, evt := t.evt, als := t.als, dts := t.dts, free := t.free, cmp := t.cmp
    ringCoders := t.ringCoders, routes := t.routes, mem := t.mem }

/-- Phase, events, codings, records and rings may change, MEM's state and bytes, the ports' ALS states and all control do not. -/
structure State.Sampled (t s : State) : Prop where
  frame : OnlyReports t (s.withSamples t)
  memSt : t.mem.st = s.mem.st
  cells : t.mem.cells = s.mem.cells
  alsSt : ∀ q : Port, t.als[q].st = s.als[q].st

theorem State.Sampled.rfl : s.Sampled s := ⟨Eq.refl _, Eq.refl _, Eq.refl _, fun _ => Eq.refl _⟩

theorem State.Sampled.trans (h : t.Sampled u) (k : u.Sampled s) : t.Sampled s := by
  obtain ⟨h1, h2, h3, h4⟩ := h
  obtain ⟨k1, k2, k3, k4⟩ := k
  refine ⟨?_, h2.trans k2, h3.trans k3, fun q => (h4 q).trans (k4 q)⟩
  have k' : (u.withSamples t).hushed = (s.withSamples t).hushed := congrArg (fun x : State => x.withSamples t.hushed) k1
  exact Eq.trans h1 k'

theorem OnlyReports.sampled (h : OnlyReports t s) : t.Sampled s := by
  have e : t.hushed = s.hushed.withSamples t.hushed := by
    rw [h]
    rfl
  have hm := congrArg State.mem h
  exact ⟨e, (congrArg Mem.st hm :), (congrArg Mem.cells hm :), fun q => (congrArg (fun x : State => x.als[q].st) h :)⟩

theorem State.Sampled.ite {c : Prop} [Decidable c] (h : t.Sampled s) (k : u.Sampled s) : (if c then t else u).Sampled s := by
  split
  · exact h
  · exact k

theorem State.Sampled.foldl {α : Type} (f : State → α → State) (h : ∀ v a, (f v a).Sampled v) (l : List α) (s : State) :
    (l.foldl f s).Sampled s :=
  List.foldlRecOn (motive := fun v : State => v.Sampled s) l f .rfl fun v hv a _ => (h v a).trans hv

theorem State.setRoute_sampled (r : RouteId) (f : RouteSt → RouteSt) : (s.setRoute r f).Sampled s := ⟨rfl, rfl, rfl, fun _ => rfl⟩
theorem State.setPhs_sampled (f : Phs → Phs) : (s.setPhs p f).Sampled s := ⟨rfl, rfl, rfl, fun _ => rfl⟩
theorem State.setEvt_sampled (f : Evt → Evt) : (s.setEvt f).Sampled s := ⟨rfl, rfl, rfl, fun _ => rfl⟩
theorem State.setEvtPort_sampled (f : EvtPort → EvtPort) : (s.setEvtPort p f).Sampled s := ⟨rfl, rfl, rfl, fun _ => rfl⟩
theorem State.setBrk_sampled (f : BreakSt → BreakSt) : (s.setBrk p f).Sampled s := ⟨rfl, rfl, rfl, fun _ => rfl⟩
theorem State.setDts_sampled (f : Dts → Dts) : (s.setDts p f).Sampled s := ⟨rfl, rfl, rfl, fun _ => rfl⟩

/-! ### Consumers of output samples -/

theorem State.closeGather_sampled (r : RouteId) (g : Gather) (flushed : Bool) : (s.closeGather r p g flushed).Sampled s := by
  have hr (l : List PRec) (v : State) : (l.foldl (fun s q => s.toRoute r q) v).Sampled v :=
    .foldl _ (fun v q => OnlyReports.sampled (State.toRoute_hushed ..)) l v
  unfold State.closeGather
  split
  · exact .rfl
  extract_lets quality v bs
  have hv : v.Sampled s := State.setRoute_sampled r _
  split
  · exact (hr _ v).trans hv
  · exact (hr _ _).trans (State.Sampled.trans ⟨rfl, rfl, rfl, fun _ => rfl⟩ hv)

theorem State.routeRow_sampled (r : RouteId) (product : Nat) (coarse : Bool) (o : Int) (row : Row) :
    (s.routeRow r p product coarse o row).Sampled s := by
  unfold State.routeRow
  extract_lets row g coded v g' full w
  split
  · have hv : v.Sampled s := (State.setRoute_sampled ..).trans (OnlyReports.sampled (State.fencedFlits_hushed ..))
    exact .ite ((State.setRoute_sampled ..).trans hv) hv
  · have hw : w.Sampled s := State.setRoute_sampled ..
    exact .ite ((State.closeGather_sampled ..).trans hw) hw

theorem State.closeRing_sampled (flushed : Bool) : (s.closeRing p flushed).Sampled s := by
  unfold State.closeRing
  extract_lets g
  split
  · exact .rfl
  · exact (State.Sampled.foldl _ (fun v b => OnlyReports.sampled (State.toRing_hushed ..)) _ _).trans ⟨rfl, rfl, rfl, fun _ => rfl⟩

theorem State.ringRow_sampled (product : Nat) (coarse : Bool) (o : Int) (row : Row) : (s.ringRow p product coarse o row).Sampled s := by
  unfold State.ringRow
  extract_lets row b v g g' g'' w
  split
  · exact OnlyReports.sampled (State.toRing_hushed ..)
  split
  · exact ⟨rfl, rfl, rfl, fun _ => rfl⟩
  · have hw : w.Sampled s := ⟨rfl, rfl, rfl, fun _ => rfl⟩
    exact .ite ((State.closeRing_sampled ..).trans hw) hw

theorem State.emitRow_sampled (product : Nat) (coarse : Bool) (o : Int) (row : Row) : (s.emitRow p product coarse o row).Sampled s := by
  unfold State.emitRow
  extract_lets v
  have hv : v.Sampled s := .foldl _ (fun w r => .ite (State.routeRow_sampled ..) .rfl) _ _
  exact .ite ((State.ringRow_sampled ..).trans hv) hv

/-! ### DEC's paths -/

theorem State.emitPhase_sampled (coarse : Bool) (o : Int) (x : DecSample) (flags : Nat) (vals prev : List Int) (codes : List Nat) :
    (s.emitPhase p coarse o x flags vals prev codes).Sampled s := by
  unfold State.emitPhase
  extract_lets ds sat dcodes v w
  have hv : v.Sampled s := State.setPhs_sampled _
  have hw : w.Sampled s := (State.emitRow_sampled ..).trans hv
  exact (State.emitRow_sampled ..).trans hw

theorem State.emitAmplitude_sampled (coarse : Bool) (m h flags : Nat) : (s.emitAmplitude p coarse m h flags).Sampled s := by
  unfold State.emitAmplitude
  dsimp only
  split
  · exact .rfl
  · exact State.emitRow_sampled ..

theorem State.fullPath_sampled : (s.fullPath p).Sampled s := by
  unfold State.fullPath
  dsimp only
  split
  · exact .rfl
  split
  · exact (State.emitRow_sampled ..).trans ((State.emitRow_sampled ..).trans ((State.emitRow_sampled ..).trans (State.setPhs_sampled _)))
  split
  · exact .rfl
  split
  · exact .ite ((State.emitPhase_sampled ..).trans (State.setPhs_sampled _)) (State.setPhs_sampled _)
  · exact State.setPhs_sampled _

theorem State.fullAmplitude_sampled : (s.fullAmplitude p).Sampled s := by
  unfold State.fullAmplitude
  dsimp only
  split
  · exact .rfl
  · exact .ite (State.emitAmplitude_sampled ..) .rfl

theorem State.coarsePath_sampled : (s.coarsePath p).Sampled s := by
  unfold State.coarsePath
  dsimp only
  split
  · exact .rfl
  split
  · exact .rfl
  · exact (State.emitAmplitude_sampled ..).trans ((State.emitPhase_sampled ..).trans (State.setPhs_sampled _))

theorem State.lfSample_sampled (x : DecSample) : (s.lfSample p x).Sampled s := by
  unfold State.lfSample
  split
  · exact .rfl
  split
  · exact .rfl
  · exact .ite (State.setDts_sampled _) (State.setDts_sampled _)

/-! ### EVT -/

theorem State.requestSnap_sampled (d zone first count : Nat) (j : Int) : (s.requestSnap p d zone first count j).1.Sampled s := by
  unfold State.requestSnap
  extract_lets
  split
  · exact .rfl
  split
  · exact ⟨rfl, rfl, rfl, fun _ => rfl⟩
  · exact ⟨rfl, rfl, rfl, fun _ => rfl⟩

theorem State.event_sampled (e : EventRec) (decided : U64) (alarms snap : Nat) (skipped : Bool) :
    (s.event e decided alarms snap skipped).Sampled s :=
  (OnlyReports.sampled (State.msixEvent_hushed ..)).trans ((OnlyReports.sampled (State.emitRec_hushed ..)).trans
    ((State.setEvtPort_sampled _).trans (State.setEvt_sampled _)))

theorem State.formEvent_sampled (e : EventDue) : (s.formEvent e).Sampled s := by
  unfold State.formEvent
  extract_lets x snap v
  have hs : snap.1.Sampled s := by
    simp only [snap]
    split
    · exact State.requestSnap_sampled ..
    · exact .rfl
  have hv : v.Sampled s := (State.event_sampled ..).trans hs
  exact .ite ((OnlyReports.sampled (State.msixEvent_hushed ..)).trans hv) hv

theorem State.formEvents_sampled : s.formEvents.Sampled s :=
  (State.Sampled.foldl _ (fun _ e => State.formEvent_sampled e) _ _).trans (State.setEvt_sampled _)

theorem State.decided_sampled (es : List EventDue) : (s.decided es).Sampled s := by
  unfold State.decided
  extract_lets v l bits
  have hv : v.Sampled s := .ite State.formEvents_sampled .rfl
  exact (State.setEvt_sampled _).trans hv

theorem State.noticed_sampled (es : List EventDue) : (s.notice.decided es).Sampled s :=
  (State.decided_sampled es).trans (State.setEvt_sampled _)

theorem State.evtSample_sampled (x : DecSample) : (s.evtSample p x).Sampled s := by
  unfold State.evtSample
  extract_lets v xs stepped ds ws ends w done
  have hv : v.Sampled s := State.setEvtPort_sampled _
  have hw : w.Sampled s := (State.setEvtPort_sampled _).trans hv
  have hd : (w.decide_ p done).Sampled w := (State.noticed_sampled _).trans (State.Sampled.trans (State.setEvtPort_sampled _) ⟨rfl, rfl, rfl, fun _ => rfl⟩)
  exact .ite ((OnlyReports.sampled (State.fencedFlits_hushed ..)).trans hv) (.ite hv (.ite hw (hd.trans hw)))

/-- The ALS entries of a port's groups change, its state does not. -/
theorem State.setAls_sampled (f : Als → Als) (h : ∀ a, (f a).st = a.st) : (s.setAls p f).Sampled s := by
  refine ⟨rfl, rfl, rfl, fun q => ?_⟩
  show (upd s.als p f)[q].st = _
  rw [upd_get]
  split
  · exact h _
  · rfl

theorem State.alsGroupEnd_sampled (group : U48) (near : Bool) (point : U32) : (s.alsGroupEnd p group near point).Sampled s := by
  refine State.setAls_sampled _ fun a => ?_
  split
  · split <;> rfl
  · rfl
  · rfl

theorem State.alsGroupMissing_sampled (group : U48) : (s.alsGroupMissing p group).Sampled s :=
  State.setAls_sampled _ fun _ => rfl

theorem State.breakEvent_sampled (kind point : Nat) (j : Int) (time : U64) : (s.breakEvent p kind point j time).Sampled s :=
  State.noticed_sampled _

theorem State.breakGroup_sampled (e : Nat) (j : Int) (time : U64) : (s.breakGroup p e j time).Sampled s := by
  have hb (v : State) (f : BreakSt → BreakSt) : (v.setBrk p f).Sampled v := State.setBrk_sampled f
  unfold State.breakGroup
  dsimp only
  split
  · exact .rfl
  split
  · exact .ite (hb ..) (hb ..)
  split
  · exact .ite ((State.breakEvent_sampled ..).trans (hb ..)) .rfl
  exact .ite (.ite ((State.breakEvent_sampled ..).trans (hb ..)) (hb ..)) (.ite ((State.breakEvent_sampled ..).trans (hb ..)) (hb ..))

theorem State.endGroup_sampled (step : Nat) : (s.endGroup p step).Sampled s := by
  have hb (v : State) (f : BreakSt → BreakSt) : (v.setBrk p f).Sampled v := State.setBrk_sampled f
  unfold State.endGroup
  split
  · exact .rfl
  dsimp only
  split
  · exact (State.alsGroupMissing_sampled _).trans (hb ..)
  · next g j time _ _ e _ =>
    have hg := (State.breakGroup_sampled (p := p) e j time).trans (hb s fun b => { b with group := none, eMax := none })
    exact .ite hg ((State.alsGroupEnd_sampled ..).trans ((State.setEvt_sampled _).trans ((State.setEvtPort_sampled _).trans hg)))

theorem State.markGroup_sampled (group : U48) (k : Nat) (j : Int) (time : U64) : (s.markGroup p group k j time).Sampled s :=
  .ite (State.setEvtPort_sampled _) .rfl

theorem State.evtEnd_sampled (step : Nat) (group : U48) (k n : Nat) (j : Int) (time : U64) (e : Option Nat) :
    (s.evtEnd p step group k n j time e).Sampled s := by
  unfold State.evtEnd
  extract_lets v other w x
  have hv : v.Sampled s := State.markGroup_sampled ..
  have hw : w.Sampled s := .ite ((State.endGroup_sampled _).trans hv) hv
  have hx : x.Sampled s := (State.setBrk_sampled _).trans hw
  exact .ite hv (.ite ((State.endGroup_sampled _).trans hx) hx)

/-! ### Expected samples -/

theorem State.decFeed_sampled (x : DecSample) : (s.decFeed p x).Sampled s := by
  unfold State.decFeed
  extract_lets len v w
  have hv : v.Sampled s := State.setPhs_sampled _
  exact (State.evtSample_sampled x).trans ((State.lfSample_sampled x).trans (State.coarsePath_sampled.trans
    (State.fullAmplitude_sampled.trans (State.fullPath_sampled.trans hv))))

theorem State.fillOne_sampled (e : Expect) : (s.fillOne p e).Sampled s :=
  (State.evtEnd_sampled ..).trans (State.decFeed_sampled _)

theorem State.fillGap_sampled (e : Expect) : (s.fillGap p e).Sampled s := by
  unfold State.fillGap
  exact .ite .rfl (.ite (State.setPhs_sampled _) (.foldl _ (fun _ _ => State.fillOne_sampled _) _ _))

theorem State.drainList_sampled (p : Port) (l : List Expect) (s : State) : (State.drainList p l s).Sampled s := by
  induction l generalizing s with
  | nil => exact State.setPhs_sampled _
  | cons e t ih => exact .ite (State.setPhs_sampled _) ((ih _).trans ((State.fillOne_sampled e).trans (State.fillGap_sampled e)))

theorem State.drainMissing_sampled : (s.drainMissing p).Sampled s := .ite (State.drainList_sampled ..) .rfl

theorem State.expectGroup_sampled (group : U48) (base : Int) (start : U64) : (s.expectGroup p group base start).Sampled s :=
  State.setPhs_sampled _

end

section

variable {s t u v w : State} {p q : Port}

/-! ## What the sequencer leaves alone (R85 to R97) -/

theorem State.ControlKept.rfl : s.ControlKept s := by simp [State.ControlKept]

theorem State.ControlKept.trans (h : t.ControlKept u) (k : u.ControlKept s) : t.ControlKept s := by
  unfold State.ControlKept at *
  simp_all

theorem State.Sampled.control (h : t.Sampled s) : t.ControlKept s := by
  have f := h.frame
  exact ⟨(congrArg State.power f :), (congrArg State.cfg f :), (congrArg State.tim f :), (congrArg (·.flash.cells) f :), h.cells,
    (congrArg State.permits f :), (congrArg (·.hb.doms) f :), (congrArg (·.hb.bothFailed) f :), (congrArg State.alarms f :),
    (congrArg State.pnl f :), (congrArg State.plk f :), (congrArg State.mbx f :), (congrArg State.lanes f :),
    (congrArg State.pending f :), (congrArg State.now f :)⟩

theorem State.Sampled.sht (h : t.Sampled s) : t.sht = s.sht := (congrArg State.sht h.frame :)
theorem State.Sampled.opt (h : t.Sampled s) : t.opt = s.opt := (congrArg State.opt h.frame :)
theorem State.Sampled.tiu (h : t.Sampled s) : t.tiu = s.tiu := (congrArg State.tiu h.frame :)
theorem State.Sampled.acq (h : t.Sampled s) : t.acq = s.acq := (congrArg State.acq h.frame :)

/-- Optics, the time-interval unit, MEM's state, the ALS states and all control stand. -/
structure State.Sequenced (t s : State) : Prop where
  control : t.ControlKept s
  opt : t.opt = s.opt
  tiu : t.tiu = s.tiu
  memSt : t.mem.st = s.mem.st
  alsSt : ∀ q : Port, t.als[q].st = s.als[q].st

theorem State.Sequenced.rfl : s.Sequenced s := ⟨.rfl, Eq.refl _, Eq.refl _, Eq.refl _, fun _ => Eq.refl _⟩

theorem State.Sequenced.trans (h : t.Sequenced u) (k : u.Sequenced s) : t.Sequenced s :=
  ⟨h.control.trans k.control, h.opt.trans k.opt, h.tiu.trans k.tiu, h.memSt.trans k.memSt, fun q => (h.alsSt q).trans (k.alsSt q)⟩

theorem State.Sequenced.ite {c : Prop} [Decidable c] (h : t.Sequenced s) (k : u.Sequenced s) : (if c then t else u).Sequenced s := by
  split
  · exact h
  · exact k

theorem State.Sampled.sequenced (h : t.Sampled s) : t.Sequenced s := ⟨h.control, h.opt, h.tiu, h.memSt, h.alsSt⟩

theorem State.setSht_sequenced (f : Sht → Sht) : (s.setSht p f).Sequenced s :=
  ⟨.rfl, Eq.refl _, Eq.refl _, Eq.refl _, fun _ => Eq.refl _⟩

theorem State.setSht_same (f : Sht → Sht) : (s.setSht p f).sht[p] = f s.sht[p] := by
  rw [State.setSht_sht, upd_get, if_pos (Eq.refl p)]

theorem State.setSht_other (f : Sht → Sht) (h : q ≠ p) : (s.setSht p f).sht[q] = s.sht[q] := by
  rw [State.setSht_sht, upd_get, if_neg (Ne.symm h)]

/-- A port may launch as before where nothing that its permission reads has moved. -/
theorem State.Sequenced.mayLaunch (h : t.Sequenced u) (hl : t.sht[p].launched = u.sht[p].launched) : t.mayLaunch p = u.mayLaunch p := by
  obtain ⟨hc, ho, -, hm, ha⟩ := h
  obtain ⟨h1, h2, h3, -, -, h6, h7, -, -, -, -, -, -, -, hn⟩ := hc
  simp only [State.mayLaunch, State.mayEmit, State.commonMayEmit, State.live, State.isShut, State.dom, State.hardPermit, State.alsPermits,
    State.startGates, State.timeReady, State.memReady, State.withheld, State.shutterReady, State.startGate, State.syncMode,
    State.timebase, State.history, State.rec?_of_cfg h2, h1, h3, h6, h7, hn, ho, hm, ha, hl]

/-! ## Groups that are skipped, followed and launched -/

/-- A scheduled group is not launched (R88, R95). -/
def Sht.skip (x : Sht) : Sht :=
  { x with nextGroup := x.nextGroup + 1, groupsSkipped := x.groupsSkipped + 1, rebase := true, dark := true, group := none }

theorem State.skipGroup_eq : s.skipGroup p = s.setSht p Sht.skip := rfl

/-- What stays of a sequencer while groups are skipped. -/
structure Sht.SkippedBy (y x : Sht) (n : Nat) : Prop where
  next : y.nextGroup = x.nextGroup + BitVec.ofNat 48 n
  skipped : y.groupsSkipped = x.groupsSkipped + BitVec.ofNat 64 n
  groups : y.groups = x.groups
  launched : y.launched = x.launched
  linked : y.linked = x.linked

theorem Sht.SkippedBy.of_skip {x y : Sht} {n : Nat} (h : y.SkippedBy x.skip n) : y.SkippedBy x (n + 1) := by
  obtain ⟨h1, h2, h3, h4, h5⟩ := h
  refine ⟨h1.trans ?_, h2.trans ?_, h3, h4, h5⟩
  · show x.nextGroup + 1 + _ = _
    rw [Nat.add_comm, BitVec.ofNat_add, BitVec.add_assoc]
    rfl
  · show x.groupsSkipped + 1 + _ = _
    rw [Nat.add_comm, BitVec.ofNat_add, BitVec.add_assoc]
    rfl

/-- DEC expects a group's samples, and takes those that miss already (R187). -/
theorem State.expected_sampled (group : U48) (base : Int) (start : U64) : ((s.expectGroup p group base start).drainMissing q).Sampled s :=
  State.drainMissing_sampled.trans (State.expectGroup_sampled ..)

/-- Steps that each skip one group. -/
theorem State.foldl_skips {f : State → Nat → State} (hf : ∀ v i, (f v i).Sequenced v ∧ (f v i).sht = (v.skipGroup p).sht) {l : List Nat}
    {n : Nat} (hn : l.length = n) (s : State) : (l.foldl f s).Sequenced s ∧ (l.foldl f s).sht[p].SkippedBy s.sht[p] n ∧
      ∀ q, q ≠ p → (l.foldl f s).sht[q] = s.sht[q] := by
  subst hn
  induction l generalizing s with
  | nil => exact ⟨.rfl, ⟨by simp, by simp, rfl, rfl, rfl⟩, fun _ _ => rfl⟩
  | cons i l ih =>
    obtain ⟨h1, h2⟩ := hf s i
    obtain ⟨k1, k2, k3⟩ := ih (f s i)
    rw [h2, State.skipGroup_eq, State.setSht_same] at k2
    exact ⟨k1.trans h1, k2.of_skip, fun q hq => by rw [List.foldl_cons, k3 q hq, h2, State.skipGroup_eq, State.setSht_other _ hq]⟩

/-- Groups that fell due while FD04 was fenced are skipped one by one (R88). -/
theorem State.passOver_missed (h : s.sht[p].missed = true) (n : Nat) (k : Int) : (s.passOver p n k).Sequenced s ∧
    (s.passOver p n k).sht[p].SkippedBy s.sht[p] n ∧ ∀ q, q ≠ p → (s.passOver p n k).sht[q] = s.sht[q] := by
  rw [State.passOver, if_pos h]
  refine State.foldl_skips (fun v i => ?_) List.length_range s
  have hk : (v.skipGroup p).Sequenced v := State.setSht_sequenced _
  dsimp only
  split
  · exact ⟨(State.expected_sampled ..).sequenced.trans hk, (State.expected_sampled ..).sht⟩
  · exact ⟨hk, rfl⟩

theorem State.passOver_running (h : s.sht[p].missed = false) (n : Nat) (k : Int) :
    s.passOver p n k = s.setSht p fun x => { x with groupsSkipped := x.groupsSkipped + BitVec.ofNat 64 n } := by
  rw [State.passOver, if_neg (by rw [h]; decide)]

/-- What the starts passed over leave: no command but the sequencer's, and its next start, its links and its launched groups. -/
theorem State.passOver_sequenced (p : Port) (n : Nat) (k : Int) : (s.passOver p n k).Sequenced s ∧
    (s.passOver p n k).sht[p].groups = s.sht[p].groups ∧ (s.passOver p n k).sht[p].launched = s.sht[p].launched ∧
    (s.passOver p n k).sht[p].linked = s.sht[p].linked ∧ ∀ q, q ≠ p → (s.passOver p n k).sht[q] = s.sht[q] := by
  cases h : s.sht[p].missed with
  | true =>
    obtain ⟨h1, h2, h3⟩ := State.passOver_missed h n k
    exact ⟨h1, h2.groups, h2.launched, h2.linked, h3⟩
  | false =>
    rw [State.passOver_running h, State.setSht_same]
    exact ⟨State.setSht_sequenced _, rfl, rfl, rfl, fun q hq => State.setSht_other _ hq⟩

theorem State.leads_port (h : s.leads p = true) : p = 0 := by
  simp only [State.leads, Bool.and_eq_true, beq_iff_eq] at h
  exact h.1.1

theorem State.follow_of_not_leads (h : s.leads p = false) (n : Nat) (k : Int) : s.follow p n k = s := by
  rw [State.follow, if_neg (by rw [h]; decide)]

/-- P0's start is to be followed by a linked P1 (R97). -/
theorem State.follow_sequenced (p : Port) (n : Nat) (k : Int) : (s.follow p n k).Sequenced s ∧ (s.follow p n k).sht[p] = s.sht[p] ∧
    (s.leads p = true → (s.follow p n k).sht[(1 : Port)].linked = s.sht[(1 : Port)].linked ++ [(s.now, k)]) := by
  cases h : s.leads p with
  | false =>
    rw [State.follow_of_not_leads h]
    exact ⟨.rfl, rfl, fun h => absurd h (by decide)⟩
  | true =>
    obtain rfl := State.leads_port h
    obtain ⟨h1, -, -, h4, h5⟩ := s.passOver_sequenced 1 n k
    rw [State.follow, if_pos h, State.setSht_same, State.setSht_other _ (by decide)]
    exact ⟨(State.setSht_sequenced _).trans h1, h5 0 (by decide), fun _ => congrArg (· ++ [(s.now, k)]) h4⟩

theorem State.setAls_alsSt {f : Als → Als} (h : ∀ a, (f a).st = a.st) (q : Port) : (s.setAls p f).als[q].st = s.als[q].st := by
  rw [State.setAls_als, upd_get]
  split
  · exact h _
  · rfl

theorem State.alsGroupLaunched_sequenced (group : U48) : (s.alsGroupLaunched p group).Sequenced s := by
  refine ⟨.rfl, rfl, rfl, rfl, State.setAls_alsSt fun a => ?_⟩
  dsimp only
  split <;> rfl

theorem State.adoptSet_sequenced : (s.adoptSet p).Sequenced s := ⟨.rfl, rfl, rfl, rfl, fun _ => rfl⟩

theorem State.launchGroup_sequenced (triggered queued : Bool) (stamp : U64) : (s.launchGroup p triggered queued stamp).Sequenced s :=
  (State.alsGroupLaunched_sequenced _).trans (State.adoptSet_sequenced.trans (State.setSht_sequenced _))

theorem State.launchGroup_sht (triggered queued : Bool) (stamp : U64) :
    (s.launchGroup p triggered queued stamp).sht = upd s.sht p fun x =>
      { x with
        group := some
          { number := s.sht[p].nextGroup, start := s.now, triggered := triggered, queued := queued,
            triggerTime := if triggered then stamp else 0, rebased := s.sht[p].rebase
            wantsTs := s.carriesTs p s.sht[p].nextGroup }
        nextGroup := x.nextGroup + 1, groups := x.groups + 1, launched := true, dark := false, rebase := false } := rfl

/-- A group start that has come: the group is launched or skipped, and what DEC expects of it is no matter of the sequencer's (R88, R187). -/
theorem State.runGroup_sht (slot : Int) (triggered queued : Bool) (stamp : U64) :
    (s.runGroup p slot triggered queued stamp).sht =
      (if s.mayLaunch p then s.launchGroup p triggered queued stamp else s.skipGroup p).sht := by
  unfold State.runGroup
  extract_lets number v
  split
  · exact (State.expected_sampled ..).sht
  · rfl

theorem State.runGroup_sequenced (slot : Int) (triggered queued : Bool) (stamp : U64) :
    (s.runGroup p slot triggered queued stamp).Sequenced s := by
  unfold State.runGroup
  extract_lets number v
  have hv : v.Sequenced s := .ite (State.launchGroup_sequenced ..) (State.setSht_sequenced _)
  exact .ite ((State.expected_sampled ..).sequenced.trans hv) hv

end

section

variable {s t u v w : State} {p q : Port}

/-! ## A group start (R85 to R91, R97) -/

theorem State.leads_of_cfg (h : t.cfg = u.cfg) (p : Port) : t.leads p = u.leads p := by
  simp only [State.leads, State.link, State.shotRec, State.rec?_of_cfg h, State.portLaunches_of_cfg h]

theorem State.carriesTs_of_cfg (h : t.cfg = u.cfg) (p : Port) (n : U48) : t.carriesTs p n = u.carriesTs p n := by
  simp only [State.carriesTs, State.tsEvery, State.shotRec, State.rec?_of_cfg h]

theorem State.Sequenced.cfg (h : t.Sequenced u) : t.cfg = u.cfg := h.control.2.1
theorem State.Sequenced.now (h : t.Sequenced u) : t.now = u.now := h.control.2.2.2.2.2.2.2.2.2.2.2.2.2.2

/-- The state in which a scheduled group start finds its port. -/
def State.scheduledStart (u : State) (p : Port) (passed : Nat) (slot : Int) : State :=
  let w := (if u.portLaunches p then u.passOver p passed slot else u).follow p passed slot
  w.setSht p fun x =>
    { x with lastStart := some w.now, lastSlot := slot, stepped := false, missed := false
             linked := x.linked.filter fun t => w.now < t.1 + w.linkOffset p }

theorem State.scheduledStart_sequenced (passed : Nat) (slot : Int) : (u.scheduledStart p passed slot).Sequenced u :=
  (State.setSht_sequenced _).trans ((State.follow_sequenced ..).1.trans (.ite (State.passOver_sequenced ..).1 .rfl))

theorem exec_groupStart_scheduled (dt : Nat) {passed : Nat} {slot : Int} (hu : u = s.elapse dt) (hp : u.power.phase = .up)
    (h4 : u.isShut 4 = false) (hl : u.portLaunches p = true ∨ u.leads p = true) (hd : u.due p = .scheduled passed slot) :
    exec (.groupStart dt p) s = .next (if u.portLaunches p then (u.scheduledStart p passed slot).runGroup p slot false false 0
      else u.scheduledStart p passed slot) := by
  have hc : ¬ ((!u.live || !(u.portLaunches p || u.leads p) || u.isShut 4) = true) := by
    rw [State.live_of_up hp, h4]
    rcases hl with h | h <;> simp [h]
  simp only [exec, execGroupStart, ← hu]
  rw [if_neg hc, hd]
  dsimp only
  rw [State.portLaunches_of_cfg (p := p) (u := u)]
  · rfl
  · exact (State.scheduledStart_sequenced passed slot).cfg

theorem State.scheduledStart_sht (passed : Nat) (slot : Int) : (u.scheduledStart p passed slot).sht[p] =
    { (if u.portLaunches p then u.passOver p passed slot else u).sht[p] with
      lastStart := some u.now, lastSlot := slot, stepped := false, missed := false
      linked := (u.scheduledStart p passed slot).sht[p].linked } := by
  unfold State.scheduledStart
  obtain ⟨v, hv⟩ : ∃ v, v = if u.portLaunches p then u.passOver p passed slot else u := ⟨_, rfl⟩
  have hs : v.Sequenced u := by rw [hv]; exact .ite (State.passOver_sequenced ..).1 .rfl
  rw [← hv]
  obtain ⟨h1, h2, -⟩ := v.follow_sequenced p passed slot
  dsimp only
  rw [State.setSht_same, h2, h1.now, hs.now]

theorem State.scheduledStart_linked (h : u.leads p = true) (passed : Nat) (slot : Int) :
    (u.scheduledStart p passed slot).sht[(1 : Port)].linked = u.sht[(1 : Port)].linked ++ [(u.now, slot)] := by
  obtain rfl := State.leads_port h
  unfold State.scheduledStart
  obtain ⟨v, hv⟩ : ∃ v, v = if u.portLaunches 0 then u.passOver 0 passed slot else u := ⟨_, rfl⟩
  have hs : v.Sequenced u := by rw [hv]; exact .ite (State.passOver_sequenced ..).1 .rfl
  have hv1 : v.sht[(1 : Port)] = u.sht[(1 : Port)] := by
    rw [hv]
    split
    · exact (State.passOver_sequenced ..).2.2.2.2 1 (by decide)
    · rfl
  rw [← hv]
  obtain ⟨-, -, h3⟩ := v.follow_sequenced 0 passed slot
  dsimp only
  rw [State.setSht_other _ (by decide), h3 ((State.leads_of_cfg hs.cfg 0).trans h), hv1, hs.now]

theorem State.scheduledStart_other (h : u.leads p = false) (hq : q ≠ p) (passed : Nat) (slot : Int) :
    (u.scheduledStart p passed slot).sht[q] = u.sht[q] := by
  unfold State.scheduledStart
  obtain ⟨v, hv⟩ : ∃ v, v = if u.portLaunches p then u.passOver p passed slot else u := ⟨_, rfl⟩
  have hs : v.Sequenced u := by rw [hv]; exact .ite (State.passOver_sequenced ..).1 .rfl
  have hvq : v.sht[q] = u.sht[q] := by
    rw [hv]
    split
    · exact (State.passOver_sequenced ..).2.2.2.2 q hq
    · rfl
  rw [← hv, State.follow_of_not_leads ((State.leads_of_cfg hs.cfg p).trans h)]
  exact (State.setSht_other _ hq).trans hvq

theorem State.runGroup_other (hq : q ≠ p) (slot : Int) (triggered queued : Bool) (stamp : U64) :
    (s.runGroup p slot triggered queued stamp).sht[q] = s.sht[q] := by
  simp only [State.runGroup_sht]
  split
  · simp only [State.launchGroup_sht, upd_get, if_neg (Ne.symm hq)]
  · exact State.setSht_other _ hq

theorem State.runGroup_launched (h : s.mayLaunch p = true) (slot : Int) (triggered queued : Bool) (stamp : U64) :
    (s.runGroup p slot triggered queued stamp).sht[p] =
      { s.sht[p] with
        group := some
          { number := s.sht[p].nextGroup, start := s.now, triggered := triggered, queued := queued,
            triggerTime := if triggered then stamp else 0, rebased := s.sht[p].rebase
            wantsTs := s.carriesTs p s.sht[p].nextGroup }
        nextGroup := s.sht[p].nextGroup + 1, groups := s.sht[p].groups + 1, launched := true, dark := false, rebase := false } := by
  simp only [State.runGroup_sht, if_pos h, State.launchGroup_sht, upd_get, if_true]

theorem State.runGroup_skipped (h : s.mayLaunch p = false) (slot : Int) (triggered queued : Bool) (stamp : U64) :
    (s.runGroup p slot triggered queued stamp).sht[p] = s.sht[p].skip := by
  rw [State.runGroup_sht, if_neg (by rw [h]; decide), State.skipGroup_eq, State.setSht_same]

/-- Launched or not, the group's start, its place in the schedule and its links stand. -/
theorem State.runGroup_start (slot : Int) (triggered queued : Bool) (stamp : U64) :
    (s.runGroup p slot triggered queued stamp).sht[p].lastStart = s.sht[p].lastStart ∧
    (s.runGroup p slot triggered queued stamp).sht[p].lastSlot = s.sht[p].lastSlot ∧
    (s.runGroup p slot triggered queued stamp).sht[p].nextGroup = s.sht[p].nextGroup + 1 ∧
    (s.runGroup p slot triggered queued stamp).sht[p].groups + (s.runGroup p slot triggered queued stamp).sht[p].groupsSkipped =
      s.sht[p].groups + s.sht[p].groupsSkipped + 1 := by
  cases h : s.mayLaunch p with
  | true =>
    rw [State.runGroup_launched h]
    exact ⟨rfl, rfl, rfl, by rw [BitVec.add_assoc, BitVec.add_comm 1, ← BitVec.add_assoc]⟩
  | false =>
    rw [State.runGroup_skipped h]
    exact ⟨rfl, rfl, rfl, (BitVec.add_assoc ..).symm⟩

/-- The state in which a called group start finds its port. -/
def State.calledStart (u : State) (p : Port) (c : Call) : State :=
  let v := u.setSht p fun x => { x with calls := x.calls.filter fun c => u.now < c.start }
  (v.setSht p fun x =>
    { x with
      lastStart := some v.now, trigAccepted := x.trigAccepted + 1, rebase := x.rebase || c.gap
      trigQueued := if c.queued then x.trigQueued + 1 else x.trigQueued }).follow p 0 0

theorem State.calledStart_sequenced (c : Call) : (u.calledStart p c).Sequenced u :=
  (State.follow_sequenced ..).1.trans ((State.setSht_sequenced _).trans (State.setSht_sequenced _))

theorem State.calledStart_sht (c : Call) : (u.calledStart p c).sht[p] =
    { u.sht[p] with
      calls := u.sht[p].calls.filter fun c => u.now < c.start, lastStart := some u.now
      trigAccepted := u.sht[p].trigAccepted + 1, rebase := u.sht[p].rebase || c.gap
      trigQueued := if c.queued then u.sht[p].trigQueued + 1 else u.sht[p].trigQueued } := by
  unfold State.calledStart
  dsimp only
  rw [(State.follow_sequenced ..).2.1, State.setSht_same, State.setSht_same]
  rfl

theorem State.hears_of_kept (h : t.Sequenced u) (hl : t.sht[p].launched = u.sht[p].launched) : t.hears p = u.hears p := by
  obtain ⟨hc, ho, -, hm, ha⟩ := h
  have hlead := State.leads_of_cfg hc.2.1 p
  obtain ⟨h1, h2, h3, -, -, h6, h7, -, -, -, -, -, -, -, hn⟩ := hc
  simp only [State.hears, State.mayEmit, State.commonMayEmit, State.live, State.isShut, State.dom, State.hardPermit, State.alsPermits,
    State.startGates, State.timeReady, State.memReady, State.withheld, State.startGate, State.syncMode,
    State.timebase, State.history, State.rec?_of_cfg h2, h1, h3, h6, h7, ho, hm, ha, hl, hlead]

theorem exec_groupStart_called (dt : Nat) {c : Call} (hu : u = s.elapse dt) (hp : u.power.phase = .up) (h4 : u.isShut 4 = false)
    (hl : u.portLaunches p = true) (hd : u.due p = .called c) : exec (.groupStart dt p) s =
      if u.hears p then .next ((u.calledStart p c).runGroup p 0 true c.queued c.stamp)
      else .next ((u.setSht p fun x => { x with calls := x.calls.filter fun c => u.now < c.start }).setSht p
        fun x => { x with trigDark := x.trigDark + 1, rebase := true, dark := true }) := by
  have hc : ¬ ((!u.live || !(u.portLaunches p || u.leads p) || u.isShut 4) = true) := by
    rw [State.live_of_up hp, h4, hl]
    simp
  obtain ⟨v, hv⟩ : ∃ v, v = u.setSht p fun x => { x with calls := x.calls.filter fun c => u.now < c.start } := ⟨_, rfl⟩
  have hh : v.hears p = u.hears p := by
    rw [hv]
    exact State.hears_of_kept (State.setSht_sequenced _) (by rw [State.setSht_same])
  have hpl : (u.calledStart p c).portLaunches p = true := (State.portLaunches_of_cfg (State.calledStart_sequenced c).cfg p).trans hl
  simp only [exec, execGroupStart, ← hu]
  rw [if_neg hc, hd]
  dsimp only
  rw [← hv, hh]
  congr 1
  congr 1
  refine (if_pos ?_).trans ?_
  · rw [hv]
    exact hpl
  · rw [hv]
    rfl

end

/-- Settles O23: the state in which a start finds its port (`State.scheduledStart`, `State.calledStart`), then `State.runGroup` by
whether the port may launch. -/
theorem groupsStart : Obligations.GroupsStart := by
  refine ⟨fun s u dt passed slot p hu hp h4 hk hd => ⟨fun hl => ?_, fun hl h0 => ?_⟩, fun s u dt c p hu hp hl h4 hd =>
    ⟨fun hh hm => ?_, fun hh hm => ?_, fun hh => ?_⟩⟩
  · have e := exec_groupStart_scheduled dt hu hp h4 (.inl hl) hd
    rw [if_pos hl] at e
    have hs := State.scheduledStart_sequenced (u := u) (p := p) passed slot
    have hx := State.scheduledStart_sht (u := u) (p := p) passed slot
    obtain ⟨v, hv⟩ : ∃ v, v = u.scheduledStart p passed slot := ⟨_, rfl⟩
    have hr := (State.runGroup_sequenced (s := v) (p := p) slot false false 0).trans (hv ▸ hs)
    obtain ⟨r1, r2, r3, r4⟩ := State.runGroup_start (s := v) (p := p) slot false false 0
    rw [← hv] at e hs
    rw [if_pos hl, ← hv] at hx
    refine ⟨_, e, ?_, ?_, hr.opt, hr.tiu, hr.control, fun h => ?_, fun h q hq => ?_, fun hmiss hmay => ?_, fun hmiss hmay => ?_,
      fun hmiss => ?_⟩
    · rw [r1, hx]
    · rw [r2, hx]
    · obtain rfl := State.leads_port h
      rw [State.runGroup_other (by decide), hv]
      exact State.scheduledStart_linked h passed slot
    · rw [State.runGroup_other hq, hv]
      exact State.scheduledStart_other h hq passed slot
    · have hpass := State.passOver_running hmiss passed slot
      have hlaunched : v.sht[p].launched = u.sht[p].launched := by rw [hx, hpass, State.setSht_same]
      have ht := State.runGroup_launched ((hs.mayLaunch hlaunched).trans hmay) slot false false 0
      rw [ht, hx, hpass, State.setSht_same, hs.now, State.carriesTs_of_cfg hs.cfg]
      exact ⟨⟨_, rfl, rfl, rfl, rfl, rfl, rfl, rfl, rfl⟩, rfl, rfl, rfl, rfl, rfl⟩
    · have hpass := State.passOver_running hmiss passed slot
      have hlaunched : v.sht[p].launched = u.sht[p].launched := by rw [hx, hpass, State.setSht_same]
      have ht := State.runGroup_skipped ((hs.mayLaunch hlaunched).trans hmay) slot false false 0
      rw [ht, hx, hpass, State.setSht_same]
      exact ⟨rfl, rfl, rfl, rfl, rfl⟩
    · obtain ⟨-, h1, -⟩ := State.passOver_missed hmiss passed slot
      rw [r3, r4, hx]
      exact ⟨congrArg (· + 1) h1.next, by rw [h1.skipped, h1.groups, ← BitVec.add_assoc]⟩
  · have e := exec_groupStart_scheduled dt hu hp h4 (.inr h0) hd
    rw [if_neg (by rw [hl]; decide)] at e
    have hs := State.scheduledStart_sequenced (u := u) (p := p) passed slot
    have hx := State.scheduledStart_sht (u := u) (p := p) passed slot
    rw [if_neg (by rw [hl]; decide)] at hx
    refine ⟨_, e, ?_, ?_, ?_, State.scheduledStart_linked h0 passed slot, hs.opt, hs.control⟩ <;> rw [hx]
  · have e := exec_groupStart_called dt hu hp h4 hl hd
    rw [if_pos hh] at e
    have hs := State.calledStart_sequenced (u := u) (p := p) c
    have hx := State.calledStart_sht (u := u) (p := p) c
    obtain ⟨v, hv⟩ : ∃ v, v = u.calledStart p c := ⟨_, rfl⟩
    rw [← hv] at e hs hx
    have ht := State.runGroup_launched ((hs.mayLaunch (by rw [hx])).trans hm) 0 true c.queued c.stamp
    have hr := (State.runGroup_sequenced (s := v) (p := p) 0 true c.queued c.stamp).trans hs
    refine ⟨_, e, ?_⟩
    rw [ht, hx, hs.now]
    exact ⟨rfl, rfl, rfl, ⟨_, rfl, rfl, rfl, rfl, rfl, rfl, rfl⟩, rfl, rfl, hr.opt, hr.control⟩
  · have e := exec_groupStart_called dt hu hp h4 hl hd
    rw [if_pos hh] at e
    have hs := State.calledStart_sequenced (u := u) (p := p) c
    have hx := State.calledStart_sht (u := u) (p := p) c
    obtain ⟨v, hv⟩ : ∃ v, v = u.calledStart p c := ⟨_, rfl⟩
    rw [← hv] at e hs hx
    have ht := State.runGroup_skipped ((hs.mayLaunch (by rw [hx])).trans hm) 0 true c.queued c.stamp
    have hr := (State.runGroup_sequenced (s := v) (p := p) 0 true c.queued c.stamp).trans hs
    refine ⟨_, e, ?_⟩
    rw [ht, hx]
    exact ⟨rfl, rfl, rfl, rfl, hr.opt, hr.control⟩
  · rw [exec_groupStart_called dt hu hp h4 hl hd, if_neg (by rw [hh]; decide), State.setSht, State.setSht, upd_upd]

section

variable {s t u v w : State} {p q : Port}

/-! ## A launched shot (R75 to R82, R142) -/

/-- `s` with what the admission of a shot's records moves of it taken from `t`. -/
def State.withRecords (s t : State) : State := { s with acq := t.acq, dts := t.dts, sht := t.sht, fab := t.fab }

/-- A shot's records are admitted or refused: acquisition, Raman front end, loss counters and reports may change; of the sequencers only
the marks of the waiting shots of the port. -/
structure State.Admits (t s : State) (p : Port) : Prop where
  frame : OnlyReports t (s.withRecords t)
  waits : t.sht[p] = { s.sht[p] with awaiting := t.sht[p].awaiting }
  opened : t.sht[p].awaiting.map (·.openedAt) = s.sht[p].awaiting.map (·.openedAt)
  others : ∀ q, q ≠ p → t.sht[q] = s.sht[q] ∧ t.acq[q] = s.acq[q] ∧ t.fab.ports[q] = s.fab.ports[q]

theorem State.Admits.rfl : s.Admits s p := ⟨Eq.refl _, Eq.refl _, Eq.refl _, fun _ _ => ⟨Eq.refl _, Eq.refl _, Eq.refl _⟩⟩

theorem State.Admits.trans (h : t.Admits u p) (k : u.Admits s p) : t.Admits s p := by
  obtain ⟨h1, h2, h3, h4⟩ := h
  obtain ⟨k1, k2, k3, k4⟩ := k
  refine ⟨?_, ?_, h3.trans k3, fun q hq => ?_⟩
  · have k' : (u.withRecords t).hushed = (s.withRecords t).hushed := congrArg (fun x : State => x.withRecords t.hushed) k1
    exact Eq.trans h1 k'
  · rw [h2, k2]
  · obtain ⟨a1, a2, a3⟩ := h4 q hq
    obtain ⟨b1, b2, b3⟩ := k4 q hq
    exact ⟨a1.trans b1, a2.trans b2, a3.trans b3⟩

theorem OnlyReports.admits (h : OnlyReports t s) : t.Admits s p := by
  have e : t.hushed = s.hushed.withRecords t.hushed := by
    rw [h]
    rfl
  have hs : t.sht = s.sht := (congrArg State.sht h :)
  have hq (q : Port) : t.acq[q] = s.acq[q] := (congrArg (fun x : State => x.acq[q]) h :)
  have hf (q : Port) : t.fab.ports[q] = s.fab.ports[q] := (congrArg (fun x : State => x.fab.ports[q]) h :)
  exact ⟨e, by rw [hs], by rw [hs], fun q _ => ⟨by rw [hs], hq q, hf q⟩⟩

theorem State.setAcq_same (f : Acq → Acq) : (s.setAcq p f).acq[p] = f s.acq[p] := by
  rw [State.setAcq_acq, upd_get, if_pos (Eq.refl p)]

theorem State.setAcq_other (f : Acq → Acq) (h : q ≠ p) : (s.setAcq p f).acq[q] = s.acq[q] := by
  rw [State.setAcq_acq, upd_get, if_neg (Ne.symm h)]

theorem State.setAcq_admits (f : Acq → Acq) : (s.setAcq p f).Admits s p :=
  ⟨Eq.refl _, Eq.refl _, Eq.refl _, fun _ hq => ⟨Eq.refl _, State.setAcq_other f hq, Eq.refl _⟩⟩

theorem State.setDrop_admits (f : DropPort → DropPort) : (s.setDrop p f).Admits s p := by
  refine ⟨Eq.refl _, Eq.refl _, Eq.refl _, fun q hq => ⟨Eq.refl _, Eq.refl _, ?_⟩⟩
  show (upd s.fab.ports p f)[q] = _
  rw [upd_get, if_neg (Ne.symm hq)]

theorem State.logDrop_admits (tag : ShotTag) (cause : Nat) : (s.logDrop p tag cause).Admits s p := by
  unfold State.logDrop
  extract_lets e quiet src v w
  have hv : v.Admits s p := ⟨Eq.refl _, Eq.refl _, Eq.refl _, fun _ _ => ⟨Eq.refl _, Eq.refl _, Eq.refl _⟩⟩
  have hw : w.Admits s p := (State.setDrop_admits _).trans hv
  split
  · exact (OnlyReports.admits (State.record_hushed ..)).trans hw
  · exact hw

/-- Marks of the waiting shots. -/
theorem State.setSht_admits {f : List Awaiting → List Awaiting} (h : ∀ l, (f l).map (·.openedAt) = l.map (·.openedAt)) :
    (s.setSht p fun x => { x with awaiting := f x.awaiting }).Admits s p := by
  refine ⟨Eq.refl _, ?_, ?_, fun q hq => ⟨State.setSht_other _ hq, Eq.refl _, Eq.refl _⟩⟩
  · rw [State.setSht_same]
  · rw [State.setSht_same]
    exact h _

theorem State.dropShot_admits (tag : ShotTag) (cause : Fin 4) : (s.dropShot p tag cause).Admits s p := by
  unfold State.dropShot
  extract_lets code v w
  have hv : v.Admits s p := State.setDrop_admits _
  have hw : w.Admits s p := by
    simp only [w]
    split
    · exact (State.setAcq_admits _).trans hv
    · exact hv
  split
  · refine State.Admits.trans (State.setSht_admits fun l => ?_) hw
    rw [List.map_map]
    refine List.map_congr_left fun a _ => ?_
    show (if a.isShot tag then _ else a : Awaiting).openedAt = _
    split <;> rfl
  · exact (State.logDrop_admits ..).trans hw

theorem State.admitRecord_admits (tag : ShotTag) : (s.admitRecord p tag).Admits s p := by
  unfold State.admitRecord
  split
  · exact (State.setAcq_admits _).trans (State.dropShot_admits ..)
  extract_lets x first r y
  split
  · exact State.setAcq_admits _
  · exact (State.setAcq_admits _).trans (State.dropShot_admits ..)

theorem State.openRaman_admits (tag : ShotTag) : (s.openRaman p tag).Admits s p := by
  unfold State.openRaman
  split
  · exact State.dropShot_admits ..
  split
  · exact State.dropShot_admits ..
  · exact ⟨Eq.refl _, Eq.refl _, Eq.refl _, fun _ _ => ⟨Eq.refl _, Eq.refl _, Eq.refl _⟩⟩

theorem State.Admits.sequenced (h : t.Admits s p) : t.Sequenced s := by
  have f := h.frame
  have hm := congrArg State.mem f
  exact ⟨⟨(congrArg State.power f :), (congrArg State.cfg f :), (congrArg State.tim f :), (congrArg (·.flash.cells) f :),
    (congrArg Mem.cells hm :), (congrArg State.permits f :), (congrArg (·.hb.doms) f :), (congrArg (·.hb.bothFailed) f :),
    (congrArg State.alarms f :), (congrArg State.pnl f :), (congrArg State.plk f :), (congrArg State.mbx f :),
    (congrArg State.lanes f :), (congrArg State.pending f :), (congrArg State.now f :)⟩, (congrArg State.opt f :),
    (congrArg State.tiu f :), (congrArg Mem.st hm :), fun q => (congrArg (fun x : State => x.als[q].st) f :)⟩

/-- What has left the lands stays among the outputs. -/
theorem mem_outputs_of_hushed {o : Output} (h : t.hushed.outputs = s.hushed.outputs) (ho : o.isPlain = true) (hm : o ∈ s.outputs) :
    o ∈ t.outputs := by
  have h' : o ∈ t.outputs.filter Output.isPlain := by
    show o ∈ t.hushed.outputs
    rw [h]
    exact List.mem_filter.mpr ⟨hm, ho⟩
  exact (List.mem_filter.mp h').1

theorem State.Admits.outputs {o : Output} (h : t.Admits s p) (ho : o.isPlain = true) (hm : o ∈ s.outputs) : o ∈ t.outputs :=
  mem_outputs_of_hushed (congrArg State.outputs h.frame :) ho hm

theorem State.Sampled.outputs {o : Output} (h : t.Sampled s) (ho : o.isPlain = true) (hm : o ∈ s.outputs) : o ∈ t.outputs :=
  mem_outputs_of_hushed (congrArg State.outputs h.frame :) ho hm

theorem State.setOptPort_same (f : OptPort → OptPort) : (s.setOptPort p f).opt.ports[p] = f s.opt.ports[p] := by
  show (upd s.opt.ports p f)[p] = _
  rw [upd_get, if_pos rfl]

theorem State.setOptPort_other (f : OptPort → OptPort) (h : q ≠ p) : (s.setOptPort p f).opt.ports[q] = s.opt.ports[q] := by
  show (upd s.opt.ports p f)[q] = _
  rw [upd_get, if_neg (Ne.symm h)]

/-- The pulse of a shot, and the peak power it leaves with. -/
def State.shotPulse (s : State) (p : Port) : Option Nat → Pulse
  | some k => s.vibPulse p k
  | none => tsPulse

def State.shotPeak (s : State) (p : Port) (pleat : Option Nat) : Int := if pleat.isSome then s.peakSet p else s.tsPeakSet p

theorem State.launchShot_port (g : Group) (pleat : Option Nat) : (s.launchShot p g pleat).opt.ports[p] =
    { s.opt.ports[p] with gate := some ⟨pleat, s.now, s.shotPulse p pleat⟩, shots := s.opt.ports[p].shots + 1 } := by
  cases pleat <;> exact State.setOptPort_same _

theorem State.launchShot_other (g : Group) (pleat : Option Nat) (h : q ≠ p) :
    (s.launchShot p g pleat).opt.ports[q] = s.opt.ports[q] ∧ (s.launchShot p g pleat).sht[q] = s.sht[q] := by
  constructor
  · cases pleat <;> exact State.setOptPort_other _ h
  · cases pleat <;> exact State.setSht_other _ h

theorem State.launchShot_light (g : Group) (pleat : Option Nat) :
    Output.light p (s.shotPulse p pleat) (s.shotPeak p pleat) ∈ (s.launchShot p g pleat).outputs := by
  cases pleat <;> exact List.mem_cons_self ..

theorem State.launchShot_waits (g : Group) (pleat : Option Nat) : ∃ a : Awaiting, a.openedAt = s.now ∧
    (s.launchShot p g pleat).sht[p] = { s.sht[p] with awaiting := s.sht[p].awaiting ++ [a] } := by
  cases pleat <;> exact ⟨_, rfl, State.setSht_same _⟩

theorem State.launchShot_control (g : Group) (pleat : Option Nat) : (s.launchShot p g pleat).ControlKept s ∧
    (s.launchShot p g pleat).tiu = s.tiu ∧ (s.launchShot p g pleat).acq = s.acq ∧ (s.launchShot p g pleat).fab = s.fab := by
  cases pleat <;> exact ⟨.rfl, rfl, rfl, rfl⟩

end

section

variable {s t u v w : State} {p q : Port}

theorem State.selfSupplied_of_cfg (h : t.cfg = u.cfg) (p : Port) : t.selfSupplied p = u.selfSupplied p := by
  simp only [State.selfSupplied, State.pleats, State.shotRec, State.chirpLength, State.rectWidth, State.pulseRec, State.rec?_of_cfg h]

/-- The tag of a pleat's record. -/
def Group.pleatTag (g : Group) (k : Nat) : ShotTag := { group := g.number, pleat := k, rebased := g.rebased, triggered := g.triggered }

/-- The state in which the queue admits or refuses a pleat's record: the gate is open and the shot waits. -/
def State.pleatLaunched (u : State) (p : Port) (g : Group) (k : Nat) : State :=
  (u.setSht p fun x => { x with group := some { g with pleats := g.pleats + 1 } }).launchShot p g (some k)

/-- A pleat's shot that may be issued: up to DEC's samples, its records are admitted after its launch. -/
theorem exec_pleatShotLaunch {dt : Nat} {k : Pleat} {g : Group} (hu : u = s.elapse dt) (hg : u.sht[p].group = some g)
    (hs : g.stopped = false) (hk : k.val < u.pleats p) (hn : g.pleats = k.val)
    (hat : u.now = g.start + k.val * (u.periodP p / u.pleats p)) (hi : u.mayIssue p = true) :
    ∃ t w : State, exec (.pleatShotLaunch dt p k) s = .next t ∧ t.Sampled w ∧
      w = (if u.selfSupplied p then
        ((u.pleatLaunched p g k.val).admitRecord p (g.pleatTag k.val)).openRaman p (g.pleatTag k.val)
      else (u.pleatLaunched p g k.val).admitRecord p (g.pleatTag k.val)) := by
  have hc : ((u.pleatLaunched p g k.val).admitRecord p (g.pleatTag k.val)).selfSupplied p = u.selfSupplied p :=
    State.selfSupplied_of_cfg ((State.admitRecord_admits _).sequenced.cfg.trans (State.launchShot_control ..).1.2.1) p
  rw [← hc]
  refine ⟨_, _, ?_, State.drainMissing_sampled (p := p), rfl⟩
  simp only [exec, execPleatShotLaunch, ← hu, hg]
  rw [if_pos ⟨hk, hn, hs, hat⟩, if_pos hi]
  rfl

theorem exec_pleatShotLaunch_refused {dt : Nat} {k : Pleat} {g : Group} (hu : u = s.elapse dt) (hg : u.sht[p].group = some g)
    (hs : g.stopped = false) (hk : k.val < u.pleats p) (hn : g.pleats = k.val)
    (hat : u.now = g.start + k.val * (u.periodP p / u.pleats p)) (hi : u.mayIssue p = false) :
    exec (.pleatShotLaunch dt p k) s = .next
      ((u.setSht p fun x => { x with group := some { g with stopped := true }, rebase := true }).drainMissing p) := by
  simp only [exec, execPleatShotLaunch, ← hu, hg]
  rw [if_pos ⟨hk, hn, hs, hat⟩, if_neg (by rw [hi]; decide)]

theorem State.pleatLaunched_sht (g : Group) (k : Nat) : ∃ a : Awaiting, a.openedAt = u.now ∧ (u.pleatLaunched p g k).sht[p] =
    { u.sht[p] with group := some { g with pleats := g.pleats + 1 }, awaiting := u.sht[p].awaiting ++ [a] } := by
  obtain ⟨a, ha, h⟩ := (u.setSht p fun x => { x with group := some { g with pleats := g.pleats + 1 } }).launchShot_waits (p := p) g (some k)
  refine ⟨a, ha, h.trans ?_⟩
  rw [State.setSht_same]

theorem State.pleatLaunched_control (g : Group) (k : Nat) : (u.pleatLaunched p g k).ControlKept u ∧ (u.pleatLaunched p g k).tiu = u.tiu ∧
    (u.pleatLaunched p g k).acq = u.acq ∧ (u.pleatLaunched p g k).fab = u.fab := State.launchShot_control ..

/-- The state in which a temperature shot's record opens. -/
def State.tsLaunched (u : State) (p : Port) (g : Group) : State :=
  (u.setSht p fun x => { x with group := some { g with wantsTs := false }, tsShots := x.tsShots + 1 }).launchShot p g none

theorem State.tsLaunched_sht (g : Group) : ∃ a : Awaiting, a.openedAt = u.now ∧ (u.tsLaunched p g).sht[p] =
    { u.sht[p] with
      group := some { g with wantsTs := false }, tsShots := u.sht[p].tsShots + 1, awaiting := u.sht[p].awaiting ++ [a] } := by
  obtain ⟨a, ha, h⟩ := (u.setSht p fun x => { x with group := some { g with wantsTs := false }, tsShots := x.tsShots + 1 }).launchShot_waits
    (p := p) g none
  refine ⟨a, ha, h.trans ?_⟩
  rw [State.setSht_same]

theorem exec_temperatureShotLaunch {dt : Nat} {g : Group} (hu : u = s.elapse dt) (hg : u.sht[p].group = some g)
    (hw : g.wantsTs = true) (hs : g.stopped = false) (hat : u.now = g.start + u.tsAt p) :
    exec (.temperatureShotLaunch dt p) s =
      if u.mayIssue p then .next ((u.tsLaunched p g).openRaman p
        { group := g.number, temperature := true, rebased := g.rebased, triggered := g.triggered })
      else .next (u.setSht p fun x => { x with group := some { g with stopped := true }, rebase := true }) := by
  simp only [exec, execTemperatureShotLaunch, ← hu, hg]
  rw [if_pos ⟨hw, hs, hat⟩]
  rfl

end

/-- Settles O24: what a launch leaves of gate, light and waiting shots stands while its records are admitted and DEC takes samples. -/
theorem shotsOpenTheGate : Obligations.ShotsOpenTheGate := by
  refine ⟨fun s u dt p g hu hg hs => ⟨fun k hk hn hat => ?_, fun hw hat => ?_⟩, fun s u dt p g hu hg he => ?_⟩
  · cases hi : u.mayIssue p with
    | true =>
      obtain ⟨t, w, e, hd, hw⟩ := exec_pleatShotLaunch hu hg hs hk hn hat hi
      obtain ⟨hc, hti, -, -⟩ := u.pleatLaunched_control (p := p) g k.val
      have ha : w.Admits (u.pleatLaunched p g k.val) p := by
        rw [hw]
        split
        · exact (State.openRaman_admits _).trans (State.admitRecord_admits _)
        · exact State.admitRecord_admits _
      have hq := ha.sequenced
      obtain ⟨a, hao, hsh⟩ := u.pleatLaunched_sht (p := p) g k.val
      have hopt : t.opt = (u.pleatLaunched p g k.val).opt := hd.opt.trans hq.opt
      refine ⟨t, e, hd.tiu.trans (hq.tiu.trans hti), hd.control.trans (hq.control.trans hc), fun q hqp => ⟨?_, ?_⟩, fun _ => ⟨?_, ?_, ?_, ?_⟩,
        fun h => absurd h (by decide)⟩
      · rw [hopt]
        exact (State.launchShot_other g (some k.val) hqp).1
      · rw [hd.sht, (ha.others q hqp).1]
        exact (State.launchShot_other g (some k.val) hqp).2.trans (State.setSht_other _ hqp)
      · rw [hopt]
        exact State.launchShot_port g (some k.val)
      · exact hd.outputs rfl (ha.outputs rfl (State.launchShot_light (s := u.setSht p _) g (some k.val)))
      · rw [hd.sht, ha.waits, hsh, hn]
      · rw [hd.sht, ha.opened, hsh, List.map_append, List.map_singleton, hao]
    | false =>
      have hd := State.drainMissing_sampled (s := u.setSht p fun x => { x with group := some { g with stopped := true }, rebase := true }) (p := p)
      refine ⟨_, exec_pleatShotLaunch_refused hu hg hs hk hn hat hi, hd.tiu, hd.control, fun q hqp => ⟨?_, ?_⟩,
        fun h => absurd h (by decide), fun _ => ⟨hd.opt, ?_⟩⟩
      · rw [hd.opt]
        rfl
      · rw [hd.sht]
        exact State.setSht_other _ hqp
      · rw [hd.sht, State.setSht_same]
  · have e := exec_temperatureShotLaunch (p := p) hu hg hw hs hat
    cases hi : u.mayIssue p with
    | true =>
      rw [if_pos hi] at e
      have ha := State.openRaman_admits (s := u.tsLaunched p g) (p := p)
        { group := g.number, temperature := true, rebased := g.rebased, triggered := g.triggered }
      obtain ⟨hc, hti, -, -⟩ := (u.setSht p fun x => { x with group := some { g with wantsTs := false }, tsShots := x.tsShots + 1 }).launchShot_control
        (p := p) g none
      have hq := ha.sequenced
      obtain ⟨a, hao, hsh⟩ := u.tsLaunched_sht (p := p) g
      refine ⟨_, e, hq.tiu.trans hti, hq.control.trans hc, fun q hqp => ⟨?_, ?_⟩, fun _ => ⟨?_, ?_, ?_, ?_, ?_⟩,
        fun h => absurd h (by decide)⟩
      · rw [hq.opt]
        exact (State.launchShot_other g none hqp).1
      · rw [(ha.others q hqp).1]
        exact (State.launchShot_other g none hqp).2.trans (State.setSht_other _ hqp)
      · rw [hq.opt]
        exact State.launchShot_port g none
      · exact ha.outputs rfl (State.launchShot_light (s := u.setSht p _) g none)
      · rw [ha.waits, hsh]
      · rw [ha.waits, hsh]
      · rw [ha.opened, hsh, List.map_append, List.map_singleton, hao]
    | false =>
      rw [if_neg (by rw [hi]; decide)] at e
      refine ⟨_, e, rfl, .rfl, fun q hqp => ⟨rfl, State.setSht_other _ hqp⟩, fun h => absurd h (by decide), fun _ => rfl⟩
  · simp only [exec, execShotGateClose, ← hu, hg]
    rw [if_pos he]
    rfl

section

variable {s t u v w : State} {p q : Port}

/-! ## Launch timestamps (R93, R94, R128) -/

/-- The outcome of a measurement comes from the fences, the time-interval unit and time alone. -/
theorem State.measure_result (hd : t.hb.doms = u.hb.doms) (hi : t.tiu = u.tiu) (hn : t.now = u.now) (ht : t.tim = u.tim) (input : Nat)
    (m : TiuMeas) : (t.measure input m).2 = (u.measure input m).2 := by
  have he (c : Fin 8) : t.edgeMissed c m = u.edgeMissed c m := by simp only [State.edgeMissed, hi, hn]
  unfold State.measure
  simp only [State.isShut, State.dom, hd, hi, he, State.devTime, ht, hn]
  split
  · rfl
  split
  · rfl
  split <;> rfl

theorem foldl_logDrop (p : Port) (tag : ShotTag) (l : List Nat) (s : State) :
    (l.foldl (fun s c => s.logDrop p tag c) s).ControlKept s ∧ (l.foldl (fun s c => s.logDrop p tag c) s).sht = s.sht ∧
    (l.foldl (fun s c => s.logDrop p tag c) s).acq = s.acq ∧ (l.foldl (fun s c => s.logDrop p tag c) s).opt = s.opt := by
  refine List.foldlRecOn (motive := fun v : State => v.ControlKept s ∧ v.sht = s.sht ∧ v.acq = s.acq ∧ v.opt = s.opt) _ _
    ⟨.rfl, rfl, rfl, rfl⟩ fun v h c _ => ?_
  obtain ⟨h1, h2, h3, h4⟩ := h
  have hl := v.logDrop_keeps p tag c
  exact ⟨State.ControlKept.trans (by simp [State.ControlKept]) h1, by simp [h2], by simp [h3], by simp [h4]⟩

/-- A shot's completed tag. -/
def Awaiting.stamped (a : Awaiting) (time : U64) (source : Nat) : ShotTag := { a.tag with launchTime := time, source := source }

/-- The stamped shot waits no more. -/
def Sht.stamped (x : Sht) (source : Nat) : Sht :=
  { x with
    awaiting := x.awaiting.drop 1
    tsScheduled := if source = 0 then x.tsScheduled else x.tsScheduled + 1
    unseen := if source = 1 then x.unseen + 1 else 0 }

/-- The state in which DEC learns a shot's launch time. -/
theorem State.stampShot_parts (a : Awaiting) (time : U64) (source : Nat) : ∃ v : State, (s.stampShot p a time source).Sampled v ∧
    v.ControlKept s ∧ v.opt = s.opt ∧ v.sht = upd s.sht p (Sht.stamped · source) ∧
    v.acq = ((s.setSht p (Sht.stamped · source)).tagRecords p (a.stamped time source)).acq := by
  unfold State.stampShot
  extract_lets src tag v1 v2 v3 v4
  have h1 : v1.ControlKept s := .rfl
  have h2 : v2.ControlKept v1 := by simp [v2, State.ControlKept]
  have h3 : v3.ControlKept v2 := by
    simp only [v3]
    split
    · simp [State.ControlKept]
    · exact .rfl
  have hs3 : v3.sht = v2.sht ∧ v3.acq = v2.acq ∧ v3.opt = v2.opt := by
    simp only [v3]
    split <;> simp
  have hs2 : v2.sht = v1.sht ∧ v2.acq = (v1.tagRecords p tag).acq ∧ v2.opt = v1.opt := by simp [v2]
  obtain ⟨k1, k2, k3, k4⟩ := foldl_logDrop p tag a.drops v3
  refine ⟨v4, ?_, k1.trans (h3.trans (h2.trans h1)), k4.trans (hs3.2.2.trans hs2.2.2), k2.trans (hs3.1.trans hs2.1),
    k3.trans (hs3.2.1.trans hs2.2.1)⟩
  refine State.drainMissing_sampled.trans ?_
  unfold State.timeExpect
  exact .ite .rfl (State.setPhs_sampled _)

theorem State.stampShot_control (a : Awaiting) (time : U64) (source : Nat) : (s.stampShot p a time source).ControlKept s ∧
    (s.stampShot p a time source).opt = s.opt ∧ (s.stampShot p a time source).sht = upd s.sht p (Sht.stamped · source) := by
  obtain ⟨v, h1, h2, h3, h4, -⟩ := s.stampShot_parts (p := p) a time source
  exact ⟨h1.control.trans h2, h1.opt.trans h3, h1.sht.trans h4⟩

/-- The tag reaches every record of its shot. -/
theorem State.stampShot_tagged (a : Awaiting) (time : U64) (source : Nat) {r : AcqRec}
    (h : r ∈ (s.stampShot p a time source).acq[p].records) (hg : r.tag.group = a.tag.group) (hp : r.tag.pleat = a.tag.pleat)
    (ht : r.tag.temperature = a.tag.temperature) : r.tag = a.stamped time source := by
  obtain ⟨v, h1, -, -, -, h5⟩ := s.stampShot_parts (p := p) a time source
  have e : (s.stampShot p a time source).acq[p] = ((s.setSht p (Sht.stamped · source)).tagRecords p (a.stamped time source)).acq[p] :=
    congrArg (fun x : Vector Acq 2 => x[p]) (h1.acq.trans h5)
  rw [e] at h
  unfold State.tagRecords at h
  extract_lets same z v at h
  have hv : v.acq[p].records = (s.setSht p (Sht.stamped · source)).acq[p].records.map fun r =>
      if same r.tag then { r with tag := a.stamped time source, first := z.1, offset := z.2, slot0 := (s.setSht p (Sht.stamped · source)).slotAt z.1 }
      else r := congrArg Acq.records (State.setAcq_same _)
  have h' : r ∈ v.acq[p].records := h
  rw [hv] at h'
  obtain ⟨r', -, rfl⟩ := List.mem_map.mp h'
  split
  · rfl
  · next hn =>
    rw [if_neg hn] at hg hp ht
    refine absurd ?_ hn
    simp only [same, Awaiting.stamped, hg, hp, ht, beq_self_eq_true, Bool.and_self]

/-- A stamped shot of which the launch was not seen, counted (Table 2.10 row 10). -/
theorem State.checkUnseen_sht (hn : s.sht[p].unseen < 16) : s.checkUnseen p = s := by
  rw [State.checkUnseen, if_neg (Nat.not_le.mpr hn)]

theorem State.checkUnseen_control : (s.checkUnseen p).ControlKept s ∧ (s.checkUnseen p).opt.ports = s.opt.ports ∧
    (s.checkUnseen p).acq = s.acq ∧ (∀ q, q ≠ p → (s.checkUnseen p).sht[q] = s.sht[q]) ∧
    (s.checkUnseen p).sht[p] = { s.sht[p] with unseen := (s.checkUnseen p).sht[p].unseen } := by
  unfold State.checkUnseen
  split
  · have h := State.setSht_same (s := s) (p := p) fun x => { x with unseen := 0 }
    exact ⟨.rfl, rfl, rfl, fun q h => State.setSht_other _ h,
      h.trans (congrArg (fun n => { s.sht[p] with unseen := n }) (congrArg Sht.unseen h).symm)⟩
  · exact ⟨.rfl, rfl, rfl, fun _ _ => rfl, rfl⟩

theorem State.checkUnseen_sixteen (hn : s.sht[p].unseen = 16) : (s.checkUnseen p).sht[p].unseen = 0 ∧
    (s.checkUnseen p).opt.rows = upd s.opt.rows 9 (· + 1) ∧ (s.checkUnseen p).Reported (portDomain p) 0x0006800A#32 16 := by
  rw [State.checkUnseen, if_pos (Nat.le_of_eq hn.symm)]
  refine ⟨?_, rfl, State.report_reported ..⟩
  exact congrArg Sht.unseen (State.setSht_same (s := s) (p := p) fun x => { x with unseen := 0 })

/-- The shot is stamped with its scheduled time (Table 3.6). -/
def State.scheduledStamp (s : State) (p : Port) (a : Awaiting) : State :=
  (s.stampShot p a (a.nominal p) (if s.isShut 19 then 2 else 1)).checkUnseen p

theorem State.stampShot_sht (a : Awaiting) (time : U64) (source : Nat) :
    (s.stampShot p a time source).sht[p] = s.sht[p].stamped source ∧
    ∀ q, q ≠ p → (s.stampShot p a time source).sht[q] = s.sht[q] := by
  have h := (s.stampShot_control (p := p) a time source).2.2
  simp only [h, upd_get, if_true]
  exact ⟨trivial, fun q hq => if_neg (Ne.symm hq)⟩

theorem State.scheduledStamp_spec (a : Awaiting) (rest : List Awaiting) (ha : s.sht[p].awaiting = a :: rest) :
    (s.scheduledStamp p a).ControlKept s ∧ (s.scheduledStamp p a).opt.ports = s.opt.ports ∧
    (∀ q, q ≠ p → (s.scheduledStamp p a).sht[q] = s.sht[q]) ∧ (s.scheduledStamp p a).sht[p].awaiting = rest ∧
    (s.scheduledStamp p a).sht[p].tsScheduled = s.sht[p].tsScheduled + 1 ∧
    (∀ r, r ∈ (s.scheduledStamp p a).acq[p].records → r.tag.group = a.tag.group → r.tag.pleat = a.tag.pleat →
      r.tag.temperature = a.tag.temperature → r.tag = a.stamped (a.nominal p) (if s.isShut 19 then 2 else 1)) ∧
    (s.isShut 19 = true → (s.scheduledStamp p a).sht[p].unseen = 0) ∧
    (s.isShut 19 = false → s.sht[p].unseen = 15 → (s.scheduledStamp p a).sht[p].unseen = 0 ∧
      (s.scheduledStamp p a).opt.rows = upd s.opt.rows 9 (· + 1) ∧ (s.scheduledStamp p a).Reported (portDomain p) 0x0006800A#32 16) ∧
    (s.isShut 19 = false → s.sht[p].unseen < 15 → (s.scheduledStamp p a).sht[p].unseen = s.sht[p].unseen + 1 ∧
      (s.scheduledStamp p a).opt.rows = s.opt.rows) := by
  obtain ⟨n, hn⟩ : ∃ n, n = if s.isShut 19 then 2 else 1 := ⟨_, rfl⟩
  have hn0 : n ≠ 0 := by rw [hn]; split <;> decide
  obtain ⟨v, hv⟩ : ∃ v, v = s.stampShot p a (a.nominal p) n := ⟨_, rfl⟩
  have e : s.scheduledStamp p a = v.checkUnseen p := by rw [State.scheduledStamp, ← hn, hv]
  obtain ⟨c1, c2, -⟩ := hv ▸ s.stampShot_control (p := p) a (a.nominal p) n
  obtain ⟨s1, s2⟩ := hv ▸ s.stampShot_sht (p := p) a (a.nominal p) n
  obtain ⟨k1, k2, k3, k4, k5⟩ := v.checkUnseen_control (p := p)
  rw [e]
  have hcount : v.sht[p].tsScheduled = s.sht[p].tsScheduled + 1 := (congrArg Sht.tsScheduled s1).trans (if_neg hn0)
  refine ⟨k1.trans c1, k2.trans (congrArg Opt.ports c2), fun q hq => (k4 q hq).trans (s2 q hq), ?_, ?_, fun r hr => ?_,
    fun h => ?_, fun h h15 => ?_, fun h hl => ?_⟩
  · rw [k5, s1]
    show s.sht[p].awaiting.drop 1 = rest
    rw [ha, List.drop_one, List.tail_cons]
  · rw [k5]
    exact hcount
  · rw [k3] at hr
    rw [← hn]
    exact State.stampShot_tagged a (a.nominal p) n (hv ▸ hr)
  · have hu : v.sht[p].unseen = 0 := (congrArg Sht.unseen s1).trans (if_neg (by rw [hn, if_pos h]; decide))
    rw [State.checkUnseen_sht (by rw [hu]; decide), hu]
  · have hu : v.sht[p].unseen = s.sht[p].unseen + 1 := (congrArg Sht.unseen s1).trans (if_pos (by rw [hn, if_neg (by rw [h]; decide)]))
    obtain ⟨a1, a2, a3⟩ := State.checkUnseen_sixteen (s := v) (p := p) (by rw [hu, h15])
    exact ⟨a1, by rw [a2, c2], a3⟩
  · have hu : v.sht[p].unseen = s.sht[p].unseen + 1 := (congrArg Sht.unseen s1).trans (if_pos (by rw [hn, if_neg (by rw [h]; decide)]))
    rw [State.checkUnseen_sht (by rw [hu]; omega), hu, c2]
    exact ⟨rfl, rfl⟩

theorem exec_launchTimestampTimeout (dt : Nat) {a : Awaiting} {rest : List Awaiting} (hu : u = s.elapse dt) (hp : u.power.phase = .up)
    (ha : u.sht[p].awaiting = a :: rest) (hc : u.isShut 19 = true ∨ a.openedAt + u.tiuTimeout * usP ≤ u.now) :
    exec (.launchTimestampTimeout dt p) s = .next (u.scheduledStamp p a) := by
  simp only [exec, execLaunchTimestampTimeout, ← hu, ha]
  rw [if_pos]
  · rfl
  · rw [State.live_of_up hp]
    rcases hc with h | h <;> simp [h]

/-- The state whose launch monitor is measured: the drive is corrected and the energy noted (R49). -/
def State.monitored (u : State) (p : Port) (a : Awaiting) (peak : Int) (energy : Nat) : State :=
  (u.correctDrive p a.tag.temperature peak).noteEnergy p a.openedAt energy

theorem State.correctDrive_port (b : Bool) (peak : Int) : (s.correctDrive p b peak).opt.ports[p] =
    if b then { s.opt.ports[p] with
      tsPeak := peak, tsDrive := min (Config.soaLimit p) (Config.soaDrive p s.opt.ports[p].tsDrive (50 * s.tsPeakSet p - peak)) }
    else { s.opt.ports[p] with
      peak := peak, drive := min (Config.soaLimit p) (Config.soaDrive p s.opt.ports[p].drive (50 * s.peakSet p - peak)) } := by
  cases b <;> exact State.setOptPort_same _

theorem State.measuredLaunch_spec (a : Awaiting) (peak : Int) (energy c : Nat) (m : TiuMeas) :
    ((u.monitored p a peak energy).measure c m).1.ControlKept u ∧ ((u.monitored p a peak energy).measure c m).1.sht = u.sht ∧
    ((u.monitored p a peak energy).measure c m).1.isShut 19 = u.isShut 19 ∧
    ((u.monitored p a peak energy).measure c m).1.opt.rows = u.opt.rows ∧
    ((u.monitored p a peak energy).measure c m).1.opt.ports = (u.correctDrive p a.tag.temperature peak).opt.ports := by
  have hk := State.measure_keeps (u.monitored p a peak energy) c m
  have hc : ((u.monitored p a peak energy).measure c m).1.ControlKept (u.monitored p a peak energy) := by simp [State.ControlKept]
  have ho : ((u.monitored p a peak energy).measure c m).1.opt = (u.monitored p a peak energy).opt := by simp
  refine ⟨hc.trans .rfl, by simp [State.monitored], ?_, by rw [ho]; rfl, by rw [ho]; rfl⟩
  simp only [State.isShut, State.dom, hc.2.2.2.2.2.2.1]
  rfl

theorem exec_launchMonitorEdge {dt energy : Nat} {m : TiuMeas} {peak : Int} {a : Awaiting} {rest : List Awaiting} (hu : u = s.elapse dt)
    (hp : u.power.phase = .up) (ha : u.sht[p].awaiting = a :: rest) :
    (∀ x, (u.measure (if p = 0 then 0 else 1) m).2 = some x → exec (.launchMonitorEdge dt p m peak energy) s =
      .next ((((u.monitored p a peak energy).measure (if p = 0 then 0 else 1) m).1).stampShot p a x 0)) ∧
    ((u.measure (if p = 0 then 0 else 1) m).2 = none → exec (.launchMonitorEdge dt p m peak energy) s =
      .next ((((u.monitored p a peak energy).measure (if p = 0 then 0 else 1) m).1).scheduledStamp p a)) := by
  have hm : ((u.monitored p a peak energy).measure (if p = 0 then 0 else 1) m).2 = (u.measure (if p = 0 then 0 else 1) m).2 :=
    State.measure_result (t := u.monitored p a peak energy) (u := u) rfl rfl rfl rfl _ _
  have h19 : (u.monitored p a peak energy).isShut 19 = ((u.monitored p a peak energy).measure (if p = 0 then 0 else 1) m).1.isShut 19 := by
    simp only [State.isShut, State.dom, State.measure_keeps]
  have hl : ¬ ((!u.live) = true) := by rw [State.live_of_up hp]; decide
  refine ⟨fun x hx => ?_, fun hx => ?_⟩
  · simp only [exec, execLaunchMonitorEdge, ← hu, ha]
    rw [if_neg hl]
    have hx' := hm.trans hx
    unfold State.monitored at hx' ⊢
    rw [hx']
  · simp only [exec, execLaunchMonitorEdge, ← hu, ha]
    rw [if_neg hl, State.scheduledStamp, ← h19]
    have hx' := hm.trans hx
    unfold State.monitored at hx' ⊢
    rw [hx']

end

/-- Settles O25: the oldest waiting shot is stamped with the measured time (`State.stampShot`) or its scheduled one
(`State.scheduledStamp`). -/
theorem launchTimestamps : Obligations.LaunchTimestamps := by
  intro s u dt energy p m peak a rest hu hp ha tagged c unseen
  refine ⟨?_, fun hc => ?_⟩
  · obtain ⟨w, hw⟩ : ∃ w, w = ((u.monitored p a peak energy).measure c m).1 := ⟨_, rfl⟩
    obtain ⟨em, en⟩ := exec_launchMonitorEdge (m := m) (peak := peak) (energy := energy) hu hp ha
    obtain ⟨hwc, hws, hw19, hwr, hwp⟩ := hw ▸ u.measuredLaunch_spec (p := p) a peak energy c m
    have hwa : w.sht[p].awaiting = a :: rest := by rw [hws]; exact ha
    have hport : w.opt.ports[p] = _ := (congrArg (fun x : Vector OptPort 2 => x[p]) hwp).trans (State.correctDrive_port ..)
    have hother (q : Port) (hq : q ≠ p) : w.opt.ports[q] = u.opt.ports[q] :=
      (congrArg (fun x : Vector OptPort 2 => x[q]) hwp).trans (State.setOptPort_other (s := u) _ hq)
    cases hx : (u.measure c m).2 with
    | some x =>
      obtain ⟨k1, k2, -⟩ := w.stampShot_control (p := p) a x 0
      obtain ⟨s1, s2⟩ := w.stampShot_sht (p := p) a x 0
      refine ⟨w.stampShot p a x 0, hw ▸ em x hx, ?_, k1.trans hwc, ?_, fun q hq => ⟨?_, ?_⟩, fun y hy => ?_, fun h => nomatch h⟩
      · rw [s1]
        show w.sht[p].awaiting.drop 1 = rest
        rw [hwa, List.drop_one, List.tail_cons]
      · rw [k2, hport]
      · rw [k2, hother q hq]
      · rw [s2 q hq, hws]
      · obtain rfl : x = y := Option.some.inj hy
        exact ⟨by rw [s1]; rfl, by rw [s1, hws]; rfl, fun r hr => State.stampShot_tagged a x 0 hr⟩
    | none =>
      obtain ⟨h1, h2, h3, h4, h5, h6, h7, h8, h9⟩ := w.scheduledStamp_spec (p := p) a rest hwa
      rw [hw19] at h6 h7 h8 h9
      rw [hws] at h3 h5 h8 h9
      rw [hwr] at h8 h9
      refine ⟨w.scheduledStamp p a, hw ▸ en hx, h4, h1.trans hwc, ?_, fun q hq => ⟨?_, h3 q hq⟩, fun y hy => (nomatch hy),
        fun _ => ⟨h5, h6, h7, h8, h9⟩⟩
      · rw [h2, hport]
      · rw [h2, hother q hq]
  · obtain ⟨h1, h2, h3, h4, h5, h6, h7, h8, h9⟩ := u.scheduledStamp_spec (p := p) a rest ha
    exact ⟨_, exec_launchTimestampTimeout dt hu hp ha hc, h4, h1, h5, h3, h2, h6, h7, h8, h9⟩

section

variable {s t u v w : State} {p q : Port}

/-! ## Trigger inputs (R89 to R92) -/

/-- The trigger record of a port is configuration. -/
theorem State.trigger_of_cfg (h : t.cfg = u.cfg) (p : Port) : t.trigInput p = u.trigInput p ∧ t.trigEdge p = u.trigEdge p ∧
    t.deglitch p = u.deglitch p ∧ t.trigDelay p = u.trigDelay p ∧ t.queueOne p = u.queueOne p ∧ t.periodP p = u.periodP p ∧
    t.trigMode p = u.trigMode p := by
  refine ⟨?_, ?_, ?_, ?_, ?_, ?_, ?_⟩
  · simp only [State.trigInput, State.external, State.linkedTo0, State.link, State.shotRec, State.trigMode, State.trigRec, State.rec?_of_cfg h]
    rfl
  · simp only [State.trigEdge, State.trigRec, State.rec?_of_cfg h]
  · simp only [State.deglitch, State.trigRec, State.rec?_of_cfg h]
  · simp only [State.trigDelay, State.trigRec, State.rec?_of_cfg h]
  · simp only [State.queueOne, State.trigRec, State.rec?_of_cfg h]
  · simp only [State.periodP, State.period10, State.shotRec, State.rec?_of_cfg h]
  · simp only [State.trigMode, State.trigRec, State.rec?_of_cfg h]

/-- An edge as a port takes it (R89). -/
def takeEdge (input : Fin 2) (level : Bool) (stamp : Option U64) (s : State) (p : Port) : State :=
  if s.trigInput p = some input then
    s.setSht p fun x => { x with edge := if s.trigInput p == some input && level == (s.trigEdge p == 0) then some ⟨s.now, stamp⟩ else none }
  else s

theorem takeEdge_sequenced (input : Fin 2) (level : Bool) (stamp : Option U64) (p : Port) : (takeEdge input level stamp s p).Sequenced s :=
  .ite (State.setSht_sequenced _) .rfl

theorem takeEdge_other (input : Fin 2) (level : Bool) (stamp : Option U64) (h : q ≠ p) :
    (takeEdge input level stamp s p).sht[q] = s.sht[q] := by
  unfold takeEdge
  split
  · exact State.setSht_other _ h
  · rfl

theorem takeEdge_used {input : Fin 2} (h : s.trigInput p = some input) (level : Bool) (stamp : Option U64) :
    (takeEdge input level stamp s p).sht[p] =
      { s.sht[p] with edge := if level == (s.trigEdge p == 0) then some ⟨s.now, stamp⟩ else none } := by
  rw [takeEdge, if_pos h, State.setSht_same, h]
  simp only [beq_self_eq_true, Bool.true_and]

theorem takeEdge_unused {input : Fin 2} (h : s.trigInput p ≠ some input) (level : Bool) (stamp : Option U64) :
    takeEdge input level stamp s p = s := by
  rw [takeEdge, if_neg h]

/-- Of both ports each takes the edge as it would alone. -/
theorem takeEdges_port (input : Fin 2) (level : Bool) (stamp : Option U64) (p : Port) : ∃ v : State, v.Sequenced s ∧ v.sht[p] = s.sht[p] ∧
    (bothPorts.foldl (takeEdge input level stamp) s).sht[p] = (takeEdge input level stamp v p).sht[p] := by
  have hp : p = 0 ∨ p = 1 := by revert p; decide
  rcases hp with rfl | rfl
  · exact ⟨s, .rfl, rfl, takeEdge_other (p := 1) _ _ _ (by decide)⟩
  · exact ⟨takeEdge input level stamp s 0, takeEdge_sequenced .., takeEdge_other _ _ _ (by decide), rfl⟩

theorem takeEdges_trigLevel (input : Fin 2) (level : Bool) (stamp : Option U64) :
    (bothPorts.foldl (takeEdge input level stamp) s).trigLevel = s.trigLevel := by
  have h (v : State) (p : Port) : (takeEdge input level stamp v p).trigLevel = v.trigLevel := by
    unfold takeEdge
    split <;> rfl
  exact (h _ 1).trans (h _ 0)

theorem takeEdges_sequenced (input : Fin 2) (level : Bool) (stamp : Option U64) :
    (bothPorts.foldl (takeEdge input level stamp) s).Sequenced s := (takeEdge_sequenced ..).trans (takeEdge_sequenced ..)

theorem exec_triggerEdge (dt : Nat) {input : Fin 2} {level : Bool} (m : TiuMeas) (hu : u = s.elapse dt) (hp : u.power.phase = .up)
    (h4 : u.isShut 4 = false) (hl : u.trigLevel[input] ≠ level) : ∃ (v : State) (stamp : Option U64),
      exec (.triggerEdge dt input level m) s = .next (bothPorts.foldl (takeEdge input level stamp) v) ∧
      v.ControlKept u ∧ v.opt = u.opt ∧ v.sht = u.sht ∧ v.trigLevel = u.trigLevel.set input level := by
  obtain ⟨w, hw⟩ : ∃ w : State, w = { u with trigLevel := u.trigLevel.set input level } := ⟨_, rfl⟩
  obtain ⟨b, hb⟩ : ∃ b, b = bothPorts.any fun p => w.trigInput p == some input && level == (w.trigEdge p == 0) := ⟨_, rfl⟩
  obtain ⟨r, hr⟩ : ∃ r, r = if b then w.measure (if input = 0 then 4 else 5) m else (w, none) := ⟨_, rfl⟩
  have e : exec (.triggerEdge dt input level m) s = .next (bothPorts.foldl (takeEdge input level r.2) r.1) := by
    simp only [exec, execTriggerEdge, ← hu]
    rw [if_neg hl, ← hw, if_neg (by
      have h1 : w.live = true := by rw [hw]; exact State.live_of_up hp
      have h2 : w.isShut 4 = false := by rw [hw]; exact h4
      rw [h1, h2]
      decide), ← hb, ← hr]
    rfl
  have hwc : w.ControlKept u := by rw [hw]; exact .rfl
  refine ⟨r.1, r.2, e, ?_⟩
  rw [hr]
  split
  · refine ⟨State.ControlKept.trans (by simp [State.ControlKept]) hwc, ?_, ?_, ?_⟩ <;> simp [hw]
  · exact ⟨hwc, by rw [hw], by rw [hw], by rw [hw]⟩

/-! ### Calls -/

/-- The last start of a port that is set (R90). -/
def Sht.lastSet (x : Sht) : Option Nat := (x.calls.getLast?.map (·.start)).orElse fun _ => x.lastStart

/-- Where a call's group would start (R90). -/
def State.callStart (s : State) (p : Port) (edgeAt : Nat) : Nat := edgeAt + 64 + s.deglitch p + s.trigDelay p

theorem State.callGroup_other (stamp : U64) (edgeAt : Nat) (h : q ≠ p) : (s.callGroup p stamp edgeAt).sht[q] = s.sht[q] := by
  unfold State.callGroup
  extract_lets v x start last earliest gap
  have hv : v.sht[q] = s.sht[q] := State.setSht_other _ h
  have hf (f : Sht → Sht) : (v.setSht p f).sht[q] = s.sht[q] := (State.setSht_other _ h).trans hv
  split
  · exact hf _
  split
  · exact hf _
  split
  · exact hf _
  · exact hf _

theorem State.callGroup_sequenced (stamp : U64) (edgeAt : Nat) : (s.callGroup p stamp edgeAt).Sequenced s := by
  unfold State.callGroup
  extract_lets v x start last earliest gap
  have hv : v.Sequenced s := State.setSht_sequenced _
  have hf (f : Sht → Sht) : (v.setSht p f).Sequenced s := (State.setSht_sequenced _).trans hv
  exact .ite (hf _) (.ite (hf _) (.ite (hf _) (hf _)))

/-- A call by its four cases (R90, R91), on the state that has noted when it came. -/
theorem State.callGroup_cases (stamp : U64) (edgeAt : Nat) : ∃ v : State, v.sht[p] = { s.sht[p] with callAt := s.now } ∧
    ∃ gap, s.callGroup p stamp edgeAt =
      if !s.hears p then v.setSht p fun x => { x with trigDark := x.trigDark + 1, rebase := true, dark := true }
      else if (s.sht[p].lastSet.map (· + s.periodP p)).getD 0 ≤ s.callStart p edgeAt then
        v.setSht p fun x => { x with calls := x.calls ++ [⟨s.callStart p edgeAt, stamp, false, gap⟩], lateIgnored := false }
      else if s.queueOne p = 1 ∧ s.sht[p].calls.all (fun c => !c.queued) = true then
        v.setSht p fun x =>
          { x with calls := x.calls ++ [⟨(s.sht[p].lastSet.map (· + s.periodP p)).getD 0, stamp, true, false⟩] }
      else v.setSht p fun x => { x with trigLate := x.trigLate + 1, lateIgnored := x.lateIgnored || s.queueOne p == 0 } := by
  obtain ⟨v, hv⟩ : ∃ v, v = s.setSht p fun x => { x with callAt := s.now } := ⟨_, rfl⟩
  have hx : v.sht[p] = { s.sht[p] with callAt := s.now } := by rw [hv, State.setSht_same]
  have hh : v.hears p = s.hears p := by
    rw [hv]
    exact State.hears_of_kept (State.setSht_sequenced _) (by rw [State.setSht_same])
  have hd : v.deglitch p = s.deglitch p ∧ v.trigDelay p = s.trigDelay p ∧ v.periodP p = s.periodP p ∧ v.queueOne p = s.queueOne p := by
    rw [hv]
    exact ⟨rfl, rfl, rfl, rfl⟩
  obtain ⟨h1, h2, h3, h4⟩ := hd
  refine ⟨v, hx, s.sht[p].lateIgnored &&
    (s.sht[p].lastSet.map fun t => decide (t + 2 * s.periodP p < s.callStart p edgeAt)).getD false, ?_⟩
  unfold State.callGroup
  simp only [← hv, hx, hh, h1, h2, h3, h4]
  rfl

/-- A call of a port (R90, R91): what the sequencer keeps of it, dark, in time, held, or late. -/
theorem State.callGroup_sht (stamp : U64) (edgeAt : Nat) :
    (s.callGroup p stamp edgeAt).sht[p].edge = s.sht[p].edge ∧ (s.callGroup p stamp edgeAt).sht[p].prescaled = s.sht[p].prescaled ∧
    (s.callGroup p stamp edgeAt).sht[p].callAt = s.now ∧
    (s.hears p = false → (s.callGroup p stamp edgeAt).sht[p].trigDark = s.sht[p].trigDark + 1 ∧
      (s.callGroup p stamp edgeAt).sht[p].rebase = true ∧ (s.callGroup p stamp edgeAt).sht[p].calls = s.sht[p].calls) ∧
    (s.hears p = true → (∀ l, s.sht[p].lastSet = some l → l + s.periodP p ≤ s.callStart p edgeAt) →
      ∃ c, (s.callGroup p stamp edgeAt).sht[p].calls = s.sht[p].calls ++ [c] ∧ c.start = s.callStart p edgeAt ∧ c.queued = false ∧
        c.stamp = stamp) ∧
    (∀ l, s.hears p = true → s.sht[p].lastSet = some l → s.callStart p edgeAt < l + s.periodP p →
      (s.queueOne p = 1 → s.sht[p].calls.all (fun c => !c.queued) = true →
        ∃ c, (s.callGroup p stamp edgeAt).sht[p].calls = s.sht[p].calls ++ [c] ∧ c.start = l + s.periodP p ∧ c.queued = true ∧
          c.stamp = stamp) ∧
      (s.queueOne p ≠ 1 ∨ s.sht[p].calls.all (fun c => !c.queued) = false →
        (s.callGroup p stamp edgeAt).sht[p].calls = s.sht[p].calls ∧
          (s.callGroup p stamp edgeAt).sht[p].trigLate = s.sht[p].trigLate + 1)) := by
  obtain ⟨v, hx, gap, e⟩ := s.callGroup_cases (p := p) stamp edgeAt
  rw [e]
  cases hh : s.hears p with
  | false =>
    rw [if_pos (by decide), State.setSht_same, hx]
    exact ⟨rfl, rfl, rfl, fun _ => ⟨rfl, rfl, rfl⟩, fun h => absurd h (by decide), fun _ h => absurd h (by decide)⟩
  | true =>
    rw [if_neg (by decide)]
    by_cases hin : (s.sht[p].lastSet.map (· + s.periodP p)).getD 0 ≤ s.callStart p edgeAt
    · rw [if_pos hin, State.setSht_same, hx]
      refine ⟨rfl, rfl, rfl, fun h => absurd h (by decide), fun _ _ => ⟨_, rfl, rfl, rfl, rfl⟩, fun l _ hl hlt => ?_⟩
      rw [hl] at hin
      exact absurd hin (Nat.not_le.mpr hlt)
    · rw [if_neg hin]
      have hlate : ¬ ∀ l, s.sht[p].lastSet = some l → l + s.periodP p ≤ s.callStart p edgeAt := fun h => by
        cases hl : s.sht[p].lastSet with
        | none =>
          rw [hl] at hin
          exact hin (Nat.zero_le _)
        | some l =>
          rw [hl] at hin
          exact hin (h l hl)
      by_cases hq : s.queueOne p = 1 ∧ s.sht[p].calls.all (fun c => !c.queued) = true
      · rw [if_pos hq, State.setSht_same, hx]
        refine ⟨rfl, rfl, rfl, fun h => absurd h (by decide), fun _ h => absurd h hlate, fun l _ hl _ => ⟨fun _ _ => ⟨_, rfl, ?_, rfl, rfl⟩, fun h => ?_⟩⟩
        · rw [hl]
          rfl
        · rcases h with h | h
          · exact absurd hq.1 h
          · exact absurd (hq.2.symm.trans h) (by decide)
      · rw [if_neg hq, State.setSht_same, hx]
        exact ⟨rfl, rfl, rfl, fun h => absurd h (by decide), fun _ h => absurd h hlate, fun l _ _ _ =>
          ⟨fun h1 h2 => absurd ⟨h1, h2⟩ hq, fun _ => ⟨rfl, rfl⟩⟩⟩

/-- The last of PRESCALE accepted edges calls a group; the stamp is the edge's own or a coarse one (R89, R90, R131). -/
theorem exec_triggerEdgeAccepted_calls (dt : Nat) {e : TrigEdge} (hu : u = s.elapse dt) (hp : u.power.phase = .up)
    (h4 : u.isShut 4 = false) (he : u.sht[p].edge = some e) (ht : e.since + u.deglitch p ≤ u.now)
    (hn : u.prescale p ≤ u.sht[p].prescaled + 1) : ∃ (v : State) (stamp : U64),
      exec (.triggerEdgeAccepted dt p) s = .next (v.callGroup p stamp e.since) ∧ (∀ x, e.stamp = some x → stamp = x) ∧
      v.ControlKept u ∧ v.opt = u.opt ∧ (∀ q, q ≠ p → v.sht[q] = u.sht[q]) ∧
      v.sht[p] = { u.sht[p] with edge := none, prescaled := 0 } ∧ v.hears p = u.hears p := by
  obtain ⟨w, hw⟩ : ∃ w, w = u.setSht p fun x => { x with edge := none, prescaled := 0 } := ⟨_, rfl⟩
  have hs : w.Sequenced u := by rw [hw]; exact State.setSht_sequenced _
  have hx : w.sht[p] = { u.sht[p] with edge := none, prescaled := 0 } := by rw [hw, State.setSht_same]
  have hq (q : Port) (h : q ≠ p) : w.sht[q] = u.sht[q] := by rw [hw, State.setSht_other _ h]
  have hh : w.hears p = u.hears p := State.hears_of_kept hs (by rw [hx])
  have hc : (u.live && !u.isShut 4 && decide (e.since + u.deglitch p ≤ u.now)) = true := by simp [State.live_of_up hp, h4, ht]
  have hn' : u.sht[p].prescaled + 1 ≥ u.prescale p := hn
  cases hst : e.stamp with
  | some x =>
    refine ⟨w, x, ?_, fun y hy => Option.some.inj hy, hs.control, hs.opt, hq, hx, hh⟩
    simp only [exec, execTriggerEdgeAccepted, ← hu, he]
    rw [if_pos hc, if_pos hn', ← hw, hst]
  | none =>
    obtain ⟨c, hc'⟩ : ∃ c, c = w.coarseTime (if w.trigMode p = 1 then 4 else 5) (w.deglitch p) := ⟨_, rfl⟩
    have hcs : c.1.ControlKept w ∧ c.1.opt = w.opt ∧ c.1.sht = w.sht ∧ c.1.hears p = w.hears p := by
      rw [hc']
      exact ⟨.rfl, rfl, rfl, rfl⟩
    obtain ⟨k1, k2, k3, k4⟩ := hcs
    refine ⟨c.1, c.2, ?_, fun y hy => (nomatch hy), k1.trans hs.control, k2.trans hs.opt, fun q h => by rw [k3, hq q h], by rw [k3, hx],
      k4.trans hh⟩
    simp only [exec, execTriggerEdgeAccepted, ← hu, he]
    rw [if_pos hc, if_pos hn', ← hw, hst, hc']

end

/-- Settles O26: an edge at each port (`takeEdge`), the call of the last counted edge (`State.callGroup`), and the timeout's warning. -/
theorem triggersCallGroups : Obligations.TriggersCallGroups := by
  intro s u dt p hu hp h4
  refine ⟨fun input level m hl => ?_, fun e he ht => ⟨fun hn => ?_, fun hn => ?_⟩, fun hl hx hm ht => ?_⟩
  · obtain ⟨v, stamp, e, hc, ho, hs, hlv⟩ := exec_triggerEdge dt m hu hp h4 hl
    obtain ⟨w, hw, hwp, hf⟩ := takeEdges_port (s := v) input level stamp p
    have hr := takeEdges_sequenced (s := v) input level stamp
    obtain ⟨i1, i2, -⟩ := State.trigger_of_cfg (hw.cfg.trans hc.2.1) p
    refine ⟨_, e, ?_, hr.opt.trans ho, hr.control.trans hc, fun hi => ?_, fun hi => ?_⟩
    · rw [takeEdges_trigLevel, hlv]
    · rw [hf, takeEdge_used (i1.trans hi), hwp, hs, i2, hw.now, hc.2.2.2.2.2.2.2.2.2.2.2.2.2.2]
      refine ⟨rfl, ?_, fun x hx => ?_⟩
      · dsimp only
        generalize (u.trigEdge p == 0) = b
        split
        · next h => exact ⟨fun _ => beq_iff_eq.mp h, fun _ => rfl⟩
        · next h => exact ⟨fun k => absurd k (by decide), fun k => absurd (beq_iff_eq.mpr k) h⟩
      · dsimp only at hx
        split at hx
        · rw [← Option.some.inj hx]
        · exact nomatch hx
    · rw [hf, takeEdge_unused (by rwa [i1]), hwp, hs]
  · simp only [exec, execTriggerEdgeAccepted, ← hu, he]
    rw [if_pos (by simp [State.live_of_up hp, h4, ht]), if_neg (Nat.not_le.mpr hn)]
    rfl
  · intro start last
    obtain ⟨v, stamp, ex, hst, hc, ho, hq, hx, hh⟩ := exec_triggerEdgeAccepted_calls dt hu hp h4 he ht hn
    obtain ⟨-, -, c1, c2, c3, c4, -⟩ := State.trigger_of_cfg hc.2.1 p
    obtain ⟨g1, g2, g3, g4, g5, g6⟩ := v.callGroup_sht (p := p) stamp e.since
    have hr := v.callGroup_sequenced (p := p) stamp e.since
    have hstart : v.callStart p e.since = start := by simp only [State.callStart, c1, c2]; rfl
    have hlast : v.sht[p].lastSet = last := by rw [hx]; rfl
    have hcalls : v.sht[p].calls = u.sht[p].calls := by rw [hx]
    refine ⟨_, ex, by rw [g1, hx], by rw [g2, hx], by rw [g3, hc.2.2.2.2.2.2.2.2.2.2.2.2.2.2], fun q h => ?_, hr.opt.trans ho,
      hr.control.trans hc, fun h => ?_, fun h hall => ?_, fun l h hl hlt => ⟨fun h1 hall => ?_, fun hor => ?_⟩⟩
    · rw [State.callGroup_other _ _ h, hq q h]
    · obtain ⟨d1, d2, d3⟩ := g4 (hh.trans h)
      exact ⟨by rw [d1, hx], d2, d3.trans hcalls⟩
    · obtain ⟨c, d1, d2, d3, d4⟩ := g5 (hh.trans h) (by rw [hlast, hstart, c4]; exact hall)
      exact ⟨c, by rw [d1, hcalls], d2.trans hstart, d3, fun x hx => d4.trans (hst x hx)⟩
    · obtain ⟨c, d1, d2, d3, d4⟩ := (g6 l (hh.trans h) (hlast.trans hl) (by rw [hstart, c4]; exact hlt)).1 (c3.trans h1) (by rw [hcalls, hall])
      exact ⟨c, by rw [d1, hcalls], by rw [d2, c4], d3, fun x hx => d4.trans (hst x hx)⟩
    · obtain ⟨d1, d2⟩ := (g6 l (hh.trans h) (hlast.trans hl) (by rw [hstart, c4]; exact hlt)).2 (by rw [c3, hcalls]; exact hor)
      exact ⟨d1.trans hcalls, by rw [d2, hx]⟩
  · have hk := State.warn_hushed (u.setSht p fun x => { x with trigTimeout := true, rebase := true, callAt := u.now })
      0x00070001#32 (BitVec.ofNat 32 p.val) true
    refine ⟨_, ?_, hk, fun ha => State.warn_warned _ _ _ _ ha⟩
    simp only [exec, execTriggerTimeout, ← hu]
    exact if_pos (by rw [decide_eq_true ht]; simp [State.live_of_up hp, hl, hx, hm, h4])

end Sys2Proof.Machine

/-! SUPPORT. Coherent acquisition and the phase engine: gauge values, admission and notices, calibration updates, and the record that the engine takes. -/

namespace Sys2Proof.Machine

/-! ## Accumulation of a gauge value (R177, R181, R182) -/

section

variable {s : State} {p : Port} {k n : Nat} {whole : Bool} {cm : Int} {g : GaugeView}

/-- A value of code 1 or 2 delivers nothing. -/
theorem State.gaugeOut_of_lost (h : g.code = 1 ∨ g.code = 2) : (s.gaugeOut p k whole cm g n).d = 0 ∧
    (s.gaugeOut p k whole cm g n).acc = s.phs[p].acc.getD n 0 ∧ (s.gaugeOut p k whole cm g n).pend = true := by
  have h0 : g.code ≠ 0 := by omega
  unfold State.gaugeOut
  extract_lets x st acc pend old d code o
  rw [if_neg h0]
  have ho : o = (g.code, 0, acc, true) := if_pos h
  simp only [ho]
  exact ⟨trivial, rfl, trivial⟩

/-- A value after a rebase, or one whose point is pending, starts afresh. -/
theorem State.gaugeOut_of_rebase (h0 : g.code ≠ 0) (h1 : g.code ≠ 1) (h2 : g.code ≠ 2)
    (h : whole = true ∨ s.phs[p].pend.getD n false = true) : (s.gaugeOut p k whole cm g n).d = 0 ∧
    (s.gaugeOut p k whole cm g n).acc = s.phs[p].acc.getD n 0 ∧ ((s.gaugeOut p k whole cm g n).pend = true ↔ g.code = 3) := by
  unfold State.gaugeOut
  extract_lets x st acc pend old d code o
  rw [if_neg h0]
  have ho : o = if g.code = 3 then (3, 0, acc, true) else (5, 0, acc, false) := by
    simp only [o]
    have hpend : (whole || pend) = true := (Bool.or_eq_true ..).mpr h
    rw [if_neg (by omega), if_pos hpend]
  simp only [ho]
  by_cases h3 : g.code = 3
  · simp only [h3, if_true]
    exact ⟨trivial, rfl, by simp⟩
  · simp only [h3, if_false]
    exact ⟨trivial, rfl, by simp⟩

/-- A value that goes on from the last is added where it has neither faded nor jumped. -/
theorem State.gaugeOut_of_running (h0 : g.code ≠ 0) (h1 : g.code ≠ 1) (h2 : g.code ≠ 2) (hw : whole = false)
    (hp : s.phs[p].pend.getD n false = false) : (s.gaugeOut p k whole cm g n).d = wrapPhase (g.r - cm) ∧
    (g.code = 3 ∨ s.wrapGuard p < (wrapPhase (g.r - cm)).natAbs →
      (s.gaugeOut p k whole cm g n).acc = s.phs[p].acc.getD n 0 ∧ (s.gaugeOut p k whole cm g n).pend = true) ∧
    (g.code ≠ 3 → g.code ≠ 4 → (wrapPhase (g.r - cm)).natAbs ≤ s.wrapGuard p →
      (s.gaugeOut p k whole cm g n).acc = wrap48 (s.phs[p].acc.getD n 0 + wrapPhase (g.r - cm)) ∧
      (s.gaugeOut p k whole cm g n).pend = false) := by
  unfold State.gaugeOut
  extract_lets x st acc pend old d code o
  rw [if_neg h0]
  have ho : o = if code = 3 ∨ code = 4 then (code, d, acc, true) else (code, d, wrap48 (acc + d), false) := by
    simp only [o]
    have hpend : pend = false := hp
    rw [if_neg (by omega), if_neg (by rw [hpend, hw]; decide)]
  have hc : code = 3 ∨ code = 4 ↔ g.code = 3 ∨ g.code = 4 ∨ s.wrapGuard p < d.natAbs := by
    simp only [code]
    split <;> omega
  by_cases hk : code = 3 ∨ code = 4
  · rw [if_pos hk] at ho
    simp only [ho]
    exact ⟨rfl, fun _ => ⟨rfl, trivial⟩, fun h3 h4 hd => absurd (hc.mp hk) (by rintro (h | h | h) <;> omega)⟩
  · rw [if_neg hk] at ho
    simp only [ho]
    exact ⟨rfl, fun h => absurd (hc.mpr (by omega)) hk, fun _ _ _ => ⟨rfl, trivial⟩⟩

end

/-- Settles O30: the three cases of a value's code. -/
theorem gaugeAccumulates : Obligations.GaugeAccumulates := by
  intro s p k n whole cm g h0 o acc d
  exact ⟨State.gaugeOut_of_lost, fun h1 h2 h => State.gaugeOut_of_rebase h0 h1 h2 h, fun h1 h2 hw hp => State.gaugeOut_of_running h0 h1 h2 hw hp⟩

section

variable {s t u v w : State} {p q : Port}

/-! ## Admission (R142, R145, R282) -/

theorem State.setDrop_same (f : DropPort → DropPort) : (s.setDrop p f).fab.ports[p] = f s.fab.ports[p] := by
  show (upd s.fab.ports p f)[p] = _
  rw [upd_get, if_pos rfl]

theorem State.setDrop_other (f : DropPort → DropPort) (h : q ≠ p) : (s.setDrop p f).fab.ports[q] = s.fab.ports[q] := by
  show (upd s.fab.ports p f)[q] = _
  rw [upd_get, if_neg (Ne.symm h)]

theorem State.logDrop_counts (tag : ShotTag) (cause : Nat) :
    (s.logDrop p tag cause).acq = s.acq ∧ (s.logDrop p tag cause).fab.ports[p].counts = s.fab.ports[p].counts := by
  unfold State.logDrop
  extract_lets e quiet src v w
  have hw : w.acq = s.acq ∧ w.fab.ports[p].counts = s.fab.ports[p].counts := by
    refine ⟨rfl, ?_⟩
    rw [show w.fab.ports[p] = _ from State.setDrop_same _]
  split
  · have hr := State.record_hushed w (w.bbxRec 0x0051 0xFF 0 0 e.bytes)
    exact ⟨(congrArg State.acq hr :).trans hw.1, (congrArg (fun x : State => x.fab.ports[p].counts) hr :).trans hw.2⟩
  · exact hw

/-- A dropped shot is counted under its cause; one refused for a full queue as refused too (R282). -/
theorem State.dropShot_counts (tag : ShotTag) (cause : Fin 4) :
    (s.dropShot p tag cause).acq = (if cause.val + 1 = causeQueue then s.setAcq p fun x => { x with refused := x.refused + 1 } else s).acq ∧
    (s.dropShot p tag cause).fab.ports[p].counts = upd s.fab.ports[p].counts cause (· + 1) := by
  unfold State.dropShot
  extract_lets code v w
  have hw : w.acq = (if cause.val + 1 = causeQueue then s.setAcq p fun x => { x with refused := x.refused + 1 } else s).acq ∧
      w.fab = v.fab := by
    simp only [w, code]
    split <;> exact ⟨rfl, rfl⟩
  have hv : v.fab.ports[p].counts = upd s.fab.ports[p].counts cause (· + 1) := by
    rw [show v.fab.ports[p] = _ from State.setDrop_same _]
  split
  · exact ⟨hw.1, by rw [← hv]; exact congrArg (fun x : Fab => x.ports[p].counts) hw.2⟩
  · obtain ⟨h1, h2⟩ := w.logDrop_counts (p := p) tag code
    exact ⟨h1.trans hw.1, by rw [h2, ← hv, hw.2]⟩

/-- A record that its port's fence discards (R145). -/
theorem State.admitRecord_fenced (h : s.acqOn p = false) (tag : ShotTag) :
    (s.admitRecord p tag).acq[p].records = s.acq[p].records ∧ (s.admitRecord p tag).acq[p].admitted = s.acq[p].admitted ∧
    (s.admitRecord p tag).fab.ports[p].counts = upd s.fab.ports[p].counts 3 (· + 1) := by
  obtain ⟨h1, h2⟩ := s.dropShot_counts (p := p) tag 3
  have hq : (s.dropShot p tag 3).acq[p] = s.acq[p] := (congrArg (fun x : Vector Acq 2 => x[p]) h1 :)
  rw [State.admitRecord, if_pos (by rw [h]; rfl), State.missRecord, State.setAcq_same, hq]
  exact ⟨rfl, rfl, h2⟩

/-- The record that a launch reserves (R140, R142). -/
def State.reserved (s : State) (p : Port) (tag : ShotTag) : AcqRec :=
  { tag := tag, openedAt := s.now, first := s.nextSample (s.now + returnDelay p), len := s.nSamples p
    slot0 := s.slotAt (s.nextSample (s.now + returnDelay p)), calSet := s.acq[p].cal.adopted
    serving := s.acq[p].serving, afterGap := (s.acq[p].gap.toList[tag.pleat]?).getD false }

theorem State.admitRecord_admitted (h : s.acqOn p = true) (tag : ShotTag)
    (hl : ({ s.acq[p] with records := s.acq[p].records ++ [s.reserved p tag] } : Acq).level ≤ queueSize) :
    (s.admitRecord p tag).acq[p].records = s.acq[p].records ++ [s.reserved p tag] ∧
    (s.admitRecord p tag).acq[p].admitted = s.acq[p].admitted + 1 ∧ (s.admitRecord p tag).acq[p].refused = s.acq[p].refused ∧
    (s.admitRecord p tag).fab.ports[p].counts = s.fab.ports[p].counts := by
  unfold State.admitRecord
  rw [if_neg (by rw [h]; decide)]
  extract_lets x first r y
  rw [if_pos (show y.level ≤ queueSize from hl), State.setAcq_same]
  exact ⟨rfl, rfl, rfl, rfl⟩

theorem State.admitRecord_refused (h : s.acqOn p = true) (tag : ShotTag)
    (hl : queueSize < ({ s.acq[p] with records := s.acq[p].records ++ [s.reserved p tag] } : Acq).level) :
    (s.admitRecord p tag).acq[p].records = s.acq[p].records ∧ (s.admitRecord p tag).acq[p].admitted = s.acq[p].admitted ∧
    (s.admitRecord p tag).acq[p].refused = s.acq[p].refused + 1 ∧
    (s.admitRecord p tag).fab.ports[p].counts = upd s.fab.ports[p].counts 0 (· + 1) := by
  obtain ⟨h1, h2⟩ := s.dropShot_counts (p := p) tag 0
  have hq : (s.dropShot p tag 0).acq[p] = { s.acq[p] with refused := s.acq[p].refused + 1 } :=
    (congrArg (fun x : Vector Acq 2 => x[p]) h1 :).trans (State.setAcq_same _)
  unfold State.admitRecord
  rw [if_neg (by rw [h]; decide)]
  extract_lets x first r y
  rw [if_neg (show ¬ y.level ≤ queueSize from Nat.not_le.mpr hl), State.missRecord, State.setAcq_same, hq]
  exact ⟨rfl, rfl, rfl, h2⟩

theorem State.nSamples_of_cfg (h : t.cfg = u.cfg) (p : Port) : t.nSamples p = u.nSamples p := by
  simp only [State.nSamples, State.tRt, State.reach, State.groupIndex, State.fibre, State.pulse125, State.chirpLength,
    State.rectWidth, State.pulseRec, State.rec?_of_cfg h]
  rfl

/-! ## Notices (R141, R144, R147, R280) -/

/-- The words of a record that no record before it has written (R141). -/
def Acq.fresh (x : Acq) (r : AcqRec) (words : List U64) (lost : List Bool) : List QWord :=
  (List.range ((r.first + 2 * r.len - max r.first x.writtenTo) / 2)).map fun i =>
    { instant := max r.first x.writtenTo + 2 * i, idx := (x.ringNext + i) % queueSize
      data := if lost.getD i false then clippedWord else converterWord (words.getD i 0)
      check := Config.checkBits (if lost.getD i false then clippedWord else converterWord (words.getD i 0)) }

theorem Acq.write_eq (x : Acq) (r : AcqRec) (words : List U64) (lost : List Bool) : x.write r words lost =
    { x with
      ring := x.ring ++ x.fresh r words lost, ringNext := (x.ringNext + (x.fresh r words lost).length) % queueSize
      writtenTo := max x.writtenTo (r.first + 2 * r.len)
      clipCount := x.clipCount + BitVec.ofNat 64 (countClipped ((x.fresh r words lost).map (·.data))) } := rfl

theorem Acq.fresh_length (x : Acq) (r : AcqRec) (words : List U64) (lost : List Bool) :
    (x.fresh r words lost).length = (r.first + 2 * r.len - max r.first x.writtenTo) / 2 := by
  rw [Acq.fresh, List.length_map, List.length_range]

theorem Acq.fresh_get {x : Acq} {r : AcqRec} {words : List U64} {lost : List Bool} {i : Nat} {w : QWord}
    (h : (x.fresh r words lost)[i]? = some w) : w.instant = max r.first x.writtenTo + 2 * i ∧
      w.data = (if lost.getD i false then clippedWord else converterWord (words.getD i 0)) := by
  rw [Acq.fresh, List.getElem?_map] at h
  obtain ⟨j, hj, rfl⟩ := Option.map_eq_some_iff.mp h
  obtain ⟨hlt, rfl⟩ := List.getElem?_eq_some_iff.mp hj
  simp only [List.getElem_range]
  exact ⟨trivial, trivial⟩

theorem exec_recordNotice {dt : Nat} {words : List U64} {lags : List SeamLag} {r : AcqRec} (hu : u = s.elapse dt)
    (hf : (u.acq[p].records.find? fun q => !q.noticed) = some r) (ha : u.acqOn p = true) (ht : r.first + 2 * r.len ≤ u.now)
    (hk : u.untimed p r.tag = false) {seam : Nat × List Bool}
    (hs : seam = seamRun lags ((List.range (r.len - (u.acq[p].writtenTo - r.first) / 2)).map
      (· + (u.acq[p].writtenTo - r.first) / 2)) u.acq[p].seam) :
    exec (.recordNotice dt p words lags) s = .next ((u.setDrop p fun d =>
      { d with entryLost := d.entryLost + BitVec.ofNat 64 (seam.2.filter id).length }).setAcq p fun x =>
        ({ x.write r words seam.2 with seam := seam.1 } : Acq).issue r) := by
  simp only [exec, execRecordNotice, ← hu, hf]
  rw [if_pos (by rw [ha, hk, decide_eq_true ht]; rfl), ← hs]

/-- The outcome of a launch's admission (R142, R145, R282), in the state in which its pulse has left. -/
theorem admitted_of_launch {g : Group} {k : Nat} (hv : v = u.pleatLaunched p g k) (hw : w = v.admitRecord p (g.pleatTag k))
    (hlive : u.live = true) :
    (∀ q, q ≠ p → w.acq[q] = u.acq[q]) ∧
    (u.isShut (acqDomain p) = true → w.acq[p].records = u.acq[p].records ∧ w.acq[p].admitted = u.acq[p].admitted ∧
      w.fab.ports[p].counts = upd u.fab.ports[p].counts 3 (· + 1)) ∧
    (u.isShut (acqDomain p) = false →
      (({ u.acq[p] with records := u.acq[p].records ++ [v.reserved p (g.pleatTag k)] } : Acq).level ≤ queueSize →
        w.acq[p].records = u.acq[p].records ++ [v.reserved p (g.pleatTag k)] ∧ w.acq[p].admitted = u.acq[p].admitted + 1 ∧
        w.acq[p].refused = u.acq[p].refused ∧ w.fab.ports[p].counts = u.fab.ports[p].counts) ∧
      (queueSize < ({ u.acq[p] with records := u.acq[p].records ++ [v.reserved p (g.pleatTag k)] } : Acq).level →
        w.acq[p].records = u.acq[p].records ∧ w.acq[p].admitted = u.acq[p].admitted ∧
        w.acq[p].refused = u.acq[p].refused + 1 ∧ w.fab.ports[p].counts = upd u.fab.ports[p].counts 0 (· + 1))) := by
  obtain ⟨⟨hpow, -, -, -, -, -, hdoms, -⟩, -, hacq, hfab⟩ := hv ▸ u.pleatLaunched_control (p := p) g k
  have hon : v.acqOn p = !u.isShut (acqDomain p) := by
    rw [State.acqOn, State.live, hpow, State.isShut, State.dom, hdoms]
    show (u.live && !u.isShut (acqDomain p)) = _
    rw [hlive, Bool.true_and]
  have hq (q : Port) : v.acq[q] = u.acq[q] := (congrArg (fun x : Vector Acq 2 => x[q]) hacq :)
  have hd : v.fab.ports[p].counts = u.fab.ports[p].counts := (congrArg (fun x : Fab => x.ports[p].counts) hfab :)
  subst hw
  refine ⟨fun q hqp => ((State.admitRecord_admits _).others q hqp).2.1.trans (hq q), fun h => ?_, fun h => ⟨fun hl => ?_, fun hl => ?_⟩⟩
  · have k := State.admitRecord_fenced (s := v) (p := p) (by rw [hon, h]; rfl) (g.pleatTag k)
    rwa [hq, hd] at k
  · have k := State.admitRecord_admitted (s := v) (p := p) (by rw [hon, h]; rfl) (g.pleatTag k) (by rwa [hq])
    rwa [hq, hd] at k
  · have k := State.admitRecord_refused (s := v) (p := p) (by rw [hon, h]; rfl) (g.pleatTag k) (by rwa [hq])
    rwa [hq, hd] at k

theorem State.live_of_mayIssue (h : u.mayIssue p = true) : u.live = true := by
  simp only [State.mayIssue, State.mayEmit, State.commonMayEmit, Bool.and_eq_true] at h
  exact h.1.1.1.1.1.1.1.1.1

theorem State.reserved_of_launch {g : Group} {k : Nat} (hv : v = u.pleatLaunched p g k) (tag : ShotTag) :
    (v.reserved p tag).openedAt = u.now ∧ (v.reserved p tag).first = u.nextSample (u.now + returnDelay p) ∧
    (v.reserved p tag).len = u.nSamples p ∧ (v.reserved p tag).calSet = u.acq[p].cal.adopted ∧
    (v.reserved p tag).serving = u.acq[p].serving := by
  obtain ⟨⟨-, hcfg, htim, -, -, -, -, -, -, -, -, -, -, -, hnow⟩, -, hacq, -⟩ := hv ▸ u.pleatLaunched_control (p := p) g k
  have hq : v.acq[p] = u.acq[p] := (congrArg (fun x : Vector Acq 2 => x[p]) hacq :)
  refine ⟨hnow, ?_, State.nSamples_of_cfg hcfg p, congrArg (fun x : Acq => x.cal.adopted) hq, congrArg Acq.serving hq⟩
  show v.nextSample (v.now + returnDelay p) = _
  rw [hnow, State.nextSample, htim, State.nextSample]

/-- A record once it has been noticed (R141, R144). -/
theorem Acq.issue_write (x : Acq) (r : AcqRec) (words : List U64) (lost : List Bool) (n : Nat) {y : Acq}
    (hy : y = ({ x.write r words lost with seam := n } : Acq).issue r) :
    ∃ m : Notice, y.ring = x.ring ++ x.fresh r words lost ∧
      y.clipCount = x.clipCount + BitVec.ofNat 64 (countClipped ((x.fresh r words lost).map (·.data))) ∧
      m.tag = r.tag ∧ m.length = r.len ∧ m.offset = r.offset ∧ m.calSet = r.calSet ∧
      m.clipInstants = countClipped (y.wordsOf r) ∧
      y.records = (x.records.map fun q => if q.openedAt = r.openedAt then { q with notice := some m } else q) ∧
      y.clipRecords = x.clipRecords + (if m.clipInstants = 0 then 0 else 1) := by
  subst hy
  obtain ⟨z, hz⟩ : ∃ z, z = ({ x.write r words lost with seam := n } : Acq) := ⟨_, rfl⟩
  have hring : z.ring = x.ring ++ x.fresh r words lost := by rw [hz, Acq.write_eq]
  have hclip : z.clipCount = x.clipCount + BitVec.ofNat 64 (countClipped ((x.fresh r words lost).map (·.data))) := by
    rw [hz, Acq.write_eq]
  have hrec : z.records = x.records ∧ z.clipRecords = x.clipRecords := by rw [hz, Acq.write_eq]; exact ⟨rfl, rfl⟩
  rw [← hz, ← hring, ← hclip, ← hrec.1, ← hrec.2]
  refine ⟨z.noticeOf r, rfl, rfl, rfl, rfl, rfl, rfl, rfl, rfl, ?_⟩
  show (if (z.noticeOf r).clipInstants = 0 then z.clipRecords else z.clipRecords + 1) = _
  split <;> simp

end

/-- Settles O27: a launch's record by `State.admitRecord`, a notice by the words that are fresh in the queue. -/
theorem recordsAdmittedAndNoticed : Obligations.RecordsAdmittedAndNoticed := by
  refine ⟨fun s u dt p k g hu hg hs hk hn hat hi hself => ?_, fun s u dt p words lags r hu hf ha ht hk => ?_⟩
  · obtain ⟨t, w, e, hd, hw⟩ := exec_pleatShotLaunch hu hg hs hk hn hat hi
    rw [if_neg (by rw [hself]; decide)] at hw
    obtain ⟨v, hv⟩ : ∃ v, v = u.pleatLaunched p g k.val := ⟨_, rfl⟩
    rw [← hv] at hw
    have hq (q : Port) : t.acq[q] = w.acq[q] := (congrArg (fun x : Vector Acq 2 => x[q]) hd.acq :)
    have hfab : t.fab.ports[p].counts = w.fab.ports[p].counts := (congrArg (fun x : State => x.fab.ports[p].counts) hd.frame :)
    obtain ⟨hother, hfenced, hopen⟩ := admitted_of_launch hv hw (State.live_of_mayIssue hi)
    obtain ⟨h1, h2, h3, h4, h5⟩ := State.reserved_of_launch hv (g.pleatTag k.val)
    rw [← hq, ← hfab] at hfenced hopen
    exact ⟨t, e, fun q hqp => (hq q).trans (hother q hqp), hfenced, fun h => ⟨v.reserved p (g.pleatTag k.val), rfl, rfl, h1, h2, h3,
      h4, h5, rfl, hopen h⟩⟩
  · intro old begin_ lost
    obtain ⟨seam, hs⟩ : ∃ seam, seam = seamRun lags ((List.range (r.len - old)).map (· + old)) u.acq[p].seam := ⟨_, rfl⟩
    have hlost : lost = seam.2 := congrArg Prod.snd hs.symm
    have e := exec_recordNotice (words := words) hu hf ha ht hk hs
    rw [← hlost] at e
    clear_value lost
    obtain ⟨v, hv⟩ : ∃ v, v = u.setDrop p fun d => { d with entryLost := d.entryLost + BitVec.ofNat 64 (lost.filter id).length } :=
      ⟨_, rfl⟩
    have hvq (q : Port) : v.acq[q] = u.acq[q] := by rw [hv]; rfl
    obtain ⟨n, hring, hclip, htag, hlen, hoff, hset, hn, hrec, hcr⟩ := Acq.issue_write u.acq[p] r words lost seam.1 rfl
    have hd := (congrArg (fun x : State => x.fab.ports[p]) hv :).trans (State.setDrop_same _)
    rw [← hv] at e
    refine ⟨_, u.acq[p].fresh r words lost, n, e, by rw [hv]; rfl, fun q hqp => ⟨?_, ?_⟩, ?_⟩
    · rw [State.setAcq_other _ hqp, hvq]
    · rw [hv]
      exact State.setDrop_other _ hqp
    rw [State.setAcq_same, hvq]
    refine ⟨hring, Acq.fresh_length .., fun i w h => Acq.fresh_get h, hclip, htag, hlen, hoff, hset, hn, hrec, hcr, ?_, ?_⟩
    · exact (congrArg DropPort.counts hd :)
    · exact (congrArg DropPort.entryLost hd :)

section

variable {s t u v w : State} {p q : Port}

/-! ## The engine's own values, which DEC and EVT leave (R181, R183 to R191) -/

/-- Of a phase engine what only a record of its own changes. -/
def Phs.engine (x : Phs) : List Int × List Bool × Option (U48 × Nat) × U64 × U32 := (x.acc, x.pend, x.lastShot, x.records, x.latencyPeak)

/-- The phase engine of a port keeps its own values, and the other port's stands whole. -/
def State.EngineKept (t s : State) (p : Port) : Prop := t.phs[p].engine = s.phs[p].engine ∧ ∀ k, k ≠ p → t.phs[k] = s.phs[k]

theorem State.EngineKept.of_phs (h : t.phs = s.phs) : t.EngineKept s p := by
  rw [State.EngineKept, h]
  exact ⟨rfl, fun _ _ => rfl⟩

theorem State.EngineKept.trans (h : t.EngineKept u p) (k : u.EngineKept s p) : t.EngineKept s p :=
  ⟨h.1.trans k.1, fun q hq => (h.2 q hq).trans (k.2 q hq)⟩

theorem State.EngineKept.ite {c : Prop} [Decidable c] (h : t.EngineKept s p) (k : u.EngineKept s p) :
    (if c then t else u).EngineKept s p := by
  split
  · exact h
  · exact k

theorem State.EngineKept.foldl {α : Type} (f : State → α → State) (h : ∀ v a, (f v a).EngineKept v p) (l : List α) (s : State) :
    (l.foldl f s).EngineKept s p :=
  List.foldlRecOn (motive := fun v : State => v.EngineKept s p) l f (.of_phs rfl) fun v hv a _ => (h v a).trans hv

theorem State.setPhs_same (f : Phs → Phs) : (s.setPhs p f).phs[p] = f s.phs[p] := by
  show (upd s.phs p f)[p] = _
  rw [upd_get, if_pos rfl]

theorem State.setPhs_other (f : Phs → Phs) (h : q ≠ p) : (s.setPhs p f).phs[q] = s.phs[q] := by
  show (upd s.phs p f)[q] = _
  rw [upd_get, if_neg (Ne.symm h)]

theorem State.setPhs_engineKept (f : Phs → Phs) (h : ∀ x, (f x).engine = x.engine) : (s.setPhs p f).EngineKept s p :=
  ⟨by rw [State.setPhs_same, h], fun _ hq => State.setPhs_other f hq⟩

theorem State.emitRow_engineKept (product : Nat) (coarse : Bool) (o : Int) (row : Row) : (s.emitRow p product coarse o row).EngineKept s p :=
  .of_phs (by simp)

theorem State.emitPhase_engineKept (coarse : Bool) (o : Int) (x : DecSample) (flags : Nat) (vals prev : List Int) (codes : List Nat) :
    (s.emitPhase p coarse o x flags vals prev codes).EngineKept s p := by
  unfold State.emitPhase
  extract_lets ds sat dcodes v
  exact (State.emitRow_engineKept ..).trans ((State.emitRow_engineKept ..).trans (State.setPhs_engineKept _ fun _ => rfl))

theorem State.emitAmplitude_engineKept (coarse : Bool) (m h flags : Nat) : (s.emitAmplitude p coarse m h flags).EngineKept s p :=
  .of_phs (by simp)

theorem State.fullPath_engineKept : (s.fullPath p).EngineKept s p := by
  have hp (w : State) (f : Phs → Phs) (h : ∀ x, (f x).engine = x.engine) : (w.setPhs p f).EngineKept w p :=
    State.setPhs_engineKept f h
  unfold State.fullPath
  extract_lets k x
  split
  · exact .of_phs rfl
  · refine .ite ?_ (.ite (.of_phs rfl) ?_)
    · exact (State.emitRow_engineKept ..).trans ((State.emitRow_engineKept ..).trans ((State.emitRow_engineKept ..).trans
        (hp _ _ fun _ => rfl)))
    · split
      · exact .ite ((State.emitPhase_engineKept ..).trans (hp _ _ fun _ => rfl)) (hp _ _ fun _ => rfl)
      · exact hp _ _ fun _ => rfl

theorem State.fullAmplitude_engineKept : (s.fullAmplitude p).EngineKept s p := by
  unfold State.fullAmplitude
  extract_lets k h
  split
  · exact .of_phs rfl
  · exact .ite (State.emitAmplitude_engineKept ..) (.of_phs rfl)

theorem State.coarsePath_engineKept : (s.coarsePath p).EngineKept s p := by
  unfold State.coarsePath
  extract_lets m x
  split
  · exact .of_phs rfl
  · exact .ite (.of_phs rfl) ((State.emitAmplitude_engineKept ..).trans ((State.emitPhase_engineKept ..).trans
      (State.setPhs_engineKept _ fun _ => rfl)))

theorem State.decFeed_engineKept (x : DecSample) : (s.decFeed p x).EngineKept s p := by
  unfold State.decFeed
  extract_lets len v w
  have hv : v.EngineKept s p := State.setPhs_engineKept _ fun y => by dsimp only; split <;> rfl
  have hx : ((w.lfSample p x).evtSample p x).EngineKept w p := .of_phs (by simp)
  exact hx.trans (State.coarsePath_engineKept.trans (State.fullAmplitude_engineKept.trans (State.fullPath_engineKept.trans hv)))

theorem State.fillOne_engineKept (e : Expect) : (s.fillOne p e).EngineKept s p := by
  have h : (s.fillOne p e).EngineKept (s.decFeed p (s.fillSample p e)) p := .of_phs (by simp [State.fillOne])
  exact h.trans (State.decFeed_engineKept _)

theorem State.fillGap_engineKept (e : Expect) : (s.fillGap p e).EngineKept s p :=
  .ite (.of_phs rfl) (.ite (State.setPhs_engineKept _ fun _ => rfl) (.foldl _ (fun _ _ => State.fillOne_engineKept _) _ _))

theorem State.drainList_engineKept (p : Port) (l : List Expect) (s : State) : (State.drainList p l s).EngineKept s p := by
  induction l generalizing s with
  | nil => exact State.setPhs_engineKept _ fun _ => rfl
  | cons e t ih => exact .ite (State.setPhs_engineKept _ fun _ => rfl) ((ih _).trans ((State.fillOne_engineKept e).trans
      (State.fillGap_engineKept e)))

theorem State.drainMissing_engineKept : (s.drainMissing p).EngineKept s p := .ite (State.drainList_engineKept ..) (.of_phs rfl)

end

section

variable {s t u v w : State} {p q : Port}

/-! ## A record that is read out (R143, R146, R148, R151) -/

/-- Gates, shutters, sequencers, the time-interval unit and all control stand. -/
structure State.ReadsOut (t s : State) : Prop where
  opt : t.opt = s.opt
  sht : t.sht = s.sht
  tiu : t.tiu = s.tiu
  control : t.ControlKept s

theorem State.ReadsOut.trans (h : t.ReadsOut u) (k : u.ReadsOut s) : t.ReadsOut s :=
  ⟨h.opt.trans k.opt, h.sht.trans k.sht, h.tiu.trans k.tiu, h.control.trans k.control⟩

theorem OnlyReports.phs (h : OnlyReports t s) : t.phs = s.phs := (congrArg State.phs h :)

theorem State.Sampled.readsOut (h : t.Sampled s) : t.ReadsOut s := ⟨h.opt, h.sht, h.tiu, h.control⟩

theorem State.setAcq_readsOut (f : Acq → Acq) : (s.setAcq p f).ReadsOut s := ⟨rfl, rfl, rfl, .rfl⟩

theorem State.ReadsOut.of_reports (h : OnlyReports t { s with acq := t.acq }) : t.ReadsOut s :=
  have k : t.Sampled { s with acq := t.acq } := h.sampled
  ⟨k.opt, k.sht, k.tiu, k.control⟩

/-- The errors of a record's words are counted; what they raise are reports (R146). -/
theorem State.queueErrors_parts {c b : Nat} (h : t = s.queueErrors p c b) : OnlyReports t { s with acq := t.acq } ∧ t.phs = s.phs ∧
    (∀ k, k ≠ p → t.acq[k] = s.acq[k]) ∧ t.acq[p].records = s.acq[p].records ∧
    t.acq[p].eccCorrected = s.acq[p].eccCorrected + BitVec.ofNat 64 c ∧
    t.acq[p].eccUncorrected = s.acq[p].eccUncorrected + BitVec.ofNat 64 b := by
  unfold State.queueErrors at h
  split at h
  next hz =>
    obtain ⟨rfl, rfl⟩ := hz
    rw [h]
    exact ⟨rfl, rfl, fun _ _ => rfl, rfl, (BitVec.add_zero _).symm, (BitVec.add_zero _).symm⟩
  next =>
    extract_lets recent nc nb v code w at h
    have hw : OnlyReports w v := by
      refine hushed_ite _ _ _ _ ?_ rfl
      rw [State.warn_hushed]
      exact hushed_ite _ _ _ _ rfl (State.record_hushed ..)
    have ht : OnlyReports t v := by
      rw [h]
      exact hushed_ite _ _ _ _ ((State.report_hushed ..).trans hw) hw
    have ha : t.acq = v.acq := (congrArg State.acq ht :)
    have hq (q : Port) : t.acq[q] = v.acq[q] := by rw [ha]
    refine ⟨?_, (congrArg State.phs ht :), fun k hk => (hq k).trans (State.setAcq_other _ hk), ?_⟩
    · rw [ha]
      exact ht
    · rw [hq, State.setAcq_same]
      exact ⟨rfl, rfl, rfl⟩

theorem State.accumulate_cal (r : AcqRec) (words : List U64) (lanes : List (List Int)) :
    ∃ f, s.accumulate p r words lanes = s.setCal p f ∨ s.accumulate p r words lanes = s := by
  unfold State.accumulate
  split
  · exact ⟨id, .inr rfl⟩
  · split
    · exact ⟨_, .inl rfl⟩
    · exact ⟨_, .inl rfl⟩

/-- Self-calibration takes a record and leaves the queue (R151). -/
theorem State.accumulate_parts (r : AcqRec) (words : List U64) (lanes : List (List Int)) (h : v = s.accumulate p r words lanes) :
    v.ReadsOut s ∧ v.phs = s.phs ∧ (∀ k, k ≠ p → v.acq[k] = s.acq[k]) ∧ v.acq[p] = { s.acq[p] with cal := v.acq[p].cal } := by
  obtain ⟨f, hf | hf⟩ := s.accumulate_cal (p := p) r words lanes
  · rw [h, hf]
    refine ⟨State.setAcq_readsOut _, rfl, fun k hk => State.setAcq_other _ hk, ?_⟩
    rw [State.setCal, State.setAcq_same]
  · rw [h, hf]
    exact ⟨⟨rfl, rfl, rfl, .rfl⟩, rfl, fun _ _ => rfl, rfl⟩

theorem State.emitRaw_hushed (e : Expect) (x : PointView) (codes : List Nat) (flags : Nat) :
    (s.emitRaw p e x codes flags).hushed = s.hushed := by
  unfold State.emitRaw
  refine hushed_ite _ _ _ _ rfl ?_
  extract_lets pts row
  have hr (l : List PRec) (r : RouteId) (w : State) : (l.foldl (fun s q => s.toRoute r q) w).hushed = w.hushed :=
    List.foldlRecOn (motive := fun v : State => v.hushed = w.hushed) l _ rfl fun v hv q _ => (State.toRoute_hushed ..).trans hv
  refine List.foldlRecOn (motive := fun v : State => v.hushed = s.hushed) _ _ rfl fun v hv r _ => ?_
  refine (hushed_ite _ _ _ _ (hr _ _ _) rfl).trans hv

/-- The engine's step on a record: what it keeps of it, then the sample to DEC and EVT, or a filled one where the link lost it. -/
theorem State.processRecord_steps (r : AcqRec) (words : List U64) (lanes : List (List Int)) (e : Expect) :
    ∃ (f : Phs → Phs) (acc : List Int) (pend : List Bool) (struck : Bool) (x : DecSample) (y : PointView) (codes : List Nat) (flags n m : Nat)
      (energy : Option Nat), acc.length = s.nPoints p ∧ pend.length = s.nPoints p ∧
      (∀ z, (f z).engine = (acc, pend, some (r.tag.group, r.tag.pleat), z.records + 1, z.latencyPeak)) ∧
      s.processRecord p r words lanes e = if struck then (s.setPhs p f).fillOne p e else
        (((s.setPhs p f).decFeed p x).emitRaw p e y codes flags).evtEnd p n r.tag.group r.tag.pleat m e.j e.time energy := by
  unfold State.processRecord
  extract_lets k np pts powers st means nf clips view gs cm whole os flags ampCodes count x v a b
  have hlen : os.length = s.nPoints p := by simp [os, gs, np]
  refine ⟨_, os.map (·.acc), os.map (·.pend), _, x, view, ampCodes, flags, _, _, _, ?_, ?_, ?_, rfl⟩
  · rw [List.length_map, hlen]
  · rw [List.length_map, hlen]
  · intro z
    rfl

/-- What a record leaves in the engine (R181): one value per point, the shot and the count. -/
theorem State.processRecord_parts (r : AcqRec) (words : List U64) (lanes : List (List Int)) (e : Expect)
    (h : v = s.processRecord p r words lanes e) :
    v.Sampled s ∧ (∀ k, k ≠ p → v.phs[k] = s.phs[k]) ∧ ∃ acc : List Int, ∃ pend : List Bool,
      acc.length = s.nPoints p ∧ pend.length = s.nPoints p ∧
      v.phs[p].engine = (acc, pend, some (r.tag.group, r.tag.pleat), s.phs[p].records + 1, s.phs[p].latencyPeak) := by
  obtain ⟨f, acc, pend, struck, x, y, codes, flags, n, m, energy, hacc, hpend, hf, hp⟩ := s.processRecord_steps (p := p) r words lanes e
  obtain ⟨a, ha⟩ : ∃ a, a = s.setPhs p f := ⟨_, rfl⟩
  obtain ⟨b, hb⟩ : ∃ b, b = (a.decFeed p x).emitRaw p e y codes flags := ⟨_, rfl⟩
  rw [← ha, ← hb] at hp
  have hraw : b.hushed = (a.decFeed p x).hushed := hb ▸ State.emitRaw_hushed ..
  have hbk : b.EngineKept a p := State.EngineKept.trans (.of_phs (OnlyReports.phs hraw)) (State.decFeed_engineKept x)
  have hend : (b.evtEnd p n r.tag.group r.tag.pleat m e.j e.time energy).EngineKept b p := .of_phs (by simp)
  have hv : v.Sampled a ∧ v.EngineKept a p := by
    rw [h, hp]
    split
    · exact ⟨State.fillOne_sampled e, State.fillOne_engineKept e⟩
    · exact ⟨(State.evtEnd_sampled ..).trans ((OnlyReports.sampled hraw).trans (State.decFeed_sampled x)), hend.trans hbk⟩
  subst ha
  exact ⟨hv.1.trans (State.setPhs_sampled f), fun k hk => (hv.2.2 k hk).trans (State.setPhs_other f hk), acc, pend, hacc, hpend,
    hv.2.1.trans (by rw [State.setPhs_same, hf])⟩

theorem State.nPoints_of_cfg (h : t.cfg = u.cfg) (p : Port) : t.nPoints p = u.nPoints p := by
  simp only [State.nPoints, State.reach, State.groupIndex, State.fibre, State.pleats, State.shotRec, State.rec?_of_cfg h]

/-- The instants of a record that have uncorrectable words (R146). -/
def badInstants (q : QueueRead) (r : AcqRec) : List Nat := q.bad.eraseDups.filter fun i => i < r.len

/-- The queue's words have been read, with their errors (R146). -/
def State.readQueue (s : State) (p : Port) (q : QueueRead) (r : AcqRec) : State :=
  (s.queueErrors p q.corrected (badInstants q r).length).setAcq p fun x => x.readBad r (badInstants q r)

/-- Words and corrected samples of a record, in the state of `State.readQueue` (R148). -/
def State.wordsRead (s : State) (p : Port) (r : AcqRec) : List U64 := s.acq[p].wordsOf r
def State.lanesRead (s : State) (p : Port) (r : AcqRec) : List (List Int) :=
  corrected (s.acq[p].cal.setOf r.calSet) r (s.wordsRead p r)

/-- The sample of a record is taken off those expected; latencies and the notice are kept (R144). -/
def State.noteRecord (s : State) (p : Port) (q : QueueRead) (r : AcqRec) (known : Bool) (n : Nat) : State :=
  s.setPhs p fun x =>
    { x with
      expect := if known then x.expect.drop (n + 1) else x.expect
      latencyPeak := BitVec.ofNat 32 (max x.latencyPeak.toNat q.latencyNs)
      notice := r.notice.map fun n => { n with eccCorrected := q.corrected, eccUncorrected := (badInstants q r).length } }

def State.noteDecision (s : State) (q : QueueRead) : State :=
  if s.isShut 11 then s else s.setEvt fun x => { x with latencyPeak := BitVec.ofNat 32 (max x.latencyPeak.toNat q.decisionNs) }

/-- Samples before a record's are filled (R187). -/
def State.fillTo (s : State) (p : Port) (before : List Expect) (known : Bool) (e : Expect) : State :=
  (if known then before.foldl (fun s x => (s.fillGap p x).fillOne p x) s else s).fillGap p e

/-- The state in which the engine takes a record. -/
def State.takenAt (s : State) (p : Port) (q : QueueRead) (r : AcqRec) : State :=
  let e := s.expectOf p r
  let before := s.phs[p].expect.takeWhile fun x => !(x.group == e.group && x.pleat == e.pleat)
  let known := s.phs[p].expect.any fun x => x.group == e.group && x.pleat == e.pleat
  ((s.noteRecord p q r known before.length).noteDecision q).fillTo p before known e

/-- A processed record's instants are released (R143). -/
def State.releaseRecord (s : State) (p : Port) (rest : List AcqRec) : State :=
  ((s.setPhs p fun x => { x with struck := false }).setAcq p fun x => ({ x with records := rest } : Acq).release).drainMissing p

theorem exec_phaseRecordProcess {dt : Nat} {q : QueueRead} {r : AcqRec} {rest : List AcqRec} (hu : u = s.elapse dt)
    (hr : u.acq[p].records = r :: rest) (hn : r.noticed = true) (hd : u.decOn p = true) (hv : v = u.readQueue p q r)
    (hw : w = v.accumulate p r (v.wordsRead p r) (v.lanesRead p r)) :
    exec (.phaseRecordProcess dt p q) s = .next
      (((w.takenAt p q r).processRecord p r (v.wordsRead p r) (v.lanesRead p r) (w.expectOf p r)).releaseRecord p rest) := by
  simp only [exec, execPhaseRecordProcess, ← hu, hr]
  rw [if_pos (by rw [hd, hn]; rfl), hw, hv]
  rfl

end

section

variable {s t u v w : State} {p : Port} {q : QueueRead} {r : AcqRec}

theorem State.readQueue_parts (h : v = s.readQueue p q r) : v.ReadsOut s ∧ v.phs = s.phs ∧ (∀ k, k ≠ p → v.acq[k] = s.acq[k]) ∧
    v.acq[p].records = s.acq[p].records ∧ v.acq[p].eccCorrected = s.acq[p].eccCorrected + BitVec.ofNat 64 q.corrected ∧
    v.acq[p].eccUncorrected = s.acq[p].eccUncorrected + BitVec.ofNat 64 (badInstants q r).length := by
  obtain ⟨a, ha⟩ : ∃ a, a = s.queueErrors p q.corrected (badInstants q r).length := ⟨_, rfl⟩
  obtain ⟨hf, hp, ho, hr, hc, hb⟩ := State.queueErrors_parts ha
  rw [State.readQueue, ← ha] at h
  rw [h, State.setAcq_same]
  exact ⟨(State.setAcq_readsOut _).trans (.of_reports hf), hp, fun k hk => (State.setAcq_other _ hk).trans (ho k hk), hr, hc, hb⟩

theorem State.noteDecision_parts : (s.noteDecision q).Sampled s ∧ (s.noteDecision q).phs = s.phs := by
  unfold State.noteDecision
  split
  · exact ⟨.rfl, rfl⟩
  · exact ⟨State.setEvt_sampled _, rfl⟩

theorem State.fillTo_parts (before : List Expect) (known : Bool) (e : Expect) :
    (s.fillTo p before known e).Sampled s ∧ (s.fillTo p before known e).EngineKept s p :=
  ⟨(State.fillGap_sampled e).trans (.ite (.foldl _ (fun _ _ => (State.fillOne_sampled _).trans (State.fillGap_sampled _)) _ _) .rfl),
    (State.fillGap_engineKept e).trans (.ite (.foldl _ (fun _ _ => (State.fillOne_engineKept _).trans (State.fillGap_engineKept _)) _ _)
      (.of_phs rfl))⟩

theorem State.takenAt_parts : (s.takenAt p q r).Sampled s ∧ (∀ k, k ≠ p → (s.takenAt p q r).phs[k] = s.phs[k]) ∧
    (s.takenAt p q r).phs[p].records = s.phs[p].records ∧
    (s.takenAt p q r).phs[p].latencyPeak = BitVec.ofNat 32 (max s.phs[p].latencyPeak.toNat q.latencyNs) := by
  unfold State.takenAt
  extract_lets e before known
  obtain ⟨v, hv⟩ : ∃ v, v = s.noteRecord p q r known before.length := ⟨_, rfl⟩
  have ho (k : Port) (hk : k ≠ p) : v.phs[k] = s.phs[k] := hv ▸ State.setPhs_other _ hk
  have he : v.phs[p].records = s.phs[p].records ∧
      v.phs[p].latencyPeak = BitVec.ofNat 32 (max s.phs[p].latencyPeak.toNat q.latencyNs) := by
    rw [hv, State.noteRecord, State.setPhs_same]
    exact ⟨rfl, rfl⟩
  have hs : v.Sampled s := hv ▸ State.setPhs_sampled _
  obtain ⟨hds, hdp⟩ := v.noteDecision_parts (q := q)
  obtain ⟨hfs, hfp, hfo⟩ := (v.noteDecision q).fillTo_parts (p := p) before known e
  rw [← hv]
  simp only [Phs.engine, Prod.mk.injEq, hdp] at hfp
  obtain ⟨-, -, -, hrec, hlat⟩ := hfp
  exact ⟨hfs.trans (hds.trans hs), fun k hk => by rw [hfo k hk, hdp, ho k hk], hrec.trans he.1, hlat.trans he.2⟩

theorem State.releaseRecord_parts (rest : List AcqRec) (h : t = s.releaseRecord p rest) : t.ReadsOut s ∧ t.EngineKept s p ∧
    (∀ k, k ≠ p → t.acq[k] = s.acq[k]) ∧ t.acq[p] = ({ s.acq[p] with records := rest } : Acq).release := by
  obtain ⟨v, hv⟩ : ∃ v, v = (s.setPhs p fun x => { x with struck := false }).setAcq p fun x => ({ x with records := rest } : Acq).release :=
    ⟨_, rfl⟩
  rw [State.releaseRecord, ← hv] at h
  have hd : t.Sampled v ∧ t.EngineKept v p := h ▸ ⟨State.drainMissing_sampled, State.drainMissing_engineKept⟩
  have hp : (s.setPhs p fun x => { x with struck := false }).EngineKept s p := State.setPhs_engineKept _ fun _ => rfl
  have hvp : v.EngineKept s p := hv ▸ hp
  have hvs : v.ReadsOut s := hv ▸ (State.setAcq_readsOut _).trans (State.setPhs_sampled _).readsOut
  have hq (k : Port) : t.acq[k] = v.acq[k] := by rw [hd.1.acq]
  refine ⟨hd.1.readsOut.trans hvs, hd.2.trans hvp, fun k hk => ?_, ?_⟩
  · rw [hq, hv, State.setAcq_other _ hk]
    rfl
  · rw [hq, hv, State.setAcq_same]
    rfl

end

/-- Settles O29: the record goes from `State.readQueue` through `State.processRecord` to `State.releaseRecord`, each step by its
lemma. -/
theorem phaseRecordsProcessed : Obligations.PhaseRecordsProcessed := by
  intro s u dt p q r rest hu hr hn hd
  obtain ⟨a, ha⟩ : ∃ a, a = u.readQueue p q r := ⟨_, rfl⟩
  obtain ⟨b, hb⟩ : ∃ b, b = a.accumulate p r (a.wordsRead p r) (a.lanesRead p r) := ⟨_, rfl⟩
  obtain ⟨c, hc⟩ : ∃ c, c = b.takenAt p q r := ⟨_, rfl⟩
  obtain ⟨d, hd'⟩ : ∃ d, d = c.processRecord p r (a.wordsRead p r) (a.lanesRead p r) (b.expectOf p r) := ⟨_, rfl⟩
  obtain ⟨t, ht⟩ : ∃ t, t = d.releaseRecord p rest := ⟨_, rfl⟩
  have e := exec_phaseRecordProcess hu hr hn hd ha hb
  rw [← hc, ← hd', ← ht] at e
  obtain ⟨haf, hap, hao, -, hac, hau⟩ := State.readQueue_parts ha
  obtain ⟨hbf, hbp, hbo, hbq⟩ := State.accumulate_parts _ _ _ hb
  obtain ⟨hcs, hco, hcr, hcl⟩ := hc ▸ b.takenAt_parts (p := p) (q := q) (r := r)
  obtain ⟨hds, hdo, acc, pend, hacc, hpend, hde⟩ := State.processRecord_parts _ _ _ _ hd'
  obtain ⟨htf, ⟨hte, hto⟩, hta, htq⟩ := State.releaseRecord_parts rest ht
  have hfc : c.ReadsOut u := hcs.readsOut.trans (hbf.trans haf)
  have hf : t.ReadsOut u := htf.trans (hds.readsOut.trans hfc)
  have hq (k : Port) : d.acq[k] = b.acq[k] := by rw [hds.acq, hcs.acq]
  have hn' : c.nPoints p = u.nPoints p := State.nPoints_of_cfg hfc.control.2.1 p
  have hecc : b.acq[p].eccCorrected = a.acq[p].eccCorrected ∧ b.acq[p].eccUncorrected = a.acq[p].eccUncorrected := by
    rw [hbq]
    exact ⟨rfl, rfl⟩
  have hte' := hte.trans hde
  rw [Phs.engine, Prod.mk.injEq, Prod.mk.injEq, Prod.mk.injEq, Prod.mk.injEq] at hte'
  obtain ⟨h1, h2, h3, h4, h5⟩ := hte'
  refine ⟨t, e, by rw [htq]; rfl, by rw [h4, hcr, hbp, hap], h3, by rw [h1, hacc, hn'], by rw [h2, hpend, hn'],
    by rw [h5, hcl, hbp, hap], ?_, ?_, fun k hk => ⟨?_, ?_⟩, hf.opt, hf.sht, hf.tiu, hf.control⟩
  · rw [htq, hq]
    exact hecc.1.trans hac
  · rw [htq, hq]
    exact hecc.2.trans hau
  · rw [hta k hk, hq, hbo k hk, hao k hk]
  · rw [hto k hk, hdo k hk, hco k hk, hbp, hap]

section

variable {s t u v w : State} {p q : Port}

/-! ## What an update leaves of the port's acquisition (R155, R159, R160) -/

/-- What retirements, shadows and the limit's warning change: their marks, and reports. A slice once retired stays so. -/
structure State.Judged (t s : State) (p : Port) : Prop where
  frame : OnlyReports t { s with acq := t.acq }
  others : ∀ q, q ≠ p → t.acq[q] = s.acq[q]
  kept : t.acq[p] =
    { s.acq[p] with
      retired := t.acq[p].retired, spare := t.acq[p].spare, shadow := t.acq[p].shadow
      pendingSubst := t.acq[p].pendingSubst, pendingAt := t.acq[p].pendingAt
      cal := { s.acq[p].cal with limit := t.acq[p].cal.limit } }
  retired : ∀ i, s.acq[p].retired.getLsbD i = true → t.acq[p].retired.getLsbD i = true

theorem State.Judged.of_reports (h : OnlyReports t s) : t.Judged s p := by
  have ha : t.acq = s.acq := (congrArg State.acq h :)
  refine ⟨?_, fun q _ => by rw [ha], by rw [ha], fun i => by rw [ha]; exact id⟩
  rw [ha]
  exact h

theorem State.Judged.trans (h : t.Judged u p) (k : u.Judged s p) : t.Judged s p := by
  refine ⟨?_, fun q hq => (h.others q hq).trans (k.others q hq), ?_, fun i hi => h.retired i (k.retired i hi)⟩
  · have k' := (congrArg (fun x : State => { x with acq := t.acq }) k.frame :)
    exact h.frame.trans k'
  · rw [h.kept, k.kept]

theorem State.setAcq_judged (f : Acq → Acq)
    (hf : ∀ x, f x = { x with
      retired := (f x).retired, spare := (f x).spare, shadow := (f x).shadow, pendingSubst := (f x).pendingSubst
      pendingAt := (f x).pendingAt, cal := { x.cal with limit := (f x).cal.limit } })
    (hr : ∀ x i, x.retired.getLsbD i = true → (f x).retired.getLsbD i = true) : (s.setAcq p f).Judged s p := by
  refine ⟨rfl, fun q hq => State.setAcq_other f hq, ?_, fun i hi => ?_⟩
  · rw [State.setAcq_same]
    exact hf _
  · rw [State.setAcq_same]
    exact hr _ i hi

theorem State.Judged.ite {c : Prop} [Decidable c] (h : t.Judged s p) (k : u.Judged s p) : (if c then t else u).Judged s p := by
  split
  · exact h
  · exact k

theorem State.moveShadows_judged : (s.setAcq p Acq.moveShadows).Judged s p := State.setAcq_judged _ (fun _ => rfl) fun _ _ => id

theorem State.calWarn_judged (code : U32) (row : Nat) : (s.calWarn p code row).Judged s p := by
  refine .of_reports ?_
  unfold State.calWarn
  extract_lets v
  have hv : OnlyReports v s := hushed_ite _ _ _ _ rfl (State.record_hushed ..)
  exact (State.warn_hushed_at ..).trans hv

theorem State.limitRow_judged : (s.limitRow p).Judged s p := by
  unfold State.limitRow
  exact .ite ((State.calWarn_judged ..).trans (State.setAcq_judged _ (fun _ => rfl) fun _ _ => id)) (.of_reports rfl)

/-- A slice that is retired is marked (R160). -/
theorem State.markRetired_judged (l : Fin 4) (slice : Fin 5) (criterion : Nat) : (s.markRetired p l slice criterion).Judged s p ∧
    (s.markRetired p l slice criterion).acq[p].retired.getLsbD (5 * l.val + slice.val) = true := by
  obtain ⟨v, hv⟩ : ∃ v, v = s.setAcq p fun x =>
    { x with
      retired := x.retired ||| (1#20 <<< (5 * l.val + slice.val))
      spare := if slice = 4 then x.spare.set l 3 else x.spare } := ⟨_, rfl⟩
  have hj : v.Judged s p := hv ▸ State.setAcq_judged _ (fun _ => rfl) fun x i hi => by simp [hi]
  have hb : v.acq[p].retired.getLsbD (5 * l.val + slice.val) = true := by
    rw [hv, State.setAcq_same]
    have : 5 * l.val + slice.val < 20 := by omega
    simp [this]
  unfold State.markRetired
  rw [← hv]
  have hr := fun r : BbxRec => State.record_hushed v r
  have ha (r : BbxRec) : (v.record r).acq = v.acq := (congrArg State.acq (hr r) :)
  refine ⟨State.Judged.trans (.of_reports (hr _)) hj, ?_⟩
  dsimp only
  rw [ha]
  exact hb

theorem State.retireSlice_judged (l : Fin 4) (slice : Fin 5) (criterion : Nat) : (s.retireSlice p l slice criterion).Judged s p ∧
    (s.retireSlice p l slice criterion).acq[p].retired.getLsbD (5 * l.val + slice.val) = true := by
  unfold State.retireSlice
  extract_lets v
  have hv : v.Judged s p ∧ v.acq[p].retired.getLsbD (5 * l.val + slice.val) = true := by
    simp only [v]
    split
    · exact ⟨.of_reports rfl, ‹_›⟩
    · exact State.markRetired_judged ..
  split
  · exact hv
  · split
    · have hj : (v.setAcq p fun x => { x with pendingSubst := x.pendingSubst ++ [(l, slice)], pendingAt := v.now }).Judged v p :=
        State.setAcq_judged _ (fun _ => rfl) fun _ _ => id
      exact ⟨hj.trans hv.1, hj.retired _ hv.2⟩
    · have hj : (v.report (acqDomain p) (acqFault p 2) (BitVec.ofNat 32 (5 * l.val + slice.val))).Judged v p := .of_reports rfl
      exact ⟨hj.trans hv.1, hj.retired _ hv.2⟩

theorem State.retireAll_judged (bad : List (Fin 4 × Fin 5 × Nat)) : (s.retireAll p bad).Judged s p ∧
    ∀ b ∈ bad, (s.retireAll p bad).acq[p].retired.getLsbD (5 * b.1.val + b.2.1.val) = true := by
  induction bad generalizing s with
  | nil => exact ⟨.of_reports rfl, fun b hb => absurd hb List.not_mem_nil⟩
  | cons b l ih =>
    obtain ⟨hj, hb⟩ := s.retireSlice_judged (p := p) b.1 b.2.1 b.2.2
    obtain ⟨hl, hm⟩ := ih (s := s.retireSlice p b.1 b.2.1 b.2.2)
    exact ⟨hl.trans hj, List.forall_mem_cons.mpr ⟨hl.retired _ hb, hm⟩⟩

end

section

variable {s t u v w : State} {p q : Port}

theorem State.Judged.reports (h : t.Judged v p) (f : Acq → Acq) (hv : v = s.setAcq p f) : OnlyReports t { s with acq := t.acq } ∧
    (∀ q, q ≠ p → t.acq[q] = s.acq[q]) := by
  subst hv
  exact ⟨h.frame.trans rfl, fun q hq => (h.others q hq).trans (State.setAcq_other f hq)⟩

/-- A correction stays in its range (Table 5.4). -/
theorem moveCorrection_range (m i : Nat) (v n : Int) : (moveCorrection m i v n).natAbs ≤ calRange i := by
  unfold moveCorrection
  dsimp only
  omega

theorem moved_range (m : Nat) (l : List (Int × Int)) (i : Nat) (v : Int)
    (h : (l.zipIdx.map fun e => moveCorrection m e.2 e.1.1 e.1.2)[i]? = some v) : v.natAbs ≤ calRange i := by
  rw [List.getElem?_map, Option.map_eq_some_iff] at h
  obtain ⟨e, he, rfl⟩ := h
  rw [List.getElem?_zipIdx, Option.map_eq_some_iff] at he
  obtain ⟨a, -, rfl⟩ := he
  rw [Nat.zero_add]
  exact moveCorrection_range ..

/-- The calibration after an update that is short (R155). -/
def State.shortCal (s : State) (p : Port) (c : Cal) : Cal :=
  { c with
    short := c.short + 1, shortRun := c.shortRun + 1, due := c.due.map (· + s.updateP)
    atLimit := limitRuns s.acq[p].cal.vals s.acq[p].cal.atLimit, starved := c.starved || decide (c.shortRun + 1 ≥ 16) }

theorem State.shortUpdate_parts (h : t = s.shortUpdate p) : ∃ v : State, v = s.setCal p (s.shortCal p) ∧ t.Judged v p ∧
    (15 ≤ s.acq[p].cal.shortRun → s.hatbandActs = true → t.warned 0x00160002#32 = true) := by
  obtain ⟨v, hv⟩ : ∃ v, v = s.setCal p (s.shortCal p) := ⟨_, rfl⟩
  obtain ⟨w, hw⟩ : ∃ w, w = ((v.setAcq p Acq.moveShadows).limitRow p).retireAll p
    (s.badSlices p (limitRuns s.acq[p].cal.vals s.acq[p].cal.atLimit) true []) := ⟨_, rfl⟩
  have ht : t = if w.acq[p].cal.shortRun ≥ 16 then w.calWarn p 0x00160002#32 6 else w := by
    rw [h, hw, hv]
    rfl
  have hj : w.Judged v p := hw ▸ State.retireAll_judged _ |>.1.trans (State.limitRow_judged.trans State.moveShadows_judged)
  have hrun : w.acq[p].cal.shortRun = s.acq[p].cal.shortRun + 1 := by
    rw [hj.kept, hv, State.setCal, State.setAcq_same]
    rfl
  refine ⟨v, hv, ?_, fun hr ha => ?_⟩
  · rw [ht]
    exact .ite (State.Judged.trans (State.calWarn_judged ..) hj) hj
  · rw [ht, if_pos (by omega)]
    have hacts : w.hatbandActs = true := by
      rw [State.hatbandActs_of_ctlStands (.of_hushed (hj.reports _ hv).1)]
      exact ha
    unfold State.calWarn
    extract_lets x
    refine State.warn_warned _ _ _ _ ?_
    simp only [x]
    split
    · exact hacts
    · rw [State.record_hatbandActs, hacts]

/-- The calibration after an update that formed a set (R155, R156). -/
theorem State.formSet_parts (vals ns : List Int) (runs : List Nat) (h : t = s.formSet p vals ns runs) : ∃ (f : Cal → Cal) (v : State),
    v = s.setCal p f ∧ t.Judged v p ∧ ∀ c, (f c).vals = vals ∧ (f c).num = (c.num + 1) % 65536 ∧ (f c).prev = some (c.num, c.vals) ∧
      (f c).lastTime = s.devTime ∧ (f c).updates = c.updates + 1 ∧ (f c).acc = {} ∧ (f c).shortRun = 0 ∧
      (f c).due = some (s.now + s.updateP) := by
  subst h
  unfold State.formSet
  extract_lets track v
  refine ⟨_, v, rfl, ?_, fun c => ⟨rfl, rfl, rfl, rfl, rfl, rfl, rfl, rfl⟩⟩
  have hw : ((v.setAcq p Acq.moveShadows).warnEnded 0x00160002#32 p.val).Judged (v.setAcq p Acq.moveShadows) p := .of_reports rfl
  exact State.limitRow_judged.trans (hw.trans State.moveShadows_judged)

/-- The corrections that an update would leave (R155). -/
def State.movedVals (s : State) (p : Port) : List Int :=
  (s.acq[p].cal.vals.zip (s.calSteps p)).zipIdx.map fun e =>
    moveCorrection (if s.acq[p].cal.phaseUpdates < s.acquireUpdates then 64 else 1) e.2 e.1.1 e.1.2

/-- The slices that an update finds bad (R160). -/
def State.foundBad (s : State) (p : Port) (spareBad : List (Fin 4 × Nat)) : List (Fin 4 × Fin 5 × Nat) :=
  s.badSlices p (limitRuns (s.movedVals p) s.acq[p].cal.atLimit) false spareBad

/-- The calibration after an update that is discarded (R160). -/
def Cal.discarded (c : Cal) (runs : List Nat) (interval : Nat) : Cal := { c with atLimit := runs, acc := {}, due := c.due.map (· + interval) }

/-- An update that is not short (R155, R160): the set is kept where a slice that serves is bad, and formed otherwise. -/
theorem State.fullUpdate_parts {spareBad : List (Fin 4 × Nat)} (h : t = s.fullUpdate p spareBad) : ∃ (f : Cal → Cal) (v : State),
    v = s.takeFree.setCal p f ∧ t.Judged v p ∧
    (∀ b ∈ s.foundBad p spareBad, t.acq[p].retired.getLsbD (5 * b.1.val + b.2.1.val) = true) ∧
    (((s.foundBad p spareBad).any fun b => (s.acq[p].slotOf b.1 b.2.1.val).isSome) = true → ∀ c, (f c).num = c.num ∧
      (f c).vals = c.vals ∧ (f c).updates = c.updates ∧ (f c).due = c.due.map (· + s.updateP) ∧ (f c).acc = {}) ∧
    (((s.foundBad p spareBad).any fun b => (s.acq[p].slotOf b.1 b.2.1.val).isSome) = false → ∀ c, (f c).vals = s.movedVals p ∧
      (f c).num = (c.num + 1) % 65536 ∧ (f c).prev = some (c.num, c.vals) ∧
      (f c).lastTime = s.devTime ∧ (f c).updates = c.updates + 1 ∧ (f c).acc = {} ∧ (f c).shortRun = 0 ∧
      (f c).due = some (s.now + s.updateP)) := by
  have ht : t = if ((s.foundBad p spareBad).any fun b => (s.acq[p].slotOf b.1 b.2.1.val).isSome) then
      (s.takeFree.setCal p fun c => c.discarded (limitRuns (s.movedVals p) s.acq[p].cal.atLimit) s.updateP).retireAll p (s.foundBad p spareBad)
    else (s.takeFree.formSet p (s.movedVals p) (s.calSteps p) (limitRuns (s.movedVals p) s.acq[p].cal.atLimit)).retireAll p
      (s.foundBad p spareBad) := h
  split at ht
  next hb =>
    obtain ⟨hj, hm⟩ := State.retireAll_judged (p := p) (s := s.takeFree.setCal p fun c =>
      c.discarded (limitRuns (s.movedVals p) s.acq[p].cal.atLimit) s.updateP) (s.foundBad p spareBad)
    refine ⟨(Cal.discarded · (limitRuns (s.movedVals p) s.acq[p].cal.atLimit) s.updateP), _, rfl, ht ▸ hj, ht ▸ hm, fun _ c => ⟨rfl, rfl, rfl, rfl, rfl⟩, fun hf => ?_⟩
    rw [hb] at hf
    cases hf
  next hb =>
    obtain ⟨w, hw⟩ : ∃ w, w = s.takeFree.formSet p (s.movedVals p) (s.calSteps p) (limitRuns (s.movedVals p) s.acq[p].cal.atLimit) :=
      ⟨_, rfl⟩
    obtain ⟨f, v, hv, hj, hf⟩ := State.formSet_parts _ _ _ hw
    obtain ⟨hl, hm⟩ := State.retireAll_judged (s := w) (p := p) (s.foundBad p spareBad)
    rw [← hw] at ht
    exact ⟨f, v, hv, ht ▸ hl.trans hj, ht ▸ hm, fun ht => absurd ht hb, fun _ c => hf c⟩

end

section

variable {s t u v w : State} {p q : Port}

/-! ## A substitution at a group start (R143, R160) -/

theorem Acq.discard_openedAt (x : Acq) (gone : AcqRec → Bool) :
    (x.discard gone).records.map (·.openedAt) = (x.records.filter fun r => !gone r).map (·.openedAt) := by
  have h (l : List AcqRec) (a : List AcqRec × Vector Bool 4) :
      ((l.foldl (fun (a : List AcqRec × Vector Bool 4) r =>
        let gap := (a.2.toList[r.tag.pleat]?).getD false
        if gone r then (a.1, setPleat a.2 r.tag.pleat true)
        else (a.1 ++ [{ r with afterGap := r.afterGap || gap }], setPleat a.2 r.tag.pleat false)) a).1).map (·.openedAt) =
      a.1.map (·.openedAt) ++ (l.filter fun r => !gone r).map (·.openedAt) := by
    induction l generalizing a with
    | nil => simp
    | cons r l ih =>
      rw [List.foldl_cons, ih]
      cases hg : gone r <;> simp [hg]
  exact h x.records ([], Vector.replicate 4 false)

/-- Shots dropped as substitution are counted, and the queue stands (R282). -/
theorem State.dropShots_counts (hit : List AcqRec) (h : t = hit.foldl (fun s r => s.dropShot p r.tag 2) s) : t.acq = s.acq ∧
    t.fab.ports[p].counts = upd s.fab.ports[p].counts 2 (· + BitVec.ofNat 64 hit.length) ∧ t.Admits s p := by
  induction hit generalizing s with
  | nil =>
    rw [h]
    exact ⟨rfl, (upd_of_fixed (BitVec.add_zero _)).symm, .rfl⟩
  | cons r l ih =>
    obtain ⟨v, hv⟩ : ∃ v, v = s.dropShot p r.tag 2 := ⟨_, rfl⟩
    obtain ⟨h1, h2, h3⟩ := ih (s := v) (by rw [h, hv]; rfl)
    obtain ⟨k1, k2⟩ := hv ▸ s.dropShot_counts (p := p) r.tag 2
    refine ⟨h1.trans k1, ?_, h3.trans (hv ▸ State.dropShot_admits ..)⟩
    rw [h2, k2, upd_upd]
    congr 1
    funext n
    rw [List.length_cons, Nat.add_comm, BitVec.ofNat_add, BitVec.add_assoc]
    rfl

/-- A substitution sets spares and who serves, and nothing else. -/
def Acq.substitute (x : Acq) (f : Fin 4 × Fin 5) : Acq :=
  match x.slotOf f.1 f.2.val with
  | some k => { x with serving := x.serving.set f.1 (x.serving[f.1].set k 4), spare := x.spare.set f.1 2 }
  | none => x

theorem State.setAcq_setAcq (f g : Acq → Acq) : (s.setAcq p f).setAcq p g = s.setAcq p fun x => g (f x) :=
  congrArg (fun x => { s with acq := x }) (upd_upd s.acq p f g)

theorem State.substitutes_eq (l : List (Fin 4 × Fin 5)) :
    l.foldl (fun s f => s.substitute p f.1 f.2) s = s.setAcq p fun x => l.foldl Acq.substitute x := by
  induction l generalizing s with
  | nil => exact (congrArg (fun x => { s with acq := x }) (upd_of_fixed (v := s.acq) (i := p) (f := id) rfl) :).symm
  | cons f l ih =>
    rw [List.foldl_cons, ih]
    exact State.setAcq_setAcq (Acq.substitute · f) (l.foldl Acq.substitute ·)

theorem Acq.substitutes_kept (l : List (Fin 4 × Fin 5)) (x : Acq) : l.foldl Acq.substitute x =
    { x with serving := (l.foldl Acq.substitute x).serving, spare := (l.foldl Acq.substitute x).spare } := by
  induction l generalizing x with
  | nil => rfl
  | cons f l ih =>
    rw [List.foldl_cons, ih]
    unfold Acq.substitute
    split <;> rfl

/-- The queue without the records that straddle a substitution (R143, R160). -/
def Acq.straddled (x : Acq) (gone : AcqRec → Bool) (n : Nat) : Acq :=
  { x.discard gone with substDrops := x.substDrops + BitVec.ofNat 32 n, pendingSubst := [] }

/-- Records from instant `g` on name the slices that serve. -/
def Acq.relabel (y : Acq) (g : Nat) : Acq :=
  { y with records := y.records.map fun r => if g ≤ r.openedAt then { r with serving := y.serving } else r }

/-- The queue once the spares serve. -/
def Acq.respared (x : Acq) (l : List (Fin 4 × Fin 5)) (g : Nat) : Acq := (l.foldl Acq.substitute x).relabel g

theorem Acq.respared_kept (x : Acq) (l : List (Fin 4 × Fin 5)) (g : Nat) :
    (x.respared l g).records.map (·.openedAt) = x.records.map (·.openedAt) ∧
    x.respared l g =
      { x with
        records := (x.respared l g).records, serving := (l.foldl Acq.substitute x).serving
        spare := (l.foldl Acq.substitute x).spare } := by
  obtain ⟨y, hy⟩ : ∃ y, y = l.foldl Acq.substitute x := ⟨_, rfl⟩
  have hk := Acq.substitutes_kept l x
  rw [Acq.respared, ← hy]
  rw [← hy] at hk
  have hr : y.records = x.records := by rw [hk]
  refine ⟨?_, ?_⟩
  · simp only [Acq.relabel, List.map_map, hr]
    refine List.map_congr_left fun r _ => ?_
    simp only [Function.comp_apply]
    split <;> rfl
  · rw [Acq.relabel, hk]

theorem exec_sliceSubstitution {dt g : Nat} (hu : u = s.elapse dt) (hg : u.sht[p].lastStart = some g) (ha : u.acqOn p = true)
    (hs : u.acq[p].pendingSubst ≠ []) (hp : u.acq[p].pendingAt ≤ g) {hit : List AcqRec} {gone : AcqRec → Bool}
    (hgone : gone = fun r => decide (r.openedAt < g) && decide (g < r.openedAt + u.listenP p))
    (hhit : hit = u.acq[p].records.filter gone)
    (hv : v = hit.foldl (fun s r => s.dropShot p r.tag 2) (u.setAcq p fun x => x.straddled gone hit.length)) :
    exec (.sliceSubstitution dt p) s = .next (((v.setAcq p fun x => x.respared u.acq[p].pendingSubst g)).startAcquire p) := by
  have hc : (u.acqOn p && !u.acq[p].pendingSubst.isEmpty && decide (u.acq[p].pendingAt ≤ g)) = true := by
    rw [ha, decide_eq_true hp, List.isEmpty_eq_false_iff.mpr hs]
    rfl
  have hw : (v.setAcq p fun x => u.acq[p].pendingSubst.foldl Acq.substitute x).setAcq p (·.relabel g) =
      v.setAcq p fun x => x.respared u.acq[p].pendingSubst g := State.setAcq_setAcq ..
  rw [← hw, hv, hhit, hgone]
  simp only [exec, execSliceSubstitution, ← hu, hg]
  rw [if_pos hc, State.substitutes_eq]
  rfl

/-- An update that is not short, as it stands after its judgement (R155, R160). -/
theorem fullUpdate_spec {d dt : Nat} {spareBad : List (Fin 4 × Nat)} (hd : u.acq[p].cal.due = some d)
    (e : exec (.calUpdate dt ⟨p, spareBad⟩) s = .next (u.fullUpdate p spareBad)) :
    let c := u.acq[p].cal
    let ns := u.calSteps p
    let m := if c.phaseUpdates < u.acquireUpdates then 64 else 1
    let vals := (c.vals.zip ns).zipIdx.map fun e => moveCorrection m e.2 e.1.1 e.1.2
    let bad := u.badSlices p (limitRuns vals c.atLimit) false spareBad
    ∃ t, exec (.calUpdate dt ⟨p, spareBad⟩) s = .next t ∧
      OnlyReports t { u with acq := t.acq, free := t.free } ∧ (∀ q, q ≠ p → t.acq[q] = u.acq[q]) ∧
      t.acq[p].records = u.acq[p].records ∧ t.acq[p].cal.acc = {} ∧
      (∀ b ∈ bad, t.acq[p].retired.getLsbD (5 * b.1.val + b.2.1.val) = true) ∧
      ((bad.any fun b => (u.acq[p].slotOf b.1 b.2.1.val).isSome) = true → t.acq[p].cal.num = c.num ∧ t.acq[p].cal.vals = c.vals ∧
        t.acq[p].cal.updates = c.updates ∧ t.acq[p].cal.due = some (d + u.updateP)) ∧
      ((bad.any fun b => (u.acq[p].slotOf b.1 b.2.1.val).isSome) = false → t.acq[p].cal.num = (c.num + 1) % 65536 ∧
        t.acq[p].cal.prev = some (c.num, c.vals) ∧ t.acq[p].cal.vals = vals ∧ t.acq[p].cal.updates = c.updates + 1 ∧
        t.acq[p].cal.lastTime = u.devTime ∧ t.acq[p].cal.due = some (u.now + u.updateP) ∧ t.acq[p].cal.shortRun = 0 ∧
        ∀ i v, t.acq[p].cal.vals[i]? = some v → v.natAbs ≤ calRange i) := by
  intro c ns m vals bad
  obtain ⟨t, ht⟩ : ∃ t, t = u.fullUpdate p spareBad := ⟨_, rfl⟩
  obtain ⟨f, v, hv, hj, hbad, hkeep, hform⟩ := State.fullUpdate_parts ht
  obtain ⟨hr, ho⟩ := hj.reports _ hv
  have hq : v.acq[p] = { u.acq[p] with cal := f u.acq[p].cal } := hv ▸ State.setAcq_same _
  have hk := hj.kept
  rw [hq] at hk
  rw [← ht] at e
  have hfree : t.free = u.takeFree.free := (congrArg State.free hr :)
  have hvals (i : Nat) (x : Int) (h : (u.movedVals p)[i]? = some x) : x.natAbs ≤ calRange i := moved_range _ _ i x h
  refine ⟨t, e, ?_, ho, by rw [hk], ?_, hbad, fun h => ?_, fun h => ?_⟩
  · rw [hfree]
    exact hr
  · rw [hk]
    cases h : ((u.foundBad p spareBad).any fun b => (u.acq[p].slotOf b.1 b.2.1.val).isSome) with
    | true => exact (hkeep h _).2.2.2.2
    | false => exact (hform h _).2.2.2.2.2.1
  · obtain ⟨h1, h2, h3, h4, -⟩ := hkeep h u.acq[p].cal
    rw [hd] at h4
    rw [hk]
    exact ⟨h1, h2, h3, h4⟩
  · obtain ⟨h1, h2, h3, h4, h5, -, h7, h8⟩ := hform h u.acq[p].cal
    rw [hk]
    exact ⟨h2, h3, h1, h5, h4, h8, h7, fun i x hx => hvals i x (h1 ▸ hx)⟩

/-- A substitution at its group start (R160). -/
theorem sliceSubstitution_spec {dt g : Nat} (hu : u = s.elapse dt) (hg : u.sht[p].lastStart = some g) (ha : u.acqOn p = true)
    (hs : u.acq[p].pendingSubst ≠ []) (hp : u.acq[p].pendingAt ≤ g) :
    let hit := u.acq[p].records.filter fun r => decide (r.openedAt < g) && decide (g < r.openedAt + u.listenP p)
    ∃ t, exec (.sliceSubstitution dt p) s = .next t ∧ t.acq[p].pendingSubst = [] ∧ t.acq[p].cal.phaseUpdates = 0 ∧
      t.acq[p].cal.acc = {} ∧ t.acq[p].cal.vals = u.acq[p].cal.vals ∧
      t.acq[p].cal.converged = (u.acq[p].cal.converged && decide (u.acquireUpdates = 0)) ∧
      t.acq[p].records.map (·.openedAt) =
        (u.acq[p].records.filter fun r => !(decide (r.openedAt < g) && decide (g < r.openedAt + u.listenP p))).map (·.openedAt) ∧
      t.acq[p].substDrops = u.acq[p].substDrops + BitVec.ofNat 32 hit.length ∧
      t.fab.ports[p].counts = upd u.fab.ports[p].counts 2 (· + BitVec.ofNat 64 hit.length) ∧
      (∀ l sl k, u.acq[p].pendingSubst = [(l, sl)] → u.acq[p].slotOf l sl.val = some k →
        (t.acq[p].serving[l])[k] = 4 ∧ t.acq[p].spare[l] = 2) ∧
      (∀ q, q ≠ p → t.acq[q] = u.acq[q]) ∧ t.opt = u.opt ∧ t.tiu = u.tiu ∧ t.phs = u.phs ∧ t.evt = u.evt ∧ t.sup = u.sup ∧
      t.ControlKept u := by
  intro hit
  obtain ⟨gone, hgone⟩ : ∃ gone : AcqRec → Bool, gone = fun r => decide (r.openedAt < g) && decide (g < r.openedAt + u.listenP p) :=
    ⟨_, rfl⟩
  have hhit : hit = u.acq[p].records.filter gone := by rw [hgone]
  clear_value hit
  obtain ⟨a, hadef⟩ : ∃ a, a = u.setAcq p fun x => x.straddled gone hit.length := ⟨_, rfl⟩
  obtain ⟨v, hv⟩ : ∃ v, v = hit.foldl (fun s r => s.dropShot p r.tag 2) a := ⟨_, rfl⟩
  have e := exec_sliceSubstitution hu hg ha hs hp hgone hhit (hadef ▸ hv)
  obtain ⟨hacq, hcounts, hadm⟩ := State.dropShots_counts hit hv
  have hvq : v.acq[p] = u.acq[p].straddled gone hit.length := by rw [hacq, hadef, State.setAcq_same]
  obtain ⟨b, hb⟩ : ∃ b, b = v.setAcq p fun x => x.respared u.acq[p].pendingSubst g := ⟨_, rfl⟩
  have hbq : b.acq[p] = (u.acq[p].straddled gone hit.length).respared u.acq[p].pendingSubst g := by rw [hb, State.setAcq_same, hvq]
  have hall : (b.startAcquire p).Admits u p :=
    (State.setAcq_admits _).trans (hb ▸ (State.setAcq_admits _).trans (hadm.trans (hadef ▸ State.setAcq_admits _)))
  obtain ⟨hopen, hkept⟩ := (u.acq[p].straddled gone hit.length).respared_kept u.acq[p].pendingSubst g
  have hcfg : b.acquireUpdates = u.acquireUpdates := by
    have h : b.cfg = u.cfg := hall.sequenced.cfg
    simp only [State.acquireUpdates, State.calRec, State.rec?_of_cfg h]
  rw [← hb] at e
  obtain ⟨t, ht⟩ : ∃ t, t = b.startAcquire p := ⟨_, rfl⟩
  have hq : t.acq[p] = { b.acq[p] with cal :=
      { b.acq[p].cal with
        phaseUpdates := 0, acc := {}, converged := b.acq[p].cal.converged && b.acquireUpdates == 0
        calm := if b.acquireUpdates = 0 then b.acq[p].cal.calm else 0 } } := ht ▸ State.setAcq_same _
  have hf : t.fab.ports[p].counts = v.fab.ports[p].counts := by rw [ht, hb]; rfl
  have hcal : b.acq[p].cal = u.acq[p].cal ∧ b.acq[p].pendingSubst = [] ∧
      b.acq[p].substDrops = u.acq[p].substDrops + BitVec.ofNat 32 hit.length := by
    rw [hbq, hkept]
    exact ⟨rfl, rfl, rfl⟩
  have hrec : b.acq[p].records.map (·.openedAt) = (u.acq[p].records.filter fun r => !gone r).map (·.openedAt) := by
    rw [hbq, hopen]
    exact Acq.discard_openedAt _ gone
  have hserve (l : Fin 4) (sl : Fin 5) (k : Fin 4) (hone : u.acq[p].pendingSubst = [(l, sl)]) (hk : u.acq[p].slotOf l sl.val = some k) :
      (b.acq[p].serving[l])[k] = 4 ∧ b.acq[p].spare[l] = 2 := by
    have hsub : (u.acq[p].straddled gone hit.length).slotOf l sl.val = some k := hk
    rw [hbq, hkept, hone]
    simp only [List.foldl_cons, List.foldl_nil, Acq.substitute, hsub]
    simp
  rw [← ht] at e hall
  have hfr := hall.frame
  subst hgone
  refine ⟨t, e, by rw [hq, hcal.2.1], by rw [hq], by rw [hq], by rw [hq, hcal.1], ?_, by rw [hq]; exact hrec, by rw [hq, hcal.2.2], ?_,
    fun l sl k hone hk => by rw [hq]; exact hserve l sl k hone hk, fun q hq => (hall.others q hq).2.1,
    hall.sequenced.opt, hall.sequenced.tiu, (congrArg State.phs hfr :), (congrArg State.evt hfr :), (congrArg State.sup hfr :),
    hall.sequenced.control⟩
  · rw [hq, hcal.1, hcfg]
    rfl
  · rw [hf, hcounts, hadef]
    rfl

end

/-- Settles O28: an update goes by its four branches, each that judges slices by `State.Judged`; a substitution drops the records
that straddle it, then sets who serves. -/
theorem calibrationUpdates : Obligations.CalibrationUpdates := by
  refine ⟨fun s u dt d p spareBad hu hd => ⟨fun h => ?_, fun h hc => ?_, fun h hc => ⟨fun hp => ?_, fun hp hs => ?_, fun hp hs => ?_⟩⟩,
    fun s u dt g p hu hg ha hs hp => ?_⟩
  · simp only [exec, execCalUpdate, ← hu, hd]
    rw [if_pos h]
  · simp only [exec, execCalUpdate, ← hu, hd]
    rw [if_neg (Nat.not_lt.mpr h), if_pos (by rw [hc]; rfl)]
  · simp only [exec, execCalUpdate, ← hu, hd]
    rw [if_neg (Nat.not_lt.mpr h), if_neg (by rw [hc]; decide), if_pos (by simpa using hp)]
  · have e : exec (.calUpdate dt ⟨p, spareBad⟩) s = .next (u.shortUpdate p) := by
      simp only [exec, execCalUpdate, ← hu, hd]
      rw [if_neg (Nat.not_lt.mpr h), if_neg (by rw [hc]; decide), if_neg (by rw [hp]; decide), if_pos hs]
    obtain ⟨t, ht⟩ : ∃ t, t = u.shortUpdate p := ⟨_, rfl⟩
    obtain ⟨v, hv, hj, hw⟩ := State.shortUpdate_parts ht
    obtain ⟨hr, ho⟩ := hj.reports _ hv
    have hq : v.acq[p] = { u.acq[p] with cal := u.shortCal p u.acq[p].cal } := hv ▸ State.setAcq_same _
    have hk := hj.kept
    rw [hq] at hk
    rw [← ht] at e
    have hdue : (u.shortCal p u.acq[p].cal).due = some (d + u.updateP) := by rw [State.shortCal, hd]; rfl
    refine ⟨t, e, hr, ho, by rw [hk], by rw [hk]; rfl, by rw [hk]; rfl, by rw [hk]; rfl, by rw [hk]; rfl, by rw [hk]; rfl,
      by rw [hk]; exact hdue, fun hrun => ⟨?_, hw hrun⟩⟩
    rw [hk]
    show (u.acq[p].cal.starved || decide (u.acq[p].cal.shortRun + 1 ≥ 16)) = true
    rw [decide_eq_true (by omega), Bool.or_true]
  · have e : exec (.calUpdate dt ⟨p, spareBad⟩) s = .next (u.fullUpdate p spareBad) := by
      simp only [exec, execCalUpdate, ← hu, hd]
      rw [if_neg (Nat.not_lt.mpr h), if_neg (by rw [hc]; decide), if_neg (by rw [hp]; decide), if_neg (by rw [hs]; decide)]
    exact fullUpdate_spec hd e
  · exact sliceSubstitution_spec hu hg ha hs hp

end Sys2Proof.Machine

/-! SUPPORT. Raman temperature and the supervisory converter: records, offsets, updates, profiles, holds and conversions. -/

namespace Sys2Proof.Machine

section

variable {s t u v w : State} {p q : Port}

/-! ## Common forms: a recorded warning, and the port's Raman state -/

theorem State.recordWarn_hushed (c : Bool) (r : BbxRec) (code value : U32) (holds : Bool) (place : Nat) :
    ((if c then s else s.record r).warn code value holds place).hushed = s.hushed :=
  (State.warn_hushed_at ..).trans (hushed_ite _ _ _ _ rfl (State.record_hushed ..))

theorem State.recordWarn_warned (ha : s.hatbandActs = true) (c : Bool) (r : BbxRec) (code value : U32) (holds : Bool) (place : Nat) :
    ((if c then s else s.record r).warn code value holds place).warned code = true := by
  refine State.warn_warned _ _ _ _ ?_
  split
  · exact ha
  · rw [State.record_hatbandActs, ha]

theorem State.setDts_same (f : Dts → Dts) : (s.setDts p f).dts[p] = f s.dts[p] := by
  rw [State.setDts_dts, upd_get, if_pos rfl]

theorem State.setDts_other (f : Dts → Dts) (h : q ≠ p) : (s.setDts p f).dts[q] = s.dts[q] := by
  rw [State.setDts_dts, upd_get, if_neg (Ne.symm h)]

/-! ## A Raman record closes (R205, R206, R209 to R212) -/

/-- The Raman state after the oldest record has closed: that record gone, counted, its launch the batt's last, the lanes' feedback. -/
structure Dts.ClosesTo (d x : Dts) (r : RamanRec) (rest : List RamanRec) (gains : Vector Nat 2) : Prop where
  recs : d.recs = rest
  records : d.records = x.records + 1
  acc : d.acc.records = x.acc.records + 1 ∧ d.acc.lastLaunch = r.tag.launchTime
  gains : d.gains = gains

/-- The feedback codes after a record (R206). -/
def State.gainsAfter (s : State) (p : Port) (r : RamanRec) (as st : List RamanSample) : Vector Nat 2 :=
  let fl := (#v[fitSamples (s.nTherm p) as, fitSamples (s.nTherm p) st] : Vector _ 2).map (s.laneFlags p)
  Vector.ofFn fun b => closedGain (s.bandGain p (if b = 0 then .as else .st) == 3) fl[b].2.1 s.dts[p].raise[b] r.gains[b] s.dts[p].gains[b]

theorem State.gainsAfter_get (r : RamanRec) (as st : List RamanSample) (i : Fin 2) : (s.gainsAfter p r as st)[i] =
    closedGain (s.bandGain p (if i = 0 then .as else .st) == 3)
      (s.laneFlags p (fitSamples (s.nTherm p) (if i = 0 then as else st))).2.1 s.dts[p].raise[i] r.gains[i] s.dts[p].gains[i] := by
  have h : (Fin.mk 0 (by decide) : Fin 2) = 0 := rfl
  obtain ⟨i, hi⟩ := i
  match i, hi with
  | 0, _ => simp [State.gainsAfter]
  | 1, _ => simp [State.gainsAfter]

/-- Samples of a record that the seam has lost (R281). -/
def lostSamples (n : Nat) (as st : List RamanSample) : Nat := ((as.take n).filter (·.lost)).length + ((st.take n).filter (·.lost)).length

theorem exec_ramanRecordClose {dt : Nat} {as st : List RamanSample} {r : RamanRec} {rest : List RamanRec} {b : Int} (hu : u = s.elapse dt)
    (hr : u.dts[p].recs = r :: rest) (hon : u.ramanOn p = true) (hb : u.dts[p].boundary = some b)
    (hearly : u.dts[p].closing = true → u.extOf r.tag.launchTime < b) (hc : r.closesAt ≤ u.now) (hk : u.slotsKnown p r = true) :
    ∃ (f : Dts → Dts) (v : State) (z : Nat), (∀ x, (f x).ClosesTo { x with acc := u.dts[p].acc } r rest (u.gainsAfter p r as st)) ∧
      v = (u.setDts p f).setDrop p (fun x =>
        { x with ramanLost := x.ramanLost + BitVec.ofNat 64 (lostSamples (u.nTherm p) as st) }) ∧
      exec (.ramanRecordClose dt p as st) s = .next (if v.hasDas p then v
        else v.evtEnd p 2 r.tag.group 0 1 0 r.tag.launchTime (some z)) := by
  have hwait : (u.dts[p].closing && decide (b ≤ u.extOf r.tag.launchTime)) = false := by
    cases h : u.dts[p].closing with
    | false => rfl
    | true => rw [decide_eq_false (by have := hearly h; omega)]; rfl
  simp only [exec, execRamanRecordClose, ← hu, hr, hb]
  rw [if_neg (by rw [hon, hwait, hk, decide_eq_false (by omega)]; decide)]
  refine ⟨_, _, _, ?_, rfl, rfl⟩
  intro x
  exact ⟨rfl, rfl, ⟨rfl, rfl⟩, rfl⟩

end

section

variable {s t u v w : State} {p q : Port}

theorem State.evtEnd_parts (step : Nat) (group : U48) (k n : Nat) (j : Int) (time : U64) (e : Option Nat)
    (h : t = s.evtEnd p step group k n j time e) : t.Sampled s ∧ t.dts = s.dts ∧ t.phs = s.phs ∧ t.sup = s.sup ∧ t.fab.ports = s.fab.ports := by
  subst h
  refine ⟨State.evtEnd_sampled .., by simp, by simp, by simp, ?_⟩
  exact (congrArg (fun x : State => x.fab.ports) (State.evtEnd_sampled (s := s) (p := p) step group k n j time e).frame :)

/-- A Raman record that closes (R206, R209 to R212, R281). -/
theorem ramanRecordClose_spec {dt : Nat} {as st : List RamanSample} {r : RamanRec} {rest : List RamanRec} {b : Int} (hu : u = s.elapse dt)
    (hr : u.dts[p].recs = r :: rest) (hon : u.ramanOn p = true) (hb : u.dts[p].boundary = some b)
    (hearly : u.dts[p].closing = true → u.extOf r.tag.launchTime < b) (hc : r.closesAt ≤ u.now) (hk : u.slotsKnown p r = true) :
    ∃ t, exec (.ramanRecordClose dt p as st) s = .next t ∧
      t.dts[p].ClosesTo u.dts[p] r rest (u.gainsAfter p r as st) ∧
      t.fab.ports[p].ramanLost = u.fab.ports[p].ramanLost + BitVec.ofNat 64 (lostSamples (u.nTherm p) as st) ∧
      (∀ q, q ≠ p → t.dts[q] = u.dts[q]) ∧ t.opt = u.opt ∧ t.sht = u.sht ∧ t.acq = u.acq ∧ t.phs = u.phs ∧ t.sup = u.sup ∧
      t.tiu = u.tiu ∧ t.ControlKept u := by
  obtain ⟨f, v, z, hf, hv, e⟩ := exec_ramanRecordClose (as := as) (st := st) hu hr hon hb hearly hc hk
  have hvp : v.dts[p].ClosesTo u.dts[p] r rest (u.gainsAfter p r as st) := by
    have h : v.dts[p] = f u.dts[p] := by rw [hv]; exact State.setDts_same f
    rw [h]
    exact hf _
  have hvo (q : Port) (hq : q ≠ p) : v.dts[q] = u.dts[q] := by rw [hv]; exact State.setDts_other f hq
  have hvl : v.fab.ports[p].ramanLost = u.fab.ports[p].ramanLost + BitVec.ofNat 64 (lostSamples (u.nTherm p) as st) := by
    rw [hv, State.setDrop_same]
    rfl
  have hvk : v.opt = u.opt ∧ v.sht = u.sht ∧ v.acq = u.acq ∧ v.phs = u.phs ∧ v.sup = u.sup ∧ v.tiu = u.tiu ∧ v.ControlKept u := by
    rw [hv]
    exact ⟨rfl, rfl, rfl, rfl, rfl, rfl, .rfl⟩
  split at e
  · exact ⟨v, e, hvp, hvl, hvo, hvk⟩
  · obtain ⟨t, ht⟩ : ∃ t, t = v.evtEnd p 2 r.tag.group 0 1 0 r.tag.launchTime (some z) := ⟨_, rfl⟩
    obtain ⟨hs, hd, hp, hsup, hfab⟩ := State.evtEnd_parts _ _ _ _ _ _ _ ht
    obtain ⟨h1, h2, h3, h4, h5, h6, h7⟩ := hvk
    rw [← ht] at e
    exact ⟨t, e, by rwa [hd], by rwa [hfab], fun q hq => by rw [hd, hvo q hq], hs.opt.trans h1, hs.sht.trans h2, hs.acq.trans h3,
      hp.trans h4, hsup.trans h5, hs.tiu.trans h6, hs.control.trans h7⟩

/-! ## Offsets (R207) -/

/-- A lane of either port has an offset beyond ±512 LSB. -/
def State.offsetBeyond (s : State) (l : Port × Fin 2) : Bool := s.dts[l.1].offsets[l.2].any fun v => decide (v.natAbs > 512)

theorem State.offsetBeyond_false {l : Port × Fin 2} : s.offsetBeyond l = false ↔ ∀ x ∈ s.dts[l.1].offsets[l.2], x.natAbs ≤ 512 := by
  simp [State.offsetBeyond]

theorem mem_lanes (l : Port × Fin 2) : l ∈ ([(0, 0), (0, 1), (1, 0), (1, 1)] : List (Port × Fin 2)) := by
  revert l
  decide

theorem State.offsetsDue_of (h : u.hb.doms[(7 : Fin 20)].st = .attempt ∨ (u.runs 7 = true ∧ (u.sht[p].launched = false ∨
    (u.mayEmit p = false ∧ ∃ d, u.darkFrom[p] = some d ∧ d + 10 * msP ≤ u.now)))) : u.offsetsDue p = true := by
  rw [State.offsetsDue, Bool.or_eq_true]
  refine h.imp (fun h => by rw [h]; rfl) fun ⟨hruns, h⟩ => ?_
  rw [hruns, Bool.true_and, Bool.or_eq_true]
  refine h.imp (fun h => by rw [h]; rfl) fun ⟨hm, d, hdark, hlate⟩ => ?_
  rw [hm, hdark, Option.map_some, Option.getD_some, decide_eq_true hlate]
  rfl

/-- Offsets that were measured: warned of when one lies beyond its range, else the warning's condition has ended (R207). -/
theorem exec_ramanOffsetMeasure {dt : Nat} {as st : List Int} (hu : u = s.elapse dt) (hl : u.live = true) (hp : u.hasRaman p = true)
    (hd : u.offsetsDue p = true) (hv : v = u.setDts p fun d =>
      { d with offsets := #v[as.take 3, st.take 3], offsetTime := u.devTime, offsetTemp := d.theta.value }) :
    ∃ t, exec (.ramanOffsetMeasure dt p as st) s = .next t ∧ OnlyReports t v ∧
      (∀ l, v.offsetBeyond l = true → u.hatbandActs = true → t.warned 0x000A0002#32 = true) ∧
      ((∀ l, v.offsetBeyond l = false) → t = v.warnEnded 0x000A0002#32) := by
  have e : exec (.ramanOffsetMeasure dt p as st) s =
      match ([(0, 0), (0, 1), (1, 0), (1, 1)] : List (Port × Fin 2)).find? v.offsetBeyond with
      | some l => .next ((if v.warned 0x000A0002#32 then v
          else v.record (v.bbxRec 0x0040 7 (rmnFault 4) (BitVec.ofNat 32 (2 * l.1.val + l.2.val)) [])).warn 0x000A0002#32
            (BitVec.ofNat 32 (2 * l.1.val + l.2.val)) true)
      | none => .next (v.warnEnded 0x000A0002#32) := by
    simp only [exec, execRamanOffsetMeasure, ← hu]
    rw [if_pos (by rw [hl, hp, hd]; rfl), hv]
    rfl
  have hacts : v.hatbandActs = u.hatbandActs := by rw [hv]; rfl
  split at e
  next l hl' =>
    refine ⟨_, e, State.recordWarn_hushed .., fun _ _ ha => State.recordWarn_warned (hacts.trans ha) .., fun h => ?_⟩
    have := List.find?_some hl'
    rw [h l] at this
    cases this
  next hn =>
    refine ⟨_, e, rfl, fun l h _ => ?_, fun _ => rfl⟩
    exact absurd h (List.find?_eq_none.mp hn l (mem_lanes l))

/-! ## Bias and current (R202, Table 7.11) -/

/-- The port's bias goes off and FD07 is reported, with the reading kept by `f`. -/
theorem biasOff_reported (f : Dts → Dts) (row : Nat) (value : U32) :
    OnlyReports (((u.setDts p f).biasOff p).report 7 (rmnFault row) value)
      { u with dts := upd u.dts p fun d => { f d with biasOff := true } } ∧
    (((u.setDts p f).biasOff p).report 7 (rmnFault row) value).Reported 7 (rmnFault row) value := by
  refine ⟨?_, State.report_reported ..⟩
  have h : (u.setDts p f).biasOff p = { u with dts := upd u.dts p fun d => { f d with biasOff := true } } :=
    (congrArg (fun x => { u with dts := x }) (upd_upd u.dts p f fun d => { d with biasOff := true }) :)
  rw [h]
  exact State.report_hushed ..

end

/-- Settles O31: the record by `ramanRecordClose_spec`, the offsets by the first lane out of range, bias and current by
`biasOff_reported`. -/
theorem ramanFrontEnd : Obligations.RamanFrontEnd := by
  refine ⟨fun s u dt p as st r rest b hu hr hon hb hearly hc hk => ?_, fun s u dt p as st hu hup hp hdue => ?_,
    fun s u dt n p b hu hup hp hruns hoff => ⟨fun hn => ?_, fun hn => ?_⟩⟩
  · obtain ⟨t, e, ⟨h1, h2, ⟨h3, h4⟩, h5⟩, hl, hk⟩ := ramanRecordClose_spec (as := as) (st := st) hu hr hon hb hearly hc hk
    exact ⟨t, e, h1, h2, h3, h4, fun i => by rw [h5]; exact u.gainsAfter_get r as st i, hl, hk⟩
  · intro v
    have hd := State.offsetsDue_of hdue
    obtain ⟨t, e, hr, hw, hn⟩ := exec_ramanOffsetMeasure (v := v) (as := as) (st := st) hu (State.live_of_up hup) hp hd rfl
    have hq : v.dts[p].offsets = #v[as.take 3, st.take 3] := by
      rw [show v.dts[p] = _ from State.setDts_same _]
    refine ⟨t, e, hr, ?_, fun h => hn fun l => State.offsetBeyond_false.mpr (h l.1 l.2)⟩
    rintro ⟨x, hx, h512⟩
    rcases List.mem_append.mp hx with hx | hx
    · refine hw (p, 0) (Bool.eq_true_of_not_eq_false fun hf => ?_)
      have := State.offsetBeyond_false.mp hf x (by dsimp only; rw [hq]; exact hx)
      omega
    · refine hw (p, 1) (Bool.eq_true_of_not_eq_false fun hf => ?_)
      have := State.offsetBeyond_false.mp hf x (by dsimp only; rw [hq]; exact hx)
      omega
  · refine ⟨_, ?_, biasOff_reported (fun d => { d with biasMv := d.biasMv.set (bandIndex b) n }) 1 (BitVec.ofNat 32 n)⟩
    simp only [exec, execApdBiasOutOfRange, ← hu]
    rw [if_pos (by rw [State.live_of_up hup, hp, hruns, hoff, decide_eq_true hn]; rfl)]
  · refine ⟨_, ?_, biasOff_reported (fun d => { d with currentUa := d.currentUa.set (bandIndex b) n }) 2 (BitVec.ofNat 32 n)⟩
    simp only [exec, execApdCurrentHigh, ← hu]
    rw [if_pos (by rw [State.live_of_up hup, hp, hruns, hoff, decide_eq_true hn]; rfl)]

section

variable {s t u v w : State} {p q : Port}

/-! ## Updates of DTS (R206, R210, R211) -/

/-- An update closes at a boundary, and the next opens (R210). -/
def Dts.closedAt (d : Dts) (b step : Int) : Dts :=
  { d with
    closing := true, boundary := some b, next := some (b + step)
    acc := { d.acc with near := d.curNear, far := d.curFar, theta := d.curTheta, opened := d.boundary.getD (b - step) }
    curNear := d.near.open_, curFar := d.far.open_, curTheta := d.theta.open_
    lfOld := d.lf, lfOldSamples := d.lfSamples, lf := [], lfSamples := 0 }

theorem exec_dtsUpdateBoundary {dt : Nat} {x : Int} (hu : u = s.elapse dt) (hon : u.ramanOn p = true) (hn : u.dts[p].next = some x)
    (hx : x ≤ u.extTime) (hc : u.dts[p].closing = false) (hp : u.dts[p].proc = none) : exec (.dtsUpdateBoundary dt p) s =
      .next (u.setDts p fun d => d.closedAt (if u.dtsAnchored p then (u.extTime : Int) - u.extTime % u.updateLsb p else x) (u.updateLsb p)) := by
  simp only [exec, execDtsUpdateBoundary, ← hu, hn, if_pos hx]
  rw [if_pos (by rw [hon, hc, hp]; rfl)]
  rfl

theorem exec_dtsUpdateBoundary_anchored {dt : Nat} (hu : u = s.elapse dt) (hon : u.ramanOn p = true) (hn : u.dts[p].next = none)
    (ha : u.dtsAnchored p = true) (hr : u.tim.runs = true) (hx : (u.extTime : Int) % u.updateLsb p ≤ 641)
    (hc : u.dts[p].closing = false) (hp : u.dts[p].proc = none) : exec (.dtsUpdateBoundary dt p) s =
      .next (u.setDts p fun d => d.closedAt ((u.extTime : Int) - u.extTime % u.updateLsb p) (u.updateLsb p)) := by
  simp only [exec, execDtsUpdateBoundary, ← hu, hn]
  rw [if_pos ⟨ha, hr, hx⟩]
  dsimp only
  rw [if_pos (by rw [hon, hc, hp]; rfl)]
  rfl

/-- The closed update's batt has been taken (R206, R209). -/
structure Dts.Swapped (d x : Dts) : Prop where
  acc : d.acc = {}
  closing : d.closing = false
  recs : d.recs = x.recs
  battRun : d.battRun = x.battRun
  proc : d.proc = x.proc
  emptyUpdates : d.emptyUpdates = x.emptyUpdates

/-- The state after a swap, before the batt is judged. -/
def State.Swaps (v u : State) (p : Port) (c n : Nat) : Prop :=
  OnlyReports v { u with
    dts := v.dts, battCorrected := u.battCorrected + BitVec.ofNat 64 c, battUncorrected := u.battUncorrected + BitVec.ofNat 64 n } ∧
  (∀ q, q ≠ p → v.dts[q] = u.dts[q]) ∧ v.dts[p].Swapped u.dts[p]

/-- The saturation of a closed update (R211): warned of, and nothing of the swap undone. -/
theorem State.Swaps.saturated {a : State} {c n : Nat} (h : a.Swaps u p c n) (b : Prop) [Decidable b] (g : State → State) (x : Bool)
    (code value : U32) (hg : ∀ y, (g y).hushed = y.hushed) :
    (if b then ((if x then a else g a).setDts p fun d => { d with saturated := true }).warn code value true else a).Swaps u p c n := by
  split
  next =>
    obtain ⟨m, hm⟩ : ∃ m, m = if x then a else g a := ⟨_, rfl⟩
    have hga : m.hushed = a.hushed := hm ▸ hushed_ite _ _ _ _ rfl (hg a)
    have hd : m.dts = a.dts := (congrArg State.dts hga :)
    obtain ⟨v, hv⟩ : ∃ v, v = m.setDts p fun d => { d with saturated := true } := ⟨_, rfl⟩
    have hvh : v.hushed = ({ a with dts := v.dts } : State).hushed := by
      rw [hv]
      exact (congrArg (fun y : State => { y with dts := upd y.dts p fun d => { d with saturated := true } }) hga :).trans
        (by rw [State.setDts_dts, hd]; rfl)
    obtain ⟨h1, h2, h3⟩ := h
    rw [← hm, ← hv]
    have hw : OnlyReports (v.warn code value true) v := State.warn_hushed ..
    have hwd : (v.warn code value true).dts = v.dts := (congrArg State.dts hw :)
    have hvp : v.dts[p] = { a.dts[p] with saturated := true } := by rw [hv, State.setDts_same, hd]
    have hvo (q : Port) (hq : q ≠ p) : v.dts[q] = a.dts[q] := by rw [hv, State.setDts_other _ hq, hd]
    have h1' := (congrArg (fun y : State => { y with dts := v.dts }) h1 :)
    refine ⟨?_, fun q hq => ?_, ?_⟩
    · rw [hwd]
      exact hw.trans (hvh.trans h1')
    · rw [hwd, hvo q hq, h2 q hq]
    · rw [hwd, hvp]
      exact ⟨h3.acc, h3.closing, h3.recs, h3.battRun, h3.proc, h3.emptyUpdates⟩
  next => exact h

theorem exec_battSwap {dt c n : Nat} {b : Int} (hu : u = s.elapse dt) (hon : u.ramanOn p = true) (hb : u.dts[p].boundary = some b)
    (hc : u.dts[p].closing = true)
    (hw : (u.dts[p].recs.all fun r => !u.untimed p r.tag && decide (b ≤ u.extOf r.tag.launchTime)) = true) :
    ∃ v : State, v.Swaps u p c n ∧ exec (.battSwap dt p c n) s =
      if n > 16 then
        (if u.dts[p].battRun ≥ 2 then .next ((v.setDts p fun d => { d with battRun := d.battRun + 1 }).report 10 (dtsFault 8) (BitVec.ofNat 32 n))
        else .next ((v.setDts p fun d => { d with battRun := d.battRun + 1 }).record
          ((v.setDts p fun d => { d with battRun := d.battRun + 1 }).bbxRec 0x0040 10 (dtsFault 8) (BitVec.ofNat 32 n) [])))
      else
        (if u.dts[p].acc.records = 0 then
          .next ((v.setDts p fun d => { d with battRun := 0 }).setDts p fun d => { d with emptyUpdates := d.emptyUpdates + 1 })
        else .next ((v.setDts p fun d => { d with battRun := 0 }).setDts p fun d =>
          { d with proc := some { u.dts[p].acc with uncorrectable := n } })) := by
  have hw' : (u.dts[p].recs.any fun r => u.untimed p r.tag || decide (u.extOf r.tag.launchTime < b)) = false := by
    rw [List.any_eq_false]
    intro r hr
    have := List.all_eq_true.mp hw r hr
    simp only [Bool.and_eq_true, Bool.not_eq_true', decide_eq_true_eq] at this
    simp [this.1, this.2]
  simp only [exec, execBattSwap, ← hu, hb]
  rw [if_pos (by rw [hon, hc, hw']; rfl)]
  refine ⟨_, ?_, rfl⟩
  refine State.Swaps.saturated ?_ _ (fun y => y.record _) _ _ _ fun y => State.record_hushed y _
  refine ⟨rfl, fun q hq => State.setDts_other _ hq, ?_⟩
  rw [State.setDts_same]
  exact ⟨rfl, rfl, rfl, rfl, rfl, rfl⟩

theorem State.Swaps.frame {c n : Nat} (h : v.Swaps u p c n) (f : Dts → Dts) (hw : w.hushed = (v.setDts p f).hushed) :
    OnlyReports w { u with
      dts := w.dts, battCorrected := u.battCorrected + BitVec.ofNat 64 c, battUncorrected := u.battUncorrected + BitVec.ofNat 64 n } ∧
    (∀ q, q ≠ p → w.dts[q] = u.dts[q]) ∧ w.dts[p] = f v.dts[p] := by
  have hd : w.dts = (v.setDts p f).dts := (congrArg State.dts hw :)
  obtain ⟨h1, h2, -⟩ := h
  have h1' := (congrArg (fun y : State => { y with dts := w.dts }) h1 :)
  have hw' : w.hushed = ({ v with dts := w.dts } : State).hushed := by
    rw [hd]
    exact hw
  refine ⟨hw'.trans h1', fun q hq => ?_, ?_⟩
  · rw [hd, State.setDts_other f hq, h2 q hq]
  · rw [hd, State.setDts_same]

theorem State.setDts_setDts (f g : Dts → Dts) : (s.setDts p f).setDts p g = s.setDts p fun d => g (f d) :=
  (congrArg (fun x => { s with dts := x }) (upd_upd s.dts p f g) :)

/-- A batt that has entered whole goes to processing, or is counted as empty (R210, R211). -/
theorem battSwap_good {dt c n : Nat} {b : Int} (hu : u = s.elapse dt) (hon : u.ramanOn p = true) (hb : u.dts[p].boundary = some b)
    (hc : u.dts[p].closing = true) (hn : n ≤ 16)
    (hw : (u.dts[p].recs.all fun r => !u.untimed p r.tag && decide (b ≤ u.extOf r.tag.launchTime)) = true) :
    ∃ (t : State) (d : Dts), exec (.battSwap dt p c n) s = .next t ∧ OnlyReports t { u with
        dts := t.dts, battCorrected := u.battCorrected + BitVec.ofNat 64 c, battUncorrected := u.battUncorrected + BitVec.ofNat 64 n } ∧
      (∀ q, q ≠ p → t.dts[q] = u.dts[q]) ∧ d.Swapped u.dts[p] ∧
      t.dts[p] = (if u.dts[p].acc.records = 0 then { d with battRun := 0, emptyUpdates := d.emptyUpdates + 1 }
        else { d with battRun := 0, proc := some { u.dts[p].acc with uncorrectable := n } }) := by
  obtain ⟨v, hv, e⟩ := exec_battSwap (n := n) (c := c) hu hon hb hc hw
  rw [if_neg (by omega), State.setDts_setDts, State.setDts_setDts] at e
  split at e
  next h =>
    obtain ⟨h1, h2, h3⟩ := hv.frame (w := v.setDts p fun d => { d with battRun := 0, emptyUpdates := d.emptyUpdates + 1 }) _ rfl
    exact ⟨_, v.dts[p], e, h1, h2, hv.2.2, by rw [if_pos h]; exact h3⟩
  next h =>
    obtain ⟨h1, h2, h3⟩ := hv.frame (w := v.setDts p fun d =>
      { d with battRun := 0, proc := some { u.dts[p].acc with uncorrectable := n } }) _ rfl
    exact ⟨_, v.dts[p], e, h1, h2, hv.2.2, by rw [if_neg h]; exact h3⟩

/-- A batt with more than 16 uncorrectable entries is withheld, the third in a row reported (Table 7.11). -/
theorem battSwap_bad {dt c n : Nat} {b : Int} (hu : u = s.elapse dt) (hon : u.ramanOn p = true) (hb : u.dts[p].boundary = some b)
    (hc : u.dts[p].closing = true) (hn : 16 < n)
    (hw : (u.dts[p].recs.all fun r => !u.untimed p r.tag && decide (b ≤ u.extOf r.tag.launchTime)) = true) :
    ∃ (t : State) (d : Dts), exec (.battSwap dt p c n) s = .next t ∧ OnlyReports t { u with
        dts := t.dts, battCorrected := u.battCorrected + BitVec.ofNat 64 c, battUncorrected := u.battUncorrected + BitVec.ofNat 64 n } ∧
      (∀ q, q ≠ p → t.dts[q] = u.dts[q]) ∧ d.Swapped u.dts[p] ∧ t.dts[p] = { d with battRun := d.battRun + 1 } ∧
      (2 ≤ u.dts[p].battRun → t.Reported 10 (dtsFault 8) (BitVec.ofNat 32 n)) := by
  obtain ⟨v, hv, e⟩ := exec_battSwap (n := n) (c := c) hu hon hb hc hw
  rw [if_pos hn] at e
  obtain ⟨a, ha⟩ : ∃ a, a = v.setDts p fun d => { d with battRun := d.battRun + 1 } := ⟨_, rfl⟩
  rw [← ha] at e
  split at e
  next =>
    obtain ⟨h1, h2, h3⟩ := hv.frame (w := a.report 10 (dtsFault 8) (BitVec.ofNat 32 n)) _ (by rw [State.report_hushed, ha])
    exact ⟨_, v.dts[p], e, h1, h2, hv.2.2, h3, fun _ => State.report_reported ..⟩
  next h =>
    obtain ⟨h1, h2, h3⟩ := hv.frame (w := a.record (a.bbxRec 0x0040 10 (dtsFault 8) (BitVec.ofNat 32 n) [])) _
      (by rw [State.record_hushed, ha])
    exact ⟨_, v.dts[p], e, h1, h2, hv.2.2, h3, fun h2 => absurd h2 h⟩

end

/-- Settles O32: the boundary's state is written out, and a swap ends in `battSwap_good` or `battSwap_bad`. -/
theorem dtsUpdatesClose : Obligations.DtsUpdatesClose := by
  intro s u dt c n p hu hon
  refine ⟨fun x hn hx hc hp => ?_, fun hn ha hr hx hc hp => ?_, fun b hb hc hw => ?_⟩
  · obtain ⟨t, ht⟩ : ∃ t, t = u.setDts p fun d =>
      d.closedAt (if u.dtsAnchored p then (u.extTime : Int) - u.extTime % u.updateLsb p else x) (u.updateLsb p) := ⟨_, rfl⟩
    have hq : t.dts[p] = u.dts[p].closedAt _ _ := ht ▸ State.setDts_same _
    refine ⟨t, _, ht ▸ exec_dtsUpdateBoundary hu hon hn hx hc hp, by rw [ht]; rfl, by rw [hq]; rfl, by rw [hq]; rfl, by rw [hq]; rfl,
      rfl, by rw [hq]; rfl, by rw [hq]; rfl, fun q hqp => ht ▸ State.setDts_other _ hqp⟩
  · obtain ⟨t, ht⟩ : ∃ t, t = u.setDts p fun d => d.closedAt ((u.extTime : Int) - u.extTime % u.updateLsb p) (u.updateLsb p) :=
      ⟨_, rfl⟩
    have hq : t.dts[p] = u.dts[p].closedAt _ _ := ht ▸ State.setDts_same _
    exact ⟨t, ht ▸ exec_dtsUpdateBoundary_anchored hu hon hn ha hr hx hc hp, by rw [ht]; rfl, by rw [hq]; rfl, by rw [hq]; rfl⟩
  · rcases Nat.lt_or_ge 16 n with hn | hn
    · obtain ⟨t, d, e, hf, ho, hd, hq, hrep⟩ := battSwap_bad (c := c) hu hon hb hc hn hw
      refine ⟨t, e, hf, ?_⟩
      rw [hq]
      exact ⟨hd.acc, hd.closing, hd.recs, ho, fun h => absurd h (by omega), fun _ => ⟨hd.proc, by rw [← hd.battRun], hrep⟩⟩
    · obtain ⟨t, d, e, hf, ho, hd, hq⟩ := battSwap_good (c := c) hu hon hb hc hn hw
      refine ⟨t, e, hf, ?_⟩
      split at hq
      next hz =>
        rw [hq]
        exact ⟨hd.acc, hd.closing, hd.recs, ho, fun _ => ⟨rfl, fun _ => ⟨by rw [← hd.emptyUpdates], hd.proc⟩, fun h => absurd hz h⟩,
          fun h => absurd h (by omega)⟩
      next hz =>
        rw [hq]
        exact ⟨hd.acc, hd.closing, hd.recs, ho, fun _ => ⟨rfl, fun h => absurd h hz, fun _ => ⟨rfl, hd.emptyUpdates⟩⟩,
          fun h => absurd h (by omega)⟩

section

variable {s t u v w : State} {p q : Port}

/-! ## Profiles (R217 to R226) -/

theorem State.emitDts_hushed (typ product w : Nat) (h : DtsHead) (values : List (List Byte)) (codes : List Nat) :
    (s.emitDts p typ product w h values codes).hushed = s.hushed := by
  unfold State.emitDts
  extract_lets v
  have hv : v.hushed = s.hushed := hushed_foldl _ (fun x r => hushed_ite _ _ _ _ (hushed_foldl _ (fun y q => State.toRoute_hushed ..) _ _) rfl) _ _
  exact hushed_ite _ _ _ _ ((hushed_foldl _ (fun y q => State.toRing_hushed ..) _ _).trans hv) hv

/-- Slow strain takes its sums and its baseline, and emits (R225). -/
theorem State.emitLf_parts (h : DtsHead) (pts : List (Nat × Int)) : ∃ f : Dts → Dts,
    (s.emitLf p h pts).hushed = (s.setDts p f).hushed ∧
    ∀ d, f d = { d with baseline := (f d).baseline, lfOld := (f d).lfOld, lfOldSamples := (f d).lfOldSamples } := by
  unfold State.emitLf
  split
  · refine ⟨id, ?_, fun _ => rfl⟩
    exact (congrArg (fun x : Vector Dts 2 => ({ s with dts := x } : State).hushed) (upd_of_fixed (v := s.dts) (i := p) (f := id) rfl) :).symm
  · extract_lets d np acc base gs v
    exact ⟨_, State.emitDts_hushed .., fun _ => rfl⟩

/-- An expired reading freezes the fit (R221). -/
theorem State.fit_expired {b : Batt} (as st : List Rat) (theta : Rat) (h : b.near.expired = true ∨ b.theta.expired = true) :
    (s.fit p b as st theta).delta = s.dts[p].delta ∧ (s.fit p b as st theta).diffAtt = s.dts[p].diffAtt := by
  have hx : (b.near.expired || b.theta.expired || (s.tracks p && b.far.expired)) = true := by
    rcases h with h | h <;> simp [h]
  unfold State.fit
  extract_lets d keep c
  split
  · rw [if_pos hx]
    exact ⟨rfl, rfl⟩
  · exact ⟨rfl, rfl⟩

theorem exec_dtsProfileDone {dt : Nat} {b : Batt} (hu : u = s.elapse dt) (hb : u.dts[p].proc = some b) (hon : u.ramanOn p = true)
    (hlate : u.formsLf p = true → ∀ e ∈ u.phs[p].expect, ∀ x, u.dts[p].boundary = some x → x ≤ u.extOf e.time) :
    ∃ (f : Dts → Dts) (v : State) (h : DtsHead) (pts : List (Nat × Int)), v.hushed = (u.takeFree.setDts p f).hushed ∧
      exec (.dtsProfileDone dt p) s = .next (v.emitLf p h pts).takeFree ∧
      ∀ d, (f d).proc = none ∧ (f d).profiles = d.profiles + 1 ∧ (f d).lastTime = u.devTime ∧
        (b.near.expired = true ∨ b.theta.expired = true → (f d).delta = u.dts[p].delta ∧ (f d).diffAtt = u.dts[p].diffAtt) ∧
        (f d).rawCount = (if u.dtsRawEvery p ≠ 0 ∧ u.dtsRawEvery p ≤ u.dts[p].rawCount + 1 then 0 else d.rawCount + 1) := by
  have hl : (u.formsLf p && u.phs[p].expect.any fun e => (u.dts[p].boundary.map fun x => decide (u.extOf e.time < x)).getD false) = false := by
    cases hf : u.formsLf p with
    | false => rfl
    | true =>
      rw [Bool.true_and, List.any_eq_false]
      intro e he
      cases hbd : u.dts[p].boundary with
      | none => simp
      | some x =>
        have := hlate hf e he x hbd
        simp [this]
  simp only [exec, execDtsProfileDone, ← hu, hb]
  rw [if_neg (by rw [hon, hl]; decide)]
  refine ⟨?f, _, _, _, ?frame, rfl, ?fields⟩
  case frame =>
    refine (hushed_ite _ _ _ _ (State.emitDts_hushed ..) rfl).trans ?_
    refine (State.emitDts_hushed ..).trans ?_
    refine (hushed_ite _ _ _ _ (State.recordWarn_hushed ..) rfl).trans ?_
    exact rfl
  case fields =>
    intro d
    refine ⟨rfl, rfl, rfl, fun h => State.fit_expired _ _ _ h, ?_⟩
    refine if_congr ?_ rfl rfl
    show (u.dtsRawEvery p != 0 && decide (u.dts[p].rawCount + 1 ≥ u.dtsRawEvery p)) = true ↔ _
    simp

/-- A profile's end (R217 to R221). -/
theorem dtsProfileDone_spec {dt : Nat} {b : Batt} (hu : u = s.elapse dt) (hb : u.dts[p].proc = some b) (hon : u.ramanOn p = true)
    (hlate : u.formsLf p = true → ∀ e ∈ u.phs[p].expect, ∀ x, u.dts[p].boundary = some x → x ≤ u.extOf e.time) :
    ∃ t, exec (.dtsProfileDone dt p) s = .next t ∧ t.dts[p].proc = none ∧ t.dts[p].profiles = u.dts[p].profiles + 1 ∧
      t.dts[p].lastTime = u.devTime ∧ OnlyReports t { u with dts := t.dts, free := t.free } ∧
      (∀ q, q ≠ p → t.dts[q] = u.dts[q]) ∧
      (b.near.expired = true ∨ b.theta.expired = true → t.dts[p].delta = u.dts[p].delta ∧ t.dts[p].diffAtt = u.dts[p].diffAtt) ∧
      t.dts[p].rawCount = (if u.dtsRawEvery p ≠ 0 ∧ u.dtsRawEvery p ≤ u.dts[p].rawCount + 1 then 0 else u.dts[p].rawCount + 1) := by
  obtain ⟨f, v, h, pts, hv, e, hf⟩ := exec_dtsProfileDone hu hb hon hlate
  obtain ⟨g, hg, hgk⟩ := v.emitLf_parts (p := p) h pts
  obtain ⟨w, hw⟩ : ∃ w, w = v.emitLf p h pts := ⟨_, rfl⟩
  rw [← hw] at e hg
  have hwh : w.hushed = ({ u with dts := w.dts, free := w.free } : State).hushed := by
    have hd : w.dts = upd v.dts p g := (congrArg State.dts hg :)
    have hfr : w.free = v.free := (congrArg State.free hg :)
    have hg' : w.hushed = ({ v with dts := w.dts, free := w.free } : State).hushed := by
      rw [hd, hfr]
      exact hg
    exact hg'.trans (congrArg (fun x : State => { x with dts := w.dts, free := w.free }) hv :)
  have hvp : v.dts[p] = f u.dts[p] := by
    rw [show v.dts = (u.takeFree.setDts p f).dts from (congrArg State.dts hv :), State.setDts_same]
    rfl
  have hwp : w.dts[p] = g (f u.dts[p]) := by
    rw [show w.dts = (v.setDts p g).dts from (congrArg State.dts hg :), State.setDts_same, hvp]
  have hwo (q : Port) (hq : q ≠ p) : w.dts[q] = u.dts[q] := by
    rw [show w.dts = (v.setDts p g).dts from (congrArg State.dts hg :), State.setDts_other _ hq,
      show v.dts = (u.takeFree.setDts p f).dts from (congrArg State.dts hv :), State.setDts_other _ hq]
    rfl
  obtain ⟨h1, h2, h3, h4, h5⟩ := hf u.dts[p]
  rw [hgk] at hwp
  have hfree := (congrArg (fun x : State => x.takeFree) hwh :)
  refine ⟨w.takeFree, e, ?_⟩
  show w.dts[p].proc = none ∧ w.dts[p].profiles = _ ∧ w.dts[p].lastTime = _ ∧ OnlyReports w.takeFree _ ∧ (∀ q, q ≠ p → w.dts[q] = _) ∧
    (_ → w.dts[p].delta = _ ∧ w.dts[p].diffAtt = _) ∧ w.dts[p].rawCount = _
  rw [hwp]
  exact ⟨h1, h2, h3, hfree, hwo, h4, h5⟩

/-- A hold that has run out marks its reading and its share of the update (R221). -/
def Dts.expire (d : Dts) (k : Source) (gone : Bool) : Dts :=
  if gone then d.onSource k (fun r => { r with expired := true }) fun a => { a with expired := true } else d

theorem Dts.expire_eq (d : Dts) (k : Source) (gone : Bool) : d.expire k gone =
    d.onSource k (fun r => { r with expired := r.expired || gone }) fun a => { a with expired := a.expired || gone } := by
  cases gone with
  | true => cases k <;> simp [Dts.expire, Dts.onSource]
  | false => cases k <;> simp [Dts.expire, Dts.onSource]

theorem exec_refHoldExpiry {dt : Nat} (hu : u = s.elapse dt) (hl : u.live = true) : exec (.refHoldExpiry dt p) s =
    .next (u.setDts p fun d => ((d.expire .near (u.holdOver p u.dts[p].near)).expire .far (u.holdOver p u.dts[p].far)).expire .theta
      (u.holdOver p u.dts[p].theta)) := by
  simp only [exec, execRefHoldExpiry, ← hu]
  rw [if_pos hl]
  rfl

end

/-- Settles O33: a profile by `dtsProfileDone_spec`; a hold's end marks each reading by `Dts.expire`. -/
theorem profilesAndHolds : Obligations.ProfilesAndHolds := by
  refine fun s u dt p hu => ⟨fun b hb hon hlate => dtsProfileDone_spec hu hb hon hlate, fun hup => ?_⟩
  obtain ⟨t, ht⟩ : ∃ t, t = u.setDts p fun d =>
    ((d.expire .near (u.holdOver p u.dts[p].near)).expire .far (u.holdOver p u.dts[p].far)).expire .theta (u.holdOver p u.dts[p].theta) :=
    ⟨_, rfl⟩
  have hq : t.dts[p] = _ := ht ▸ State.setDts_same _
  simp only [Dts.expire_eq, Dts.onSource] at hq
  refine ⟨t, ht ▸ exec_refHoldExpiry hu (State.live_of_up hup), by rw [ht]; rfl, fun q hqp => ht ▸ State.setDts_other _ hqp, ?_⟩
  rw [hq]
  exact ⟨rfl, rfl, rfl, rfl, rfl, rfl, rfl, rfl⟩

section

variable {s t u v w : State} {p q : Port}

/-! ## Passes of the supervisory converter (R234, R235) -/

/-- A pass begins with the first channel of its sequence. -/
def State.passBegins (s : State) : State :=
  (s.setSup fun x => { x with converting := true, passAt := s.now }).supBegin 0 (s.firstStep (s.supSequence.getD 0 0))

theorem exec_supPassStart_free {dt : Nat} {ok : Bool} (hu : u = s.elapse dt) (hon : u.supOn = true) (hs : u.supSequence ≠ [])
    (hp : u.supPeriod = 0) (hc : u.sup.converting = false) :
    exec (.supPassStart dt ok) s = .next (if ok then u.passBegins else u.loseAll.report 18 (supFault 9) 0) := by
  simp only [exec, execSupPassStart, ← hu]
  rw [if_neg (by rw [hon, hc, hp]; simpa using hs)]
  simp only [hp]
  cases ok <;> simp [hc] <;> rfl

theorem exec_supPassStart_timed {dt : Nat} {ok : Bool} {k : Int} (hu : u = s.elapse dt) (hon : u.supOn = true) (hs : u.supSequence ≠ [])
    (hp : u.supPeriod ≠ 0) (hk : k = ((u.extTime : Int) - (u.supDelay * 256000000 : Nat)) / ((u.supPeriod * 256000000 : Nat) : Int))
    (ht : k ≠ u.sup.timer) (hv : v = u.setSup fun x => { x with timer := k }) : exec (.supPassStart dt ok) s =
      if v.sup.converting then .next (v.setSup fun x => { x with trigSkipped := x.trigSkipped + 1 })
      else if ok then .next v.passBegins else .next (v.loseAll.report 18 (supFault 9) 0) := by
  have hne : (u.supPeriod != 0) = true := bne_iff_ne.mpr hp
  have hgo : ¬ (!u.supOn || u.supSequence.isEmpty || (true && decide (k = u.sup.timer)) || (!true && u.sup.converting)) = true := by
    rw [hon, List.isEmpty_eq_false_iff.mpr hs, decide_eq_false ht]
    exact Bool.false_ne_true
  simp only [exec, execSupPassStart, ← hu, hne, ← hk]
  rw [if_neg hgo, hv]
  rfl

theorem State.passBegins_sup : s.passBegins = { s with sup := s.passBegins.sup } ∧ s.passBegins.sup =
    { s.sup with
      converting := true, passAt := s.now, pos := 0, step := s.firstStep (s.supSequence.getD 0 0), beganAt := s.now
      coarseDone := false } := ⟨rfl, rfl⟩

/-- A pass of the converter that starts, is skipped, or finds the converter bad (R234, R235). -/
theorem supPassStart_spec {dt : Nat} {ok : Bool} (hu : u = s.elapse dt) (hon : u.supOn = true) (hs : u.supSequence ≠ []) :
    (u.supPeriod = 0 → u.sup.converting = false → ok = true → ∃ t, exec (.supPassStart dt ok) s = .next t ∧ t = { u with sup := t.sup } ∧
      t.sup.converting = true ∧ t.sup.pos = 0 ∧ t.sup.beganAt = u.now ∧ t.sup.passAt = u.now ∧ t.sup.coarseDone = false) ∧
    (∀ k : Int, u.supPeriod ≠ 0 → k = ((u.extTime : Int) - (u.supDelay * 256000000 : Nat)) / ((u.supPeriod * 256000000 : Nat) : Int) →
      k ≠ u.sup.timer → ∃ t, exec (.supPassStart dt ok) s = .next t ∧ t.sup.timer = k ∧
      (u.sup.converting = true → t = { u with sup := t.sup } ∧ t.sup.trigSkipped = u.sup.trigSkipped + 1 ∧ t.sup.pos = u.sup.pos) ∧
      (u.sup.converting = false → ok = true → t = { u with sup := t.sup } ∧ t.sup.converting = true ∧ t.sup.pos = 0)) ∧
    (u.sup.converting = false → u.supPeriod = 0 → ok = false → ∃ t, exec (.supPassStart dt ok) s = .next t ∧
      t.Reported 18 (supFault 9) 0 ∧ t.sup.converting = false ∧ t.ControlKept u ∧ t.opt = u.opt ∧ t.acq = u.acq ∧ t.sht = u.sht) := by
  refine ⟨fun hp hc ho => ?_, fun k hp hk ht => ?_, fun hc hp ho => ?_⟩
  · have e := exec_supPassStart_free (ok := ok) hu hon hs hp hc
    rw [if_pos ho] at e
    exact ⟨_, e, rfl, rfl, rfl, rfl, rfl, rfl⟩
  · obtain ⟨v, hv⟩ : ∃ v, v = u.setSup fun x => { x with timer := k } := ⟨_, rfl⟩
    have e := exec_supPassStart_timed (ok := ok) hu hon hs hp hk ht hv
    have hvk : v = { u with sup := { u.sup with timer := k } } := by rw [hv]; rfl
    split at e
    next hc =>
      have hc' : u.sup.converting = true := by rwa [hvk] at hc
      exact ⟨_, e, by rw [hvk]; rfl, fun _ => by rw [hvk]; exact ⟨rfl, rfl, rfl⟩, fun h => absurd hc' (by rw [h]; decide)⟩
    next hc =>
      have hc' : u.sup.converting ≠ true := by rwa [hvk] at hc
      split at e
      next => exact ⟨_, e, by rw [hvk]; rfl, fun h => absurd h hc', fun _ _ => by rw [hvk]; exact ⟨rfl, rfl, rfl⟩⟩
      next ho =>
        have hl : v.loseAll.sup = v.sup := by simp
        refine ⟨_, e, ?_, fun h => absurd h hc', fun _ h => absurd h ho⟩
        exact (congrArg Sup.timer hl).trans (by rw [hvk])
  · have e := exec_supPassStart_free (ok := ok) hu hon hs hp hc
    rw [if_neg (by rw [ho]; decide)] at e
    refine ⟨_, e, State.report_reported .., ?_⟩
    have hk : u.loseAll.sup = u.sup ∧ u.loseAll.ControlKept u ∧ u.loseAll.opt = u.opt ∧ u.loseAll.acq = u.acq ∧ u.loseAll.sht = u.sht := by
      simp [State.ControlKept]
    obtain ⟨h1, h2, h3⟩ := hk
    exact ⟨(congrArg Sup.converting h1).trans hc, h2, h3⟩

end

section

variable {s t u v w : State} {p q : Port}

/-! ## Conversions (R228, R231 to R233, R236) -/

/-- What a conversion's end leaves alone. -/
structure State.Converts (t u : State) : Prop where
  control : t.ControlKept u
  opt : t.opt = u.opt
  sht : t.sht = u.sht
  acq : t.acq = u.acq
  phs : t.phs = u.phs
  evt : t.evt = u.evt
  tiu : t.tiu = u.tiu

theorem State.Converts.trans (h : t.Converts u) (k : u.Converts s) : t.Converts s :=
  ⟨h.control.trans k.control, h.opt.trans k.opt, h.sht.trans k.sht, h.acq.trans k.acq, h.phs.trans k.phs, h.evt.trans k.evt,
    h.tiu.trans k.tiu⟩

theorem State.setSup_converts (f : Sup → Sup) : (s.setSup f).Converts s := ⟨.rfl, rfl, rfl, rfl, rfl, rfl, rfl⟩

theorem State.declareBreak_converts (how : Nat) : (s.declareBreak how).Converts s := by
  constructor <;> simp [State.ControlKept]

theorem State.supPair_converts (a b : Int) : (s.supPair a b).Converts s := by
  constructor <;> simp [State.ControlKept]

theorem State.supSingle_converts (v : Int) : (s.supSingle v).Converts s := by
  constructor <;> simp [State.ControlKept]

theorem State.supNext_converts : s.supNext.Converts s := by
  constructor <;> simp [State.ControlKept]

/-! ### What a result leaves of the converter -/

/-- A result has been delivered, the position and the conversion under way as before. -/
structure Sup.Delivered (x y : Sup) : Prop where
  bufIndex : x.bufIndex = (y.bufIndex + 1) % 1024
  pos : x.pos = y.pos
  converting : x.converting = y.converting

theorem State.warn_sup (code value : U32) (holds : Bool) (place : Nat) : (s.warn code value holds place).sup = s.sup := by simp

/-- An input declared bad is so afterwards, newly counted unless it was so before (R232). -/
theorem State.declareBreak_sup (how : Nat) : ∃ f : Thermistor → Thermistor,
    (s.declareBreak how).sup = { s.sup with inputs := upd s.sup.inputs s.supInput f } ∧
    (f s.sup.inputs[s.supInput]).broken = how ∧
    (s.sup.inputs[s.supInput].broken ≠ how → (f s.sup.inputs[s.supInput]).breaks = s.sup.inputs[s.supInput].breaks + 1) := by
  unfold State.declareBreak
  extract_lets i v x y z
  split
  next h => exact ⟨_, rfl, h, fun k => absurd h k⟩
  next h =>
    have hz : z.sup = v.sup := by simp [z, y]
    refine ⟨fun t => { t with broken := how, retry := false, breaks := t.breaks + 1 }, ?_, rfl, fun _ => rfl⟩
    have hl (p : Port) (k : Source) : (z.loseReading p k).sup = z.sup := by simp
    split
    · exact (hl _ _).trans hz
    · exact hz

theorem State.goodPair_sup (x : Int) : ∃ f, (s.goodPair x).sup = { s.sup with inputs := f } := by
  unfold State.goodPair
  extract_lets i v w
  have hw : w.sup = v.sup := by
    simp only [w]
    split <;> simp
  refine ⟨v.sup.inputs, ?_⟩
  split
  · simp only [State.goodReading_keeps]
    exact hw
  · exact hw

theorem State.supLast_sup (x : Int) : (s.supLast x).sup = { s.sup with last := (s.supLast x).sup.last } := rfl

theorem State.supPair_delivered (a b : Int) : (s.supPair a b).sup.Delivered s.sup := by
  unfold State.supPair
  extract_lets d x
  split
  · obtain ⟨f, h, -⟩ := ((s.supDeliver 16 x).supLast x).declareBreak_sup 2
    rw [h]
    exact ⟨rfl, rfl, rfl⟩
  · obtain ⟨f, h⟩ := ((s.supDeliver 0 x).supLast x).goodPair_sup x
    rw [h]
    exact ⟨rfl, rfl, rfl⟩

theorem State.supSingle_sup (v : Int) : ∃ flags, (s.supSingle v).sup = ((s.supDeliver flags v).supLast v).sup := by
  refine ⟨bitIf (supOver v) 1, ?_⟩
  unfold State.supSingle
  dsimp only
  generalize (s.supDeliver (bitIf (supOver v) 1) v).supLast v = w
  split
  · split <;> simp
  · split <;> simp
  · split
    · exact (congrArg State.sup (State.recordWarn_hushed ..) :)
    · rfl
  all_goals rfl

theorem State.supSingle_delivered (v : Int) : (s.supSingle v).sup.Delivered s.sup := by
  obtain ⟨flags, h⟩ := s.supSingle_sup v
  rw [h]
  exact ⟨rfl, rfl, rfl⟩

/-- The next conversion of a pass, or its end (R234). -/
theorem State.supNext_sup : (s.sup.pos + 1 < s.supSequence.length → s.supNext.sup.pos = s.sup.pos + 1 ∧
      s.supNext.sup.converting = s.sup.converting ∧ s.supNext.sup.beganAt = s.now) ∧
    (s.supSequence.length ≤ s.sup.pos + 1 → s.supNext.sup.converting = false) ∧ s.supNext.sup.bufIndex = s.sup.bufIndex ∧
    s.supNext.sup.inputs = s.sup.inputs := by
  unfold State.supNext
  extract_lets n
  split
  next h => exact ⟨fun _ => ⟨rfl, rfl, rfl⟩, fun k => absurd h (by omega), rfl, rfl⟩
  next h => exact ⟨fun k => absurd k h, fun _ => rfl, rfl, rfl⟩

end

section

variable {s t u v w : State} {p q : Port}

/-- What a settled conversion of code `v` means, by the step of its channel (R228, R231 to R233, R236). -/
structure State.Settles (t u : State) (v : Int) : Prop where
  frame : t.Converts u
  half : u.sup.step = .plus → supOver v = false → t.sup = { u.sup with step := .minus v, beganAt := u.now, coarseDone := false }
  beyond : (u.sup.step = .plus ∨ ∃ x, u.sup.step = .minus x) → supOver v = true → t.sup.step = .burnOut false ∧ t.sup.pos = u.sup.pos ∧
    t.sup.bufIndex = (u.sup.bufIndex + 1) % 1024 ∧ t.sup.buf.head? = some ⟨u.devTime, u.supChannel, 2, supCode v⟩
  broken : ∀ o, u.sup.step = .burnOut o → supOver v = true → t.sup.inputs[u.supInput].broken = 1 ∧
    (u.sup.inputs[u.supInput].broken ≠ 1 → t.sup.inputs[u.supInput].breaks = u.sup.inputs[u.supInput].breaks + 1)
  ends : u.sup.step = .single ∨ (∃ o, u.sup.step = .burnOut o) ∨ (∃ x, u.sup.step = .minus x ∧ supOver v = false) →
    t.sup.bufIndex = (u.sup.bufIndex + 1) % 1024 ∧
    (u.sup.pos + 1 < u.supSequence.length → t.sup.pos = u.sup.pos + 1 ∧ t.sup.converting = true ∧ t.sup.beganAt = u.now) ∧
    (u.supSequence.length ≤ u.sup.pos + 1 → t.sup.converting = false)

theorem State.supSequence_of_cfg (h : t.cfg = u.cfg) : t.supSequence = u.supSequence := by
  simp only [State.supSequence, State.supRec, State.refInput, State.rec?_of_cfg h]

/-- The channel is done with: its result has been delivered, and the next follows. -/
theorem State.supNext_ends (hc : u.sup.converting = true) (hw : w.Converts u) (hd : w.sup.Delivered u.sup) :
    w.supNext.Converts u ∧ w.supNext.sup.bufIndex = (u.sup.bufIndex + 1) % 1024 ∧
    (u.sup.pos + 1 < u.supSequence.length → w.supNext.sup.pos = u.sup.pos + 1 ∧ w.supNext.sup.converting = true ∧
      w.supNext.sup.beganAt = u.now) ∧
    (u.supSequence.length ≤ u.sup.pos + 1 → w.supNext.sup.converting = false) := by
  obtain ⟨h1, h2, h3, -⟩ := w.supNext_sup
  have hseq : w.supSequence = u.supSequence := State.supSequence_of_cfg hw.control.2.1
  have hnow : w.now = u.now := hw.control.2.2.2.2.2.2.2.2.2.2.2.2.2.2
  rw [hd.pos, hseq, hd.converting, hc, hnow] at h1
  rw [hd.pos, hseq] at h2
  exact ⟨State.supNext_converts.trans hw, h3.trans hd.bufIndex, h1, h2⟩

variable {x : Int}

theorem settles_single (hs : u.sup.step = .single) (hc : u.sup.converting = true) : (u.supSingle x).supNext.Settles u x := by
  obtain ⟨h1, h2⟩ := State.supNext_ends hc (u.supSingle_converts x) (u.supSingle_delivered x)
  exact ⟨h1, by simp [hs], by simp [hs], by simp [hs], fun _ => h2⟩

theorem settles_half (hs : u.sup.step = .plus) (ho : supOver x = false) : (u.supBegin u.sup.pos (.minus x)).Settles u x :=
  ⟨State.setSup_converts _, fun _ _ => rfl, by simp [ho], by simp [hs], by simp [hs]⟩

theorem settles_beyond (hs : u.sup.step = .plus ∨ ∃ y, u.sup.step = .minus y) (ho : supOver x = true) :
    ((u.supDeliver 2 x).supBegin u.sup.pos (.burnOut false)).Settles u x := by
  refine ⟨(State.setSup_converts _).trans (State.setSup_converts _), by simp [ho], fun _ _ => ⟨rfl, rfl, rfl, ?_⟩, ?_, ?_⟩
  · exact List.head?_take.trans (if_neg (by decide))
  · rcases hs with hs | ⟨y, hs⟩ <;> simp [hs]
  · rcases hs with hs | ⟨y, hs⟩ <;> simp [hs, ho]

theorem settles_pair {y : Int} (hs : u.sup.step = .minus y) (hc : u.sup.converting = true) (ho : supOver x = false) :
    (u.supPair y x).supNext.Settles u x := by
  obtain ⟨h1, h2⟩ := State.supNext_ends hc (u.supPair_converts y x) (u.supPair_delivered y x)
  exact ⟨h1, by simp [hs], by simp [ho], by simp [hs], fun _ => h2⟩

theorem settles_open {o : Bool} (hs : u.sup.step = .burnOut o) (hc : u.sup.converting = true) :
    ((u.supDeliver (2 + 4 + 8) x).declareBreak 1).supNext.Settles u x := by
  obtain ⟨v, hv⟩ : ∃ v, v = u.supDeliver (2 + 4 + 8) x := ⟨_, rfl⟩
  obtain ⟨f, hf, hbroken, hbreaks⟩ := v.declareBreak_sup 1
  have hvs : v.sup.Delivered u.sup ∧ v.sup.inputs = u.sup.inputs ∧ v.supInput = u.supInput := by
    rw [hv]
    exact ⟨⟨rfl, rfl, rfl⟩, rfl, rfl⟩
  obtain ⟨hd, hi, hin⟩ := hvs
  simp only [hi, hin] at hf hbroken hbreaks
  rw [← hv]
  have hdel : (v.declareBreak 1).sup.Delivered u.sup := by
    rw [hf]
    exact ⟨hd.bufIndex, hd.pos, hd.converting⟩
  have hinputs : (v.declareBreak 1).supNext.sup.inputs[u.supInput] = f u.sup.inputs[u.supInput] := by
    rw [(v.declareBreak 1).supNext_sup.2.2.2, hf, upd_get, if_pos rfl]
  obtain ⟨h1, h2⟩ := State.supNext_ends hc ((v.declareBreak_converts 1).trans (hv ▸ State.setSup_converts _)) hdel
  refine ⟨h1, by simp [hs], by simp [hs], fun _ _ _ => ?_, fun _ => h2⟩
  rw [hinputs]
  exact ⟨hbroken, hbreaks⟩

theorem settles_closed {o : Bool} (f : Thermistor → Thermistor) (hs : u.sup.step = .burnOut o) (hc : u.sup.converting = true)
    (ho : supOver x = false) : ((u.supDeliver 8 x).setInput u.supInput f).supNext.Settles u x := by
  have hw : ((u.supDeliver 8 x).setInput u.supInput f).Converts u := (State.setSup_converts _).trans (State.setSup_converts _)
  obtain ⟨h1, h2⟩ := State.supNext_ends hc hw ⟨rfl, rfl, rfl⟩
  exact ⟨h1, by simp [hs], by simp [hs], by simp [ho], fun _ => h2⟩

theorem exec_supConversionDone {dt : Nat} {code : Int} (hu : u = s.elapse dt) (hon : u.supOn = true) (hc : u.sup.converting = true)
    (ht : u.sup.beganAt + u.supRestart u.sup.step + u.supSettle ≤ u.now) :
    ∃ t, exec (.supConversionDone dt code) s = .next t ∧ t.Settles u (code24 code) := by
  simp only [exec, execSupConversionDone, ← hu]
  rw [if_neg (by rw [hon, hc, decide_eq_false (by omega)]; decide)]
  split
  next hs => exact ⟨_, rfl, settles_single hs hc⟩
  next hs =>
    split
    next ho => exact ⟨_, rfl, settles_beyond (.inl hs) ho⟩
    next ho => exact ⟨_, rfl, settles_half hs (Bool.eq_false_of_not_eq_true ho)⟩
  next y hs =>
    split
    next ho => exact ⟨_, rfl, settles_beyond (.inr ⟨y, hs⟩) ho⟩
    next ho => exact ⟨_, rfl, settles_pair hs hc (Bool.eq_false_of_not_eq_true ho)⟩
  next o hs =>
    split
    next ho => exact ⟨_, rfl, settles_open hs hc⟩
    next ho => exact ⟨_, rfl, settles_closed _ hs hc (Bool.eq_false_of_not_eq_true ho)⟩

theorem exec_supCoarseValue {dt : Nat} {code : Int} (hu : u = s.elapse dt) (hon : u.supOn = true) (hc : u.sup.converting = true)
    (hco : u.supCoarse = 1) (hd : u.sup.coarseDone = false) (ht : u.sup.beganAt + u.supRestart u.sup.step + 3 * msP ≤ u.now) :
    ∃ k, exec (.supCoarseValue dt code) s =
      .next ((u.supDeliver (1 + bitIf (supOver (code24 code)) 1 + bitIf k 3) (code24 code)).setSup fun x => { x with coarseDone := true }) := by
  simp only [exec, execSupCoarseValue, ← hu]
  rw [if_pos (by rw [hon, hc, hco, hd, decide_eq_true ht]; rfl)]
  exact ⟨_, rfl⟩

end

/-- Settles O34: passes by `supPassStart_spec`, settled conversions by the step of the channel, coarse values as delivered. -/
theorem supConverts : Obligations.SupConverts := by
  refine ⟨fun s u dt ok hu hon hs => ?_, fun s u dt code hu hon hc => ⟨fun ht => ?_, fun hco hd ht => ?_⟩⟩
  · obtain ⟨h1, h2, h3⟩ := supPassStart_spec (dt := dt) (ok := ok) hu hon hs
    exact ⟨h1, fun hp ht => h2 _ hp rfl ht, h3⟩
  · obtain ⟨t, e, hf, h1, h2, h3, h4⟩ := exec_supConversionDone (code := code) hu hon hc ht
    exact ⟨t, e, hf.control, hf.opt, hf.sht, hf.acq, hf.phs, hf.evt, hf.tiu, h1, h2, h3, h4⟩
  · obtain ⟨k, e⟩ := exec_supCoarseValue (code := code) hu hon hc hco hd ht
    refine ⟨_, e, rfl, rfl, rfl, rfl, _, List.head?_take.trans (if_neg (by decide)), ?_⟩
    cases supOver (code24 code) <;> cases k <;> rfl

end Sys2Proof.Machine

/-! SUPPORT. Region samples and the U bound, the events that EVT forms, and the alarm outputs that follow its notices. -/

namespace Sys2Proof.Machine

section

variable {s t u v w : State} {k : Fin 13}

/-! ## Region samples (R275, R276) -/

/-- The regions after a sample. -/
def Fab.sampled (x : Fab) (now : Nat) (mv : List Nat) (halfK : List Int) : Fab :=
  let f : Fab := { x with
    regions := Vector.ofFn fun r => { x.regions[r] with vcore := mv.getD r.val 0 / 2 * 2, tj := halfK.getD r.val 0 } }
  { f with seams := Vector.ofFn fun k => (x.seams[k]).sample now (f.seamDiff k) }

/-- The U bound after a sample: withdrawn while a seam is beyond delta, else in force. -/
def Fab.bounded (x : Fab) (now : Nat) : Fab :=
  if x.anyBeyond then { x with uBound := false, withdrawnAt := if x.uBound then now else x.withdrawnAt }
  else { x with uBound := true, withdrawn := if x.uBound then x.withdrawn else x.withdrawn + (now - x.withdrawnAt) }

theorem exec_regionDeltaSample {dt : Nat} {mv : List Nat} {halfK : List Int} {f : Fab} (hu : u = s.elapse dt) (hl : u.live = true)
    (hf : f = (u.fab.sampled u.now mv halfK).bounded u.now) (hv : v = ((List.finRange 13).filter fun k =>
      (f.seams[k]).beyond && !(u.fab.seams[k]).beyond).foldl State.seamExcursion { u with fab := f }) :
    exec (.regionDeltaSample dt mv halfK) s = .next (if f.anyBeyond then v else v.warnEnded 0x000F0001#32) := by
  simp only [exec, execRegionDeltaSample, ← hu]
  rw [if_neg (by rw [hl]; decide), hv, hf]
  rfl

theorem State.seamExcursion_hushed : (s.seamExcursion k).hushed = s.hushed := by
  unfold State.seamExcursion
  extract_lets a b
  exact hushed_ite _ _ _ _ ((State.record_hushed ..).trans (State.warn_hushed ..)) rfl

theorem State.seamExcursion_warned (ha : s.hatbandActs = true) : (s.seamExcursion k).warned 0x000F0001#32 = true := by
  unfold State.seamExcursion
  extract_lets a b
  rw [if_pos ha]
  exact State.warned_of_record (State.warn_warned _ _ _ _ ha) _

/-- A seam beyond delta anew warns, whatever the seams after it do. -/
theorem State.seamExcursions_warned (l : List (Fin 13)) (ha : s.hatbandActs = true)
    (h : s.warned 0x000F0001#32 = true ∨ l ≠ []) : (l.foldl State.seamExcursion s).warned 0x000F0001#32 = true := by
  induction l generalizing s with
  | nil => exact h.resolve_right fun h => h rfl
  | cons k l ih =>
    refine ih ?_ (.inl (State.seamExcursion_warned ha))
    rw [State.hatbandActs_of_ctlStands (.of_hushed State.seamExcursion_hushed), ha]

/-! ### The seams -/

theorem SeamSt.sample_outer (x : SeamSt) (now : Nat) (d : Nat × Nat) (h : 60 < d.1 ∨ 50 < d.2) : (x.sample now d).beyond = true := by
  unfold SeamSt.sample
  extract_lets outer inner at_
  have ho : outer = true := by simpa [outer] using h
  rw [if_pos ho]

theorem SeamSt.sample_inner (x : SeamSt) (now : Nat) (d : Nat × Nat) (h1 : d.1 ≤ 50) (h2 : d.2 ≤ 44) (h : x.outAt + msP ≤ now) :
    (x.sample now d).beyond = false := by
  unfold SeamSt.sample
  extract_lets outer inner at_
  have ho : ¬ outer = true := by simp [outer]; omega
  have hi : inner = true := by simp [inner, h1, h2]
  have ha : at_ = x.outAt := by simp [at_, hi]
  rw [if_neg ho, ha, hi, decide_eq_true h]
  simp

theorem SeamSt.sample_holds (x : SeamSt) (now : Nat) (d : Nat × Nat) (hb : x.beyond = true) (h : now < x.outAt + msP) :
    (x.sample now d).beyond = true := by
  unfold SeamSt.sample
  extract_lets outer inner at_
  split
  · rfl
  · have : (inner && decide (at_ + msP ≤ now)) = false := by
      cases hi : inner with
      | false => rfl
      | true =>
        have ha : at_ = x.outAt := by simp [at_, hi]
        rw [ha, decide_eq_false (by omega)]
        rfl
    rw [this, hb]
    rfl

theorem Fab.anyBeyond_iff (x : Fab) : x.anyBeyond = true ↔ ∃ k : Fin 13, x.seams[k].beyond = true := by
  simp only [Fab.anyBeyond, List.any_eq_true, Vector.mem_toList_iff, Vector.mem_iff_getElem]
  constructor
  · rintro ⟨_, ⟨i, hi, rfl⟩, hb⟩
    exact ⟨⟨i, hi⟩, hb⟩
  · rintro ⟨k, hk⟩
    exact ⟨_, ⟨k.val, k.isLt, rfl⟩, hk⟩

theorem Fab.anyBeyond_of_seams {x y : Fab} (h : y.seams = x.seams) : y.anyBeyond = x.anyBeyond := by rw [Fab.anyBeyond, h, Fab.anyBeyond]

theorem Fab.seamDiff_of_regions {x y : Fab} (h : y.regions = x.regions) (k : Fin 13) : y.seamDiff k = x.seamDiff k := by
  simp only [Fab.seamDiff, h]

theorem Fab.sampled_seam (x : Fab) (now : Nat) (mv : List Nat) (halfK : List Int) :
    (x.sampled now mv halfK).seams[k] = (x.seams[k]).sample now ((x.sampled now mv halfK).seamDiff k) := by
  rw [Fab.sampled]
  exact Vector.getElem_ofFn _

theorem Fab.sampled_region (x : Fab) (now : Nat) (mv : List Nat) (halfK : List Int) (r : Region) :
    (x.sampled now mv halfK).regions[r] = { x.regions[r] with vcore := mv.getD r.val 0 / 2 * 2, tj := halfK.getD r.val 0 } := by
  rw [Fab.sampled]
  exact Vector.getElem_ofFn _

/-- The seams and the bound after a sample (R275). -/
theorem Fab.bounded_parts (x y : Fab) (now : Nat) (h : y = x.bounded now) : y.regions = x.regions ∧ y.seams = x.seams ∧
    (x.anyBeyond = true → y.uBound = false) ∧
    (x.anyBeyond = false → y.uBound = true ∧ y.withdrawn = if x.uBound then x.withdrawn else x.withdrawn + (now - x.withdrawnAt)) := by
  unfold Fab.bounded at h
  split at h
  next hb => rw [h]; exact ⟨rfl, rfl, fun _ => rfl, fun hf => absurd hb (by rw [hf]; decide)⟩
  next hb => rw [h]; exact ⟨rfl, rfl, fun ht => absurd ht hb, fun _ => ⟨rfl, rfl⟩⟩

end

/-- Settles O37: the seams by `SeamSt.sample`, the bound by `Fab.bounded`, the warning by the excursions of new seams. -/
theorem regionsSampled : Obligations.RegionsSampled := by
  intro s u dt mv halfK hu hl
  obtain ⟨x, hx⟩ : ∃ x, x = u.fab.sampled u.now mv halfK := ⟨_, rfl⟩
  obtain ⟨f, hf⟩ : ∃ f, f = x.bounded u.now := ⟨_, rfl⟩
  obtain ⟨v, hv⟩ : ∃ v, v = ((List.finRange 13).filter fun k =>
    (f.seams[k]).beyond && !(u.fab.seams[k]).beyond).foldl State.seamExcursion { u with fab := f } := ⟨_, rfl⟩
  obtain ⟨t, ht⟩ : ∃ t, t = if f.anyBeyond then v else v.warnEnded 0x000F0001#32 := ⟨_, rfl⟩
  have e := exec_regionDeltaSample (mv := mv) (halfK := halfK) hu hl (hx ▸ hf) hv
  rw [← ht] at e
  have hvh : v.hushed = ({ u with fab := f } : State).hushed := hv ▸ hushed_foldl _ (fun _ _ => State.seamExcursion_hushed) _ _
  have hth : t.hushed = ({ u with fab := f } : State).hushed := by
    rw [ht]
    exact hushed_ite _ _ _ _ hvh hvh
  have hfab : ({ t.fab with fencedDiscards := 0 } : Fab) = { f with fencedDiscards := 0 } := (congrArg State.fab hth :)
  obtain ⟨hr, hs, hbey, hin⟩ := Fab.bounded_parts x f u.now hf
  have hreg : t.fab.regions = x.regions := (congrArg Fab.regions hfab :).trans hr
  have hseam : t.fab.seams = x.seams := (congrArg Fab.seams hfab :).trans hs
  have hbound : t.fab.uBound = f.uBound ∧ t.fab.withdrawn = f.withdrawn := ⟨(congrArg Fab.uBound hfab :), (congrArg Fab.withdrawn hfab :)⟩
  have hk (k : Fin 13) : t.fab.seams[k] = (u.fab.seams[k]).sample u.now (t.fab.seamDiff k) := by
    rw [Fab.seamDiff_of_regions hreg, hseam, hx, Fab.sampled_seam]
  have hany : t.fab.anyBeyond = x.anyBeyond := Fab.anyBeyond_of_seams hseam
  have hx' : x.uBound = u.fab.uBound ∧ x.withdrawn = u.fab.withdrawn ∧ x.withdrawnAt = u.fab.withdrawnAt := hx ▸ ⟨rfl, rfl, rfl⟩
  refine ⟨t, e, ?_, fun r => ?_, fun k h => ?_, fun k h1 h2 h3 => ?_, fun k hb h => ?_, fun h => ?_, fun h ha => ?_⟩
  · have := (congrArg (fun y : Fab => { ({ u with fab := f } : State).hushed with fab := y }) hfab :)
    exact hth.trans this.symm
  · rw [hreg, hx, Fab.sampled_region]
  · have hb : t.fab.seams[k].beyond = true := by rw [hk, SeamSt.sample_outer _ _ _ h]
    exact ⟨hb, hbound.1.trans (hbey (hany ▸ (Fab.anyBeyond_iff _).mpr ⟨k, hb⟩))⟩
  · rw [hk, SeamSt.sample_inner _ _ _ h1 h2 h3]
  · rw [hk, SeamSt.sample_holds _ _ _ hb h]
  · have hno : x.anyBeyond = false := by
      rw [← hany]
      refine Bool.eq_false_of_not_eq_true fun hb => ?_
      obtain ⟨k, hk⟩ := (Fab.anyBeyond_iff _).mp hb
      rw [h k] at hk
      cases hk
    obtain ⟨h1, h2⟩ := hin hno
    rw [hbound.1, hbound.2, h1, h2, hx'.1, hx'.2.1, hx'.2.2]
    exact ⟨rfl, rfl⟩
  · obtain ⟨k, hb, hold⟩ := h
    have hfs : f.seams = t.fab.seams := (hs.trans hseam.symm)
    have hf' : f.anyBeyond = true := (Fab.anyBeyond_of_seams hfs).trans ((Fab.anyBeyond_iff _).mpr ⟨k, hb⟩)
    rw [ht, if_pos hf', hv]
    refine State.seamExcursions_warned _ ha (.inr (List.ne_nil_of_mem (a := k) (List.mem_filter.mpr ⟨List.mem_finRange k, ?_⟩)))
    rw [hfs, hb, hold]
    rfl

section

variable {s t u v w : State} {o : Fin 4}

/-! ## EVENT records that are formed (R250, R257 to R260) -/

/-- Forming EVENT records moves EVT, records on their way, MSI-X and discards; no byte of DRAM, and no notice is counted. -/
structure State.FormsEvents (t s : State) : Prop where
  frame : t = { s with evt := t.evt, fab := t.fab, mem := t.mem, routes := t.routes, pcie := t.pcie, outputs := t.outputs }
  cells : t.mem.cells = s.mem.cells
  fab : ({ t.fab with fencedDiscards := 0 } : Fab) = { s.fab with fencedDiscards := 0 }

theorem State.FormsEvents.rfl : s.FormsEvents s := ⟨Eq.refl _, Eq.refl _, Eq.refl _⟩

theorem State.FormsEvents.trans (h : t.FormsEvents u) (k : u.FormsEvents s) : t.FormsEvents s := by
  refine ⟨h.frame.trans ?_, h.cells.trans k.cells, h.fab.trans k.fab⟩
  exact (congrArg (fun x : State =>
    { x with evt := t.evt, fab := t.fab, mem := t.mem, routes := t.routes, pcie := t.pcie, outputs := t.outputs }) k.frame :)

theorem State.FormsEvents.ite {c : Prop} [Decidable c] (h : t.FormsEvents s) (k : u.FormsEvents s) :
    (if c then t else u).FormsEvents s := by
  split
  · exact h
  · exact k

theorem State.FormsEvents.foldl {α : Type} (f : State → α → State) (h : ∀ v a, (f v a).FormsEvents v) (l : List α) (s : State) :
    (l.foldl f s).FormsEvents s :=
  List.foldlRecOn (motive := fun v : State => v.FormsEvents s) l f .rfl fun v hv a _ => (h v a).trans hv

theorem State.setEvt_formsEvents (f : Evt → Evt) : (s.setEvt f).FormsEvents s := ⟨rfl, rfl, rfl⟩

theorem State.fencedFlits_formsEvents (n : Nat) : (s.fencedFlits n).FormsEvents s := ⟨rfl, rfl, rfl⟩

theorem State.toRing_formsEvents (k : Fin 3) (i : RtItem) : (s.toRing k i).FormsEvents s :=
  .ite ⟨rfl, rfl, rfl⟩ (.ite (State.fencedFlits_formsEvents _) .rfl)

theorem State.emitRec_formsEvents (p : PRec) : (s.emitRec p).FormsEvents s := by
  unfold State.emitRec
  extract_lets v
  have hr (x : State) (r : RouteId) : (x.toRoute r p).FormsEvents x := ⟨rfl, rfl, rfl⟩
  have hv : v.FormsEvents s := .foldl _ (fun x r => .ite (hr x r) .rfl) _ _
  exact .ite ((State.toRing_formsEvents ..).trans hv) hv

theorem State.msixEvent_formsEvents (k : Fin 8) : (s.msixEvent k).FormsEvents s := by
  unfold State.msixEvent
  extract_lets e
  exact .ite (.ite ⟨rfl, rfl, rfl⟩ (.ite ⟨rfl, rfl, rfl⟩ ⟨rfl, rfl, rfl⟩)) .rfl

theorem State.emitRec_evt (p : PRec) : (s.emitRec p).evt = s.evt := by simp

theorem State.msixEvent_evt (k : Fin 8) : (s.msixEvent k).evt = s.evt := by simp

/-- EVT's own part of a record: counted, and nothing due or told (R250). -/
def Evt.Forms (x y : Evt) (n : Nat) : Prop := x.events = y.events + BitVec.ofNat 64 n ∧ x.notice = y.notice ∧ x.due = y.due

theorem State.requestSnap_forms (p : Port) (d zone first count : Nat) (j : Int) :
    (s.requestSnap p d zone first count j).1.FormsEvents s ∧ (s.requestSnap p d zone first count j).1.evt.Forms s.evt 0 := by
  unfold State.requestSnap
  extract_lets pre post w a b hi lo rFirst rEnd lo' n m segs id r x
  split
  · exact ⟨.rfl, (BitVec.add_zero _).symm, rfl, rfl⟩
  · split
    · exact ⟨⟨rfl, rfl, rfl⟩, (BitVec.add_zero _).symm, rfl, rfl⟩
    · exact ⟨⟨rfl, rfl, rfl⟩, (BitVec.add_zero _).symm, rfl, rfl⟩

theorem State.event_forms (e : EventRec) (at_ : U64) (alarms snap : Nat) (skipped : Bool) :
    (s.event e at_ alarms snap skipped).FormsEvents s ∧ (s.event e at_ alarms snap skipped).evt.Forms s.evt 1 := by
  unfold State.event
  extract_lets q flags payload x y
  have hy : y.FormsEvents s := ⟨rfl, rfl, rfl⟩
  refine ⟨(State.msixEvent_formsEvents 4).trans ((State.emitRec_formsEvents _).trans hy), ?_⟩
  rw [State.msixEvent_evt, State.emitRec_evt]
  exact ⟨rfl, rfl, rfl⟩

theorem State.formEvent_forms (e : EventDue) : (s.formEvent e).FormsEvents s ∧ (s.formEvent e).evt.Forms s.evt 1 := by
  unfold State.formEvent
  extract_lets x snap v
  have hs : snap.1.FormsEvents s ∧ snap.1.evt.Forms s.evt 0 := by
    simp only [snap]
    split
    · exact State.requestSnap_forms ..
    · exact ⟨.rfl, (BitVec.add_zero _).symm, rfl, rfl⟩
  obtain ⟨hf, h1, h2, h3⟩ := snap.1.event_forms x e.decided e.alarms snap.2.1 snap.2.2
  have hv : v.FormsEvents s ∧ v.evt.Forms s.evt 1 := by
    simp only [v]
    obtain ⟨kf, k1, k2, k3⟩ := hs
    exact ⟨hf.trans kf, by rw [h1, k1]; exact congrArg (· + 1#64) (BitVec.add_zero _), h2.trans k2, h3.trans k3⟩
  split
  · refine ⟨(State.msixEvent_formsEvents 5).trans hv.1, ?_⟩
    rw [State.msixEvent_evt]
    exact hv.2
  · exact hv

theorem State.formEventList_forms (l : List EventDue) : (l.foldl State.formEvent s).FormsEvents s ∧
    (l.foldl State.formEvent s).evt.Forms s.evt l.length := by
  induction l generalizing s with
  | nil => exact ⟨.rfl, (BitVec.add_zero _).symm, rfl, rfl⟩
  | cons e l ih =>
    obtain ⟨hf, h1, h2, h3⟩ := ih (s := s.formEvent e)
    obtain ⟨kf, k1, k2, k3⟩ := s.formEvent_forms e
    refine ⟨hf.trans kf, ?_, h2.trans k2, h3.trans k3⟩
    rw [List.foldl_cons, h1, k1, List.length_cons, Nat.add_comm, BitVec.ofNat_add, BitVec.add_assoc]

theorem State.formEvents_forms : s.formEvents.FormsEvents s ∧
    s.formEvents.evt.events = s.evt.events + BitVec.ofNat 64 s.evt.due.length ∧ s.formEvents.evt.notice = s.evt.notice ∧
    s.formEvents.evt.due = [] := by
  obtain ⟨hf, h1, h2, h3⟩ := State.formEventList_forms (s := s.setEvt fun x => { x with due := [] }) s.evt.due
  exact ⟨hf.trans (State.setEvt_formsEvents _), h1, h2, h3⟩

end

section

variable {s t u v w : State} {o : Fin 4}

/-! ## The output stage (R251 to R253) -/

theorem AlarmOut.setLand_asserted (a : AlarmOut) (on : Bool) (now : Nat) :
    (a.setLand on now).asserted = on ∧ (a.setLand on now).latched = a.latched ∧ (a.setLand on now).demanded = a.demanded := by
  unfold AlarmOut.setLand
  split
  next h => exact ⟨(Bool.and_eq_true_iff.mp h).1.symm, rfl, rfl⟩
  next => exact ⟨rfl, rfl, rfl⟩

/-- The demand is taken, whatever the output then does. -/
theorem AlarmOut.follow_demanded (a : AlarmOut) (mode minP now : Nat) (d : Bool) : (a.follow mode minP now d).demanded = a.demanded := by
  unfold AlarmOut.follow
  split
  · rw [(AlarmOut.setLand_asserted ..).2.2]
    split <;> rfl
  · split
    · rw [(AlarmOut.setLand_asserted ..).2.2]
    · split
      · rw [(AlarmOut.setLand_asserted ..).2.2]
      · rfl

/-- An output in MODE 1 latches a demand (R251). -/
theorem AlarmOut.follow_latching (a : AlarmOut) (minP now : Nat) (d : Bool) :
    (a.follow 1 minP now d).asserted = (a.latched || d) ∧ (a.follow 1 minP now d).latched = (a.latched || d) := by
  unfold AlarmOut.follow
  rw [if_pos rfl]
  obtain ⟨h1, h2, -⟩ := AlarmOut.setLand_asserted (if d then { a with latched := true } else a) (if d then { a with latched := true } else a).latched now
  refine ⟨h1.trans ?_, h2.trans ?_⟩ <;> cases d <;> simp

/-- An output in MODE 0 is asserted while demanded, and released after MIN_ASSERT (R251). -/
theorem AlarmOut.follow_plain (a : AlarmOut) {mode : Nat} (minP now : Nat) (h : mode ≠ 1) : (a.follow mode minP now true).asserted = true ∧
    (a.follow mode minP now false).asserted = if a.since + minP ≤ now then false else a.asserted := by
  unfold AlarmOut.follow
  rw [if_neg h, if_neg h]
  refine ⟨(AlarmOut.setLand_asserted ..).1, ?_⟩
  rw [if_neg (by decide)]
  by_cases hl : a.since + minP ≤ now
  · rw [if_pos (decide_eq_true hl), if_pos hl]
    exact (AlarmOut.setLand_asserted ..).1
  · rw [if_neg (by simpa using hl), if_neg hl]

/-- An output that takes a demand: what it holds, before it follows. -/
def State.demandedOut (s : State) (d : BitVec 4) (o : Fin 4) : AlarmOut :=
  { s.alarms[o] with demanded := d.getLsbD o.val, waits := s.alarms[o].waits && !s.windowsSeen o }

/-- An output waits no more once its windows have been seen. -/
theorem AlarmOut.waits_until (x : AlarmOut) (d seen : Bool) :
    (if ({ x with demanded := d } : AlarmOut).waits && seen then { ({ x with demanded := d } : AlarmOut) with waits := false }
      else { x with demanded := d }) = { x with demanded := d, waits := x.waits && !seen } := by
  cases hw : x.waits <;> cases seen <;> simp

theorem State.outputAfter_eq (d : BitVec 4) : s.outputAfter d o =
    if s.alarms[o].fenced || (s.alarms[o].waits && !s.windowsSeen o) then s.demandedOut d o
    else if (s.alarmEntries o).isEmpty then s.demandedOut d o
    else (s.demandedOut d o).follow (s.alarmMode o) (s.minAssert o * msP) s.now (d.getLsbD o.val) := by
  unfold State.outputAfter
  extract_lets x a b
  have hb : b = s.demandedOut d o := AlarmOut.waits_until s.alarms[o] (d.getLsbD o.val) (s.windowsSeen o)
  rw [hb]
  rfl

theorem State.outputAfter_demanded (d : BitVec 4) : (s.outputAfter d o).demanded = d.getLsbD o.val := by
  rw [State.outputAfter_eq]
  split
  · rfl
  · split
    · rfl
    · rw [AlarmOut.follow_demanded]
      rfl

/-- An output under a fence state, or one without entries, keeps its land (R253). -/
theorem State.outputAfter_kept (d : BitVec 4) (h : s.alarms[o].fenced = true ∨ (s.alarms[o].waits = true ∧ s.windowsSeen o = false) ∨
    s.alarmEntries o = []) : (s.outputAfter d o).asserted = s.alarms[o].asserted := by
  rw [State.outputAfter_eq]
  split
  · rfl
  next hn =>
    rcases h with h | ⟨hw, hs⟩ | he
    · exact absurd (by rw [h]; rfl) hn
    · exact absurd (by rw [hw, hs]; simp) hn
    · rw [if_pos (by rw [he]; rfl)]
      rfl

theorem State.outputAfter_follows (d : BitVec 4) (hf : s.alarms[o].fenced = false) (hw : s.alarms[o].waits = false ∨ s.windowsSeen o = true)
    (he : s.alarmEntries o ≠ []) :
    s.outputAfter d o = (s.demandedOut d o).follow (s.alarmMode o) (s.minAssert o * msP) s.now (d.getLsbD o.val) := by
  have hwait : (s.alarms[o].waits && !s.windowsSeen o) = false := by
    rcases hw with h | h
    · rw [h, Bool.false_and]
    · rw [h, Bool.not_true, Bool.and_false]
  rw [State.outputAfter_eq, if_neg (by rw [hf, hwait]; decide), if_neg (by simpa using he)]

/-- A notice of EVT reaches its sinks: outputs where the output stage is one of them, and what the sinks hold. -/
theorem State.evtReaches_parts (d : EvtNotice) (sinks : List Region) (h : t = s.evtReaches d sinks) :
    t = { s with alarms := t.alarms, fab := t.fab } ∧ t.fab.uFlits = s.fab.uFlits ∧
    t.alarms = if sinks.contains 9 then s.outputsAfter d.demand else s.alarms := by
  unfold State.evtReaches at h
  extract_lets at9 v w at h
  have hv : v = { s with alarms := v.alarms } ∧ v.alarms = if sinks.contains 9 then s.outputsAfter d.demand else s.alarms := by
    simp only [v, at9]
    split <;> exact ⟨rfl, rfl⟩
  have hw : w = { s with alarms := w.alarms, fab := w.fab } ∧ w.fab.uFlits = s.fab.uFlits ∧ w.alarms = v.alarms := by
    simp only [w]
    rw [hv.1]
    exact ⟨rfl, rfl, rfl⟩
  obtain ⟨h1, h2, h3⟩ := hw
  split at h
  · rw [h]
    exact ⟨(congrArg (fun x : State => x.fencedFlits 1) h1 :), h2, h3.trans hv.2⟩
  · rw [h]
    exact ⟨h1, h2, h3.trans hv.2⟩

end

/-- Settles O35: the notice reaches the output stage by `State.outputAfter`, then the records of the decisions follow. -/
theorem alarmsFollowDemand : Obligations.AlarmsFollowDemand := by
  refine fun s u dt o hu hl => ⟨fun f hn hm => ?_, fun h1 h2 h3 h4 h5 h6 => ?_⟩
  · obtain ⟨v, hv⟩ : ∃ v, v = (u.setEvt fun e => { e with notice := none }).evtReaches f.tells f.sinks := ⟨_, rfl⟩
    obtain ⟨hvf, hflits, halarms⟩ := State.evtReaches_parts _ _ hv
    obtain ⟨hf, hevents, hnotice, hdue⟩ := (v.injected .evt).formEvents_forms
    have e : exec (.alarmDemandNotice dt) s = .next (v.injected .evt).formEvents := by
      simp only [exec, execAlarmDemandNotice, ← hu, hn]
      rw [if_pos (by rw [hl, hm]; rfl), hv]
    obtain ⟨t, ht⟩ : ∃ t, t = (v.injected .evt).formEvents := ⟨_, rfl⟩
    rw [← ht] at e hf hevents hnotice hdue
    have hevt : v.evt = { u.evt with notice := none } := by rw [hvf]; rfl
    have hta : t.alarms = v.alarms := (congrArg State.alarms hf.frame :)
    have houts (h9 : f.sinks.contains 9 = true) : t.alarms[o] = u.outputAfter f.tells.demand o := by
      rw [hta, halarms, if_pos h9]
      exact Vector.getElem_ofFn _
    refine ⟨t, e, ?_, ?_, ?_, hdue, ?_, ?_, fun h9 => ?_, fun h9 => ?_⟩
    · have := hf.frame
      rw [hvf] at this
      rw [hta]
      exact this
    · rw [hf.cells, hvf]
      rfl
    · rw [hnotice]
      exact (congrArg Evt.notice hevt :)
    · rw [hevents]
      exact (congrArg (fun x : Evt => x.events + BitVec.ofNat 64 x.due.length) hevt :)
    · exact (congrArg Fab.uFlits hf.fab :).trans (congrArg (· + 1) hflits)
    · rw [hta, halarms, if_neg (by rw [h9]; decide)]
      rfl
    · rw [houts h9]
      refine ⟨State.outputAfter_demanded _, State.outputAfter_kept _, fun h1 h2 h3 => ?_⟩
      rw [State.outputAfter_follows _ h1 h2 h3]
      refine ⟨fun hm hd => ?_, fun hm hd => ?_, fun hm => ?_⟩
      · rw [hd, (AlarmOut.follow_plain _ _ _ hm).1]
      · rw [hd, (AlarmOut.follow_plain _ _ _ hm).2]
        rfl
      · rw [hm]
        exact AlarmOut.follow_latching _ _ _ _
  · simp only [exec, execAlarmMinAssertExpiry, ← hu]
    rw [if_pos (by rw [hl, h1, h2, h3, h4, h5, decide_eq_true h6]; rfl)]
    rfl

end Sys2Proof.Machine

/-! SUPPORT. The black-box store and its mirror, vendor requests of the placket and management requests on a lane. -/

namespace Sys2Proof.Machine

section

variable {s t u v w : State}

/-! ## The store and its mirror (R418 to R422) -/

theorem memRead_writeAll_before (d : Byte) (b : List Byte) (m : List Host.Cell) (x y : Nat) (h : Memory.wf d m = true) (hy : y < x) :
    memRead d (memWriteAll d m x b) y = memRead d m y := by
  induction b generalizing m x with
  | nil => rfl
  | cons v rest ih =>
    exact (ih _ _ (memWrite_wf d m x v h) (by omega)).trans (memRead_write_other d m x y v (by omega) h)

theorem memRead_writeAll_after (d : Byte) (b : List Byte) (m : List Host.Cell) (x y : Nat) (h : Memory.wf d m = true)
    (hy : x + b.length ≤ y) : memRead d (memWriteAll d m x b) y = memRead d m y := by
  induction b generalizing m x with
  | nil => rfl
  | cons v rest ih =>
    rw [List.length_cons] at hy
    exact (ih _ _ (memWrite_wf d m x v h) (by omega)).trans (memRead_write_other d m x y v (by omega) h)

theorem memRead_writeAll_inside (d : Byte) (b : List Byte) (m : List Host.Cell) (x i : Nat) (c : Byte) (h : Memory.wf d m = true)
    (hi : b[i]? = some c) : memRead d (memWriteAll d m x b) (x + i) = c := by
  induction b generalizing m x i with
  | nil => cases hi
  | cons v rest ih =>
    have hw := memWrite_wf d m x v h
    cases i with
    | zero =>
      cases hi
      exact (memRead_writeAll_before d rest _ (x + 1) x hw (by omega)).trans (memRead_write_same d m x _ h)
    | succ i =>
      have := ih (memWrite d m x v) (x + 1) i hw hi
      rwa [Nat.add_right_comm, Nat.add_assoc] at this

@[simp] theorem le_length (n v : Nat) : (le n v).length = n := by
  induction n generalizing v with
  | zero => rfl
  | succ n ih => rw [le, List.length_cons, ih]

@[simp] theorem slice_length (bs : List Byte) (off n : Nat) : (slice bs off n).length = n := by
  simp only [slice, List.length_append, List.length_replicate, List.length_take]
  omega

theorem slotBytes_length (x : Option (Option BbxRec)) (index : Nat) : (slotBytes x index).length = 64 := by
  unfold slotBytes
  split
  · simp [BbxRec.bytes]
  · exact slice_length ..
  · exact List.length_replicate

theorem storeBytes_length (slots : List (Option BbxRec)) (next : Nat) : (storeBytes slots next).length = 0x80000 := by
  simp only [storeBytes, List.length_flatMap, slotBytes_length, List.map_const', List.length_range, List.sum_replicate_nat, bbxSlots]

theorem mirrorHeader_length (slots : List (Option BbxRec)) (next : Nat) (boot : U32) (time : U64) (payload : List Byte) :
    (mirrorHeader slots next boot time payload).length = 64 := by
  simp [mirrorHeader]

theorem exec_bbxRecordWritten {dt : Nat} {r : BbxRec} {rest : List BbxRec} (hu : u = s.elapse dt) (hl : u.live = true)
    (hq : u.bbx.queue = r :: rest) : exec (.bbxRecordWritten dt) s = .next { u with bbx := { u.bbx with
      queue := rest, slots := (some { r with seq := u.bbx.nextSeq } :: u.bbx.slots).take 8192, lastSeq := u.bbx.nextSeq
      next := (u.bbx.next + 1) % 8192 } } := by
  simp only [exec, execBbxRecordWritten, ← hu, hl, if_true, hq]
  rfl

theorem exec_bbxMirrorStart {dt : Nat} (hu : u = s.elapse dt) (hl : u.live = true) (hc : u.cfg.state = 1) (hm : u.mirrorOn = 1)
    (hb : u.bbx.mirrorBegun = false) : exec (.bbxMirrorStart dt) s = .next { u with
      bbx := { u.bbx with mirrorBegun := true, mirrorState := 1, mirror := some (u.bbx.slots, u.bbx.next, u.devTime) }
      flash := { u.flash with cells := memClear u.flash.cells 0x400000 u.mirrorEnd } } := by
  simp only [exec, execBbxMirrorStart, ← hu]
  rw [if_pos (by simp [hl, hc, hm, hb])]

/-- The flash with a mirror programmed: the store from 0x401000 and its header before it. -/
def mirrorCells (cells : List Host.Cell) (head body : List Byte) : List Host.Cell :=
  memWriteAll erased (memWriteAll erased cells 0x401000 body) 0x400000 head

section
variable {cells : List Host.Cell} {head body : List Byte} (h : Memory.wf erased cells = true)
include h

theorem mirrorCells_head {i : Nat} {b : Byte} (hi : head[i]? = some b) :
    memRead erased (mirrorCells cells head body) (0x400000 + i) = b :=
  memRead_writeAll_inside _ _ _ _ _ _ (memWriteAll_wf _ _ _ _ h) hi

theorem mirrorCells_body (hn : head.length = 64) {i : Nat} {b : Byte} (hi : body[i]? = some b) :
    memRead erased (mirrorCells cells head body) (0x401000 + i) = b :=
  (memRead_writeAll_after _ _ _ _ _ (memWriteAll_wf _ _ _ _ h) (by omega)).trans (memRead_writeAll_inside _ _ _ _ _ _ h hi)

theorem mirrorCells_outside (hn : head.length = 64) (hb : body.length = 0x80000) {a : Nat} (ha : a < 0x400000 ∨ 0x481000 ≤ a) :
    memRead erased (mirrorCells cells head body) a = memRead erased cells a := by
  have hw := memWriteAll_wf erased body cells 0x401000 h
  rcases ha with ha | ha
  · exact (memRead_writeAll_before _ _ _ _ _ hw ha).trans (memRead_writeAll_before _ _ _ _ _ h (by omega))
  · exact (memRead_writeAll_after _ _ _ _ _ hw (by omega)).trans (memRead_writeAll_after _ _ _ _ _ h (by omega))

end

/-- The state once a mirror has been programmed. -/
def State.mirrored (u : State) (slots : List (Option BbxRec)) (head body : List Byte) : State :=
  { u with
    flash := { u.flash with cells := mirrorCells u.flash.cells head body }
    bbx := { u.bbx with mirror := none, mirrorState := 2, mirrorSeq := ((validRecs slots).head?.map (·.seq)).getD 0 } }

theorem exec_bbxMirrorDone {dt next : Nat} {slots : List (Option BbxRec)} {time : U64} {head body : List Byte}
    (hu : u = s.elapse dt) (hl : u.live = true) (hm : u.bbx.mirror = some (slots, next, time)) (hb : body = storeBytes slots next)
    (hh : head = mirrorHeader slots next u.bbx.boot time body) :
    exec (.bbxMirrorDone dt true) s = .next (u.mirrored slots head body) := by
  simp only [exec, execBbxMirrorDone, ← hu, hm, hl, hh, hb]
  rfl

theorem State.mirrored_frame (slots : List (Option BbxRec)) (head body : List Byte) (ht : t = u.mirrored slots head body) :
    t = { u with
      flash := { u.flash with cells := t.flash.cells }
      bbx := { u.bbx with mirror := none, mirrorState := 2, mirrorSeq := t.bbx.mirrorSeq } } := by
  subst ht
  rfl

theorem exec_bbxMirrorDone_failed {dt next : Nat} {slots : List (Option BbxRec)} {time : U64} (hu : u = s.elapse dt)
    (hl : u.live = true) (hm : u.bbx.mirror = some (slots, next, time)) : exec (.bbxMirrorDone dt false) s =
      .next (({ u with free := u.free + 1, bbx := { u.bbx with mirror := none, mirrorState := 3 } } : State).warn 0x00030001#32
        (BitVec.ofNat 32 (Config.freeWord u.free).toNat) true) := by
  simp only [exec, execBbxMirrorDone, ← hu, hm, hl]
  rfl

end

/-- Settles O57: a record written takes the head of the queue; starting the mirror clears its region; ending it writes store and
header, which lie apart, and no byte beyond them. -/
theorem blackBoxKeeps : Obligations.BlackBoxKeeps := by
  intro s u dt hu hl hwf
  refine ⟨fun r rest hq => exec_bbxRecordWritten hu hl hq,
    fun hc hm hb => ⟨_, exec_bbxMirrorStart hu hl hc hm hb, rfl, fun _ => memRead_clear ..⟩, fun slots next time hm => ⟨?_,
      _, exec_bbxMirrorDone_failed hu hl hm, fun ha => State.warn_warned _ _ _ _ ha, State.warn_hushed _ _ _ _⟩⟩
  obtain ⟨body, hb⟩ : ∃ body, body = storeBytes slots next := ⟨_, rfl⟩
  obtain ⟨head, hh⟩ : ∃ head, head = mirrorHeader slots next u.bbx.boot time body := ⟨_, rfl⟩
  have hlb : body.length = 0x80000 := by rw [hb, storeBytes_length]
  have hlh : head.length = 64 := by rw [hh, mirrorHeader_length]
  rw [← hb, ← hh]
  exact ⟨_, exec_bbxMirrorDone hu hl hm hb hh, State.mirrored_frame _ _ _ rfl, fun _ _ hi => mirrorCells_head hwf hi,
    fun _ _ hi => mirrorCells_body hwf hlh hi, fun _ ha => mirrorCells_outside hwf hlh hlb ha⟩

section

variable {s t u v w : State} {r : MgmtReq}

/-! ## Requests and what they yield (Tables 11.15, 11.16 and 14.8) -/

theorem State.serveStatus_outOfRange {path : AccessPath} {most : Nat} (failed : Bool)
    (h : r.offset % 4 ≠ 0 ∨ r.length % 4 ≠ 0 ∨ most < r.length ∨ statusEnd < r.offset + r.length) :
    s.serveStatus path most r failed = (2, [], s) := if_pos h

theorem State.serveStatus_inRange {path : AccessPath} {most : Nat} (h4 : r.offset % 4 = 0) (hl4 : r.length % 4 = 0)
    (hm : r.length ≤ most) (he : r.offset + r.length ≤ statusEnd) :
    s.serveStatus path most r false = (0, s.statusRead path r.offset r.length) ∧
      s.serveStatus path most r true = (4, [], { s with readFailures := s.readFailures + 1 }) := by
  have h : ¬(r.offset % 4 ≠ 0 ∨ r.length % 4 ≠ 0 ∨ most < r.length ∨ statusEnd < r.offset + r.length) := by omega
  exact ⟨(if_neg h).trans (if_neg Bool.false_ne_true), (if_neg h).trans (if_pos rfl)⟩

theorem State.statusRead_snd (path : AccessPath) (offset length : Nat) :
    (s.statusRead path offset length).2 = { s with latches := (s.statusRead path offset length).2.latches } := rfl

/-- The data of a black-box read of whole records. -/
def BlackBox.records (b : BlackBox) (r : MgmtReq) : List Byte :=
  (List.range (r.length / 64)).flatMap fun k => b.recordAt (r.offset + k)

theorem State.serveBlackBox_served {most : Nat} (h : r.offset < 8192 ∧ r.length % 64 = 0 ∧ r.length ≤ most) :
    s.serveBlackBox most r = (0, s.bbx.records r, s) := if_neg (by unfold bbxSlots; omega)

theorem State.serveBlackBox_refused {most : Nat} (h : ¬(r.offset < 8192 ∧ r.length % 64 = 0 ∧ r.length ≤ most)) :
    s.serveBlackBox most r = (2, [], s) := if_pos (by unfold bbxSlots; omega)

theorem State.serveEcho_served (h : r.offset = 0 ∧ r.length ≤ 1024) : s.serveEcho r = (0, slice r.data 0 r.length, s) :=
  if_neg (by omega)

theorem State.serveEcho_refused (h : ¬(r.offset = 0 ∧ r.length ≤ 1024)) : s.serveEcho r = (2, [], s) := if_pos (by omega)

theorem State.serveDump_served (h : r.offset = 0 ∧ r.length = 0) :
    s.serveDump r = (0, mirrorHeader s.bbx.slots s.bbx.next s.bbx.boot s.devTime (storeBytes s.bbx.slots s.bbx.next) ++
      storeBytes s.bbx.slots s.bbx.next, s) := if_neg (by omega)

theorem State.serveDump_refused (h : ¬(r.offset = 0 ∧ r.length = 0)) : s.serveDump r = (2, [], s) := if_pos (by omega)

/-! ## The placket (R446, R447) -/

theorem State.plkServe_discards (hp : u.plkOn = true) (hc : u.plk.configured = true) (hs : r.sync ≠ plkSync) (op : Nat)
    (f : State → Served) :
    u.plkServe r op f = { u with plk := { u.plk with requestsDiscarded := u.plk.requestsDiscarded + 1 } } := by
  unfold State.plkServe
  rw [hp, hc, if_neg (by decide), if_pos hs]

theorem State.plkServe_eq (hp : u.plkOn = true) (hc : u.plk.configured = true) (hs : r.sync = plkSync) (op : Nat)
    (f : State → Served) (hv : v = { u with plk := { u.plk with requests := u.plk.requests + 1 } }) :
    u.plkServe r op f = (f v).2.2.send (.usb (answerBytes plkSync.toNat op (f v).1 r (f v).2.1 (f v).2.2.devTime)) := by
  unfold State.plkServe
  rw [hp, hc, if_neg (by decide), if_neg (not_not_intro hs), hv]

/-- A request of which reading touches latches and read failures alone is answered so. -/
theorem State.plkServe_answers (hp : u.plkOn = true) (hc : u.plk.configured = true) (hs : r.sync = plkSync) {op res : Nat}
    {data : List Byte} {f : State → Served} (hv : v = { u with plk := { u.plk with requests := u.plk.requests + 1 } })
    (hf : f v = (res, data, w)) (hw : w = { v with latches := w.latches, readFailures := w.readFailures }) :
    (u.plkServe r op f).latches = w.latches ∧ (u.plkServe r op f).readFailures = w.readFailures ∧
      (u.plkServe r op f).PlacketAnswers u r op res data := by
  rw [State.plkServe_eq hp hc hs op f hv, hf, hw, hv]
  exact ⟨rfl, rfl, rfl⟩

/-- Sending what is no MSI-X message adds to two states that differ in reports alone. -/
theorem OnlyReports.send (h : OnlyReports t u) {o : Output} (ho : o.isPlain = true) : OnlyReports (t.send o) (u.send o) := by
  have k (x : State) : (x.send o).hushed = x.hushed.send o := by
    simp only [State.send, State.hushed, List.filter_cons_of_pos ho]
  exact (k t).trans ((congrArg (State.send · o) h).trans (k u).symm)

theorem State.restartRecord_hushed (path : Nat) (refused : Bool) : (s.restartRecord path refused).hushed = s.hushed :=
  State.record_hushed ..

theorem OnlyReports.devTime (h : OnlyReports t u) : t.devTime = u.devTime := (congrArg State.devTime h :)

/-- A power request that is added to two states that differ in reports alone. -/
theorem OnlyReports.setPower (h : OnlyReports t u) (f : Power → Nat → Power) :
    OnlyReports { t with power := f t.power t.now } { u with power := f u.power u.now } :=
  (congrArg (fun x : State => { x with power := f x.power x.now }) h :)

end

section

variable {s u v : State} {r : MgmtReq} {dt : Nat} (hu : u = s.elapse dt) (hp : u.plkOn = true) (hc : u.plk.configured = true)
include hu hp hc

theorem exec_placket_discards (hs : r.sync ≠ plkSync) :
    ∀ c ∈ [Instr.placketStatusRead dt r false, .placketBlackBoxRead dt r, .placketEcho dt r,
      .placketBlackBoxDump dt r, .placketRestart dt r, .placketBadRequest dt r], exec c s =
        .next { u with plk := { u.plk with requestsDiscarded := u.plk.requestsDiscarded + 1 } } := by
  have k (op : Nat) (f : State → Served) : Host.Outcome.next ((s.elapse dt).plkServe r op f) =
      (.next { u with plk := { u.plk with requestsDiscarded := u.plk.requestsDiscarded + 1 } } : Host.Outcome State Fault Refusal) := by
    rw [← hu, State.plkServe_discards hp hc hs]
  intro c h
  simp only [List.mem_cons, List.not_mem_nil, or_false] at h
  rcases h with rfl | rfl | rfl | rfl | rfl | rfl <;> exact k _ _

variable (hv : v = { u with plk := { u.plk with requests := u.plk.requests + 1 } }) (hs : r.sync = plkSync)
include hv hs

theorem exec_placketStatusRead_inRange (h4 : r.offset % 4 = 0) (hl4 : r.length % 4 = 0) (hm : r.length ≤ 65536)
    (he : r.offset + r.length ≤ statusEnd) :
    (∃ t, exec (.placketStatusRead dt r false) s = .next t ∧ t.readFailures = u.readFailures ∧
      t.PlacketAnswers u r 1 0 (v.statusRead .placket r.offset r.length).1) ∧
    ∃ t, exec (.placketStatusRead dt r true) s = .next t ∧ t.PlacketAnswers u r 1 4 [] ∧ t.readFailures = u.readFailures + 1 ∧
      t.latches = u.latches := by
  simp only [exec, execPlacketStatusRead, ← hu]
  obtain ⟨hok, hfail⟩ := v.serveStatus_inRange (path := .placket) h4 hl4 (show r.length ≤ plkMost from hm) he
  obtain ⟨-, hf, ha⟩ := State.plkServe_answers hp hc hs (op := 1)
    (f := fun s => s.serveStatus .placket plkMost r false) hv hok (by rfl)
  obtain ⟨hl', hf', ha'⟩ := State.plkServe_answers hp hc hs (op := 1)
    (f := fun s => s.serveStatus .placket plkMost r true) hv hfail rfl
  subst hv
  exact ⟨⟨_, rfl, hf, ha⟩, _, rfl, ha', hf', hl'⟩

theorem exec_placketStatusRead_outOfRange (failed : Bool)
    (h : r.offset % 4 ≠ 0 ∨ r.length % 4 ≠ 0 ∨ 65536 < r.length ∨ statusEnd < r.offset + r.length) :
    ∃ t, exec (.placketStatusRead dt r failed) s = .next t ∧ t.PlacketAnswers u r 1 2 [] ∧ t.readFailures = u.readFailures ∧
      t.latches = u.latches := by
  simp only [exec, execPlacketStatusRead, ← hu]
  obtain ⟨hl, hf, ha⟩ := State.plkServe_answers hp hc hs (op := 1)
    (f := fun s => s.serveStatus .placket plkMost r failed) hv (State.serveStatus_outOfRange failed h) rfl
  subst hv
  exact ⟨_, rfl, ha, hf, hl⟩

/-- A request that changes nothing but is answered in one of two ways. -/
theorem plkServe_split (op : Nat) {c : Prop} [Decidable c] {data : List Byte} (f : State → Served) (hyes : c → f v = (0, data, v))
    (hno : ¬c → f v = (2, [], v)) :
    ∃ t, (Host.Outcome.next ((s.elapse dt).plkServe r op f) : Host.Outcome State Fault Refusal) = .next t ∧
      t.readFailures = u.readFailures ∧ t.latches = u.latches ∧
      (if c then t.PlacketAnswers u r op 0 data else t.PlacketAnswers u r op 2 []) := by
  rw [← hu]
  by_cases h : c
  · obtain ⟨hl, hf, ha⟩ := State.plkServe_answers hp hc hs (op := op) hv (hyes h) rfl
    rw [hv] at hl hf
    exact ⟨_, rfl, hf, hl, by rwa [if_pos h]⟩
  · obtain ⟨hl, hf, ha⟩ := State.plkServe_answers hp hc hs (op := op) hv (hno h) rfl
    rw [hv] at hl hf
    exact ⟨_, rfl, hf, hl, by rwa [if_neg h]⟩

theorem exec_placketBlackBoxRead :
    ∃ t, exec (.placketBlackBoxRead dt r) s = .next t ∧ t.readFailures = u.readFailures ∧ t.latches = u.latches ∧
      (if r.offset < 8192 ∧ r.length % 64 = 0 ∧ r.length ≤ 65536 then t.PlacketAnswers u r 2 0 (u.bbx.records r)
       else t.PlacketAnswers u r 2 2 []) :=
  plkServe_split hu hp hc hv hs 2 _
    (fun h => (State.serveBlackBox_served (most := plkMost) h).trans (by rw [hv])) State.serveBlackBox_refused

theorem exec_placketEcho :
    ∃ t, exec (.placketEcho dt r) s = .next t ∧ t.readFailures = u.readFailures ∧ t.latches = u.latches ∧
      (if r.offset = 0 ∧ r.length ≤ 1024 then t.PlacketAnswers u r 3 0 (slice r.data 0 r.length) else t.PlacketAnswers u r 3 2 []) :=
  plkServe_split hu hp hc hv hs 3 _ State.serveEcho_served State.serveEcho_refused

theorem exec_placketBlackBoxDump :
    ∃ t, exec (.placketBlackBoxDump dt r) s = .next t ∧ t.readFailures = u.readFailures ∧ t.latches = u.latches ∧
      (if r.offset = 0 ∧ r.length = 0 then
        t.PlacketAnswers u r 4 0 (mirrorHeader u.bbx.slots u.bbx.next u.bbx.boot u.devTime (storeBytes u.bbx.slots u.bbx.next) ++
          storeBytes u.bbx.slots u.bbx.next)
       else t.PlacketAnswers u r 4 2 []) :=
  plkServe_split hu hp hc hv hs 4 _ (fun h => (State.serveDump_served h).trans (by rw [hv]; rfl)) State.serveDump_refused

theorem exec_placketBadRequest (ho : 5 < r.op ∨ r.op = 0) :
    ∃ t, exec (.placketBadRequest dt r) s = .next t ∧ t.PlacketAnswers u r r.op 1 [] ∧
      t.readFailures = u.readFailures ∧ t.latches = u.latches := by
  simp only [exec, execPlacketBadRequest, ← hu]
  rw [show (fun s : State => _) = _ from funext fun s => (if_neg (by omega)).trans <| (if_neg (by omega)).trans <|
    (if_neg (by omega)).trans <| (if_neg (by omega)).trans (if_neg (by omega))]
  obtain ⟨hl, hf, ha⟩ := State.plkServe_answers hp hc hs (op := r.op) (f := fun s => (1, [], s)) hv rfl rfl
  subst hv
  exact ⟨_, rfl, ha, hf, hl⟩

theorem exec_placketRestart_bad (h : r.offset ≠ 0x52535452 ∨ r.length ≠ 0) : exec (.placketRestart dt r) s = .next { u with
    plk := { u.plk with requests := u.plk.requests + 1, restarts := u.plk.restarts + 1 }
    outputs := .usb (answerBytes plkSync.toNat 5 2 r [] u.devTime) :: u.outputs } := by
  simp only [exec, execPlacketRestart, ← hu]
  rw [State.plkServe_eq hp hc hs 5 _ hv]
  simp only [State.serveRestart]
  rw [if_pos h, hv]
  rfl

theorem exec_placketRestart_refused (ho : r.offset = 0x52535452) (hl : r.length = 0) (hg : u.cfg.staging ≠ none) :
    ∃ t, exec (.placketRestart dt r) s = .next t ∧ OnlyReports t { u with
      plk := { u.plk with requests := u.plk.requests + 1, restarts := u.plk.restarts + 1 }
      cfg := { u.cfg with restartRefused := u.cfg.restartRefused + 1 }
      outputs := .usb (answerBytes plkSync.toNat 5 3 r [] u.devTime) :: u.outputs } := by
  simp only [exec, execPlacketRestart, ← hu]
  obtain ⟨w, hw⟩ : ∃ w : State, w = { u with
    plk := { u.plk with requests := u.plk.requests + 1, restarts := u.plk.restarts + 1 }
    cfg := { u.cfg with restartRefused := u.cfg.restartRefused + 1 } } := ⟨_, rfl⟩
  have hr : OnlyReports (w.restartRecord 4 true) w := State.restartRecord_hushed ..
  have hf : v.serveRestart r = (3, [], w.restartRecord 4 true) := by
    simp only [State.serveRestart]
    rw [if_neg (by omega), hv, hw, if_pos (Option.isSome_iff_ne_none.mpr hg)]
  refine ⟨_, congrArg _ (State.plkServe_eq hp hc hs 5 _ hv), ?_⟩
  rw [hf, hr.devTime]
  have k := hr.send (o := .usb (answerBytes plkSync.toNat 5 3 r [] w.devTime)) rfl
  subst hw
  exact k

theorem exec_placketRestart_accepted (ho : r.offset = 0x52535452) (hl : r.length = 0) (hg : u.cfg.staging = none) :
    ∃ t, exec (.placketRestart dt r) s = .next t ∧ OnlyReports t { u with
      plk := { u.plk with requests := u.plk.requests + 1, restarts := u.plk.restarts + 1 }
      power := { u.power with request := (if u.power.request.isSome then u.power.request else some (4, u.now)) }
      outputs := .usb (answerBytes plkSync.toNat 5 0 r [] u.devTime) :: u.outputs } := by
  simp only [exec, execPlacketRestart, ← hu]
  obtain ⟨w, hw⟩ : ∃ w : State, w = { u with
    plk := { u.plk with requests := u.plk.requests + 1, restarts := u.plk.restarts + 1 } } := ⟨_, rfl⟩
  have hr : OnlyReports (w.restartRecord 4 false) w := State.restartRecord_hushed ..
  have hp' := hr.setPower fun p now => { p with request := if p.request.isSome then p.request else some (4, now) }
  generalize hx : ({ w.restartRecord 4 false with power := _ } : State) = x at hp'
  have hf : v.serveRestart r = (0, [], x) := by
    simp only [State.serveRestart]
    rw [if_neg (by omega), hv, ← hx, hw, if_neg (by rw [hg]; decide)]
  refine ⟨_, congrArg _ (State.plkServe_eq hp hc hs 5 _ hv), ?_⟩
  rw [hf, hp'.devTime]
  have k := hp'.send (o := .usb (answerBytes plkSync.toNat 5 0 r [] w.devTime)) rfl
  subst hw
  exact k

end

/-- Settles O53: by the RESULT of each request: a discarded one, those that reading alone answers, and the restart. -/
theorem placketAnswersRequests : Obligations.PlacketAnswersRequests := by
  intro s u v dt r hu hp hc hv
  refine ⟨exec_placket_discards hu hp hc, fun hs => ⟨fun h4 hl4 hm he => exec_placketStatusRead_inRange hu hp hc hv hs h4 hl4 hm he,
    fun failed h => exec_placketStatusRead_outOfRange hu hp hc hv hs failed h, exec_placketBlackBoxRead hu hp hc hv hs,
    exec_placketEcho hu hp hc hv hs, exec_placketBlackBoxDump hu hp hc hv hs, exec_placketRestart_bad hu hp hc hv hs,
    fun ho hl => ⟨exec_placketRestart_refused hu hp hc hv hs ho hl, exec_placketRestart_accepted hu hp hc hv hs ho hl⟩,
    exec_placketBadRequest hu hp hc hv hs⟩⟩

section

variable {s t u v w : State} {r : MgmtReq} {l : Lane} {dt : Nat}

/-! ## Management on a lane (R352) -/

/-- A request that the lane has counted is served and its answer sent. -/
def State.mgmtAnswer (s : State) (l : Lane) (r : MgmtReq) (op : Nat) (f : State → Served) : State :=
  let x := f s
  let s := x.2.2.setLane l fun y => { y with txFrames := y.txFrames + 1 }
  s.send (.udp l r.srcMac r.srcIp (s.mgmtPort l) r.srcPort Config.answerDscp
    (answerBytes mgmtSync.toNat op x.1 r x.2.1 s.devTime))

variable (hl : u.laneUp l = true)
include hl

theorem State.mgmtServe_noPort (hm : u.mgmtPort l = 0) (op : Nat) (f : State → Served) :
    u.mgmtServe l r op f = { u with
      lanes := upd u.lanes l fun x => { x with rxFrames := x.rxFrames + 1, rxDiscards := x.rxDiscards + 1 } } := by
  unfold State.mgmtServe
  rw [hl, if_neg (by decide)]
  refine (if_pos hm).trans ?_
  simp only [State.setLane, upd_upd]

theorem State.mgmtServe_dropped (hm : u.mgmtPort l ≠ 0) (hs : r.sync ≠ mgmtSync ∨ 16 ≤ u.lanes[l].heldAt u.now) (op : Nat)
    (f : State → Served) :
    u.mgmtServe l r op f = { u with
      lanes := upd u.lanes l fun x => { x with rxFrames := x.rxFrames + 1 }
      mgmt := { u.mgmt with dropped := u.mgmt.dropped + 1 } } := by
  unfold State.mgmtServe
  rw [hl, if_neg (by decide)]
  refine (if_neg hm).trans ?_
  by_cases h : r.sync = mgmtSync
  · refine (if_neg (not_not_intro h)).trans (if_pos ?_)
    rcases hs with hs | hs
    · exact absurd h hs
    · simp only [State.setLane]
      rw [upd_get_same]
      exact hs
  · exact if_pos h

/-- A request of which reading touches latches and read failures alone is answered so. -/
theorem State.mgmtServe_answers (hm : u.mgmtPort l ≠ 0) (hs : r.sync = mgmtSync) (hh : u.lanes[l].heldAt u.now < 16) {op res : Nat}
    {data : List Byte} {f : State → Served} (hv : v = { u with
      lanes := upd u.lanes l fun x => { x with rxFrames := x.rxFrames + 1, asked := x.heldAt u.now + 1, askedAt := u.now }
      mgmt := { u.mgmt with requests := u.mgmt.requests + 1 } })
    (hf : f v = (res, data, w)) (hw : w = { v with latches := w.latches, readFailures := w.readFailures }) :
    (u.mgmtServe l r op f).latches = w.latches ∧ (u.mgmtServe l r op f).readFailures = w.readFailures ∧
      (u.mgmtServe l r op f).LaneAnswers u l r op res data := by
  have hc : ({ (u.setLane l fun x => { x with rxFrames := x.rxFrames + 1 }).setLane l
      (fun x => { x with asked := x.heldAt u.now + 1, askedAt := u.now }) with
      mgmt := { u.mgmt with requests := u.mgmt.requests + 1 } } : State) = v := by
    simp only [State.setLane, upd_upd, hv]
    rfl
  have k : u.mgmtServe l r op f = v.mgmtAnswer l r op f := by
    unfold State.mgmtServe
    rw [hl, if_neg (by decide)]
    refine (if_neg hm).trans ((if_neg (not_not_intro hs)).trans ((if_neg ?_).trans (congrArg (State.mgmtAnswer · l r op f) hc)))
    simp only [State.setLane]
    rw [upd_get_same]
    exact Nat.not_le.mpr hh
  rw [k, State.mgmtAnswer, hf, hw, hv]
  simp only [State.setLane, State.send, State.LaneAnswers, upd_upd]
  exact ⟨trivial, trivial, rfl⟩

end

section

variable {s u v : State} {r : MgmtReq} {l : Lane} {dt : Nat} (hu : u = s.elapse dt) (hl : u.laneUp l = true)
  (hm : u.mgmtPort l ≠ 0) (hs : r.sync = mgmtSync) (hh : u.lanes[l].heldAt u.now < 16)
  (hv : v = { u with
    lanes := upd u.lanes l fun x => { x with rxFrames := x.rxFrames + 1, asked := x.heldAt u.now + 1, askedAt := u.now }
    mgmt := { u.mgmt with requests := u.mgmt.requests + 1 } })
include hu hl hm hs hh hv

theorem exec_mgmtStatusRead_inRange (h4 : r.offset % 4 = 0) (hl4 : r.length % 4 = 0) (hn : r.length ≤ 1024)
    (he : r.offset + r.length ≤ statusEnd) :
    (∃ t, exec (.mgmtStatusRead dt l r false) s = .next t ∧ t.LaneAnswers u l r 1 0 (v.statusRead (lanePath l) r.offset r.length).1 ∧
      t.readFailures = u.readFailures) ∧
    ∃ t, exec (.mgmtStatusRead dt l r true) s = .next t ∧ t.LaneAnswers u l r 1 4 [] ∧ t.readFailures = u.readFailures + 1 ∧
      t.latches = u.latches := by
  simp only [exec, execMgmtStatusRead, ← hu]
  obtain ⟨hok, hfail⟩ := v.serveStatus_inRange (path := lanePath l) h4 hl4 hn he
  obtain ⟨-, hf, ha⟩ := State.mgmtServe_answers hl hm hs hh (op := 1)
    (f := fun s => s.serveStatus (lanePath l) 1024 r false) hv hok (by rfl)
  obtain ⟨hl', hf', ha'⟩ := State.mgmtServe_answers hl hm hs hh (op := 1)
    (f := fun s => s.serveStatus (lanePath l) 1024 r true) hv hfail rfl
  subst hv
  exact ⟨⟨_, rfl, ha, hf⟩, _, rfl, ha', hf', hl'⟩

/-- A request that changes nothing but is answered. -/
theorem mgmtServe_answered {op res : Nat} {data : List Byte} {f : State → Served} (hf : f v = (res, data, v)) :
    ∃ t, (Host.Outcome.next ((s.elapse dt).mgmtServe l r op f) : Host.Outcome State Fault Refusal) = .next t ∧
      t.readFailures = u.readFailures ∧ t.latches = u.latches ∧ t.LaneAnswers u l r op res data := by
  rw [← hu]
  obtain ⟨hl, hf, ha⟩ := State.mgmtServe_answers hl hm hs hh (op := op) hv hf rfl
  rw [hv] at hl hf
  exact ⟨_, rfl, hf, hl, ha⟩

/-- A request that changes nothing but is answered in one of two ways. -/
theorem mgmtServe_split (op : Nat) {c : Prop} [Decidable c] {data : List Byte} (f : State → Served) (hyes : c → f v = (0, data, v))
    (hno : ¬c → f v = (2, [], v)) :
    ∃ t, (Host.Outcome.next ((s.elapse dt).mgmtServe l r op f) : Host.Outcome State Fault Refusal) = .next t ∧
      t.readFailures = u.readFailures ∧ t.latches = u.latches ∧
      (if c then t.LaneAnswers u l r op 0 data else t.LaneAnswers u l r op 2 []) := by
  by_cases h : c
  · simp only [h, if_true]
    exact mgmtServe_answered hu hl hm hs hh hv (hyes h)
  · simp only [h, if_false]
    exact mgmtServe_answered hu hl hm hs hh hv (hno h)

theorem exec_mgmtStatusRead_outOfRange (failed : Bool)
    (h : r.offset % 4 ≠ 0 ∨ r.length % 4 ≠ 0 ∨ 1024 < r.length ∨ statusEnd < r.offset + r.length) :
    ∃ t, exec (.mgmtStatusRead dt l r failed) s = .next t ∧ t.LaneAnswers u l r 1 2 [] ∧ t.readFailures = u.readFailures ∧
      t.latches = u.latches := by
  obtain ⟨t, ht, hf, hl, ha⟩ := mgmtServe_answered hu hl hm hs hh hv (op := 1)
    (f := fun s => s.serveStatus (lanePath l) 1024 r failed) (State.serveStatus_outOfRange failed h)
  exact ⟨t, ht, ha, hf, hl⟩

theorem exec_mgmtBlackBoxRead :
    ∃ t, exec (.mgmtBlackBoxRead dt l r) s = .next t ∧ t.readFailures = u.readFailures ∧ t.latches = u.latches ∧
      (if r.offset < 8192 ∧ r.length % 64 = 0 ∧ r.length ≤ 1024 then t.LaneAnswers u l r 2 0 (u.bbx.records r)
       else t.LaneAnswers u l r 2 2 []) :=
  mgmtServe_split hu hl hm hs hh hv 2 _ (fun h => (State.serveBlackBox_served (most := 1024) h).trans (by rw [hv]))
    State.serveBlackBox_refused

theorem exec_mgmtEcho :
    ∃ t, exec (.mgmtEcho dt l r) s = .next t ∧ t.readFailures = u.readFailures ∧ t.latches = u.latches ∧
      (if r.offset = 0 ∧ r.length ≤ 1024 then t.LaneAnswers u l r 3 0 (slice r.data 0 r.length) else t.LaneAnswers u l r 3 2 []) :=
  mgmtServe_split hu hl hm hs hh hv 3 _ State.serveEcho_served State.serveEcho_refused

theorem exec_mgmtUnknownOp (h1 : r.op ≠ 1) (h2 : r.op ≠ 2) (h3 : r.op ≠ 3) :
    ∃ t, exec (.mgmtUnknownOp dt l r) s = .next t ∧ t.readFailures = u.readFailures ∧ t.latches = u.latches ∧
      t.LaneAnswers u l r r.op 1 [] :=
  mgmtServe_answered hu hl hm hs hh hv ((if_neg h1).trans ((if_neg h2).trans (if_neg h3)))

end

/-- Settles O47: by the lane's port, the SYNC, the requests held and the RESULT of each operation. -/
theorem managementAnswers : Obligations.ManagementAnswers := by
  intro s u v dt l r hu hl hv
  refine ⟨fun hm => ?_, fun hm hs => ?_, fun hm hs hh => ⟨exec_mgmtStatusRead_inRange hu hl hm hs hh hv,
    exec_mgmtStatusRead_outOfRange hu hl hm hs hh hv, exec_mgmtBlackBoxRead hu hl hm hs hh hv, exec_mgmtEcho hu hl hm hs hh hv,
    exec_mgmtUnknownOp hu hl hm hs hh hv⟩⟩
  · simp only [exec, execMgmtEcho, ← hu, State.mgmtServe_noPort hl hm]
  · simp only [exec, execMgmtEcho, ← hu, State.mgmtServe_dropped hl hm hs]

end Sys2Proof.Machine

/-! SUPPORT. The DRAM's start, refresh, temperature and self-refresh. -/

namespace Sys2Proof.Machine

section

variable {s t u v w : State} {dt : Nat}

/-! ## The DRAM's start (R295 to R298, R471) -/

section
variable (hu : u = s.elapse dt) (hm : u.memStarts = true)
include hu hm

theorem exec_memInitStart {mv : Nat} (hs : u.mem.st = .off) (hd : u.tim.d.st = .locked) :
    exec (.memInitStart dt mv) s = if u.vddqOk mv then
      .next { u with mem := { u.mem with st := .starting, verified := u.memVerify == 0, openRows := [] } }
    else .next (u.report 13 0x00028001#32 (BitVec.ofNat 32 mv)) := by
  simp only [exec, execMemInitStart, ← hu]
  rw [if_pos (by rw [hm, hs, hd]; rfl)]
  rfl

theorem exec_memVerifyDone {v : VerifyOutcome} (hs : u.mem.st = .starting) (hv : u.memVerify = 1) (h6 : v.code ≤ 6)
    (hf : u.mem.verified = false ∨ v.code = 6) (h1 : v.code ≠ 1 ∨ u.memForm = 1) (h5 : v.code ≠ 5 ∨ u.verifyMargin ≠ 0) :
    exec (.memVerifyDone dt v) s = if v.code = 0 then .next { u with mem := { u.mem with verify := v, verified := true } }
      else .next (({ u with mem := { u.mem with verify := v, verified := false } } : State).report 13 0x00108001#32
        (BitVec.ofNat 32 (verifyWord v))) := by
  simp only [exec, execMemVerifyDone, ← hu]
  rw [if_pos]
  · rfl
  · have hf' : (!u.mem.verified || v.code == 6) = true := by rcases hf with h | h <;> simp [h]
    have h1' : (v.code != 1 || u.memForm == 1) = true := by rcases h1 with h | h <;> simp [h]
    have h5' : (v.code != 5 || u.verifyMargin != 0) = true := by rcases h5 with h | h <;> simp [h]
    rw [hm, hs, hv, hf', h1', h5', decide_eq_true h6]
    rfl

/-- MEM once the zero fill is done: everything laid out, empty, and running. -/
def State.zeroFilled (u : State) : State :=
  u.layRings.setMem fun m =>
    { m with st := .running, cells := [], requestAt := u.now, scrubAt := u.now, refreshAt := u.now, scrubAddr := 0, postponed := 0 }

theorem exec_memZeroFillDone (hs : u.mem.st = .starting) (hf : u.mem.verified = true) (h2 : u.memVerify ≠ 2) :
    exec (.memZeroFillDone dt) s = .next u.zeroFilled := by
  simp only [exec, execMemZeroFillDone, ← hu]
  rw [if_pos (by rw [hm, hs, hf, bne_iff_ne.mpr h2]; rfl)]
  rfl

theorem exec_memSweepDone {e : List (Nat × Nat)} (hs : u.mem.st = .starting) (h2 : u.memVerify = 2) :
    exec (.memSweepDone dt e) s = .next { u with mem := { u.mem with st := .characterised, sweep := e, refreshAt := u.now } } := by
  simp only [exec, execMemSweepDone, ← hu]
  rw [if_pos (by rw [hm, hs, h2]; rfl)]
  rfl

end

/-- The three rings laid out one after the other, for whatever sizes. -/
theorem ring_laid (size : Nat → Nat) (a b c : Nat) (n : Fin 3 → U32) (v : Vector Ring 3)
    (hv : v = #v[.laid a (size 0) (n 0), .laid b (size 1) (n 1), .laid c (size 2) (n 2)]) (k : Fin 3) :
    v[k].size = size k.val ∧ v[k].seq = 0 ∧ v[k].openSeg = none ∧ v[k].recSeq = n k := by
  subst hv
  match k with
  | 0 => exact ⟨rfl, rfl, rfl, rfl⟩
  | 1 => exact ⟨rfl, rfl, rfl, rfl⟩
  | 2 => exact ⟨rfl, rfl, rfl, rfl⟩

theorem State.zeroFilled_ring (k : Fin 3) :
    u.zeroFilled.mem.rings[k].size = u.ringBytes k.val ∧ u.zeroFilled.mem.rings[k].seq = 0 ∧
      u.zeroFilled.mem.rings[k].openSeg = none ∧ u.zeroFilled.mem.rings[k].recSeq = u.mem.rings[k].recSeq :=
  ring_laid u.ringBytes 0 (u.ringBytes 0) (u.ringBytes 0 + u.ringBytes 1) (fun k => u.mem.rings[k].recSeq) _ rfl k

end

/-- Settles O39: each command of the start under its hypotheses; the zero fill leaves no cell listed, so every byte reads zero. -/
theorem memoryStarts : Obligations.MemoryStarts := by
  intro s u dt hu hm
  refine ⟨fun mv hs hd => ⟨fun hv => ?_, fun hv => ?_⟩, fun v hs hv => ⟨fun h0 hf => ?_, fun h0 h6 hf h1 h5 => ?_⟩, fun hs hf h2 => ?_,
    fun e hs h2 => exec_memSweepDone hu hm hs h2⟩
  · rw [exec_memInitStart hu hm hs hd, if_pos hv]
  · rw [exec_memInitStart hu hm hs hd, hv, if_neg Bool.false_ne_true]
  · rw [exec_memVerifyDone hu hm hs hv (by omega) (.inl hf) (.inl (by omega)) (.inl (by omega)), if_pos h0]
  · rw [exec_memVerifyDone hu hm hs hv h6 hf h1 h5, if_neg (by omega)]
  · exact ⟨_, exec_memZeroFillDone hu hm hs hf h2, rfl, rfl, fun _ => rfl, State.zeroFilled_ring, rfl, rfl, rfl, rfl, rfl, rfl, rfl, rfl⟩

section

variable {s t u v w : State} {dt : Nat}

/-! ## Refresh, temperature and self-refresh (R301, R302, R304) -/

theorem memServes_iff (hl : u.live = true) (h13 : u.isShut 13 = false) (hs : u.mem.st = .running ∨ u.mem.st = .characterised) :
    u.memServes = true := by
  rcases hs with hs | hs <;> simp [State.memServes, hl, h13, hs]

section
variable (hu : u = s.elapse dt)
include hu

theorem exec_refreshDue_early (he : u.now < u.mem.refreshAt + u.refreshInterval) : exec (.refreshDue dt) s = .next u := by
  simp only [exec, execRefreshDue, ← hu]
  rw [if_neg (by simp [State.refreshDue, he])]

theorem exec_refreshDue (hs : u.memServes = true) (hd : u.mem.refreshAt + u.refreshInterval ≤ u.now) :
    exec (.refreshDue dt) s =
      if !u.mem.rtMid then
        .next { u with mem := { u.mem with refreshAt := u.mem.refreshAt + u.refreshInterval, postponed := 0, openRows := [] } }
      else if u.mem.postponed < 4 then
        .next { u with mem := { u.mem with refreshAt := u.mem.refreshAt + u.refreshInterval, postponed := u.mem.postponed + 1 } }
      else .next { u with mem := { u.mem with
        refreshAt := u.mem.refreshAt + u.refreshInterval, postponed := 0, openRows := [], preempt := u.mem.preempt + 1 } } := by
  simp only [exec, execRefreshDue, ← hu]
  rw [if_pos (by simp [State.refreshDue, hs, hd])]
  rfl

theorem exec_dramTempPoll_early {x : TempPoll} (he : u.now < u.mem.polledAt + 32 * msP) : exec (.dramTempPoll dt x) s = .next u := by
  simp only [exec, execDramTempPoll, ← hu]
  rw [if_neg (by simp [State.pollDue, he])]

theorem exec_selfRefreshExit (hl : u.live = true) (h13 : u.isShut 13 = false) (hs : u.mem.st = .selfRefresh) (hw : u.mem.waits = true) :
    exec (.selfRefreshExit dt) s = .next { u with mem := { u.mem with st := .running, srNotBefore := u.now + msP, refreshAt := u.now } } := by
  simp only [exec, execSelfRefreshExit, ← hu]
  rw [if_pos (by rw [hl, h13, hs, hw]; rfl)]
  rfl

theorem exec_selfRefreshEntry (hl : u.live = true) (h13 : u.isShut 13 = false) (hs : u.mem.st = .running) (hi : u.srIdle ≠ 0)
    (hw : u.mem.waits = false) (hr : u.mem.requestAt + u.srIdle * msP ≤ u.now) (hn : u.mem.srNotBefore ≤ u.now) (abandoned : Bool) :
    exec (.selfRefreshEntry dt abandoned) s =
      if abandoned then .next { u with mem := { u.mem with srAbandoned := u.mem.srAbandoned + 1, requestAt := u.now } }
      else .next { u with mem := { u.mem with postponed := 0, openRows := [], st := .selfRefresh, srEntries := u.mem.srEntries + 1 } } := by
  simp only [exec, execSelfRefreshEntry, ← hu]
  rw [if_pos (by rw [hl, h13, hs, hw, bne_iff_ne.mpr hi, decide_eq_true hr, decide_eq_true hn]; rfl)]
  rfl

variable (hl : u.live = true) (h13 : u.isShut 13 = false) (hs : u.mem.st = .running ∨ u.mem.st = .characterised)
  (hp : u.mem.polledAt + 32 * msP ≤ u.now)
include hl h13 hs hp

omit hu in
theorem dramTempPoll_polls : (u.live && !u.isShut 13 && u.pollDue && (u.mem.st == .running || u.mem.st == .characterised ||
    (u.mem.st == .selfRefresh && u.memGeneration == 4))) = true := by
  have hd : u.pollDue = true := decide_eq_true hp
  rcases hs with hs | hs <;> rw [hl, h13, hs, hd] <;> rfl

theorem exec_dramTempPoll_ddr4 {q : Int} (hg : u.memGeneration = 4) : exec (.dramTempPoll dt (.ddr4 q)) s = .next { u with
    mem := { u.mem with
      polledAt := u.now, temp := q
      hot := if 4 * (u.refreshTemp : Int) ≤ q then true else if q < 4 * (u.refreshTemp : Int) - 12 then false else u.mem.hot } } := by
  simp only [exec, execDramTempPoll, ← hu]
  rw [if_pos (dramTempPoll_polls hl h13 hs hp)]
  exact if_pos hg

/-- The temperature of a DDR5 memory taken from its ranks' rates. -/
def State.rated (u : State) (rates : List Nat) : State :=
  { u with mem := { u.mem with
      polledAt := u.now, temp := ((rates.foldl max 0 : Nat) : Int), hot := decide (2 ≤ rates.foldl max 0) } }

theorem exec_dramTempPoll_ddr5 {rates : List Nat} (hg : u.memGeneration = 5) : exec (.dramTempPoll dt (.ddr5 rates)) s =
    .next (if rates.foldl max 0 > 2 then (u.rated rates).dramTempFault else u.rated rates) := by
  simp only [exec, execDramTempPoll, ← hu]
  rw [if_pos (dramTempPoll_polls hl h13 hs hp)]
  exact if_pos hg

theorem exec_dramTempPoll_unreadable : exec (.dramTempPoll dt .unreadable) s =
    .next ({ u with mem := { u.mem with polledAt := u.now } } : State).dramTempFault := by
  simp only [exec, execDramTempPoll, ← hu]
  rw [if_pos (dramTempPoll_polls hl h13 hs hp)]
  rfl

end

theorem State.dramTempFault_reports : OnlyReports u.dramTempFault { u with mem := { u.mem with hot := true, tempFault := true } } :=
  State.recordWarn_hushed _ _ _ _ _ _

theorem State.dramTempFault_warned (ha : u.hatbandActs = true) : u.dramTempFault.warned 0x00100002#32 = true := by
  obtain ⟨v, hv⟩ : ∃ v, v = u.setMem fun m => { m with hot := true, tempFault := true } := ⟨_, rfl⟩
  have hk : v.hatbandActs = true := by rw [hv]; exact ha
  unfold State.dramTempFault
  rw [← hv]
  exact State.recordWarn_warned hk ..

end

/-- Settles O40: each command of refresh, temperature and self-refresh under its hypotheses. -/
theorem memoryRefreshes : Obligations.MemoryRefreshes := by
  intro s u dt hu hl h13
  refine ⟨fun hs => ⟨exec_refreshDue_early hu, fun hd => ?_, fun x => exec_dramTempPoll_early hu⟩, fun hs hp =>
    ⟨fun q hg => exec_dramTempPoll_ddr4 hu hl h13 hs hp hg, fun rates hg h2 => ?_, fun rates hg h2 => ?_,
      _, exec_dramTempPoll_unreadable hu hl h13 hs hp, State.dramTempFault_reports, fun ha => State.dramTempFault_warned ha⟩,
    fun hs hi hw hr hn => ⟨exec_selfRefreshEntry hu hl h13 hs hi hw hr hn false, exec_selfRefreshEntry hu hl h13 hs hi hw hr hn true⟩,
    fun hs hw => exec_selfRefreshExit hu hl h13 hs hw⟩
  · have k := exec_refreshDue hu (memServes_iff hl h13 hs) hd
    exact ⟨fun hm => by rw [k, hm]; rfl, fun hm h4 => by rw [k, hm, if_neg (by decide), if_pos h4],
      fun hm h4 => by rw [k, hm, if_neg (by decide), if_neg (by omega)]⟩
  · rw [exec_dramTempPoll_ddr5 hu hl h13 hs hp hg, if_neg (by omega)]
    rfl
  · rw [exec_dramTempPoll_ddr5 hu hl h13 hs hp hg, if_pos h2]
    exact ⟨_, rfl, State.dramTempFault_reports, fun ha => State.dramTempFault_warned ha⟩

end Sys2Proof.Machine

/-! SUPPORT. Keys, the panel's frames, colour feedback and LED diagnosis. -/

namespace Sys2Proof.Machine

section

variable {s t u v w : State} {dt : Nat}

/-! ## Keys (R436, Table 14.4) -/

/-- The keys once a key has been found pressed. -/
def State.keysDown (u : State) (k : Fin 8) : Vector KeySt 8 :=
  upd u.pnl.keys k fun x => { x with pressed := true, acted := true, presses := x.presses + 1, changedAt := u.now }

/-- The keys once a key has been found up again. -/
def State.keysUp (u : State) (k : Fin 8) : Vector KeySt 8 :=
  upd u.pnl.keys k fun x => { x with pressed := false, acted := false, changedAt := u.now }

/-- The outputs that an acknowledgement key names. -/
def State.keyMask (u : State) (k : Fin 8) : Nat := if u.keyArg k = 0 then 15 else u.keyArg k

theorem bitOf_fifteen (o : Fin 4) : bitOf 15 o.val = true := by revert o; decide

theorem State.keyMask_named {k : Fin 8} {o : Fin 4} (h : u.keyArg k = 0 ∨ bitOf (u.keyArg k) o.val = true) :
    bitOf (u.keyMask k) o.val = true := by
  unfold State.keyMask
  split
  · exact bitOf_fifteen o
  · next h0 => exact h.resolve_left h0

theorem State.keyMask_unnamed {k : Fin 8} {o : Fin 4} (h : u.keyArg k ≠ 0 ∧ bitOf (u.keyArg k) o.val = false) :
    bitOf (u.keyMask k) o.val = false := by
  rw [State.keyMask, if_neg h.1, h.2]

/-- An output after an acknowledgement. -/
def State.acknowledged (u : State) (mask : Nat) (o : Fin 4) : AlarmOut :=
  if bitOf mask o.val && u.alarms[o].latched && !u.alarms[o].demanded && !u.demandOf o then
    { u.alarms[o] with latched := false, asserted := false }
  else u.alarms[o]

theorem State.acknowledge_shut {mask : Nat} (h : u.isShut 11 = true) : u.acknowledge mask = u := if_pos h

theorem State.acknowledge_alarms {mask : Nat} (h : u.isShut 11 = false) (o : Fin 4) :
    (u.acknowledge mask).alarms[o] = u.acknowledged mask o := by
  rw [State.acknowledge, if_neg (by rw [h]; decide)]
  exact Vector.getElem_ofFn _

theorem State.acknowledge_releases {mask : Nat} {o : Fin 4} (h11 : u.isShut 11 = false) (hb : bitOf mask o.val = true)
    (hl : u.alarms[o].latched = true) (hd : u.alarms[o].demanded = false) (hn : u.demandOf o = false) :
    (u.acknowledge mask).alarms[o].asserted = false ∧ (u.acknowledge mask).alarms[o].latched = false := by
  rw [State.acknowledge_alarms h11, State.acknowledged, if_pos (by rw [hb, hl, hd, hn]; rfl)]
  exact ⟨rfl, rfl⟩

theorem State.acknowledge_leaves {mask : Nat} {o : Fin 4} (h : u.alarms[o].demanded = true ∨ u.alarms[o].latched = false ∨
    u.isShut 11 = true ∨ bitOf mask o.val = false) : (u.acknowledge mask).alarms[o] = u.alarms[o] := by
  cases h11 : u.isShut 11 with
  | true => rw [State.acknowledge_shut h11]
  | false =>
    rw [State.acknowledge_alarms h11, State.acknowledged, if_neg]
    rcases h with h | h | h | h
    · rw [h]; simp
    · rw [h]; simp
    · exact absurd (h11.symm.trans h) (by decide)
    · rw [h]; simp

theorem State.acknowledge_frame (mask : Nat) : u.acknowledge mask = { u with alarms := (u.acknowledge mask).alarms } := by
  unfold State.acknowledge
  split <;> rfl

section
variable (hu : u = s.elapse dt) (hp : u.panelOn = true)
include hu hp

section
variable {k : Fin 8} (hk : u.pnl.keys[k].pressed = false) (hc : u.pnl.keys[k].changedAt + u.debounceMs * msP ≤ u.now)
include hk hc

omit hu in
theorem keyPress_of_settled {func : Nat} (hf : u.keyFunc k = func) : u.keyPress k func = true := by
  have hs : u.keySettled k 0 = true := decide_eq_true hc
  unfold State.keyPress
  rw [hp, hf, hk, hs, beq_self_eq_true]
  rfl

theorem exec_keyAcknowledge (hf : u.keyFunc k = 1) (hv : v = (u.pressed k).acknowledge (u.keyMask k)) :
    exec (.keyAcknowledge dt k) s = .next (if v.alarms = u.alarms then v.keyIgnored else v) := by
  simp only [exec, execKeyAcknowledge, ← hu]
  rw [if_pos (keyPress_of_settled hp hk hc hf), hv]
  rfl

theorem exec_keyLampTest (hf : u.keyFunc k = 3) :
    exec (.keyLampTest dt k) s = .next { u with pnl := { u.pnl with keys := u.keysDown k, lampTest := some (k, u.now) } } := by
  simp only [exec, execKeyLampTest, ← hu]
  rw [if_pos (keyPress_of_settled hp hk hc hf)]
  rfl

theorem exec_keyBrightness (hf : u.keyFunc k = 4) :
    exec (.keyBrightness dt k) s = .next { u with pnl := { u.pnl with
      keys := u.keysDown k, brightness := (u.pnl.brightness + 1) % 4 } } := by
  simp only [exec, execKeyBrightness, ← hu]
  rw [if_pos (keyPress_of_settled hp hk hc hf)]
  rfl

theorem exec_keyAcknowledge_acts (hf : u.keyFunc k = 1) : ∃ t, exec (.keyAcknowledge dt k) s = .next t ∧
    t = { u with pnl := { u.pnl with keys := u.keysDown k, keyIgnored := t.pnl.keyIgnored }, alarms := t.alarms } ∧
    t.alarms = ((u.pressed k).acknowledge (u.keyMask k)).alarms ∧
    t.pnl.keyIgnored = (if t.alarms = u.alarms then u.pnl.keyIgnored + 1 else u.pnl.keyIgnored) := by
  obtain ⟨a, ha⟩ : ∃ a, a = ((u.pressed k).acknowledge (u.keyMask k)).alarms := ⟨_, rfl⟩
  have hv : (u.pressed k).acknowledge (u.keyMask k) = { u with pnl := { u.pnl with keys := u.keysDown k }, alarms := a } :=
    ha ▸ State.acknowledge_frame _
  rw [hv, exec_keyAcknowledge hu hp hk hc hf hv.symm]
  by_cases h : a = u.alarms
  · exact ⟨_, congrArg _ (if_pos h), rfl, rfl, (if_pos h).symm⟩
  · exact ⟨_, congrArg _ (if_neg h), rfl, rfl, (if_neg h).symm⟩

end

theorem exec_keyManualRestart {k : Fin 8} {p : Port} (hf : u.keyFunc k = 2) (ha : u.pnl.keys[k].acted = false)
    (hport : p = if u.keyArg k = 1 then 1 else 0)
    (hc : u.pnl.keys[k].changedAt + (u.debounceMs + u.restartHold) * msP ≤ u.now) :
    exec (.keyManualRestart dt k) s =
      if u.inUse p && u.als[p].st == .shutdown then .next ((u.pressed k).enterProbe p) else .next (u.pressed k).keyIgnored := by
  have hs : u.keySettled k u.restartHold = true := decide_eq_true hc
  simp only [exec, execKeyManualRestart, ← hu]
  rw [if_pos (by rw [hp, hf, ha, hs]; rfl), hport]
  rfl

end

theorem State.openShutter_frame (p : Port) : u.openShutter p = { u with opt := (u.openShutter p).opt } := by
  by_cases h : (u.hardPermit p && !u.isShut (if p = 0 then 0 else 1) && u.live) = true
  · rw [State.openShutter, if_pos h]
    rfl
  · rw [State.openShutter, if_neg h]

/-- A port's ALS state at the entry of PROBE. -/
def Als.probing (a : Als) (now : Nat) : Als :=
  { a with st := .probe, probes := a.probes + 1, periodFrom := now, launchedAt := now,
           windowFrom := none, windowEnded := false, groups := [], nearNotice := none }

theorem State.enterProbe_eq (p : Port) :
    u.enterProbe p = ((u.setAls p fun a => a.probing u.now).openShutter p).requestRebase p := rfl

theorem State.enterProbe_frame (p : Port) :
    u.enterProbe p = { u with als := (u.enterProbe p).als, sht := (u.enterProbe p).sht, opt := (u.enterProbe p).opt } := by
  rw [State.enterProbe_eq, State.openShutter_frame]
  rfl

theorem State.enterProbe_als (p : Port) : (u.enterProbe p).als = upd u.als p fun a => a.probing u.now := by
  rw [State.enterProbe_eq, State.openShutter_frame]
  rfl

theorem exec_lampTestTimeout {t0 : Nat} {k : Fin 8} (hu : u = s.elapse dt) (hl : u.pnl.lampTest = some (k, t0))
    (ht : t0 + 10 * secP ≤ u.now) : exec (.lampTestTimeout dt) s = .next { u with pnl := { u.pnl with
      lampTest := none
      colourAt := if u.pnl.colourPhase.isSome then u.pnl.colourAt + (u.now - t0) else u.pnl.colourAt } } := by
  simp only [exec, execLampTestTimeout, ← hu, hl]
  rw [if_pos ht, State.lampEnd, hl]

theorem exec_keyRelease_lamp {t0 : Nat} {k : Fin 8} (hu : u = s.elapse dt) (hl : u.pnl.lampTest = some (k, t0))
    (hc : u.pnl.keys[k].changedAt + u.debounceMs * msP ≤ u.now) : exec (.keyRelease dt k) s = .next { u with pnl := { u.pnl with
      keys := u.keysUp k, lampTest := none
      colourAt := if u.pnl.colourPhase.isSome then u.pnl.colourAt + (u.now - t0) else u.pnl.colourAt } } := by
  have hs : u.keySettled k 0 = true := decide_eq_true hc
  simp only [exec, execKeyRelease, ← hu]
  rw [if_pos hs]
  simp only [State.setKey, hl, if_true, State.lampEnd]
  rfl

theorem exec_keyRelease_other {t0 : Nat} {k j : Fin 8} (hu : u = s.elapse dt) (hl : u.pnl.lampTest = some (k, t0)) (hj : j ≠ k)
    (hc : u.pnl.keys[j].changedAt + u.debounceMs * msP ≤ u.now) :
    exec (.keyRelease dt j) s = .next { u with pnl := { u.pnl with keys := u.keysUp j } } := by
  have hs : u.keySettled j 0 = true := decide_eq_true hc
  simp only [exec, execKeyRelease, ← hu]
  rw [if_pos hs]
  simp only [State.setKey, hl]
  exact if_neg hj.symm

end

section

variable {s t u v w : State} {dt : Nat}

/-! ## Frames, colour feedback and LED diagnosis (R437 to R442) -/

/-- The state once the sensor has been read. -/
def State.sensed (u : State) : State := { u with outputs := .sensorRead u.sensorAddr u.sensorDataReg :: u.outputs }

/-- An LED after a diagnosis: open three times running it has failed. -/
def LedSt.diagnosed (x : LedSt) (isOpen : Bool) (now : Nat) : LedSt :=
  let n := if isOpen then x.opens + 1 else 0
  { state := if n ≥ 3 then 2 else if isOpen then x.state else 1, opens := n, diagAt := now }

section
variable (hu : u = s.elapse dt) (hp : u.panelOn = true)
include hu hp

theorem exec_panelCompose (hc : u.pnl.composedAt + 10 * msP ≤ u.now) : exec (.panelCompose dt) s = .next { u with
    pnl := { u.pnl with back := (List.range 128).flatMap u.pixelValue, composed := true, composedAt := u.now } } := by
  simp only [exec, execPanelCompose, ← hu]
  rw [if_pos (by rw [hp, decide_eq_true hc]; rfl)]

theorem exec_panelBufferSwap (hc : u.pnl.composed = true) (hf : u.frameIndex u.pnl.composedAt < u.frameIndex u.now) :
    exec (.panelBufferSwap dt) s = .next { u with pnl := { u.pnl with
      front := u.pnl.back, back := u.pnl.front, composed := false, swapped := true, swaps := u.pnl.swaps + 1 } } := by
  simp only [exec, execPanelBufferSwap, ← hu]
  rw [if_pos (by rw [hp, hc, decide_eq_true hf]; rfl)]

omit hp in
theorem exec_colourMeasurement (ho : u.colourOn = true) (hph : u.pnl.colourPhase = none) (hl : u.pnl.lampTest = none)
    (hd : u.pnl.colourAt + u.colourPeriod * secP ≤ u.now) : exec (.colourMeasurement dt) s = .next { u with pnl := { u.pnl with
      colourPhase := some 0, colourCounts := [], colourFault := false, colourAt := u.now } } := by
  simp only [exec, execColourMeasurement, ← hu]
  rw [if_pos (by rw [ho, hph, hl, decide_eq_true hd]; rfl)]

theorem exec_colourPhaseEnd {ph : Nat} {counts : Option (Nat × Nat × Nat)} (hph : u.pnl.colourPhase = some ph)
    (hl : u.pnl.lampTest = none) (hd : u.pnl.colourAt + (ph + 1) * u.senseTime * msP ≤ u.now) :
    ∃ c, exec (.colourPhaseEnd dt counts) s =
      if ph ≥ 3 then .next (u.sensed.colourEnd (u.pnl.colourCounts ++ [c]) (u.pnl.colourFault || counts.isNone))
      else .next { u.sensed with pnl := { u.pnl with
        colourPhase := some (ph + 1), colourCounts := u.pnl.colourCounts ++ [c], colourFault := u.pnl.colourFault || counts.isNone } } := by
  simp only [exec, execColourPhaseEnd, ← hu, hph]
  rw [if_pos (by rw [hp, hl, decide_eq_true hd]; rfl)]
  exact ⟨_, rfl⟩

theorem exec_ledDiagPulse {led : Fin 384} {isOpen : Bool} (hs : u.pnl.leds[led].state ≠ 2) (hc : 5 ≤ u.sinkCurrent led)
    (hd : 16 ≤ u.ledTicks led ∨ (u.diagInterval ≠ 0 ∧ u.pnl.leds[led].diagAt + u.diagInterval * (secP / 4) ≤ u.now)) :
    exec (.ledDiagPulse dt led isOpen) s = .next { u with pnl := { u.pnl with
      leds := u.pnl.leds.set led (u.pnl.leds[led].diagnosed isOpen u.now) } } := by
  have hdue : (decide (u.ledTicks led ≥ 16) || (u.diagInterval != 0 &&
      decide (u.pnl.leds[led].diagAt + u.diagInterval * (secP / 4) ≤ u.now))) = true := by
    rcases hd with h | ⟨h0, h⟩
    · rw [decide_eq_true h, Bool.true_or]
    · rw [bne_iff_ne.mpr h0, decide_eq_true h, Bool.and_self, Bool.or_true]
  simp only [exec, execLedDiagPulse, ← hu]
  rw [if_pos (by rw [hp, hdue, bne_iff_ne.mpr hs, decide_eq_true hc]; rfl)]
  rfl

theorem exec_ledDiagExpiry {led : Fin 384} (hs : u.pnl.leds[led].state = 1) (hd : u.pnl.leds[led].diagAt + 16 * secP ≤ u.now) :
    exec (.ledDiagExpiry dt led) s = .next { u with pnl := { u.pnl with
      leds := u.pnl.leds.set led { u.pnl.leds[led] with state := 0 } } } := by
  simp only [exec, execLedDiagExpiry, ← hu]
  rw [if_pos (by rw [hp, beq_iff_eq.mpr hs, decide_eq_true hd]; rfl)]

end

/-! ## The end of a colour measurement -/

theorem newTrim_bounds (a target diff : Nat) : 768 ≤ newTrim a target diff ∧ newTrim a target diff ≤ 1280 := by
  unfold newTrim
  dsimp only
  omega

section
variable (m : List Nat) (failed : Bool)

theorem State.colourEnd_frame : u.colourEnd m failed = { u with pnl := (u.colourEnd m failed).pnl } := by
  unfold State.colourEnd
  dsimp only
  split <;> rfl

theorem State.colourEnd_ended : (u.colourEnd m failed).pnl.colourPhase = none ∧ (u.colourEnd m failed).pnl.colourTime = u.devTime := by
  unfold State.colourEnd
  dsimp only
  split <;> exact ⟨rfl, rfl⟩

theorem State.colourEnd_failed : (u.colourEnd m true).pnl.sensorFault = true ∧ (u.colourEnd m true).pnl.trims = u.pnl.trims :=
  ⟨rfl, rfl⟩

theorem State.colourEnd_trims (c : Fin 3) : (u.colourEnd m failed).pnl.trims[c] = u.pnl.trims[c] ∨
    (768 ≤ (u.colourEnd m failed).pnl.trims[c] ∧ (u.colourEnd m failed).pnl.trims[c] ≤ 1280) := by
  unfold State.colourEnd
  dsimp only
  split
  · exact .inl rfl
  · right
    dsimp only
    rw [Fin.getElem_fin, Vector.getElem_ofFn]
    exact newTrim_bounds ..

end

theorem LedSt.diagnosed_good (x : LedSt) (now : Nat) : x.diagnosed false now = { state := 1, opens := 0, diagAt := now } := rfl

theorem LedSt.diagnosed_open (x : LedSt) (now : Nat) : (x.diagnosed true now).opens = x.opens + 1 ∧
    (x.diagnosed true now).state = (if 3 ≤ x.opens + 1 then 2 else x.state) := ⟨rfl, rfl⟩

theorem set_get_same {α : Type} {n : Nat} (v : Vector α n) (i : Fin n) (x : α) : (v.set i x)[i] = x :=
  Vector.getElem_set_self ..

theorem set_get_other {α : Type} {n : Nat} (v : Vector α n) {i j : Fin n} (x : α) (h : j ≠ i) : (v.set i x)[j] = v[j] :=
  Vector.getElem_set_ne _ _ fun e => h (Fin.ext e.symm)

/-- A pressed key whose restart acts on its port, and one that does not. -/
theorem manualRestart_acts {k : Fin 8} {p : Port} (hu : u = s.elapse dt) (hp : u.panelOn = true) (hf : u.keyFunc k = 2)
    (ha : u.pnl.keys[k].acted = false) (hport : p = if u.keyArg k = 1 then 1 else 0)
    (hc : u.pnl.keys[k].changedAt + (u.debounceMs + u.restartHold) * msP ≤ u.now) (hi : u.inUse p = true)
    (hs : u.als[p].st = .shutdown) : ∃ t, exec (.keyManualRestart dt k) s = .next t ∧ t.als[p].st = .probe ∧
      t.als[p].probes = u.als[p].probes + 1 ∧
      t = { u with pnl := { u.pnl with keys := u.keysDown k }, als := t.als, sht := t.sht, opt := t.opt } := by
  refine ⟨(u.pressed k).enterProbe p, ?_, ?_, ?_, State.enterProbe_frame p⟩
  · rw [exec_keyManualRestart hu hp hf ha hport hc, if_pos (by rw [hi, hs]; rfl)]
  · rw [State.enterProbe_als, upd_get_same]
    rfl
  · rw [State.enterProbe_als, upd_get_same]
    rfl

theorem manualRestart_ignored {k : Fin 8} {p : Port} (hu : u = s.elapse dt) (hp : u.panelOn = true) (hf : u.keyFunc k = 2)
    (ha : u.pnl.keys[k].acted = false) (hport : p = if u.keyArg k = 1 then 1 else 0)
    (hc : u.pnl.keys[k].changedAt + (u.debounceMs + u.restartHold) * msP ≤ u.now) (h : u.inUse p = false ∨ u.als[p].st ≠ .shutdown) :
    exec (.keyManualRestart dt k) s =
      .next { u with pnl := { u.pnl with keys := u.keysDown k, keyIgnored := u.pnl.keyIgnored + 1 } } := by
  rw [exec_keyManualRestart hu hp hf ha hport hc, if_neg]
  · rfl
  · rcases h with h | h
    · rw [h]
      exact Bool.false_ne_true
    · rw [beq_eq_false_iff_ne.mpr h, Bool.and_false]
      decide

theorem colourPhaseEnd_parts {ph : Nat} {counts : Option (Nat × Nat × Nat)} (hu : u = s.elapse dt) (hp : u.panelOn = true)
    (hph : u.pnl.colourPhase = some ph) (hl : u.pnl.lampTest = none)
    (hd : u.pnl.colourAt + (ph + 1) * u.senseTime * msP ≤ u.now) :
    ∃ t, exec (.colourPhaseEnd dt counts) s = .next t ∧
      t = { u with pnl := t.pnl, outputs := .sensorRead u.sensorAddr u.sensorDataReg :: u.outputs } ∧
      (ph < 3 → t.pnl = { u.pnl with
        colourPhase := some (ph + 1), colourCounts := t.pnl.colourCounts, colourFault := u.pnl.colourFault || counts.isNone } ∧
        t.pnl.colourCounts.length = u.pnl.colourCounts.length + 1) ∧
      (3 ≤ ph → t.pnl.colourPhase = none ∧ t.pnl.colourTime = u.devTime ∧
        (u.pnl.colourFault = true ∨ counts = none → t.pnl.sensorFault = true ∧ t.pnl.trims = u.pnl.trims) ∧
        (∀ c : Fin 3, t.pnl.trims[c] = u.pnl.trims[c] ∨ (768 ≤ t.pnl.trims[c] ∧ t.pnl.trims[c] ≤ 1280))) := by
  obtain ⟨c, hc⟩ := exec_colourPhaseEnd (counts := counts) hu hp hph hl hd
  by_cases h3 : ph ≥ 3
  · rw [if_pos h3] at hc
    obtain ⟨hend, htime⟩ := State.colourEnd_ended (u := u.sensed) (u.pnl.colourCounts ++ [c]) (u.pnl.colourFault || counts.isNone)
    refine ⟨_, hc, State.colourEnd_frame _ _, fun h => absurd h (by omega), fun _ => ⟨hend, htime, fun hf => ?_,
      State.colourEnd_trims _ _⟩⟩
    have hfail : (u.pnl.colourFault || counts.isNone) = true := by
      rcases hf with hf | hf
      · rw [hf, Bool.true_or]
      · rw [hf, Option.isNone_none, Bool.or_true]
    rw [hfail]
    exact State.colourEnd_failed _
  · rw [if_neg h3] at hc
    exact ⟨_, hc, rfl, fun _ => ⟨rfl, List.length_append⟩, fun h => absurd h h3⟩

theorem ledDiagPulse_parts {led : Fin 384} {isOpen : Bool} (hu : u = s.elapse dt) (hp : u.panelOn = true)
    (hs : u.pnl.leds[led].state ≠ 2) (hc : 5 ≤ u.sinkCurrent led)
    (hd : 16 ≤ u.ledTicks led ∨ (u.diagInterval ≠ 0 ∧ u.pnl.leds[led].diagAt + u.diagInterval * (secP / 4) ≤ u.now)) :
    ∃ t, exec (.ledDiagPulse dt led isOpen) s = .next t ∧ t = { u with pnl := { u.pnl with leds := t.pnl.leds } } ∧
      (∀ j, j ≠ led → t.pnl.leds[j] = u.pnl.leds[j]) ∧ t.pnl.leds[led].diagAt = u.now ∧
      (isOpen = false → t.pnl.leds[led].state = 1 ∧ t.pnl.leds[led].opens = 0) ∧
      (isOpen = true → t.pnl.leds[led].opens = u.pnl.leds[led].opens + 1 ∧
        t.pnl.leds[led].state = (if 3 ≤ u.pnl.leds[led].opens + 1 then 2 else u.pnl.leds[led].state)) := by
  refine ⟨_, exec_ledDiagPulse hu hp hs hc hd, rfl, fun j hj => set_get_other _ _ hj, ?_⟩
  dsimp only
  rw [set_get_same]
  refine ⟨rfl, fun h => ?_, fun h => ?_⟩
  · rw [h, LedSt.diagnosed_good]
    exact ⟨rfl, rfl⟩
  · rw [h]
    exact LedSt.diagnosed_open _ _

end

/-- Settles O60: each command of keys and panel under its hypotheses. -/
theorem panelServes : Obligations.PanelServes := by
  intro s u dt hu hp down up
  refine ⟨fun k hk hc => ⟨fun hf => ?_, exec_keyLampTest hu hp hk hc, exec_keyBrightness hu hp hk hc⟩,
    fun k p hf ha hport hc => ⟨manualRestart_acts hu hp hf ha hport hc, manualRestart_ignored hu hp hf ha hport hc⟩,
    fun k t0 hl => ?_, exec_panelCompose hu hp, exec_panelBufferSwap hu hp, exec_colourMeasurement hu,
    fun ph counts hph hl hd => colourPhaseEnd_parts hu hp hph hl hd, fun led isOpen hs hc hd => ledDiagPulse_parts hu hp hs hc hd,
    fun led hs hd => exec_ledDiagExpiry hu hp hs hd⟩
  · obtain ⟨t, ht, hfr, hal, hi⟩ := exec_keyAcknowledge_acts hu hp hk hc hf
    refine ⟨t, ht, hfr, fun o => ⟨fun h11 hn hl hd hdm => ?_, fun h => ?_⟩, hi⟩
    · rw [hal]
      exact State.acknowledge_releases h11 (State.keyMask_named hn) hl hd hdm
    · rw [hal]
      exact State.acknowledge_leaves (h.imp_right (Or.imp_right (Or.imp_right State.keyMask_unnamed)))
  · intro resumed
    exact ⟨exec_lampTestTimeout hu hl, exec_keyRelease_lamp hu hl, fun j hj => exec_keyRelease_other hu hl hj⟩

end Sys2Proof.Machine

/-! SUPPORT. The hardwired permits and automatic laser shutdown. -/

namespace Sys2Proof.Machine

section

variable {s t u v w : State} {p q : Port} {l : List Port}

/-! ## What closing and holding ports moves (R65, R66, R427) -/

/-- `s` with what the emission of a port moves of it taken from `t`. -/
def State.withEmission (s t : State) : State :=
  { s with opt := t.opt, als := t.als, sht := t.sht, acq := t.acq, dts := t.dts, fab := t.fab }

/-- Ports are closed, held or released: their optics, automatic shutdown and sequencers, acquisition, Raman front ends, loss counters and
reports may change; the other ports stay. -/
structure State.EmissionMoves (t s : State) (l : List Port) : Prop where
  frame : OnlyReports t (s.withEmission t)
  others : ∀ q ∉ l, t.opt.ports[q] = s.opt.ports[q] ∧ t.als[q] = s.als[q] ∧ t.sht[q] = s.sht[q]

theorem State.EmissionMoves.rfl : s.EmissionMoves s l := ⟨Eq.refl _, fun _ _ => ⟨Eq.refl _, Eq.refl _, Eq.refl _⟩⟩

theorem State.EmissionMoves.trans (h : t.EmissionMoves u l) (k : u.EmissionMoves s l) : t.EmissionMoves s l := by
  refine ⟨h.frame.trans (congrArg (fun x : State => x.withEmission t.hushed) k.frame :), fun q hq => ?_⟩
  obtain ⟨h1, h2, h3⟩ := h.others q hq
  obtain ⟨k1, k2, k3⟩ := k.others q hq
  exact ⟨h1.trans k1, h2.trans k2, h3.trans k3⟩

theorem State.EmissionMoves.foldl {α : Type} {f : State → α → State} (as : List α)
    (hf : ∀ s, ∀ a ∈ as, (f s a).EmissionMoves s l) : (as.foldl f s).EmissionMoves s l :=
  List.foldlRecOn (motive := fun v => v.EmissionMoves s l) as f .rfl fun _ h a ha => (hf _ a ha).trans h

theorem State.EmissionMoves.mono {m : List Port} (h : t.EmissionMoves s l) (hl : ∀ p ∈ l, p ∈ m) : t.EmissionMoves s m :=
  ⟨h.frame, fun q hq => h.others q fun k => hq (hl q k)⟩

theorem State.setSht_emissionMoves (f : Sht → Sht) : (s.setSht p f).EmissionMoves s [p] :=
  ⟨Eq.refl _, fun _ hq => ⟨Eq.refl _, Eq.refl _, State.setSht_other f fun h => hq (List.mem_singleton.mpr h)⟩⟩

theorem State.setAls_emissionMoves (f : Als → Als) : (s.setAls p f).EmissionMoves s [p] :=
  ⟨Eq.refl _, fun _ hq => ⟨Eq.refl _, State.setAls_als_other (fun h => hq (List.mem_singleton.mpr h)) f, Eq.refl _⟩⟩

theorem State.setOptPort_emissionMoves (f : OptPort → OptPort) : (s.setOptPort p f).EmissionMoves s [p] :=
  ⟨Eq.refl _, fun _ hq => ⟨State.setOptPort_other f fun h => hq (List.mem_singleton.mpr h), Eq.refl _, Eq.refl _⟩⟩

theorem OnlyReports.emissionMoves (h : OnlyReports t s) : t.EmissionMoves s l := by
  have e : t.hushed = s.hushed.withEmission t.hushed := by
    rw [h]
    rfl
  have ho : t.opt = s.opt := (congrArg State.opt h :)
  have ha : t.als = s.als := (congrArg State.als h :)
  have hs : t.sht = s.sht := (congrArg State.sht h :)
  exact ⟨e, fun q _ => ⟨by rw [ho], by rw [ha], by rw [hs]⟩⟩

theorem State.logDrop_emissionMoves (tag : ShotTag) (cause : Nat) : (s.logDrop p tag cause).EmissionMoves s l := by
  unfold State.logDrop
  extract_lets e quiet src v w
  have hw : w.EmissionMoves s l := ⟨Eq.refl _, fun _ _ => ⟨Eq.refl _, Eq.refl _, Eq.refl _⟩⟩
  split
  · exact (OnlyReports.emissionMoves (State.record_hushed ..)).trans hw
  · exact hw

theorem State.discardShot_emissionMoves (g : ShotFlight) : (s.discardShot p g).EmissionMoves s l :=
  ⟨Eq.refl _, fun _ _ => ⟨Eq.refl _, Eq.refl _, Eq.refl _⟩⟩

theorem State.closeGate_emissionMoves : (s.closeGate p).EmissionMoves s [p] := by
  unfold State.closeGate
  split
  · exact State.setSht_emissionMoves _
  · exact (State.discardShot_emissionMoves _).trans (State.EmissionMoves.trans
      (.foldl _ fun _ _ _ => .foldl _ fun _ _ _ => State.logDrop_emissionMoves _ _)
      ((State.setSht_emissionMoves _).trans (State.setOptPort_emissionMoves _)))

theorem State.closePort_emissionMoves : (s.closePort p).EmissionMoves s [p] := by
  refine (State.setOptPort_emissionMoves _).trans (State.EmissionMoves.trans (u := s.closeGate p) ?_ State.closeGate_emissionMoves)
  split
  · exact .rfl
  · exact State.setSht_emissionMoves _

theorem State.holdPort_emissionMoves : (s.holdPort p).EmissionMoves s [p] :=
  (State.setAls_emissionMoves _).trans State.closePort_emissionMoves

end

section

variable {s t u v w : State} {p q : Port} {l : List Port} {i : PermitInput} {dt ns : Nat}

/-! ## A hardwired input withdrawn (R427) -/

/-- The ALS state of a port that is held. -/
def AlsSt.hold (a : AlsSt) : AlsSt := if a = .idle then .idle else .held

theorem AlsSt.hold_hold (a : AlsSt) : a.hold.hold = a.hold := by cases a <;> rfl

theorem State.holdPort_als : ((s.holdPort p).als[p]).st = s.als[p].st.hold := by
  have h : (s.closePort p).als = s.als := by simp
  rw [State.holdPort, State.setAls_als_same, h, AlsSt.hold]
  split
  · next hi => exact hi
  · rfl

theorem State.holdPorts_emissionMoves : (l.foldl State.holdPort s).EmissionMoves s l :=
  .foldl l fun _ _ ha => State.holdPort_emissionMoves.mono fun _ hp => (List.mem_singleton.mp hp) ▸ ha

theorem State.holdPorts_als (hq : q ∈ l) : ((l.foldl State.holdPort s).als[q]).st = s.als[q].st.hold := by
  induction l generalizing s with
  | nil => cases hq
  | cons p l ih =>
    by_cases hp : q = p
    · subst hp
      by_cases hl : q ∈ l
      · rw [List.foldl_cons, ih hl, State.holdPort_als, AlsSt.hold_hold]
      · rw [List.foldl_cons, (State.holdPorts_emissionMoves.others q hl).2.1, State.holdPort_als]
    · rw [List.foldl_cons, ih ((List.mem_cons.mp hq).resolve_left hp),
        (State.holdPort_emissionMoves.others q fun h => hp (List.mem_singleton.mp h)).2.1]

/-- An input recognised as withdrawn. -/
def State.withdrawing (u : State) (i : PermitInput) : State :=
  { u with permits := { u.permits with
    risenAt := u.permits.risenAt.set (inputIndex i) u.now
    asserted := u.permits.asserted.set (inputIndex i) false
    opens := if u.live then upd u.permits.opens (inputIndex i) (· + 1) else u.permits.opens } }

theorem State.withdrawing_opens : (u.withdrawing i).permits.opens[inputIndex i] =
    if u.live then u.permits.opens[inputIndex i] + 1 else u.permits.opens[inputIndex i] := by
  unfold State.withdrawing
  dsimp only
  split
  · exact upd_get_same ..
  · rfl

theorem exec_permitWithdrawn_sure (hu : u = s.elapse dt) (h : 5 ≤ ns) :
    exec (.permitWithdrawn dt i ns) s = if u.permits.asserted[inputIndex i] then
      .next ((inputPorts i).foldl State.holdPort (u.withdrawing i))
    else .next { u with permits := { u.permits with risenAt := u.permits.risenAt.set (inputIndex i) u.now } } := by
  simp only [exec, execPermitWithdrawn, ← hu]
  simp only [show ns ≥ 5 from h, decide_true, Bool.true_or, if_true, Bool.true_and]
  rfl

theorem exec_permitWithdrawn_short (hu : u = s.elapse dt) (h : ns < 5) :
    exec (.permitWithdrawn dt i ns) s = if Config.shortPulse u.free then
      (if u.permits.asserted[inputIndex i] then .next ((inputPorts i).foldl State.holdPort (u.takeFree.withdrawing i))
       else .next { u.takeFree with permits := { u.permits with risenAt := u.permits.risenAt.set (inputIndex i) u.now } })
    else .next u.takeFree := by
  simp only [exec, execPermitWithdrawn, ← hu]
  simp only [show ¬ns ≥ 5 by omega, decide_false, Bool.false_or, if_false]
  by_cases hp : Config.shortPulse u.free = true
  · simp only [hp, if_true, Bool.true_and]
    rfl
  · simp only [hp, Bool.false_and, if_false, Bool.false_eq_true]

theorem State.holdPorts_permits : (l.foldl State.holdPort s).permits = s.permits :=
  (congrArg State.permits State.holdPorts_emissionMoves.frame :)

theorem State.withdrawn_asserted (v : State) : ((inputPorts i).foldl State.holdPort (v.withdrawing i)).permits.asserted[inputIndex i] = false := by
  rw [State.holdPorts_permits]
  exact set_get_same ..

theorem exec_permitWithdrawn_acts (hu : u = s.elapse dt) (h : 5 ≤ ns) (ha : u.permits.asserted[inputIndex i] = true) :
    ∃ t, exec (.permitWithdrawn dt i ns) s = .next t ∧
      OnlyReports t { u with permits := t.permits, opt := t.opt, als := t.als, sht := t.sht, acq := t.acq, dts := t.dts,
                             fab := t.fab } ∧
      t.permits.asserted = u.permits.asserted.set (inputIndex i) false ∧
      t.permits.risenAt = u.permits.risenAt.set (inputIndex i) u.now ∧
      t.permits.opens[inputIndex i] = (if u.live then u.permits.opens[inputIndex i] + 1 else u.permits.opens[inputIndex i]) ∧
      (∀ p ∈ inputPorts i, t.opt.ports[p].gate = none ∧ t.opt.ports[p].shutter = false ∧
        t.als[p].st = (if u.als[p].st = .idle then .idle else .held)) ∧
      (∀ p : Port, p ∉ inputPorts i → t.opt.ports[p] = u.opt.ports[p] ∧ t.als[p] = u.als[p] ∧ t.sht[p] = u.sht[p]) := by
  have hm := State.holdPorts_emissionMoves (s := u.withdrawing i) (l := inputPorts i)
  have hp := State.holdPorts_permits (s := u.withdrawing i) (l := inputPorts i)
  refine ⟨_, (exec_permitWithdrawn_sure hu h).trans (if_pos ha), ?_, ?_, ?_, ?_, fun p hp => ?_, hm.others⟩
  · rw [hp]
    exact hm.frame
  · rw [hp]
    rfl
  · rw [hp]
    rfl
  · rw [hp, State.withdrawing_opens]
  · obtain ⟨hg, hs⟩ := State.holdPorts_closed (s := u.withdrawing i) (inputPorts i) hp
    exact ⟨hg, hs, State.holdPorts_als hp⟩

theorem exec_permitWithdrawn_mayAct (hu : u = s.elapse dt) (h : ns < 5) : ∃ t, exec (.permitWithdrawn dt i ns) s = .next t ∧
    (t = u.takeFree ∨ t.permits.asserted[inputIndex i] = false) := by
  rw [exec_permitWithdrawn_short hu h]
  split
  · split
    · exact ⟨_, rfl, .inr (State.withdrawn_asserted _)⟩
    · next ha => exact ⟨_, rfl, .inr (Bool.eq_false_iff.mpr ha)⟩
  · exact ⟨_, rfl, .inl rfl⟩

/-! ## A hardwired input restored (R428, R431) -/

/-- Optics, automatic shutdown and sequencers alone may change, and of a port only what its shutter's opening and its ALS state take. -/
structure State.Resumes (t s : State) : Prop where
  frame : t = { s with opt := t.opt, als := t.als, sht := t.sht }
  gates : ∀ q : Port, t.opt.ports[q].gate = s.opt.ports[q].gate

/-- A port's optics, automatic shutdown and sequencer are the same in two states. -/
def State.SamePort (t s : State) (p : Port) : Prop := t.opt.ports[p] = s.opt.ports[p] ∧ t.als[p] = s.als[p] ∧ t.sht[p] = s.sht[p]

theorem State.SamePort.rfl : s.SamePort s p := ⟨Eq.refl _, Eq.refl _, Eq.refl _⟩

theorem State.SamePort.trans (h : t.SamePort u p) (k : u.SamePort s p) : t.SamePort s p :=
  ⟨h.1.trans k.1, h.2.1.trans k.2.1, h.2.2.trans k.2.2⟩

theorem State.Resumes.rfl : s.Resumes s := ⟨Eq.refl _, fun _ => Eq.refl _⟩

theorem State.Resumes.trans (h : t.Resumes u) (k : u.Resumes s) : t.Resumes s :=
  ⟨h.frame.trans (congrArg (fun x : State => { x with opt := t.opt, als := t.als, sht := t.sht }) k.frame :),
    fun q => (h.gates q).trans (k.gates q)⟩

theorem State.setAls_resumes (f : Als → Als) : (s.setAls p f).Resumes s := ⟨Eq.refl _, fun _ => Eq.refl _⟩

theorem State.requestRebase_resumes : (s.requestRebase p).Resumes s := ⟨Eq.refl _, fun _ => Eq.refl _⟩

theorem State.openShutter_resumes : (s.openShutter p).Resumes s := by
  refine ⟨?_, fun q => ?_⟩
  · conv_lhs => rw [State.openShutter_frame]
    simp only [State.openShutter_als]
    congr 1
    simp
  · rw [State.openShutter_port]
    exact (apply_ite OptPort.gate ..).trans (ite_self _)

theorem State.enterProbe_resumes : (s.enterProbe p).Resumes s :=
  State.requestRebase_resumes.trans (State.openShutter_resumes.trans (State.setAls_resumes _))

theorem State.alsResume_resumes : (s.alsResume p).Resumes s := by
  unfold State.alsResume
  split
  · exact State.openShutter_resumes.trans (State.setAls_resumes _)
  · split
    · exact State.setAls_resumes _
    · exact State.enterProbe_resumes

section
variable (h : q ≠ p)
include h

theorem State.setAls_samePort (f : Als → Als) : (s.setAls p f).SamePort s q := ⟨rfl, State.setAls_als_other h f, rfl⟩

theorem State.openShutter_samePort : (s.openShutter p).SamePort s q :=
  ⟨State.openShutter_port_other h, by rw [State.openShutter_als], by simp⟩

theorem State.enterProbe_samePort : (s.enterProbe p).SamePort s q :=
  State.SamePort.trans (u := (s.setAls p fun a => a.probing s.now).openShutter p) ⟨rfl, rfl, State.setSht_other _ h⟩
    ((State.openShutter_samePort h).trans (State.setAls_samePort h _))

theorem State.alsResume_samePort : (s.alsResume p).SamePort s q := by
  unfold State.alsResume
  split
  · exact (State.openShutter_samePort h).trans (State.setAls_samePort h _)
  · split
    · exact State.setAls_samePort h _
    · exact State.enterProbe_samePort h

end

theorem State.openShutter_opens (hp : s.hardPermit p = true) (hs : s.isShut (portDomain p) = false) (hl : s.live = true) :
    (s.openShutter p).opt.ports[p].shutter = true := by
  rw [State.openShutter_port, if_pos ⟨rfl, hp, hs, hl⟩]

theorem State.alsResume_opens (hp : s.hardPermit p = true) (hs : s.isShut (portDomain p) = false) (hl : s.live = true)
    (ha : s.alsDistance p = 0 ∨ s.alsBlind = false) : (s.alsResume p).opt.ports[p].shutter = true := by
  unfold State.alsResume
  split
  · exact State.openShutter_opens (s := s.setAls p _) hp hs hl
  · next h =>
    rw [ha.resolve_left h, if_neg Bool.false_ne_true]
    exact State.openShutter_opens (s := s.setAls p _) hp hs hl

/-- A port that the input governs returns to its ALS state where it is held and its permit is present. -/
def State.restorePort (s : State) (p : Port) : State :=
  if s.als[p].st = .held ∧ s.hardPermit p = true then s.alsResume p else s

theorem State.restorePort_resumes : (s.restorePort p).Resumes s := by
  unfold State.restorePort
  split
  · exact State.alsResume_resumes
  · exact .rfl

theorem State.restorePort_samePort (h : q ≠ p) : (s.restorePort p).SamePort s q := by
  unfold State.restorePort
  split
  · exact State.alsResume_samePort h
  · exact .rfl

theorem State.restorePorts_resumes : (l.foldl State.restorePort s).Resumes s :=
  List.foldlRecOn (motive := fun v => State.Resumes v s) l _ .rfl fun _ h _ _ => State.restorePort_resumes.trans h

theorem State.restorePorts_samePort (h : p ∉ l) : (l.foldl State.restorePort s).SamePort s p :=
  List.foldlRecOn (motive := fun v => State.SamePort v s p) l _ .rfl fun _ hv q hq =>
    State.SamePort.trans (State.restorePort_samePort fun e : p = q => h (e ▸ hq)) hv

/-- Every port of the list is restored in a state that has it as it was. -/
theorem State.restorePorts_visits (hn : l.Nodup) (h : p ∈ l) :
    ∃ w : State, w.Resumes s ∧ w.SamePort s p ∧ (l.foldl State.restorePort s).SamePort (w.restorePort p) p := by
  induction l generalizing s with
  | nil => cases h
  | cons q l ih =>
    obtain ⟨hq, hl⟩ := List.nodup_cons.mp hn
    by_cases hpq : p = q
    · subst hpq
      exact ⟨s, .rfl, .rfl, State.restorePorts_samePort hq⟩
    · obtain ⟨w, hr, hs, hv⟩ := ih (s := s.restorePort q) hl ((List.mem_cons.mp h).resolve_left hpq)
      exact ⟨w, hr.trans State.restorePort_resumes, hs.trans (State.restorePort_samePort hpq), hv⟩

theorem inputPorts_nodup (i : PermitInput) : (inputPorts i).Nodup := by cases i <;> decide

theorem exec_permitRestored_kept (hu : u = s.elapse dt)
    (h : u.permits.asserted[inputIndex i] = true ∨ u.now < u.permits.risenAt[inputIndex i] + 100 * msP) :
    exec (.permitRestored dt i) s = .next u := by
  simp only [exec, execPermitRestored, ← hu]
  refine if_pos ?_
  rcases h with h | h
  · rw [h, Bool.true_or]
  · rw [decide_eq_false (Nat.not_le.mpr h), Bool.not_false, Bool.or_true]

theorem exec_permitRestored_acts (hu : u = s.elapse dt) (ha : u.permits.asserted[inputIndex i] = false)
    (h : u.permits.risenAt[inputIndex i] + 100 * msP ≤ u.now)
    (hv : v = { u with permits := { u.permits with asserted := u.permits.asserted.set (inputIndex i) true } }) :
    exec (.permitRestored dt i) s = .next ((inputPorts i).foldl State.restorePort v) := by
  simp only [exec, execPermitRestored, ← hu]
  rw [if_neg (by rw [ha, decide_eq_true h]; decide), hv]
  rfl

section
variable (hr : w.Resumes v)
include hr

theorem State.Resumes.hardPermit : w.hardPermit p = v.hardPermit p := (congrArg (fun x : State => x.hardPermit p) hr.frame :)

theorem State.Resumes.alsDistance : w.alsDistance p = v.alsDistance p := (congrArg (fun x : State => x.alsDistance p) hr.frame :)

theorem State.Resumes.alsBlind : w.alsBlind = v.alsBlind := (congrArg State.alsBlind hr.frame :)

theorem State.Resumes.live : w.live = v.live := (congrArg State.live hr.frame :)

theorem State.Resumes.isShut (d : Domain) : w.isShut d = v.isShut d := (congrArg (fun x : State => x.isShut d) hr.frame :)

theorem State.restorePort_held (hs : w.SamePort v p) (hh : v.als[p].st = .held) (hp : v.hardPermit p = true) :
    (w.restorePort p).als[p].st = (if v.alsDistance p = 0 then .disabled else if v.alsBlind then .suspended else .probe) ∧
      (v.live = true → v.isShut (portDomain p) = false → v.alsDistance p = 0 ∨ v.alsBlind = false →
        (w.restorePort p).opt.ports[p].shutter = true) := by
  have hp' := hr.hardPermit (p := p) ▸ hp
  rw [State.restorePort, if_pos ⟨hs.2.1 ▸ hh, hp'⟩, (State.alsResume_moves p).2, hr.alsDistance, hr.alsBlind, ← hr.live, ← hr.isShut]
  refine ⟨rfl, fun hl h0 ha => State.alsResume_opens hp' h0 hl ?_⟩
  rwa [hr.alsDistance, hr.alsBlind]

theorem State.restorePort_stays (hs : w.SamePort v p) (h : v.als[p].st ≠ .held ∨ v.hardPermit p = false) :
    w.restorePort p = w := by
  refine if_neg fun k => ?_
  rcases h with h | h
  · exact h (hs.2.1 ▸ k.1)
  · exact absurd ((hr.hardPermit.symm.trans k.2).symm.trans h) (by decide)

end

end

/-- Settles O58: withdrawn, an input holds its ports by `State.holdPorts_als`; restored, each of its ports is visited once. -/
theorem permitsGovern : Obligations.PermitsGovern := by
  intro s u v dt i hu hv
  refine ⟨fun ns h ha => exec_permitWithdrawn_acts hu h ha, fun ns h ha => ?_, fun ns h => exec_permitWithdrawn_mayAct hu h,
    exec_permitRestored_kept hu, fun ha h => ?_⟩
  · rw [exec_permitWithdrawn_sure hu h, ha, if_neg Bool.false_ne_true]
  have hr := State.restorePorts_resumes (s := v) (l := inputPorts i)
  refine ⟨_, exec_permitRestored_acts hu ha h hv, ?_, fun p hp hh hpm => ?_, fun p hp => ?_, fun p => ?_⟩
  · conv_lhs => rw [hr.frame]
    rw [hv]
  · obtain ⟨w, hw, hs, k1, k2, -⟩ := State.restorePorts_visits (s := v) (inputPorts_nodup i) hp
    rw [k1, k2]
    have k := State.restorePort_held hw hs (by rw [hv]; exact hh) hpm
    rw [hv] at k
    exact k
  · by_cases hl : p ∈ inputPorts i
    · obtain ⟨w, hw, hs, k⟩ := State.restorePorts_visits (s := v) (inputPorts_nodup i) hl
      rw [State.restorePort_stays hw hs (by rw [hv] at *; exact hp.resolve_left (not_not_intro hl))] at k
      rw [hv] at k hs ⊢
      exact k.trans hs
    · have k := State.restorePorts_samePort (s := v) hl
      rw [hv] at k ⊢
      exact k
  · rw [hr.gates, hv]

section

variable {s t u v w : State} {p q : Port} {dt : Nat} {point : U32}

/-! ## Automatic laser shutdown (R430 to R434) -/

/-- A port's ALS state at its shutdown. -/
def Als.shutDown (a : Als) (time : U64) (point : U32) : Als :=
  { a with st := .shutdown, shutdowns := a.shutdowns + 1, shutdownTime := time, shutdownPoint := point, nearNotice := none }

theorem State.enterShutdown_eq : u.enterShutdown p point = (u.setAls p fun a => a.shutDown u.devTime point).closePort p := rfl

theorem State.enterShutdown_als : (u.enterShutdown p point).als = upd u.als p fun a => a.shutDown u.devTime point := by
  rw [State.enterShutdown_eq]
  simp [State.setAls]

theorem State.enterShutdown_closed :
    (u.enterShutdown p point).opt.ports[p].gate = none ∧ (u.enterShutdown p point).opt.ports[p].shutter = false :=
  State.closePort_closed _ p

theorem State.enterShutdown_emissionMoves : (u.enterShutdown p point).EmissionMoves u [p] :=
  State.closePort_emissionMoves.trans (State.setAls_emissionMoves _)

section
variable (hu : u = s.elapse dt)
include hu

theorem exec_alsShutdown (hn : u.als[p].nearNotice = some point) (hs : u.als[p].st = .sensing) :
    exec (.alsShutdown dt p) s = .next ((u.enterShutdown p point).setAls p fun a => { a with periodFrom := u.now }) := by
  simp only [exec, execAlsShutdown, ← hu, hn]
  exact if_pos hs

theorem exec_alsProbeEntry (hl : u.live = true) (hs : u.als[p].st = .shutdown) (h0 : u.probePeriod ≠ 0)
    (hd : u.als[p].periodFrom + u.probePeriod * secP ≤ u.now) : exec (.alsProbeEntry dt p) s = .next (u.enterProbe p) := by
  simp only [exec, execAlsProbeEntry, ← hu]
  rw [if_pos (by rw [hl, hs, bne_iff_ne.mpr h0, decide_eq_true hd]; rfl)]

variable (hs : u.als[p].st = .probe)
include hs

theorem exec_alsProbeWindowEnd {w : Nat} (hw : u.als[p].windowFrom = some w) (hd : w + u.probeTime * msP ≤ u.now)
    (h16 : 16 ≤ u.als[p].groups.length) :
    exec (.alsProbeWindowEnd dt p) s = .next { u with als := upd u.als p fun a => { a with windowEnded := true } } := by
  have ho : u.als[p].windowOver u.now (u.probeTime * msP) = true := by
    rw [Als.windowOver, hw, decide_eq_true h16, Bool.and_true]
    exact decide_eq_true hd
  simp only [exec, execAlsProbeWindowEnd, ← hu]
  rw [if_pos (by rw [hs, ho]; rfl)]
  rfl

/-- A port whose probe has failed. -/
def State.probeFailed (u : State) (p : Port) : State :=
  (u.setAls p fun a => { a with probeFails := a.probeFails + 1 }).enterShutdown p u.als[p].lastNear

theorem exec_alsProbeJudged (hw : u.als[p].windowEnded = true) (hg : ∀ g ∈ u.als[p].groups, g.near ≠ none) :
    exec (.alsProbeJudged dt p) s = if u.als[p].passes then .next { u with als := upd u.als p fun a => { a with st := .sensing } }
      else .next (u.probeFailed p) := by
  have hall : (u.als[p].groups.all fun g => g.near.isSome) = true :=
    List.all_eq_true.mpr fun g h => Option.isSome_iff_ne_none.mpr (hg g h)
  simp only [exec, execAlsProbeJudged, ← hu]
  rw [if_pos (by rw [hs, hw, hall]; rfl)]
  rfl

theorem exec_alsProbeNoLaunch (hd : u.als[p].launchedAt + u.probeTime * msP ≤ u.now) :
    exec (.alsProbeNoLaunch dt p) s = .next (u.probeFailed p) := by
  simp only [exec, execAlsProbeNoLaunch, ← hu]
  rw [if_pos (by rw [hs, decide_eq_true hd]; rfl)]
  rfl

end

theorem State.probeFailed_als : (u.probeFailed p).als[p].st = .shutdown ∧
    (u.probeFailed p).als[p].probeFails = u.als[p].probeFails + 1 ∧ (u.probeFailed p).als[p].shutdowns = u.als[p].shutdowns + 1 := by
  rw [State.probeFailed, State.enterShutdown_als, upd_get_same, State.setAls_als_same]
  exact ⟨rfl, rfl, rfl⟩

theorem State.probeFailed_closed : (u.probeFailed p).opt.ports[p].gate = none ∧ (u.probeFailed p).opt.ports[p].shutter = false :=
  State.enterShutdown_closed

theorem State.probeFailed_frame : OnlyReports (u.probeFailed p) (u.withEmission (u.probeFailed p)) :=
  (State.enterShutdown_emissionMoves.trans (State.setAls_emissionMoves _)).frame

theorem alsShutdown_acts (hu : u = s.elapse dt) (hn : u.als[p].nearNotice = some point) (hs : u.als[p].st = .sensing) :
    ∃ t, exec (.alsShutdown dt p) s = .next t ∧
      OnlyReports t { u with opt := t.opt, als := t.als, sht := t.sht, acq := t.acq, dts := t.dts, fab := t.fab } ∧
      t.als[p] = { u.als[p] with
        st := .shutdown, shutdowns := u.als[p].shutdowns + 1, shutdownTime := u.devTime, shutdownPoint := point
        nearNotice := none, periodFrom := u.now } ∧
      t.opt.ports[p].gate = none ∧ t.opt.ports[p].shutter = false ∧
      (∀ q, q ≠ p → t.als[q] = u.als[q] ∧ t.opt.ports[q] = u.opt.ports[q]) := by
  have hm : ((u.enterShutdown p point).setAls p fun a => { a with periodFrom := u.now }).EmissionMoves u [p] :=
    (State.setAls_emissionMoves _).trans State.enterShutdown_emissionMoves
  obtain ⟨hg, hc⟩ := State.enterShutdown_closed (u := u) (p := p) (point := point)
  refine ⟨_, exec_alsShutdown hu hn hs, hm.frame, ?_, hg, hc, fun q hq => ?_⟩
  · rw [State.setAls_als_same, State.enterShutdown_als, upd_get_same]
    rfl
  · obtain ⟨ho, ha, -⟩ := hm.others q fun k => hq (List.mem_singleton.mp k)
    exact ⟨ha, ho⟩

theorem State.enterProbe_port : (u.enterProbe p).opt.ports[p] =
    if u.hardPermit p = true ∧ u.isShut (portDomain p) = false ∧ u.live = true then
      { u.opt.ports[p] with shutter := true, openedAt := u.now } else u.opt.ports[p] := by
  refine (State.openShutter_port (u.setAls p _) p p).trans ?_
  simp only [true_and]
  rfl

theorem alsProbeEntry_acts (hu : u = s.elapse dt) (hl : u.live = true) (hs : u.als[p].st = .shutdown) (h0 : u.probePeriod ≠ 0)
    (hd : u.als[p].periodFrom + u.probePeriod * secP ≤ u.now) :
    ∃ t, exec (.alsProbeEntry dt p) s = .next t ∧ t = { u with opt := t.opt, als := t.als, sht := t.sht } ∧ t.als[p].st = .probe ∧
      t.als[p].probes = u.als[p].probes + 1 ∧ t.als[p].periodFrom = u.now ∧ t.als[p].groups = [] ∧ t.sht[p].rebase = true ∧
      (u.hardPermit p = true → u.isShut (portDomain p) = false → t.opt.ports[p].shutter = true) ∧
      (u.hardPermit p = false ∨ u.isShut (portDomain p) = true → t.opt.ports[p] = u.opt.ports[p]) ∧
      (∀ q, q ≠ p → t.als[q] = u.als[q] ∧ t.opt.ports[q] = u.opt.ports[q]) := by
  have ha : (u.enterProbe p).als[p] = u.als[p].probing u.now := by rw [State.enterProbe_als, upd_get_same]
  refine ⟨_, exec_alsProbeEntry hu hl hs h0 hd, State.enterProbe_resumes.frame, ?_, ?_, ?_, ?_, ?_, fun hp hn => ?_, fun h => ?_,
    fun q hq => ?_⟩
  · rw [ha]
    rfl
  · rw [ha]
    rfl
  · rw [ha]
    rfl
  · rw [ha]
    rfl
  · exact congrArg Sht.rebase (State.setSht_same _)
  · rw [State.enterProbe_port, if_pos ⟨hp, hn, hl⟩]
  · rw [State.enterProbe_port, if_neg]
    rintro ⟨hp, hn, -⟩
    rcases h with h | h
    · exact absurd (h.symm.trans hp) (by decide)
    · exact absurd (h.symm.trans hn) (by decide)
  · obtain ⟨ho, ha, -⟩ := State.enterProbe_samePort (s := u) hq
    exact ⟨ha, ho⟩

end

/-- Settles O59: shutdown by `State.enterShutdown`, a probe's entry by `State.enterProbe`, its failure by `State.probeFailed`. -/
theorem alsProtects : Obligations.AlsProtects := by
  intro s u dt p hu
  refine ⟨fun point hn hs => alsShutdown_acts hu hn hs, fun hl hs h0 hd => alsProbeEntry_acts hu hl hs h0 hd, fun hs =>
    ⟨fun w hw hd h16 => exec_alsProbeWindowEnd hu hs hw hd h16, fun hw hg => ?_, fun hd => ?_⟩⟩
  all_goals
    obtain ⟨hst, hf, hsd⟩ := State.probeFailed_als (u := u) (p := p)
    obtain ⟨hgate, hshut⟩ := State.probeFailed_closed (u := u) (p := p)
  · rw [exec_alsProbeJudged hu hs hw hg]
    exact ⟨fun h => if_pos h, fun h => ⟨_, if_neg (by rw [h]; decide), hst, hf, hsd, hgate, hshut, State.probeFailed_frame⟩⟩
  · exact ⟨_, exec_alsProbeNoLaunch hu hs hd, hst, hf, hgate, hshut, State.probeFailed_frame⟩

end Sys2Proof.Machine

/-! SUPPORT. The PCI Express endpoint: configuration, link, resets, reads, register writes and MSI-X. -/

namespace Sys2Proof.Machine

section

variable {s t u v w : State} {dt : Nat}

/-! ## Requests of the PCI Express endpoint (R354 to R357, R460) -/

/-- A staging that ends leaves its code. -/
theorem State.stageEnd_result {g : Staging} (hg : s.cfg.staging = some g) (code detail : Nat) :
    (s.stageEnd code detail).cfg.stageResult = BitVec.ofNat 32 code := by
  unfold State.stageEnd
  split
  · next e => exact absurd (e.symm.trans hg) nofun
  · extract_lets src s1 s2 s3 s4 st
    have h3 : s3.cfg = s2.cfg := by
      simp only [s3]
      split_ifs <;> simp
    have h4 : s4.cfg = s2.cfg := by
      simp only [s4]
      split_ifs <;> simp [h3]
    have key {t : State} (h : t.cfg = s2.cfg) : t.cfg.stageResult = BitVec.ofNat 32 code := by
      rw [h]
      rfl
    split
    · exact key h4
    · split <;> exact key h3

theorem State.mbxStaging_some (h : u.mbxStaging ≠ none) : ∃ g, u.cfg.staging = some g ∧ g.feeder = .mailbox := by
  unfold State.mbxStaging at h
  cases hg : u.cfg.staging with
  | none => exact absurd (by rw [hg]; rfl) h
  | some g =>
    refine ⟨g, rfl, ?_⟩
    by_contra hf
    exact h (by rw [hg, Option.bind_some, if_neg hf])

/-- A mailbox staging that a reset ends (R465). -/
theorem State.stageAbort_mailbox (h : u.mbxStaging ≠ none) :
    (u.stageAbort .mailbox).cfg.staging = none ∧ (u.stageAbort .mailbox).cfg.stageResult = 7 := by
  obtain ⟨g, hg, hf⟩ := State.mbxStaging_some h
  have e : u.stageAbort .mailbox = u.stageEnd 7 0 := by
    unfold State.stageAbort
    rw [hg]
    exact if_pos hf
  rw [e]
  exact ⟨(State.stageEnd_cfg ..).2.2, State.stageEnd_result hg ..⟩

/-- The link after a reset of a kind. -/
def linkAfter (kind : LinkReset) : LinkSt := if kind = .perst then .off else .training

section
variable (hu : u = s.elapse dt)
include hu

theorem exec_pcieConfigRequest_retried (w : Bool) (reg : Nat) (value : U32) (hl : u.live = true) (hc : u.cfg.state = 0) :
    exec (.pcieConfigRequest dt w reg value) s = .next { u with outputs := .completion .crs :: u.outputs } := by
  simp only [exec, execPcieConfigRequest, ← hu]
  rw [if_neg (by rw [hl]; decide), if_pos hc]
  rfl

theorem exec_pcieConfigRequest (w : Bool) (reg : Nat) (value : U32) (hl : u.live = true) (hc : u.cfg.state ≠ 0)
    (hp : u.pciePresent = true) : exec (.pcieConfigRequest dt w reg value) s = if w then .next { u with
        pcie := { u.pcie with config := (reg, value) :: u.pcie.config }
        outputs := .completion (.data []) :: u.outputs }
      else .next { u with outputs := .completion (.data (le 4 (u.configWord reg))) :: u.outputs } := by
  simp only [exec, execPcieConfigRequest, ← hu]
  rw [if_neg (by rw [hl]; decide), if_neg hc, if_neg (by rw [hp]; decide)]
  rfl

section
variable (hp : u.pciePresent = true)
include hp

theorem exec_pcieLinkUp (speed width : Nat) : exec (.pcieLinkUp dt speed width) s = .next { u with pcie := { u.pcie with
    link := .up, speed := min speed u.pcieMaxSpeed, width := linkWidth (min width u.pcieMaxWidth) } } := by
  simp only [exec, execPcieLinkUp, ← hu]
  exact if_pos hp

/-- The state that a reset of the link or the function finds: a mailbox staging has ended and the mailbox is locked. -/
def State.mailboxEnded (u : State) : State := if u.mbxStaging.isSome then (u.stageAbort .mailbox).mbxLock else u

omit hu hp in
theorem State.mailboxEnded_none (h : u.mbxStaging = none) : u.mailboxEnded = u := if_neg (by rw [h]; decide)

omit hu hp in
theorem State.mailboxEnded_some (h : u.mbxStaging ≠ none) : u.mailboxEnded.cfg.staging = none ∧ u.mailboxEnded.cfg.stageResult = 7 ∧
    u.mailboxEnded.mbx.unlocked = false := by
  rw [State.mailboxEnded, if_pos (Option.isSome_iff_ne_none.mpr h)]
  exact ⟨(State.stageAbort_mailbox h).1, (State.stageAbort_mailbox h).2, rfl⟩

theorem exec_pcieLinkReset (kind : LinkReset) : exec (.pcieLinkReset dt kind) s = .next { u.mailboxEnded with
    pcie := { u.mailboxEnded.pcie.resetFunction with link := linkAfter kind, speed := 0, width := 0 } } := by
  simp only [exec, execPcieLinkReset, ← hu]
  rw [if_pos hp]
  cases kind <;> rfl

variable (hk : u.pcie.link = .up)
include hk

omit hu in
theorem linkUp_of_up : (u.pciePresent && u.pcie.link == .up) = true := by rw [hp, hk]; rfl

theorem exec_pcieFunctionLevelReset : exec (.pcieFunctionLevelReset dt) s = .next { u.mailboxEnded with
    pcie := u.mailboxEnded.pcie.resetFunction } := by
  simp only [exec, execPcieFunctionLevelReset, ← hu]
  rw [if_pos (linkUp_of_up hp hk)]
  rfl

theorem exec_pciePowerStateChange (d3 : Bool) :
    exec (.pciePowerStateChange dt d3) s = .next { u with pcie := { u.pcie with d3hot := d3 } } := by
  simp only [exec, execPciePowerStateChange, ← hu]
  rw [if_pos (linkUp_of_up hp hk)]

theorem exec_bar2Read_outside {o n : Nat} (h : u.bar2Bytes < o + n) : exec (.bar2Read dt o n) s = .fault .outsideWindow := by
  simp only [exec, execBar2Read, ← hu]
  rw [linkUp_of_up hp hk, if_neg (by decide), if_pos (by simp [inWindow, h])]

theorem exec_bar2Read_inside {o n : Nat} (h : o + n ≤ u.bar2Bytes) : exec (.bar2Read dt o n) s =
    if !u.pcieServes || u.isShut 13 then .next u.completeUr
    else if u.mem.host.isEmpty && decide (u.capacity ≤ o) then
      .next { u with outputs := .completion (.data (List.replicate n 0)) :: u.outputs }
    else .next { u with mem := { u.mem with
      host := u.mem.host ++ [{ offset := o, length := n, arrived := u.now }], requestAt := u.now } } := by
  simp only [exec, execBar2Read, ← hu]
  rw [linkUp_of_up hp hk, if_neg (by decide), if_neg (by simp [inWindow, h])]
  rfl

theorem exec_bar2Write_inside {o : Nat} (h : o + 1 ≤ u.bar2Bytes) : exec (.bar2Write dt o) s =
    if u.pcieServes then .next { u with pcie := { u.pcie with writesDiscarded := u.pcie.writesDiscarded + 1 } }
    else .next { u with pcie := { u.pcie with ur := u.pcie.ur + 1 } } := by
  simp only [exec, execBar2Write, ← hu]
  rw [linkUp_of_up hp hk, if_neg (by decide), if_neg (by simp [inWindow, h]), State.postedUr, if_pos (linkUp_of_up hp hk)]
  rfl

/-- The state that has found a status read failed twice: all ones, poisoned. -/
def State.readPoisoned (u : State) (n : Nat) : State :=
  { u with
    readFailures := u.readFailures + 1, pcie := { u.pcie with poisoned := u.pcie.poisoned + 1 }
    outputs := .completion (.poisoned (List.replicate n 0xFF)) :: u.outputs }

theorem exec_counterLowWordRead_pcie {o n : Nat} (failed : Bool) (h : o + n ≤ 0x1000000) :
    exec (.counterLowWordRead dt .pcie o n failed) s =
      if !u.pcieServes then .next u.completeUr
      else if failed then .next ((u.readPoisoned n).msixEvent 7)
      else .next { u with
        latches := (u.statusRead .pcie o n).2.latches
        outputs := .completion (.data (u.statusRead .pcie o n).1) :: u.outputs } := by
  simp only [exec, execCounterLowWordRead, ← hu]
  rw [linkUp_of_up hp hk, if_neg (by decide), if_neg (by simp [inWindow, bar0Bytes, h])]
  rfl

end

theorem exec_counterLowWordRead_other {path : AccessPath} {o n : Nat} (failed : Bool) (hl : u.live = true) (hn : path ≠ .pcie)
    (h : o + n ≤ statusEnd) : exec (.counterLowWordRead dt path o n failed) s =
      if failed then .next { u with readFailures := u.readFailures + 1 }
      else .next { u with latches := (u.statusRead path o n).2.latches } := by
  have k : (!u.live || decide (statusEnd < o + n)) = false := by rw [hl, decide_eq_false (by omega)]; rfl
  cases path with
  | pcie => exact absurd rfl hn
  | _ =>
    simp only [exec, execCounterLowWordRead, ← hu]
    exact if_neg (by simpa using k)

end

end

/-- Settles O48: each command of the endpoint under its hypotheses. -/
theorem pcieRequestsComplete : Obligations.PcieRequestsComplete := by
  intro s u dt hu hl
  refine ⟨fun w reg value => ⟨exec_pcieConfigRequest_retried hu w reg value hl, fun hc hp => ⟨?_, ?_⟩⟩, fun hp =>
    ⟨exec_pcieLinkUp hu hp, fun kind hm => ?_, fun hm => ⟨fun kind => ?_, fun hk => ?_⟩⟩, fun hp hk =>
    ⟨exec_pciePowerStateChange hu hp hk, fun hm => ?_, fun o n => exec_bar2Read_outside hu hp hk, fun o n h hs => ?_,
      fun o n h hs h13 => ⟨?_, ?_⟩, fun o h => ⟨?_, ?_⟩, fun o n h => ⟨fun failed hs => ?_, fun hs => ?_, fun hs => ?_⟩⟩,
    fun path o n hn h => ⟨exec_counterLowWordRead_other hu false hl hn h, exec_counterLowWordRead_other hu true hl hn h⟩⟩
  · exact exec_pcieConfigRequest hu true reg value hl hc hp
  · exact exec_pcieConfigRequest hu false reg value hl hc hp
  · rw [exec_pcieLinkReset hu hp, State.mailboxEnded_none hm]
    rfl
  · exact ⟨_, exec_pcieLinkReset hu hp kind, State.mailboxEnded_some hm⟩
  · exact ⟨_, exec_pcieFunctionLevelReset hu hp hk, State.mailboxEnded_some hm⟩
  · rw [exec_pcieFunctionLevelReset hu hp hk, State.mailboxEnded_none hm]
    rfl
  · rw [exec_bar2Read_inside hu hp hk h, if_pos (by simpa using hs)]
    rfl
  · rintro ⟨hh, hc⟩
    rw [exec_bar2Read_inside hu hp hk h, if_neg (by rw [hs, h13]; decide), if_pos (by simp [hh, hc])]
  · intro hh
    rw [exec_bar2Read_inside hu hp hk h, if_neg (by rw [hs, h13]; decide), if_neg]
    rcases hh with hh | hh
    · simp [hh]
    · simp [hh]
  · exact fun hs => (exec_bar2Write_inside hu hp hk h).trans (if_pos hs)
  · exact fun hs => (exec_bar2Write_inside hu hp hk h).trans (if_neg (by rw [hs]; decide))
  · exact (exec_counterLowWordRead_pcie hu hp hk failed h).trans (if_pos (by rw [hs]; rfl))
  · exact (exec_counterLowWordRead_pcie hu hp hk false h).trans (if_neg (by rw [hs]; decide))
  · exact ⟨_, (exec_counterLowWordRead_pcie hu hp hk true h).trans (if_neg (by rw [hs]; decide)), State.msixEvent_hushed ..⟩

section

variable {s t u v w : State} {dt : Nat}

/-! ## Host writes (R355, R358, R461, R462) -/

/-- A host write to a served function, outside the mailbox's own registers and the MSI-X table, reaches the mailbox page. -/
theorem State.mbxWrite_data (hul : u.mbx.unlocked = true) (hb : u.mbx.busy = false) {data : List Byte} (hd : data.length = 4) {i : Nat}
    (h4 : i % 4 = 0) (h : i + 4 ≤ 4096) : u.mbxWrite (0x1000 + i) data = { u with mbx := { u.mbx with
      data := u.mbx.data.take i ++ data ++ u.mbx.data.drop (i + 4), firstKey := none, idleFrom := u.now } } := by
  have he : data.isEmpty = false := List.isEmpty_eq_false_iff.mpr fun e => by rw [e] at hd; cases hd
  unfold State.mbxWrite
  dsimp only
  rw [if_neg (by simp [hd, he]; omega), if_pos (by omega), if_pos (by rw [hul, hb]; rfl), hd, Nat.add_sub_cancel_left]

theorem State.mbxWrite_arg (hul : u.mbx.unlocked = true) {data : List Byte} (hd : data.length = 4) :
    u.mbxWrite 8 data = { u with mbx := { u.mbx with arg := BitVec.ofNat 32 (leNat data), firstKey := none, idleFrom := u.now } } := by
  have he : data.isEmpty = false := List.isEmpty_eq_false_iff.mpr fun e => by rw [e] at hd; cases hd
  unfold State.mbxWrite
  dsimp only
  rw [if_neg (by rw [hd, he]; decide), if_neg (by omega), if_neg (by rw [hd]; decide), if_pos ⟨rfl, hul⟩]

theorem State.mbxWrite_block (hul : u.mbx.unlocked = true) {data : List Byte} (hd : data.length = 4) :
    u.mbxWrite 12 data = { u with mbx := { u.mbx with block := BitVec.ofNat 32 (leNat data), firstKey := none, idleFrom := u.now } } := by
  have he : data.isEmpty = false := List.isEmpty_eq_false_iff.mpr fun e => by rw [e] at hd; cases hd
  unfold State.mbxWrite
  dsimp only
  rw [if_neg (by rw [hd, he]; decide), if_neg (by omega), if_neg (by rw [hd]; decide), if_neg (by omega), if_pos ⟨rfl, hul⟩]

theorem State.mbxWrite_locked (hul : u.mbx.unlocked = false) (off : Nat) (data : List Byte) :
    u.mbxWrite off data = { u with mbx := { u.mbx with rejected := u.mbx.rejected + 1, firstKey := none, idleFrom := u.now } } := by
  unfold State.mbxWrite
  dsimp only
  rw [hul]
  simp only [Bool.false_and, Bool.false_eq_true, if_false, and_false, ite_self]
  rfl

section
variable (hu : u = s.elapse dt)
include hu

theorem exec_msixTableWrite (o : Nat) (value : U32) :
    exec (.msixTableWrite dt o value) s = if u.pcieServes then .next (u.msixWrite o value) else .next u.postedUr := by
  simp only [exec, execMsixTableWrite, ← hu]

theorem exec_registerWrite_unserved (hs : u.pcieServes = false) {o : Nat} {data : List Byte} (h : o + data.length ≤ 0x1000000) :
    exec (.registerWrite dt o data) s = .next u.postedUr := by
  simp only [exec, execRegisterWrite, ← hu]
  rw [if_neg (by simp [inWindow, bar0Bytes, h]), if_pos (by rw [hs]; rfl)]

variable (hs : u.pcieServes = true)
include hs

theorem exec_registerWrite_outside {o : Nat} {data : List Byte} (h : o + data.length ≤ 0x1000000) (ho : o < 0x1F0000 ∨ 0x200000 ≤ o) :
    exec (.registerWrite dt o data) s = .next { u with pcie := { u.pcie with writesDiscarded := u.pcie.writesDiscarded + 1 } } := by
  simp only [exec, execRegisterWrite, ← hu]
  rw [if_neg (by simp [inWindow, bar0Bytes, h]), if_neg (by rw [hs]; decide), if_pos ho]
  rfl

theorem exec_registerWrite_mailbox {o : Nat} {data : List Byte} (hd : data.length = 4) (hlo : 8 ≤ o) (hhi : o < 0xF000) :
    exec (.registerWrite dt (0x1F0000 + o) data) s = .next (u.mbxWrite o data) := by
  have hw : inWindow bar0Bytes (0x1F0000 + o) data.length = true := decide_eq_true (by unfold bar0Bytes; omega)
  simp only [exec, execRegisterWrite, ← hu]
  rw [if_neg (by rw [hw]; decide), if_neg (by rw [hs]; decide), if_neg (by omega), if_neg (by omega), if_neg (by omega),
    if_neg (by unfold msixTable; omega), Nat.add_sub_cancel_left]

end

/-! ## MSI-X (R358) -/

/-- A vector whose message has been sent. -/
def MsixVec.messaged (x : MsixVec) (until_ : Nat) : MsixVec :=
  { x with sent := x.sent + 1, merged := false, pending := false, holdUntil := until_ }

theorem State.msixSend_eq (v : Fin 8) : u.msixSend v = { u with
    outputs := .msix v u.pcie.msix[v].addr u.pcie.msix[v].data :: u.outputs
    pcie := { u.pcie with msix := u.pcie.msix.set v (u.pcie.msix[v].messaged (u.now + u.msixHoldoff * usP)) } } := rfl

/-- A word of a vector's entry is written. -/
def State.entryWritten (u : State) (v : Fin 8) (word : Fin 4) (value : U32) : State :=
  { u with pcie := { u.pcie with msix := upd u.pcie.msix v fun x => x.writeWord word.val value } }

theorem State.msixWrite_at {off : Nat} {v : Fin 8} {word : Fin 4} (value : U32) (ho : msixTable ≤ off)
    (hk : (off - msixTable) / 16 = v.val) (hi : (off - msixTable) / 4 % 4 = word.val) (hw : w = u.entryWritten v word value) :
    u.msixWrite off value = if w.pcie.msix[v].pending && !w.pcie.msix[v].control.getLsbD 0 then w.msixSend v else w := by
  have h8 : (off - msixTable) / 16 < 8 := by omega
  have hv : (⟨(off - msixTable) / 16, h8⟩ : Fin 8) = v := Fin.ext hk
  unfold State.msixWrite
  dsimp only
  rw [dif_pos ⟨ho, h8⟩]
  simp only [hv, hi]
  rw [hw]
  rfl

theorem State.msixWrite_eq (v : Fin 8) (word : Fin 4) (value : U32) (hw : w = u.entryWritten v word value) :
    u.msixWrite (0x1FF000 + 16 * v.val + 4 * word.val) value =
      if w.pcie.msix[v].pending && !w.pcie.msix[v].control.getLsbD 0 then w.msixSend v else w := by
  have hb := word.isLt
  refine State.msixWrite_at value ?_ ?_ ?_ hw
  all_goals
    unfold msixTable
    omega

theorem MsixVec.writeWord_keeps (x : MsixVec) (k : Nat) (value : U32) : (x.writeWord k value).pending = x.pending ∧
    (x.writeWord k value).sent = x.sent := by
  unfold MsixVec.writeWord
  split <;> exact ⟨rfl, rfl⟩

theorem msixTableWrite_parts (hu : u = s.elapse dt) (hs : u.pcieServes = true) (v : Fin 8) (word : Fin 4) (value : U32) :
    ∃ t, exec (.msixTableWrite dt (0x1FF000 + 16 * v.val + 4 * word.val) value) s = .next t ∧
      t = { u with pcie := { u.pcie with msix := t.pcie.msix }, outputs := t.outputs } ∧
      t.pcie.msix[v].addr = (u.pcie.msix[v].writeWord word.val value).addr ∧
      t.pcie.msix[v].data = (u.pcie.msix[v].writeWord word.val value).data ∧
      t.pcie.msix[v].control = (u.pcie.msix[v].writeWord word.val value).control ∧
      (∀ k, k ≠ v → t.pcie.msix[k] = u.pcie.msix[k]) ∧
      (if u.pcie.msix[v].pending = true ∧ (u.pcie.msix[v].writeWord word.val value).control.getLsbD 0 = false then
        t.outputs = .msix v t.pcie.msix[v].addr t.pcie.msix[v].data :: u.outputs ∧ t.pcie.msix[v].pending = false ∧
          t.pcie.msix[v].sent = u.pcie.msix[v].sent + 1
       else t.outputs = u.outputs ∧ t.pcie.msix[v].pending = u.pcie.msix[v].pending) := by
  obtain ⟨w, hw⟩ : ∃ w, w = u.entryWritten v word value := ⟨_, rfl⟩
  have hx : w.pcie.msix[v] = u.pcie.msix[v].writeWord word.val value := by
    rw [hw]
    exact upd_get_same ..
  have hf : w = { u with pcie := { u.pcie with msix := w.pcie.msix } } := by
    rw [hw]
    rfl
  have hq (k : Fin 8) (h : k ≠ v) : w.pcie.msix[k] = u.pcie.msix[k] := by
    rw [hw]
    exact upd_get_other _ _ h
  have ho : w.outputs = u.outputs := (congrArg State.outputs hf :)
  obtain ⟨hp, hn⟩ := MsixVec.writeWord_keeps u.pcie.msix[v] word.val value
  have e := (exec_msixTableWrite hu (0x1FF000 + 16 * v.val + 4 * word.val) value).trans (if_pos hs)
  rw [State.msixWrite_eq v word value hw, hx, hp] at e
  generalize u.pcie.msix[v].writeWord word.val value = x at *
  by_cases h : u.pcie.msix[v].pending = true ∧ x.control.getLsbD 0 = false
  · rw [if_pos (by rw [h.1, h.2]; rfl)] at e
    have hv : (w.msixSend v).pcie.msix[v] = x.messaged (w.now + w.msixHoldoff * usP) := by
      rw [← hx]
      exact set_get_same ..
    refine ⟨_, e, ?_, by rw [hv]; rfl, by rw [hv]; rfl, by rw [hv]; rfl, fun k hk => (set_get_other _ _ hk).trans (hq k hk), ?_⟩
    · exact (congrArg (fun x : State =>
        { x with outputs := (w.msixSend v).outputs, pcie := { x.pcie with msix := (w.msixSend v).pcie.msix } }) hf :)
    · rw [if_pos h, hv, State.msixSend_eq, ho, hx]
      exact ⟨rfl, rfl, congrArg (· + 1) hn⟩
  · rw [if_neg (by rw [Bool.and_eq_true, Bool.not_eq_true']; exact h)] at e
    refine ⟨w, e, ?_, by rw [hx], by rw [hx], by rw [hx], hq, ?_⟩
    · rw [ho]
      exact hf
    · rw [if_neg h, hx]
      exact ⟨ho, hp⟩

theorem exec_msixHoldoffExpiry (hu : u = s.elapse dt) (v : Fin 8) (hm : u.pcie.msix[v].merged = true)
    (hd : u.pcie.msix[v].holdUntil ≤ u.now)
    (hw : w = { u with pcie := { u.pcie with msix := u.pcie.msix.set v { u.pcie.msix[v] with merged := false } } }) :
    exec (.msixHoldoffExpiry dt v) s = .next (w.msixEvent v) := by
  simp only [exec, execMsixHoldoffExpiry, ← hu]
  rw [if_pos (by rw [hm, decide_eq_true hd]; rfl), hw]

end

section

variable {s t u v w : State} {dt : Nat}

theorem State.pcieServes_of_msix {m : Vector MsixVec 8} (hw : w = { u with pcie := { u.pcie with msix := m } }) :
    w.pcieServes = u.pcieServes := by
  rw [hw]
  rfl

/-- Events merged during a hold-off: the vector is masked, or its message leaves. -/
theorem msixHoldoffExpiry_parts (hu : u = s.elapse dt) (v : Fin 8) (hm : u.pcie.msix[v].merged = true)
    (hd : u.pcie.msix[v].holdUntil ≤ u.now) (hs : u.pcieServes = true) :
    ∃ t, exec (.msixHoldoffExpiry dt v) s = .next t ∧ OnlyReports t u ∧ t.pcie.msix[v].merged = false ∧
      (u.pcie.msix[v].control.getLsbD 0 = false → t.outputs = .msix v u.pcie.msix[v].addr u.pcie.msix[v].data :: u.outputs ∧
        t.pcie.msix[v].sent = u.pcie.msix[v].sent + 1 ∧ t.pcie.msix[v].holdUntil = u.now + u.msixHoldoff * usP) ∧
      (u.pcie.msix[v].control.getLsbD 0 = true → t.outputs = u.outputs ∧ t.pcie.msix[v].pending = true) := by
  obtain ⟨x, hx⟩ : ∃ x : MsixVec, x = { u.pcie.msix[v] with merged := false } := ⟨_, rfl⟩
  obtain ⟨w, hw⟩ : ∃ w : State, w = { u with pcie := { u.pcie with msix := u.pcie.msix.set v x } } := ⟨_, rfl⟩
  have hwv : w.pcie.msix[v] = x := by
    rw [hw]
    exact set_get_same ..
  have hrep : OnlyReports w u := by
    have h := map_set u.pcie.msix v x (fun e : MsixVec => { e with pending := false, holdUntil := 0, merged := false, sent := 0 })
      (by rw [hx])
    rw [hw]
    exact congrArg (fun m => ({ u.hushed with pcie := { u.hushed.pcie with msix := m } } : State)) h
  have hsw : w.pcieServes = true := (State.pcieServes_of_msix hw).trans hs
  have hc : x.control = u.pcie.msix[v].control := by rw [hx]
  have hnow : ¬w.now < x.holdUntil := by
    rw [hw, hx]
    exact Nat.not_lt.mpr hd
  refine ⟨_, exec_msixHoldoffExpiry hu v hm hd (by rw [hw, hx]), (State.msixEvent_hushed _ _).trans hrep, ?_⟩
  rw [State.msixEvent, if_pos hsw, hwv]
  by_cases h0 : u.pcie.msix[v].control.getLsbD 0 = true
  · rw [if_pos (by rw [hc, h0])]
    have k : (w.pcie.msix.set v { x with pending := true })[v] = { x with pending := true } := set_get_same ..
    dsimp only
    rw [k, hw]
    exact ⟨by rw [hx], fun h => absurd (h0.symm.trans h) (by decide), fun _ => ⟨rfl, rfl⟩⟩
  · rw [if_neg (by rw [hc]; exact h0), if_neg hnow]
    have k : (w.msixSend v).pcie.msix[v] = x.messaged (w.now + w.msixHoldoff * usP) := by
      rw [← hwv]
      exact set_get_same ..
    rw [k, State.msixSend_eq, hwv, hw, hx]
    exact ⟨rfl, fun _ => ⟨rfl, rfl, rfl⟩, fun h => absurd h h0⟩

end

/-- Settles O49: by the offset of the write, the mailbox's lock and the vector's mask. -/
theorem hostWritesAct : Obligations.HostWritesAct := by
  intro s u dt hu
  refine ⟨fun hp hk hs => ?_, fun hs => ⟨fun o data => exec_registerWrite_outside hu hs, fun data hd => ⟨fun hul => ?_, fun hul => ?_,
    fun hul hb i h4 hi => ?_, fun hul o hlo hhi => ?_⟩, msixTableWrite_parts hu hs⟩, msixHoldoffExpiry_parts hu⟩
  · have hpu : u.postedUr = { u with pcie := { u.pcie with ur := u.pcie.ur + 1 } } := if_pos (linkUp_of_up hp hk)
    rw [← hpu]
    exact ⟨fun o w => (exec_msixTableWrite hu o w).trans (if_neg (by rw [hs]; decide)),
      fun o data h => exec_registerWrite_unserved hu hs h⟩
  · rw [← State.mbxWrite_arg hul hd]
    exact exec_registerWrite_mailbox hu hs (o := 8) hd (by decide) (by decide)
  · rw [← State.mbxWrite_block hul hd]
    exact exec_registerWrite_mailbox hu hs (o := 12) hd (by decide) (by decide)
  · have k := exec_registerWrite_mailbox hu hs (o := 0x1000 + i) hd (by omega) (by omega)
    rw [← Nat.add_assoc, State.mbxWrite_data hul hb hd h4 hi] at k
    exact k
  · obtain ⟨k, rfl⟩ : ∃ k, o = 0x1F0000 + k := ⟨o - 0x1F0000, by omega⟩
    rw [← State.mbxWrite_locked hul k data]
    exact exec_registerWrite_mailbox hu hs hd (by omega) (by omega)

end Sys2Proof.Machine

/-! SUPPORT. Records at their lanes, ARP and echo, and the lanes' links. -/

namespace Sys2Proof.Machine

section

variable {s t u v w : State} {l k : Lane} {r q : RouteId} {dt : Nat}

/-! ## Routes and lanes -/

@[simp] theorem State.setLane_same (f : LaneSt → LaneSt) : (s.setLane l f).lanes[l] = f s.lanes[l] := upd_get_same ..

theorem State.setLane_other (h : k ≠ l) (f : LaneSt → LaneSt) : (s.setLane l f).lanes[k] = s.lanes[k] := upd_get_other _ _ h

@[simp] theorem State.setRoute_same (f : RouteSt → RouteSt) : (s.setRoute r f).routes[r] = f s.routes[r] := upd_get_same ..

theorem State.setRoute_other (h : q ≠ r) (f : RouteSt → RouteSt) : (s.setRoute r f).routes[q] = s.routes[q] := upd_get_other _ _ h

/-- A route after a record of it has been discarded with its number (R329). -/
def RouteSt.discarded (x : RouteSt) (p : PRec) : RouteSt :=
  { x with seq := nextSeq x.seq, skipped := true, lost := x.lost + 1 }.blockLost p.typ p.port p.coding

theorem State.discardRec_eq (p : PRec) : s.discardRec r p = s.setRoute r fun x => x.discarded p := by
  simp only [State.discardRec, State.discardNumbered, State.setRoute, upd_upd]
  rfl

theorem RouteSt.blockLost_frame (x : RouteSt) (typ port coding : Nat) :
    x.blockLost typ port coding = { x with das := (x.blockLost typ port coding).das } := by
  unfold RouteSt.blockLost
  split <;> rfl

theorem RouteSt.discarded_frame (x : RouteSt) (p : PRec) : x.discarded p =
    { x with seq := nextSeq x.seq, skipped := true, lost := x.lost + 1, das := (x.discarded p).das } :=
  RouteSt.blockLost_frame _ _ _ _

/-- Waiting records move to a lane's line or are discarded: of the other lanes nothing changes, of this one neither its state nor what it
has sent, and no route's records on their way. -/
structure State.Sends (t s : State) (l : Lane) : Prop where
  frame : t = { s with routes := t.routes, lanes := t.lanes }
  others : ∀ k, k ≠ l → t.lanes[k] = s.lanes[k]
  lane : t.lanes[l].up = s.lanes[l].up ∧ t.lanes[l].arp = s.lanes[l].arp ∧ t.lanes[l].txFrames = s.lanes[l].txFrames
  routes : ∀ r : RouteId, t.routes[r].records = s.routes[r].records ∧ t.routes[r].sentAt = s.routes[r].sentAt ∧
    t.routes[r].inflight = s.routes[r].inflight

theorem State.Sends.rfl : s.Sends s l := ⟨Eq.refl _, fun _ _ => Eq.refl _, ⟨Eq.refl _, Eq.refl _, Eq.refl _⟩,
  fun _ => ⟨Eq.refl _, Eq.refl _, Eq.refl _⟩⟩

theorem State.Sends.trans (h : t.Sends u l) (k : u.Sends s l) : t.Sends s l := by
  obtain ⟨h1, h2, ⟨h3, h4, h5⟩, h6⟩ := h
  obtain ⟨k1, k2, ⟨k3, k4, k5⟩, k6⟩ := k
  refine ⟨h1.trans (congrArg (fun x : State => { x with routes := t.routes, lanes := t.lanes }) k1 :), fun k hk => (h2 k hk).trans (k2 k hk),
    ⟨h3.trans k3, h4.trans k4, h5.trans k5⟩, fun r => ?_⟩
  obtain ⟨a1, a2, a3⟩ := h6 r
  obtain ⟨b1, b2, b3⟩ := k6 r
  exact ⟨a1.trans b1, a2.trans b2, a3.trans b3⟩

theorem State.setLane_sends {f : LaneSt → LaneSt} (hf : ∀ x, (f x).up = x.up ∧ (f x).arp = x.arp ∧ (f x).txFrames = x.txFrames) :
    (s.setLane l f).Sends s l :=
  ⟨Eq.refl _, fun _ h => State.setLane_other h f, by rw [State.setLane_same]; exact hf _, fun _ => ⟨Eq.refl _, Eq.refl _, Eq.refl _⟩⟩

theorem State.setRoute_sends {f : RouteSt → RouteSt}
    (hf : ∀ x, (f x).records = x.records ∧ (f x).sentAt = x.sentAt ∧ (f x).inflight = x.inflight) : (s.setRoute r f).Sends s l := by
  refine ⟨Eq.refl _, fun _ _ => Eq.refl _, ⟨Eq.refl _, Eq.refl _, Eq.refl _⟩, fun q => ?_⟩
  by_cases h : q = r
  · subst h
    rw [State.setRoute_same]
    exact hf _
  · rw [State.setRoute_other h]
    exact ⟨Eq.refl _, Eq.refl _, Eq.refl _⟩

theorem State.discardRec_sends (p : PRec) : (s.discardRec r p).Sends s l := by
  rw [State.discardRec_eq]
  refine State.setRoute_sends fun x => ?_
  rw [x.discarded_frame]
  exact ⟨Eq.refl _, Eq.refl _, Eq.refl _⟩

/-! ## The next record on the line (R329, R348, R349) -/

/-- A record is taken from those that wait; where its route can send it is numbered and put on the line, else discarded. -/
def State.sendItem (s : State) (l : Lane) (x : TxItem) (mac : U48) : State :=
  (s.setRoute x.route fun y => { y with seq := nextSeq y.seq, skipped := false }).setLane l fun y =>
    { y with sending := some ⟨x.route, mac, x.prec.bytes (nextSeq s.routes[x.route].seq) x.route.val s.routes[x.route].skipped⟩ }

theorem State.startNext_zero : s.startNext l 0 = s := rfl

theorem State.startNext_busy (h : s.lanes[l].sending.isSome = true) (n : Nat) : s.startNext l n = s := by
  cases n with
  | zero => rfl
  | succ n => exact if_pos h

theorem State.startNext_empty (hu : s.lanes[l].urgent = []) (hn : s.lanes[l].normal = []) (n : Nat) : s.startNext l n = s := by
  cases n with
  | zero => rfl
  | succ n =>
    unfold State.startNext
    rw [hu, hn]
    exact ite_self _

/-- The record that is next, and the state without it. -/
def State.takes (s : State) (l : Lane) : Option (TxItem × State) :=
  match s.lanes[l].urgent, s.lanes[l].normal with
  | x :: rest, _ => some (x, s.setLane l fun y => { y with urgent := rest })
  | [], x :: rest => some (x, s.setLane l fun y => { y with normal := rest })
  | [], [] => none

theorem State.startNext_takes {x : TxItem} (hs : s.lanes[l].sending = none) (h : s.takes l = some (x, v)) (n : Nat) :
    s.startNext l (n + 1) = match (if v.laneUp l then v.routeMac x.route else none) with
      | none => (v.discardRec x.route x.prec).startNext l n
      | some mac => v.sendItem l x mac := by
  conv_lhs => unfold State.startNext
  rw [if_neg (by rw [hs]; decide)]
  change (match s.takes l with
    | none => s
    | some (t, s) => _) = _
  rw [h]
  rfl

theorem State.takes_sends {x : TxItem} (h : s.takes l = some (x, v)) : v.Sends s l ∧ v.routes = s.routes := by
  unfold State.takes at h
  split at h <;> cases h <;> exact ⟨State.setLane_sends fun _ => ⟨rfl, rfl, rfl⟩, rfl⟩

theorem State.sendItem_sends (x : TxItem) (mac : U48) : (s.sendItem l x mac).Sends s l := by
  refine State.Sends.trans (State.setLane_sends fun _ => ⟨rfl, rfl, rfl⟩) ?_
  exact State.setRoute_sends fun _ => ⟨rfl, rfl, rfl⟩

theorem State.sendItem_routes (x : TxItem) (mac : U48) :
    (s.sendItem l x mac).routes[x.route] = { s.routes[x.route] with seq := nextSeq s.routes[x.route].seq, skipped := false } ∧
      ∀ r, r ≠ x.route → (s.sendItem l x mac).routes[r] = s.routes[r] :=
  ⟨State.setRoute_same (s := s) _, fun _ h => State.setRoute_other (s := s) h _⟩

theorem State.startNext_sends (n : Nat) : (s.startNext l n).Sends s l := by
  induction n generalizing s with
  | zero => exact .rfl
  | succ n ih =>
    cases hs : s.lanes[l].sending with
    | some f =>
      rw [State.startNext_busy (by rw [hs]; rfl)]
      exact .rfl
    | none =>
      cases ht : s.takes l with
      | none =>
        have he : s.lanes[l].urgent = [] ∧ s.lanes[l].normal = [] := by
          unfold State.takes at ht
          split at ht
          · cases ht
          · cases ht
          · next h1 h2 => exact ⟨h1, h2⟩
        rw [State.startNext_empty he.1 he.2]
        exact .rfl
      | some y =>
        obtain ⟨x, v⟩ := y
        have hv := (State.takes_sends ht).1
        rw [State.startNext_takes hs ht]
        split
        · exact (ih.trans (State.discardRec_sends _)).trans hv
        · exact (State.sendItem_sends _ _).trans hv

section
variable (h : t.Sends s l)
include h

theorem State.Sends.laneUp : t.laneUp k = s.laneUp k := by
  have hon : t.laneOn k = s.laneOn k := (congrArg (fun x : State => x.laneOn k) h.frame :)
  have hup : t.lanes[k].up = s.lanes[k].up := by
    by_cases hk : k = l
    · subst hk
      exact h.lane.1
    · rw [h.others k hk]
  rw [State.laneUp, State.laneUp, hon, hup]

theorem State.Sends.arpMac (ip : U32) : t.arpMac k ip = s.arpMac k ip := by
  have ha : t.lanes[k].arp = s.lanes[k].arp := by
    by_cases hk : k = l
    · subst hk
      exact h.lane.2.1
    · rw [h.others k hk]
  rw [State.arpMac, State.arpMac, ha]

theorem State.Sends.routeMac : t.routeMac r = s.routeMac r := by
  have hd : t.routeDestIp r = s.routeDestIp r := (congrArg (fun x : State => x.routeDestIp r) h.frame :)
  have hh : t.nextHop r = s.nextHop r := (congrArg (fun x : State => x.nextHop r) h.frame :)
  have hl : t.routeLane r = s.routeLane r := (congrArg (fun x : State => x.routeLane r) h.frame :)
  unfold State.routeMac
  rw [hd, hh, hl]
  have ha : t.arpMac (s.routeLane r) = s.arpMac (s.routeLane r) := funext fun ip => h.arpMac ip
  rw [ha]

end

/-- One record at most is looked at: a route that can send loses none. -/
theorem State.startNext_one_lost (hu : s.laneUp l = true) (hm : (s.routeMac r).isSome = true) :
    (s.startNext l 1).routes[r].lost = s.routes[r].lost := by
  cases hs : s.lanes[l].sending with
  | some f => rw [State.startNext_busy (by rw [hs]; rfl)]
  | none =>
    cases ht : s.takes l with
    | none =>
      unfold State.takes at ht
      split at ht
      · cases ht
      · cases ht
      · next h1 h2 => rw [State.startNext_empty h1 h2]
    | some y =>
      obtain ⟨x, v⟩ := y
      obtain ⟨hv, hr⟩ := State.takes_sends ht
      rw [State.startNext_takes hs ht, hv.laneUp, hu, if_pos rfl, hv.routeMac]
      by_cases hx : x.route = r
      · obtain ⟨mac, he⟩ := Option.isSome_iff_exists.mp hm
        rw [hx, he]
        subst hx
        exact (congrArg RouteSt.lost (State.sendItem_routes x mac).1).trans (by rw [hr])
      · split
        · rw [State.startNext_zero, State.discardRec_eq, State.setRoute_other (Ne.symm hx), hr]
        · next mac _ => rw [(State.sendItem_routes x mac).2 r (Ne.symm hx), hr]

end

section

variable {s t u v w : State} {l k : Lane} {r q : RouteId} {p : PRec} {dt : Nat}

/-! ## A record reaches its lane (R348, R349) -/

/-- A lane with one record more among those that wait. -/
def LaneSt.accepts (x : LaneSt) (r : RouteId) (p : PRec) : LaneSt :=
  if urgentType p.typ then { x with urgent := x.urgent ++ [⟨r, p⟩] } else { x with normal := insertDone ⟨r, p⟩ x.normal }

/-- The peak of a lane's buffer, brought up to date. -/
def LaneSt.peaked (x : LaneSt) : LaneSt := { x with bufferPeak := BitVec.ofNat 32 (max x.bufferPeak.toNat x.used) }

theorem LaneSt.accepts_kept (x : LaneSt) : (x.accepts r p).peaked.up = x.up ∧ (x.accepts r p).peaked.arp = x.arp ∧
    (x.accepts r p).peaked.txFrames = x.txFrames ∧ (x.accepts r p).peaked.sending = x.sending := by
  unfold LaneSt.accepts
  split <;> exact ⟨rfl, rfl, rfl, rfl⟩

theorem LaneSt.accepts_waiting (x : LaneSt) :
    (x.accepts r p).peaked.urgent = x.urgent ++ (if urgentType p.typ then [⟨r, p⟩] else []) ∧
      (x.accepts r p).peaked.normal = (if urgentType p.typ then x.normal else insertDone ⟨r, p⟩ x.normal) := by
  unfold LaneSt.accepts
  split
  · exact ⟨rfl, rfl⟩
  · exact ⟨(List.append_nil _).symm, rfl⟩

/-- The state once a record waits at its lane. -/
def State.accepted (s : State) (r : RouteId) (p : PRec) : State := s.setLane (s.routeLane r) fun x => (x.accepts r p).peaked

theorem State.accepted_sends : (s.accepted r p).Sends s (s.routeLane r) :=
  State.setLane_sends fun x => ⟨(LaneSt.accepts_kept x).1, (LaneSt.accepts_kept x).2.1, (LaneSt.accepts_kept x).2.2.1⟩

theorem State.routeSends_iff : s.routeSends r = true ↔ s.laneUp (s.routeLane r) = true ∧ (s.routeMac r).isSome = true :=
  Bool.and_eq_true_iff

theorem State.notShut_of_laneUp (h : s.laneUp l = true) : s.isShut 15 = false := by
  unfold State.laneUp State.laneOn at h
  simpa using ((Bool.and_eq_true_iff.mp ((Bool.and_eq_true_iff.mp h).1)).2)

theorem State.enqueueRec_accepts (hs : s.routeSends r = true) (hf : s.lanes[s.routeLane r].used + p.size ≤ 4194304) :
    s.enqueueRec r p = (s.accepted r p).startNext (s.routeLane r) 1 := by
  have h15 := State.notShut_of_laneUp (State.routeSends_iff.mp hs).1
  unfold State.enqueueRec
  dsimp only
  rw [h15, if_neg Bool.false_ne_true, hs, if_neg (by decide), if_neg (by unfold txBufferBytes; omega)]
  simp only [State.setLane, upd_upd]
  rfl

/-- The state whose discards at a fenced lane are counted. -/
def State.fenceCounted (s : State) (p : PRec) : State := if s.isShut 15 then s.fencedFlits (flits p.size) else s

theorem State.fenceCounted_frame :
    s.fenceCounted p = { s with fab := { s.fab with fencedDiscards := (s.fenceCounted p).fab.fencedDiscards } } := by
  unfold State.fenceCounted
  split <;> rfl

theorem State.fenceCounted_discards : (s.fenceCounted p).fab.fencedDiscards =
    s.fab.fencedDiscards + (if s.isShut 15 then BitVec.ofNat 64 (flits p.size) else 0) := by
  unfold State.fenceCounted
  split
  · rfl
  · exact (BitVec.add_zero _).symm

theorem State.enqueueRec_discards (h : s.routeSends r = false ∨ 4194304 < s.lanes[s.routeLane r].used + p.size) :
    s.enqueueRec r p = (s.fenceCounted p).discardRec r p := by
  have hs : (s.fenceCounted p).routeSends r = s.routeSends r := (congrArg (fun x : State => x.routeSends r) s.fenceCounted_frame :)
  have hl : (s.fenceCounted p).lanes = s.lanes := (congrArg State.lanes s.fenceCounted_frame :)
  change (if !(s.fenceCounted p).routeSends r then _ else
    if (s.fenceCounted p).lanes[s.routeLane r].used + p.size > txBufferBytes then _ else _) = _
  rw [hs, hl]
  cases hr : s.routeSends r with
  | false => exact if_pos rfl
  | true =>
    refine (if_neg (by decide)).trans (if_pos ?_)
    exact h.resolve_left (by rw [hr]; decide)

theorem exec_outRecordEnqueue {rest : List PRec} (hu : u = s.elapse dt) (hq : u.routes[r].inflight = p :: rest) :
    exec (.outRecordEnqueue dt r) s = .next ((u.setRoute r fun x => { x with inflight := rest }).enqueueRec r p) := by
  simp only [exec, execOutRecordEnqueue, ← hu, hq]

theorem outRecordEnqueue_discards {rest : List PRec} (hu : u = s.elapse dt) (hq : u.routes[r].inflight = p :: rest)
    (h : u.routeSends r = false ∨ 4194304 < u.lanes[u.routeLane r].used + p.size) : ∃ t, exec (.outRecordEnqueue dt r) s = .next t ∧
      t = { u with routes := t.routes, fab := { u.fab with fencedDiscards := t.fab.fencedDiscards } } ∧
      t.fab.fencedDiscards = u.fab.fencedDiscards + (if u.isShut 15 then BitVec.ofNat 64 (flits p.size) else 0) ∧
      t.routes[r].inflight = rest ∧ t.routes[r].seq = nextSeq u.routes[r].seq ∧ t.routes[r].skipped = true ∧
      t.routes[r].lost = u.routes[r].lost + 1 ∧ ∀ k, k ≠ r → t.routes[k] = u.routes[k] := by
  obtain ⟨v, hv⟩ : ∃ v, v = u.setRoute r fun x => { x with inflight := rest } := ⟨_, rfl⟩
  have hvr : v.routes[r] = { u.routes[r] with inflight := rest } := by rw [hv, State.setRoute_same]
  have hvq (k : RouteId) (hk : k ≠ r) : v.routes[k] = u.routes[k] := by rw [hv, State.setRoute_other hk]
  have hfr : (v.fenceCounted p).routes = v.routes := (congrArg State.routes v.fenceCounted_frame :)
  have e := exec_outRecordEnqueue hu hq
  rw [← hv, State.enqueueRec_discards (s := v) (by rw [hv]; exact h), State.discardRec_eq] at e
  refine ⟨_, e, ?_, ?_, ?_⟩
  · have hy : v.fenceCounted p = { u with
        routes := v.routes
        fab := { u.fab with fencedDiscards := (v.fenceCounted p).fab.fencedDiscards } } := by
      rw [hv]
      exact State.fenceCounted_frame
    exact (congrArg (fun x : State => { x with routes := ((v.fenceCounted p).setRoute r fun y => y.discarded p).routes }) hy :)
  · refine (State.fenceCounted_discards (s := v)).trans ?_
    rw [hv]
    rfl
  · rw [State.setRoute_same, hfr, hvr, RouteSt.discarded_frame]
    exact ⟨rfl, rfl, rfl, rfl, fun k hk => by rw [State.setRoute_other hk, hfr, hvq k hk]⟩

/-- A lane on which nothing waits puts an accepted record on its line. -/
theorem State.startNext_accepted {mac : U48} (hs : s.lanes[s.routeLane r].sending = none) (hu : s.lanes[s.routeLane r].urgent = [])
    (hn : s.lanes[s.routeLane r].normal = []) (hl : s.laneUp (s.routeLane r) = true) (hm : s.routeMac r = some mac) :
    ∃ v : State, v.Sends s (s.routeLane r) ∧ v.routes = s.routes ∧
      (s.accepted r p).startNext (s.routeLane r) 1 = v.sendItem (s.routeLane r) ⟨r, p⟩ mac := by
  have hx : (s.accepted r p).lanes[s.routeLane r] = (s.lanes[s.routeLane r].accepts r p).peaked := State.setLane_same _
  obtain ⟨hwu, hwn⟩ := LaneSt.accepts_waiting (r := r) (p := p) s.lanes[s.routeLane r]
  rw [← hx, hu] at hwu
  rw [← hx, hn] at hwn
  have hsend : (s.accepted r p).lanes[s.routeLane r].sending = none := by
    rw [hx, (LaneSt.accepts_kept _).2.2.2, hs]
  obtain ⟨v, ht⟩ : ∃ v, (s.accepted r p).takes (s.routeLane r) = some (⟨r, p⟩, v) := by
    unfold State.takes
    rw [hwu, hwn]
    by_cases h : urgentType p.typ = true
    · rw [if_pos h, if_pos h]
      exact ⟨_, rfl⟩
    · rw [if_neg h, if_neg h]
      exact ⟨_, rfl⟩
  obtain ⟨hv, hr⟩ := State.takes_sends ht
  have hvs := hv.trans State.accepted_sends
  refine ⟨v, hvs, hr, ?_⟩
  rw [State.startNext_takes hsend ht, hvs.laneUp, hl, if_pos rfl, hvs.routeMac, hm]

theorem outRecordEnqueue_accepts {rest : List PRec} (hu : u = s.elapse dt) (hq : u.routes[r].inflight = p :: rest)
    (hl : u.routeLane r = l) (hs : u.routeSends r = true) (hf : u.lanes[l].used + p.size ≤ 4194304) :
    ∃ t, exec (.outRecordEnqueue dt r) s = .next t ∧
      t = { u with routes := t.routes, lanes := t.lanes } ∧ t.routes[r].inflight = rest ∧ t.routes[r].lost = u.routes[r].lost ∧
      (∀ k, k ≠ r → u.lanes[l].sending.isSome = true → t.routes[k] = u.routes[k]) ∧
      (∀ k, k ≠ l → t.lanes[k] = u.lanes[k]) ∧
      (∀ mac, u.lanes[l].sending = none → u.lanes[l].urgent = [] → u.lanes[l].normal = [] →
        u.routeMac r = some mac → t.routes[r].seq = nextSeq u.routes[r].seq ∧ t.routes[r].skipped = false ∧
        t.lanes[l].sending = some ⟨r, mac, p.bytes (nextSeq u.routes[r].seq) r.val u.routes[r].skipped⟩) ∧
      (u.lanes[l].sending.isSome = true → t.lanes[l].sending = u.lanes[l].sending ∧
        t.lanes[l].urgent = u.lanes[l].urgent ++ (if urgentType p.typ then [⟨r, p⟩] else []) ∧
        t.lanes[l].normal = (if urgentType p.typ then u.lanes[l].normal
          else insertDone ⟨r, p⟩ u.lanes[l].normal)) := by
  obtain ⟨v, hv⟩ : ∃ v, v = u.setRoute r fun x => { x with inflight := rest } := ⟨_, rfl⟩
  have hvr : v.routes[r] = { u.routes[r] with inflight := rest } := by rw [hv, State.setRoute_same]
  have hvq (k : RouteId) (hk : k ≠ r) : v.routes[k] = u.routes[k] := by rw [hv, State.setRoute_other hk]
  have hvl : v.lanes = u.lanes := by rw [hv]; rfl
  have hvm : v.routeMac r = u.routeMac r := by rw [hv]; rfl
  have hvf : v = { u with routes := v.routes, lanes := v.lanes } := by rw [hv]; rfl
  have hvs : v.routeSends r = true := by rw [hv]; exact hs
  have hrl : v.routeLane r = l := by rw [hv]; exact hl
  have e := exec_outRecordEnqueue hu hq
  rw [← hv] at e
  subst hrl
  obtain ⟨hup, hmac⟩ := State.routeSends_iff.mp hvs
  rw [State.enqueueRec_accepts hvs (by rw [hvl]; exact hf)] at e
  have hsn := (State.startNext_sends (s := v.accepted r p) (l := v.routeLane r) 1).trans State.accepted_sends
  have hax : (v.accepted r p).lanes[v.routeLane r] = (v.lanes[v.routeLane r].accepts r p).peaked := State.setLane_same _
  have hbusy (h : u.lanes[v.routeLane r].sending.isSome = true) :
      (v.accepted r p).startNext (v.routeLane r) 1 = v.accepted r p := by
    refine State.startNext_busy ?_ 1
    rw [hax, (LaneSt.accepts_kept _).2.2.2, hvl]
    exact h
  refine ⟨_, e, ?_, ?_, ?_, fun k hk h => ?_, fun l hl => ?_, fun mac h1 h2 h3 h4 => ?_, fun h => ?_⟩
  · exact hsn.frame.trans (congrArg (fun x : State => { x with
      routes := ((v.accepted r p).startNext (v.routeLane r) 1).routes
      lanes := ((v.accepted r p).startNext (v.routeLane r) 1).lanes }) hvf :)
  · rw [(hsn.routes r).2.2, hvr]
  · rw [State.startNext_one_lost (State.accepted_sends.laneUp.trans hup) (by rw [State.accepted_sends.routeMac, hmac])]
    exact (congrArg RouteSt.lost hvr :)
  · rw [hbusy h]
    exact hvq k hk
  · rw [hsn.others l hl, hvl]
  · rw [← hvl] at h1 h2 h3
    obtain ⟨x, -, hxr, he⟩ := State.startNext_accepted (p := p) h1 h2 h3 hup (hvm.trans h4)
    obtain ⟨hsr, -⟩ := State.sendItem_routes (s := x) (l := v.routeLane r) ⟨r, p⟩ mac
    rw [he, hsr, hxr, hvr]
    refine ⟨rfl, rfl, ?_⟩
    rw [State.sendItem, State.setLane_same, hxr, hvr]
  · rw [hbusy h, hax, (LaneSt.accepts_kept _).2.2.2, (LaneSt.accepts_waiting _).1, (LaneSt.accepts_waiting _).2, hvl]
    exact ⟨rfl, rfl, rfl⟩

end

section

variable {s t u v w : State} {l k : Lane} {r q : RouteId} {f : Sending} {dt : Nat}

/-! ## A frame leaves the line (R349, R351) -/

/-- The frame on the line has gone and is counted. -/
def State.frameGone (u : State) (l : Lane) (f : Sending) : State :=
  ((u.send (.udp l f.mac (u.routeDestIp f.route) (u.routeSrcPort f.route) (u.routeDestPort f.route) (u.routeDscp f.route)
    f.bytes)).setRoute f.route fun x => { x with records := x.records + 1, sentAt := u.now }).setLane l fun x =>
    { x with sending := none, txFrames := x.txFrames + 1 }

theorem exec_ethFrameSent (hu : u = s.elapse dt) (hf : u.lanes[l].sending = some f) :
    exec (.ethFrameSent dt l) s = .next ((u.frameGone l f).startNext l (u.frameGone l f).lanes[l].waiting) := by
  simp only [exec, execEthFrameSent, ← hu, hf]
  rfl

theorem State.frameGone_lane : (u.frameGone l f).lanes[l] = { u.lanes[l] with sending := none, txFrames := u.lanes[l].txFrames + 1 } :=
  State.setLane_same (s := (u.send _).setRoute f.route _) _

theorem State.frameGone_other (h : k ≠ l) : (u.frameGone l f).lanes[k] = u.lanes[k] :=
  State.setLane_other (s := (u.send _).setRoute f.route _) h _

theorem State.frameGone_route : (u.frameGone l f).routes[f.route] =
    { u.routes[f.route] with records := u.routes[f.route].records + 1, sentAt := u.now } :=
  State.setRoute_same (s := u.send _) _

theorem State.frameGone_numbers (r : RouteId) : (u.frameGone l f).routes[r].seq = u.routes[r].seq ∧
    (u.frameGone l f).routes[r].skipped = u.routes[r].skipped := by
  by_cases h : r = f.route
  · subst h
    rw [State.frameGone_route]
    exact ⟨rfl, rfl⟩
  · have k : (u.frameGone l f).routes[r] = u.routes[r] := State.setRoute_other (s := u.send _) h _
    rw [k]
    exact ⟨rfl, rfl⟩

theorem State.frameGone_mac (x : RouteId) : (u.frameGone l f).routeMac x = u.routeMac x := by
  have ha (k : Lane) (ip : U32) : (u.frameGone l f).arpMac k ip = u.arpMac k ip := by
    unfold State.arpMac
    by_cases h : k = l
    · subst h
      rw [State.frameGone_lane]
    · rw [State.frameGone_other h]
  have hl : (u.frameGone l f).routeLane x = u.routeLane x := rfl
  have hk : (u.frameGone l f).arpMac (u.routeLane x) = u.arpMac (u.routeLane x) := funext fun ip => ha _ ip
  unfold State.routeMac
  rw [hl, hk]
  rfl

theorem State.frameGone_up : (u.frameGone l f).laneUp l = u.laneUp l := by
  have h : (u.frameGone l f).lanes[l].up = u.lanes[l].up := by rw [State.frameGone_lane]
  unfold State.laneUp
  rw [h]
  rfl

/-- The oldest urgent record, or else the oldest other one. -/
theorem State.takes_first {x : TxItem} {rest : List TxItem}
    (h : s.lanes[l].urgent = x :: rest ∨ (s.lanes[l].urgent = [] ∧ s.lanes[l].normal = x :: rest)) :
    ∃ v, s.takes l = some (x, v) := by
  unfold State.takes
  rcases h with h | ⟨h, h'⟩
  · rw [h]
    exact ⟨_, rfl⟩
  · rw [h, h']
    exact ⟨_, rfl⟩

theorem State.startNext_first {x : TxItem} {rest : List TxItem} {mac : U48} (hs : s.lanes[l].sending = none)
    (h : s.lanes[l].urgent = x :: rest ∨ (s.lanes[l].urgent = [] ∧ s.lanes[l].normal = x :: rest)) (hl : s.laneUp l = true)
    (hm : s.routeMac x.route = some mac) : (s.startNext l s.lanes[l].waiting).lanes[l].sending =
      some ⟨x.route, mac, x.prec.bytes (nextSeq s.routes[x.route].seq) x.route.val s.routes[x.route].skipped⟩ := by
  obtain ⟨v, ht⟩ := State.takes_first h
  obtain ⟨hv, hr⟩ := State.takes_sends ht
  obtain ⟨n, hn⟩ : ∃ n, s.lanes[l].waiting = n + 1 := by
    refine Nat.exists_eq_succ_of_ne_zero ?_
    unfold LaneSt.waiting
    rcases h with h | ⟨-, h⟩ <;> rw [h, List.length_cons] <;> omega
  rw [hn, State.startNext_takes hs ht, hv.laneUp, hl, if_pos rfl, hv.routeMac, hm]
  change (v.sendItem l x mac).lanes[l].sending = _
  rw [State.sendItem, State.setLane_same, hr]

theorem ethFrameSent_parts (hu : u = s.elapse dt) (hf : u.lanes[l].sending = some f) : ∃ t, exec (.ethFrameSent dt l) s = .next t ∧
    t = { u with routes := t.routes, lanes := t.lanes, outputs := t.outputs } ∧
    t.outputs = .udp l f.mac (u.routeDestIp f.route) (u.routeSrcPort f.route) (u.routeDestPort f.route) (u.routeDscp f.route) f.bytes ::
      u.outputs ∧
    t.routes[f.route].records = u.routes[f.route].records + 1 ∧ t.routes[f.route].sentAt = u.now ∧
    t.lanes[l].txFrames = u.lanes[l].txFrames + 1 ∧ (∀ k, k ≠ l → t.lanes[k] = u.lanes[k]) ∧
    (u.lanes[l].urgent = [] → u.lanes[l].normal = [] → t.lanes[l].sending = none) ∧
    (∀ x rest mac, (u.lanes[l].urgent = x :: rest ∨ (u.lanes[l].urgent = [] ∧ u.lanes[l].normal = x :: rest)) → u.laneUp l = true →
      u.routeMac x.route = some mac → t.lanes[l].sending =
        some ⟨x.route, mac, x.prec.bytes (nextSeq u.routes[x.route].seq) x.route.val u.routes[x.route].skipped⟩) := by
  have hlane := State.frameGone_lane (u := u) (l := l) (f := f)
  have hnum := State.frameGone_numbers (u := u) (l := l) (f := f)
  have hmac := State.frameGone_mac (u := u) (l := l) (f := f)
  have hup := State.frameGone_up (u := u) (l := l) (f := f)
  have hroute := State.frameGone_route (u := u) (l := l) (f := f)
  have hoth (k : Lane) (h : k ≠ l) : (u.frameGone l f).lanes[k] = u.lanes[k] := State.frameGone_other h
  have hfr : u.frameGone l f = { u with
    routes := (u.frameGone l f).routes, lanes := (u.frameGone l f).lanes, outputs := (u.frameGone l f).outputs } := rfl
  have hout : (u.frameGone l f).outputs = .udp l f.mac (u.routeDestIp f.route) (u.routeSrcPort f.route) (u.routeDestPort f.route)
    (u.routeDscp f.route) f.bytes :: u.outputs := rfl
  have e := exec_ethFrameSent hu hf
  generalize u.frameGone l f = w at *
  have hs := State.startNext_sends (s := w) (l := l) w.lanes[l].waiting
  refine ⟨_, e, ?_, ?_, ?_, ?_, ?_, fun k hk => (hs.others k hk).trans (hoth k hk), fun h1 h2 => ?_, fun x rest mac h h1 h2 => ?_⟩
  · refine hs.frame.trans ?_
    have ho : (w.startNext l w.lanes[l].waiting).outputs = w.outputs := (congrArg State.outputs hs.frame :)
    rw [ho]
    exact (congrArg (fun x : State => { x with
      routes := (w.startNext l w.lanes[l].waiting).routes, lanes := (w.startNext l w.lanes[l].waiting).lanes }) hfr :)
  · exact (congrArg State.outputs hs.frame :).trans hout
  · rw [(hs.routes _).1, hroute]
  · rw [(hs.routes _).2.1, hroute]
  · rw [hs.lane.2.2, hlane]
  · rw [State.startNext_empty (by rw [hlane]; exact h1) (by rw [hlane]; exact h2), hlane]
  · rw [State.startNext_first (by rw [hlane]) (by rw [hlane]; exact h) (hup.trans h1) ((hmac _).trans h2), (hnum _).1, (hnum _).2]

end

/-- Settles O44: a record is discarded or accepted by `State.enqueueRec`, and the line takes the next one by `State.startNext`. -/
theorem recordsReachTheLine : Obligations.RecordsReachTheLine := by
  intro s u dt hu
  exact ⟨fun r p rest hq => ⟨outRecordEnqueue_discards hu hq, outRecordEnqueue_accepts hu hq rfl⟩, fun l f => ethFrameSent_parts hu⟩

section

variable {s t u v w : State} {l k : Lane} {ip : U32} {dt : Nat}

/-! ## ARP (R347, R348) -/

/-- A lane has asked or answered: the other lanes stay, and what has left the lands stays among the outputs. -/
structure State.Asks (t s : State) (l : Lane) : Prop where
  frame : t = { s with lanes := t.lanes, outputs := t.outputs }
  others : ∀ k, k ≠ l → t.lanes[k] = s.lanes[k]
  up : t.lanes[l].up = s.lanes[l].up
  outputs : ∀ o ∈ s.outputs, o ∈ t.outputs

theorem State.Asks.rfl : s.Asks s l := ⟨Eq.refl _, fun _ _ => Eq.refl _, Eq.refl _, fun _ h => h⟩

theorem State.Asks.trans (h : t.Asks u l) (k : u.Asks s l) : t.Asks s l :=
  ⟨h.frame.trans (congrArg (fun x : State => { x with lanes := t.lanes, outputs := t.outputs }) k.frame :),
    fun j hj => (h.others j hj).trans (k.others j hj), h.up.trans k.up, fun o ho => h.outputs o (k.outputs o ho)⟩

theorem State.Asks.foldl {α : Type} {f : State → α → State} (hf : ∀ s a, (f s a).Asks s l) (as : List α) :
    (as.foldl f s).Asks s l :=
  List.foldlRecOn (motive := fun v => State.Asks v s l) as f .rfl fun _ h _ _ => (hf _ _).trans h

theorem State.setLane_asks {f : LaneSt → LaneSt} (hf : ∀ x, (f x).up = x.up) : (s.setLane l f).Asks s l :=
  ⟨Eq.refl _, fun _ h => State.setLane_other h f, by rw [State.setLane_same]; exact hf _, fun _ h => h⟩

theorem State.send_asks (o : Output) : (s.send o).Asks s l :=
  ⟨Eq.refl _, fun _ _ => Eq.refl _, Eq.refl _, fun _ h => List.mem_cons_of_mem _ h⟩

theorem State.askHop_asks : (s.askHop l ip).Asks s l :=
  (State.send_asks _).trans (State.setLane_asks fun _ => rfl)

theorem State.askHop_sends : Output.arp l 1 broadcastMac ip ∈ (s.askHop l ip).outputs := List.mem_cons_self

/-- What one step of a fold sends is among the outputs after it. -/
theorem mem_outputs_foldl {α : Type} {f : State → α → State} (hf : ∀ s a, (f s a).Asks s l) {as : List α} {a : α} {o : Output}
    (ha : a ∈ as) (ho : ∀ s, o ∈ (f s a).outputs) : o ∈ (as.foldl f s).outputs := by
  induction as generalizing s with
  | nil => cases ha
  | cons b as ih =>
    rcases List.mem_cons.mp ha with rfl | h
    · exact (State.Asks.foldl hf as).outputs _ (ho s)
    · exact ih h

/-- No entry of an address is resolved on a lane. -/
def State.Unresolved (s : State) (l : Lane) (ip : U32) : Prop := ∀ a ∈ s.lanes[l].arp, a.ip = ip → a.mac = none

theorem State.Unresolved.arpMac (h : s.Unresolved l ip) : s.arpMac l ip = none := by
  unfold State.arpMac
  cases hf : s.lanes[l].arp.find? fun e => e.ip == ip with
  | none => rfl
  | some e => exact h e (List.mem_of_find?_eq_some hf) (by simpa using List.find?_some hf)

theorem State.Unresolved.askHop {jp : U32} (h : s.Unresolved l ip) : (s.askHop l jp).Unresolved l ip := by
  have harp : (s.askHop l jp).lanes[l].arp = s.lanes[l].arp.filter (fun e => e.ip != jp) ++
      [let old := (s.lanes[l].arp.find? fun e => e.ip == jp).getD { ip := jp }
       { old with
         unanswered := old.unanswered + 1, askedAt := s.now
         refreshedAt := if old.unanswered = 0 then s.now else old.refreshedAt }] :=
    congrArg LaneSt.arp (State.setLane_same (s := s) _)
  intro a ha hip
  rw [harp] at ha
  rcases List.mem_append.mp ha with ha | ha
  · exact h a (List.mem_filter.mp ha).1 hip
  · rw [List.mem_singleton.mp ha] at hip ⊢
    cases hf : s.lanes[l].arp.find? fun e => e.ip == jp with
    | none => rfl
    | some e =>
      rw [hf] at hip
      exact h e (List.mem_of_find?_eq_some hf) hip

/-- A request unanswered for a second: asked again, or after three the entry is unresolved. -/
def State.retryHop (l : Lane) (s : State) (e : ArpEntry) : State :=
  if e.unanswered < 3 then s.askHop l e.ip
  else s.setLane l fun x =>
    { x with
      arp := x.arp.map fun a => if a.ip = e.ip then { a with mac := none, unanswered := 0 } else a
      arpFails := if e.mac.isSome then x.arpFails + 1 else x.arpFails }

theorem State.retryHop_asks (e : ArpEntry) : (s.retryHop l e).Asks s l := by
  unfold State.retryHop
  split
  · exact State.askHop_asks
  · exact State.setLane_asks fun _ => rfl

theorem State.retryHop_fails {e : ArpEntry} (h : ¬e.unanswered < 3) (ip : U32) (hr : s.Unresolved l ip ∨ e.ip = ip) :
    (s.retryHop l e).Unresolved l ip := by
  intro a ha hip
  rw [State.retryHop, if_neg h, State.setLane_same] at ha
  obtain ⟨b, hb, rfl⟩ := List.mem_map.mp ha
  by_cases hne : b.ip = e.ip
  · rw [if_pos hne]
  · rw [if_neg hne] at hip ⊢
    exact (hr.resolve_right fun he => hne (hip.trans he.symm)) b hb hip

theorem State.Unresolved.retryHop {e : ArpEntry} (h : s.Unresolved l ip) : (s.retryHop l e).Unresolved l ip := by
  by_cases h3 : e.unanswered < 3
  · rw [State.retryHop, if_pos h3]
    exact h.askHop
  · exact State.retryHop_fails h3 ip (.inl h)

theorem State.retryHops_fails {e : ArpEntry} (h : ¬e.unanswered < 3) {es : List ArpEntry} (he : e ∈ es) :
    (es.foldl (State.retryHop l) s).Unresolved l e.ip := by
  induction es generalizing s with
  | nil => cases he
  | cons b es ih =>
    rcases List.mem_cons.mp he with rfl | hes
    · exact List.foldlRecOn (motive := fun v => State.Unresolved v l e.ip) es _ (State.retryHop_fails h e.ip (.inr rfl))
        fun _ k _ _ => k.retryHop
    · exact ih hes

section
variable (hu : u = s.elapse dt)
include hu

section
variable (hl : u.laneUp l = true)
include hl

theorem arpFrameReceived_parts (f : ArpFrame) : ∃ t, exec (.arpFrameReceived dt l f) s = .next t ∧
    t = { u with lanes := t.lanes, outputs := t.outputs } ∧
    t.lanes[l].arp = (u.lanes[l].arp.map fun a =>
      if a.ip = f.senderIp then { a with mac := some f.senderMac, unanswered := 0, refreshedAt := u.now } else a) ∧
    t.outputs = (if f.op = 1 ∧ f.targetIp = u.ethIp l then .arp l 2 f.senderMac f.senderIp :: u.outputs else u.outputs) ∧
    t.lanes[l].rxFrames = u.lanes[l].rxFrames + 1 ∧ (∀ k, k ≠ l → t.lanes[k] = u.lanes[k]) := by
  simp only [exec, execArpFrameReceived, ← hu]
  rw [if_pos hl]
  by_cases h : f.op = 1 ∧ f.targetIp = u.ethIp l
  · refine ⟨_, if_pos h, rfl, ?_⟩
    rw [if_pos h]
    simp only [State.setLane, State.send, upd_upd, upd_get_same]
    exact ⟨trivial, trivial, trivial, fun k hk => upd_get_other _ _ hk⟩
  · refine ⟨_, if_neg h, rfl, ?_⟩
    rw [if_neg h]
    simp only [State.setLane, upd_get_same]
    exact ⟨trivial, trivial, trivial, fun k hk => upd_get_other _ _ hk⟩

/-- A next hop that the lane asks for. -/
def State.hopDue (u : State) (l : Lane) (ip : U32) : Bool :=
  match u.lanes[l].arp.find? fun e => e.ip == ip with
  | none => true
  | some e => e.unanswered == 0 && decide (e.refreshedAt + u.arpRefreshS l * secP ≤ u.now)

theorem exec_arpRefresh : exec (.arpRefresh dt l) s = .next (((u.laneHops l).filter (u.hopDue l)).foldl (fun s ip => s.askHop l ip) u) := by
  simp only [exec, execArpRefresh, ← hu]
  exact if_pos hl

theorem arpRefresh_parts : ∃ t, exec (.arpRefresh dt l) s = .next t ∧ t = { u with lanes := t.lanes, outputs := t.outputs } ∧
    (∀ k, k ≠ l → t.lanes[k] = u.lanes[k]) ∧
    (∀ ip ∈ u.laneHops l,
      ((u.lanes[l].arp.find? fun e => e.ip == ip) = none → .arp l 1 broadcastMac ip ∈ t.outputs) ∧
      (∀ e, (u.lanes[l].arp.find? fun e => e.ip == ip) = some e → e.unanswered = 0 →
        e.refreshedAt + u.arpRefreshS l * secP ≤ u.now → .arp l 1 broadcastMac ip ∈ t.outputs)) ∧
    ((∀ ip ∈ u.laneHops l, ∃ e, (u.lanes[l].arp.find? fun e => e.ip == ip) = some e ∧
      (e.unanswered ≠ 0 ∨ u.now < e.refreshedAt + u.arpRefreshS l * secP)) → t = u) := by
  have ha := State.Asks.foldl (s := u) (l := l) (fun s ip => s.askHop_asks (ip := ip)) ((u.laneHops l).filter (u.hopDue l))
  have hasked {ip : U32} (hm : ip ∈ u.laneHops l) (hd : u.hopDue l ip = true) : Output.arp l 1 broadcastMac ip ∈
      (((u.laneHops l).filter (u.hopDue l)).foldl (fun s ip => s.askHop l ip) u).outputs :=
    mem_outputs_foldl (fun _ _ => State.askHop_asks) (List.mem_filter.mpr ⟨hm, hd⟩) fun _ => State.askHop_sends
  refine ⟨_, exec_arpRefresh hu hl, ha.frame, ha.others, fun ip hm => ⟨fun h => hasked hm ?_, fun e h h0 hr => hasked hm ?_⟩, fun h => ?_⟩
  · rw [State.hopDue, h]
  · rw [State.hopDue, h]
    exact (congrArg₂ and (beq_iff_eq.mpr h0) (decide_eq_true hr)).trans (Bool.and_self _)
  · have hn : (u.laneHops l).filter (u.hopDue l) = [] := by
      refine List.filter_eq_nil_iff.mpr fun ip hm => ?_
      obtain ⟨e, he, h⟩ := h ip hm
      rw [State.hopDue, he]
      rcases h with h | h
      · simp [h]
      · simp [h]
    rw [hn]
    rfl

theorem arpRetryTimeout_parts : ∃ t, exec (.arpRetryTimeout dt l) s = .next t ∧ t = { u with lanes := t.lanes, outputs := t.outputs } ∧
    (∀ k, k ≠ l → t.lanes[k] = u.lanes[k]) ∧
    (∀ e ∈ u.lanes[l].arp, e.unanswered ≠ 0 → e.askedAt + secP ≤ u.now →
      (e.unanswered < 3 → .arp l 1 broadcastMac e.ip ∈ t.outputs) ∧ (3 ≤ e.unanswered → t.arpMac l e.ip = none)) ∧
    ((∀ e ∈ u.lanes[l].arp, e.unanswered = 0 ∨ u.now < e.askedAt + secP) → t = u) := by
  obtain ⟨es, hes⟩ : ∃ es, es = u.lanes[l].arp.filter fun e => e.unanswered != 0 && decide (e.askedAt + secP ≤ u.now) := ⟨_, rfl⟩
  have he : exec (.arpRetryTimeout dt l) s = .next (es.foldl (State.retryHop l) u) := by
    simp only [exec, execArpRetryTimeout, ← hu, hes]
    exact if_pos hl
  have ha := State.Asks.foldl (s := u) (l := l) (fun _ => State.retryHop_asks) es
  refine ⟨_, he, ha.frame, ha.others, fun e hm h0 hd => ?_, fun h => ?_⟩
  · have hme : e ∈ es := by
      rw [hes]
      exact List.mem_filter.mpr ⟨hm, by simp [h0, hd]⟩
    refine ⟨fun h3 => mem_outputs_foldl (fun _ => State.retryHop_asks) hme fun s => ?_, fun h3 =>
      (State.retryHops_fails (Nat.not_lt.mpr h3) hme).arpMac⟩
    rw [State.retryHop, if_pos h3]
    exact State.askHop_sends
  · have hn : es = [] := by
      rw [hes]
      refine List.filter_eq_nil_iff.mpr fun e hm => ?_
      rcases h e hm with h | h
      · simp [h]
      · simp [h]
    rw [hn]
    rfl

theorem exec_icmpEchoRequest (srcMac : U48) (srcIp dstIp : U32) (data : List Byte) :
    exec (.icmpEchoRequest dt l srcMac srcIp dstIp data) s = if u.icmpEcho l = 1 ∧ dstIp = u.ethIp l then .next { u with
        lanes := upd u.lanes l fun x => { x with rxFrames := x.rxFrames + 1, txFrames := x.txFrames + 1 }
        outputs := .echoReply l srcMac srcIp data :: u.outputs }
      else .next { u with lanes := upd u.lanes l fun x => { x with rxFrames := x.rxFrames + 1, rxDiscards := x.rxDiscards + 1 } } := by
  simp only [exec, execIcmpEchoRequest, ← hu]
  rw [if_pos hl]
  simp only [State.setLane, State.send, upd_upd]
  rfl

theorem exec_ethFrameDiscarded : exec (.ethFrameDiscarded dt l) s = .next { u with
    lanes := upd u.lanes l fun x => { x with rxFrames := x.rxFrames + 1, rxDiscards := x.rxDiscards + 1 } } := by
  simp only [exec, execEthFrameDiscarded, ← hu]
  exact if_pos hl

end

theorem ethLinkUp_parts (ho : u.laneOn l = true) (hup : u.lanes[l].up = false) : ∃ t, exec (.ethLinkUp dt l) s = .next t ∧
    t = { u with lanes := t.lanes, outputs := t.outputs } ∧ t.lanes[l].up = true ∧ (∀ k, k ≠ l → t.lanes[k] = u.lanes[k]) ∧
    .arp l 1 broadcastMac (u.ethIp l) ∈ t.outputs ∧
    ∀ ip ∈ u.laneHops l, u.arpMac l ip = none → .arp l 1 broadcastMac ip ∈ t.outputs := by
  obtain ⟨v, hv⟩ : ∃ v, v = (u.setLane l fun x => { x with up := true, txFrames := x.txFrames + 1 }).send
    (.arp l 1 broadcastMac (u.ethIp l)) := ⟨_, rfl⟩
  have he : exec (.ethLinkUp dt l) s =
      .next (((v.laneHops l).filter fun ip => (v.arpMac l ip).isNone).foldl (fun s ip => s.askHop l ip) v) := by
    simp only [exec, execEthLinkUp, ← hu]
    rw [if_pos (by rw [ho, hup]; rfl), hv]
    rfl
  have hhops : v.laneHops l = u.laneHops l := by rw [hv]; rfl
  have hfr : v = { u with lanes := v.lanes, outputs := v.outputs } := by rw [hv]; rfl
  have hlane : v.lanes[l] = { u.lanes[l] with up := true, txFrames := u.lanes[l].txFrames + 1 } := by
    rw [hv]
    exact State.setLane_same (s := u) _
  have hmac (ip : U32) : v.arpMac l ip = u.arpMac l ip := by rw [State.arpMac, State.arpMac, hlane]
  have hoth (k : Lane) (hk : k ≠ l) : v.lanes[k] = u.lanes[k] := by
    rw [hv]
    exact State.setLane_other (s := u) hk _
  have hout : Output.arp l 1 broadcastMac (u.ethIp l) ∈ v.outputs := by
    rw [hv]
    exact List.mem_cons_self
  have ha := State.Asks.foldl (s := v) (l := l) (fun s ip => s.askHop_asks (ip := ip))
    ((v.laneHops l).filter fun ip => (v.arpMac l ip).isNone)
  refine ⟨_, he, ?_, ?_, fun k hk => (ha.others k hk).trans (hoth k hk), ha.outputs _ hout, fun ip hm hn => ?_⟩
  · refine ha.frame.trans ?_
    generalize ((v.laneHops l).filter fun ip => (v.arpMac l ip).isNone).foldl (fun s ip => s.askHop l ip) v = t
    exact (congrArg (fun x : State => { x with lanes := t.lanes, outputs := t.outputs }) hfr :)
  · rw [ha.up, hlane]
  · refine mem_outputs_foldl (fun _ _ => State.askHop_asks) (List.mem_filter.mpr ⟨hhops ▸ hm, ?_⟩) fun _ => State.askHop_sends
    rw [hmac, hn]
    rfl

end

/-! ### A lane that goes down (R348) -/

/-- Discarded records of a list of waiting ones, each counted for its route. -/
theorem State.discardRecs_parts (xs : List TxItem) :
    (xs.foldl (fun s t => s.discardRec t.route t.prec) s) =
      { s with routes := (xs.foldl (fun s t => s.discardRec t.route t.prec) s).routes } ∧
    ∀ r : RouteId, (xs.foldl (fun s t => s.discardRec t.route t.prec) s).routes[r].lost =
      s.routes[r].lost + BitVec.ofNat 64 (xs.filter fun x => x.route == r).length := by
  induction xs generalizing s with
  | nil => exact ⟨rfl, fun r => (BitVec.add_zero _).symm⟩
  | cons x xs ih =>
    obtain ⟨hf, hr⟩ := ih (s := s.discardRec x.route x.prec)
    have hd : s.discardRec x.route x.prec = { s with routes := (s.discardRec x.route x.prec).routes } := rfl
    refine ⟨hf.trans rfl, fun r => ?_⟩
    rw [List.foldl_cons, hr r, State.discardRec_eq, List.filter_cons]
    by_cases h : x.route = r
    · subst h
      rw [State.setRoute_same, RouteSt.discarded_frame, beq_self_eq_true, if_pos rfl, List.length_cons, BitVec.add_assoc]
      refine congrArg (s.routes[x.route].lost + ·) ?_
      rw [Nat.add_comm, BitVec.ofNat_add]
      rfl
    · rw [State.setRoute_other (Ne.symm h), if_neg (by simpa using h)]

/-- The record on a lane's line is lost with its frame. -/
def State.lineLost (s : State) (l : Lane) : State :=
  match s.lanes[l].sending with
  | some f => s.setRoute f.route fun x =>
    { x with skipped := true, lost := x.lost + 1 }.blockLost (fieldAt f.bytes 3 1) (fieldAt f.bytes 12 1) (fieldAt f.bytes 13 1)
  | none => s

theorem State.lineLost_frame : s.lineLost l = { s with routes := (s.lineLost l).routes } := by
  unfold State.lineLost
  split <;> rfl

theorem State.lineLost_lost (r : RouteId) : (s.lineLost l).routes[r].lost =
    s.routes[r].lost + BitVec.ofNat 64 (if s.lanes[l].sending.map (·.route) = some r then 1 else 0) := by
  unfold State.lineLost
  split
  · next f hf =>
    rw [hf]
    by_cases h : f.route = r
    · subst h
      rw [State.setRoute_same, RouteSt.blockLost_frame]
      exact (congrArg (fun n => s.routes[f.route].lost + BitVec.ofNat 64 n) (if_pos rfl).symm :)
    · rw [State.setRoute_other (Ne.symm h)]
      have hn : (if (some f).map (·.route) = some r then 1 else 0) = 0 := if_neg fun e => h (Option.some.inj e)
      rw [hn]
      exact (BitVec.add_zero _).symm
  · next hf =>
    rw [hf]
    exact (BitVec.add_zero _).symm

/-- A lane on which nothing waits and nothing is sent. -/
def LaneSt.emptied (x : LaneSt) : LaneSt := { x with urgent := [], normal := [], sending := none }

theorem State.dropLane_eq : s.dropLane l = (s.lanes[l].urgent ++ s.lanes[l].normal).foldl (fun s t => s.discardRec t.route t.prec)
    ((s.lineLost l).setLane l LaneSt.emptied) := rfl

theorem State.dropLane_frame : s.dropLane l = { s with lanes := upd s.lanes l LaneSt.emptied, routes := (s.dropLane l).routes } := by
  have hf := (State.discardRecs_parts (s := (s.lineLost l).setLane l LaneSt.emptied) (s.lanes[l].urgent ++ s.lanes[l].normal)).1
  rw [← State.dropLane_eq] at hf
  refine hf.trans ?_
  generalize (s.dropLane l).routes = x
  exact (congrArg (fun v : State => { v.setLane l LaneSt.emptied with routes := x }) State.lineLost_frame :)

theorem State.dropLane_lost (r : RouteId) : (s.dropLane l).routes[r].lost = s.routes[r].lost +
    BitVec.ofNat 64 (((s.lanes[l].urgent ++ s.lanes[l].normal).filter fun x => x.route == r).length +
      (if s.lanes[l].sending.map (·.route) = some r then 1 else 0)) := by
  have h := (State.discardRecs_parts (s := (s.lineLost l).setLane l LaneSt.emptied) (s.lanes[l].urgent ++ s.lanes[l].normal)).2 r
  rw [← State.dropLane_eq] at h
  have hs : ((s.lineLost l).setLane l LaneSt.emptied).routes = (s.lineLost l).routes := rfl
  rw [h, hs, State.lineLost_lost, Nat.add_comm, BitVec.ofNat_add, BitVec.add_assoc]

theorem ethLinkDown_parts (hu : u = s.elapse dt) (hup : u.lanes[l].up = true) : ∃ t, exec (.ethLinkDown dt l) s = .next t ∧
    t = { u with lanes := t.lanes, routes := t.routes } ∧
    t.lanes[l] = { u.lanes[l] with up := false, urgent := [], normal := [], sending := none } ∧
    (∀ k, k ≠ l → t.lanes[k] = u.lanes[k]) ∧
    ∀ r : RouteId, t.routes[r].lost = u.routes[r].lost +
      BitVec.ofNat 64 (((u.lanes[l].urgent ++ u.lanes[l].normal).filter fun x => x.route == r).length +
        (if u.lanes[l].sending.map (·.route) = some r then 1 else 0)) := by
  have he : exec (.ethLinkDown dt l) s = .next ((u.dropLane l).setLane l fun x => { x with up := false }) := by
    simp only [exec, execEthLinkDown, ← hu]
    exact if_pos hup
  have hlanes : (u.dropLane l).lanes = upd u.lanes l LaneSt.emptied := (congrArg State.lanes State.dropLane_frame :)
  refine ⟨_, he, ?_, ?_, fun k hk => ?_, State.dropLane_lost⟩
  · exact (congrArg (fun v : State =>
      { v with lanes := ((u.dropLane l).setLane l fun x => { x with up := false }).lanes }) State.dropLane_frame :)
  · rw [State.setLane_same, hlanes, upd_get_same]
    rfl
  · rw [State.setLane_other hk, hlanes, upd_get_other _ _ hk]

end

/-- Settles O46: what a lane asks and answers is `State.Asks`; going down it loses what waits by `State.dropLane`. -/
theorem lanesResolve : Obligations.LanesResolve := by
  intro s u dt l hu
  refine ⟨fun hl => ⟨arpFrameReceived_parts hu hl, arpRefresh_parts hu hl, arpRetryTimeout_parts hu hl, fun a b c d =>
    ⟨fun h => ?_, fun h => ?_⟩, exec_ethFrameDiscarded hu hl⟩, ethLinkUp_parts hu, ethLinkDown_parts hu⟩
  · rw [exec_icmpEchoRequest hu hl, if_pos h]
  · rw [exec_icmpEchoRequest hu hl, if_neg (by tauto)]

end Sys2Proof.Machine

/-! SUPPORT. SUPPORT. The boundaries that fences drive (R406, R407), reports and commands of the hatband. -/

namespace Sys2Proof.Machine

section

variable {s t u v w : State} {p q : Port} {d e : Domain}

/-! ## The hatband's lines and the memory's work -/

/-- The fault lines, the command on its way, the controllers and their self-test, and the count of late notices. -/
def State.lines (s : State) : List FaultRep × Option HbNotice × CtlSt × CtlSt × U32 × Bool :=
  (s.hb.reports, s.hb.notice, s.hb.ctlA, s.hb.ctlB, s.fab.uLate, s.hb.selfTest)

/-- What the memory holds at its ports, and its state. -/
def State.memWork (s : State) := (s.mem.host, s.mem.rt, s.mem.st)

/-- What recovery of most domains leaves: the hatband's lines and the memory's work. -/
def State.core (s : State) := (s.lines, s.memWork)

theorem State.core_ite {c : Prop} [Decidable c] (ht : c → t.core = s.core) (hu : ¬c → u.core = s.core) :
    (if c then t else u).core = s.core :=
  iteInduction (motive := fun v : State => v.core = s.core) ht hu

theorem State.core_foldl {α : Type} {f : State → α → State} (hf : ∀ s a, (f s a).core = s.core) (l : List α) (s : State) :
    (l.foldl f s).core = s.core := same_foldl f hf l s

/-- A change of the reports alone leaves what the hatband's lines and the memory hold, where the lines themselves stand. -/
theorem State.core_of_hushed (h : t.hushed = s.hushed) (hr : t.hb.reports = s.hb.reports) : t.core = s.core := by
  have hn : t.hb.notice = s.hb.notice := (congrArg (fun v : State => v.hb.notice) h :)
  have ha : t.hb.ctlA = s.hb.ctlA := (congrArg (fun v : State => v.hb.ctlA) h :)
  have hb : t.hb.ctlB = s.hb.ctlB := (congrArg (fun v : State => v.hb.ctlB) h :)
  have hl : t.fab.uLate = s.fab.uLate := (congrArg (fun v : State => v.fab.uLate) h :)
  have hs : t.hb.selfTest = s.hb.selfTest := (congrArg (fun v : State => v.hb.selfTest) h :)
  have hm : t.memWork = s.memWork := (congrArg State.memWork h :)
  rw [State.core, State.core, State.lines, State.lines, hr, hn, ha, hb, hl, hs, hm]

theorem State.record_core (r : BbxRec) : (s.record r).core = s.core :=
  State.core_of_hushed (s.record_hushed r) (s.record_reports r)

theorem State.msixEvent_core (k : Fin 8) : (s.msixEvent k).core = s.core :=
  State.core_of_hushed (s.msixEvent_hushed k) (by rw [s.msixEvent_hb])

theorem State.toRing_core (k : Fin 3) (i : RtItem) : (s.toRing k i).core = s.core :=
  State.core_ite (fun _ => rfl) fun _ => State.core_ite (fun _ => rfl) (fun _ => rfl)

theorem State.logDrop_core (tag : ShotTag) (cause : Nat) : (s.logDrop p tag cause).core = s.core :=
  State.core_ite (fun _ => State.record_core _) (fun _ => rfl)

theorem State.dropShot_core (tag : ShotTag) (cause : Fin 4) : (s.dropShot p tag cause).core = s.core := by
  unfold State.dropShot
  extract_lets code v w
  have hw : w.core = s.core := State.core_ite (fun _ => rfl) (fun _ => rfl)
  exact State.core_ite (fun _ => hw) (fun _ => (State.logDrop_core ..).trans hw)

/-! ## Ports and the streams -/

theorem State.closeGate_core : (s.closeGate p).core = s.core := by
  unfold State.closeGate
  split
  · rfl
  · exact (State.core_foldl (fun _ (a : Awaiting) => State.core_foldl (fun _ _ => State.logDrop_core ..) a.drops _) _ _ :)

theorem State.dropHeld_core : (s.dropHeld p).core = s.core := rfl

theorem State.setOptPort_core (f : OptPort → OptPort) : (s.setOptPort p f).core = s.core := rfl

theorem State.closePort_core : (s.closePort p).core = s.core := by
  unfold State.closePort
  obtain ⟨v, hv⟩ : ∃ v, v = s.closeGate p := ⟨_, rfl⟩
  have h : State.core (if v.leads p then v else v.dropHeld p) = v.core :=
    State.core_ite (fun _ => rfl) (fun _ => State.dropHeld_core)
  rw [← hv]
  exact (State.setOptPort_core _).trans (h.trans (hv ▸ State.closeGate_core))

theorem State.gatesOff_core : s.gatesOff.core = s.core :=
  State.core_foldl (f := fun s p => (s.closeGate p).dropHeld p) (fun _ _ => State.closeGate_core) bothPorts s

theorem State.closeGather_core (r : RouteId) (g : Gather) (flushed : Bool) : (s.closeGather r p g flushed).core = s.core := by
  unfold State.closeGather
  refine State.core_ite (fun _ => rfl) fun _ => State.core_ite (fun _ => ?_) (fun _ => ?_)
  · exact (State.core_foldl (f := fun s q => s.toRoute r q) (fun _ _ => rfl) _ _ :)
  · exact (State.core_foldl (f := fun s q => s.toRoute r q) (fun _ _ => rfl) _ _ :)

theorem State.closeRing_core (flushed : Bool) : (s.closeRing p flushed).core = s.core := by
  unfold State.closeRing
  dsimp only
  split
  · rfl
  · exact (State.core_foldl (fun _ _ => State.toRing_core ..) _ _ :)

theorem State.flushPort_core : (s.flushPort p).core = s.core := by
  unfold State.flushPort
  exact (State.closeRing_core true).trans
    (State.core_foldl (fun _ _ => State.core_foldl (fun _ _ => State.closeGather_core ..) _ _) _ _)

theorem State.setAcq_core (f : Acq → Acq) : (s.setAcq p f).core = s.core := rfl

theorem State.setDts_core (f : Dts → Dts) : (s.setDts p f).core = s.core := rfl

theorem State.pauseRing_core (k : Fin 3) : (s.pauseRing k).core = s.core := rfl

theorem State.discardQueue_core : (s.discardQueue p).core = s.core := by
  unfold State.discardQueue
  exact (State.core_foldl (fun _ _ => State.dropShot_core ..) _ _).trans (State.setAcq_core _)

theorem State.acqFence_core : (s.acqFence p).core = s.core := by
  unfold State.acqFence
  rw [State.setAcq_core, State.discardQueue_core, State.pauseRing_core, State.flushPort_core]

theorem State.ramanFence_core : (s.ramanFence p).core = s.core := by
  unfold State.ramanFence
  exact (State.core_foldl (fun _ _ => State.dropShot_core ..) _ _).trans (State.setDts_core _)

theorem State.setRoute_core (r : RouteId) (f : RouteSt → RouteSt) : (s.setRoute r f).core = s.core := rfl

/-- A route's coder forgets the rows that it holds. -/
theorem State.dropRows_core (r : RouteId) : State.core (if s.routeCoding r = 0 then s
    else s.setRoute r fun x => { x with das := x.das.map fun g => { g with rows := [] } }) = s.core :=
  State.core_ite (fun _ => rfl) (fun _ => State.setRoute_core ..)

theorem State.ringCoders_core (g : Vector Gather 2) : State.core { s with ringCoders := g } = s.core := rfl

theorem State.dropCoders_core : s.dropCoders.core = s.core := by
  unfold State.dropCoders
  dsimp only
  rw [State.ringCoders_core]
  exact State.core_foldl (fun _ r => State.dropRows_core r) allRoutes s

theorem State.setAls_core (f : Als → Als) : (s.setAls p f).core = s.core := rfl

/-- A port is suspended and closed, or left (R431). -/
theorem State.alsSuspend_cases : s.alsSuspend p = s ∨
    s.alsSuspend p = (s.setAls p fun a => { a with st := .suspended, nearNotice := none }).closePort p := by
  unfold State.alsSuspend
  split
  · split
    all_goals simp
  · exact .inl rfl

theorem State.dropLane_core (l : Lane) : (s.dropLane l).core = s.core := by
  refine (State.core_foldl (f := fun s (t : TxItem) => s.discardRec t.route t.prec) (fun _ t => ?_) _ _).trans ?_
  · rw [State.discardRec_eq]
    rfl
  · refine (?_ : State.core (match s.lanes[l].sending with | some f => _ | none => s) = s.core)
    split <;> rfl

/-! ## Host reads and a staging -/

theorem State.endHostReads_lines : s.endHostReads.lines = s.lines :=
  same_foldl (π := State.lines) (fun s _ => s.completeUr) (fun _ _ => rfl) _ _

theorem State.endHostReads_mem : s.endHostReads.mem = { s.mem with host := [] } :=
  same_foldl (π := State.mem) (fun s _ => s.completeUr) (fun _ _ => rfl) _ _

theorem State.stageEnd_core (code detail : Nat) : (s.stageEnd code detail).core = s.core := by
  unfold State.stageEnd
  split
  · rfl
  · next g _ =>
    extract_lets src s1 s2 s3 s4 st
    have h3 : s3.core = s.core := State.core_ite (fun _ => State.core_ite (fun _ => rfl) (fun _ => rfl)) (fun _ => rfl)
    split
    · have h4 : s4.core = s3.core := State.core_ite (fun _ => State.msixEvent_core 6) (fun _ => rfl)
      exact h4.trans h3
    · exact State.core_ite (fun _ => h3) (fun _ => h3)

theorem State.stageAbort_core (f : Feeder) : (s.stageAbort f).core = s.core := by
  unfold State.stageAbort
  split
  · exact State.core_ite (fun _ => State.stageEnd_core ..) (fun _ => rfl)
  · rfl

end

section

variable {s t u v w : State} {p q : Port} {d e : Domain}

/-! ## What driving a boundary never undoes (Table 13.4) -/

/-- The hatband's lines stand, the ports and the laser only go dark, the memory only gives up work, EVT forms no notice and the alarm
outputs keep their demands. -/
structure State.Driven (t s : State) : Prop where
  lines : t.lines = s.lines
  host : s.mem.host = [] → t.mem.host = []
  rt : s.mem.rt = [] → t.mem.rt = []
  mem : s.mem.st = .fenced → t.mem.st = .fenced
  laser : t.opt.laser = s.opt.laser ∨ t.opt.laser = .fault
  gate : ∀ p : Port, s.opt.ports[p].gate = none → t.opt.ports[p].gate = none
  shutter : ∀ p : Port, s.opt.ports[p].shutter = false → t.opt.ports[p].shutter = false
  notice : s.evt.notice = none → t.evt.notice = none
  demanded : ∀ o : Fin 4, t.alarms[o].demanded = s.alarms[o].demanded

/-- The ports' gates and shutters only close. -/
def State.Darkens (t s : State) : Prop := ∀ p : Port,
  (s.opt.ports[p].gate = none → t.opt.ports[p].gate = none) ∧ (s.opt.ports[p].shutter = false → t.opt.ports[p].shutter = false)

theorem State.Driven.of_core (hc : t.core = s.core) (hl : t.opt.laser = s.opt.laser ∨ t.opt.laser = .fault) (hd : t.Darkens s)
    (he : t.evt = s.evt) (ha : t.alarms = s.alarms) : t.Driven s := by
  have hm : t.memWork = s.memWork := (congrArg Prod.snd hc :)
  have hh : t.mem.host = s.mem.host := (congrArg Prod.fst hm :)
  have hr : t.mem.rt = s.mem.rt := (congrArg (fun x => x.2.1) hm :)
  have hs : t.mem.st = s.mem.st := (congrArg (fun x => x.2.2) hm :)
  exact ⟨(congrArg Prod.fst hc :), hh.trans, hr.trans, hs.trans, hl, fun p => (hd p).1, fun p => (hd p).2,
    fun h => by rw [he, h], fun o => by rw [ha]⟩

/-- Nothing of the optics changes. -/
theorem State.Driven.of_opt (hc : t.core = s.core) (ho : t.opt = s.opt) (he : t.evt = s.evt) (ha : t.alarms = s.alarms) :
    t.Driven s :=
  .of_core hc (.inl (by rw [ho])) (fun p => by rw [ho]; exact ⟨id, id⟩) he ha

theorem State.Driven.rfl : s.Driven s := .of_opt (Eq.refl _) (Eq.refl _) (Eq.refl _) (Eq.refl _)

theorem State.Driven.trans (h : t.Driven u) (k : u.Driven s) : t.Driven s where
  lines := h.lines.trans k.lines
  host := fun e => h.host (k.host e)
  rt := fun e => h.rt (k.rt e)
  mem := fun e => h.mem (k.mem e)
  laser := by
    rcases h.laser with e | e
    · rw [e]
      exact k.laser
    · exact .inr e
  gate := fun p e => h.gate p (k.gate p e)
  shutter := fun p e => h.shutter p (k.shutter p e)
  notice := fun e => h.notice (k.notice e)
  demanded := fun o => (h.demanded o).trans (k.demanded o)

theorem State.Driven.ite {c : Prop} [Decidable c] (ht : c → t.Driven s) (hu : ¬c → u.Driven s) : (if c then t else u).Driven s :=
  iteInduction (motive := fun v => State.Driven v s) ht hu

theorem State.Driven.foldl {α : Type} {f : State → α → State} (hf : ∀ s a, (f s a).Driven s) (l : List α) (s : State) :
    (l.foldl f s).Driven s :=
  List.foldlRecOn (motive := fun u => State.Driven u s) l f .rfl fun u k a _ => (hf u a).trans k

/-! ## The ports and the laser -/

theorem State.closePort_driven : (s.closePort p).Driven s := by
  obtain ⟨hg, hs, ho⟩ := s.closePort_shuts p
  refine .of_core State.closePort_core (.inl (by rw [s.closePort_portsOnly p])) (fun q => ?_) (by simp) (by simp)
  by_cases h : q = p
  · subst h
    exact ⟨fun _ => hg, fun _ => hs⟩
  · rw [ho q h]
    exact ⟨id, id⟩

theorem State.gatesOff_driven : s.gatesOff.Driven s := by
  refine .of_core State.gatesOff_core (.inl (by rw [s.gatesOff_portsOnly])) (fun q => ?_) (by simp) (by simp)
  obtain ⟨hg, hs⟩ := s.gatesOff_port q
  exact ⟨fun _ => hg, fun h => hs.trans h⟩

theorem State.laserFault_driven : s.laserFault.Driven s :=
  State.Driven.trans (u := s.gatesOff)
    (.of_core (Eq.refl _) (.inr (Eq.refl _)) (fun _ => ⟨id, id⟩) (Eq.refl _) (Eq.refl _)) State.gatesOff_driven

theorem State.setSht_driven (f : Sht → Sht) : (s.setSht p f).Driven s := .of_opt (Eq.refl _) (Eq.refl _) (Eq.refl _) (Eq.refl _)

theorem State.setDts_driven (f : Dts → Dts) : (s.setDts p f).Driven s := .of_opt (Eq.refl _) (Eq.refl _) (Eq.refl _) (Eq.refl _)

theorem State.setAls_driven (f : Als → Als) : (s.setAls p f).Driven s := .of_opt (Eq.refl _) (Eq.refl _) (Eq.refl _) (Eq.refl _)

theorem State.stopAcquire_driven : s.stopAcquire.Driven s :=
  .ite (fun _ => .of_opt (Eq.refl _) (Eq.refl _) (Eq.refl _) (Eq.refl _)) (fun _ => .rfl)

theorem State.alsSuspend_driven : (s.alsSuspend p).Driven s := by
  rcases s.alsSuspend_cases (p := p) with h | h <;> rw [h]
  · exact .rfl
  · exact State.closePort_driven.trans (State.setAls_driven _)

/-! ## Acquisition, temperature, events and streams -/

theorem State.pauseRing_driven (k : Fin 3) : (s.pauseRing k).Driven s := .of_opt (Eq.refl _) (Eq.refl _) (Eq.refl _) (Eq.refl _)

theorem State.acqFence_driven : (s.acqFence p).Driven s := .of_opt State.acqFence_core (by simp) (by simp) (by simp)

theorem State.flushPort_driven : (s.flushPort p).Driven s := .of_opt State.flushPort_core (by simp) (by simp) (by simp)

theorem State.ramanFence_driven : (s.ramanFence p).Driven s := .of_opt State.ramanFence_core (by simp) (by simp) (by simp)

theorem State.ramanOff_driven : s.ramanOff.Driven s :=
  .foldl (f := fun s p => (s.ramanFence p).biasOff p) (fun _ _ => (State.setDts_driven _).trans State.ramanFence_driven) bothPorts s

theorem State.alarmsFence_demanded (o : Fin 4) : s.alarmsFence.alarms[o].demanded = s.alarms[o].demanded := by
  simp only [State.alarmsFence, Fin.getElem_fin, Vector.getElem_ofFn, Fin.eta]
  split
  · split
    · rfl
    · unfold AlarmOut.setLand
      split <;> rfl
  · unfold AlarmOut.setLand
    split <;> rfl
  · rfl

theorem State.alarmsFence_driven : s.alarmsFence.Driven s :=
  ⟨Eq.refl _, id, id, id, .inl (Eq.refl _), fun _ => id, fun _ => id, id, State.alarmsFence_demanded⟩

/-- EVT is silenced: it holds no notice, and its last one is not taken as lost. -/
def State.evtSilenced (s : State) : State :=
  (s.setEvt fun e => { e with notice := none, due := [] }).setUrgent fun u => { u with lost := u.lost.set 0 false }

theorem State.evtSilenced_driven : s.evtSilenced.Driven s :=
  ⟨Eq.refl _, id, id, id, .inl (Eq.refl _), fun _ => id, fun _ => id, fun _ => Eq.refl _, fun _ => Eq.refl _⟩

theorem State.evtFence_eq : s.evtFence =
    bothPorts.foldl State.alsSuspend (if s.hatbandActs then s.alarmsFence else s).evtSilenced := by rfl

theorem State.evtFence_driven : s.evtFence.Driven s := by
  rw [State.evtFence_eq]
  exact (State.Driven.foldl (fun _ _ => State.alsSuspend_driven) _ _).trans
    (State.evtSilenced_driven.trans (.ite (fun _ => State.alarmsFence_driven) (fun _ => .rfl)))

theorem State.coderFence_driven : s.coderFence.Driven s :=
  (State.Driven.foldl (f := fun s (p : Port) => if s.histCoding p.val = 0 then s else s.pauseRing (dasRing p))
    (fun _ _ => .ite (fun _ => .rfl) (fun _ => State.pauseRing_driven _)) bothPorts s.dropCoders).trans
    (.of_opt State.dropCoders_core (by simp) (by simp) (by simp))

/-! ## Memory, PCI Express, lanes, placket and panel -/

theorem State.endHostReads_driven : s.endHostReads.Driven s :=
  ⟨State.endHostReads_lines, fun _ => by rw [State.endHostReads_mem], fun h => by rw [State.endHostReads_mem]; exact h,
    fun h => by rw [State.endHostReads_mem]; exact h, .inl (by simp), fun _ h => by simpa using h, fun _ h => by simpa using h,
    fun h => by simpa using h, fun _ => by simp⟩

theorem State.memFence_driven : s.memFence.Driven s := by
  unfold State.memFence
  extract_lets n v
  have hv : v.Driven s := State.endHostReads_driven.trans (.of_opt (Eq.refl _) (Eq.refl _) (Eq.refl _) (Eq.refl _))
  exact State.Driven.trans (u := v) ⟨Eq.refl _, id, fun _ => Eq.refl _, fun _ => Eq.refl _, .inl (Eq.refl _), fun _ => id, fun _ => id, id,
    fun _ => Eq.refl _⟩ hv

theorem State.stageAbort_driven (f : Feeder) : (s.stageAbort f).Driven s :=
  .of_opt (State.stageAbort_core f) (by simp) (by simp) (by simp)

theorem State.pcieFence_driven : s.pcieFence.Driven s :=
  State.Driven.trans (u := s.endHostReads.stageAbort .mailbox) (.of_opt (Eq.refl _) (Eq.refl _) (Eq.refl _) (Eq.refl _))
    ((State.stageAbort_driven .mailbox).trans State.endHostReads_driven)

theorem State.dropLane_driven (l : Lane) : (s.dropLane l).Driven s :=
  .of_opt (State.dropLane_core l) (by simp) (by simp) (by simp)

theorem State.plkDetach_driven : s.plkDetach.Driven s :=
  State.Driven.trans (u := s.stageAbort .placket) (.of_opt (Eq.refl _) (Eq.refl _) (Eq.refl _) (Eq.refl _)) (State.stageAbort_driven .placket)

theorem State.panelFence_driven : s.panelFence.Driven s := by
  unfold State.panelFence
  refine (State.Driven.foldl (fun _ _ => State.alsSuspend_driven) bothPorts _).trans ?_
  exact .of_opt (Eq.refl _) (Eq.refl _) (Eq.refl _) (Eq.refl _)

theorem State.loseAll_driven : s.loseAll.Driven s := by
  refine .foldl (f := fun s p => s.loseReading p .theta) (fun s p => ?_) bothPorts s
  exact (State.setDts_driven _).trans ((State.setDts_driven _).trans (State.setDts_driven _))

/-- R407: no boundary opens what another has closed. -/
theorem State.boundary_driven : (s.boundary d).Driven s := by
  unfold State.boundary
  split
  · exact State.closePort_driven
  · exact State.closePort_driven
  · exact State.laserFault_driven
  · exact State.stopAcquire_driven.trans State.gatesOff_driven
  · exact (State.Driven.foldl (fun _ _ => State.setSht_driven _) bothPorts _).trans State.gatesOff_driven
  · exact State.acqFence_driven
  · exact State.acqFence_driven
  · exact State.ramanOff_driven
  · exact (State.pauseRing_driven _).trans State.flushPort_driven
  · exact (State.pauseRing_driven _).trans State.flushPort_driven
  · exact .foldl (fun _ _ => State.ramanFence_driven) _ _
  · exact State.evtFence_driven
  · exact State.coderFence_driven
  · exact State.memFence_driven
  · exact State.pcieFence_driven
  · exact (State.dropLane_driven 1).trans (State.dropLane_driven 0)
  · exact State.plkDetach_driven
  · exact State.panelFence_driven
  · exact State.loseAll_driven.trans (.of_opt (Eq.refl _) (Eq.refl _) (Eq.refl _) (Eq.refl _))
  · exact .rfl

end

section

variable {s t u v w : State} {p q : Port} {d e : Domain} {n : HbNotice} {l : List Domain}

/-! ## Fences close (R406) -/

/-- The entry of a domain whose agent has been told to close its fence. -/
def Dom.close (x : Dom) : Dom := if x.fenced then { x with shut := true } else x

theorem Dom.close_shut (x : Dom) : x.close.shut = (x.shut || x.fenced) := by
  unfold Dom.close
  cases h : x.fenced <;> simp

theorem Dom.close_st (x : Dom) : x.close.st = x.st ∧ x.close.attempts = x.attempts := by
  unfold Dom.close
  split <;> exact ⟨rfl, rfl⟩

theorem Dom.close_of_shut {x : Dom} (h : x.shut = true) : x.close = x := by
  unfold Dom.close
  split
  · rw [← h]
  · rfl

theorem Dom.close_of_fenced {x : Dom} (h : x.fenced = true) : x.close = { x with shut := true } := if_pos h

theorem Dom.close_of_not_fenced {x : Dom} (h : ¬x.fenced = true) : x.close = x := if_neg h

/-- The frames that the panel has scanned may be counted; nothing else moves. -/
def State.Counted (t s : State) : Prop := t = { s with pnl := t.pnl }

/-- A fence that was open on a fenced domain closes, and its boundary is driven; any other fence stays. -/
theorem State.fence_cases : (s.fence d = s ∧ (s.dom d).close = s.dom d) ∨
    (s.dom d).fenced = true ∧ (s.fence d).Counted ((s.setDom d fun x => { x with shut := true }).boundary d) := by
  unfold State.fence
  split
  · next h =>
    refine .inr ⟨(Bool.and_eq_true_iff.mp h).1, ?_⟩
    dsimp only
    split <;> exact rfl
  · next h =>
    refine .inl ⟨rfl, ?_⟩
    by_cases hf : (s.dom d).fenced = true
    · exact Dom.close_of_shut (by simpa [hf, State.isShut] using h)
    · exact Dom.close_of_not_fenced hf

/-- What closing fences leaves: the bytes of DRAM, inputs, supplies, the time-interval unit, the phase engine, the triggers and the
instant. -/
def State.FenceKept (t s : State) : Prop :=
  t.mem.cells = s.mem.cells ∧ t.permits = s.permits ∧ t.power = s.power ∧ t.tiu = s.tiu ∧ t.phs = s.phs ∧
    t.trigLevel = s.trigLevel ∧ t.now = s.now

theorem State.FenceKept.rfl : s.FenceKept s := ⟨Eq.refl _, Eq.refl _, Eq.refl _, Eq.refl _, Eq.refl _, Eq.refl _, Eq.refl _⟩

theorem State.FenceKept.trans (h : t.FenceKept u) (k : u.FenceKept s) : t.FenceKept s := by
  obtain ⟨h1, h2, h3, h4, h5, h6, h7⟩ := h
  obtain ⟨k1, k2, k3, k4, k5, k6, k7⟩ := k
  exact ⟨h1.trans k1, h2.trans k2, h3.trans k3, h4.trans k4, h5.trans k5, h6.trans k6, h7.trans k7⟩

theorem State.boundary_fenceKept : (s.boundary d).FenceKept s := by simp [State.FenceKept]

theorem State.setDom_driven (f : Dom → Dom) : (s.setDom d f).Driven s := .of_opt (Eq.refl _) (Eq.refl _) (Eq.refl _) (Eq.refl _)

theorem State.Counted.driven (h : t.Counted s) : t.Driven s := by
  rw [h]
  exact .of_opt (Eq.refl _) (Eq.refl _) (Eq.refl _) (Eq.refl _)

theorem State.fence_driven : (s.fence d).Driven s := by
  rcases s.fence_cases (d := d) with ⟨h, -⟩ | ⟨-, h⟩
  · rw [h]
    exact .rfl
  · exact h.driven.trans (State.boundary_driven.trans (State.setDom_driven _))

theorem State.fence_fenceKept : (s.fence d).FenceKept s := by
  rcases s.fence_cases (d := d) with ⟨h, -⟩ | ⟨-, h⟩
  · rw [h]
    exact .rfl
  · rw [h]
    exact (State.boundary_fenceKept (s := s.setDom d fun x => { x with shut := true }))

theorem State.fence_dom : (s.fence d).dom e = if e = d then (s.dom e).close else s.dom e := by
  rcases s.fence_cases (d := d) with ⟨h, hc⟩ | ⟨hf, h⟩
  · rw [h]
    split
    · next he => rw [he, hc]
    · rfl
  · have hd : (s.fence d).hb.doms = (s.setDom d fun x => { x with shut := true }).hb.doms := by
      rw [h]
      exact (State.boundary_keeps _ d).2.2.1
    rw [State.dom, hd]
    refine (State.setDom_dom ..).trans ?_
    by_cases he : e = d
    · subst he
      rw [if_pos rfl, if_pos rfl, Dom.close_of_fenced hf]
    · rw [if_neg he, if_neg (Ne.symm he)]

/-- What a boundary establishes, and no other undoes, holds once its fence has newly closed. -/
theorem State.fence_drives {P : State → Prop} (hp : ∀ t s : State, t.Driven s → P s → P t) (hb : ∀ s : State, P (s.boundary d))
    (hnew : (s.fence d).isShut d = true) (hold : s.isShut d = false) : P (s.fence d) := by
  rcases s.fence_cases (d := d) with ⟨h, -⟩ | ⟨-, h⟩
  · rw [h, hold] at hnew
    exact absurd hnew Bool.false_ne_true
  · exact hp _ _ h.driven (hb _)

/-! ## The hatband's states reach the agents -/

/-- An agent acts on the mask that it is sent. -/
def State.told (n : HbNotice) (s : State) (d : Domain) : State := if n.mask.getLsbD d.val then s.fence d else s

theorem State.hbReaches_eq : s.hbReaches n = allDomains.foldl (State.told n) (s.setUrgent fun u => { u with hb := some n }) := rfl

theorem State.told_driven : (s.told n d).Driven s := .ite (fun _ => State.fence_driven) (fun _ => .rfl)

theorem State.told_fenceKept : (s.told n d).FenceKept s :=
  iteInduction (motive := fun v => State.FenceKept v s) (fun _ => State.fence_fenceKept) (fun _ => .rfl)

theorem State.told_dom : (s.told n d).dom e = if e = d ∧ n.mask.getLsbD d.val = true then (s.dom e).close else s.dom e := by
  unfold State.told
  by_cases hm : n.mask.getLsbD d.val = true
  · rw [if_pos hm, State.fence_dom]
    simp [hm]
  · rw [if_neg hm, if_neg fun h => hm h.2]

theorem State.tells_dom : (l.foldl (State.told n) s).dom e =
    if e ∈ l ∧ n.mask.getLsbD e.val = true then (s.dom e).close else s.dom e := by
  induction l generalizing s with
  | nil => simp
  | cons d l ih =>
    have hc : (s.dom e).close.close = (s.dom e).close := by
      by_cases hf : (s.dom e).fenced = true
      · rw [Dom.close_of_fenced hf]
        exact Dom.close_of_shut rfl
      · rw [Dom.close_of_not_fenced hf, Dom.close_of_not_fenced hf]
    rw [List.foldl_cons, ih, State.told_dom]
    by_cases he : e = d
    · subst he
      by_cases hm : n.mask.getLsbD e.val = true
      · simp [hm, hc]
      · rw [if_neg fun h => hm h.2, if_neg fun h => hm h.2, if_neg fun h => hm h.2]
    · simp [he]

theorem State.hbReaches_dom : (s.hbReaches n).dom e = if n.mask.getLsbD e.val = true then (s.dom e).close else s.dom e := by
  rw [State.hbReaches_eq, State.tells_dom]
  simp only [allDomains, List.mem_finRange, true_and]
  rfl

theorem State.hbReaches_isShut :
    (s.hbReaches n).isShut e = (s.isShut e || (n.mask.getLsbD e.val && (s.dom e).fenced)) := by
  rw [State.isShut, State.hbReaches_dom]
  by_cases hm : n.mask.getLsbD e.val = true
  · rw [if_pos hm, Dom.close_shut, hm, Bool.true_and]
    rfl
  · rw [if_neg hm, Bool.eq_false_iff.mpr hm, Bool.false_and, Bool.or_false]
    rfl

theorem State.setUrgent_driven (f : Urgent → Urgent) : (s.setUrgent f).Driven s :=
  .of_opt (Eq.refl _) (Eq.refl _) (Eq.refl _) (Eq.refl _)

theorem State.hbReaches_driven : (s.hbReaches n).Driven s := by
  rw [State.hbReaches_eq]
  exact (State.Driven.foldl (fun _ _ => State.told_driven) _ _).trans (State.setUrgent_driven _)

theorem State.hbReaches_fenceKept : (s.hbReaches n).FenceKept s := by
  rw [State.hbReaches_eq]
  exact List.foldlRecOn (motive := fun v : State => v.FenceKept s) _ _ .rfl fun _ h _ _ => State.told_fenceKept.trans h

/-- As `fence_drives`, for a notice that names the domain. -/
theorem State.tells_drives {P : State → Prop} (hp : ∀ t s : State, t.Driven s → P s → P t) (hb : ∀ s : State, P (s.boundary d))
    (hnew : (l.foldl (State.told n) s).isShut d = true) (hold : s.isShut d = false) : P (l.foldl (State.told n) s) := by
  induction l generalizing s with
  | nil =>
    rw [List.foldl_nil, hold] at hnew
    exact absurd hnew Bool.false_ne_true
  | cons e l ih =>
    rw [List.foldl_cons] at hnew ⊢
    by_cases h : (s.told n e).isShut d = true
    · refine hp _ _ (State.Driven.foldl (fun _ _ => State.told_driven) _ _) ?_
      by_cases hm : n.mask.getLsbD e.val = true
      · unfold State.told at h ⊢
        rw [if_pos hm] at h ⊢
        by_cases he : d = e
        · subst he
          exact State.fence_drives hp hb h hold
        · rw [State.isShut, State.fence_dom, if_neg he] at h
          exact absurd (hold.symm.trans h) Bool.false_ne_true
      · unfold State.told at h
        rw [if_neg hm, hold] at h
        exact absurd h Bool.false_ne_true
    · exact ih hnew (Bool.eq_false_iff.mpr h)

theorem State.hbReaches_drives {P : State → Prop} (hp : ∀ t s : State, t.Driven s → P s → P t) (hb : ∀ s : State, P (s.boundary d))
    (hnew : (s.hbReaches n).isShut d = true) (hold : s.isShut d = false) : P (s.hbReaches n) := by
  rw [State.hbReaches_eq] at hnew ⊢
  exact State.tells_drives hp hb hnew hold

/-! ### What the boundaries establish -/

theorem State.boundary_port (s : State) (p : Port) :
    ((s.boundary (portDomain p)).opt.ports[p]).gate = none ∧ ((s.boundary (portDomain p)).opt.ports[p]).shutter = false := by
  rcases p with ⟨_ | _ | _, h⟩
  · exact s.closePort_closed 0
  · exact s.closePort_closed 1
  · omega

theorem State.gatesOff_gates (s : State) (p : Port) : s.gatesOff.opt.ports[p].gate = none := (s.gatesOff_port p).1

theorem State.boundary_gates (hd : d.val ∈ [2, 3, 4]) (s : State) (p : Port) : (s.boundary d).opt.ports[p].gate = none := by
  have h : d = 2 ∨ d = 3 ∨ d = 4 := by
    simp only [List.mem_cons, List.not_mem_nil, or_false] at hd
    exact hd.imp Fin.ext (Or.imp Fin.ext Fin.ext)
  have h2 : (s.boundary 2).opt.ports[p].gate = none := s.gatesOff_gates p
  have h3 : (s.boundary 3).opt.ports[p].gate = none := State.stopAcquire_driven.gate p (s.gatesOff_gates p)
  have h4 : (s.boundary 4).opt.ports[p].gate = none :=
    (State.Driven.foldl (fun _ _ => State.setSht_driven _) bothPorts s.gatesOff).gate p (s.gatesOff_gates p)
  rcases h with h | h | h <;> subst h
  exacts [h2, h3, h4]

theorem State.boundary_laser (s : State) : (s.boundary 2).opt.laser = .fault := rfl

theorem State.boundary_memory (s : State) :
    (s.boundary 13).mem.st = .fenced ∧ (s.boundary 13).mem.host = [] ∧ (s.boundary 13).mem.rt = [] := by
  refine ⟨rfl, ?_, rfl⟩
  exact (congrArg Mem.host (State.endHostReads_mem (s := s.fencedFlits _)) :)

end

/-! ## Bits of a mask -/

theorem testBit_bitsOf (l : List Bool) (i : Nat) : (bitsOf l).testBit i = l.getD i false := by
  induction l generalizing i with
  | nil => simp [bitsOf]
  | cons b l ih =>
    cases i with
    | zero => cases b <;> simp [bitsOf, Nat.testBit_zero, Nat.add_mod]
    | succ i =>
      have h : bitsOf (b :: l) / 2 = bitsOf l := by
        cases b <;> simp [bitsOf]
        omega
      rw [Nat.testBit_succ, h, ih]
      rfl

section

variable {s t u v w : State} {p q : Port} {d e : Domain} {n : HbNotice} {l : List FaultRep} {mask : Nat} {f : FaultRep}

theorem State.fenceMask_bit (d : Domain) : (BitVec.ofNat 20 s.fenceMask).getLsbD d.val = (s.dom d).fenced := by
  rw [BitVec.getLsbD_ofNat, State.fenceMask, State.domMask, testBit_bitsOf]
  simp [d.isLt, State.dom]

theorem reportMask_bit (m : BitVec 20) (l : List FaultRep) (d : Domain) :
    (l.foldl (fun m f => m ||| (1#20 <<< f.domain.val)) m).getLsbD d.val =
      (m.getLsbD d.val || l.any fun f => decide (f.domain = d)) := by
  induction l generalizing m with
  | nil => simp
  | cons f l ih =>
    have h : (1#20 <<< f.domain.val).getLsbD d.val = decide (f.domain = d) := by
      rw [BitVec.getLsbD_shiftLeft, BitVec.getLsbD_one]
      simp only [Fin.ext_iff, d.isLt, decide_true, Bool.true_and]
      by_cases hd : f.domain.val = d.val
      · simp [hd]
      · by_cases hl : d.val < f.domain.val
        · simp [hl, hd]
        · have hn : d.val - f.domain.val ≠ 0 := by omega
          simp [hn, hd]
    rw [List.foldl_cons, ih, BitVec.getLsbD_or, h, List.any_cons, Bool.or_assoc]

theorem reportMask_ne_zero (h : l ≠ []) : reportMask l ≠ 0 := by
  obtain ⟨f, l, rfl⟩ := List.exists_cons_of_ne_nil h
  intro h0
  have hb := reportMask_bit 0 (f :: l) f.domain
  rw [List.any_cons, decide_eq_true rfl, Bool.true_or, Bool.or_true] at hb
  rw [show ((f :: l).foldl (fun m f => m ||| (1#20 <<< f.domain.val)) 0 : BitVec 20) = 0 from h0] at hb
  simp at hb

/-! ## A domain waits for its next attempt, or is fenced for good (R413) -/

theorem State.Driven.of_hushed (h : t.hushed = s.hushed) (hr : t.hb.reports = s.hb.reports) : t.Driven s :=
  .of_opt (State.core_of_hushed h hr) (congrArg State.opt h :) (congrArg State.evt h :) (congrArg State.alarms h :)

theorem OnlyReports.fenceKept (h : OnlyReports t s) : t.FenceKept s :=
  ⟨(congrArg (fun x : State => x.mem.cells) h :), (congrArg State.permits h :), (congrArg State.power h :), (congrArg State.tiu h :),
    (congrArg State.phs h :), (congrArg State.trigLevel h :), (congrArg State.now h :)⟩

theorem State.setDom_fenceKept (f : Dom → Dom) : (s.setDom d f).FenceKept s := .rfl

/-- The fence domains and reports may change. -/
def State.DomsOnly (t s : State) : Prop := OnlyReports t { s with hb := { s.hb with doms := t.hb.doms } }

theorem State.DomsOnly.trans (h : t.DomsOnly u) (k : u.DomsOnly s) : t.DomsOnly s :=
  Eq.trans h (congrArg (fun x : State => { x with hb := { x.hb with doms := t.hb.doms } }) k :)

theorem State.setDom_domsOnly (f : Dom → Dom) : (s.setDom d f).DomsOnly s := rfl

theorem OnlyReports.domsOnly (h : OnlyReports t s) : t.DomsOnly s := by
  have hd : t.hb.doms = s.hb.doms := (congrArg (fun x : State => x.hb.doms) h :)
  unfold State.DomsOnly
  rw [hd]
  exact h

theorem State.DomsOnly.fenceKept (h : t.DomsOnly s) : t.FenceKept s :=
  OnlyReports.fenceKept (s := { s with hb := { s.hb with doms := t.hb.doms } }) h

/-- A domain is told permanent to the records alone. -/
theorem State.makePermanent_reports : OnlyReports (s.makePermanent d) (s.setDom d fun x => { x with st := .permanent }) :=
  ((State.msixEvent_hushed _ _).trans (State.record_hushed _ _)).trans (State.healthRecord_hushed ..)

theorem State.makePermanent_driven : (s.makePermanent d).Driven s := by
  refine (State.Driven.of_hushed State.makePermanent_reports ?_).trans (State.setDom_driven _)
  unfold State.makePermanent
  rw [State.msixEvent_hb, State.record_reports, State.healthRecord_reports]

/-- The entry of a domain that waits for its next attempt, or has none left. -/
def State.scheduled (s : State) (d : Domain) (x : Dom) : Dom :=
  if bitOf s.noRecovery d.val || x.attempts ≥ s.recoveryLimit then { x with st := .permanent }
  else { x with st := .waiting, readyAt := s.now + s.recoveryMs x.attempts * msP }

/-- What a domain does after its boundary has been driven. -/
def State.awaits (s : State) (d : Domain) : State :=
  if bitOf s.noRecovery d.val || (s.dom d).attempts ≥ s.recoveryLimit then s.makePermanent d
  else s.setDom d fun x => { x with st := .waiting, readyAt := s.now + s.recoveryMs x.attempts * msP }

theorem State.awaits_domsOnly : (s.awaits d).DomsOnly s := by
  unfold State.awaits
  split
  · exact (OnlyReports.domsOnly State.makePermanent_reports).trans (State.setDom_domsOnly _)
  · exact State.setDom_domsOnly _

theorem State.awaits_driven : (s.awaits d).Driven s := .ite (fun _ => State.makePermanent_driven) (fun _ => State.setDom_driven _)

theorem State.makePermanent_dom : (s.makePermanent d).dom e = (s.setDom d fun x => { x with st := .permanent }).dom e :=
  (congrArg (fun x : State => x.dom e) State.makePermanent_reports :)

theorem State.awaits_dom : (s.awaits d).dom e = if e = d then s.scheduled d (s.dom e) else s.dom e := by
  unfold State.awaits State.scheduled
  by_cases he : e = d
  · subst he
    rw [if_pos rfl]
    split
    · rw [State.makePermanent_dom, State.setDom_dom, if_pos rfl]
    · rw [State.setDom_dom, if_pos rfl]
  · rw [if_neg he]
    split
    · rw [State.makePermanent_dom, State.setDom_dom, if_neg (Ne.symm he)]
    · rw [State.setDom_dom, if_neg (Ne.symm he)]

end

section

variable {s t u v w : State} {p q : Port} {d e : Domain} {n : HbNotice} {l : List FaultRep} {mask : Nat} {f : FaultRep}

/-! ## Recovery is scheduled -/

/-- Before a domain is scheduled, the boundary of an attempt that has failed is driven again (R407). -/
def State.driven (s : State) (d : Domain) : State := if (s.dom d).st = .attempt then s.boundary d else s

theorem State.driven_dom : (s.driven d).dom e = s.dom e := by
  unfold State.driven
  split
  · exact congrArg (fun v : Vector Dom 20 => v[e]) (s.boundary_keeps d).2.2.1
  · rfl

theorem State.scheduleRecovery_eq : s.scheduleRecovery d = (s.driven d).awaits d := by
  have h : (s.driven d).dom d = s.dom d := State.driven_dom
  unfold State.awaits
  rw [h]
  rfl

theorem State.driven_driven : (s.driven d).Driven s := .ite (fun _ => State.boundary_driven) (fun _ => .rfl)

theorem State.driven_fenceKept : (s.driven d).FenceKept s :=
  iteInduction (motive := fun v => State.FenceKept v s) (fun _ => State.boundary_fenceKept) (fun _ => .rfl)

theorem State.scheduleRecovery_driven : (s.scheduleRecovery d).Driven s := by
  rw [State.scheduleRecovery_eq]
  exact State.awaits_driven.trans State.driven_driven

theorem State.scheduleRecovery_fenceKept : (s.scheduleRecovery d).FenceKept s := by
  rw [State.scheduleRecovery_eq]
  exact State.awaits_domsOnly.fenceKept.trans State.driven_fenceKept

theorem State.scheduleRecovery_dom :
    (s.scheduleRecovery d).dom e = if e = d then (s.driven d).scheduled d (s.dom e) else s.dom e := by
  rw [State.scheduleRecovery_eq, State.awaits_dom, State.driven_dom]

theorem State.scheduleRecovery_domsOnly (h : (s.dom d).st ≠ .attempt) : (s.scheduleRecovery d).DomsOnly s := by
  rw [State.scheduleRecovery_eq, State.driven, if_neg h]
  exact State.awaits_domsOnly

/-! ## One report is handled (R413, R415) -/

/-- What a report leaves in its domain's entry, before its recovery is scheduled. -/
def Dom.reported (x : Dom) (code : U32) (time : U64) : Dom := { x with faults := x.faults + 1, lastCode := code, lastTime := time }

/-- The record of a report, and its domain's counters. -/
def State.noted (s : State) (mask : Nat) (f : FaultRep) : State :=
  let v := s.record (s.bbxRec (if (s.dom f.domain).fenced then 0x0040 else 0x0020) f.domain.val f.code f.value (le 4 mask))
  v.setDom f.domain fun x => x.reported f.code v.devTime

theorem State.noted_domsOnly : (s.noted mask f).DomsOnly s :=
  (State.setDom_domsOnly _).trans (OnlyReports.domsOnly (State.record_hushed ..))

theorem State.noted_driven : (s.noted mask f).Driven s :=
  (State.setDom_driven _).trans (.of_hushed (State.record_hushed ..) (State.record_reports _))

theorem State.noted_dom : (s.noted mask f).dom e =
    if e = f.domain then (s.dom e).reported f.code s.devTime else s.dom e := by
  have hr (r : BbxRec) : (s.record r).dom e = s.dom e := (congrArg (fun x : State => x.dom e) (s.record_hushed r) :)
  have ht (r : BbxRec) : (s.record r).devTime = s.devTime := OnlyReports.devTime (s.record_hushed r)
  unfold State.noted
  dsimp only
  rw [State.setDom_dom, hr, ht]
  by_cases h : e = f.domain
  · rw [if_pos h, if_pos h.symm]
  · rw [if_neg h, if_neg (Ne.symm h)]

/-- The hatband tells a newly fenced domain to the records. -/
def State.toldFence (s : State) (f : FaultRep) : State := (s.healthRecord 2 f.domain.val f.code f.value).msixEvent 5

theorem State.toldFence_reports : OnlyReports (s.toldFence f) s :=
  (State.msixEvent_hushed _ _).trans (State.healthRecord_hushed ..)

theorem State.toldFence_driven : (s.toldFence f).Driven s :=
  .of_hushed State.toldFence_reports (by rw [State.toldFence, State.msixEvent_hb, State.healthRecord_reports])

/-- A report on a domain that waits or is fenced for good is only noted; one on another schedules its recovery. -/
theorem State.handleReport_eq : s.handleReport mask f =
    match (s.dom f.domain).st with
    | .permanent | .waiting => s.noted mask f
    | .attempt => (s.noted mask f).scheduleRecovery f.domain
    | .running | .idle => ((s.noted mask f).toldFence f).scheduleRecovery f.domain := rfl

/-- A report is noted, told where the domain ran, and scheduled where the domain does not wait. -/
theorem State.handleReport_cases : s.handleReport mask f = s.noted mask f ∧ (s.dom f.domain).fenced = true ∧
      (s.dom f.domain).st ≠ .attempt ∨
    ∃ v, s.handleReport mask f = v.scheduleRecovery f.domain ∧ OnlyReports v (s.noted mask f) ∧ v.Driven (s.noted mask f) ∧
      ((s.dom f.domain).fenced = false ∨ (s.dom f.domain).st = .attempt) := by
  rw [State.handleReport_eq]
  cases h : (s.dom f.domain).st
  case permanent | waiting => exact .inl ⟨rfl, by rw [Dom.fenced, h], by simp⟩
  case attempt => exact .inr ⟨_, rfl, rfl, .rfl, .inr rfl⟩
  all_goals exact .inr ⟨_, rfl, State.toldFence_reports, State.toldFence_driven, .inl (by rw [Dom.fenced, h])⟩

theorem State.handleReport_driven : (s.handleReport mask f).Driven s := by
  rcases s.handleReport_cases (mask := mask) (f := f) with ⟨h, -⟩ | ⟨v, h, -, hv, -⟩ <;> rw [h]
  · exact State.noted_driven
  · exact State.scheduleRecovery_driven.trans (hv.trans State.noted_driven)

theorem State.handleReport_fenceKept : (s.handleReport mask f).FenceKept s := by
  rcases s.handleReport_cases (mask := mask) (f := f) with ⟨h, -⟩ | ⟨v, h, hv, -⟩ <;> rw [h]
  · exact State.noted_domsOnly.fenceKept
  · exact State.scheduleRecovery_fenceKept.trans (hv.fenceKept.trans State.noted_domsOnly.fenceKept)

theorem State.handleReport_other (h : e ≠ f.domain) : (s.handleReport mask f).dom e = s.dom e := by
  have hn : (s.noted mask f).dom e = s.dom e := by rw [State.noted_dom, if_neg h]
  rcases s.handleReport_cases (mask := mask) (f := f) with ⟨k, -⟩ | ⟨v, k, hv, -⟩ <;> rw [k]
  · exact hn
  · rw [State.scheduleRecovery_dom, if_neg h]
    exact (congrArg (fun x : State => x.dom e) hv :).trans hn

theorem State.scheduled_cases (x : Dom) : ∃ st a, s.scheduled d x = { x with st := st, readyAt := a } ∧ (st = .permanent ∨ st = .waiting) := by
  unfold State.scheduled
  split
  · exact ⟨.permanent, x.readyAt, rfl, .inl rfl⟩
  · exact ⟨.waiting, _, rfl, .inr rfl⟩

/-- The domain of a report: its counters move, and it waits or is fenced for good. -/
theorem State.handleReport_same : ∃ st a, (s.handleReport mask f).dom f.domain =
    { (s.dom f.domain).reported f.code s.devTime with st := st, readyAt := a } ∧ (st = .permanent ∨ st = .waiting) := by
  have hn : (s.noted mask f).dom f.domain = (s.dom f.domain).reported f.code s.devTime := by rw [State.noted_dom, if_pos rfl]
  rcases s.handleReport_cases (mask := mask) (f := f) with ⟨k, hf, ha⟩ | ⟨v, k, hv, -⟩ <;> rw [k]
  · refine ⟨(s.dom f.domain).st, (s.dom f.domain).readyAt, hn, ?_⟩
    unfold Dom.fenced at hf
    split at hf
    case h_1 e => exact .inr e
    case h_2 e => exact absurd e ha
    case h_3 e => exact .inl e
    all_goals exact absurd hf Bool.false_ne_true
  · have hd : v.dom f.domain = (s.dom f.domain).reported f.code s.devTime := (congrArg (fun x : State => x.dom f.domain) hv :).trans hn
    rw [State.scheduleRecovery_dom, if_pos rfl, hd]
    exact State.scheduled_cases _

theorem State.handleReport_fenced : ((s.handleReport mask f).dom f.domain).fenced = true := by
  obtain ⟨st, a, h, hs⟩ := s.handleReport_same (mask := mask) (f := f)
  rw [h]
  rcases hs with hs | hs <;> subst hs <;> rfl

theorem State.handleReport_isShut : (s.handleReport mask f).isShut e = s.isShut e := by
  unfold State.isShut
  by_cases he : e = f.domain
  · subst he
    obtain ⟨st, a, h, -⟩ := s.handleReport_same (mask := mask) (f := f)
    rw [h]
    rfl
  · rw [State.handleReport_other he]

/-- Where the domain is not in an attempt no boundary is driven: domains and records alone change. -/
theorem State.handleReport_domsOnly (h : (s.dom f.domain).st ≠ .attempt) : (s.handleReport mask f).DomsOnly s := by
  have hn : ((s.noted mask f).dom f.domain).st ≠ .attempt := by
    rw [State.noted_dom, if_pos rfl]
    exact h
  rcases s.handleReport_cases (mask := mask) (f := f) with ⟨k, -⟩ | ⟨v, k, hv, -⟩ <;> rw [k]
  · exact State.noted_domsOnly
  · have hd : (v.dom f.domain).st ≠ .attempt := by
      have e : v.dom f.domain = (s.noted mask f).dom f.domain := (congrArg (fun x : State => x.dom f.domain) hv :)
      rw [e]
      exact hn
    exact (State.scheduleRecovery_domsOnly hd).trans ((OnlyReports.domsOnly hv).trans State.noted_domsOnly)

/-! ## All reports on the lines are handled -/

theorem State.reports_driven : (l.foldl (State.handleReport mask) s).Driven s :=
  .foldl (fun _ _ => State.handleReport_driven) l s

theorem State.reports_fenceKept : (l.foldl (State.handleReport mask) s).FenceKept s :=
  List.foldlRecOn (motive := fun v : State => v.FenceKept s) l _ .rfl fun _ h _ _ => State.handleReport_fenceKept.trans h

theorem State.reports_isShut : (l.foldl (State.handleReport mask) s).isShut e = s.isShut e :=
  List.foldlRecOn (motive := fun v : State => v.isShut e = s.isShut e) l _ rfl fun _ h _ _ =>
    State.handleReport_isShut.trans h

theorem State.reports_other (h : ∀ f ∈ l, f.domain ≠ e) : (l.foldl (State.handleReport mask) s).dom e = s.dom e :=
  List.foldlRecOn (motive := fun v : State => v.dom e = s.dom e) l _ rfl fun _ k f hf =>
    (State.handleReport_other (h f hf).symm).trans k

theorem State.handleReport_fenced_of (h : (s.dom e).fenced = true) : ((s.handleReport mask f).dom e).fenced = true := by
  by_cases he : e = f.domain
  · subst he
    exact State.handleReport_fenced
  · rw [State.handleReport_other he]
    exact h

/-- A domain that is fenced stays fenced, whatever is reported. -/
theorem State.reports_fenced_of (h : (s.dom e).fenced = true) : ((l.foldl (State.handleReport mask) s).dom e).fenced = true :=
  List.foldlRecOn (motive := fun v : State => (v.dom e).fenced = true) l _ h fun _ k _ _ => State.handleReport_fenced_of k

theorem State.reports_fenced (hf : f ∈ l) : ((l.foldl (State.handleReport mask) s).dom f.domain).fenced = true := by
  induction l generalizing s with
  | nil => cases hf
  | cons g l ih =>
    rw [List.foldl_cons]
    rcases List.mem_cons.mp hf with rfl | h
    · exact State.reports_fenced_of State.handleReport_fenced
    · exact ih h

theorem State.reports_domsOnly (h : ∀ f ∈ l, (s.dom f.domain).st ≠ .attempt) : (l.foldl (State.handleReport mask) s).DomsOnly s := by
  induction l generalizing s with
  | nil => exact rfl
  | cons g l ih =>
    rw [List.foldl_cons]
    refine (ih fun f hf => ?_).trans (State.handleReport_domsOnly (h g List.mem_cons_self))
    by_cases he : f.domain = g.domain
    · obtain ⟨st, a, k, hs⟩ := s.handleReport_same (mask := mask) (f := g)
      rw [he, k]
      rcases hs with hs | hs <;> simp [hs]
    · rw [State.handleReport_other he]
      exact h f (List.mem_cons_of_mem _ hf)

end

section

variable {s t u v w : State} {p q : Port} {d e : Domain} {n : HbNotice} {l extra : List FaultRep} {mask dt : Nat} {f : FaultRep}

/-! ## FAULT_REPORT (R413, R415) -/

/-- The domains of the reports that were not yet fenced. -/
def State.newFences (u : State) (l : List FaultRep) : BitVec 20 := reportMask (l.filter fun f => !(u.dom f.domain).fenced)

/-- The lines are emptied and every report on them is handled. -/
def State.reportsHandled (u : State) (l : List FaultRep) : State :=
  l.foldl (State.handleReport (u.fenceMask ||| (u.newFences l).toNat)) { u with hb := { u.hb with reports := [] } }

theorem exec_faultReport (hu : u = s.elapse dt) (hl : u.live = true) (ha : u.hatbandActs = true) (hb : u.hb.bothFailed = false) :
    exec (.faultReport dt extra) s = .next (if u.newFences (u.hb.reports ++ extra) = 0 then
      u.reportsHandled (u.hb.reports ++ extra) else (u.reportsHandled (u.hb.reports ++ extra)).hbNotice) := by
  simp only [exec, execFaultReport, ← hu]
  rw [if_neg (by rw [hl]; decide), if_neg (by rw [hb]; decide), if_pos ha]
  rfl

theorem exec_faultReport_latched (hu : u = s.elapse dt) (hl : u.live = true) (hb : u.hb.bothFailed = true) :
    exec (.faultReport dt extra) s = .next { u with hb := { u.hb with
      reports := [], faultPending := u.hb.faultPending ||| reportMask (u.hb.reports ++ extra) } } := by
  simp only [exec, execFaultReport, ← hu]
  rw [if_neg (by rw [hl]; decide), if_pos hb]

theorem State.newFences_of_fenced (h : ∀ f ∈ l, (u.dom f.domain).fenced = true) : u.newFences l = 0 := by
  have hn : (l.filter fun f => !(u.dom f.domain).fenced) = [] :=
    List.filter_eq_nil_iff.mpr fun f hf => by rw [h f hf]; decide
  rw [State.newFences, hn]
  rfl

theorem State.newFences_of_running (h : ∃ f ∈ l, (u.dom f.domain).fenced = false) : u.newFences l ≠ 0 := by
  obtain ⟨f, hf, hr⟩ := h
  refine reportMask_ne_zero fun hn => ?_
  have := List.filter_eq_nil_iff.mp hn f hf
  rw [hr] at this
  exact this rfl

theorem State.reportsHandled_reports : (u.reportsHandled l).hb.reports = [] :=
  congrArg Prod.fst (State.reports_driven (mask := _)).lines

theorem State.reportsHandled_notice : (u.reportsHandled l).hb.notice = u.hb.notice :=
  congrArg (fun x => x.2.1) (State.reports_driven (mask := _)).lines

theorem State.reportsHandled_fenceKept : (u.reportsHandled l).FenceKept u := State.reports_fenceKept

theorem State.reportsHandled_domsOnly (h : ∀ f ∈ l, (u.dom f.domain).st ≠ .attempt) : (u.reportsHandled l).DomsOnly u :=
  State.DomsOnly.trans (u := { u with hb := { u.hb with reports := [] } }) (State.reports_domsOnly h) rfl

/-- A notice of the present states is formed, or none. -/
theorem State.DomsOnly.hbNotice (h : t.DomsOnly u) :
    OnlyReports t.hbNotice { u with hb := { u.hb with doms := t.hb.doms, notice := t.hbNotice.hb.notice } } :=
  (congrArg (fun x : State => { x with hb := { x.hb with notice := t.hbNotice.hb.notice } }) h :)

/-- What every handling of reports does, whether or not a domain is newly fenced. -/
theorem State.reportsTold_facts (ht : t = u.reportsHandled l ∨ t = (u.reportsHandled l).hbNotice) :
    t.hb.reports = [] ∧ ((∀ f ∈ l, (u.dom f.domain).st ≠ .attempt) →
      OnlyReports t { u with hb := { u.hb with doms := t.hb.doms, notice := t.hb.notice } }) ∧
    (∀ f ∈ l, (t.dom f.domain).fenced = true) ∧ (∀ d : Domain, (∀ f ∈ l, f.domain ≠ d) → t.dom d = u.dom d) ∧
    (∀ d : Domain, t.isShut d = u.isShut d) ∧ t.FenceKept u := by
  rcases ht with rfl | rfl
  · refine ⟨State.reportsHandled_reports, fun h => ?_, fun f hf => State.reports_fenced hf, fun d h => State.reports_other h,
      fun d => State.reports_isShut, State.reportsHandled_fenceKept⟩
    rw [State.reportsHandled_notice]
    exact State.reportsHandled_domsOnly h
  · exact ⟨State.reportsHandled_reports, fun h => (State.reportsHandled_domsOnly h).hbNotice, fun f hf => State.reports_fenced hf,
      fun d h => State.reports_other h, fun d => State.reports_isShut, State.reportsHandled_fenceKept⟩

theorem State.reportsTold (hu : u = s.elapse dt) (hl : u.live = true) (ha : u.hatbandActs = true) (hb : u.hb.bothFailed = false) :
    ∃ t, exec (.faultReport dt extra) s = .next t ∧ t.hb.reports = [] ∧
      ((∀ f ∈ u.hb.reports ++ extra, (u.dom f.domain).st ≠ .attempt) →
        OnlyReports t { u with hb := { u.hb with doms := t.hb.doms, notice := t.hb.notice } }) ∧
      (∀ f ∈ u.hb.reports ++ extra, (t.dom f.domain).fenced = true) ∧
      (∀ d : Domain, (∀ f ∈ u.hb.reports ++ extra, f.domain ≠ d) → t.dom d = u.dom d) ∧
      (∀ d : Domain, t.isShut d = u.isShut d) ∧
      ((∀ f ∈ u.hb.reports ++ extra, (u.dom f.domain).fenced = true) → t.hb.notice = u.hb.notice) ∧
      ((∃ f ∈ u.hb.reports ++ extra, (u.dom f.domain).fenced = false) → t.hb.notice = some t.hbTells) ∧
      t.permits = u.permits ∧ t.power = u.power ∧ t.mem.cells = u.mem.cells := by
  refine ⟨_, exec_faultReport hu hl ha hb, ?_⟩
  by_cases h0 : u.newFences (u.hb.reports ++ extra) = 0
  · obtain ⟨h1, h2, h3, h4, h5, hm, hp, hw, -⟩ := State.reportsTold_facts (.inl rfl : u.reportsHandled (u.hb.reports ++ extra) = _ ∨ _)
    rw [if_pos h0]
    exact ⟨h1, h2, h3, h4, h5, fun _ => State.reportsHandled_notice, fun h => absurd h0 (State.newFences_of_running h), hp, hw, hm⟩
  · obtain ⟨h1, h2, h3, h4, h5, hm, hp, hw, -⟩ :=
      State.reportsTold_facts (.inr rfl : (u.reportsHandled (u.hb.reports ++ extra)).hbNotice = _ ∨ _)
    rw [if_neg h0]
    exact ⟨h1, h2, h3, h4, h5, fun h => absurd (State.newFences_of_fenced h) h0, fun _ => rfl, hp, hw, hm⟩

/-! ### One report alone -/

/-- A report's domain that is not in an attempt is scheduled by the image's own limits. -/
theorem State.handleReport_running (h : (s.dom f.domain).fenced = false) : (s.handleReport mask f).dom f.domain =
    s.scheduled f.domain ((s.dom f.domain).reported f.code s.devTime) := by
  have hn : (s.noted mask f).dom f.domain = (s.dom f.domain).reported f.code s.devTime := by rw [State.noted_dom, if_pos rfl]
  have ha : (s.dom f.domain).st ≠ .attempt := fun e => by
    rw [Dom.fenced, e] at h
    exact absurd h.symm Bool.false_ne_true
  rcases s.handleReport_cases (mask := mask) (f := f) with ⟨-, k, -⟩ | ⟨v, k, hv, -⟩
  · exact absurd (h.symm.trans k) Bool.false_ne_true
  · have hd : v.dom f.domain = (s.dom f.domain).reported f.code s.devTime := (congrArg (fun x : State => x.dom f.domain) hv :).trans hn
    have hdriven : v.driven f.domain = v := if_neg (by rw [hd]; exact ha)
    have hs : v.DomsOnly s := (OnlyReports.domsOnly hv).trans State.noted_domsOnly
    have hr (x : Dom) : v.scheduled f.domain x = s.scheduled f.domain x := (congrArg (fun z : State => z.scheduled f.domain x) hs :)
    rw [k, State.scheduleRecovery_dom, if_pos rfl, hdriven, hd, hr]

/-- The entry of a report's domain that ran. -/
theorem State.scheduled_reported (x : Dom) (code : U32) (time : U64) :
    if bitOf s.noRecovery d.val = true ∨ s.recoveryLimit ≤ x.attempts then (s.scheduled d (x.reported code time)).st = .permanent
    else (s.scheduled d (x.reported code time)).st = .waiting ∧
      (s.scheduled d (x.reported code time)).readyAt = s.now + s.recoveryMs x.attempts * msP := by
  unfold State.scheduled
  split
  · next h => rw [if_pos (by simpa [Dom.reported] using h)]
  · next h => rw [if_neg (by simpa [Dom.reported] using h)]; exact ⟨rfl, rfl⟩

theorem State.oneReported (hu : u = s.elapse dt) (hl : u.live = true) (ha : u.hatbandActs = true) (hb : u.hb.bothFailed = false)
    (hr : u.hb.reports = []) : ∃ t, exec (.faultReport dt [f]) s = .next t ∧
      (t.dom f.domain).faults = (u.dom f.domain).faults + 1 ∧ (t.dom f.domain).lastCode = f.code ∧
      (t.dom f.domain).lastTime = u.devTime ∧
      ((u.dom f.domain).fenced = false →
        (∃ n, t.hb.notice = some n ∧ n.mask.getLsbD f.domain.val = true ∧
          ∀ d : Domain, (u.dom d).fenced = true → n.mask.getLsbD d.val = true) ∧
        (if bitOf u.noRecovery f.domain.val = true ∨ u.recoveryLimit ≤ (u.dom f.domain).attempts then
          (t.dom f.domain).st = .permanent
         else (t.dom f.domain).st = .waiting ∧
          (t.dom f.domain).readyAt = u.now + u.recoveryMs (u.dom f.domain).attempts * msP)) := by
  have hx : exec (.faultReport dt [f]) s = .next (if u.newFences [f] = 0 then u.reportsHandled [f] else
      (u.reportsHandled [f]).hbNotice) := by
    have := exec_faultReport (extra := [f]) hu hl ha hb
    rwa [hr, List.nil_append] at this
  obtain ⟨v, hv⟩ : ∃ v : State, v = { u with hb := { u.hb with reports := [] } } := ⟨_, rfl⟩
  obtain ⟨m, hm⟩ : ∃ m, m = u.fenceMask ||| (u.newFences [f]).toNat := ⟨_, rfl⟩
  have hh : u.reportsHandled [f] = v.handleReport m f := by rw [hv, hm]; rfl
  have hd (e : Domain) : v.dom e = u.dom e := by rw [hv]; rfl
  have hdt : v.devTime = u.devTime := by rw [hv]; rfl
  have hdom (z : State) (hz : z.hb.doms = (v.handleReport m f).hb.doms) : z.dom f.domain = (v.handleReport m f).dom f.domain := by
    rw [State.dom, hz, State.dom]
  obtain ⟨t, ht⟩ : ∃ t, t = if u.newFences [f] = 0 then u.reportsHandled [f] else (u.reportsHandled [f]).hbNotice := ⟨_, rfl⟩
  have hte : t.dom f.domain = (v.handleReport m f).dom f.domain := by
    refine hdom t ?_
    rw [ht, ← hh]
    split <;> rfl
  obtain ⟨st, a, k, -⟩ := v.handleReport_same (mask := m) (f := f)
  refine ⟨t, ht ▸ hx, ?_⟩
  rw [hte]
  refine ⟨by rw [k, hd]; rfl, by rw [k]; rfl, by rw [k, hdt]; rfl, fun hf => ⟨?_, ?_⟩⟩
  · have h0 : u.newFences [f] ≠ 0 := State.newFences_of_running ⟨f, List.mem_singleton_self f, hf⟩
    rw [if_neg h0] at ht
    refine ⟨(u.reportsHandled [f]).hbTells, by rw [ht]; rfl, ?_, fun d hdf => ?_⟩
    · exact ((u.reportsHandled [f]).fenceMask_bit _).trans (State.reports_fenced (List.mem_singleton_self f))
    · exact ((u.reportsHandled [f]).fenceMask_bit _).trans (State.reports_fenced_of hdf)
  · have hs (x : Dom) : v.scheduled f.domain x = u.scheduled f.domain x := by rw [hv]; rfl
    rw [State.handleReport_running (by rw [hd]; exact hf), hs, hd]
    exact State.scheduled_reported _ _ _

/-! ## FENCE_COMMAND (R406, R408) -/

/-- The hatband's command on its way reaches the agents. -/
def State.fencing (u : State) (n : HbNotice) : State :=
  ({ u with hb := { u.hb with notice := none } }.injected u.hbSource).hbReaches n

theorem exec_fenceCommand (hu : u = s.elapse dt) (hl : u.live = true) (hn : u.hb.notice = some n)
    (hi : u.mayInject u.hbSource = true) : exec (.fenceCommand dt) s = .next (u.fencing n) := by
  simp only [exec, execFenceCommand, ← hu, hn]
  rw [if_pos (by rw [hl, hi]; rfl)]
  rfl

theorem State.fencing_driven : (u.fencing n).Driven { u with hb := { u.hb with notice := none } } :=
  State.hbReaches_driven.trans (.of_opt rfl rfl rfl rfl)

theorem State.fencing_isShut : (u.fencing n).isShut d = (u.isShut d || (n.mask.getLsbD d.val && (u.dom d).fenced)) :=
  State.hbReaches_isShut

theorem State.fencing_dom : ((u.fencing n).dom d).st = (u.dom d).st ∧ ((u.fencing n).dom d).attempts = (u.dom d).attempts := by
  have h : (u.fencing n).dom d = if n.mask.getLsbD d.val = true then (u.dom d).close else u.dom d := State.hbReaches_dom
  rw [h]
  split
  · exact Dom.close_st _
  · exact ⟨rfl, rfl⟩

theorem State.fencing_drives {P : State → Prop} (hp : ∀ t s : State, t.Driven s → P s → P t) (hb : ∀ s : State, P (s.boundary d))
    (hnew : (u.fencing n).isShut d = true) (hold : u.isShut d = false) : P (u.fencing n) :=
  State.hbReaches_drives hp hb hnew hold

theorem State.fencing_gates (hd : d.val ∈ [2, 3, 4]) (hnew : (u.fencing n).isShut d = true) (hold : u.isShut d = false) :
    ((u.fencing n).opt.ports[p]).gate = none :=
  State.fencing_drives (P := fun v => v.opt.ports[p].gate = none) (fun _ _ h k => h.gate p k)
    (fun s => State.boundary_gates hd s p) hnew hold

theorem State.fencing_port (hnew : (u.fencing n).isShut (portDomain p) = true) (hold : u.isShut (portDomain p) = false) :
    ((u.fencing n).opt.ports[p]).gate = none ∧ ((u.fencing n).opt.ports[p]).shutter = false :=
  State.fencing_drives (P := fun v => v.opt.ports[p].gate = none ∧ v.opt.ports[p].shutter = false)
    (fun _ _ h k => ⟨h.gate p k.1, h.shutter p k.2⟩) (fun s => s.boundary_port p) hnew hold

theorem State.fencing_laser (hnew : (u.fencing n).isShut 2 = true) (hold : u.isShut 2 = false) : (u.fencing n).opt.laser = .fault :=
  State.fencing_drives (P := fun v => v.opt.laser = .fault) (fun _ _ h k => h.laser.elim (·.trans k) id)
    State.boundary_laser hnew hold

theorem State.fencing_memory (hnew : (u.fencing n).isShut 13 = true) (hold : u.isShut 13 = false) :
    (u.fencing n).mem.st = .fenced ∧ (u.fencing n).mem.host = [] ∧ (u.fencing n).mem.rt = [] :=
  State.fencing_drives (P := fun v => v.mem.st = .fenced ∧ v.mem.host = [] ∧ v.mem.rt = [])
    (fun _ _ h k => ⟨h.mem k.1, h.host k.2.1, h.rt k.2.2⟩) State.boundary_memory hnew hold

end

/-- Settles O54: every report schedules its own domain, the notice carries the whole mask, and what a boundary establishes no later one
of the same command undoes. -/
theorem faultsAreFenced : Obligations.FaultsAreFenced := by
  unfold Obligations.FaultsAreFenced
  intro s u dt hu hl
  refine ⟨fun extra ha hb => State.reportsTold hu hl ha hb, fun f ha hb hr => State.oneReported hu hl ha hb hr,
    fun extra hb => exec_faultReport_latched hu hl hb, fun n hn hi => ?_⟩
  obtain ⟨hm, hp, hw, -⟩ : (u.fencing n).FenceKept u := State.hbReaches_fenceKept
  refine ⟨_, exec_fenceCommand hu hl hn hi, (congrArg (fun x => x.2.1) State.fencing_driven.lines :), hm, hp, hw,
    fun d => State.fencing_dom, fun d => State.fencing_isShut, fun p => State.fencing_driven.shutter p,
    fun p => State.fencing_driven.gate p, fun p => State.fencing_port, fun p => ?_, State.fencing_laser, State.fencing_memory⟩
  rintro ⟨d, hd, hnew, hold⟩
  exact State.fencing_gates hd hnew hold

end Sys2Proof.Machine

/-! SUPPORT. SUPPORT. Urgent notices and their repeat (R272, R273), and warnings that clear (R416). -/

namespace Sys2Proof.Machine

section

variable {s t u v w : State} {p q : Port} {d e : Domain} {o : Fin 4} {dt : Nat} {k : USource} {c : CtlSt} {code : U32} {x : Warn}

/-! ## OPERATOR_STATE_NOTICE (R272) -/

theorem exec_operatorStateNotice (hu : u = s.elapse dt) (hl : u.live = true) (hi : u.mayInject .operator = true)
    (hs : u.permits.sent ≠ some u.operatorTells) :
    exec (.operatorStateNotice dt) s = .next (u.operatorReaches.injected .operator) := by
  simp only [exec, execOperatorStateNotice, ← hu]
  rw [if_pos (by rw [hl, hi, bne_iff_ne.mpr hs]; rfl)]

theorem exec_operatorStateNotice_idle (hu : u = s.elapse dt)
    (h : u.mayInject .operator = false ∨ u.permits.sent = some u.operatorTells) : exec (.operatorStateNotice dt) s = .next u := by
  simp only [exec, execOperatorStateNotice, ← hu]
  rw [if_neg]
  rcases h with h | h <;> simp [h]

/-! ## Repeats (R273) -/

theorem State.demand_bit (s : State) (o : Fin 4) : s.demand.getLsbD o.val = s.demandOf o := by
  rw [State.demand, BitVec.getLsbD_ofNat, testBit_bitsOf]
  simp [o.isLt]

/-- The ends that EVT's last notice named are told again, where it was lost. -/
def State.endsTold (s : State) (lost : Bool) : State :=
  if lost then bothPorts.foldl (fun s p => match s.evt.ports[p].lastEnd with
    | some e => s.alsGroupEnd p e.group e.near e.point
    | none => s) s
  else s

theorem State.endsTold_frame (lost : Bool) : s.endsTold lost = { s with als := (s.endsTold lost).als } := by
  unfold State.endsTold
  split
  · refine List.foldlRecOn (motive := fun v : State => v = { s with als := v.als }) _ _ rfl fun v h p _ => ?_
    split
    · next e _ => exact (congrArg (fun x : State => { x with als := (v.alsGroupEnd p e.group e.near e.point).als }) h :)
    · exact h
  · rfl

/-- EVT's states reach their sinks again. -/
def State.evtTold (s : State) : State :=
  ((s.setEvt fun e => { e with notice := none, notices := e.notices + 1 }).evtReaches s.evtSays evtSinks).injected .evt

theorem State.evtRepeats_eq : s.evtRepeats = if s.evtOn then s.evtTold.endsTold s.fab.u.lost[(0 : Fin 4)] else s := by
  unfold State.evtRepeats
  cases h : s.evtOn
  · rfl
  · rfl

theorem State.evtTold_facts (h : t = s.evtTold) : t = { s with evt := t.evt, alarms := t.alarms, fab := t.fab } ∧
    t.fab.uLate = s.fab.uLate ∧ t.evt.notice = none ∧ ∀ o : Fin 4, t.alarms[o].demanded = s.demandOf o := by
  obtain ⟨y, hy⟩ : ∃ y, y = s.setEvt fun e => { e with notice := none, notices := e.notices + 1 } := ⟨_, rfl⟩
  obtain ⟨v, hv⟩ : ∃ v, v = y.evtReaches s.evtSays evtSinks := ⟨_, rfl⟩
  obtain ⟨hf, -, ha⟩ := State.evtReaches_parts _ _ hv
  have hl : v.fab.uLate = y.fab.uLate := by
    rw [hv]
    unfold State.evtReaches
    extract_lets at9 a b
    have hb : b.fab.uLate = y.fab.uLate := by
      simp only [b, a]
      split <;> rfl
    split <;> exact hb
  have ht : t = v.injected .evt := by rw [h, hv, hy]; rfl
  have hy' : y = { s with evt := y.evt } := by rw [hy]; rfl
  refine ⟨?_, ?_, ?_, fun o => ?_⟩
  · rw [ht, hf, hy']
    rfl
  · rw [ht]
    exact hl.trans (by rw [hy]; rfl)
  · rw [ht, hf, hy]
    rfl
  · have ho : t.alarms = y.outputsAfter s.demand := by rw [ht]; exact ha.trans (if_pos (by decide))
    have hv : (y.outputsAfter s.demand)[o] = y.outputAfter s.demand o := Vector.getElem_ofFn _
    rw [ho, hv, State.outputAfter_demanded, State.demand_bit]

/-- What EVT's repeat leaves, and what it brings where EVT runs. -/
theorem State.evtRepeats_facts (h : t = s.evtRepeats) :
    t = { s with evt := t.evt, alarms := t.alarms, fab := t.fab, als := t.als } ∧ t.fab.uLate = s.fab.uLate ∧
    (s.evtOn = true → t.evt.notice = none ∧ ∀ o : Fin 4, t.alarms[o].demanded = s.demandOf o) := by
  rw [State.evtRepeats_eq] at h
  split at h
  · obtain ⟨v, hv⟩ : ∃ v, v = s.evtTold := ⟨_, rfl⟩
    obtain ⟨hf, hl, hn, hd⟩ := State.evtTold_facts hv
    obtain ⟨b, hb⟩ : ∃ b, b = s.fab.u.lost[(0 : Fin 4)] := ⟨_, rfl⟩
    rw [← hv, ← hb] at h
    have ht : t = { v with als := t.als } := by rw [h]; exact State.endsTold_frame b
    refine ⟨?_, ?_, fun _ => ⟨?_, fun o => ?_⟩⟩
    · have e : t.evt = v.evt ∧ t.alarms = v.alarms ∧ t.fab = v.fab := by rw [ht]; exact ⟨rfl, rfl, rfl⟩
      rw [e.1, e.2.1, e.2.2]
      exact ht.trans (congrArg (fun x : State => { x with als := t.als }) hf :)
    · rw [ht]; exact hl
    · rw [ht]; exact hn
    · rw [ht]; exact hd o
  · next hn => exact ⟨by rw [h], by rw [h], fun he => absurd he hn⟩

/-- What a controller's repeat does: the fences of the domains that it holds fenced close where it acts, and nothing opens. -/
structure State.Repeated (t s : State) : Prop where
  kept : t.FenceKept s
  late : t.fab.uLate = s.fab.uLate
  evt : s.evt.notice = none → t.evt.notice = none
  demanded : ∀ o : Fin 4, t.alarms[o].demanded = s.alarms[o].demanded
  ctl : t.hb.notice = none ∨ t.hb.notice = s.hb.notice
  fenced : ∀ d : Domain, (t.dom d).fenced = (s.dom d).fenced
  shut : ∀ d : Domain, s.isShut d = true → t.isShut d = true

theorem Dom.close_fenced (x : Dom) : x.close.fenced = x.fenced := by
  unfold Dom.close
  split <;> rfl

theorem State.Repeated.rfl : s.Repeated s :=
  ⟨.rfl, Eq.refl _, id, fun _ => Eq.refl _, .inr (Eq.refl _), fun _ => Eq.refl _, fun _ => id⟩

theorem State.hbRepeats_active : (s.hbRepeats k .active).Repeated s ∧ (s.hbRepeats k .active).hb.notice = none ∧
    ∀ d : Domain, (s.dom d).fenced = true → (s.hbRepeats k .active).isShut d = true := by
  obtain ⟨v, hv⟩ : ∃ v : State, v = { s with hb := { s.hb with notice := none } }.injected k := ⟨_, rfl⟩
  have ht : s.hbRepeats k .active = v.hbReaches s.hbTells := by rw [hv]; rfl
  have hd (e : Domain) : v.dom e = s.dom e := by rw [hv]; rfl
  have hs (e : Domain) : v.isShut e = s.isShut e := by rw [hv]; rfl
  have hk : v.FenceKept s := by rw [hv]; exact .rfl
  obtain ⟨hevt, hal, hlate⟩ : v.evt = s.evt ∧ v.alarms = s.alarms ∧ v.fab.uLate = s.fab.uLate := by rw [hv]; exact ⟨rfl, rfl, rfl⟩
  have hdr : (v.hbReaches s.hbTells).Driven v := State.hbReaches_driven
  rw [ht]
  have hnone : (v.hbReaches s.hbTells).hb.notice = none :=
    (congrArg (fun x => x.2.1) hdr.lines :).trans (by rw [hv]; rfl)
  refine ⟨⟨State.hbReaches_fenceKept.trans hk, ?_, fun h => hdr.notice (by rw [hevt, h]), fun o => ?_, .inl hnone, fun d => ?_,
    fun d h => ?_⟩, hnone, fun d h => ?_⟩
  · exact (congrArg (fun x => x.2.2.2.2.1) hdr.lines :).trans hlate
  · rw [hdr.demanded o, hal]
  · rw [State.hbReaches_dom, hd]
    split
    · exact Dom.close_fenced _
    · rfl
  · rw [State.hbReaches_isShut, hs, h, Bool.true_or]
  · have hm : (s.hbTells).mask.getLsbD d.val = true := (s.fenceMask_bit d).trans h
    rw [State.hbReaches_isShut, hm, hd, h]
    simp

theorem State.hbRepeats_repeated : (s.hbRepeats k c).Repeated s := by
  cases c with
  | active => exact State.hbRepeats_active.1
  | failed => exact .rfl
  | standby => exact ⟨.rfl, rfl, id, fun _ => rfl, .inr rfl, fun _ => rfl, fun _ => id⟩

end

section

variable {s t u v w : State} {p q : Port} {d e : Domain} {o : Fin 4} {dt : Nat} {k : USource} {c : CtlSt} {code : U32} {x : Warn}

/-! ## U_NOTICE_REPEAT (R273, R285) -/

/-- Notices whose flit was lost since the last repeat. -/
def State.lostNotices (u : State) : Nat := (u.fab.u.lost.toList.filter id).length

/-- Every source repeats its states. -/
def State.sourcesRepeat (u : State) : State :=
  (((u.operatorReaches.injected .operator).evtRepeats).hbRepeats .hbA u.hb.ctlA).hbRepeats .hbB u.hb.ctlB

/-- The repeat is counted: nothing is lost any more, and what was lost came late. -/
def State.repeatCounted (s : State) (now n : Nat) : State :=
  let t := s.setUrgent fun u => { u with lost := Vector.replicate 4 false, repeatedAt := now }
  { t with fab := { t.fab with uLate := t.fab.uLate + BitVec.ofNat 32 n } }

theorem exec_uNoticeRepeat (hu : u = s.elapse dt) (hl : u.live = true) (hd : u.fab.u.repeatedAt + usP ≤ u.now) :
    exec (.uNoticeRepeat dt) s = .next (u.sourcesRepeat.repeatCounted u.now u.lostNotices).formEvents := by
  simp only [exec, execUNoticeRepeat, ← hu]
  rw [if_pos (by rw [hl, decide_eq_true hd]; rfl)]
  rfl

theorem exec_uNoticeRepeat_early (hu : u = s.elapse dt) (hd : u.now < u.fab.u.repeatedAt + usP) :
    exec (.uNoticeRepeat dt) s = .next u := by
  simp only [exec, execUNoticeRepeat, ← hu]
  rw [if_neg]
  simp [Nat.not_le.mpr hd]

/-- What the repeats of all sources leave and bring. -/
theorem State.sourcesRepeat_facts (ht : t = u.sourcesRepeat) :
    t.permits = { u.permits with sent := some u.operatorTells, noticed := some u.operatorTells } ∧ t.fab.uLate = u.fab.uLate ∧
    (u.evtOn = true → t.evt.notice = none ∧ ∀ o : Fin 4, t.alarms[o].demanded = u.demandOf o) ∧
    (u.hb.ctlA = .active ∨ u.hb.ctlB = .active → t.hb.notice = none ∧ ∀ d : Domain, (u.dom d).fenced = true → t.isShut d = true) ∧
    t.power = u.power ∧ t.tiu = u.tiu ∧ t.phs = u.phs ∧ t.mem.cells = u.mem.cells ∧ t.trigLevel = u.trigLevel ∧ t.now = u.now := by
  obtain ⟨a, ha⟩ : ∃ a, a = u.operatorReaches.injected .operator := ⟨_, rfl⟩
  obtain ⟨b, hb⟩ : ∃ b, b = a.evtRepeats := ⟨_, rfl⟩
  obtain ⟨c, hc⟩ : ∃ c, c = b.hbRepeats .hbA u.hb.ctlA := ⟨_, rfl⟩
  have ht : t = c.hbRepeats .hbB u.hb.ctlB := by rw [ht, hc, hb, ha]; rfl
  have haf : a = { u with
      permits := { u.permits with sent := some u.operatorTells, noticed := some u.operatorTells }
      fab := a.fab } ∧ a.fab.uLate = u.fab.uLate := by
    rw [ha]
    exact ⟨rfl, rfl⟩
  obtain ⟨hbf, hbl, hbe⟩ := State.evtRepeats_facts hb
  have hon : a.evtOn = u.evtOn := by rw [haf.1]; rfl
  have hdem (o : Fin 4) : a.demandOf o = u.demandOf o := by rw [haf.1]; rfl
  have hbu : b.hb = u.hb ∧ b.permits = a.permits ∧ b.power = u.power ∧ b.tiu = u.tiu ∧ b.phs = u.phs ∧ b.mem = u.mem ∧
      b.trigLevel = u.trigLevel ∧ b.now = u.now := by
    rw [hbf, haf.1]
    exact ⟨rfl, rfl, rfl, rfl, rfl, rfl, rfl, rfl⟩
  have hap : a.permits = { u.permits with sent := some u.operatorTells, noticed := some u.operatorTells } := by rw [haf.1]
  obtain ⟨h1, h2, h3, h4, h5, h6, h7, h8⟩ := hbu
  have hdom (d : Domain) : b.dom d = u.dom d := by rw [State.dom, h1, State.dom]
  have rc : c.Repeated b := hc ▸ State.hbRepeats_repeated
  have rt : t.Repeated c := ht ▸ State.hbRepeats_repeated
  obtain ⟨km, kp, kw, ki, kh, kl, kn⟩ := rt.kept.trans rc.kept
  refine ⟨kp.trans (h2.trans hap), rt.late.trans (rc.late.trans (hbl.trans haf.2)), fun he => ?_, fun hact => ?_, kw.trans h3,
    ki.trans h4, kh.trans h5, km.trans (by rw [h6]), kl.trans h7, kn.trans h8⟩
  · obtain ⟨hn, hd⟩ := hbe (hon.trans he)
    exact ⟨rt.evt (rc.evt hn), fun o => by rw [rt.demanded o, rc.demanded o, hd o, hdem]⟩
  · rcases hact with hA | hB
    · rw [hA] at hc
      obtain ⟨-, hn, hs⟩ := b.hbRepeats_active (k := .hbA)
      rw [← hc] at hn hs
      refine ⟨?_, fun d hf => rt.shut d (hs d (by rw [hdom, hf]))⟩
      rcases rt.ctl with h | h
      · exact h
      · rw [h, hn]
    · rw [hB] at ht
      obtain ⟨-, hn, hs⟩ := c.hbRepeats_active (k := .hbB)
      rw [← ht] at hn hs
      exact ⟨hn, fun d hf => hs d (by rw [rc.fenced d, hdom, hf])⟩

theorem State.uNoticeRepeated (hu : u = s.elapse dt) (hl : u.live = true) (hd : u.fab.u.repeatedAt + usP ≤ u.now) :
    ∃ t, exec (.uNoticeRepeat dt) s = .next t ∧
       t.permits = { u.permits with sent := some u.operatorTells, noticed := some u.operatorTells } ∧
       t.fab.uLate = u.fab.uLate + BitVec.ofNat 32 (u.fab.u.lost.toList.filter id).length ∧
       (∀ i : Fin 4, t.fab.u.lost[i] = false) ∧ t.fab.u.repeatedAt = u.now ∧
       (u.evtOn = true → t.evt.notice = none ∧ ∀ o : Fin 4, t.alarms[o].demanded = u.demandOf o) ∧
       (u.hb.ctlA = .active ∨ u.hb.ctlB = .active → t.hb.notice = none ∧
         ∀ d : Domain, (u.dom d).fenced = true → t.isShut d = true) ∧
       t.power = u.power ∧ t.tiu = u.tiu ∧ t.phs = u.phs ∧ t.mem.cells = u.mem.cells ∧ t.trigLevel = u.trigLevel ∧
       t.now = u.now := by
  obtain ⟨a, ha⟩ : ∃ a, a = u.sourcesRepeat := ⟨_, rfl⟩
  obtain ⟨n, hn⟩ : ∃ n, n = u.lostNotices := ⟨_, rfl⟩
  obtain ⟨z, hz⟩ : ∃ z, z = u.now := ⟨_, rfl⟩
  obtain ⟨v, hv⟩ : ∃ v, v = a.repeatCounted z n := ⟨_, rfl⟩
  obtain ⟨hp, hl', he, hh, hw, hi, hs, hm, htl, hnow⟩ := State.sourcesRepeat_facts ha
  have e := exec_uNoticeRepeat hu hl hd
  rw [← ha, ← hn, ← hz, ← hv] at e
  obtain ⟨t, ht⟩ : ∃ t, t = v.formEvents := ⟨_, rfl⟩
  obtain ⟨hf, -, hen, -⟩ := v.formEvents_forms
  rw [← ht] at e hf hen
  have hva : v = { a with fab := v.fab } := by rw [hv]; rfl
  have hfab : v.fab.uLate = a.fab.uLate + BitVec.ofNat 32 n ∧ v.fab.u.lost = Vector.replicate 4 false ∧ v.fab.u.repeatedAt = z := by
    rw [hv]
    exact ⟨rfl, rfl, rfl⟩
  have hta : t.permits = a.permits ∧ t.alarms = a.alarms ∧ t.hb = a.hb ∧ t.power = a.power ∧ t.tiu = a.tiu ∧ t.phs = a.phs ∧
      t.trigLevel = a.trigLevel ∧ t.now = a.now := by
    rw [hf.frame, hva]
    exact ⟨rfl, rfl, rfl, rfl, rfl, rfl, rfl, rfl⟩
  obtain ⟨k1, k2, k3, k4, k5, k6, k7, k8⟩ := hta
  have hae : a.evt = v.evt := by rw [hva]
  have hlate : t.fab.uLate = v.fab.uLate := (congrArg Fab.uLate hf.fab :)
  have hur : t.fab.u = v.fab.u := (congrArg Fab.u hf.fab :)
  refine ⟨t, e, k1.trans hp, ?_, fun i => ?_, ?_, fun ho => ?_, fun ha => ?_, k4.trans hw, k5.trans hi, k6.trans hs, ?_, k7.trans htl,
    k8.trans hnow⟩
  · rw [hlate, hfab.1, hl', hn]
    rfl
  · rw [hur, hfab.2.1]
    simp
  · rw [hur, hfab.2.2, hz]
  · obtain ⟨hnone, hd⟩ := he ho
    exact ⟨by rw [hen, ← hae, hnone], fun o => by rw [k2, hd o]⟩
  · obtain ⟨hnone, hd⟩ := hh ha
    refine ⟨by rw [k3, hnone], fun d hfd => ?_⟩
    rw [← hd d hfd, State.isShut, State.dom, k3]
    rfl
  · rw [hf.cells, hva]
    exact hm

/-! ## WARNING_CLEAR (R416) -/

/-- The warning leaves the list, and its clearing is told and recorded. -/
def State.warningCleared (u : State) (code : U32) (x : Warn) : State :=
  let v := { u with hb := { u.hb with warnings := u.hb.warnings.filter fun w => w.code != code } }.healthRecord 1 0xFF code x.value
  v.record (v.bbxRec 0x0011 0xFF code x.value [])

theorem exec_warningClear (hu : u = s.elapse dt) (hx : (u.hb.warnings.find? fun w => w.code == code) = some x) (hl : u.live = true)
    (ha : u.hatbandActs = true) (hs : stickyWarning code = false) (hh : x.holders = []) (hd : x.seenAt + secP ≤ u.now) :
    exec (.warningClear dt code) s = .next (u.warningCleared code x) := by
  simp only [exec, execWarningClear, ← hu, hx]
  rw [if_pos (by rw [hl, ha, hs, hh, decide_eq_true hd]; rfl)]
  rfl

theorem exec_warningClear_held (hu : u = s.elapse dt) (hx : (u.hb.warnings.find? fun w => w.code == code) = some x)
    (h : stickyWarning code = true ∨ x.holders ≠ [] ∨ u.now < x.seenAt + secP) : exec (.warningClear dt code) s = .next u := by
  simp only [exec, execWarningClear, ← hu, hx]
  rw [if_neg]
  rcases h with h | h | h
  · simp [h]
  · simp [h]
  · simp [Nat.not_le.mpr h]

theorem State.emitRec_bbx (r : PRec) : (s.emitRec r).bbx = s.bbx := by
  unfold State.emitRec
  extract_lets v
  have hv : v.bbx = s.bbx := same_foldl (π := State.bbx) (fun s a => if s.routeTakes a r.typ r.port then s.toRoute a r else s)
    (fun _ _ => by dsimp only [Same]; split <;> rfl) allRoutes s
  have hr (i : RtItem) : (v.toRing 2 i).bbx = v.bbx := by
    unfold State.toRing
    split
    · rfl
    · split <;> rfl
  split
  · exact (hr _).trans hv
  · exact hv

theorem State.healthRecord_bbx (kind domain : Nat) (code value : U32) : (s.healthRecord kind domain code value).bbx = s.bbx := by
  unfold State.healthRecord
  split
  · rfl
  · dsimp only
    rw [State.emitRec_bbx]

theorem State.record_warned (r : BbxRec) (ha : s.hatbandActs = true) (h : code ≠ 0x00030002#32 ∨ s.bbx.queue.length < 64) :
    (s.record r).warned code = s.warned code := by
  have hq (c : U32) : (s.bbxEnqueue r).warned c = s.warned c := by rw [State.warned, State.bbxEnqueue_hb, State.warned]
  have hk : (s.bbxEnqueue r).hatbandActs = true := by rw [State.hatbandActs, State.bbxEnqueue_hb]; exact ha
  unfold State.record
  split
  · exact hq code
  · next hn =>
    have hc : code ≠ 0x00030002#32 := h.resolve_right hn
    dsimp only
    rw [State.raise_warned _ _ _ _ _ hk, hq, beq_false_of_ne hc, Bool.or_false]

theorem State.warningCleared_facts (ha : u.hatbandActs = true) (ht : t = u.warningCleared code x) : OnlyReports t u ∧
    (code ≠ 0x00030002#32 → t.warned code = false) ∧
    (u.bbx.queue.length < 64 → t.warned code = false ∧ t.Logged 0x0011 code) := by
  obtain ⟨w, hw⟩ : ∃ w : State, w = { u with hb := { u.hb with warnings := u.hb.warnings.filter fun w => w.code != code } } := ⟨_, rfl⟩
  obtain ⟨v, hv⟩ : ∃ v, v = w.healthRecord 1 0xFF code x.value := ⟨_, rfl⟩
  have ht : t = v.record (v.bbxRec 0x0011 0xFF code x.value []) := by rw [ht, hv, hw]; rfl
  have hwu : OnlyReports w u := by rw [hw]; rfl
  have hvw : OnlyReports v w := hv ▸ State.healthRecord_hushed ..
  have hact : v.hatbandActs = true := (congrArg State.hatbandActs (hvw.trans hwu) :).trans ha
  have hwc : w.warned code = false := by
    rw [hw, State.warned]
    simp
  have hvc : v.warned code = false := by
    rw [State.warned, hv, State.healthRecord_warnings]
    exact hwc
  have hq : v.bbx.queue.length = u.bbx.queue.length := by rw [hv, State.healthRecord_bbx, hw]
  refine ⟨?_, fun hc => ?_, fun hr => ⟨?_, ?_⟩⟩
  · rw [ht]
    exact OnlyReports.trans (State.record_hushed ..) (hvw.trans hwu)
  · rw [ht, State.record_warned _ hact (.inl hc), hvc]
  · rw [ht, State.record_warned _ hact (.inr (hq ▸ hr)), hvc]
  · rw [ht]
    exact State.record_logged _ (hq ▸ hr)

end

/-- Settles O36: the operator's states by their own notice, the repeats source by source, and the warning by its own list. -/
theorem noticesAndWarnings : Obligations.NoticesAndWarnings := by
  unfold Obligations.NoticesAndWarnings
  refine ⟨fun s u dt hu hl => ⟨fun hi hs => ?_, fun h => exec_operatorStateNotice_idle hu h,
    fun h => exec_uNoticeRepeat_early hu h, fun h => State.uNoticeRepeated hu hl h⟩, fun s u dt code w hu hw => ⟨?_, ?_⟩⟩
  · exact ⟨_, exec_operatorStateNotice hu hl hi hs, rfl, rfl, set_get_same ..⟩
  · intro hl ha hs hh hd
    exact ⟨_, exec_warningClear hu hw hl ha hs hh hd, State.warningCleared_facts ha rfl⟩
  · exact fun h => exec_warningClear_held hu hw h

end Sys2Proof.Machine

/-! SUPPORT. SUPPORT. The recovery of fenced domains (R413, R414, Table 13.5). -/

namespace Sys2Proof.Machine

section

variable {s t u v w : State} {p q : Port} {d e : Domain} {dt : Nat}

/-! ## What a domain that runs again leaves (Table 13.5) -/

/-- The gates of the ports. -/
def State.gates (s : State) : Vector (Option ShotFlight) 2 := s.opt.ports.map fun (x : OptPort) => x.gate

/-- What no recovery touches: the hatband, flash, supplies, inputs, memory and gates. -/
def State.steady (s : State) := (s.hb, s.flash, s.power, s.permits, s.mem, s.gates)

theorem State.steady_ite {c : Prop} [Decidable c] (ht : c → t.steady = s.steady) (hu : ¬c → u.steady = s.steady) :
    (if c then t else u).steady = s.steady :=
  iteInduction (motive := fun v : State => v.steady = s.steady) ht hu

theorem State.steady_foldl {α : Type} {f : State → α → State} (hf : ∀ s a, (f s a).steady = s.steady) (l : List α) (s : State) :
    (l.foldl f s).steady = s.steady := same_foldl f hf l s

theorem State.openShutter_steady : (s.openShutter p).steady = s.steady := by
  refine State.steady_ite (fun _ => ?_) (fun _ => rfl)
  have hg : (s.setOptPort p fun x => { x with shutter := true, openedAt := s.now }).gates = s.gates := by
    unfold State.gates State.setOptPort
    dsimp only
    ext i hi
    rw [Vector.getElem_map, Vector.getElem_map]
    have h := upd_get s.opt.ports p ⟨i, hi⟩ fun x => { x with shutter := true, openedAt := s.now }
    rw [show (upd s.opt.ports p fun x => { x with shutter := true, openedAt := s.now })[i] = _ from h]
    split <;> rfl
  unfold State.steady
  rw [hg]
  rfl

theorem State.setSht_steady (f : Sht → Sht) : (s.setSht p f).steady = s.steady := rfl

theorem State.setPhs_steady (f : Phs → Phs) : (s.setPhs p f).steady = s.steady := rfl

theorem State.setDts_steady (f : Dts → Dts) : (s.setDts p f).steady = s.steady := rfl

theorem State.setAls_steady (f : Als → Als) : (s.setAls p f).steady = s.steady := rfl

theorem State.setEvtPort_steady (f : EvtPort → EvtPort) : (s.setEvtPort p f).steady = s.steady := rfl

theorem State.requestRebase_steady : (s.requestRebase p).steady = s.steady := rfl

theorem State.launchRecover_steady : (s.launchRecover p).steady = s.steady :=
  State.requestRebase_steady.trans (State.steady_ite (fun _ => State.openShutter_steady) (fun _ => rfl))

theorem State.shtRecover_steady : s.shtRecover.steady = s.steady :=
  State.steady_foldl (fun _ _ => State.requestRebase_steady.trans (State.setSht_steady _)) bothPorts s

theorem State.enterProbe_steady : (s.enterProbe p).steady = s.steady :=
  State.requestRebase_steady.trans (State.openShutter_steady.trans (State.setAls_steady _))

theorem State.alsUnsuspend_steady : (s.alsUnsuspend p).steady = s.steady :=
  State.steady_ite (fun _ => State.enterProbe_steady) (fun _ => rfl)

theorem State.dropStretch_steady : (s.dropStretch p).steady = s.steady := by
  have hm (v : State) (j : Int) (time : U64) : (v.markSample p j time).steady = v.steady := State.setEvtPort_steady _
  have hg (v : State) (g : U48) (k : Nat) (j : Int) (time : U64) : (v.markGroup p g k j time).steady = v.steady :=
    State.steady_ite (fun _ => State.setEvtPort_steady _) (fun _ => rfl)
  unfold State.dropStretch
  exact (State.setPhs_steady _).trans (State.steady_foldl (fun _ _ => (hg ..).trans (hm ..)) _ _)

theorem State.acqRecover_steady : (((s.startAcquire p).decReset p).dropStretch p).steady = s.steady :=
  State.dropStretch_steady.trans ((State.setPhs_steady _).trans rfl)

theorem State.phsRecover_steady : ((s.clearPhase p).clearBaseline p).steady = s.steady :=
  (State.setDts_steady _).trans ((State.setEvtPort_steady _).trans ((State.setPhs_steady _).trans (State.setPhs_steady _)))

theorem State.evtStart_steady (b : Bool) : (s.evtStart b).steady = s.steady := by
  unfold State.evtStart
  dsimp only
  exact (State.steady_foldl (fun _ _ => (State.setEvtPort_steady _).trans (State.setEvtPort_steady _)) _ _).trans rfl

theorem State.send_steady (o : Output) : (s.send o).steady = s.steady := rfl

theorem State.askHop_steady (l : Lane) (ip : U32) : (s.askHop l ip).steady = s.steady := rfl

theorem State.laneRecover_steady (l : Lane) : (s.laneRecover l).steady = s.steady := by
  unfold State.laneRecover
  dsimp only
  exact State.steady_ite (fun _ => (State.steady_foldl (fun _ _ => State.askHop_steady ..) _ _).trans rfl) (fun _ => rfl)

theorem State.sensorSetup_steady : s.sensorSetup.steady = s.steady :=
  State.steady_ite (fun _ => State.steady_foldl (fun _ _ => State.send_steady _) _ _) (fun _ => rfl)

theorem State.battRecover_steady : (s.battRecover p).steady = s.steady := rfl

theorem State.recovered_steady : (s.recovered d).steady = s.steady := by
  unfold State.recovered
  split
  · exact State.launchRecover_steady
  · exact State.launchRecover_steady
  · exact State.steady_foldl (fun _ _ => State.requestRebase_steady) _ _
  · exact State.shtRecover_steady
  · exact State.acqRecover_steady
  · exact State.acqRecover_steady
  · exact State.phsRecover_steady
  · exact State.phsRecover_steady
  · exact State.steady_foldl (fun _ _ => State.battRecover_steady) _ _
  · exact (State.steady_foldl (fun _ _ => State.alsUnsuspend_steady) _ _).trans (State.evtStart_steady (s := s) true)
  · exact State.steady_ite (fun _ => rfl) (fun _ => rfl)
  · exact (State.laneRecover_steady 1).trans (State.laneRecover_steady 0)
  · exact (State.steady_foldl (fun _ _ => State.alsUnsuspend_steady) _ _).trans (State.sensorSetup_steady.trans rfl)
  · rfl
  · rfl
  · rfl

end

section

variable {s t u v w : State} {p q : Port} {d e : Domain} {dt : Nat}

/-! ## RECOVERY_ATTEMPT (R413) -/

/-- A domain whose delay has passed begins an attempt, counted and recorded. -/
def State.attempts (u : State) (d : Domain) : State :=
  let v := u.setDom d fun x => { x with st := .attempt, attempts := x.attempts + 1, begun := u.now }
  v.record (v.bbxRec 0x0021 d.val (u.dom d).lastCode 0 (le 4 ((u.dom d).attempts + 1) ++ le 4 0))

theorem exec_recoveryAttempt (hu : u = s.elapse dt) (hl : u.live = true) (ha : u.hatbandActs = true) (hw : (u.dom d).st = .waiting)
    (hs : u.isShut d = true) (hr : (u.dom d).readyAt ≤ u.now) (hc : u.clockRuns d = true) :
    exec (.recoveryAttempt dt d) s = .next ((u.attempts d).recoverBegin d) := by
  have hs : (u.dom d).shut = true := hs
  simp only [exec, execRecoveryAttempt, ← hu]
  rw [if_pos (by rw [hl, ha, hw, hs, decide_eq_true hr, hc]; rfl)]
  rfl

theorem State.attempts_domsOnly : (u.attempts d).DomsOnly u :=
  (OnlyReports.domsOnly (State.record_hushed ..)).trans (State.setDom_domsOnly _)

theorem State.attempts_dom : (u.attempts d).dom e =
    if e = d then { u.dom e with st := .attempt, attempts := (u.dom e).attempts + 1, begun := u.now } else u.dom e := by
  have hr : (u.attempts d).dom e =
      (u.setDom d fun x => { x with st := .attempt, attempts := x.attempts + 1, begun := u.now }).dom e :=
    (congrArg (fun x : State => x.dom e) (State.record_hushed _ _) :)
  rw [hr, State.setDom_dom]
  by_cases h : e = d
  · rw [if_pos h, if_pos h.symm]
  · rw [if_neg h, if_neg (Ne.symm h)]

theorem State.recoverBegin_dom : (s.recoverBegin d).dom e = s.dom e := by
  have h : (s.recoverBegin d).hb.doms = s.hb.doms := by simp
  rw [State.dom, h, State.dom]

theorem State.recoverBegin_bbx : (s.recoverBegin d).bbx = s.bbx := by
  unfold State.recoverBegin
  split
  case h_4 =>
    dsimp only
    split <;> rfl
  all_goals rfl

theorem State.recoverBegin_laser : (s.recoverBegin 2).opt.laser = .warming := rfl

theorem State.recoverBegin_pll : (s.recoverBegin 3).tim.a.st = .acquire := rfl

theorem State.pllRelease_mem (k : Pll) : (s.pllRelease k).mem = s.mem := by cases k <;> rfl

theorem State.recoverBegin_mem : (s.recoverBegin 13).mem.st = .off := by
  have h (v : State) (hv : v.mem.st = .off) : (if v.tim.d.st = .failed then v.pllRelease .d else v).mem.st = .off := by
    split
    · rw [State.pllRelease_mem, hv]
    · exact hv
  exact h _ rfl

/-- Domains that do everything at the end of their sequence begin it with nothing. -/
theorem State.recoverBegin_of_none (h : d ∉ ([2, 3, 7, 13] : List Domain)) : s.recoverBegin d = s := by
  simp only [List.mem_cons, List.not_mem_nil, or_false, not_or] at h
  obtain ⟨h2, h3, h7, h13⟩ := h
  unfold State.recoverBegin
  split
  case h_1 e => exact absurd (Fin.ext e) h2
  case h_2 e => exact absurd (Fin.ext e) h3
  case h_3 e => exact absurd (Fin.ext e) h7
  case h_4 e => exact absurd (Fin.ext e) h13
  case h_5 => rfl

theorem State.attempts_logged (h : u.bbx.queue.length < 64) : ((u.attempts d).recoverBegin d).Logged 0x0021 (u.dom d).lastCode := by
  have hl : (u.attempts d).Logged 0x0021 (u.dom d).lastCode := State.record_logged _ h
  rw [State.Logged, State.recoverBegin_bbx]
  exact hl

/-! ## RECOVERY_SEQUENCE_END (R413, R414) -/

theorem State.recoverySequenceEnd_ready {failing : List (Fin 4 × Fin 5)} (hl : u.live = true) (ha : u.hatbandActs = true)
    (hs : (u.dom d).st = .attempt) (hn : u.now ≤ (u.dom d).begun + recoveryMax d * msP) (hr : u.recoveryReady d = true)
    (hq : ∀ r ∈ u.hb.reports, r.domain ≠ d) (hu : u = s.elapse dt) (hf : (d ≠ 5 ∧ d ≠ 6) ∨ failing = []) :
    exec (.recoverySequenceEnd dt d failing) s = .next (u.unfence d) := by
  have hany : (u.hb.reports.any fun r => r.domain == d) = false :=
    List.any_eq_false.mpr fun r h => by simpa using hq r h
  simp only [exec, execRecoverySequenceEnd, ← hu]
  rw [if_pos (by rw [hl, ha, hs, decide_eq_true hn, hr, hany]; rfl)]
  rcases hf with ⟨h5, h6⟩ | hf
  · rw [if_neg (not_or.mpr ⟨h5, h6⟩)]
  · subst hf
    split
    · rfl
    · rfl

/-- Before the domain's own recovery, its entry and the records change, and the hatband forms its notice. -/
def State.unfenced (u : State) (d : Domain) : State :=
  let v := u.setDom d fun x => { x with st := .running, shut := false, cleanSince := u.now }
  let w := v.record (v.bbxRec 0x0022 d.val (u.dom d).lastCode 0 (le 4 (u.dom d).attempts ++ le 4 ((u.now - (u.dom d).begun) / usP)))
  (w.hbNotice.healthRecord 3 d.val (u.dom d).lastCode 0).msixEvent 5

theorem State.unfence_eq : u.unfence d = (u.unfenced d).recovered d := by
  have h (v : State) (hv : v.now = u.now) : v.now - (u.dom d).begun = u.now - (u.dom d).begun := by rw [hv]
  rfl

/-- The hatband's domains, notice and reports to the records change. -/
theorem State.unfenced_frame : OnlyReports (u.unfenced d)
    { u with hb := { u.hb with doms := (u.unfenced d).hb.doms, notice := (u.unfenced d).hb.notice } } := by
  obtain ⟨v, hv⟩ : ∃ v, v = u.setDom d fun x => { x with st := .running, shut := false, cleanSince := u.now } := ⟨_, rfl⟩
  obtain ⟨r, hr⟩ : ∃ r, r = v.bbxRec 0x0022 d.val (u.dom d).lastCode 0
    (le 4 (u.dom d).attempts ++ le 4 ((u.now - (u.dom d).begun) / usP)) := ⟨_, rfl⟩
  obtain ⟨t, ht⟩ : ∃ t, t = u.unfenced d := ⟨_, rfl⟩
  have h1 : OnlyReports t (v.record r).hbNotice := by
    rw [ht, hr, hv]
    exact (State.msixEvent_hushed ..).trans (State.healthRecord_hushed ..)
  have h2 : OnlyReports (v.record r) v := State.record_hushed ..
  have h3 : OnlyReports (v.record r).hbNotice { v with hb := { v.hb with notice := some (v.record r).hbTells } } :=
    (congrArg (fun x : State => { x with hb := { x.hb with notice := some (v.record r).hbTells } }) h2 :)
  have h4 := h1.trans h3
  have hd : t.hb.doms = v.hb.doms := (congrArg (fun x : State => x.hb.doms) h4 :)
  have hn : t.hb.notice = some (v.record r).hbTells := (congrArg (fun x : State => x.hb.notice) h4 :)
  rw [← ht, hd, hn]
  rw [hv] at h4 ⊢
  exact h4

theorem State.unfenced_reports : (u.unfenced d).hb.reports = u.hb.reports := by
  unfold State.unfenced
  dsimp only
  rw [State.msixEvent_hb, State.healthRecord_reports]
  exact State.record_reports _

theorem State.unfenced_dom : (u.unfenced d).dom e =
    if e = d then { u.dom e with st := .running, shut := false, cleanSince := u.now } else u.dom e := by
  have h : (u.unfenced d).hb.doms = (u.setDom d fun x => { x with st := .running, shut := false, cleanSince := u.now }).hb.doms := by
    simp [State.unfenced, State.hbNotice]
  rw [State.dom, h]
  refine (State.setDom_dom ..).trans ?_
  by_cases h : e = d
  · rw [if_pos h, if_pos h.symm]
  · rw [if_neg h, if_neg (Ne.symm h)]

theorem State.unfence_facts (ht : t = u.unfence d) :
    t.dom d = { u.dom d with st := .running, shut := false, cleanSince := u.now } ∧ (∀ e, e ≠ d → t.dom e = u.dom e) ∧
    t.hb.reports = u.hb.reports ∧ t.mem.cells = u.mem.cells ∧ t.flash = u.flash ∧ t.power = u.power ∧ t.permits = u.permits ∧
    ∀ p : Port, t.opt.ports[p].gate = u.opt.ports[p].gate := by
  obtain ⟨v, hv⟩ : ∃ v, v = u.unfenced d := ⟨_, rfl⟩
  have hs : t.steady = v.steady := by rw [ht, State.unfence_eq, hv]; exact State.recovered_steady
  have hf : OnlyReports v { u with hb := { u.hb with doms := v.hb.doms, notice := v.hb.notice } } := by
    rw [hv]; exact State.unfenced_frame
  have hhb : t.hb = v.hb := (congrArg Prod.fst hs :)
  have hfl : t.flash = v.flash := (congrArg (fun x => x.2.1) hs :)
  have hpw : t.power = v.power := (congrArg (fun x => x.2.2.1) hs :)
  have hpe : t.permits = v.permits := (congrArg (fun x => x.2.2.2.1) hs :)
  have hme : t.mem = v.mem := (congrArg (fun x => x.2.2.2.2.1) hs :)
  have hga : t.gates = v.gates := (congrArg (fun x => x.2.2.2.2.2) hs :)
  have hdom (e : Domain) : t.dom e = v.dom e := by rw [State.dom, hhb, State.dom]
  refine ⟨?_, fun e he => ?_, ?_, ?_, ?_, ?_, ?_, fun p => ?_⟩
  · rw [hdom, hv, State.unfenced_dom, if_pos rfl]
  · rw [hdom, hv, State.unfenced_dom, if_neg he]
  · rw [hhb, hv, State.unfenced_reports]
  · rw [hme]
    exact (congrArg (fun x : State => x.mem.cells) hf :)
  · rw [hfl]
    exact (congrArg State.flash hf :)
  · rw [hpw]
    exact (congrArg State.power hf :)
  · rw [hpe]
    exact (congrArg State.permits hf :)
  · have h (x : State) : x.gates[p] = x.opt.ports[p].gate := Vector.getElem_map ..
    have hg : v.gates = u.gates := (congrArg State.gates hf :)
    rw [← h, hga, hg, h]

/-! ## RECOVERY_OVERRUN (R407, R414) -/

theorem exec_recoveryOverrun (hu : u = s.elapse dt) (hl : u.live = true) (ha : u.hatbandActs = true) (hs : (u.dom d).st = .attempt)
    (hn : (u.dom d).begun + recoveryMax d * msP ≤ u.now) : exec (.recoveryOverrun dt d) s = .next (u.scheduleRecovery d) := by
  simp only [exec, execRecoveryOverrun, ← hu]
  rw [if_pos (by rw [hl, ha, hs, decide_eq_true hn]; rfl)]

/-- No boundary touches the loaded image. -/
theorem State.boundary_image : (s.boundary d).cfg.image = s.cfg.image := by
  have hk (f : State → Port → State) (hf : ∀ s p, (f s p).cfg = s.cfg) (s : State) : (bothPorts.foldl f s).cfg.image = s.cfg.image := by
    rw [same_foldl (π := State.cfg) f hf]
  have hp (v : State) (k : Fin 3) (h : v.cfg = s.cfg) : (v.pauseRing k).cfg.image = s.cfg.image := congrArg Cfg.image h
  have hx {v : State} (h : v.cfg = s.cfg) : v.cfg.image = s.cfg.image := congrArg Cfg.image h
  unfold State.boundary
  split
  · exact hx (by simp)
  · exact hx (by simp)
  · exact hx (by simp)
  · exact hx (by simp)
  · exact (hk _ (fun _ _ => rfl) s.gatesOff).trans (hx (by simp))
  · exact hx (by simp)
  · exact hx (by simp)
  · exact hx (by simp)
  · exact hp _ _ (by simp)
  · exact hp _ _ (by simp)
  · exact hk _ (by simp) s
  · exact hx (by simp)
  · exact hx (by simp)
  · exact hx (by simp)
  · have h : s.endHostReads.cfg.image = s.cfg.image := hx (by simp)
    exact Eq.trans (b := (s.endHostReads.stageAbort .mailbox).cfg.image) rfl ((State.stageAbort_cfg _).1.trans h)
  · exact hx (by simp)
  · exact Eq.trans (b := (s.stageAbort .placket).cfg.image) rfl (State.stageAbort_cfg _).1
  · exact hx (by simp)
  · obtain ⟨v, hv⟩ : ∃ v, v = s.setSup fun x => { x with converting := false } := ⟨_, rfl⟩
    rw [← hv]
    exact Eq.trans (b := v.cfg.image) (by simp) (by rw [hv]; rfl)
  · rfl

theorem State.rec?_of_image (h : t.cfg.image = u.cfg.image) (typ : Nat) (key : List Byte) : t.rec? typ key = u.rec? typ key := by
  rw [State.rec?, h, State.rec?]

/-- The limits of recovery and the instant decide how a domain is scheduled. -/
theorem State.scheduled_congr (h : t.cfg.image = u.cfg.image) (hn : t.now = u.now) (x : Dom) : t.scheduled d x = u.scheduled d x := by
  have hr : t.healthRec = u.healthRec := State.rec?_of_image h ..
  have h1 : t.noRecovery = u.noRecovery := by rw [State.noRecovery, hr, State.noRecovery]
  have h2 : t.recoveryLimit = u.recoveryLimit := by rw [State.recoveryLimit, hr, State.recoveryLimit]
  have h3 : t.recoveryMs x.attempts = u.recoveryMs x.attempts := by
    rw [State.recoveryMs, State.recoveryDelay, hr, State.recoveryMs, State.recoveryDelay]
  rw [State.scheduled, h1, h2, h3, hn, State.scheduled]

end

section

variable {s t u v w : State} {p q : Port} {d e : Domain} {dt : Nat}

theorem State.ramanFence_other (h : q ≠ p) : (s.ramanFence p).dts[q] = s.dts[q] := by
  unfold State.ramanFence
  extract_lets rs v
  have hd : (rs.foldl (fun s r => s.dropShot p r.tag 3) v).dts = v.dts :=
    same_foldl (π := State.dts) (fun s (r : RamanRec) => s.dropShot p r.tag 3) (fun _ _ => by simp [Same]) rs v
  rw [hd]
  exact State.setDts_other _ h

theorem State.ramanOff_biasOff (s : State) (p : Port) : s.ramanOff.dts[p].biasOff = true := by
  obtain ⟨v, hv⟩ : ∃ v, v = (s.ramanFence 0).biasOff 0 := ⟨_, rfl⟩
  have h : s.ramanOff = (v.ramanFence 1).biasOff 1 := by rw [hv]; rfl
  have h0 : v.dts[(0 : Port)].biasOff = true := by
    rw [hv, State.biasOff, State.setDts_same]
  have h1 (q : Port) (hq : q ≠ 1) : ((v.ramanFence 1).biasOff 1).dts[q] = v.dts[q] := by
    rw [State.biasOff, State.setDts_other _ hq, State.ramanFence_other hq]
  rw [h]
  rcases p with ⟨_ | _ | _, hp⟩
  · exact (congrArg Dts.biasOff (h1 0 (by decide))).trans h0
  · exact congrArg Dts.biasOff (State.setDts_same (p := 1) _)
  · omega

theorem State.driven_of_attempt (hs : (u.dom d).st = .attempt) : u.driven d = u.boundary d := if_pos hs

/-- An attempt that overruns: its boundary again, then the next attempt or none. -/
theorem State.overrun_facts (hs : (u.dom d).st = .attempt) (ht : t = u.scheduleRecovery d) :
    (∀ e, e ≠ d → t.dom e = u.dom e) ∧ t.permits = u.permits ∧ t.power = u.power ∧ t.mem.cells = u.mem.cells ∧
      (d = 2 → t.opt.laser = .fault) ∧ (d = 7 → ∀ p : Port, t.dts[p].biasOff = true) ∧
      (∀ p : Port, u.opt.ports[p].gate = none → t.opt.ports[p].gate = none) ∧
      (d = 19 → OnlyReports t { u with hb := { u.hb with doms := t.hb.doms } }) ∧
      t.dom d = u.scheduled d (u.dom d) := by
  obtain ⟨v, hv⟩ : ∃ v, v = u.boundary d := ⟨_, rfl⟩
  have htv : t = v.awaits d := by rw [ht, State.scheduleRecovery_eq, State.driven_of_attempt hs, hv]
  have hd : t.DomsOnly v := htv ▸ State.awaits_domsOnly
  obtain ⟨hm, hp, hw, -⟩ : t.FenceKept u := ht ▸ State.scheduleRecovery_fenceKept
  refine ⟨fun e he => ?_, hp, hw, hm, fun h => ?_, fun h p => ?_, fun p => ?_, fun h => ?_, ?_⟩
  · rw [ht, State.scheduleRecovery_dom, if_neg he]
  · have ho : t.opt = v.opt := (congrArg State.opt hd :)
    subst h
    rw [ho, hv]
    exact u.boundary_laser
  · have hdts : t.dts = v.dts := (congrArg State.dts hd :)
    subst h
    rw [hdts, hv]
    exact u.ramanOff_biasOff p
  · exact (ht ▸ State.scheduleRecovery_driven : t.Driven u).gate p
  · subst h
    have : v = u := hv
    rw [this] at hd
    exact hd
  · rw [ht, State.scheduleRecovery_dom, if_pos rfl, State.driven_of_attempt hs]
    exact State.scheduled_congr State.boundary_image (by simp) _

theorem State.scheduled_eq (x : Dom) : if bitOf u.noRecovery d.val = true ∨ u.recoveryLimit ≤ x.attempts then
      u.scheduled d x = { x with st := .permanent }
    else u.scheduled d x = { x with
      st := .waiting, readyAt := u.now + min (u.recoveryDelay * 2 ^ x.attempts) 3600000 * msP } := by
  unfold State.scheduled
  by_cases h : bitOf u.noRecovery d.val = true ∨ u.recoveryLimit ≤ x.attempts
  · rw [if_pos h, if_pos (by simpa using h)]
  · rw [if_neg h, if_neg (by simpa using h)]
    rfl

/-! ## RECOVERY_CLEAN_TICK (R413) -/

theorem exec_recoveryCleanTick (hu : u = s.elapse dt) (hl : u.live = true) (ha : u.hatbandActs = true) (hc : u.recoveryClean ≠ 0)
    {c n : Nat} (hn : n = u.recoveryClean * secP) (hnow : c = u.now) : exec (.recoveryCleanTick dt) s =
      .next { u with hb := { u.hb with doms := u.hb.doms.map fun (x : Dom) =>
        if x.st = .running ∧ x.cleanSince + n ≤ c then { x with attempts := 0 } else x } } := by
  simp only [exec, execRecoveryCleanTick, ← hu]
  rw [if_pos (by rw [hl, ha, bne_iff_ne.mpr hc]; rfl), hn, hnow]

end

/-- Settles O55: each step of a domain's recovery moves its own entry, and its boundary is what an overrun presents. -/
theorem domainsRecover : Obligations.DomainsRecover := by
  unfold Obligations.DomainsRecover
  intro s u dt d hu hl ha
  refine ⟨fun hw hs hr hc => ?_, fun failing hs hn hr hq hf => ?_, fun hs hn => ?_, fun hc => ?_⟩
  · refine ⟨_, exec_recoveryAttempt hu hl ha hw hs hr hc, ?_, fun e he => ?_, State.attempts_logged, fun h => ?_, fun h => ?_,
      fun h => ?_, fun h => ?_⟩
    · rw [State.recoverBegin_dom, State.attempts_dom, if_pos rfl]
    · rw [State.recoverBegin_dom, State.attempts_dom, if_neg he]
    · subst h
      exact State.recoverBegin_laser
    · subst h
      exact State.recoverBegin_pll
    · subst h
      exact State.recoverBegin_mem
    · rw [State.recoverBegin_of_none h]
      exact State.attempts_domsOnly
  · exact ⟨_, State.recoverySequenceEnd_ready hl ha hs hn hr hq hu hf, State.unfence_facts rfl⟩
  · obtain ⟨t, ht⟩ : ∃ t, t = u.scheduleRecovery d := ⟨_, rfl⟩
    obtain ⟨h1, h2, h3, h4, h5, h6, h7, h8, h9⟩ := State.overrun_facts hs ht
    refine ⟨t, ht ▸ exec_recoveryOverrun hu hl ha hs hn, h1, h2, h3, h4, h5, h6, h7, h8, ?_⟩
    rw [h9]
    exact State.scheduled_eq _
  · obtain ⟨n, hn⟩ : ∃ n, n = u.recoveryClean * secP := ⟨_, rfl⟩
    obtain ⟨c, hnow⟩ : ∃ c, c = u.now := ⟨_, rfl⟩
    refine ⟨_, exec_recoveryCleanTick hu hl ha hc hn hnow, rfl, fun e => ?_⟩
    rw [← hn, ← hnow]
    exact Vector.getElem_map ..

end Sys2Proof.Machine

/-! SUPPORT. SUPPORT. The hatband's controllers: hand-over, self-tests and the both-failed latch (R409 to R412). -/

namespace Sys2Proof.Machine

section

variable {s t u v w : State} {p q : Port} {d e : Domain} {dt reason : Nat} {c : Ctl} {l : List Domain}

/-! ## Attempts begin anew (R411) -/

theorem State.recoverBegin_lines : (s.recoverBegin d).lines = s.lines := by
  have hp (v : State) (k : Pll) : (v.pllRelease k).lines = v.lines := by cases k <;> rfl
  unfold State.recoverBegin
  split
  case h_2 => exact hp ..
  case h_3 => exact same_foldl (π := State.lines) (fun s p => s.dtsStart p true) (fun _ _ => rfl) bothPorts s
  case h_4 =>
    dsimp only
    split
    · exact hp ..
    · rfl
  all_goals rfl

theorem State.recoverBegin_fenceKept : (s.recoverBegin d).FenceKept s := by simp [State.FenceKept]

/-- A domain in an attempt begins it again from its boundary. -/
def State.restart (s : State) (d : Domain) : State :=
  if (s.dom d).st = .attempt then ((s.setDom d fun x => { x with begun := s.now }).boundary d).recoverBegin d else s

theorem State.restartAttempts_eq : s.restartAttempts = allDomains.foldl State.restart s := rfl

theorem State.restart_lines : (s.restart d).lines = s.lines := by
  unfold State.restart
  split
  · exact State.recoverBegin_lines.trans (State.boundary_driven.lines.trans (State.setDom_driven _).lines)
  · rfl

theorem State.restart_fenceKept : (s.restart d).FenceKept s := by
  unfold State.restart
  split
  · exact State.recoverBegin_fenceKept.trans (State.boundary_fenceKept.trans (State.setDom_fenceKept _))
  · exact .rfl

theorem State.restart_bothFailed : (s.restart d).hb.bothFailed = s.hb.bothFailed := by
  unfold State.restart
  split
  · have h (v : State) : ((v.boundary d).recoverBegin d).hb.bothFailed = v.hb.bothFailed := by simp
    exact h _
  · rfl

/-- The entry of a domain whose attempt, if it is in one, begins at `now`. -/
def Dom.begunAt (x : Dom) (now : Nat) : Dom := if x.st = .attempt then { x with begun := now } else x

theorem Dom.begunAt_st (x : Dom) (now : Nat) : (x.begunAt now).st = x.st ∧ (x.begunAt now).shut = x.shut := by
  unfold Dom.begunAt
  split <;> exact ⟨rfl, rfl⟩

theorem Dom.begunAt_begunAt (x : Dom) (now : Nat) : (x.begunAt now).begunAt now = x.begunAt now := by
  by_cases h : x.st = .attempt
  · have e : x.begunAt now = { x with begun := now } := if_pos h
    rw [e]
    exact if_pos h
  · have e : x.begunAt now = x := if_neg h
    rw [e, e]

theorem State.restart_dom : (s.restart d).dom e = if e = d then (s.dom e).begunAt s.now else s.dom e := by
  have hb (v : State) : ((v.boundary d).recoverBegin d).dom e = v.dom e := by
    have h : (v.boundary d).hb.doms = v.hb.doms := (v.boundary_keeps d).2.2.1
    rw [State.recoverBegin_dom, State.dom, h, State.dom]
  unfold State.restart Dom.begunAt
  by_cases he : e = d
  · subst he
    rw [if_pos rfl]
    split
    · rw [hb, State.setDom_dom, if_pos rfl]
    · rfl
  · rw [if_neg he]
    split
    · rw [hb, State.setDom_dom, if_neg (Ne.symm he)]
    · rfl

theorem State.restarts_facts : (l.foldl State.restart s).lines = s.lines ∧ (l.foldl State.restart s).FenceKept s ∧
    (l.foldl State.restart s).hb.bothFailed = s.hb.bothFailed :=
  List.foldlRecOn (motive := fun v : State => v.lines = s.lines ∧ v.FenceKept s ∧ v.hb.bothFailed = s.hb.bothFailed) l _
    ⟨rfl, .rfl, rfl⟩ fun _ h _ _ => ⟨State.restart_lines.trans h.1, State.restart_fenceKept.trans h.2.1,
      State.restart_bothFailed.trans h.2.2⟩

theorem State.restarts_dom : (l.foldl State.restart s).dom e = if e ∈ l then (s.dom e).begunAt s.now else s.dom e := by
  induction l generalizing s with
  | nil => simp
  | cons d l ih =>
    have hn : (s.restart d).now = s.now := State.restart_fenceKept.2.2.2.2.2.2
    rw [List.foldl_cons, ih, State.restart_dom, hn]
    by_cases he : e = d
    · subst he
      simp [Dom.begunAt_begunAt]
    · simp [he]

theorem State.restartAttempts_dom : s.restartAttempts.dom e = (s.dom e).begunAt s.now := by
  rw [State.restartAttempts_eq, State.restarts_dom]
  simp [allDomains]

theorem State.restartAttempts_of_none (h : ∀ d : Domain, (s.dom d).st ≠ .attempt) : s.restartAttempts = s :=
  List.foldlRecOn (motive := fun v : State => v = s) allDomains State.restart rfl fun v hv d _ => by
    rw [hv]
    exact if_neg (h d)

/-! ## A controller fails (R411) -/

/-- The state of a controller. -/
def State.ctl (s : State) (c : Ctl) : CtlSt := if c = .a then s.hb.ctlA else s.hb.ctlB

/-- The other controller. -/
def otherCtl (c : Ctl) : Ctl := if c = .a then .b else .a

/-- The controller is failed and the other acts. -/
def State.handed (s : State) (c : Ctl) : State :=
  if c = .a then { s with hb := { s.hb with ctlA := .failed, ctlB := .active } }
  else { s with hb := { s.hb with ctlB := .failed, ctlA := .active } }

/-- Where the failed one was active, the other tells the fence mask again and begins attempts in progress anew. -/
def State.tookOver (s : State) (c : Ctl) : State :=
  if s.ctl c = .active then (s.handed c).hbNotice.restartAttempts else s.handed c

theorem State.ctlFailed_eq (ha : s.hb.ctlA ≠ .failed) (hb : s.hb.ctlB ≠ .failed) : ∃ r v, s.ctlFailed c reason =
    (((s.tookOver c).record r).healthRecord 5 0xFF 0x00020001#32 v).warn 0x00020001#32 v true := by
  cases c <;> unfold State.ctlFailed <;> simp only [beq_self_eq_true, reduceIte, reduceCtorEq, beq_iff_eq]
  · rw [if_neg ha, if_neg hb]
    exact ⟨_, _, rfl⟩
  · rw [if_neg hb, if_neg ha]
    exact ⟨_, _, rfl⟩

/-- The controllers after the hand-over. -/
theorem State.handed_parts : ∃ x y, s.handed c = { s with hb := { s.hb with ctlA := x, ctlB := y } } ∧
    (c = .a → x = .failed ∧ y = .active) ∧ (c = .b → y = .failed ∧ x = .active) := by
  cases c
  · exact ⟨_, _, rfl, fun _ => ⟨rfl, rfl⟩, fun h => by cases h⟩
  · exact ⟨_, _, rfl, fun h => (by cases h), fun _ => ⟨rfl, rfl⟩⟩

theorem State.handed_hbTells : (s.handed c).hbTells.mask = BitVec.ofNat 20 s.fenceMask ∧ (s.handed c).hbTells.active = some (otherCtl c) := by
  cases c <;> exact ⟨rfl, rfl⟩

/-- What the hand-over does, whichever controller fails. -/
structure State.HandedOver (t s : State) (c : Ctl) : Prop where
  ctlA : c = .a → t.hb.ctlA = .failed ∧ t.hb.ctlB = .active
  ctlB : c = .b → t.hb.ctlB = .failed ∧ t.hb.ctlA = .active
  selfTest : t.hb.selfTest = s.hb.selfTest
  bothFailed : t.hb.bothFailed = s.hb.bothFailed
  kept : t.FenceKept s
  doms : ∀ d : Domain, (t.dom d).st = (s.dom d).st ∧ t.isShut d = s.isShut d
  taken : s.ctl c = .active → t.hb.notice = some (s.handed c).hbTells ∧ ∀ d : Domain, (s.dom d).st = .attempt → (t.dom d).begun = s.now
  left_ : s.ctl c ≠ .active → t.hb.notice = s.hb.notice

theorem State.tookOver_handedOver : (s.tookOver c).HandedOver s c := by
  obtain ⟨x, y, hm, ha, hb⟩ := s.handed_parts (c := c)
  obtain ⟨m, hme⟩ : ∃ m, m = s.handed c := ⟨_, rfl⟩
  rw [← hme] at hm
  have hdom (d : Domain) : m.dom d = s.dom d := by rw [hm]; rfl
  have hnow : m.now = s.now := by rw [hm]
  by_cases h : s.ctl c = .active
  · obtain ⟨hl, hk, hf⟩ := m.hbNotice.restarts_facts (l := allDomains)
    have ht : s.tookOver c = allDomains.foldl State.restart m.hbNotice := by rw [State.tookOver, if_pos h, hme]; rfl
    have hd (e : Domain) : (s.tookOver c).dom e = (s.dom e).begunAt s.now := by
      rw [ht, ← State.restartAttempts_eq, State.restartAttempts_dom, ← hdom, ← hnow]
      rfl
    rw [← ht] at hl hk hf
    have e1 : (s.tookOver c).hb.ctlA = m.hb.ctlA := (congrArg (fun x => x.2.2.1) hl :)
    have e2 : (s.tookOver c).hb.ctlB = m.hb.ctlB := (congrArg (fun x => x.2.2.2.1) hl :)
    have e3 : (s.tookOver c).hb.selfTest = m.hb.selfTest := (congrArg (fun x => x.2.2.2.2.2) hl :)
    have e4 : (s.tookOver c).hb.notice = some m.hbTells := (congrArg (fun x => x.2.1) hl :)
    refine ⟨fun hc => ?_, fun hc => ?_, ?_, ?_, hk.trans ?_, fun d => ?_, fun _ => ⟨?_, fun d hs => ?_⟩, fun k => absurd h k⟩
    · rw [e1, e2, hm]; exact ha hc
    · rw [e1, e2, hm]; exact hb hc
    · rw [e3, hm]
    · rw [hf, hm]; rfl
    · rw [hm]; exact .rfl
    · rw [State.isShut, hd]
      exact Dom.begunAt_st ..
    · rw [e4, hme]
    · rw [hd, Dom.begunAt, if_pos hs]
  · have ht : s.tookOver c = m := by rw [State.tookOver, if_neg h, hme]
    rw [ht, hm]
    exact ⟨ha, hb, rfl, rfl, .rfl, fun _ => ⟨rfl, rfl⟩, fun k => absurd k h, fun _ => rfl⟩

/-- Where there is nothing to begin anew, the hatband alone changes. -/
theorem State.tookOver_hb (h : s.ctl c ≠ .active ∨ ∀ d : Domain, (s.dom d).st ≠ .attempt) :
    s.tookOver c = { s with hb := (s.tookOver c).hb } := by
  obtain ⟨x, y, hm, -⟩ := s.handed_parts (c := c)
  unfold State.tookOver
  split
  · next ha =>
    have hd : ∀ d : Domain, ((s.handed c).hbNotice.dom d).st ≠ .attempt := by
      rw [hm]
      exact h.resolve_left fun k => k ha
    rw [State.restartAttempts_of_none hd, hm]
    rfl
  · rw [hm]

theorem State.HandedOver.of_reports (h : u.HandedOver s c) (k : OnlyReports t u) : t.HandedOver s c := by
  have hA : t.hb.ctlA = u.hb.ctlA := (congrArg (fun x : State => x.hb.ctlA) k :)
  have hB : t.hb.ctlB = u.hb.ctlB := (congrArg (fun x : State => x.hb.ctlB) k :)
  have hS : t.hb.selfTest = u.hb.selfTest := (congrArg (fun x : State => x.hb.selfTest) k :)
  have hF : t.hb.bothFailed = u.hb.bothFailed := (congrArg (fun x : State => x.hb.bothFailed) k :)
  have hD (d : Domain) : t.dom d = u.dom d := (congrArg (fun x : State => x.dom d) k :)
  have hN : t.hb.notice = u.hb.notice := (congrArg (fun x : State => x.hb.notice) k :)
  obtain ⟨h1, h2, h3, h4, h5, h6, h7, h8⟩ := h
  exact ⟨by rw [hA, hB]; exact h1, by rw [hA, hB]; exact h2, hS.trans h3, hF.trans h4, k.fenceKept.trans h5,
    fun d => by rw [State.isShut, hD]; exact h6 d, by simp only [hN, hD]; exact h7, by rw [hN]; exact h8⟩

/-- The failure of a controller while both work. -/
theorem State.ctlFailed_facts (ha : s.hb.ctlA ≠ .failed) (hb : s.hb.ctlB ≠ .failed) (hf : s.hb.bothFailed = false)
    (ht : t = s.ctlFailed c reason) : t.HandedOver s c ∧ t.warned 0x00020001#32 = true ∧
    (s.ctl c ≠ .active ∨ (∀ d : Domain, (s.dom d).st ≠ .attempt) → OnlyReports t { s with hb := t.hb }) := by
  obtain ⟨r, z, e⟩ := s.ctlFailed_eq (c := c) (reason := reason) ha hb
  obtain ⟨x, hx⟩ : ∃ x, x = s.tookOver c := ⟨_, rfl⟩
  obtain ⟨y, hy⟩ : ∃ y, y = (x.record r).healthRecord 5 0xFF 0x00020001#32 z := ⟨_, rfl⟩
  have ht : t = y.warn 0x00020001#32 z true := by rw [ht, e, hy, hx]
  have hxs : x.HandedOver s c := hx ▸ State.tookOver_handedOver
  have hyx : OnlyReports y x := hy ▸ (State.healthRecord_hushed ..).trans (State.record_hushed ..)
  have hty : OnlyReports t y := ht ▸ State.warn_hushed ..
  have hys := hxs.of_reports hyx
  have hact : y.hatbandActs = true := by
    rw [State.hatbandActs, hys.bothFailed, hf]
    cases c with
    | a => rw [(hys.ctlA rfl).1, (hys.ctlA rfl).2]; rfl
    | b => rw [(hys.ctlB rfl).1, (hys.ctlB rfl).2]; rfl
  refine ⟨hys.of_reports hty, ?_, fun h => ?_⟩
  · rw [ht]
    exact State.warn_warned _ _ _ _ hact
  · have h1 : OnlyReports t { s with hb := x.hb } := (hty.trans hyx).trans (congrArg State.hushed (hx ▸ State.tookOver_hb h))
    exact (congrArg (fun v : State => { v with hb := t.hushed.hb }) h1 :)

end

section

variable {s t u v w : State} {p q : Port} {d e : Domain} {dt reason : Nat} {c : Ctl} {o : Fin 4} {i : Instr}

/-! ## The commands of the controllers (R409 to R411) -/

theorem exec_ctlFails (hu : u = s.elapse dt) (hl : u.live = true) (hf : u.hb.bothFailed = false)
    (hi : i = .hbAliveMissed dt c ∨ i = .hbSelfCheckFail dt c) : ∃ reason, exec i s = .next (u.ctlFailed c reason) := by
  have hg : (u.live && !u.hb.bothFailed) = true := by rw [hl, hf]; rfl
  rcases hi with rfl | rfl
  · refine ⟨0, ?_⟩
    simp only [exec, execHbAliveMissed, ← hu]
    rw [if_pos hg]
  · refine ⟨1, ?_⟩
    simp only [exec, execHbSelfCheckFail, ← hu]
    rw [if_pos hg]

theorem State.ctlFailed_last (ha : u.hb.ctlA ≠ .failed) (hb : u.hb.ctlB = .failed) :
    u.ctlFailed .a reason = { u with hb := { u.hb with ctlA := .failed } } := by
  unfold State.ctlFailed
  simp only [beq_self_eq_true, reduceIte]
  rw [if_neg ha, if_pos hb]

theorem exec_hbDigestExchange (hu : u = s.elapse dt) (hl : u.live = true) (hf : u.hb.bothFailed = false) (ha : u.hb.ctlA ≠ .failed)
    (hb : u.hb.ctlB ≠ .failed) :
    exec (.hbDigestExchange dt false) s = .next { u with hb := { u.hb with selfTest := true } } ∧
    exec (.hbDigestExchange dt true) s = .next u := by
  refine ⟨?_, ?_⟩
  · simp only [exec, execHbDigestExchange, ← hu]
    rw [if_pos (by rw [hl, hf, bne_iff_ne.mpr ha, bne_iff_ne.mpr hb]; rfl)]
  · simp only [exec, execHbDigestExchange, ← hu]
    rw [if_neg (by simp)]

/-- The self-tests have ended. -/
def State.tested (u : State) : State := { u with hb := { u.hb with selfTest := false } }

theorem exec_hbSelfTestDone (hu : u = s.elapse dt) (hl : u.live = true) (ht : u.hb.selfTest = true) (aOk bOk : Bool) :
    exec (.hbSelfTestDone dt aOk bOk) s = .next (match aOk, bOk with
      | true, true => { u.tested with hb := { u.tested.hb with digestMismatch := u.hb.digestMismatch + 1 } }
      | false, true => u.tested.ctlFailed .a 2
      | true, false => u.tested.ctlFailed .b 2
      | false, false => { u.tested with hb := { u.tested.hb with ctlA := .failed, ctlB := .failed } }) := by
  simp only [exec, execHbSelfTestDone, ← hu]
  rw [if_pos (by rw [hl, ht]; rfl)]
  cases aOk <;> cases bOk <;> rfl

/-! ## BOTH_FAILED_LATCH (R412) -/

theorem AlarmOut.setLand_fenced (a : AlarmOut) (on : Bool) (now : Nat) : (a.setLand on now).fenced = a.fenced := by
  unfold AlarmOut.setLand
  split <;> rfl

theorem AlarmOut.follow_fenced (a : AlarmOut) (mode minP now : Nat) (d : Bool) : (a.follow mode minP now d).fenced = a.fenced := by
  unfold AlarmOut.follow
  split
  · rw [AlarmOut.setLand_fenced]
    split <;> rfl
  · split
    · exact AlarmOut.setLand_fenced ..
    · split
      · exact AlarmOut.setLand_fenced ..
      · rfl

/-- The outputs leave their fence states, and only those that held one move. -/
theorem State.alarmsFree_output (s : State) (o : Fin 4) : s.alarmsFree.alarms[o].fenced = false ∧
    (s.alarms[o].fenced = false → s.alarmsFree.alarms[o] = s.alarms[o]) := by
  have h : s.alarmsFree.alarms[o] = if s.alarms[o].fenced then
      { s.alarms[o] with fenced := false }.follow (s.alarmMode o) (s.minAssert o * msP) s.now s.alarms[o].demanded
    else s.alarms[o] := Vector.getElem_ofFn _
  rw [h]
  by_cases hf : s.alarms[o].fenced = true
  · rw [if_pos hf, AlarmOut.follow_fenced]
    exact ⟨rfl, fun k => absurd (hf.symm.trans k) (by decide)⟩
  · rw [if_neg hf]
    exact ⟨Bool.eq_false_iff.mpr hf, fun _ => rfl⟩

/-- The newest record of the store is the one that is written. -/
theorem BlackBox.write_head (b : BlackBox) (r : BbxRec) : (b.write r).slots.head? = some (some { r with seq := b.nextSeq }) := by
  unfold BlackBox.write
  rw [List.head?_take, if_neg (by decide)]
  rfl

/-- The record of the hardware itself is written at once, before what waits (R412). -/
theorem State.hardwiredRecord_facts (r : BbxRec) (ht : t = s.hardwiredRecord r) : t = { s with bbx := t.bbx } ∧
    (∃ x, t.bbx.slots.head? = some (some x) ∧ x.kind = r.kind ∧ x.flags = 4) ∧ t.bbx.hardwired = s.bbx.hardwired + 1 := by
  obtain ⟨b, hb, hh⟩ : ∃ b : BlackBox, s.hardwiredRecord r =
      { s with bbx := { b.write { r with flags := 4 } with hardwired := b.hardwired + 1 } } ∧ b.hardwired = s.bbx.hardwired := by
    unfold State.hardwiredRecord
    split
    · exact ⟨_, rfl, rfl⟩
    · exact ⟨_, rfl, rfl⟩
  rw [ht, hb]
  exact ⟨rfl, ⟨_, BlackBox.write_head b _, rfl, rfl⟩, congrArg (· + 1) hh⟩

/-- The latch is set and the outputs follow their demands. -/
def State.latched (u : State) : State := { u with hb := { u.hb with bothFailed := true } }.alarmsFree

theorem exec_bothFailedLatch (hu : u = s.elapse dt) (hl : u.live = true) (hf : u.hb.bothFailed = false) (ha : u.hb.ctlA = .failed)
    (hb : u.hb.ctlB = .failed) : exec (.bothFailedLatch dt) s = .next (u.latched.hardwiredRecord (u.latched.bbxRec 0x0031 0xFF 0 0
      (le 4 u.latched.fenceMask ++ le 4 (reportMask u.latched.hb.reports).toNat))) := by
  simp only [exec, execBothFailedLatch, ← hu]
  rw [if_pos (by rw [hl, hf, ha, hb]; rfl)]
  rfl

theorem State.healthAsserted_of_latched (h : t.hb.bothFailed = true) : t.healthAsserted = true := by
  rw [State.healthAsserted, h, Bool.or_true, Bool.true_or]

end

/-- Settles O56: a failure hands over, and where the failed controller was active the attempts begin anew. -/
theorem controllersFail : Obligations.ControllersFail := by
  unfold Obligations.ControllersFail
  intro s u dt hu hl hf
  refine ⟨fun c i hi ha hb => ?_, fun i hi ha hb => ?_, fun ha hb => exec_hbDigestExchange hu hl hf ha hb, fun ht => ⟨?_, ?_, ?_⟩,
    fun ha hb => ?_⟩
  · obtain ⟨reason, e⟩ := exec_ctlFails hu hl hf hi
    obtain ⟨t, ht⟩ : ∃ t, t = u.ctlFailed c reason := ⟨_, rfl⟩
    obtain ⟨h, hw, hr⟩ := State.ctlFailed_facts ha hb hf ht
    obtain ⟨hm, hp, hpw, -⟩ := h.kept
    refine ⟨t, ht ▸ e, h.bothFailed.trans hf, hp, hpw, hm, hr, h.ctlA, h.ctlB, hw, h.doms, ?_⟩
    by_cases k : u.ctl c = .active
    · obtain ⟨hn, hd⟩ := h.taken k
      obtain ⟨h1, h2⟩ := u.handed_hbTells (c := c)
      exact (if_pos k).mpr ⟨⟨_, hn, h1, h2⟩, hd⟩
    · exact (if_neg k).mpr (h.left_ k)
  · obtain ⟨reason, e⟩ := exec_ctlFails hu hl hf hi
    rw [e, State.ctlFailed_last ha hb]
  · exact exec_hbSelfTestDone hu hl ht true true
  · exact exec_hbSelfTestDone hu hl ht false false
  · intro ha hb
    obtain ⟨v, hv⟩ : ∃ v, v = u.tested := ⟨_, rfl⟩
    have hk : v.FenceKept u := hv ▸ .rfl
    obtain ⟨va, vb, vf, vs⟩ : v.hb.ctlA ≠ .failed ∧ v.hb.ctlB ≠ .failed ∧ v.hb.bothFailed = false ∧ v.hb.selfTest = false := by
      rw [hv]
      exact ⟨ha, hb, hf, rfl⟩
    obtain ⟨x, hx⟩ : ∃ x, x = v.ctlFailed .a 2 := ⟨_, rfl⟩
    obtain ⟨y, hy⟩ : ∃ y, y = v.ctlFailed .b 2 := ⟨_, rfl⟩
    obtain ⟨hX, -⟩ := State.ctlFailed_facts va vb vf hx
    obtain ⟨hY, -⟩ := State.ctlFailed_facts va vb vf hy
    obtain ⟨xm, xp, xw, -⟩ := hX.kept.trans hk
    obtain ⟨ym, yp, yw, -⟩ := hY.kept.trans hk
    refine ⟨⟨x, ?_, (hX.ctlA rfl).1, (hX.ctlA rfl).2, hX.selfTest.trans vs, xp, xw, xm⟩,
      y, ?_, (hY.ctlB rfl).1, (hY.ctlB rfl).2, hY.selfTest.trans vs, yp, yw, ym⟩
    · rw [hx, hv]
      exact exec_hbSelfTestDone hu hl ht false true
    · rw [hy, hv]
      exact exec_hbSelfTestDone hu hl ht true false
  · obtain ⟨v, hv⟩ : ∃ v, v = u.latched := ⟨_, rfl⟩
    obtain ⟨r, hr⟩ : ∃ r, r = v.bbxRec 0x0031 0xFF 0 0 (le 4 v.fenceMask ++ le 4 (reportMask v.hb.reports).toNat) := ⟨_, rfl⟩
    obtain ⟨t, ht⟩ : ∃ t, t = v.hardwiredRecord r := ⟨_, rfl⟩
    obtain ⟨hfr, ⟨x, hx, hk, hfl⟩, hh⟩ := State.hardwiredRecord_facts r ht
    have e := exec_bothFailedLatch hu hl hf ha hb
    rw [← hv, ← hr, ← ht] at e
    have hvu : v = { u with
        hb := { u.hb with bothFailed := true }
        alarms := v.alarms } := by rw [hv]; rfl
    have hta : t.alarms = v.alarms := by rw [hfr]
    have hbox : v.bbx = u.bbx := by rw [hvu]
    have hthb : t.hb.bothFailed = true := by rw [hfr, hvu]
    refine ⟨t, e, ?_, State.healthAsserted_of_latched hthb, fun o => ?_, ⟨x, hx, by rw [hk, hr]; rfl, hfl⟩, by rw [hh, hbox]⟩
    · rw [hta]
      exact hfr.trans (congrArg (fun x : State => { x with bbx := t.bbx }) hvu :)
    · rw [hta, hv]
      exact State.alarmsFree_output _ o

end Sys2Proof.Machine

/-! SUPPORT. SUPPORT. The real-time writer and snapshots (R310, R314 to R319, R321). -/

namespace Sys2Proof.Machine

section

variable {s t u v w : State} {dt : Nat} {ring k : Fin 3} {i : RtItem} {rest : List RtItem}

/-! ## Changes of the memory alone -/

/-- A state that differs from `u` in its memory, after reports. -/
theorem OnlyReports.memOnly (h : OnlyReports t w) (k : w = { u with mem := w.mem }) : OnlyReports t { u with mem := t.mem } := by
  have hm : t.hushed.mem = w.hushed.mem := (congrArg State.mem h :)
  have hw : w.hushed = { u.hushed with mem := w.hushed.mem } := (congrArg State.hushed k :)
  exact h.trans (hw.trans (congrArg (fun m => { u.hushed with mem := m }) hm.symm :))

/-! ## RT_ITEM_ARRIVAL (R310, R321) -/

/-- The item has left its way to the ring. -/
def State.itemTaken (u : State) (ring : Fin 3) (rest : List RtItem) : State :=
  u.setMem fun m => { m with items := m.items.set ring rest }

theorem exec_rtItemArrival_fenced (hu : u = s.elapse dt) (hi : u.mem.items[ring] = i :: rest) (hs : u.isShut 13 = true) :
    exec (.rtItemArrival dt ring) s = .next ((u.itemTaken ring rest).fencedFlits (flits i.size)) := by
  simp only [exec, execRtItemArrival, ← hu, hi]
  rw [if_pos hs]
  rfl

theorem State.ringsOpen_unfenced (h : u.ringsOpen = true) : u.isShut 13 = false := by
  rw [State.ringsOpen] at h
  simpa using (Bool.and_eq_true_iff.mp h).2

theorem exec_rtItemArrival_open (hu : u = s.elapse dt) (hi : u.mem.items[ring] = i :: rest) (ho : u.ringsOpen = true) :
    exec (.rtItemArrival dt ring) s = .next (if !i.begun && u.mem.rings[ring].skip != 0 then (u.itemTaken ring rest).rtSkipped ring i
      else if u.mem.queueLevel + min i.size pieceBytes > queueBytes then (u.itemTaken ring rest).rtOverflow ring i
      else u.rtPiece ring i rest) := by
  have hs := State.ringsOpen_unfenced ho
  simp only [exec, execRtItemArrival, ← hu, hi]
  rw [if_neg (by rw [hs]; decide), if_neg (by rw [ho]; decide)]
  split
  · rfl
  · split <;> rfl

theorem State.not_skipped (h : i.begun = true ∨ u.mem.rings[ring].skip = 0) : ¬(!i.begun && u.mem.rings[ring].skip != 0) = true := by
  rcases h with h | h <;> rw [h] <;> simp

theorem State.rtSkipped_facts (ht : t = (u.itemTaken ring rest).rtSkipped ring i) : t = { u with mem := t.mem } ∧
    t.mem.items = u.mem.items.set ring rest ∧ t.mem.discards = u.mem.discards + 1 ∧ t.mem.rt = u.mem.rt ∧
    t.mem.cells = u.mem.cells ∧ ∀ k, k ≠ ring → t.mem.rings[k] = u.mem.rings[k] := by
  subst ht
  exact ⟨rfl, rfl, rfl, rfl, rfl, fun k hk => upd_get_other _ _ hk⟩

/-- The ring and the queue after an overflow, before it is recorded (R310). -/
theorem State.rtOverflow_cases (s : State) (ring : Fin 3) (i : RtItem) : ∃ (r : Ring) (n : U64) (d : Option Nat) (v : State),
    v = s.setMem (fun m => { m with
      rings := m.rings.set ring r
      rt := m.rt.filter fun a => !(a.ring == ring.val && some a.seq == s.mem.rings[ring].openSeg.map (·.seq))
      discards := n
      discardLogged := d }) ∧ r.openSeg = none ∧ r.lost = true ∧ (s.rtOverflow ring i = v ∨ ∃ b, s.rtOverflow ring i = v.record b) := by
  unfold State.rtOverflow
  extract_lets r x n room kept r' r'' v quiet
  have hv : v = s.setMem (fun m => { m with
      rings := m.rings.set ring r''
      rt := m.rt.filter fun a => !(a.ring == ring.val && some a.seq == s.mem.rings[ring].openSeg.map (·.seq))
      discards := m.discards + BitVec.ofNat 64 n
      discardLogged := m.discardLogged }) := rfl
  split
  · exact ⟨r'', _, _, v, hv, rfl, rfl, .inl rfl⟩
  · exact ⟨r'', _, some v.now, v.setMem fun m => { m with discardLogged := some v.now }, rfl, rfl, rfl, .inr ⟨_, rfl⟩⟩

theorem State.rtOverflow_facts (ht : t = (u.itemTaken ring rest).rtOverflow ring i) : OnlyReports t { u with mem := t.mem } ∧
    t.mem.rings[ring].openSeg = none ∧ t.mem.rings[ring].lost = true ∧
    (∀ a ∈ t.mem.rt, a ∈ u.mem.rt ∧ ∀ x, u.mem.rings[ring].openSeg = some x → a.ring = ring.val → a.seq ≠ x.seq) ∧
    t.mem.cells = u.mem.cells ∧ ∀ k, k ≠ ring → t.mem.rings[k] = u.mem.rings[k] := by
  obtain ⟨r, n, d, v, hv, ho, hl, hr⟩ := State.rtOverflow_cases (u.itemTaken ring rest) ring i
  have htv : OnlyReports t v := by
    rw [ht]
    rcases hr with h | ⟨b, h⟩ <;> rw [h]
    · rfl
    · exact State.record_hushed ..
  have hrings : t.mem.rings = u.mem.rings.set ring r :=
    (congrArg (fun x : State => x.mem.rings) htv :).trans (by rw [hv]; rfl)
  have hsame : t.mem.rings[ring] = r := by rw [hrings]; exact set_get_same ..
  have hrt : t.mem.rt = u.mem.rt.filter fun a => !(a.ring == ring.val && some a.seq == u.mem.rings[ring].openSeg.map (·.seq)) :=
    (congrArg (fun x : State => x.mem.rt) htv :).trans (by rw [hv]; rfl)
  refine ⟨htv.memOnly (by rw [hv]; rfl), by rw [hsame, ho], by rw [hsame, hl], fun a ha => ?_, ?_, fun k hk => ?_⟩
  · rw [hrt] at ha
    obtain ⟨hm, hf⟩ := List.mem_filter.mp ha
    refine ⟨hm, fun x hx hring hseq => ?_⟩
    rw [hx, hring, hseq] at hf
    simp at hf
  · exact (congrArg (fun x : State => x.mem.cells) htv :).trans (by rw [hv]; rfl)
  · rw [hrings]
    exact set_get_other _ _ hk

/-- A piece that enters its ring: the segments of the ring alone move, and its accesses wait behind the others. -/
theorem State.rtPiece_cases (s : State) (ring : Fin 3) (i : RtItem) (rest : List RtItem) : ∃ (r : Ring) (new : List Access)
    (its : Vector (List RtItem) 3) (n : Nat) (pk : U32), s.rtPiece ring i rest = { s with
        free := n
        mem := { s.mem with
          rings := s.mem.rings.set ring r
          rt := s.mem.rt ++ new
          requestAt := s.now
          items := its
          queuePeak := pk } } ∧
      (i.prec = none → i.bytes.length ≤ pieceBytes → its = s.mem.items.set ring rest) := by
  refine ⟨_, _, _, _, _, rfl, fun hp hl => ?_⟩
  have hn : (if i.begun then (s.mem.rings[ring], i) else s.mem.rings[ring].number i).2 = i := by
    split
    · rfl
    · rw [Ring.number, hp]
  have hd : (i.bytes.drop pieceBytes).isEmpty = true := by rw [List.drop_eq_nil_of_le hl]; rfl
  rw [hn, if_pos hd]
  rfl

/-! ## RING_FLUSH (R317) -/

theorem Ring.closeSeg_parts (r : Ring) (x : Segment) (k ring now : Nat) (flushed : Bool) : ∃ pre a,
    r.closeSeg x k ring now flushed = ({ r with openSeg := none }, pre ++ [a]) ∧ a.last = true ∧ a.seq = x.seq ∧ a.addr = r.slot x.seq :=
  ⟨_, _, rfl, rfl, rfl, rfl⟩

theorem exec_ringFlush {x : Segment} (hu : u = s.elapse dt) (hx : u.mem.rings[ring].openSeg = some x) (ho : u.ringsOpen = true)
    (hm : u.memFlushMs ≠ 0) (hw : ∀ i rest, u.mem.items[ring] = i :: rest → i.begun = false) (hp : x.payload ≠ [])
    (hd : u.mem.rings[ring].lastAt + u.memFlushMs * msP ≤ u.now) : ∃ (c : Ring × List Access) (pk : U32) (n : Nat),
      c = u.mem.rings[ring].closeSeg x u.free ring.val u.now true ∧ exec (.ringFlush dt ring) s = .next { u with
        free := n
        mem := { u.mem with
          rings := u.mem.rings.set ring c.1
          rt := u.mem.rt ++ c.2
          requestAt := u.now
          queuePeak := pk } } := by
  have hp' : (!x.payload.isEmpty) = true := by simpa using hp
  simp only [exec, execRingFlush, ← hu, hx]
  rw [if_pos]
  rotate_left
  · rw [ho, bne_iff_ne.mpr hm, decide_eq_true hd, hp']
    cases hl : u.mem.items[ring] with
    | nil => rfl
    | cons i rest => simp [hw i rest hl]
  exact ⟨_, _, _, rfl, rfl⟩

end

section

variable {s t u v w : State} {dt : Nat} {q : SnapReq}

/-! ## Errors of words (R299) -/

/-- The counters of words with errors may move. -/
def State.EccMoves (t s : State) : Prop := ∃ (r : List (Nat × Nat × Nat)) (c b a : U64), OnlyReports t (s.setMem fun m => { m with
  eccRecent := r
  eccCorrected := c
  eccUncorrected := b
  eccLastAddr := a })

theorem State.memErrors_eccMoves (corrected : Nat) (bad : List Nat) : (s.memErrors corrected bad).EccMoves s := by
  unfold State.memErrors
  split
  · exact ⟨_, _, _, _, rfl⟩
  · extract_lets recent nc nb v w
    have hw : OnlyReports w v := by
      simp only [w]
      split
      · unfold State.memWarn
        refine (State.warn_hushed ..).trans ?_
        split
        · rfl
        · exact State.record_hushed ..
      · rfl
    refine ⟨_, _, _, _, OnlyReports.trans ?_ hw⟩
    split <;> rfl

/-- What the counters of words leave of the memory. -/
theorem State.EccMoves.parts (h : t.EccMoves s) (hm : s = { u with mem := s.mem }) : OnlyReports t { u with mem := t.mem } ∧
    t.mem.cells = s.mem.cells ∧ t.mem.requests = s.mem.requests ∧ t.mem.rings = s.mem.rings ∧ t.mem.copying = s.mem.copying ∧
    t.mem.pool = s.mem.pool ∧ t.mem.stored = s.mem.stored ∧ t.mem.snap = s.mem.snap ∧ t.mem.host = s.mem.host ∧ t.mem.rt = s.mem.rt ∧
    t.mem.scrub = s.mem.scrub ∧ t.mem.scrubAddr = s.mem.scrubAddr ∧ t.mem.ports = s.mem.ports := by
  obtain ⟨r, c, b, a, h⟩ := h
  refine ⟨h.memOnly (congrArg (fun x : State => x.setMem fun m => { m with
      eccRecent := r
      eccCorrected := c
      eccUncorrected := b
      eccLastAddr := a }) hm :), ?_⟩
  have e {α : Type} (f : Mem → α) (hf : ∀ m : Mem, ∀ x, f { m with items := x } = f m)
      (hg : ∀ m : Mem, f { m with eccRecent := r, eccCorrected := c, eccUncorrected := b, eccLastAddr := a } = f m) :
      f t.mem = f s.mem := by
    have k : f t.hushed.mem = f s.mem :=
      (congrArg (fun x : State => f x.mem) h :).trans ((hf _ _).trans (hg _))
    exact (hf t.mem (Vector.replicate 3 [])).symm.trans k
  exact ⟨e Mem.cells (fun _ _ => rfl) (fun _ => rfl), e Mem.requests (fun _ _ => rfl) (fun _ => rfl),
    e Mem.rings (fun _ _ => rfl) (fun _ => rfl), e Mem.copying (fun _ _ => rfl) (fun _ => rfl), e Mem.pool (fun _ _ => rfl) (fun _ => rfl),
    e Mem.stored (fun _ _ => rfl) (fun _ => rfl), e Mem.snap (fun _ _ => rfl) (fun _ => rfl), e Mem.host (fun _ _ => rfl) (fun _ => rfl),
    e Mem.rt (fun _ _ => rfl) (fun _ => rfl), e Mem.scrub (fun _ _ => rfl) (fun _ => rfl), e Mem.scrubAddr (fun _ _ => rfl) (fun _ => rfl),
    e Mem.ports (fun _ _ => rfl) (fun _ => rfl)⟩

/-! ## SNAPSHOT_COPY (R318, R319) -/

/-- The last access of a copy is marked. -/
theorem markLast_last (l : List Access) (h : l ≠ []) : ∃ a, (markLast l).getLast? = some a ∧ a.last = true := by
  induction l with
  | nil => exact absurd rfl h
  | cons a l ih =>
    cases l with
    | nil => exact ⟨_, rfl, rfl⟩
    | cons b l =>
      obtain ⟨x, hx, hl⟩ := ih (List.cons_ne_nil b l)
      have hne : markLast (b :: l) ≠ [] := fun h => by rw [h] at hx; cases hx
      refine ⟨x, ?_, hl⟩
      rw [markLast, List.getLast?_cons_of_ne_nil hne, hx]
      · simp

/-- A snapshot of some bytes has accesses to write. -/
theorem poolAccesses_ne_nil (m : Mem) (k : Nat) (id : U32) (time : U64) (now : Nat) (starts : List Nat) (seq done : Nat)
    {b : List Byte} (h : segsOf b.length ≠ 0) : poolAccesses m k id time now starts (segsOf b.length) seq done b ≠ [] := by
  obtain ⟨n, hn⟩ := Nat.exists_eq_succ_of_ne_zero h
  have hb : b.isEmpty = false := by
    cases b with
    | nil => exact absurd rfl h
    | cons => rfl
  rw [hn, poolAccesses, if_neg (by rw [hb]; decide)]
  simp

/-- The request has been taken, before its copy takes a segment. -/
def State.requestTaken (u : State) (id : U32) (n : Nat) : State :=
  ({ u with free := n }).setMem fun m => { m with requests := m.requests.filter fun x => x.id != id }

/-- The copy waits at the SNAP port, and its segments of the pool are taken. -/
def State.copyBegun (v : State) (c : SnapCopy) (segs total now : Nat) (recSeq : U32) (accesses : List Access) : State :=
  v.setMem fun m => { m with
    copying := some c
    stored := (m.stored.filter fun x => decide (c.seg + segs ≤ x.seg + total)) ++ [{ id := c.req.id, seg := c.seg, segs := segs }]
    pool := { m.pool with seq := m.pool.seq + segs, recSeq := recSeq }
    snap := markLast accesses
    requestAt := now }

/-- A snapshot that is cut short is counted. -/
def State.truncated (u : State) : State := u.setEvt fun e => { e with snapTruncated := e.snapTruncated + 1 }

theorem exec_snapshotCopy {poisoned : List Nat} (hu : u = s.elapse dt) (hq : u.mem.requests.find? u.snapReady = some q) (hp : q.port < 2)
    (hs : u.memServes = true) (ho : u.ringsOpen = true) (hc : u.mem.copying = none) :
    ∃ (z : State) (n flags total : Nat) (rows : List Row) (recSeq : U32) (reads : List Access) (starts : List Nat) (b : List Byte),
      (z = u ∨ z = u.truncated) ∧ exec (.snapshotCopy dt poisoned) s = .next (if segsOf b.length = 0 then z.requestTaken q.id n else
        ((z.requestTaken q.id n).copyBegun { req := q, seg := u.mem.pool.seq + 1, flags := flags, rows := rows } (segsOf b.length) total z.now
          recSeq (reads ++ poolAccesses u.mem u.free q.id u.devTime u.now starts (segsOf b.length) (u.mem.pool.seq + 1) 0 b)).memErrors
            0 poisoned) := by
  have hx : exec (.snapshotCopy dt poisoned) s = execSnapshotCopy dt poisoned s := rfl
  obtain ⟨o, hx'⟩ : ∃ o, o = exec (.snapshotCopy dt poisoned) s := ⟨_, rfl⟩
  rw [← hx']
  rw [hx, execSnapshotCopy, ← hu, hq] at hx'
  dsimp -zeta only at hx'
  rw [dif_pos hp, if_pos (by rw [hs, ho, hc]; rfl)] at hx'
  extract_lets p r rows flags kept flags' recs out segs seg reads writes total z v1 v2 v3 at hx'
  have hz : z = u ∨ z = u.truncated := by
    simp only [z]
    split
    · exact .inl rfl
    · exact .inr rfl
  refine ⟨z, z.free + 4 * segs + 4, flags', total, kept, out.1, reads, recStarts 0 (recs.map PRec.size), out.2, hz, ?_⟩
  clear_value z
  rw [hx']
  by_cases h : segs = 0
  · rw [if_pos h, if_pos (show segsOf out.2.length = 0 from h)]
    rfl
  · rw [if_neg h, if_neg (show ¬segsOf out.2.length = 0 from h)]
    rfl

/-- What a copy takes and leaves. -/
theorem State.copyBegun_facts {poisoned : List Nat} {z : State} {n flags total segs : Nat} {rows : List Row} {recSeq : U32}
    {reads writes : List Access} (hz : z = u ∨ z = u.truncated) (hn : segs ≠ 0 → writes ≠ [])
    (ht : t = if segs = 0 then z.requestTaken q.id n else
        ((z.requestTaken q.id n).copyBegun { req := q, seg := u.mem.pool.seq + 1, flags := flags, rows := rows } segs total z.now
          recSeq (reads ++ writes)).memErrors 0 poisoned) :
    OnlyReports t { u with mem := t.mem, free := t.free, evt := t.evt } ∧
      (t.evt = u.evt ∨ t.evt = { u.evt with snapTruncated := u.evt.snapTruncated + 1 }) ∧
      t.mem.requests = u.mem.requests.filter (fun x => x.id != q.id) ∧ t.mem.cells = u.mem.cells ∧ t.mem.rings = u.mem.rings ∧
      ((t.mem.copying = u.mem.copying ∧ t.mem.pool = u.mem.pool ∧ t.mem.stored = u.mem.stored) ∨
        ∃ c n, t.mem.copying = some c ∧ c.req = q ∧ c.seg = u.mem.pool.seq + 1 ∧ 0 < n ∧
          t.mem.pool.seq = u.mem.pool.seq + n ∧ t.mem.stored.getLast? = some { id := q.id, seg := c.seg, segs := n } ∧
          ∃ a, t.mem.snap.getLast? = some a ∧ a.last = true) := by
  obtain ⟨y, hy⟩ : ∃ y, y = z.requestTaken q.id n := ⟨_, rfl⟩
  have hyu : y = { u with
      mem := y.mem
      free := y.free
      evt := y.evt } ∧ (y.evt = u.evt ∨ y.evt = { u.evt with snapTruncated := u.evt.snapTruncated + 1 }) ∧
      y.mem = { u.mem with requests := u.mem.requests.filter fun x => x.id != q.id } := by
    rw [hy]
    rcases hz with h | h <;> rw [h]
    · exact ⟨rfl, .inl rfl, rfl⟩
    · exact ⟨rfl, .inr rfl, rfl⟩
  obtain ⟨hyf, hye, hym⟩ := hyu
  rw [← hy] at ht
  by_cases h0 : segs = 0
  · rw [if_pos h0] at ht
    rw [ht, hym]
    exact ⟨congrArg State.hushed (hym ▸ hyf), hye, rfl, rfl, rfl, .inl ⟨rfl, rfl, rfl⟩⟩
  · rw [if_neg h0] at ht
    obtain ⟨v, hv⟩ : ∃ v, v = y.copyBegun { req := q, seg := u.mem.pool.seq + 1, flags := flags, rows := rows } segs total z.now
      recSeq (reads ++ writes) := ⟨_, rfl⟩
    rw [← hv] at ht
    have hvy : v = { y with mem := v.mem } := by rw [hv]; rfl
    obtain ⟨hf, k1, k2, k3, k4, k5, k6, k7, -⟩ := (ht ▸ State.memErrors_eccMoves 0 poisoned : t.EccMoves v).parts hvy
    have htf : t.free = y.free := (congrArg State.free hf :)
    have hte : t.evt = y.evt := (congrArg State.evt hf :)
    have hne : reads ++ writes ≠ [] := fun h => hn h0 (List.append_eq_nil_iff.mp h).2
    obtain ⟨a, ha, hl⟩ := markLast_last _ hne
    refine ⟨?_, hte ▸ hye, ?_, ?_, ?_, .inr ⟨{ req := q, seg := u.mem.pool.seq + 1, flags := flags, rows := rows }, segs, ?_, rfl, rfl,
      Nat.pos_of_ne_zero h0, ?_, ?_, a, ?_, hl⟩⟩
    · rw [htf, hte]
      exact hf.trans (congrArg (fun x : State => ({ x with mem := t.mem } : State).hushed) hyf :)
    · rw [k2, hv]
      exact (congrArg Mem.requests hym :)
    · rw [k1, hv]
      exact (congrArg Mem.cells hym :)
    · rw [k3, hv]
      exact (congrArg Mem.rings hym :)
    · rw [k4, hv]
      rfl
    · rw [k5, hv]
      exact (congrArg (fun m : Mem => m.pool.seq + segs) hym :)
    · rw [k6, hv]
      exact List.getLast?_concat ..
    · rw [k7, hv]
      exact ha

end

/-- Settles O43: an item by the writer's cases, a flush by the segment that it closes, a snapshot by the segments that it takes. -/
theorem ringsAndSnapshots : Obligations.RingsAndSnapshots := by
  unfold Obligations.RingsAndSnapshots
  refine ⟨fun s u dt ring hu => ⟨fun i rest hi => ⟨fun hs => ?_, fun ho hb hk => ?_, fun ho hb hq => ?_, fun ho hb hq => ?_⟩,
    fun x hx ho hm hw hp hd => ?_⟩, fun s u dt poisoned q hu hq hp hs ho hc => ?_⟩
  · exact exec_rtItemArrival_fenced hu hi hs
  · have e := exec_rtItemArrival_open hu hi ho
    rw [if_pos (by rw [hb, bne_iff_ne.mpr hk]; rfl)] at e
    exact ⟨_, e, State.rtSkipped_facts rfl⟩
  · have e := exec_rtItemArrival_open hu hi ho
    rw [if_neg (State.not_skipped hb), if_pos hq] at e
    exact ⟨_, e, State.rtOverflow_facts rfl⟩
  · have e := exec_rtItemArrival_open hu hi ho
    obtain ⟨r, new, its, n, pk, hr, hits⟩ := State.rtPiece_cases u ring i rest
    rw [if_neg (State.not_skipped hb), if_neg (Nat.not_lt.mpr hq), hr] at e
    exact ⟨_, new, e, rfl, rfl, rfl, rfl, hits, fun k hk => set_get_other _ _ hk⟩
  · obtain ⟨c, pk, n, hc, e⟩ := exec_ringFlush hu hx ho hm hw hp hd
    obtain ⟨pre, a, hcs, ha⟩ := Ring.closeSeg_parts u.mem.rings[ring] x u.free ring.val u.now true
    rw [hcs] at hc
    rw [hc] at e
    refine ⟨_, a, e, rfl, set_get_same .., ?_, ha.1, ha.2.1, ha.2.2, rfl, fun k hk => set_get_other _ _ hk⟩
    exact (congrArg List.getLast? (List.append_assoc ..).symm).trans (List.getLast?_concat ..)
  · obtain ⟨z, n, flags, total, rows, recSeq, reads, starts, b, hz, e⟩ := exec_snapshotCopy (poisoned := poisoned) hu hq hp hs ho hc
    have h := State.copyBegun_facts (q := q) (poisoned := poisoned) (n := n) (flags := flags) (total := total) (rows := rows)
      (recSeq := recSeq) (reads := reads) hz
      (fun h => poolAccesses_ne_nil u.mem u.free q.id u.devTime u.now starts (u.mem.pool.seq + 1) 0 (b := b) h) rfl
    rw [hc] at h
    exact ⟨_, e, h⟩

end Sys2Proof.Machine

/-! SUPPORT. SUPPORT. The memory ports: which is served, and what its access does (R299, R300, R305 to R308, R356). -/

namespace Sys2Proof.Machine

section

variable {s t u v w : State} {dt : Nat} {p q : Fin 4}

/-! ## The port to serve (R306 to R308) -/

theorem foldl_max_ge (l : List Nat) (a : Nat) : a ≤ l.foldl max a ∧ ∀ x ∈ l, x ≤ l.foldl max a := by
  induction l generalizing a with
  | nil => exact ⟨Nat.le_refl _, fun x h => by cases h⟩
  | cons b l ih =>
    obtain ⟨h1, h2⟩ := ih (max a b)
    refine ⟨(Nat.le_max_left a b).trans h1, fun x hx => ?_⟩
    rcases List.mem_cons.mp hx with rfl | hx
    · exact (Nat.le_max_right a x).trans h1
    · exact h2 x hx

/-- The ports with a request, and their urgencies, in the order that breaks ties. -/
def State.asking (s : State) : List (Fin 4 × Nat) :=
  ([0, 2, 1, 3] : List (Fin 4)).filterMap fun p => (s.portUrgency p).map fun u => (p, u)

/-- The ports that the panic level leaves. -/
def State.able (s : State) : List (Fin 4 × Nat) :=
  if s.mem.panic = 3 then s.asking.filter fun e => e.1 == 0
  else if s.mem.panic = 2 then s.asking.filter fun e => e.1 == 0 || e.2 == 3 else s.asking

/-- The highest urgency among them, and the ports that have it. -/
def State.topUrgency (s : State) : Nat := (s.able.map (·.2)).foldl max 0
def State.topPorts (s : State) : List (Fin 4) := (s.able.filter fun e => e.2 == s.topUrgency).map (·.1)

theorem State.choosePort_eq (s : State) : s.choosePort = ((s.topPorts.find? s.hits) <|> s.topPorts.head?) := rfl

theorem State.mem_asking {e : Fin 4 × Nat} : e ∈ s.asking ↔ s.portUrgency e.1 = some e.2 := by
  unfold State.asking
  rw [List.mem_filterMap]
  constructor
  · rintro ⟨p, -, h⟩
    obtain ⟨x, hx, rfl⟩ := Option.map_eq_some_iff.mp h
    exact hx
  · intro h
    refine ⟨e.1, ?_, by rw [h]; rfl⟩
    obtain ⟨⟨n, hn⟩, -⟩ := e
    have : n = 0 ∨ n = 1 ∨ n = 2 ∨ n = 3 := by omega
    rcases this with rfl | rfl | rfl | rfl <;> simp

theorem State.able_asking {e : Fin 4 × Nat} (h : e ∈ s.able) : e ∈ s.asking ∧ (s.mem.panic = 3 → e.1 = 0) ∧
    (s.mem.panic = 2 → e.1 = 0 ∨ e.2 = 3) := by
  unfold State.able at h
  split at h
  · next h3 =>
    obtain ⟨hm, he⟩ := List.mem_filter.mp h
    exact ⟨hm, fun _ => by simpa using he, fun h2 => by omega⟩
  · next h3 =>
    split at h
    · obtain ⟨hm, he⟩ := List.mem_filter.mp h
      exact ⟨hm, fun k => absurd k h3, fun _ => by simpa using he⟩
    · next h2 => exact ⟨h, fun k => absurd k h3, fun k => absurd k h2⟩

theorem State.able_of_calm (h : s.mem.panic < 2) : s.able = s.asking := by
  rw [State.able, if_neg (by omega), if_neg (by omega)]

theorem State.mem_topPorts : p ∈ s.topPorts ↔ (p, s.topUrgency) ∈ s.able := by
  unfold State.topPorts
  rw [List.mem_map]
  constructor
  · rintro ⟨e, h, rfl⟩
    obtain ⟨hm, he⟩ := List.mem_filter.mp h
    have he : e.2 = s.topUrgency := by simpa using he
    exact he ▸ hm
  · exact fun h => ⟨_, List.mem_filter.mpr ⟨h, by simp⟩, rfl⟩

/-- The chosen port is one of the most urgent, and one whose row is open where any has one. -/
theorem State.choosePort_top (h : s.choosePort = some p) : p ∈ s.topPorts ∧ ((∃ q ∈ s.topPorts, s.hits q = true) → s.hits p = true) := by
  rw [State.choosePort_eq] at h
  cases hf : s.topPorts.find? s.hits with
  | some q =>
    rw [hf] at h
    obtain rfl : q = p := Option.some.inj h
    exact ⟨List.mem_of_find?_eq_some hf, fun _ => List.find?_some hf⟩
  | none =>
    rw [hf] at h
    refine ⟨List.mem_of_mem_head? h, fun ⟨q, hq, hh⟩ => ?_⟩
    exact absurd hh (List.find?_eq_none.mp hf q hq)

theorem State.choosePort_facts (h : s.choosePort = some p) :
    s.oldestRequest p ≠ none ∧ (s.mem.panic = 3 → p = 0) ∧ (s.mem.panic = 2 → p = 0 ∨ s.portUrgency p = some 3) ∧
     (s.mem.panic < 2 → ∀ (q : Fin 4) (x y : Nat), s.portUrgency p = some x → s.portUrgency q = some y → y ≤ x) ∧
     (s.mem.panic < 2 → ∀ (q : Fin 4) (x : Nat), s.portUrgency p = some x → s.portUrgency q = some x → s.hits q = true → s.hits p = true) := by
  obtain ⟨hp, hh⟩ := State.choosePort_top h
  have ha := State.mem_topPorts.mp hp
  obtain ⟨hm, h3, h2⟩ := State.able_asking ha
  have hu : s.portUrgency p = some s.topUrgency := State.mem_asking.mp hm
  refine ⟨fun hn => ?_, h3, fun k => ?_, fun hc q x y hx hy => ?_, fun hc q x hx hy hq => hh ⟨q, ?_, hq⟩⟩
  · rw [State.portUrgency, hn] at hu
    cases hu
  · rcases h2 k with h | h
    · exact .inl h
    · exact .inr (by rw [hu]; exact congrArg some h)
  · have hx : s.topUrgency = x := Option.some.inj (hu.symm.trans hx)
    have hq : (q, y) ∈ s.able := (State.able_of_calm hc).symm ▸ State.mem_asking.mpr hy
    have hy : y ∈ s.able.map fun (e : Fin 4 × Nat) => e.2 := List.mem_map.mpr ⟨(q, y), hq, rfl⟩
    have hle : y ≤ s.topUrgency := (foldl_max_ge _ 0).2 y hy
    exact hx ▸ hle
  · have hx : s.topUrgency = x := Option.some.inj (hu.symm.trans hx)
    rw [State.mem_topPorts, State.able_of_calm hc, hx]
    exact State.mem_asking.mpr hy

/-! ## Data of an access -/

theorem Mem.store_inside (m : Mem) (a : Access) (h : Memory.wf 0 m.cells = true) {b : List Byte} (hb : a.write = some b) {i : Nat}
    {c : Byte} (hi : b[i]? = some c) : memRead 0 (m.store a).cells (a.addr + i) = c := by
  rw [Mem.store, hb]
  exact memRead_writeAll_inside 0 b m.cells a.addr i c h hi

theorem Mem.store_outside (m : Mem) (a : Access) (h : Memory.wf 0 m.cells = true) {y : Nat}
    (hy : ∀ b, a.write = some b → y < a.addr ∨ a.addr + b.length ≤ y) : memRead 0 (m.store a).cells y = memRead 0 m.cells y := by
  unfold Mem.store
  split
  · next b hb =>
    rcases hy b hb with k | k
    · exact memRead_writeAll_before 0 b m.cells a.addr y h k
    · exact memRead_writeAll_after 0 b m.cells a.addr y h k
  · rfl

/-- A write leaves all but the bytes of DRAM. -/
theorem Mem.store_frame (m : Mem) (a : Access) : m.store a = { m with cells := (m.store a).cells } := by
  unfold Mem.store
  split <;> rfl

/-! ## MEM_ACCESS_BOUNDARY -/

variable {a : AccessMeet}

theorem exec_memAccessBoundary_refresh (hu : u = s.elapse dt) (hs : u.memServes = true) (hp : u.mem.postponed ≠ 0)
    (hm : u.mem.rtMid = false) : exec (.memAccessBoundary dt a) s =
      .next { u with mem := { u.mem with postponed := 0, openRows := [] } } := by
  simp only [exec, execMemAccessBoundary, ← hu]
  rw [if_pos hs, if_pos (by rw [hm, bne_iff_ne.mpr hp]; rfl)]
  rfl

theorem exec_memAccessBoundary (hu : u = s.elapse dt) (hs : u.memServes = true) (hp : u.mem.postponed = 0 ∨ u.mem.rtMid = true) :
    exec (.memAccessBoundary dt a) s = .next (match u.choosePort with
      | none => u
      | some 0 => u.serveRt
      | some 1 => u.serveSnap a.corrected
      | some 2 => u.serveHost a
      | some 3 => u.serveScrub a) := by
  simp only [exec, execMemAccessBoundary, ← hu]
  rw [if_pos hs, if_neg (by rcases hp with h | h <;> rw [h] <;> simp)]
  generalize u.choosePort = c
  rcases c with _ | ⟨_ | _ | _ | _ | n, hn⟩
  case some.succ.succ.succ.succ => omega
  all_goals rfl

theorem exec_scrubRequest (hu : u = s.elapse dt) (hs : u.memServes = true) (hr : u.mem.st = .running) (hh : u.scrubHours ≠ 0)
    (hc : u.mem.scrub = none) (hd : u.scrubHours * 3600 * secP * 64 ≤ (u.now - u.mem.scrubAt) * u.capacity) :
    exec (.scrubRequest dt) s = .next { u with mem := { u.mem with scrub := some (u.now, false), scrubAt := u.now } } := by
  simp only [exec, execScrubRequest, ← hu]
  rw [if_pos (by rw [hs, hr, bne_iff_ne.mpr hh, hc, decide_eq_true hd]; rfl)]
  rfl

end

section

variable {s t u v w : State} {x : Access} {rest : List Access} {p : Fin 4} {m : Mem}

/-! ## Serving an access (R305, R312) -/

/-- Apart from open rows, closed segments, snapshots and reports the served port's access is all that moves. -/
structure State.Serves (t s : State) (m : Mem) : Prop where
  frame : OnlyReports t { s with mem := t.mem }
  rt : t.mem.rt = m.rt
  snap : t.mem.snap = m.snap
  host : t.mem.host = m.host
  scrub : t.mem.scrub = m.scrub
  scrubAddr : t.mem.scrubAddr = m.scrubAddr
  ports : t.mem.ports = m.ports
  cells : t.mem.cells = m.cells

theorem State.Serves.of_setMem (h : t = { s with mem := t.mem }) : t.Serves s t.mem :=
  ⟨congrArg State.hushed h, rfl, rfl, rfl, rfl, rfl, rfl, rfl⟩

/-- The row is touched: nothing else of the memory moves. -/
theorem State.Serves.accessed (h : s = { u with mem := s.mem }) (addr : Nat) : (s.accessed p addr).Serves u s.mem :=
  ⟨congrArg State.hushed (congrArg (fun z : State => z.setMem fun m => { m with openRows := (s.accessed p addr).mem.openRows }) h :),
    rfl, rfl, rfl, rfl, rfl, rfl, rfl⟩

/-- Reports after the access leave it. -/
theorem State.Serves.reports (h : u.Serves s m) (k : OnlyReports t u) : t.Serves s m := by
  obtain ⟨hf, h1, h2, h3, h4, h5, h6, h7⟩ := h
  have hm : t.hushed.mem = u.hushed.mem := (congrArg State.mem k :)
  have e {α : Type} (f : Mem → α) (hi : ∀ (m : Mem) i, f { m with items := i } = f m) : f t.mem = f u.mem :=
    (hi t.mem (Vector.replicate 3 [])).symm.trans ((congrArg f hm).trans (hi u.mem _))
  refine ⟨?_, (e Mem.rt fun _ _ => rfl).trans h1, (e Mem.snap fun _ _ => rfl).trans h2, (e Mem.host fun _ _ => rfl).trans h3,
    (e Mem.scrub fun _ _ => rfl).trans h4, (e Mem.scrubAddr fun _ _ => rfl).trans h5, (e Mem.ports fun _ _ => rfl).trans h6,
    (e Mem.cells fun _ _ => rfl).trans h7⟩
  have hu : u.hushed = { s.hushed with mem := u.hushed.mem } := hf
  exact k.trans (hu.trans (congrArg (fun m => { s.hushed with mem := m }) hm.symm :))

/-- Changes of the memory that leave the ports and the bytes. -/
theorem State.Serves.setMem (h : u.Serves s m) {f : Mem → Mem} (hf : (f u.mem).rt = u.mem.rt ∧ (f u.mem).snap = u.mem.snap ∧
    (f u.mem).host = u.mem.host ∧ (f u.mem).scrub = u.mem.scrub ∧ (f u.mem).scrubAddr = u.mem.scrubAddr ∧
    (f u.mem).ports = u.mem.ports ∧ (f u.mem).cells = u.mem.cells) : (u.setMem f).Serves s m := by
  obtain ⟨hfr, h1, h2, h3, h4, h5, h6, h7⟩ := h
  obtain ⟨k1, k2, k3, k4, k5, k6, k7⟩ := hf
  refine ⟨?_, k1.trans h1, k2.trans h2, k3.trans h3, k4.trans h4, k5.trans h5, k6.trans h6, k7.trans h7⟩
  exact (congrArg (fun z : State => ({ z with mem := { f u.mem with items := Vector.replicate 3 [] } } : State)) hfr :)

theorem State.Serves.ecc (h : u.Serves s m) (k : t.EccMoves u) : t.Serves s m := by
  obtain ⟨r, c, b, a, k⟩ := k
  exact (h.setMem ⟨rfl, rfl, rfl, rfl, rfl, rfl, rfl⟩).reports k

theorem Mem.setRing_parts (m : Mem) (k : Nat) (f : Ring → Ring) : (m.setRing k f).rt = m.rt ∧ (m.setRing k f).snap = m.snap ∧
    (m.setRing k f).host = m.host ∧ (m.setRing k f).scrub = m.scrub ∧ (m.setRing k f).scrubAddr = m.scrubAddr ∧
    (m.setRing k f).ports = m.ports ∧ (m.setRing k f).cells = m.cells := by
  unfold Mem.setRing
  split <;> exact ⟨rfl, rfl, rfl, rfl, rfl, rfl, rfl⟩

/-- A port's count of accesses. -/
def servedPorts (m : Mem) (p : Fin 4) : Vector MemPort 4 := upd m.ports p fun x => { x with accesses := x.accesses + 1 }

theorem servedPorts_accesses (m : Mem) (p : Fin 4) : (servedPorts m p)[p].accesses = m.ports[p].accesses + 1 :=
  congrArg MemPort.accesses (upd_get_same ..)

/-! ### The real-time port -/

theorem State.serveRt_serves (hx : u.mem.rt = x :: rest) :
    u.serveRt.Serves u { u.mem with
      rt := rest
      rtMid := !x.last && !rest.isEmpty
      ports := servedPorts u.mem 0
      cells := (u.mem.store x).cells } := by
  obtain ⟨c, hc⟩ : ∃ c, c = (u.mem.store x).cells := ⟨_, rfl⟩
  have hst : u.mem.store x = { u.mem with cells := c } := hc ▸ Mem.store_frame ..
  unfold State.serveRt
  rw [hx]
  dsimp only
  obtain ⟨z, hz⟩ : ∃ z, z = (u.setMem fun m => { m.store x with rt := rest, rtMid := !x.last && !rest.isEmpty }).served 0 := ⟨_, rfl⟩
  have hzu : z = { u with mem := z.mem } := by rw [hz]; rfl
  have hzm : z.mem = { u.mem with
      cells := c
      rt := rest
      rtMid := !x.last && !rest.isEmpty
      ports := servedPorts u.mem 0 } := by
    rw [hz, State.served, State.setMem, State.setMem, hst]
    rfl
  have h : (z.accessed 0 x.addr).Serves u { u.mem with
      rt := rest
      rtMid := !x.last && !rest.isEmpty
      ports := servedPorts u.mem 0
      cells := c } := by
    have := State.Serves.accessed (p := 0) hzu x.addr
    rw [hzm] at this
    exact this
  rw [← hz, ← hc]
  split
  · exact (h.setMem (Mem.setRing_parts ..)).reports (State.msixEvent_hushed ..)
  · exact h

/-! ### The SNAP port -/

/-- The queue of the copier after an access: what waits, the entering one having just arrived. -/
def snapAfter (rest : List Access) (now : Nat) : List Access :=
  rest.zipIdx.map fun e => if e.2 + 1 = snapQueue then { e.1 with arrived := now } else e.1

theorem snapAfter_addr (rest : List Access) (now : Nat) : (snapAfter rest now).map (·.addr) = rest.map (·.addr) := by
  have h (e : Access × Nat) : (if e.2 + 1 = snapQueue then { e.1 with arrived := now } else e.1).addr = e.1.addr := by split <;> rfl
  unfold snapAfter
  rw [List.map_map]
  have hf : ((fun a : Access => a.addr) ∘ fun e : Access × Nat => if e.2 + 1 = snapQueue then { e.1 with arrived := now } else e.1) =
      (fun a : Access => a.addr) ∘ Prod.fst := funext h
  rw [hf, ← List.map_map, List.zipIdx_map_fst]

theorem State.snapDone_serves (h : u.Serves s m) : u.snapDone.Serves s m := by
  unfold State.snapDone
  split
  · exact h
  · next c _ =>
    extract_lets v w
    have hv : v.Serves s m := h.setMem ⟨rfl, rfl, rfl, rfl, rfl, rfl, rfl⟩
    have hw : w.Serves s m := hv.reports (State.msixEvent_hushed ..)
    split
    · refine hw.reports (hushed_foldl _ (fun z r => ?_) _ _)
      split
      · exact hushed_foldl _ (fun z q => State.toRoute_hushed z r q) _ _
      · rfl
    · exact hw

theorem State.serveSnap_serves (corrected : Nat) (hx : u.mem.snap = x :: rest) : (u.serveSnap corrected).Serves u { u.mem with
      snap := snapAfter rest u.now
      snapOverdue := false
      requestAt := u.now
      ports := servedPorts u.mem 1
      cells := (u.mem.store x).cells } := by
  obtain ⟨c, hc⟩ : ∃ c, c = (u.mem.store x).cells := ⟨_, rfl⟩
  have hst : u.mem.store x = { u.mem with cells := c } := hc ▸ Mem.store_frame ..
  obtain ⟨z, hz⟩ : ∃ z, z = (u.setMem fun m => { m.store x with
    snap := snapAfter rest u.now
    snapOverdue := false
    requestAt := u.now }).served 1 := ⟨_, rfl⟩
  have hzu : z = { u with mem := z.mem } := by rw [hz]; rfl
  have hzm : z.mem = { u.mem with
      cells := c
      snap := snapAfter rest u.now
      snapOverdue := false
      requestAt := u.now
      ports := servedPorts u.mem 1 } := by
    rw [hz, State.served, State.setMem, State.setMem, hst]
    rfl
  have h : (z.accessed 1 x.addr).Serves u { u.mem with
      snap := snapAfter rest u.now
      snapOverdue := false
      requestAt := u.now
      ports := servedPorts u.mem 1
      cells := c } := by
    have := State.Serves.accessed (p := 1) hzu x.addr
    rw [hzm] at this
    exact this
  have he : u.serveSnap corrected = if x.last then
      (if x.write.isNone then (z.accessed 1 x.addr).memErrors corrected [] else z.accessed 1 x.addr).snapDone
      else (if x.write.isNone then (z.accessed 1 x.addr).memErrors corrected [] else z.accessed 1 x.addr) := by
    rw [hz]
    unfold State.serveSnap
    rw [hx]
    rfl
  have hm : (if x.write.isNone then (z.accessed 1 x.addr).memErrors corrected [] else z.accessed 1 x.addr).Serves u { u.mem with
      snap := snapAfter rest u.now
      snapOverdue := false
      requestAt := u.now
      ports := servedPorts u.mem 1
      cells := c } := by
    split
    · exact h.ecc (State.memErrors_eccMoves ..)
    · exact h
  rw [he, ← hc]
  split
  · exact State.snapDone_serves hm
  · exact hm

/-! ### The patrol scrub -/

theorem State.serveScrub_serves (a : AccessMeet) {y : Nat × Bool} (hx : u.mem.scrub = some y) : (u.serveScrub a).Serves u { u.mem with
      scrub := none
      scrubAddr := if u.mem.scrubAddr + 64 < u.capacity then u.mem.scrubAddr + 64 else 0
      ports := servedPorts u.mem 3 } := by
  unfold State.serveScrub
  rw [hx]
  dsimp only
  exact (State.Serves.accessed (p := 3) rfl _).ecc (State.memErrors_eccMoves ..)

end

section

variable {s t u v w y z : State} {h g : HostRead} {rest : List HostRead} {a : AccessMeet} {m : Mem}

/-! ### Host reads (R305, R356) -/

theorem State.hostBytes_length (addr : Nat) (bad : List (Fin 8)) : (u.hostBytes addr bad).length = 64 := by
  have hw (b : List Byte) (w : Nat) : (if bad.any (fun k => k.val == w) then freeBytes (u.free + 1 + w) 8 else slice b (8 * w) 8).length = 8 := by
    split
    · simp [freeBytes]
    · exact slice_length ..
  unfold State.hostBytes
  split
  · exact List.length_replicate
  · dsimp only
    rw [List.length_flatMap]
    simp only [hw]
    rfl

theorem slice_of_le (b : List Byte) {off n : Nat} (h : off + n ≤ b.length) : slice b off n = (b.drop off).take n := by
  have hl : ((b.drop off).take n).length = n := by
    rw [List.length_take, List.length_drop]
    omega
  rw [slice, hl, Nat.sub_self, List.replicate_zero, List.append_nil]

theorem flatMap_slice (b : List Byte) (n : Nat) (h : 8 * n ≤ b.length) :
    ((List.range n).flatMap fun w => slice b (8 * w) 8) = b.take (8 * n) := by
  induction n with
  | zero => rfl
  | succ n ih =>
    rw [List.range_succ, List.flatMap_append, ih (by omega), List.flatMap_singleton, slice_of_le b (by omega), Nat.mul_succ,
      List.take_add]

theorem State.hostBytes_good (addr : Nat) (hr : u.mem.st = .running) : u.hostBytes addr [] =
    if u.capacity ≤ addr then List.replicate 64 0 else memReadAll 0 u.mem.cells addr 64 := by
  unfold State.hostBytes
  split
  · rfl
  · have hl : (memReadAll 0 u.mem.cells addr 64).length = 8 * 8 := by simp [memReadAll]
    dsimp only
    rw [hr]
    exact (flatMap_slice _ 8 (Nat.le_of_eq hl.symm)).trans (List.take_of_length_le (Nat.le_of_eq hl))

/-- The read with the bytes of its next access. -/
def HostRead.served_ (h : HostRead) (u : State) (bad : List (Fin 8)) : HostRead :=
  { h with served := h.served ++ u.hostBytes h.next bad, poisoned := h.poisoned || !bad.isEmpty }

/-- The words with errors count where DRAM is reached. -/
def State.badWords (u : State) (h : HostRead) (a : AccessMeet) : List (Fin 8) := if decide (u.capacity ≤ h.next) then [] else a.bad

/-- A completion and its message move outputs and PCI Express alone. -/
theorem State.completeHost_facts (ht : t = y.completeHost g) : t = { y with pcie := t.pcie, outputs := t.outputs } ∧
    t.pcie.bar2Reads = y.pcie.bar2Reads ∧ (g.poisoned = false → .completion (.data g.data) ∈ t.outputs) := by
  have he (x : State) (k : Fin 8) : x.msixEvent k = { x with pcie := (x.msixEvent k).pcie, outputs := (x.msixEvent k).outputs } ∧
      (x.msixEvent k).pcie.bar2Reads = x.pcie.bar2Reads := by
    unfold State.msixEvent
    split
    · dsimp only
      split
      · exact ⟨rfl, rfl⟩
      · split
        · exact ⟨rfl, rfl⟩
        · exact ⟨rfl, rfl⟩
    · exact ⟨rfl, rfl⟩
  unfold State.completeHost at ht
  split at ht
  · next hp =>
    obtain ⟨h1, h2⟩ := he { y.send (.completion (.poisoned g.data)) with pcie := { y.pcie with poisoned := y.pcie.poisoned + 1 } } 7
    rw [ht]
    exact ⟨h1, h2, fun hn => absurd (hp.symm.trans hn) (by decide)⟩
  · rw [ht]
    exact ⟨rfl, rfl, fun _ => List.mem_cons_self⟩

/-- The access of a host read has been counted, and its words' errors. -/
theorem State.serveHost_cases (hx : u.mem.host = h :: rest) : ∃ y, y.Serves { u with
        free := u.free + 9
        pcie := { u.pcie with bar2Reads := u.pcie.bar2Reads + 1 } } { u.mem with
        host := if decide ((h.served_ u (u.badWords h a)).accesses ≤ (h.served_ u (u.badWords h a)).served.length / 64) then rest
          else h.served_ u (u.badWords h a) :: rest
        ports := servedPorts u.mem 2
        requestAt := u.now } ∧
      u.serveHost a = if decide ((h.served_ u (u.badWords h a)).accesses ≤ (h.served_ u (u.badWords h a)).served.length / 64) then
        y.completeHost (h.served_ u (u.badWords h a)) else y := by
  obtain ⟨x, hxu⟩ : ∃ x : State, x = { u with
      free := u.free + 9
      pcie := { u.pcie with bar2Reads := u.pcie.bar2Reads + 1 } } := ⟨_, rfl⟩
  obtain ⟨g, hg⟩ : ∃ g, g = h.served_ u (u.badWords h a) := ⟨_, rfl⟩
  obtain ⟨z, hz⟩ : ∃ z, z = (x.setMem fun m => { m with
      host := if decide (g.accesses ≤ g.served.length / 64) then rest else g :: rest
      requestAt := x.now }).served 2 := ⟨_, rfl⟩
  have hzx : z = { x with mem := z.mem } := by rw [hz]; rfl
  have hzm : z.mem = { u.mem with
        host := if decide (g.accesses ≤ g.served.length / 64) then rest else g :: rest
        ports := servedPorts u.mem 2
        requestAt := u.now } := by rw [hz, hxu]; rfl
  rw [← hxu, ← hg, ← hzm]
  refine ⟨if decide (u.capacity ≤ h.next) then z else
    (z.accessed 2 h.next).memErrors a.corrected ((u.badWords h a).map fun k => h.next + 8 * k.val), ?_, ?_⟩
  · split
    · exact .of_setMem hzx
    · exact (State.Serves.accessed hzx _).ecc (State.memErrors_eccMoves ..)
  · unfold State.serveHost
    rw [hx, hz, hg, hxu]
    rfl

theorem HostRead.served_length (bad : List (Fin 8)) : (h.served_ u bad).served.length / 64 = h.served.length / 64 + 1 := by
  rw [HostRead.served_, List.length_append, State.hostBytes_length]
  omega

theorem HostRead.served_accesses (bad : List (Fin 8)) : (h.served_ u bad).accesses = h.accesses := rfl

theorem State.serveHost_facts (hx : u.mem.host = h :: rest) (ht : t = u.serveHost a) :
    t.mem.ports = servedPorts u.mem 2 ∧ t.mem.cells = u.mem.cells ∧
         t.pcie.bar2Reads = u.pcie.bar2Reads + 1 ∧ t.mem.rt = u.mem.rt ∧ t.mem.snap = u.mem.snap ∧
         (h.accesses ≤ h.served.length / 64 + 1 → t.mem.host = rest) ∧
         (h.accesses = 1 → h.served = [] → h.poisoned = false → a.bad = [] → u.mem.st = .running →
           (h.offset / 64 * 64 < u.capacity →
             .completion (.data (slice (memReadAll 0 u.mem.cells (h.offset / 64 * 64) 64) (h.offset % 64) h.length)) ∈ t.outputs) ∧
           (u.capacity ≤ h.offset / 64 * 64 →
             .completion (.data (slice (List.replicate 64 0) (h.offset % 64) h.length)) ∈ t.outputs)) ∧
         OnlyReports t { u with mem := t.mem, pcie := t.pcie, free := t.free, outputs := t.outputs } := by
  obtain ⟨y, hy, he⟩ := State.serveHost_cases (a := a) hx
  obtain ⟨b, hb⟩ : ∃ b, b = u.badWords h a := ⟨_, rfl⟩
  obtain ⟨g, hg⟩ : ∃ g, g = h.served_ u b := ⟨_, rfl⟩
  rw [← hb, ← hg] at he hy
  obtain ⟨hf, hrt, hsn, hho, -, -, hpo, hce⟩ := hy
  have hfin : t = { y with pcie := t.pcie, outputs := t.outputs } ∧ t.pcie.bar2Reads = y.pcie.bar2Reads ∧
      (h.accesses ≤ h.served.length / 64 + 1 → g.poisoned = false → .completion (.data g.data) ∈ t.outputs) := by
    rw [← ht] at he
    split at he
    · obtain ⟨k1, k2, k3⟩ := State.completeHost_facts he
      exact ⟨k1, k2, fun _ => k3⟩
    · next hn =>
      rw [he]
      refine ⟨rfl, rfl, fun hk => absurd ?_ hn⟩
      rw [hg, HostRead.served_length, HostRead.served_accesses]
      exact decide_eq_true hk
  obtain ⟨hty, hbar, hout⟩ := hfin
  have htm : t.mem = y.mem := by rw [hty]
  have hbary : y.pcie.bar2Reads = u.pcie.bar2Reads + 1 := (congrArg (fun x : State => x.pcie.bar2Reads) hf :)
  have htf : t.free = y.free := by rw [hty]
  have hyf : y.free = u.free + 9 := (congrArg State.free hf :)
  refine ⟨by rw [htm, hpo], by rw [htm, hce], hbar.trans hbary, by rw [htm, hrt], by rw [htm, hsn], fun hk => ?_,
    fun h1 hs hp hbad hr => ?_, ?_⟩
  · rw [htm, hho, hg, HostRead.served_length, HostRead.served_accesses, if_pos (decide_eq_true hk)]
  · have hb0 : b = [] := by
      rw [hb, State.badWords, hbad]
      split <;> rfl
    have hnext : h.next = h.offset / 64 * 64 := by rw [HostRead.next, hs]; rfl
    have hgp : g.poisoned = false := by rw [hg, hb0, HostRead.served_, hp]; rfl
    have hmem := hout (by omega) hgp
    have hdata : g.data = slice (u.hostBytes (h.offset / 64 * 64) []) (h.offset % 64) h.length := by
      rw [hg, hb0, HostRead.data, HostRead.served_, hs, hnext]
      rfl
    rw [hdata, State.hostBytes_good _ hr] at hmem
    refine ⟨fun hc => ?_, fun hc => ?_⟩
    · rwa [if_neg (Nat.not_le.mpr hc)] at hmem
    · rwa [if_pos hc] at hmem
  · rw [htm, htf, hyf]
    have e : t.hushed = { y.hushed with pcie := t.hushed.pcie, outputs := t.hushed.outputs } := congrArg State.hushed hty
    exact e.trans (congrArg (fun z : State => { z with pcie := t.hushed.pcie, outputs := t.hushed.outputs }) hf :)

end

/-- Settles O41: each port's access by what it serves, and the choice by the ports that the panic level leaves. -/
theorem memoryPortsServe : Obligations.MemoryPortsServe := by
  unfold Obligations.MemoryPortsServe
  refine ⟨fun s u dt a hu hs hw => ⟨fun hp hm => exec_memAccessBoundary_refresh hu hs hp hm, fun hp => ?_, fun hr hh hc hd =>
    exec_scrubRequest hu hs hr hh hc hd⟩, fun s p h => State.choosePort_facts h⟩
  have e := exec_memAccessBoundary (a := a) hu hs hp
  refine ⟨fun x rest hx hc => ?_, fun x rest hx hc => ?_, fun h rest hx hc => ?_, fun x hx hc => ?_⟩ <;> rw [hc] at e
  · have h := State.serveRt_serves hx
    refine ⟨_, e, h.rt, h.snap, h.host, h.scrub, ?_, fun b i c hb hi => ?_, fun y hy => ?_, h.frame⟩
    · exact (congrArg (fun v : Vector MemPort 4 => v[(0 : Fin 4)].accesses) h.ports :).trans (servedPorts_accesses u.mem 0)
    · exact (congrArg (fun c => memRead 0 c (x.addr + i)) h.cells :).trans (u.mem.store_inside x hw hb hi)
    · exact (congrArg (fun c => memRead 0 c y) h.cells :).trans (u.mem.store_outside x hw hy)
  · have h := State.serveSnap_serves a.corrected hx
    refine ⟨_, e, ?_, h.rt, h.host, ?_, fun b i c hb hi => ?_, fun y hy => ?_, h.frame⟩
    · exact (congrArg (List.map fun (a : Access) => a.addr) h.snap :).trans (snapAfter_addr ..)
    · exact (congrArg (fun v : Vector MemPort 4 => v[(1 : Fin 4)].accesses) h.ports :).trans (servedPorts_accesses u.mem 1)
    · exact (congrArg (fun c => memRead 0 c (x.addr + i)) h.cells :).trans (u.mem.store_inside x hw hb hi)
    · exact (congrArg (fun c => memRead 0 c y) h.cells :).trans (u.mem.store_outside x hw hy)
  · obtain ⟨t, ht⟩ : ∃ t, t = u.serveHost a := ⟨_, rfl⟩
    obtain ⟨hports, hrest⟩ := State.serveHost_facts hx ht
    exact ⟨t, ht ▸ e, by rw [hports]; exact servedPorts_accesses u.mem 2, hrest⟩
  · have h := State.serveScrub_serves a hx
    exact ⟨_, e, h.scrub, h.scrubAddr, (congrArg (fun v : Vector MemPort 4 => v[(3 : Fin 4)].accesses) h.ports :).trans
      (servedPorts_accesses u.mem 3), h.cells, h.frame⟩

end Sys2Proof.Machine
